-- ==== Sys2Proof/Word.lean ====
section
/-!
DEFINITION. The byte, and the 64-bit register word of R3.
-/

namespace Sys2Proof

/-- One byte of a packet, a command or a memory (R1 orders them: the lowest offset holds the least significant bits). -/
abbrev Byte := BitVec 8

/-- A 64-bit register value or packet word. -/
abbrev Word := BitVec 64

end Sys2Proof
end

