-- ==== Sys2Proof/Syntax.lean ====
section
/-!
DEFINITION. The commands: one constructor of `Instr` per row of spec/opcode_table.json, with the row's operands, and the packets, flits,
messages and register writes that the operands are made of. Numbers that a field of a packet carries are plain numbers here; their
widths are those of the layout rules (R37, R38, R280, R288, R292, R298), which WellFormed checks.
-/

namespace Sys2Proof

/-- Who makes a BAR0 or BAR2 access: PCIe port A, PCIe port B, or the I3C controller (R6, R389). -/
inductive Bus where
  | pcieA | pcieB | i3c
  deriving DecidableEq, Repr

/-- Which part of a 64-bit register an aligned write covers (R3). -/
inductive Half where
  | full | low | high
  deriving DecidableEq, Repr

/-- A write to a register that the row names: who writes, which half, and the value in register position (R3). -/
structure RegW where
  bus : Bus
  half : Half
  data : Word
  deriving DecidableEq, Repr

/-- The 32-byte request header of R37, reserved bits included. -/
structure Hdr where
  type : Nat
  dup : Nat
  retry : Nat
  mov : Nat
  rsv1 : Nat
  tc : Nat
  rsv2 : Nat
  cmpt : Nat
  rsv3 : Nat
  tag : Nat
  src : Nat
  addr : Nat
  epoch : Nat
  sentTick : Nat
  length : Nat
  subop : Nat
  ward : Nat
  deriving DecidableEq, Repr

/-- A request packet: header, type-specific body from byte 32, payload (R37, R39). -/
structure Req where
  hdr : Hdr
  body : List Byte
  payload : List Byte
  deriving DecidableEq, Repr

/-- A response packet: the 16-byte header of R38 and the payload. -/
structure Resp where
  type : Nat
  dup : Nat
  retry : Nat
  tc : Nat
  status : Nat
  tag : Nat
  src : Nat
  dst : Nat
  sentTick : Nat
  epoch : Nat
  payload : List Byte
  deriving DecidableEq, Repr

/-- A packet on the fabric. -/
inductive Packet where
  | req (q : Req)
  | resp (r : Resp)
  deriving DecidableEq, Repr

/-- The framed engine classes, in TICK_OVR order (R28). -/
inductive UClass where
  | red | gth | flt | mtx | mov | pin
  deriving DecidableEq, Repr

/-- An admission unit (R28): reduce lane 64 × die + lane, engine 0 to 31, or pin-core thread 8 × core + thread. -/
structure UnitId where
  cls : UClass
  n : Nat
  deriving DecidableEq, Repr

/-- A command in a Keyway: the Keyway (compartment) and its submission index (R254). -/
structure CmdRef where
  kw : Fin 16
  idx : Nat
  deriving DecidableEq, Repr

/-- A flit as received or sent: the header of R280 and its 240 slot bytes; `bad` says that FEC marked it or that its CRC failed
(R283). -/
structure Flit where
  bad : Bool
  kind : Nat
  nak : Nat
  ackValid : Nat
  seq : Nat
  ackSeq : Nat
  crTcA : Nat
  crTcB : Nat
  cumA : Nat
  cumB : Nat
  start : Nat
  slots : List Byte
  crc : Nat
  deriving DecidableEq, Repr

/-- A TSYNC message (R288); times are in 1/256 ns, the flit's NS and FRAC parts together. -/
structure TSync where
  bad : Bool
  timeValid : Nat
  exch : Nat
  ta : Nat
  tb : Nat
  tick : Nat
  baseNs : Nat
  periodUs : Nat
  nextUs : Nat
  switchAt : Nat
  deriving DecidableEq, Repr

/-- A PARAM message (R292). -/
structure ParamMsg where
  role : Nat
  reach : Nat
  seen : Nat
  afpVersion : Nat
  node : Nat
  fwVersion : Nat
  fwMin : Nat
  fwMax : Nat
  credits : List Nat
  digest : Nat
  reservedNonzero : Bool
  deriving DecidableEq, Repr

/-- A LANE_STATUS message (R298): RX_OMA per lane in 0.1 dBm and FFE_REQ per lane. -/
structure LaneStatusMsg where
  rxOma : List Int
  ffeReq : List Nat
  deriving DecidableEq, Repr

/-- An I3C or PCIe side of the two tray controllers. -/
inductive Side where
  | a | b
  deriving DecidableEq, Repr

/-- An event class of the fault collector (R340). -/
inductive FClass where
  | corrected | contained | fatal
  deriving DecidableEq, Repr

/-- What the flash layer found about a block that calls for its relocation (R135). -/
inductive RelocCause where
  | readCount | errorLevel | wear
  deriving DecidableEq, Repr

/-- How a flash read decoded (R135): at the first try, after offset retries, soft, or not at all. -/
inductive FlashDecode where
  | hard | retried | soft | failed
  deriving DecidableEq, Repr

/-- A PCIe configuration write that the row names (R383). -/
inductive CfgWrite where
  | functionMask (on : Bool)
  | vectorMask (v : Nat) (on : Bool)
  | powerState (d3 : Bool)
  deriving DecidableEq, Repr

/-- The fields of a signature block that verification reads (R330), with the image's content. -/
structure Image where
  magic : Nat
  format : Nat
  kind : Nat
  svn : Nat
  ecdsaKey : Nat
  lmsKey : Nat
  revokeEcdsa : Nat
  revokeLms : Nat
  reservedNonzero : Bool
  contentBytes : Nat
  digest : Nat
  ecdsaPub : List Byte
  lmsPub : List Byte
  ecdsaSig : List Byte
  lmsSig : List Byte
  /-- bytes 0 to 263 of the block, which both signatures cover -/
  signed : List Byte
  content : List Byte
  deriving DecidableEq, Repr

/-- The commands of the block: one constructor per row of spec/opcode_table.json, in the table's order. -/
inductive Instr where
  -- register access
  | registerWrite (bus : Bus) (off width : Nat) (data : Word)
  | mapHomeReqRead (bus : Bus) (half : Half)
  | memRepairCandRead (bus : Bus) (half : Half)
  | redStraggler0Read (bus : Bus) (half : Half)
  | fltCheckLog0Read (bus : Bus) (half : Half)
  -- fabric time and ticks
  | tickRun (w : RegW)
  | masterTickStart
  | tickStart
  | syncReqSend (lead : Nat)
  | syncReq (p : Fin 32) (m : TSync) (since wait : Nat)
  | syncResp (p : Fin 32) (m : TSync) (since : Nat)
  | holdover
  | holdoverErrorLimit
  | tickBoundary
  | periodChange
  | tickPeriodWrite (w : RegW)
  | switchAtWrite (w : RegW)
  | tickRefEdge
  | tickRefMissing
  | itemAdmit (u : UnitId) (t : Nat)
  | itemEnd (u : UnitId) (t : Nat)
  | tickClrCnt (w : RegW)
  -- requests and responses
  | read (x : Fin 48) (q : Req)
  | write (x : Fin 48) (q : Req)
  | atomic (x : Fin 48) (q : Req)
  | triggerEntry (x : Fin 48) (q : Req)
  | triggerCommand (x : Fin 48) (q : Req)
  | contrib (x : Fin 48) (q : Req)
  | gatherReq (x : Fin 48) (q : Req)
  | filterReq (x : Fin 48) (q : Req)
  | scoreReq (x : Fin 48) (q : Req)
  | fence (x : Fin 48) (q : Req)
  | msg (x : Fin 48) (q : Req)
  | lend (x : Fin 48) (q : Req)
  | reclaim (x : Fin 48) (q : Req)
  | publish (x : Fin 48) (q : Req)
  | response (x : Fin 48) (r : Resp)
  | requestResend (tag : Nat)
  | requestTimeout (tag : Nat)
  | busyResend (n : Nat)
  | tagWaitIssue
  -- maps
  | mapStageStore (w : RegW) (n : Fin 4)
  | mapArmWrite (w : RegW)
  | mapCommit
  | joinCommit
  | hingeRetire
  | hingeTimeout
  | mapQuiesceWrite (w : RegW)
  | quiesceDone
  | mapRevokeGo (w : RegW)
  | revokeDone
  | revokeDrainTimeout
  | handoverSend (entry : Nat)
  | handover (x : Fin 48) (q : Req)
  | handoverAck (x : Fin 48) (r : Resp)
  | handoverResend (entry : Nat)
  | handoverDeadline (entry : Nat)
  | homeRevert (x : Fin 48) (q : Req)
  | homeRevertResend (entry : Nat)
  | mapClrCnt (w : RegW)
  -- stacks
  | stackTrainingEnd (h : Fin 12) (ok : Bool) (repairs : Nat)
  | stampingEnd
  | releaseStampEnd (frame : Nat)
  | patrolScrub (cell : Nat) (newSyms : Nat)
  | memRetireWrite (w : RegW)
  | memFlipArm (w : RegW)
  | memClrCnt (w : RegW)
  -- tiers and the Placer
  | fetchGranuleArrive (entry page granule : Nat) (how : FlashDecode)
  | heatDecay
  | evict
  | demotionEnd (entry page : Nat)
  | hintPrefetch (w : RegW)
  | hintCold (w : RegW)
  | hintKeep (w : RegW)
  | hintUnkeep (w : RegW)
  | hintDrop (w : RegW)
  | scheduleReplace (c : Fin 16)
  | stagingStart (c : Fin 16) (tile : Nat)
  | tileLate (c : Fin 16) (tile : Nat)
  | tileRelease (c : Fin 16) (tile : Nat)
  | reclaimNoticeEnd (n : Nat)
  | homeCopy (x : Fin 48) (q : Req)
  | homeLine (x : Fin 48) (q : Req)
  | pullEnd (entry : Nat)
  | copyDone (x : Fin 48) (q : Req)
  | copyCancel (x : Fin 48) (q : Req)
  | domainStatus (x : Fin 48) (q : Req)
  | domainStatusSend
  | controlResend (n : Nat)
  | copyCancelTimeout (entry : Nat)
  | copyHoldExpiry (entry : Nat)
  | homeCopyStart (entry : Nat)
  | frameMoveEnd (frame : Nat)
  | blockRelocate (block : Nat) (cause : RelocCause)
  | programFail (block : Nat)
  | ftlReady (journalOk : Bool) (suspects failed : List Nat)
  | tierClrCnt (w : RegW)
  -- coherence
  | rdShared (x : Fin 48) (q : Req)
  | rdOwn (x : Fin 48) (q : Req)
  | upgrade (x : Fin 48) (q : Req)
  | wbDirty (x : Fin 48) (q : Req)
  | complete (x : Fin 48) (q : Req)
  | snpRsp (x : Fin 48) (q : Req)
  | transactionOpen (line : Nat) (dirOk : Bool)
  | snoopTimeout (line node : Nat)
  | completeTimeout (line : Nat)
  | cohRecallGo (w : RegW)
  | recallDone
  | cohDeadGo (w : RegW)
  | deadSweepEnd
  | cohPeekGo (w : RegW)
  | cohAgentDataWrite (w : RegW)
  | cohClrCnt (w : RegW)
  -- reduce streams
  | reduceSetupCreate (k : CmdRef)
  | reduceSetupDestroy (k : CmdRef)
  | reduceSetupRekey (k : CmdRef)
  | addItemEnd (lane : Fin 128)
  | outputItemEnd (lane : Fin 128)
  | updateItemEnd (lane : Fin 128)
  | relayDownEnd (lane : Fin 128)
  | roundDeadline (stream round : Nat)
  | redAbortGo (w : RegW)
  | redClrCnt (w : RegW)
  -- gather, filter, score
  | gather (k : CmdRef)
  | filter (k : CmdRef)
  | score (k : CmdRef)
  | selectionEntriesFree (k : CmdRef)
  | mergeStart (k : CmdRef)
  | gfsClrCnt (w : RegW)
  -- expander tables
  | cmpTableLoadGo (w : RegW)
  | tableSlotTake
  | tableLoadEnd
  | slotEmpty (table slot : Nat)
  | tableEccError (table slot : Nat)
  | cmpClrCnt (w : RegW)
  -- pin cores
  | compartmentSwitch (core : Fin 2048)
  | kill (core : Fin 2048) (t : Fin 8)
  | pinImageLoadGo (w : RegW)
  | imageLoadEnd
  | pinImageUnload (w : RegW)
  | unloadEnd
  | run (k : CmdRef)
  -- Tumbler instructions, issued by a thread of a core
  | tNop (core : Fin 2048) (t : Fin 8)
  | tAdd (core : Fin 2048) (t : Fin 8)
  | tSub (core : Fin 2048) (t : Fin 8)
  | tAnd (core : Fin 2048) (t : Fin 8)
  | tOr (core : Fin 2048) (t : Fin 8)
  | tXor (core : Fin 2048) (t : Fin 8)
  | tSll (core : Fin 2048) (t : Fin 8)
  | tSrl (core : Fin 2048) (t : Fin 8)
  | tSra (core : Fin 2048) (t : Fin 8)
  | tMul (core : Fin 2048) (t : Fin 8)
  | tMulhu (core : Fin 2048) (t : Fin 8)
  | tDivu (core : Fin 2048) (t : Fin 8)
  | tRemu (core : Fin 2048) (t : Fin 8)
  | tDivs (core : Fin 2048) (t : Fin 8)
  | tRems (core : Fin 2048) (t : Fin 8)
  | tClz (core : Fin 2048) (t : Fin 8)
  | tPopc (core : Fin 2048) (t : Fin 8)
  | tMovi (core : Fin 2048) (t : Fin 8)
  | tMovhi (core : Fin 2048) (t : Fin 8)
  | tFadd (core : Fin 2048) (t : Fin 8)
  | tFsub (core : Fin 2048) (t : Fin 8)
  | tFmul (core : Fin 2048) (t : Fin 8)
  | tFfma (core : Fin 2048) (t : Fin 8)
  | tFdiv (core : Fin 2048) (t : Fin 8)
  | tFsqrt (core : Fin 2048) (t : Fin 8)
  | tFmin (core : Fin 2048) (t : Fin 8)
  | tFmax (core : Fin 2048) (t : Fin 8)
  | tFcvt (core : Fin 2048) (t : Fin 8)
  | tCmp (core : Fin 2048) (t : Fin 8)
  | tCmpi (core : Fin 2048) (t : Fin 8)
  | tPand (core : Fin 2048) (t : Fin 8)
  | tPor (core : Fin 2048) (t : Fin 8)
  | tPnot (core : Fin 2048) (t : Fin 8)
  | tPset (core : Fin 2048) (t : Fin 8)
  | tPget (core : Fin 2048) (t : Fin 8)
  | tBr (core : Fin 2048) (t : Fin 8)
  | tJal (core : Fin 2048) (t : Fin 8)
  | tJr (core : Fin 2048) (t : Fin 8)
  | tEnd (core : Fin 2048) (t : Fin 8)
  | tTrap (core : Fin 2048) (t : Fin 8)
  | tCsrr (core : Fin 2048) (t : Fin 8)
  | tCsrw (core : Fin 2048) (t : Fin 8)
  | tSld (core : Fin 2048) (t : Fin 8)
  | tSst (core : Fin 2048) (t : Fin 8)
  | tVsld (core : Fin 2048) (t : Fin 8)
  | tVsst (core : Fin 2048) (t : Fin 8)
  | tLdslot (core : Fin 2048) (t : Fin 8)
  | tLd (core : Fin 2048) (t : Fin 8)
  | tSt (core : Fin 2048) (t : Fin 8)
  | tVld (core : Fin 2048) (t : Fin 8)
  | tVst (core : Fin 2048) (t : Fin 8)
  | tGet (core : Fin 2048) (t : Fin 8)
  | tPut (core : Fin 2048) (t : Fin 8)
  | tAtom (core : Fin 2048) (t : Fin 8)
  | tFence (core : Fin 2048) (t : Fin 8)
  | tVadd (core : Fin 2048) (t : Fin 8)
  | tVsub (core : Fin 2048) (t : Fin 8)
  | tVmul (core : Fin 2048) (t : Fin 8)
  | tVfma (core : Fin 2048) (t : Fin 8)
  | tVmin (core : Fin 2048) (t : Fin 8)
  | tVmax (core : Fin 2048) (t : Fin 8)
  | tVand (core : Fin 2048) (t : Fin 8)
  | tVor (core : Fin 2048) (t : Fin 8)
  | tVxor (core : Fin 2048) (t : Fin 8)
  | tVshl (core : Fin 2048) (t : Fin 8)
  | tVshr (core : Fin 2048) (t : Fin 8)
  | tVcmp (core : Fin 2048) (t : Fin 8)
  | tVmov (core : Fin 2048) (t : Fin 8)
  | tVsplat (core : Fin 2048) (t : Fin 8)
  | tVext (core : Fin 2048) (t : Fin 8)
  | tVins (core : Fin 2048) (t : Fin 8)
  | tVred (core : Fin 2048) (t : Fin 8)
  | tVcvt (core : Fin 2048) (t : Fin 8)
  | tVdot (core : Fin 2048) (t : Fin 8)
  | tVperm (core : Fin 2048) (t : Fin 8)
  | tVdiv (core : Fin 2048) (t : Fin 8)
  | tVsqrt (core : Fin 2048) (t : Fin 8)
  | pinClrCnt (w : RegW)
  -- Keyways and commands
  | keywayWrite (bus : Bus) (off width : Nat) (data : Word)
  | heldZoneAccept (c : Fin 16) (z : Fin 8)
  | zoneTimeout (c : Fin 16) (z : Fin 8)
  | move (k : CmdRef)
  | fill (k : CmdRef)
  | publishCommand (k : CmdRef)
  | schedule (k : CmdRef)
  | lendCommand (k : CmdRef)
  | reclaimCommand (k : CmdRef)
  | fenceCommand (k : CmdRef)
  | translationEnd (k : CmdRef)
  | pagesResident (k : CmdRef)
  | hostFillEnd (k : CmdRef) (granules : List (Nat × List Byte))
  | afterRelease (k : CmdRef)
  | commandComplete (k : CmdRef)
  | subCqHeadWrite (w : RegW)
  | subMqHeadWrite (w : RegW)
  | subXlateInvalGo (w : RegW)
  | xlateInvalDone
  | subClrCnt (w : RegW)
  -- links
  | dataFlit (p : Fin 32) (f : Flit)
  | idleFlit (p : Fin 32) (f : Flit)
  | replayTimeout (p : Fin 32)
  | nakTimeout (p : Fin 32)
  | paramSend (p : Fin 32)
  | param (p : Fin 32) (m : ParamMsg)
  | laneStatusSend (p : Fin 32)
  | laneStatus (p : Fin 32) (m : LaneStatusMsg)
  | linkLight (p : Fin 32)
  | codewordLock (p : Fin 32)
  | trainDone (p : Fin 32) (own partner : BitVec 8)
  | linkStateTimeout (p : Fin 32)
  | backoffEnd (p : Fin 32)
  | laneLoss (p : Fin 32) (lane : Fin 8)
  | laserFeedLoss (t : Fin 4) (f : Fin 4)
  | laserFeedReturn (t : Fin 4) (f : Fin 4)
  | laserLoop (t : Fin 4) (f : Fin 4)
  | lnkRetrainWrite (w : RegW) (p : Fin 32)
  | lnkEnableWrite (w : RegW) (p : Fin 32)
  | lnkClrCnt (w : RegW) (p : Fin 32)
  -- switch core
  | xbarShaperWrite (w : RegW) (o : Fin 48) (c : Fin 8)
  | xbarGateEntryGo (w : RegW)
  | xbarGateSwapAtWrite (w : RegW) (p : Fin 32)
  | gateSwap (p : Fin 32)
  | gateEntryEnd (p : Fin 32)
  | queueSample
  | xbarClrCnt (w : RegW)
  -- compartments, keys, trust
  | secMemberDataWrite (w : RegW)
  | secScrubGo (w : RegW)
  | stopPhaseEnd
  | scrubDone
  | viewRecord (c : Fin 16)
  | secSvnCommit (w : RegW)
  | svnCommitEnd (fuseOk : Bool)
  | getVersion (s : Side)
  | getCapabilities (s : Side) (version : Nat)
  | negotiateAlgorithms (s : Side)
  | getDigests (s : Side)
  | getCertificate (s : Side) (slot offset length : Nat)
  | challenge (s : Side) (slot : Nat) (nonce : List Byte)
  | getMeasurements (s : Side) (index : Nat) (nonce : List Byte)
  | vendorDefinedRequest (s : Side) (vendor code : Nat)
  | spdmUnsupported (s : Side) (code : Nat)
  | secClrCnt (w : RegW)
  -- faults and health
  | faultEvent (group : Fin 64) (cls : FClass) (unit reg others : Nat)
  | collectorFault
  | fltFenceGo (w : RegW)
  | fltUnfence (w : RegW)
  | checkRun (u : UnitId) (checkerAgrees thirdWithUnit thirdWithChecker : Bool)
  | checkDrop (u : UnitId)
  | fltTestEnter (w : RegW)
  | fltInjectGo (w : RegW)
  | fltInjectMiscompare (w : RegW)
  | monitorWindowEnd (m : Fin 16)
  | fltClrCnt (w : RegW)
  -- power
  | powerStateMove
  | powerExitEnd
  | sleep (p : Fin 32) (flitTime : Nat)
  | wake (p : Fin 32) (flitTime : Nat)
  | narrowAt (p : Fin 32) (tx : Bool) (lanesReady : Bool)
  | throttleLower (avgW : Nat)
  | throttleRaise (avgW : Nat)
  | throttleFault (avgW : Nat)
  | fastTrip (avgW : Nat)
  | avsStep (rail : Fin 2) (margin target floorM : Int)
  | avsNoAnswer (rail : Fin 2)
  | thermalReading (sensor : Fin 42) (quarterC : Nat)
  | sagWarning (rail : Nat)
  | sagWarningClear
  | sagCritical (rail : Nat)
  | pwrBudgetWrite (w : RegW) (n : Fin 2)
  | pwrClrCnt (w : RegW)
  -- start, configuration, management
  | powerOnReset (trayId : BitVec 6) (factoryTest : Bool)
  | resetN (trayId : BitVec 6) (factoryTest : Bool) (vddIoHeld : Bool)
  | i3cTargetReset
  | mgtResetGo (w : RegW)
  | bootRomEnd (fusesOk : Bool)
  | configCheckEnd
  | mgtSealGo (w : RegW)
  | sealHoldExpiry
  | mgtUpdGo (w : RegW) (image : Option Image)
  | updateEnd (flashOk : Bool)
  | mgtBootConfirm (w : RegW)
  | mgtBootSetTrial (w : RegW)
  | mgtOwnerClaim (w : RegW)
  | mgtOwnerRelease (w : RegW)
  | leaseLapse
  | bar4Read (s : Side) (off length : Nat)
  | bar4Write (s : Side) (off : Nat) (data : List Byte)
  | pcieLinkDown (s : Side) (perst : Bool)
  | perstDeassert (s : Side)
  | entdaa (da : BitVec 7)
  | rstdaa
  | enec
  | disec
  | getpid
  | getbcr
  | getdcr
  | getstatus
  | i3cPrivateRead (off : Nat)
  | i3cPrivateWrite (off : Nat) (data : Word)
  | glbNodeWrite (w : RegW)
  | schedulerSlot
  | flitSend (p : Fin 32)
  | slackStampEnd (entry page : Nat)
  | pcieLinkUp (s : Side)
  | pcieConfigWrite (s : Side) (c : CfgWrite)
  deriving DecidableEq, Repr

end Sys2Proof
end

