-- ==== Sys2Proof/Decode.lean ====
section
/-!
DEFINITION. Decoding of table words. No row of spec/opcode_table.json gives bits: the commands of the block are accesses, packets and
events, each with the layout that its own rule gives, so no word spells one.
-/

namespace Sys2Proof

/-- The command that a word of `nbits` bits spells by the table's bits: none, for no row has bits. -/
def decodeTableWord (_nbits _w : Nat) : Option Instr := none

end Sys2Proof
end

