-- ==== Sys2Proof/Machine/Regs.lean ====
section
/-!
DEFINITION. The BAR0 registers: every field of every register block of the chapters (R3, R4), with its place, its access
type and the reset value its table states. A field is keyed by its bit address in BAR0, 8 times the byte offset of its register plus
its lowest bit. A field whose table states no number (fused, strap, record, derived) has reset value 0 here: assumption 2; of those, GLB_RESET_CAUSE CAUSE has
1 (power-on) and MGT_I3C SEQ_IN, a pin, has 1: assumption 11.
Each name is the manual's register name, an underscore and its field name; a register that repeats takes its index as an argument
(`p` a port, `i` the place in the manual's list of the register's names).
-/

namespace Sys2Proof.Machine

/-- The access types of R4. -/
inductive Acc where
  | ro | rw | w1c | wo | rws
  deriving DecidableEq, Repr

/-- A register field: bit address, width in bits, access type (R4) and reset value. -/
structure Fld where
  key : Nat
  wid : Nat
  acc : Acc
  rst : Nat
  deriving DecidableEq, Repr

/-- A register (or an array of them): BAR0 offset of the first, up to two dimensions (count, stride in bytes), and the fields
of the instance `i j`. -/
structure RegDesc where
  base : Nat
  dims : List (Nat × Nat)
  fields : Nat → Nat → List Fld

namespace F

def TICK_CTRL_RUN : Fld := ⟨0x1000000, 1, .rw, 0⟩
def TICK_CTRL_MASTER : Fld := ⟨0x1000001, 1, .rws, 0⟩
def TICK_CTRL_REF_EN : Fld := ⟨0x1000002, 1, .rws, 0⟩
def TICK_CTRL_SERVO_FREEZE : Fld := ⟨0x1000003, 1, .rw, 0⟩
def TICK_CTRL_ADMIT_FREEZE : Fld := ⟨0x1000004, 1, .rw, 0⟩
def TICK_CTRL_CLR_CNT : Fld := ⟨0x1000005, 1, .wo, 0⟩
def TICK_STATUS_RUNNING : Fld := ⟨0x1000040, 1, .ro, 0⟩
def TICK_STATUS_SPLIT : Fld := ⟨0x1000041, 1, .ro, 0⟩
def TICK_STATUS_HOLDOVER : Fld := ⟨0x1000042, 1, .ro, 0⟩
def TICK_STATUS_REF_MISSING : Fld := ⟨0x1000043, 1, .w1c, 0⟩
def TICK_STATUS_SWITCH_REFUSED : Fld := ⟨0x1000044, 1, .w1c, 0⟩
def TICK_STATUS_SPLIT_SEEN : Fld := ⟨0x1000045, 1, .w1c, 0⟩
def TICK_TIME_TIME_NS : Fld := ⟨0x1000080, 64, .ro, 0⟩
def TICK_COUNT_TICK : Fld := ⟨0x10000C0, 64, .ro, 0⟩
def TICK_PERIOD_PERIOD_US : Fld := ⟨0x1000100, 7, .ro, 8⟩
def TICK_PERIOD_NEXT_US : Fld := ⟨0x1000108, 7, .rw, 8⟩
def TICK_PERIOD_ARMED_US : Fld := ⟨0x1000110, 7, .ro, 0⟩
def TICK_SWITCH_SWITCH_AT : Fld := ⟨0x1000140, 64, .rw, 18446744073709551615⟩
def TICK_TIME_SET_TIME_NS : Fld := ⟨0x1000180, 64, .wo, 0⟩
def TICK_PARENT_PORT : Fld := ⟨0x10001C0, 5, .rw, 0⟩
def TICK_PARENT_VALID : Fld := ⟨0x10001C8, 1, .rw, 0⟩
def TICK_OFFSET_OFFSET_PS : Fld := ⟨0x1000200, 32, .ro, 0⟩
def TICK_OFFSET_DELAY_PS : Fld := ⟨0x1000220, 32, .ro, 0⟩
def TICK_LIMITS_HOLD_PPM : Fld := ⟨0x1000240, 8, .rws, 20⟩
def TICK_BUDGET_RED_SHARE : Fld := ⟨0x1000280, 6, .rw, 60⟩
def TICK_BUDGET_GTH_SHARE : Fld := ⟨0x1000288, 6, .rw, 60⟩
def TICK_BUDGET_FLT_SHARE : Fld := ⟨0x1000290, 6, .rw, 60⟩
def TICK_BUDGET_MTX_SHARE : Fld := ⟨0x1000298, 6, .rw, 60⟩
def TICK_BUDGET_MOV_SHARE : Fld := ⟨0x10002A0, 6, .rw, 60⟩
def TICK_BUDGET_PIN_SHARE : Fld := ⟨0x10002A8, 6, .rw, 60⟩
def TICK_REF_PERIOD_PERIOD_US : Fld := ⟨0x10002C0, 20, .rws, 1000000⟩
def TICK_OVR_OVERRUNS (i : Nat) : Fld := ⟨0x1000300 + 0x40 * i, 32, .ro, 0⟩
def TICK_OVR_LONG_OVERRUNS (i : Nat) : Fld := ⟨0x1000320 + 0x40 * i, 32, .ro, 0⟩
def TICK_EVENTS_SPLIT_ENTRIES : Fld := ⟨0x1000480, 16, .ro, 0⟩
def TICK_EVENTS_SWITCH_REFUSALS : Fld := ⟨0x1000490, 16, .ro, 0⟩
def TICK_EVENTS_REF_MISSED : Fld := ⟨0x10004A0, 16, .ro, 0⟩
def TICK_EVENTS_BIG_ADMITS : Fld := ⟨0x10004B0, 16, .ro, 0⟩
def TICK_LONG_LOG_CLASS : Fld := ⟨0x10004C0, 3, .ro, 0⟩
def TICK_LONG_LOG_UNIT : Fld := ⟨0x10004C3, 14, .ro, 0⟩
def TICK_LONG_LOG_TICK : Fld := ⟨0x10004D1, 32, .ro, 0⟩
def TICK_LONG_LOG_OVERFLOW : Fld := ⟨0x10004FE, 1, .w1c, 0⟩
def TICK_LONG_LOG_VALID : Fld := ⟨0x10004FF, 1, .w1c, 0⟩
def MAP_CTRL_REACH : Fld := ⟨0x1800000, 1, .rws, 0⟩
def MAP_CTRL_HOME_REQ_EN : Fld := ⟨0x1800001, 1, .rw, 0⟩
def MAP_CTRL_CLR_CNT : Fld := ⟨0x1800002, 1, .wo, 0⟩
def MAP_EPOCH_CURRENT : Fld := ⟨0x1800040, 16, .ro, 0⟩
def MAP_EPOCH_PREVIOUS : Fld := ⟨0x1800050, 16, .ro, 0⟩
def MAP_EPOCH_HINGE : Fld := ⟨0x1800060, 1, .ro, 0⟩
def MAP_ARM_COMMIT_AT : Fld := ⟨0x1800080, 64, .rw, 18446744073709551615⟩
def MAP_STATUS_ARMED : Fld := ⟨0x18000C0, 1, .ro, 0⟩
def MAP_STATUS_ARM_REFUSED : Fld := ⟨0x18000C1, 1, .w1c, 0⟩
def MAP_STATUS_REFUSE_CAUSE : Fld := ⟨0x18000C4, 4, .ro, 0⟩
def MAP_STATUS_LOCKED_WRITES : Fld := ⟨0x18000C8, 16, .ro, 0⟩
def MAP_STATUS_PREV_INFLIGHT : Fld := ⟨0x18000E0, 32, .ro, 0⟩
def MAP_HINGE_TIMEOUT_US : Fld := ⟨0x1800100, 16, .rw, 5000⟩
def MAP_HINGE_GRACE_US : Fld := ⟨0x1800110, 16, .rw, 1000⟩
def MAP_HINGE_MIN_US : Fld := ⟨0x1800120, 16, .rw, 12⟩
def MAP_STAGE_INDEX_INDEX : Fld := ⟨0x1800140, 16, .rw, 0⟩
def MAP_STAGE_INDEX_ROUTE : Fld := ⟨0x1800150, 1, .rw, 0⟩
def MAP_STAGE_INDEX_VIEW : Fld := ⟨0x1800151, 1, .rw, 0⟩
def MAP_STAGE_DATA_WORD (i : Nat) : Fld := ⟨0x1800180 + 0x40 * i, 64, .rw, 0⟩
def MAP_REVOKE_ENTRY : Fld := ⟨0x1800280, 16, .wo, 0⟩
def MAP_REVOKE_GO : Fld := ⟨0x1800290, 1, .wo, 0⟩
def MAP_REVOKE_STATUS_DRAINING : Fld := ⟨0x18002C0, 1, .ro, 0⟩
def MAP_REVOKE_STATUS_DONE : Fld := ⟨0x18002C1, 1, .w1c, 0⟩
def MAP_REVOKE_STATUS_ABORTED : Fld := ⟨0x18002C2, 1, .w1c, 0⟩
def MAP_REVOKE_STATUS_ENTRY : Fld := ⟨0x18002D0, 16, .ro, 0⟩
def MAP_REVOKE_STATUS_PENDING : Fld := ⟨0x18002E0, 32, .ro, 0⟩
def MAP_REVOKE_DRAIN_DRAIN_US : Fld := ⟨0x1800300, 16, .rw, 1000⟩
def MAP_QUIESCE_CMPT_MASK : Fld := ⟨0x1800340, 16, .rw, 0⟩
def MAP_QUIESCE_DONE : Fld := ⟨0x1800360, 1, .ro, 0⟩
def MAP_DOMAIN_MEMBER (i j : Nat) : Fld := ⟨0x1800380 + 0x40 * i + 16 * j, 16, .rw, 0xFFFE⟩
def MAP_HOME_REQ_ENTRY : Fld := ⟨0x1800480, 16, .ro, 0⟩
def MAP_HOME_REQ_NEW_HOME : Fld := ⟨0x1800490, 16, .ro, 0⟩
def MAP_HOME_REQ_EPOCH : Fld := ⟨0x18004A0, 16, .ro, 0⟩
def MAP_HOME_REQ_VALID : Fld := ⟨0x18004B0, 1, .ro, 0⟩
def MAP_PUB_CONFLICT_ENTRY : Fld := ⟨0x18004C0, 16, .ro, 0⟩
def MAP_PUB_CONFLICT_OTHER : Fld := ⟨0x18004D0, 16, .ro, 0⟩
def MAP_PUB_CONFLICT_VERSION : Fld := ⟨0x18004E0, 32, .ro, 0⟩
def MAP_EVENTS_HINGE_TIMEOUTS : Fld := ⟨0x1800500, 16, .ro, 0⟩
def MAP_EVENTS_FORCED : Fld := ⟨0x1800510, 16, .ro, 0⟩
def MAP_EVENTS_REVERTS : Fld := ⟨0x1800520, 16, .ro, 0⟩
def MAP_EVENTS_FUTURE_EPOCH : Fld := ⟨0x1800530, 16, .ro, 0⟩
def MAP_EVENTS2_PUB_CONFLICTS : Fld := ⟨0x1800540, 16, .ro, 0⟩
def MAP_EVENTS2_REVOKE_ABORTS : Fld := ⟨0x1800550, 16, .ro, 0⟩
def MAP_EVENTS2_LATE_DROPS : Fld := ⟨0x1800560, 16, .ro, 0⟩
def MAP_EVENTS2_ARM_REFUSALS : Fld := ⟨0x1800570, 16, .ro, 0⟩
def MAP_JOIN_EPOCH : Fld := ⟨0x1800580, 16, .rw, 0⟩
def MAP_JOIN_JOIN : Fld := ⟨0x1800590, 1, .rw, 0⟩
def MAP_DUP_CACHE_FULL : Fld := ⟨0x18005C0, 16, .ro, 0⟩
def MAP_DUP_PENDING_DROPS : Fld := ⟨0x18005D0, 16, .ro, 0⟩
def MAP_DUP_AGED_OUT : Fld := ⟨0x18005E0, 16, .ro, 0⟩
def MAP_DUP_REVOKE_IGNORED : Fld := ⟨0x18005F0, 16, .ro, 0⟩
def MEM_CTRL_SCRUB_EN : Fld := ⟨0x3000000, 1, .rw, 1⟩
def MEM_CTRL_CLR_CNT : Fld := ⟨0x3000001, 1, .wo, 0⟩
def MEM_STATUS_TRAINED : Fld := ⟨0x3000040, 12, .ro, 0⟩
def MEM_STATUS_STAMPED : Fld := ⟨0x300004C, 1, .ro, 0⟩
def MEM_STATUS_STAMP_BUSY : Fld := ⟨0x300004D, 1, .ro, 0⟩
def MEM_STATUS_FRAMES_WAITING : Fld := ⟨0x3000060, 16, .ro, 0⟩
def MEM_SCRUB_PERIOD_H : Fld := ⟨0x3000080, 8, .rw, 24⟩
def MEM_SCRUB_ROW_THRESH : Fld := ⟨0x3000088, 8, .rw, 8⟩
def MEM_SCRUB_PASSES : Fld := ⟨0x3000090, 32, .ro, 0⟩
def MEM_STAMP_SHARE : Fld := ⟨0x30000C0, 4, .rw, 2⟩
def MEM_MODEB_USED : Fld := ⟨0x3000100, 32, .ro, 0⟩
def MEM_MODEB_LIMIT : Fld := ⟨0x3000120, 32, .ro, 1073741824⟩
def MEM_FRAMES_FREE : Fld := ⟨0x3000140, 16, .ro, 0⟩
def MEM_FRAMES_DIRECTORY : Fld := ⟨0x3000150, 16, .ro, 0⟩
def MEM_FRAMES_RETIRED : Fld := ⟨0x3000160, 16, .ro, 0⟩
def MEM_RETIRE_FRAME : Fld := ⟨0x3000180, 15, .wo, 0⟩
def MEM_RETIRE_GO : Fld := ⟨0x300018F, 1, .wo, 0⟩
def MEM_RMW_MERGES : Fld := ⟨0x30001C0, 64, .ro, 0⟩
def MEM_POISON_READS_READS : Fld := ⟨0x3000200, 64, .ro, 0⟩
def MEM_ERR_H_CORRECTED (i : Nat) : Fld := ⟨0x3000240 + 0x40 * i, 32, .ro, 0⟩
def MEM_ERR_H_UNCORRECTED (i : Nat) : Fld := ⟨0x3000260 + 0x40 * i, 16, .ro, 0⟩
def MEM_ERR_H_REPAIRS (i : Nat) : Fld := ⟨0x3000270 + 0x40 * i, 9, .ro, 0⟩
def MEM_UE_LOG_STACK : Fld := ⟨0x3000540, 4, .ro, 0⟩
def MEM_UE_LOG_CHANNEL : Fld := ⟨0x3000544, 5, .ro, 0⟩
def MEM_UE_LOG_GRANULE : Fld := ⟨0x3000549, 20, .ro, 0⟩
def MEM_UE_LOG_CODEWORD : Fld := ⟨0x300055D, 7, .ro, 0⟩
def MEM_UE_LOG_SOURCE : Fld := ⟨0x3000564, 2, .ro, 0⟩
def MEM_UE_LOG_MODEB : Fld := ⟨0x3000566, 1, .ro, 0⟩
def MEM_UE_LOG_OVERFLOW : Fld := ⟨0x300057E, 1, .w1c, 0⟩
def MEM_UE_LOG_VALID : Fld := ⟨0x300057F, 1, .w1c, 0⟩
def MEM_REPAIR_CAND_STACK : Fld := ⟨0x3000580, 4, .ro, 0⟩
def MEM_REPAIR_CAND_CHANNEL : Fld := ⟨0x3000584, 5, .ro, 0⟩
def MEM_REPAIR_CAND_GRANULE : Fld := ⟨0x3000589, 20, .ro, 0⟩
def MEM_REPAIR_CAND_PC : Fld := ⟨0x300059D, 1, .ro, 0⟩
def MEM_REPAIR_CAND_COUNT : Fld := ⟨0x300059E, 8, .ro, 0⟩
def MEM_REPAIR_CAND_VALID : Fld := ⟨0x30005BF, 1, .ro, 0⟩
def MEM_FLIP_STACK : Fld := ⟨0x30005C0, 4, .rw, 0⟩
def MEM_FLIP_SYM_A : Fld := ⟨0x30005C8, 6, .rw, 0⟩
def MEM_FLIP_SYM_B : Fld := ⟨0x30005D0, 6, .rw, 0⟩
def MEM_FLIP_PATTERN : Fld := ⟨0x30005D8, 8, .rw, 0⟩
def MEM_FLIP_ARM : Fld := ⟨0x30005E0, 1, .rw, 0⟩
def TIER_CTRL_PLACER_EN : Fld := ⟨0x3800000, 1, .rw, 1⟩
def TIER_CTRL_LEND_EN : Fld := ⟨0x3800001, 1, .rw, 0⟩
def TIER_CTRL_MIGRATE_FREEZE : Fld := ⟨0x3800002, 1, .rw, 0⟩
def TIER_CTRL_THRESH_FREEZE : Fld := ⟨0x3800003, 1, .rw, 0⟩
def TIER_CTRL_CLR_CNT : Fld := ⟨0x3800004, 1, .wo, 0⟩
def TIER_CTRL_FREE_TARGET : Fld := ⟨0x3800008, 16, .rw, 64⟩
def TIER_STATUS_FTL_READY : Fld := ⟨0x3800040, 1, .ro, 0⟩
def TIER_STATUS_OVERCOMMIT : Fld := ⟨0x3800041, 1, .ro, 0⟩
def TIER_STATUS_SAG_HOLD : Fld := ⟨0x3800042, 1, .ro, 0⟩
def TIER_STATUS_FTL_MAP_FRAMES : Fld := ⟨0x3800050, 16, .ro, 0⟩
def TIER_STATUS_CHECK_FRAMES : Fld := ⟨0x3800060, 16, .ro, 0⟩
def TIER_OCCUPANCY_RESERVED : Fld := ⟨0x3800080, 16, .ro, 0⟩
def TIER_OCCUPANCY_TIERED : Fld := ⟨0x3800090, 16, .ro, 0⟩
def TIER_OCCUPANCY_COPIES : Fld := ⟨0x38000A0, 16, .ro, 0⟩
def TIER_OCCUPANCY_SLACK : Fld := ⟨0x38000B0, 16, .ro, 0⟩
def TIER_BUDGET_DEMOTE : Fld := ⟨0x38000C0, 16, .rw, 32⟩
def TIER_BUDGET_PEER : Fld := ⟨0x38000D0, 16, .rw, 64⟩
def TIER_BUDGET_LEND : Fld := ⟨0x38000E0, 16, .rw, 64⟩
def TIER_BUDGET_RELOC : Fld := ⟨0x38000F0, 16, .rw, 32⟩
def TIER_HEAT_DECAY : Fld := ⟨0x3800100, 8, .rw, 8⟩
def TIER_HEAT_PRESSURE : Fld := ⟨0x3800108, 8, .rw, 64⟩
def TIER_HEAT_MOVE_SHARE : Fld := ⟨0x3800110, 7, .rw, 75⟩
def TIER_HEAT_COPY_HOLD : Fld := ⟨0x3800118, 16, .rw, 12500⟩
def TIER_PLAN_RATE_MBPS : Fld := ⟨0x3800140, 16, .rw, 3600⟩
def TIER_PLAN_LEAD_TICKS : Fld := ⟨0x3800150, 16, .rw, 0⟩
def TIER_SCHED_STATUS_LATE : Fld := ⟨0x3800180, 32, .ro, 0⟩
def TIER_SCHED_STATUS_LAST_LATE : Fld := ⟨0x38001A0, 14, .ro, 0⟩
def TIER_SCHED_STATUS_SKIPPED : Fld := ⟨0x38001B0, 16, .ro, 0⟩
def TIER_HINT0_EXTENT : Fld := ⟨0x38001C0, 16, .rw, 0⟩
def TIER_HINT0_FIRST_PAGE : Fld := ⟨0x38001D0, 32, .rw, 0⟩
def TIER_HINT1_PAGES : Fld := ⟨0x3800200, 16, .rw, 0⟩
def TIER_HINT1_OP : Fld := ⟨0x3800210, 3, .rw, 0⟩
def TIER_HINT1_GO : Fld := ⟨0x3800213, 1, .wo, 0⟩
def TIER_HINT1_REFUSED : Fld := ⟨0x3800214, 1, .w1c, 0⟩
def TIER_HINT1_IGNORED : Fld := ⟨0x3800220, 16, .ro, 0⟩
def TIER_STALL_EVENTS (i : Nat) : Fld := ⟨0x3800240 + 0x40 * i, 32, .ro, 0⟩
def TIER_STALL_CYCLES_K (i : Nat) : Fld := ⟨0x3800260 + 0x40 * i, 32, .ro, 0⟩
def TIER_XSTALL_INDEX_EXTENT : Fld := ⟨0x3800340, 16, .rw, 0⟩
def TIER_XSTALL_DATA_EVENTS : Fld := ⟨0x3800380, 32, .ro, 0⟩
def TIER_XSTALL_DATA_CYCLES_K : Fld := ⟨0x38003A0, 32, .ro, 0⟩
def TIER_LEND_LOANS : Fld := ⟨0x38003C0, 9, .ro, 0⟩
def TIER_LEND_PAGES : Fld := ⟨0x38003D0, 17, .ro, 0⟩
def TIER_LEND_CRC_DISCARDS : Fld := ⟨0x38003F0, 16, .ro, 0⟩
def TIER_HOST_PAGES (i : Nat) : Fld := ⟨0x3800400 + 0x40 * i, 16, .rws, 0⟩
def TIER_HOST_BASE (i : Nat) : Fld := ⟨0x3800419 + 0x40 * i, 39, .rws, 0⟩
def TIER_FLASH_GEOM_CHANNELS : Fld := ⟨0x3800480, 16, .ro, 0⟩
def TIER_FLASH_GEOM_TARGETS : Fld := ⟨0x3800490, 4, .ro, 0⟩
def TIER_FLASH_GEOM_LUNS : Fld := ⟨0x3800494, 4, .ro, 0⟩
def TIER_FLASH_GEOM_PLANES : Fld := ⟨0x3800498, 3, .ro, 0⟩
def TIER_FLASH_GEOM_PAGES_PER_BLOCK : Fld := ⟨0x380049B, 13, .ro, 0⟩
def TIER_FLASH_GEOM_BLOCKS_PER_PLANE : Fld := ⟨0x38004A8, 16, .ro, 0⟩
def TIER_FLASH_CFG_OP_PCT : Fld := ⟨0x38004C0, 6, .rws, 12⟩
def TIER_FLASH_CFG_RD_LIMIT_K : Fld := ⟨0x38004C8, 16, .rw, 50⟩
def TIER_FLASH_CFG_WEAR_DELTA : Fld := ⟨0x38004D8, 16, .rw, 256⟩
def TIER_FLASH_HEALTH_BAD_BLOCKS : Fld := ⟨0x3800500, 24, .ro, 0⟩
def TIER_FLASH_HEALTH_UNUSED_TARGETS : Fld := ⟨0x3800518, 8, .ro, 0⟩
def TIER_FLASH_HEALTH_ERASE_MAX : Fld := ⟨0x3800520, 16, .ro, 0⟩
def TIER_FLASH_HEALTH_ERASE_MIN : Fld := ⟨0x3800530, 16, .ro, 0⟩
def TIER_FLASH_ERR_RETRIES : Fld := ⟨0x3800540, 32, .ro, 0⟩
def TIER_FLASH_ERR_SOFT : Fld := ⟨0x3800560, 16, .ro, 0⟩
def TIER_FLASH_ERR_UNCORRECTABLE : Fld := ⟨0x3800570, 16, .ro, 0⟩
def TIER_SAG_PROGRAMS_HELD : Fld := ⟨0x3800580, 16, .ro, 0⟩
def TIER_SAG_ERASES_HELD : Fld := ⟨0x3800590, 16, .ro, 0⟩
def TIER_SAG_DEMOTIONS_PAUSED : Fld := ⟨0x38005A0, 16, .ro, 0⟩
def TIER_SAG_SUSPECT_FOUND : Fld := ⟨0x38005B0, 16, .ro, 0⟩
def TIER_EVENTS_FETCHES : Fld := ⟨0x38005C0, 16, .ro, 0⟩
def TIER_EVENTS_DEMOTIONS : Fld := ⟨0x38005D0, 16, .ro, 0⟩
def TIER_EVENTS_DROPS : Fld := ⟨0x38005E0, 16, .ro, 0⟩
def TIER_EVENTS_HOME_COPIES : Fld := ⟨0x38005F0, 16, .ro, 0⟩
def TIER_POLICY_ENABLED (i : Nat) : Fld := ⟨0x3800800 + 0x40 * i, 1, (if i = 0 then .ro else .rws), (if i = 0 then 1 else 0)⟩
def TIER_POLICY_BACKING (i : Nat) : Fld := ⟨0x3800801 + 0x40 * i, 2, (if i = 0 then .ro else .rws), 0⟩
def TIER_POLICY_LENT (i : Nat) : Fld := ⟨0x3800803 + 0x40 * i, 1, (if i = 0 then .ro else .rws), 0⟩
def TIER_POLICY_COLD (i : Nat) : Fld := ⟨0x3800808 + 0x40 * i, 8, (if i = 0 then .ro else .rws), 4⟩
def TIER_POLICY_LENT_THRESH (i : Nat) : Fld := ⟨0x3800810 + 0x40 * i, 8, (if i = 0 then .ro else .rws), 16⟩
def TIER_POLICY_MIN_TICKS (i : Nat) : Fld := ⟨0x3800818 + 0x40 * i, 8, (if i = 0 then .ro else .rws), 8⟩
def COH_CTRL_CLR_CNT : Fld := ⟨0x4000000, 1, .wo, 0⟩
def COH_USAGE_USED_4K : Fld := ⟨0x4000040, 26, .ro, 0⟩
def COH_USAGE_DIR_FRAMES : Fld := ⟨0x4000060, 10, .ro, 0⟩
def COH_AGENT_INDEX_WORD : Fld := ⟨0x4000080, 8, .rw, 0⟩
def COH_AGENT_DATA_REGISTERED : Fld := ⟨0x40000C0, 64, .rw, 0⟩
def COH_TIMERS_SNOOP_US : Fld := ⟨0x4000100, 16, .rw, 1000⟩
def COH_TIMERS_COMPLETE_US : Fld := ⟨0x4000110, 16, .rw, 1000⟩
def COH_RECALL_ENTRY : Fld := ⟨0x4000140, 16, .wo, 0⟩
def COH_RECALL_GO : Fld := ⟨0x4000150, 1, .wo, 0⟩
def COH_RECALL_STATUS_BUSY : Fld := ⟨0x4000180, 1, .ro, 0⟩
def COH_RECALL_STATUS_DONE : Fld := ⟨0x4000181, 1, .w1c, 0⟩
def COH_RECALL_STATUS_ENTRY : Fld := ⟨0x4000190, 16, .ro, 0⟩
def COH_RECALL_STATUS_LINES : Fld := ⟨0x40001A0, 32, .ro, 0⟩
def COH_DEAD_NODE : Fld := ⟨0x40001C0, 14, .wo, 0⟩
def COH_DEAD_GO : Fld := ⟨0x40001D0, 1, .wo, 0⟩
def COH_DEAD_STATUS_SWEEPING : Fld := ⟨0x4000200, 1, .ro, 0⟩
def COH_DEAD_STATUS_DONE : Fld := ⟨0x4000201, 1, .w1c, 0⟩
def COH_DEAD_STATUS_AUTO : Fld := ⟨0x4000202, 1, .ro, 0⟩
def COH_DEAD_STATUS_NODE : Fld := ⟨0x4000210, 14, .ro, 0⟩
def COH_DEAD_STATUS_LINES_POISONED : Fld := ⟨0x4000220, 32, .ro, 0⟩
def COH_TXN_ACTIVE : Fld := ⟨0x4000240, 15, .ro, 0⟩
def COH_TXN_PEAK : Fld := ⟨0x4000260, 15, .ro, 0⟩
def COH_PEEK_ENTRY : Fld := ⟨0x4000280, 16, .rw, 0⟩
def COH_PEEK_LINE : Fld := ⟨0x4000290, 30, .rw, 0⟩
def COH_PEEK_GO : Fld := ⟨0x40002AE, 1, .wo, 0⟩
def COH_PEEK_DATA_WORD (i : Nat) : Fld := ⟨0x40002C0 + 0x40 * i, 64, .ro, 0⟩
def COH_CACHE_HITS (i : Nat) : Fld := ⟨0x4000340 + 0x40 * i, 32, .ro, 0⟩
def COH_CACHE_MISSES (i : Nat) : Fld := ⟨0x4000360 + 0x40 * i, 32, .ro, 0⟩
def COH_STALL_EVENTS : Fld := ⟨0x40003C0, 32, .ro, 0⟩
def COH_STALL_CYCLES_K : Fld := ⟨0x40003E0, 32, .ro, 0⟩
def COH_EVENTS_FWD_EMPTY : Fld := ⟨0x4000400, 16, .ro, 0⟩
def COH_EVENTS_COARSE_CONV : Fld := ⟨0x4000410, 16, .ro, 0⟩
def COH_EVENTS_BUSY_REFUSALS : Fld := ⟨0x4000420, 16, .ro, 0⟩
def COH_EVENTS_LATE_DROPS : Fld := ⟨0x4000430, 16, .ro, 0⟩
def COH_EVENTS2_DEAD_DECLARED : Fld := ⟨0x4000440, 16, .ro, 0⟩
def COH_EVENTS2_COMPLETE_TIMEOUTS : Fld := ⟨0x4000450, 16, .ro, 0⟩
def COH_EVENTS2_DIR_UNCORRECTABLE : Fld := ⟨0x4000460, 16, .ro, 0⟩
def COH_EVENTS2_STALE_WB : Fld := ⟨0x4000470, 16, .ro, 0⟩
def RED_CTRL_CLR_CNT : Fld := ⟨0x4800000, 1, .wo, 0⟩
def RED_CAPS_STREAMS : Fld := ⟨0x4800040, 11, .ro, 1024⟩
def RED_CAPS_LANES : Fld := ⟨0x480004B, 8, .ro, 128⟩
def RED_CAPS_STORE_MIB : Fld := ⟨0x4800060, 16, .ro, 192⟩
def RED_STORE_FREE_C0 : Fld := ⟨0x4800080, 32, .ro, 100663296⟩
def RED_STORE_FREE_C1 : Fld := ⟨0x48000A0, 32, .ro, 100663296⟩
def RED_STREAM_INDEX_STREAM : Fld := ⟨0x48000C0, 10, .rw, 0⟩
def RED_STREAM_STATE_VALID : Fld := ⟨0x4800100, 1, .ro, 0⟩
def RED_STREAM_STATE_ROLE : Fld := ⟨0x4800101, 1, .ro, 0⟩
def RED_STREAM_STATE_OPEN : Fld := ⟨0x4800102, 3, .ro, 0⟩
def RED_STREAM_STATE_NEXT : Fld := ⟨0x4800120, 32, .ro, 0⟩
def RED_STREAM_SLOTS_IN_USE_C0 : Fld := ⟨0x4800140, 20, .ro, 0⟩
def RED_STREAM_SLOTS_IN_USE_C1 : Fld := ⟨0x4800154, 20, .ro, 0⟩
def RED_STREAM_SLOTS_SLOTS : Fld := ⟨0x4800168, 20, .ro, 0⟩
def RED_PARENT_WARD_WARD : Fld := ⟨0x4800180, 64, .ro, 0⟩
def RED_ABORT_STREAM : Fld := ⟨0x48001C0, 10, .wo, 0⟩
def RED_ABORT_GO : Fld := ⟨0x48001D0, 1, .wo, 0⟩
def RED_ABORT_ROUND : Fld := ⟨0x48001E0, 32, .wo, 0⟩
def RED_ROUNDS_COMMITTED : Fld := ⟨0x4800200, 32, .ro, 0⟩
def RED_ROUNDS_ABORTED : Fld := ⟨0x4800220, 32, .ro, 0⟩
def RED_ABORT_CAUSE_DEADLINE : Fld := ⟨0x4800240, 16, .ro, 0⟩
def RED_ABORT_CAUSE_SOFTWARE : Fld := ⟨0x4800250, 16, .ro, 0⟩
def RED_ABORT_CAUSE_PARENT_POISON : Fld := ⟨0x4800260, 16, .ro, 0⟩
def RED_ABORT_CAUSE_DESTROY : Fld := ⟨0x4800270, 8, .ro, 0⟩
def RED_ABORT_CAUSE_IGNORED : Fld := ⟨0x4800278, 8, .ro, 0⟩
def RED_EVENTS_DUP_BITMAP : Fld := ⟨0x4800280, 16, .ro, 0⟩
def RED_EVENTS_LATE_DONE : Fld := ⟨0x4800290, 16, .ro, 0⟩
def RED_EVENTS_STALE : Fld := ⟨0x48002A0, 16, .ro, 0⟩
def RED_EVENTS_BUSY : Fld := ⟨0x48002B0, 16, .ro, 0⟩
def RED_EVENTS2_SPLIT_REFUSALS : Fld := ⟨0x48002C0, 12, .ro, 0⟩
def RED_EVENTS2_FWD_TIMEOUTS : Fld := ⟨0x48002CC, 12, .ro, 0⟩
def RED_EVENTS2_BCAST_FAILS : Fld := ⟨0x48002D8, 12, .ro, 0⟩
def RED_EVENTS2_POST_DROPS : Fld := ⟨0x48002E4, 12, .ro, 0⟩
def RED_EVENTS2_ABORT_ANSWERS : Fld := ⟨0x48002F0, 16, .ro, 0⟩
def RED_STORE_ECC_CORRECTED : Fld := ⟨0x4800300, 32, .ro, 0⟩
def RED_STORE_ECC_UNCORRECTED : Fld := ⟨0x4800320, 32, .ro, 0⟩
def RED_STRAGGLER0_ROUND : Fld := ⟨0x4800340, 32, .ro, 0⟩
def RED_STRAGGLER0_STREAM : Fld := ⟨0x4800360, 10, .ro, 0⟩
def RED_STRAGGLER0_CONTRIBUTOR : Fld := ⟨0x480036A, 14, .ro, 0⟩
def RED_STRAGGLER0_MISSING : Fld := ⟨0x4800378, 1, .ro, 0⟩
def RED_STRAGGLER0_VALID : Fld := ⟨0x480037F, 1, .ro, 0⟩
def RED_STRAGGLER1_LATE_TICKS : Fld := ⟨0x4800380, 16, .ro, 0⟩
def RED_STRAGGLER1_MISSING_COUNT : Fld := ⟨0x4800390, 16, .ro, 0⟩
def GFS_CTRL_CLR_CNT : Fld := ⟨0x5000000, 1, .wo, 0⟩
def GFS_CAPS_GATHER : Fld := ⟨0x5000040, 6, .ro, 32⟩
def GFS_CAPS_FILTER : Fld := ⟨0x5000048, 6, .ro, 32⟩
def GFS_CAPS_MATRIX : Fld := ⟨0x5000050, 6, .ro, 32⟩
def GFS_CAPS_SELECT_ENTRIES : Fld := ⟨0x5000060, 18, .ro, 131072⟩
def GFS_ACTIVE_JOBS : Fld := ⟨0x5000080, 16, .ro, 0⟩
def GFS_ACTIVE_REQUESTS : Fld := ⟨0x5000090, 16, .ro, 0⟩
def GFS_ACTIVE_SELECT_FREE : Fld := ⟨0x50000A0, 18, .ro, 131072⟩
def GFS_GATHER_ROWS : Fld := ⟨0x50000C0, 40, .ro, 0⟩
def GFS_GATHER_REUSED : Fld := ⟨0x50000E8, 24, .ro, 0⟩
def GFS_GATHER_OUT_OUT_ROWS : Fld := ⟨0x5000100, 40, .ro, 0⟩
def GFS_GATHER_OUT_PADDING : Fld := ⟨0x5000128, 24, .ro, 0⟩
def GFS_FILTER_SCANNED : Fld := ⟨0x5000140, 40, .ro, 0⟩
def GFS_FILTER_PASSED : Fld := ⟨0x5000168, 24, .ro, 0⟩
def GFS_SCORE_TILES : Fld := ⟨0x5000180, 40, .ro, 0⟩
def GFS_SCORE_NAN_EXCLUDED : Fld := ⟨0x50001A8, 24, .ro, 0⟩
def GFS_POISON_ROWS : Fld := ⟨0x50001C0, 16, .ro, 0⟩
def GFS_POISON_RECORDS : Fld := ⟨0x50001D0, 16, .ro, 0⟩
def GFS_POISON_KEYS : Fld := ⟨0x50001E0, 16, .ro, 0⟩
def GFS_POISON_ECC : Fld := ⟨0x50001F0, 16, .ro, 0⟩
def GFS_REFUSALS_COST : Fld := ⟨0x5000200, 16, .ro, 0⟩
def GFS_REFUSALS_SIZE : Fld := ⟨0x5000210, 16, .ro, 0⟩
def GFS_REFUSALS_FORMAT : Fld := ⟨0x5000220, 16, .ro, 0⟩
def GFS_REFUSALS_SELECT_BUSY : Fld := ⟨0x5000230, 16, .ro, 0⟩
def GFS_KEY_WAIT_EVENTS : Fld := ⟨0x5000240, 32, .ro, 0⟩
def GFS_KEY_WAIT_CYCLES_K : Fld := ⟨0x5000260, 32, .ro, 0⟩
def CMP_CTRL_CLR_CNT : Fld := ⟨0x5800000, 1, .wo, 0⟩
def CMP_CAPS_EXPANDERS : Fld := ⟨0x5800040, 9, .ro, 384⟩
def CMP_CAPS_TABLES : Fld := ⟨0x5800050, 6, .ro, 32⟩
def CMP_CAPS_SLOT_BYTES : Fld := ⟨0x5800060, 11, .ro, 1024⟩
def CMP_TABLE_SRC_ADDR : Fld := ⟨0x5800080, 64, .rw, 0⟩
def CMP_TABLE_LOAD_TABLE : Fld := ⟨0x58000C0, 5, .wo, 0⟩
def CMP_TABLE_LOAD_VERSION : Fld := ⟨0x58000C8, 8, .wo, 0⟩
def CMP_TABLE_LOAD_CMPT : Fld := ⟨0x58000D0, 4, .wo, 0⟩
def CMP_TABLE_LOAD_GO : Fld := ⟨0x58000D4, 1, .wo, 0⟩
def CMP_TABLE_STATUS_BUSY : Fld := ⟨0x5800100, 1, .ro, 0⟩
def CMP_TABLE_STATUS_PENDING : Fld := ⟨0x5800101, 1, .ro, 0⟩
def CMP_TABLE_STATUS_DONE : Fld := ⟨0x5800102, 1, .w1c, 0⟩
def CMP_TABLE_STATUS_REFUSED : Fld := ⟨0x5800103, 1, .w1c, 0⟩
def CMP_TABLE_STATUS_CAUSE : Fld := ⟨0x5800104, 4, .ro, 0⟩
def CMP_TABLE_STATUS_TABLE : Fld := ⟨0x5800108, 5, .ro, 0⟩
def CMP_TABLE_STATUS_VERSION : Fld := ⟨0x5800110, 8, .ro, 0⟩
def CMP_TABLE_STATUS_SLOT : Fld := ⟨0x5800118, 1, .ro, 0⟩
def CMP_TABLE_STATUS_WAITS : Fld := ⟨0x5800120, 16, .ro, 0⟩
def CMP_TABLE_STATUS_REFUSALS : Fld := ⟨0x5800130, 16, .ro, 0⟩
def CMP_SLOT_INDEX_TABLE : Fld := ⟨0x5800140, 5, .rw, 0⟩
def CMP_SLOT_INDEX_SLOT : Fld := ⟨0x5800145, 1, .rw, 0⟩
def CMP_SLOT_STATE_STATE : Fld := ⟨0x5800180, 2, .ro, 0⟩
def CMP_SLOT_STATE_KIND : Fld := ⟨0x5800182, 2, .ro, 0⟩
def CMP_SLOT_STATE_ENTRY : Fld := ⟨0x5800184, 1, .ro, 0⟩
def CMP_SLOT_STATE_CMPT : Fld := ⟨0x5800188, 4, .ro, 0⟩
def CMP_SLOT_STATE_VERSION : Fld := ⟨0x5800190, 8, .ro, 0⟩
def CMP_SLOT_STATE_REFS : Fld := ⟨0x58001A0, 32, .ro, 0⟩
def CMP_BLOCKS_AXC2 : Fld := ⟨0x58001C0, 32, .ro, 0⟩
def CMP_BLOCKS_AXC1 : Fld := ⟨0x58001E0, 32, .ro, 0⟩
def CMP_AXC1_RAW : Fld := ⟨0x5800200, 32, .ro, 0⟩
def CMP_AXC1_SLOW : Fld := ⟨0x5800220, 32, .ro, 0⟩
def CMP_STALL_EVENTS (i : Nat) : Fld := ⟨0x5800240 + 0x40 * i, 32, .ro, 0⟩
def CMP_STALL_CYCLES_K (i : Nat) : Fld := ⟨0x5800260 + 0x40 * i, 32, .ro, 0⟩
def CMP_ERRORS_TABLE_MISS : Fld := ⟨0x5800300, 16, .ro, 0⟩
def CMP_ERRORS_MODE_MISMATCH : Fld := ⟨0x5800310, 16, .ro, 0⟩
def CMP_ERRORS_MALFORMED : Fld := ⟨0x5800320, 16, .ro, 0⟩
def CMP_ERRORS_SEAMS_K : Fld := ⟨0x5800330, 16, .ro, 0⟩
def CMP_ERR_LOG_CAUSE : Fld := ⟨0x5800340, 4, .ro, 0⟩
def CMP_ERR_LOG_STACK : Fld := ⟨0x5800344, 4, .ro, 0⟩
def CMP_ERR_LOG_CHANNEL : Fld := ⟨0x5800348, 5, .ro, 0⟩
def CMP_ERR_LOG_GRANULE : Fld := ⟨0x580034D, 20, .ro, 0⟩
def CMP_ERR_LOG_CMPT : Fld := ⟨0x5800361, 4, .ro, 0⟩
def CMP_ERR_LOG_OVERFLOW : Fld := ⟨0x580037E, 1, .w1c, 0⟩
def CMP_ERR_LOG_VALID : Fld := ⟨0x580037F, 1, .w1c, 0⟩
def PIN_CTRL_CLR_CNT : Fld := ⟨0x6000000, 1, .wo, 0⟩
def PIN_CAPS_CORES : Fld := ⟨0x6000040, 12, .ro, 2048⟩
def PIN_CAPS_THREADS : Fld := ⟨0x600004C, 4, .ro, 8⟩
def PIN_CAPS_SCRATCH_KIB : Fld := ⟨0x6000050, 8, .ro, 64⟩
def PIN_CAPS_CODE_WORDS : Fld := ⟨0x6000058, 16, .ro, 32768⟩
def PIN_CAPS_ENTRIES : Fld := ⟨0x6000068, 13, .ro, 4096⟩
def PIN_LIMITS_KILL_FRAMES : Fld := ⟨0x6000080, 8, .rw, 16⟩
def PIN_LIMITS_BUSY_RETRIES : Fld := ⟨0x6000088, 4, .rw, 4⟩
def PIN_IMAGE_SRC_ADDR : Fld := ⟨0x60000C0, 64, .rw, 0⟩
def PIN_IMAGE_LOAD_SLOT : Fld := ⟨0x6000100, 6, .wo, 0⟩
def PIN_IMAGE_LOAD_BASE : Fld := ⟨0x6000108, 15, .wo, 0⟩
def PIN_IMAGE_LOAD_CMPT : Fld := ⟨0x6000118, 4, .wo, 0⟩
def PIN_IMAGE_LOAD_GO : Fld := ⟨0x600011C, 1, .wo, 0⟩
def PIN_IMAGE_LOAD_UNLOAD : Fld := ⟨0x600011D, 1, .wo, 0⟩
def PIN_IMAGE_STATUS_BUSY : Fld := ⟨0x6000140, 1, .ro, 0⟩
def PIN_IMAGE_STATUS_UNLOADING : Fld := ⟨0x6000141, 1, .ro, 0⟩
def PIN_IMAGE_STATUS_DONE : Fld := ⟨0x6000142, 1, .w1c, 0⟩
def PIN_IMAGE_STATUS_REFUSED : Fld := ⟨0x6000143, 1, .w1c, 0⟩
def PIN_IMAGE_STATUS_CAUSE : Fld := ⟨0x6000144, 4, .ro, 0⟩
def PIN_IMAGE_STATUS_SLOT : Fld := ⟨0x6000148, 6, .ro, 0⟩
def PIN_IMAGE_STATUS_LOADS : Fld := ⟨0x6000160, 16, .ro, 0⟩
def PIN_IMAGE_STATUS_REFUSALS : Fld := ⟨0x6000170, 16, .ro, 0⟩
def PIN_SLOT_INDEX_SLOT : Fld := ⟨0x6000180, 6, .rw, 0⟩
def PIN_SLOT_STATE_VALID : Fld := ⟨0x60001C0, 1, .ro, 0⟩
def PIN_SLOT_STATE_UNLOADING : Fld := ⟨0x60001C1, 1, .ro, 0⟩
def PIN_SLOT_STATE_CMPT : Fld := ⟨0x60001C2, 4, .ro, 0⟩
def PIN_SLOT_STATE_BASE : Fld := ⟨0x60001C6, 15, .ro, 0⟩
def PIN_SLOT_STATE_COUNT : Fld := ⟨0x60001D5, 16, .ro, 0⟩
def PIN_SLOT_STATE_ENTRIES : Fld := ⟨0x60001E5, 13, .ro, 0⟩
def PIN_SLOT_REFS_REFS : Fld := ⟨0x6000200, 32, .ro, 0⟩
def PIN_ENTRY_INDEX_ENTRY : Fld := ⟨0x6000240, 12, .rw, 0⟩
def PIN_ENTRY_DATA_VALID : Fld := ⟨0x6000280, 1, .ro, 0⟩
def PIN_ENTRY_DATA_EXCL : Fld := ⟨0x6000281, 1, .ro, 0⟩
def PIN_ENTRY_DATA_TRIGGER : Fld := ⟨0x6000282, 1, .ro, 0⟩
def PIN_ENTRY_DATA_RUN : Fld := ⟨0x6000283, 1, .ro, 0⟩
def PIN_ENTRY_DATA_CUSTOM : Fld := ⟨0x6000284, 1, .ro, 0⟩
def PIN_ENTRY_DATA_SLOT : Fld := ⟨0x6000285, 6, .ro, 0⟩
def PIN_ENTRY_DATA_CMPT : Fld := ⟨0x600028B, 4, .ro, 0⟩
def PIN_ENTRY_DATA_PC : Fld := ⟨0x600028F, 15, .ro, 0⟩
def PIN_ENTRY_DATA_CYCLES : Fld := ⟨0x600029E, 24, .ro, 0⟩
def PIN_ITEMS_STARTED : Fld := ⟨0x60002C0, 32, .ro, 0⟩
def PIN_ITEMS_NOT_OK : Fld := ⟨0x60002E0, 32, .ro, 0⟩
def PIN_EXC_EXCEPTIONS : Fld := ⟨0x6000300, 32, .ro, 0⟩
def PIN_EXC_KILLS : Fld := ⟨0x6000320, 16, .ro, 0⟩
def PIN_EXC_ECC : Fld := ⟨0x6000330, 16, .ro, 0⟩
def PIN_EXC_LOG_CORE : Fld := ⟨0x6000340, 11, .ro, 0⟩
def PIN_EXC_LOG_THREAD : Fld := ⟨0x600034B, 3, .ro, 0⟩
def PIN_EXC_LOG_CAUSE : Fld := ⟨0x600034E, 4, .ro, 0⟩
def PIN_EXC_LOG_ENTRY : Fld := ⟨0x6000352, 12, .ro, 0⟩
def PIN_EXC_LOG_PC : Fld := ⟨0x600035E, 15, .ro, 0⟩
def PIN_EXC_LOG_STATUS : Fld := ⟨0x600036D, 8, .ro, 0⟩
def PIN_EXC_LOG_OVERFLOW : Fld := ⟨0x600037E, 1, .w1c, 0⟩
def PIN_EXC_LOG_VALID : Fld := ⟨0x600037F, 1, .w1c, 0⟩
def PIN_QUEUE_FULL_REFUSALS : Fld := ⟨0x6000380, 32, .ro, 0⟩
def PIN_QUEUE_CMPT_SWITCHES : Fld := ⟨0x60003A0, 32, .ro, 0⟩
def PIN_MEM_BUSY_RESENDS : Fld := ⟨0x60003C0, 32, .ro, 0⟩
def PIN_MEM_RESOLVES : Fld := ⟨0x60003E0, 16, .ro, 0⟩
def PIN_MEM_STORE_FAULTS : Fld := ⟨0x60003F0, 16, .ro, 0⟩
def PIN_SCRATCH_ECC_CORRECTED : Fld := ⟨0x6000400, 32, .ro, 0⟩
def PIN_SCRATCH_ECC_UNCORRECTED : Fld := ⟨0x6000420, 32, .ro, 0⟩
def PIN_FENCED_FENCED (i : Nat) : Fld := ⟨0x6000800 + 0x40 * i, 64, .ro, 0⟩
def SUB_CTRL_CLR_CNT : Fld := ⟨0x6800000, 1, .wo, 0⟩
def SUB_CTRL_ZONE_TIMEOUT_US : Fld := ⟨0x6800008, 16, .rw, 100⟩
def SUB_CTRL_PT_CMPT : Fld := ⟨0x6800018, 4, .rws, 15⟩
def SUB_KW_EVENTS_BAD_LENGTH : Fld := ⟨0x6800040, 16, .ro, 0⟩
def SUB_KW_EVENTS_OVERWRITES : Fld := ⟨0x6800050, 16, .ro, 0⟩
def SUB_KW_EVENTS_ABANDONED : Fld := ⟨0x6800060, 16, .ro, 0⟩
def SUB_KW_EVENTS_NO_CQ : Fld := ⟨0x6800070, 16, .ro, 0⟩
def SUB_CMD_ACCEPTED : Fld := ⟨0x6800080, 32, .ro, 0⟩
def SUB_CMD_NOT_OK : Fld := ⟨0x68000A0, 32, .ro, 0⟩
def SUB_MOVER_REMOTE_CYCLES : Fld := ⟨0x68000C0, 16, .rw, 2048⟩
def SUB_MOVER_BUSY_RETRIES : Fld := ⟨0x68000D0, 4, .rw, 4⟩
def SUB_Q_INDEX_QUEUE (i : Nat) : Fld := ⟨0x6800100 + 0x100 * i, 12, .rw, 0⟩
def SUB_Q_CFG_VALID (i : Nat) : Fld := ⟨0x6800140 + 0x100 * i, 1, .rw, 0⟩
def SUB_Q_CFG_CMPT (i : Nat) : Fld := ⟨0x6800141 + 0x100 * i, 4, .rw, 0⟩
def SUB_Q_CFG_LOC (i : Nat) : Fld := ⟨0x6800145 + 0x100 * i, 2, .rw, 0⟩
def SUB_Q_CFG_MSIX_PORT (i : Nat) : Fld := ⟨0x6800147 + 0x100 * i, 1, .rw, 0⟩
def SUB_Q_CFG_SLOTS_LOG2 (i : Nat) : Fld := ⟨0x6800148 + 0x100 * i, 4, .rw, 6⟩
def SUB_Q_CFG_SLOT_LOG2 (i : Nat) : Fld := ⟨0x680014C + 0x100 * i, 4, .rw, 6⟩
def SUB_Q_CFG_VECTOR (i : Nat) : Fld := ⟨0x6800150 + 0x100 * i, 11, .rw, 0⟩
def SUB_Q_BASE_BASE (i : Nat) : Fld := ⟨0x680018C + 0x100 * i, 52, .rw, 0⟩
def SUB_Q_HEAD_HEAD (i : Nat) : Fld := ⟨0x68001C0 + 0x100 * i, 32, .rw, 0⟩
def SUB_Q_HEAD_TAIL (i : Nat) : Fld := ⟨0x68001E0 + 0x100 * i, 32, .ro, 0⟩
def SUB_ASID_INDEX_ASID : Fld := ⟨0x6800300, 12, .rw, 0⟩
def SUB_ASID_ROOT_VALID : Fld := ⟨0x6800340, 1, .rw, 0⟩
def SUB_ASID_ROOT_CMPT : Fld := ⟨0x6800341, 4, .rw, 0⟩
def SUB_ASID_ROOT_ROOT : Fld := ⟨0x6800350, 48, .rw, 0⟩
def SUB_XLATE_INVAL_ASID : Fld := ⟨0x6800380, 12, .wo, 0⟩
def SUB_XLATE_INVAL_ALL : Fld := ⟨0x680038C, 1, .wo, 0⟩
def SUB_XLATE_INVAL_GO : Fld := ⟨0x680038D, 1, .wo, 0⟩
def SUB_XLATE_INVAL_BUSY : Fld := ⟨0x680038E, 1, .ro, 0⟩
def SUB_XLATE_INVAL_DONE : Fld := ⟨0x680038F, 1, .w1c, 0⟩
def SUB_XLATE_EVENTS_WALKS : Fld := ⟨0x68003C0, 32, .ro, 0⟩
def SUB_XLATE_EVENTS_FAULTS : Fld := ⟨0x68003E0, 16, .ro, 0⟩
def SUB_XLATE_EVENTS_INVALS : Fld := ⟨0x68003F0, 16, .ro, 0⟩
def SUB_HOSTWIN_FRAMES : Fld := ⟨0x6800400, 11, .rws, 0⟩
def SUB_HOSTWIN_IN_USE : Fld := ⟨0x6800410, 11, .ro, 0⟩
def SUB_HOSTWIN_FILLS : Fld := ⟨0x6800420, 16, .ro, 0⟩
def SUB_HOSTWIN_DRAINS : Fld := ⟨0x6800430, 16, .ro, 0⟩
def SUB_PIN_PINNED : Fld := ⟨0x6800440, 14, .ro, 0⟩
def SUB_PIN_FAULTED : Fld := ⟨0x6800450, 13, .ro, 0⟩
def SUB_PIN_FETCHES : Fld := ⟨0x6800460, 32, .ro, 0⟩
def LNK_CTRL_ENABLE (p : Nat) : Fld := ⟨0x2800000 + 0x40000 * p, 1, .rw, 1⟩
def LNK_CTRL_RETRAIN (p : Nat) : Fld := ⟨0x2800001 + 0x40000 * p, 1, .wo, 0⟩
def LNK_CTRL_QUARANTINE (p : Nat) : Fld := ⟨0x2800002 + 0x40000 * p, 1, .rw, 0⟩
def LNK_CTRL_EQ_FREEZE (p : Nat) : Fld := ⟨0x2800003 + 0x40000 * p, 1, .rw, 0⟩
def LNK_CTRL_BIAS_FREEZE (p : Nat) : Fld := ⟨0x2800004 + 0x40000 * p, 1, .rw, 0⟩
def LNK_CTRL_CLR_CNT (p : Nat) : Fld := ⟨0x2800005 + 0x40000 * p, 1, .wo, 0⟩
def LNK_CTRL_WIDTH_MAX (p : Nat) : Fld := ⟨0x2800008 + 0x40000 * p, 2, .rw, 0⟩
def LNK_STATUS_STATE (p : Nat) : Fld := ⟨0x2800040 + 0x40000 * p, 4, .ro, 0⟩
def LNK_STATUS_WIDTH (p : Nat) : Fld := ⟨0x2800044 + 0x40000 * p, 2, .ro, 0⟩
def LNK_STATUS_DOWN_CAUSE (p : Nat) : Fld := ⟨0x2800048 + 0x40000 * p, 4, .ro, 0⟩
def LNK_STATUS_QCAUSE (p : Nat) : Fld := ⟨0x280004C + 0x40000 * p, 3, .ro, 0⟩
def LNK_STATUS_PARTNER_ROLE (p : Nat) : Fld := ⟨0x2800050 + 0x40000 * p, 1, .ro, 0⟩
def LNK_STATUS_PARTNER_REACH (p : Nat) : Fld := ⟨0x2800051 + 0x40000 * p, 1, .ro, 0⟩
def LNK_STATUS_PARTNER_NODE (p : Nat) : Fld := ⟨0x2800060 + 0x40000 * p, 16, .ro, 0⟩
def LNK_STATUS_PARTNER_AFP (p : Nat) : Fld := ⟨0x2800070 + 0x40000 * p, 16, .ro, 0⟩
def LNK_PARTNER_FW_VERSION (p : Nat) : Fld := ⟨0x2800080 + 0x40000 * p, 32, .ro, 0⟩
def LNK_PARTNER_DIGEST_WORD (p i : Nat) : Fld := ⟨0x28000C0 + 0x40000 * p + 0x40 * i, 64, .ro, 0⟩
def LNK_BIND_NODE (p : Nat) : Fld := ⟨0x2800240 + 0x40000 * p, 14, .rw, 0⟩
def LNK_BIND_VALID (p : Nat) : Fld := ⟨0x280024E + 0x40000 * p, 1, .rw, 0⟩
def LNK_CREDIT_TC (p c : Nat) : Fld := ⟨0x2800280 + 0x40000 * p + 16 * c, 16, .rws, ([1024, 4096, 4096, 6144, 6144, 4096, 2048, 5120].getD c 0)⟩
def LNK_RETRY_REPLAY_NS (p : Nat) : Fld := ⟨0x2800300 + 0x40000 * p, 16, .rw, 8000⟩
def LNK_RETRY_NAK_NS (p : Nat) : Fld := ⟨0x2800310 + 0x40000 * p, 16, .rw, 8000⟩
def LNK_RETRY_RETRY_MAX (p : Nat) : Fld := ⟨0x2800320 + 0x40000 * p, 8, .rw, 8⟩
def LNK_TS_CAL_TX_PS (p : Nat) : Fld := ⟨0x2800340 + 0x40000 * p, 32, .ro, 0⟩
def LNK_TS_CAL_RX_PS (p : Nat) : Fld := ⟨0x2800360 + 0x40000 * p, 32, .ro, 0⟩
def LNK_TS_DELAY_TX_PS (p : Nat) : Fld := ⟨0x2800380 + 0x40000 * p, 32, .rws, 0⟩
def LNK_TS_DELAY_RX_PS (p : Nat) : Fld := ⟨0x28003A0 + 0x40000 * p, 32, .rws, 0⟩
def LNK_COUNT0_CRC_ERRORS (p : Nat) : Fld := ⟨0x28003C0 + 0x40000 * p, 32, .ro, 0⟩
def LNK_COUNT0_REPLAYS (p : Nat) : Fld := ⟨0x28003E0 + 0x40000 * p, 32, .ro, 0⟩
def LNK_COUNT1_SEQ_DISCARDS (p : Nat) : Fld := ⟨0x2800400 + 0x40000 * p, 32, .ro, 0⟩
def LNK_COUNT1_NAKS_SENT (p : Nat) : Fld := ⟨0x2800420 + 0x40000 * p, 16, .ro, 0⟩
def LNK_COUNT1_RETRAINS (p : Nat) : Fld := ⟨0x2800430 + 0x40000 * p, 16, .ro, 0⟩
def LNK_COUNT2_SRC_DROPS (p : Nat) : Fld := ⟨0x2800440 + 0x40000 * p, 16, .ro, 0⟩
def LNK_COUNT2_CREDIT_DROPS (p : Nat) : Fld := ⟨0x2800450 + 0x40000 * p, 16, .ro, 0⟩
def LNK_COUNT2_FRAME_ERRORS (p : Nat) : Fld := ⟨0x2800460 + 0x40000 * p, 16, .ro, 0⟩
def LNK_COUNT2_LOST_PACKETS (p : Nat) : Fld := ⟨0x2800470 + 0x40000 * p, 16, .ro, 0⟩
def LNK_LANE_FEC_CORR_SYMBOLS (p i : Nat) : Fld := ⟨0x2800800 + 0x40000 * p + 0x40 * i, 32, .ro, 0⟩
def LNK_LANE_FEC_UNCORR_CW (p i : Nat) : Fld := ⟨0x2800820 + 0x40000 * p + 0x40 * i, 16, .ro, 0⟩
def LNK_LANE_FEC_LOCK_LOSSES (p i : Nat) : Fld := ⟨0x2800830 + 0x40000 * p + 0x40 * i, 8, .ro, 0⟩
def LNK_LANE_EQ_FFE_PRE (p i : Nat) : Fld := ⟨0x2800A00 + 0x40000 * p + 0x40 * i, 6, .ro, 0⟩
def LNK_LANE_EQ_FFE_MAIN (p i : Nat) : Fld := ⟨0x2800A08 + 0x40000 * p + 0x40 * i, 6, .ro, 0⟩
def LNK_LANE_EQ_FFE_POST (p i : Nat) : Fld := ⟨0x2800A10 + 0x40000 * p + 0x40 * i, 6, .ro, 0⟩
def LNK_LANE_EQ_CTLE (p i : Nat) : Fld := ⟨0x2800A18 + 0x40000 * p + 0x40 * i, 4, .ro, 0⟩
def LNK_LANE_EQ_DFE1 (p i : Nat) : Fld := ⟨0x2800A20 + 0x40000 * p + 0x40 * i, 8, .ro, 0⟩
def LNK_LANE_EQ_DFE2 (p i : Nat) : Fld := ⟨0x2800A28 + 0x40000 * p + 0x40 * i, 8, .ro, 0⟩
def LNK_LANE_EQ_DFE3 (p i : Nat) : Fld := ⟨0x2800A30 + 0x40000 * p + 0x40 * i, 8, .ro, 0⟩
def LNK_LANE_OPT_RX_OMA (p i : Nat) : Fld := ⟨0x2800C00 + 0x40000 * p + 0x40 * i, 8, .ro, 0⟩
def LNK_LANE_OPT_PARTNER_RX_OMA (p i : Nat) : Fld := ⟨0x2800C08 + 0x40000 * p + 0x40 * i, 8, .ro, 0⟩
def LNK_LANE_OPT_MOD_BIAS (p i : Nat) : Fld := ⟨0x2800C10 + 0x40000 * p + 0x40 * i, 12, .ro, 0⟩
def LNK_FEC_ALARM_THRESH (p : Nat) : Fld := ⟨0x2800E00 + 0x40000 * p, 32, .rw, 100000⟩
def LNK_FEC_ALARM_ALARMS (p : Nat) : Fld := ⟨0x2800E20 + 0x40000 * p, 32, .ro, 0⟩
def LNK_HIST_SEL_LANE (p : Nat) : Fld := ⟨0x2800E40 + 0x40000 * p, 3, .rw, 0⟩
def LNK_HIST_SEL_BIN (p : Nat) : Fld := ⟨0x2800E44 + 0x40000 * p, 4, .rw, 0⟩
def LNK_HIST_DATA_COUNT (p : Nat) : Fld := ⟨0x2800E80 + 0x40000 * p, 48, .ro, 0⟩
def LNK_TILE_FEED_POWER (t f : Nat) : Fld := ⟨0x2820000 + 0x200000 * t + 16 * f, 8, .ro, 0⟩
def LNK_TILE_FEED_LOSS (t f : Nat) : Fld := ⟨0x2820008 + 0x200000 * t + 16 * f, 1, .w1c, 0⟩
def LNK_LASER_REQ_SETPOINT (t f : Nat) : Fld := ⟨0x2820040 + 0x200000 * t + 16 * f, 8, .ro, 180⟩
def LNK_LASER_REQ_CHANGED (t f : Nat) : Fld := ⟨0x282004F + 0x200000 * t + 16 * f, 1, .w1c, 0⟩
def XBAR_CTRL_ITER : Fld := ⟨0x2000000, 3, .rw, 3⟩
def XBAR_CTRL_CLR_CNT : Fld := ⟨0x2000003, 1, .wo, 0⟩
def XBAR_TC_ARB_STRICT : Fld := ⟨0x2000040, 8, .rw, 7⟩
def XBAR_TC_ARB_WEIGHT (c : Nat) : Fld := ⟨0x2000040 + 8 * c, 8, .rw, ([0, 4, 4, 4, 8, 4, 2, 2].getD c 0)⟩
def XBAR_CT_TO_FABRIC (i : Nat) : Fld := ⟨0x2000080 + 0x40 * i, 32, .rw, 0⟩
def XBAR_CT_TO_INTERNAL (i : Nat) : Fld := ⟨0x20000A0 + 0x40 * i, 32, .rw, 4294967295⟩
def XBAR_EVENTS_CT_ENDED : Fld := ⟨0x2000280, 16, .ro, 0⟩
def XBAR_EVENTS_GATE_WRITE_REFUSED : Fld := ⟨0x2000290, 16, .ro, 0⟩
def XBAR_EVENTS_BRIDGE_DECLINED : Fld := ⟨0x20002A0, 16, .ro, 0⟩
def XBAR_QSAMPLE_SEL_INPUT : Fld := ⟨0x20002C0, 6, .rw, 0⟩
def XBAR_QSAMPLE_SEL_OUTPUT : Fld := ⟨0x20002C6, 6, .rw, 0⟩
def XBAR_QSAMPLE_SEL_TC : Fld := ⟨0x20002CC, 3, .rw, 0⟩
def XBAR_QSAMPLE_SEL_PERIOD : Fld := ⟨0x20002D0, 16, .rw, 64⟩
def XBAR_QSAMPLE_SEL_EN : Fld := ⟨0x20002E0, 1, .rw, 0⟩
def XBAR_QSAMPLE_DATA_DEPTH_LAST : Fld := ⟨0x2000300, 16, .ro, 0⟩
def XBAR_QSAMPLE_DATA_DEPTH_MIN : Fld := ⟨0x2000310, 16, .ro, 0⟩
def XBAR_QSAMPLE_DATA_DEPTH_MAX : Fld := ⟨0x2000320, 16, .ro, 0⟩
def XBAR_QSAMPLE_DATA_SAMPLES : Fld := ⟨0x2000330, 16, .ro, 0⟩
def XBAR_QSAMPLE_DELAY_DELAY_LAST_NS : Fld := ⟨0x2000340, 32, .ro, 0⟩
def XBAR_QSAMPLE_DELAY_DELAY_MAX_NS : Fld := ⟨0x2000360, 32, .ro, 0⟩
def XBAR_INBUF_USED (i : Nat) : Fld := ⟨0x2004000 + 0x40 * i, 16, .ro, 0⟩
def XBAR_INBUF_PEAK (i : Nat) : Fld := ⟨0x2004010 + 0x40 * i, 16, .ro, 0⟩
def XBAR_SHAPER_RATE_MBPS (o c : Nat) : Fld := ⟨0x2008000 + 0x200 * o + 0x40 * c, 20, .rw, 0⟩
def XBAR_SHAPER_EN (o c : Nat) : Fld := ⟨0x2008014 + 0x200 * o + 0x40 * c, 1, .rw, 0⟩
def XBAR_SHAPER_RESET_ZERO (o c : Nat) : Fld := ⟨0x2008015 + 0x200 * o + 0x40 * c, 1, .rw, 0⟩
def XBAR_SHAPER_BURST (o c : Nat) : Fld := ⟨0x2008018 + 0x200 * o + 0x40 * c, 12, .rw, 64⟩
def XBAR_SHAPER_TOKENS (o c : Nat) : Fld := ⟨0x2008028 + 0x200 * o + 0x40 * c, 24, .ro, 0⟩
def XBAR_GATE_CTRL_EN (p : Nat) : Fld := ⟨0x2010000 + 0x100 * p, 1, .rw, 0⟩
def XBAR_GATE_CTRL_ACTIVE (p : Nat) : Fld := ⟨0x2010001 + 0x100 * p, 1, .ro, 0⟩
def XBAR_GATE_CTRL_SPLIT_OPEN (p : Nat) : Fld := ⟨0x2010002 + 0x100 * p, 1, .rw, 0⟩
def XBAR_GATE_CTRL_LEN0 (p : Nat) : Fld := ⟨0x2010004 + 0x100 * p, 7, .rw, 1⟩
def XBAR_GATE_CTRL_LEN1 (p : Nat) : Fld := ⟨0x201000B + 0x100 * p, 7, .rw, 1⟩
def XBAR_GATE_CTRL_GUARD_NS (p : Nat) : Fld := ⟨0x2010012 + 0x100 * p, 10, .rw, 20⟩
def XBAR_GATE_SWAP_AT_SWAP_AT (p : Nat) : Fld := ⟨0x2010040 + 0x100 * p, 64, .rw, 18446744073709551615⟩
def XBAR_GATE_STATUS_ENTRY (p : Nat) : Fld := ⟨0x2010080 + 0x100 * p, 6, .ro, 0⟩
def XBAR_GATE_STATUS_ARMED (p : Nat) : Fld := ⟨0x2010086 + 0x100 * p, 1, .ro, 0⟩
def XBAR_GATE_STATUS_SWAP_REFUSED (p : Nat) : Fld := ⟨0x2010087 + 0x100 * p, 1, .w1c, 0⟩
def XBAR_GATE_STATUS_HOLDS (p : Nat) : Fld := ⟨0x2010090 + 0x100 * p, 32, .ro, 0⟩
def XBAR_GATE_STATUS_SWAPS (p : Nat) : Fld := ⟨0x20100B0 + 0x100 * p, 16, .ro, 0⟩
def XBAR_GATE_ENTRY_PORT : Fld := ⟨0x2018000, 5, .rw, 0⟩
def XBAR_GATE_ENTRY_LIST : Fld := ⟨0x2018005, 1, .rw, 0⟩
def XBAR_GATE_ENTRY_INDEX : Fld := ⟨0x2018006, 6, .rw, 0⟩
def XBAR_GATE_ENTRY_DUR_NS : Fld := ⟨0x2018010, 16, .rw, 8000⟩
def XBAR_GATE_ENTRY_MASK : Fld := ⟨0x2018020, 8, .rw, 255⟩
def XBAR_GATE_ENTRY_GO : Fld := ⟨0x2018028, 1, .wo, 0⟩
def SEC_CTRL_CLR_CNT : Fld := ⟨0x7000000, 1, .wo, 0⟩
def SEC_CTRL_VIEW_EN : Fld := ⟨0x7000001, 1, .rw, 0⟩
def SEC_CTRL_VIEW_MISSES : Fld := ⟨0x7000020, 32, .ro, 0⟩
def SEC_STATUS_BOOTED : Fld := ⟨0x7000040, 1, .ro, 0⟩
def SEC_STATUS_ECDSA_KEY : Fld := ⟨0x7000041, 2, .ro, 0⟩
def SEC_STATUS_LMS_KEY : Fld := ⟨0x7000043, 2, .ro, 0⟩
def SEC_STATUS_ENGINEERING : Fld := ⟨0x7000045, 1, .ro, 0⟩
def SEC_STATUS_FACTORY_TEST : Fld := ⟨0x7000046, 1, .ro, 0⟩
def SEC_STATUS_UDS_LOCKED : Fld := ⟨0x7000047, 1, .ro, 0⟩
def SEC_STATUS_FW_SVN : Fld := ⟨0x7000048, 7, .ro, 0⟩
def SEC_STATUS_CFG_SVN : Fld := ⟨0x700004F, 7, .ro, 0⟩
def SEC_STATUS_LAST_REFUSAL : Fld := ⟨0x7000058, 4, .ro, 0⟩
def SEC_STATUS_LAST_KIND : Fld := ⟨0x700005C, 2, .ro, 0⟩
def SEC_MEMBER_INDEX_NODE : Fld := ⟨0x7000080, 14, .rw, 0⟩
def SEC_MEMBER_DATA_MASK : Fld := ⟨0x70000C0, 16, .rw, 0⟩
def SEC_WARD_COUNT : Fld := ⟨0x7000100, 32, .ro, 0⟩
def SEC_WARD_THRESH : Fld := ⟨0x7000120, 16, .rw, 256⟩
def SEC_WARD_ALARMS : Fld := ⟨0x7000130, 16, .ro, 0⟩
def SEC_WARD_LOG_SRC : Fld := ⟨0x7000140, 16, .ro, 0⟩
def SEC_WARD_LOG_CMPT : Fld := ⟨0x7000150, 4, .ro, 0⟩
def SEC_WARD_LOG_TEST : Fld := ⟨0x7000154, 2, .ro, 0⟩
def SEC_WARD_LOG_ENTRY : Fld := ⟨0x7000156, 16, .ro, 0⟩
def SEC_WARD_LOG_OVERFLOW : Fld := ⟨0x700017E, 1, .w1c, 0⟩
def SEC_WARD_LOG_VALID : Fld := ⟨0x700017F, 1, .w1c, 0⟩
def SEC_SCRUB_CMPT : Fld := ⟨0x7000180, 4, .wo, 0⟩
def SEC_SCRUB_GO : Fld := ⟨0x7000184, 1, .wo, 0⟩
def SEC_SCRUB_STATUS_BUSY : Fld := ⟨0x70001C0, 1, .ro, 0⟩
def SEC_SCRUB_STATUS_DONE : Fld := ⟨0x70001C1, 1, .w1c, 0⟩
def SEC_SCRUB_STATUS_CMPT : Fld := ⟨0x70001C2, 4, .ro, 0⟩
def SEC_SCRUB_STATUS_LATE : Fld := ⟨0x70001C6, 1, .w1c, 0⟩
def SEC_SCRUB_STATUS_STOP_NS : Fld := ⟨0x70001D0, 16, .ro, 0⟩
def SEC_SCRUB_STATUS_TOTAL_NS : Fld := ⟨0x70001E0, 32, .ro, 0⟩
def SEC_SCRUB_COUNTS_COMMANDS_ENDED : Fld := ⟨0x7000200, 12, .ro, 0⟩
def SEC_SCRUB_COUNTS_ITEMS_STOPPED : Fld := ⟨0x700020C, 12, .ro, 0⟩
def SEC_SCRUB_COUNTS_RECORDS_DROPPED : Fld := ⟨0x7000218, 12, .ro, 0⟩
def SEC_SCRUB_COUNTS_WRITES_DROPPED : Fld := ⟨0x7000224, 12, .ro, 0⟩
def SEC_SCRUB_COUNTS_REFUSED : Fld := ⟨0x7000230, 16, .ro, 0⟩
def SEC_CMPT_STATE_SCRUBBING : Fld := ⟨0x7000240, 16, .ro, 0⟩
def SEC_VIEW_INDEX_CMPT : Fld := ⟨0x7000280, 4, .rw, 0⟩
def SEC_VIEW_BASE_EN : Fld := ⟨0x70002C0, 1, .rw, 0⟩
def SEC_VIEW_BASE_BASE : Fld := ⟨0x70002C6, 58, .rw, 0⟩
def SEC_SVN_FUSED : Fld := ⟨0x7000300, 7, .ro, 0⟩
def SEC_SVN_COMMIT : Fld := ⟨0x7000308, 1, .wo, 0⟩
def SEC_SVN_BUSY : Fld := ⟨0x7000309, 1, .ro, 0⟩
def SEC_SVN_DONE : Fld := ⟨0x700030A, 1, .w1c, 0⟩
def SEC_SVN_REFUSED : Fld := ⟨0x700030B, 1, .w1c, 0⟩
def SEC_SVN_CAUSE : Fld := ⟨0x700030C, 4, .ro, 0⟩
def SEC_KEYS_ECDSA_REVOKED : Fld := ⟨0x7000340, 4, .ro, 0⟩
def SEC_KEYS_LMS_REVOKED : Fld := ⟨0x7000344, 4, .ro, 0⟩
def SEC_LMS_NEXT : Fld := ⟨0x7000380, 32, .ro, 0⟩
def SEC_LMS_RESERVED_LEFT : Fld := ⟨0x70003A0, 13, .ro, 0⟩
def SEC_LMS_EXHAUSTED : Fld := ⟨0x70003B0, 1, .ro, 0⟩
def SEC_LMS_WRITING : Fld := ⟨0x70003B1, 1, .ro, 0⟩
def SEC_LMS_COUNT_SIGNATURES : Fld := ⟨0x70003C0, 32, .ro, 0⟩
def SEC_LMS_COUNT_RESERVATIONS : Fld := ⟨0x70003E0, 16, .ro, 0⟩
def SEC_LMS_COUNT_BUSY_ANSWERS : Fld := ⟨0x70003F0, 16, .ro, 0⟩
def SEC_SPDM_REQUESTS (i : Nat) : Fld := ⟨0x7000400 + 0x40 * i, 32, .ro, 0⟩
def SEC_SPDM_ERRORS (i : Nat) : Fld := ⟨0x7000420 + 0x40 * i, 16, .ro, 0⟩
def SEC_SPDM_VERSION (i : Nat) : Fld := ⟨0x7000430 + 0x40 * i, 4, .ro, 0⟩
def SEC_DEVICE_ID_WORD (i : Nat) : Fld := ⟨0x7000480 + 0x40 * i, 64, .ro, 0⟩
def FLT_WORDS_GROUPS (i : Nat) : Fld := ⟨0x800000 + 0x40 * i, 64, .w1c, 0⟩
def FLT_FATAL_GROUPS : Fld := ⟨0x800080, 64, .ro, 0⟩
def FLT_NOTIFY_VECTOR : Fld := ⟨0x8000C0, 11, .rw, 0⟩
def FLT_NOTIFY_EN_A : Fld := ⟨0x8000CB, 1, .rw, 1⟩
def FLT_NOTIFY_EN_B : Fld := ⟨0x8000CC, 1, .rw, 1⟩
def FLT_NOTIFY_IBI_EN : Fld := ⟨0x8000CD, 1, .rw, 1⟩
def FLT_NOTIFY_MASK_MASK (i : Nat) : Fld := ⟨0x800100 + 0x40 * i, 64, .rw, (if i = 0 then 0 else 0xFFFFFFFFFFFFFFFF)⟩
def FLT_SYN_INDEX_GROUP : Fld := ⟨0x800180, 6, .rw, 0⟩
def FLT_SYN_DATA0_VALID : Fld := ⟨0x8001C0, 1, .w1c, 0⟩
def FLT_SYN_DATA0_OVERFLOW : Fld := ⟨0x8001C1, 1, .w1c, 0⟩
def FLT_SYN_DATA0_CLASS : Fld := ⟨0x8001C2, 2, .ro, 0⟩
def FLT_SYN_DATA0_REG : Fld := ⟨0x8001C4, 26, .ro, 0⟩
def FLT_SYN_DATA0_UNIT : Fld := ⟨0x8001DE, 16, .ro, 0⟩
def FLT_SYN_DATA1_TIME_NS : Fld := ⟨0x800200, 64, .ro, 0⟩
def FLT_COUNT_CORRECTED : Fld := ⟨0x800240, 32, .ro, 0⟩
def FLT_COUNT_CONTAINED : Fld := ⟨0x800260, 16, .ro, 0⟩
def FLT_COUNT_FATAL : Fld := ⟨0x800270, 16, .ro, 0⟩
def FLT_HASP0_VALID : Fld := ⟨0x800280, 1, .ro, 0⟩
def FLT_HASP0_CAUSE : Fld := ⟨0x800281, 2, .ro, 0⟩
def FLT_HASP0_GROUP : Fld := ⟨0x800283, 6, .ro, 0⟩
def FLT_HASP0_TRANSIT_DROPS : Fld := ⟨0x8002A0, 32, .ro, 0⟩
def FLT_HASPN_WORD (i : Nat) : Fld := ⟨0x8002C0 + 0x40 * i, 64, .ro, 0⟩
def FLT_FENCE_KIND : Fld := ⟨0x800380, 3, .wo, 0⟩
def FLT_FENCE_UNIT : Fld := ⟨0x800384, 12, .wo, 0⟩
def FLT_FENCE_GO : Fld := ⟨0x800390, 1, .wo, 0⟩
def FLT_FENCE_UNFENCE : Fld := ⟨0x800391, 1, .wo, 0⟩
def FLT_FENCE_REFUSED : Fld := ⟨0x800392, 1, .w1c, 0⟩
def FLT_FENCED_ENG_MATRIX_or_FILTER (i : Nat) : Fld := ⟨0x8003C0 + 0x40 * i, 32, .ro, 0⟩
def FLT_FENCED_ENG_GATHER_or_MOVER (i : Nat) : Fld := ⟨0x8003E0 + 0x40 * i, 32, .ro, 0⟩
def FLT_FENCED_RED_LANES (i : Nat) : Fld := ⟨0x800440 + 0x40 * i, 64, .ro, 0⟩
def FLT_CHECK_RATE_LOG2 : Fld := ⟨0x8004C0, 4, .rw, 10⟩
def FLT_CHECK_THRESH : Fld := ⟨0x8004C4, 8, .rw, 4⟩
def FLT_CHECK_AUTO_FENCE : Fld := ⟨0x8004CC, 1, .rw, 1⟩
def FLT_CHECK_WAIT_FRAMES : Fld := ⟨0x8004CD, 3, .rw, 4⟩
def FLT_CHECK_STATS_CHECKED : Fld := ⟨0x800500, 24, .ro, 0⟩
def FLT_CHECK_STATS_MISMATCHES : Fld := ⟨0x800518, 12, .ro, 0⟩
def FLT_CHECK_STATS_SKIPPED : Fld := ⟨0x800524, 12, .ro, 0⟩
def FLT_CHECK_STATS_AUTO_FENCES : Fld := ⟨0x800530, 8, .ro, 0⟩
def FLT_CHECK_STATS_LOG_DROPS : Fld := ⟨0x800538, 8, .ro, 0⟩
def FLT_CHECK_LOG0_KIND : Fld := ⟨0x800540, 3, .ro, 0⟩
def FLT_CHECK_LOG0_UNIT : Fld := ⟨0x800543, 7, .ro, 0⟩
def FLT_CHECK_LOG0_CHECKER : Fld := ⟨0x80054A, 7, .ro, 0⟩
def FLT_CHECK_LOG0_THIRD : Fld := ⟨0x800551, 7, .ro, 0⟩
def FLT_CHECK_LOG0_VERDICT : Fld := ⟨0x800558, 1, .ro, 0⟩
def FLT_CHECK_LOG0_TEMP_Q : Fld := ⟨0x80055A, 16, .ro, 0⟩
def FLT_CHECK_LOG0_VDD_MV : Fld := ⟨0x80056A, 16, .ro, 0⟩
def FLT_CHECK_LOG0_VALID : Fld := ⟨0x80057F, 1, .ro, 0⟩
def FLT_CHECK_LOG1_TICK : Fld := ⟨0x800580, 40, .ro, 0⟩
def FLT_CHECK_LOG1_ACLK_MHZ : Fld := ⟨0x8005A8, 10, .ro, 0⟩
def FLT_CHECK_LOG1_ACTIVITY : Fld := ⟨0x8005B2, 8, .ro, 0⟩
def FLT_CHECK_LOG2_WORK : Fld := ⟨0x8005C0, 64, .ro, 0⟩
def FLT_FREEZE_LOOPS : Fld := ⟨0x800600, 7, .rw, 0⟩
def FLT_TEST_STRAP : Fld := ⟨0x800640, 1, .ro, 0⟩
def FLT_TEST_ENTER : Fld := ⟨0x800641, 1, .wo, 0⟩
def FLT_TEST_ACTIVE : Fld := ⟨0x800642, 1, .ro, 0⟩
def FLT_TEST_REFUSED : Fld := ⟨0x800643, 1, .w1c, 0⟩
def FLT_TEST_CAUSE : Fld := ⟨0x800644, 4, .ro, 0⟩
def FLT_INJECT_GROUP : Fld := ⟨0x800680, 6, .wo, 0⟩
def FLT_INJECT_CLASS : Fld := ⟨0x800686, 2, .wo, 0⟩
def FLT_INJECT_UNIT : Fld := ⟨0x800688, 16, .wo, 0⟩
def FLT_INJECT_GO : Fld := ⟨0x800698, 1, .wo, 0⟩
def FLT_INJECT_MISCOMPARE : Fld := ⟨0x800699, 1, .wo, 0⟩
def FLT_CTRL_CLR_CNT : Fld := ⟨0x8006C0, 1, .wo, 0⟩
def FLT_TOKEN_WORD (i : Nat) : Fld := ⟨0x808000 + 0x40 * i, 64, .wo, 0⟩
def MON_CTRL_EN : Fld := ⟨0x8000000, 1, .rw, 0⟩
def MON_BIN_SEL_MONITOR : Fld := ⟨0x8000040, 4, .rw, 0⟩
def MON_BIN_SEL_BIN : Fld := ⟨0x8000044, 5, .rw, 0⟩
def MON_BIN_DATA_COUNT : Fld := ⟨0x8000080, 32, .ro, 0⟩
def MON_SEL_SRC (m : Nat) : Fld := ⟨0x8000800 + 0x100 * m, 4, .rw, 0⟩
def MON_SEL_UNIT (m : Nat) : Fld := ⟨0x8000804 + 0x100 * m, 16, .rw, 0⟩
def MON_SEL_TC (m : Nat) : Fld := ⟨0x8000814 + 0x100 * m, 3, .rw, 0⟩
def MON_SEL_LOG (m : Nat) : Fld := ⟨0x8000817 + 0x100 * m, 1, .rw, 0⟩
def MON_SEL_WINDOW_TICKS (m : Nat) : Fld := ⟨0x8000818 + 0x100 * m, 8, .rw, 125⟩
def MON_SCALE_BASE (m : Nat) : Fld := ⟨0x8000840 + 0x100 * m, 32, .rw, 0⟩
def MON_SCALE_WIDTH (m : Nat) : Fld := ⟨0x8000860 + 0x100 * m, 32, .rw, 1⟩
def MON_MINMAX_MIN (m : Nat) : Fld := ⟨0x8000880 + 0x100 * m, 32, .ro, 0⟩
def MON_MINMAX_MAX (m : Nat) : Fld := ⟨0x80008A0 + 0x100 * m, 32, .ro, 0⟩
def MON_STATUS_SAMPLES (m : Nat) : Fld := ⟨0x80008C0 + 0x100 * m, 32, .ro, 0⟩
def MON_STATUS_END_TICK (m : Nat) : Fld := ⟨0x80008E0 + 0x100 * m, 32, .ro, 0⟩
def PWR_CTRL_CLR_CNT : Fld := ⟨0x7800000, 1, .wo, 0⟩
def PWR_STATE_STATE : Fld := ⟨0x7800040, 2, .ro, 0⟩
def PWR_STATE_EXITING : Fld := ⟨0x7800042, 1, .ro, 0⟩
def PWR_STATE_ACLK_MHZ : Fld := ⟨0x7800044, 10, .ro, 850⟩
def PWR_STATE_THROTTLE : Fld := ⟨0x780004E, 7, .ro, 64⟩
def PWR_STATE_POWER_THROTTLE : Fld := ⟨0x7800055, 1, .ro, 0⟩
def PWR_STATE_THERM_THROTTLE : Fld := ⟨0x7800056, 1, .ro, 0⟩
def PWR_STATE_NARROWED : Fld := ⟨0x7800058, 32, .ro, 0⟩
def PWR_BUDGET0_ENGINE_NS : Fld := ⟨0x7800080, 24, .rw, 0⟩
def PWR_BUDGET0_MEMORY_NS : Fld := ⟨0x7800098, 24, .rw, 0⟩
def PWR_BUDGET1_FORWARD_NS : Fld := ⟨0x78000C0, 24, .rw, 0⟩
def PWR_IDLE_IDLE_TICKS : Fld := ⟨0x7800100, 16, .rw, 125⟩
def PWR_IDLE_Q3_PORT_GBPS : Fld := ⟨0x7800110, 16, .rw, 20⟩
def PWR_IDLE_NARROW : Fld := ⟨0x7800120, 1, .rw, 1⟩
def PWR_LIMIT_CAP_W : Fld := ⟨0x7800140, 11, .rw, 1200⟩
def PWR_LIMIT_HYST_W : Fld := ⟨0x7800150, 8, .rw, 20⟩
def PWR_LIMIT_TMIN : Fld := ⟨0x7800158, 7, .rw, 16⟩
def PWR_LIMIT_SHED_ON_SAG : Fld := ⟨0x780015F, 1, .rw, 1⟩
def PWR_POWER_AVG_DW : Fld := ⟨0x7800180, 16, .ro, 0⟩
def PWR_POWER_PEAK_DW : Fld := ⟨0x7800190, 16, .ro, 0⟩
def PWR_POWER_THROTTLE_MS : Fld := ⟨0x78001A0, 32, .ro, 0⟩
def PWR_RAIL_INDEX_RAIL : Fld := ⟨0x78001C0, 4, .rw, 0⟩
def PWR_RAIL_DATA_MV : Fld := ⟨0x7800200, 16, .ro, 0⟩
def PWR_RAIL_DATA_NOMINAL_MV : Fld := ⟨0x7800210, 16, .ro, 0⟩
def PWR_RAIL_DATA_AMPS_DA : Fld := ⟨0x7800220, 16, .ro, 0⟩
def PWR_RAIL_DATA_MIN_MV : Fld := ⟨0x7800230, 16, .ro, 0⟩
def PWR_AVS_FREEZE : Fld := ⟨0x7800240, 1, .rw, 0⟩
def PWR_AVS_SET_C0_MV : Fld := ⟨0x7800244, 12, .ro, 750⟩
def PWR_AVS_SET_C1_MV : Fld := ⟨0x7800250, 12, .ro, 750⟩
def PWR_AVS_STEPS : Fld := ⟨0x780025C, 20, .ro, 0⟩
def PWR_AVS_MARGIN_FAULTS : Fld := ⟨0x7800270, 16, .ro, 0⟩
def PWR_THERM_DIE_THROTTLE_C : Fld := ⟨0x7800280, 8, .rw, 102⟩
def PWR_THERM_STACK_THROTTLE_C : Fld := ⟨0x7800288, 8, .rw, 92⟩
def PWR_THERM_HOTTEST : Fld := ⟨0x7800290, 6, .ro, 0⟩
def PWR_THERM_HOTTEST_Q : Fld := ⟨0x78002A0, 16, .ro, 0⟩
def PWR_SENSOR_INDEX_SENSOR : Fld := ⟨0x78002C0, 6, .rw, 0⟩
def PWR_SENSOR_DATA_TEMP_Q : Fld := ⟨0x7800300, 16, .ro, 0⟩
def PWR_SENSOR_DATA_MAX_Q : Fld := ⟨0x7800310, 16, .ro, 0⟩
def PWR_SENSOR_DATA_VALID : Fld := ⟨0x7800320, 1, .ro, 0⟩
def PWR_SAG_WARN : Fld := ⟨0x7800340, 1, .ro, 0⟩
def PWR_SAG_SAG_N : Fld := ⟨0x7800341, 1, .ro, 0⟩
def PWR_SAG_SEEN : Fld := ⟨0x7800342, 1, .w1c, 0⟩
def PWR_SAG_LAST_RAIL : Fld := ⟨0x7800343, 4, .ro, 0⟩
def PWR_SAG_WARNINGS : Fld := ⟨0x7800350, 16, .ro, 0⟩
def PWR_EVENTS_Q1_ENTRIES : Fld := ⟨0x7800380, 16, .ro, 0⟩
def PWR_EVENTS_Q2_ENTRIES : Fld := ⟨0x7800390, 16, .ro, 0⟩
def PWR_EVENTS_Q3_ENTRIES : Fld := ⟨0x78003A0, 16, .ro, 0⟩
def PWR_EVENTS_FAST_TRIPS : Fld := ⟨0x78003B0, 16, .ro, 0⟩
def GLB_ID_PART : Fld := ⟨0x0, 16, .ro, 38450⟩
def GLB_ID_STEPPING : Fld := ⟨0x10, 8, .ro, 17⟩
def GLB_ID_PCI_VENDOR : Fld := ⟨0x18, 16, .ro, 0⟩
def GLB_FW_FW_VERSION : Fld := ⟨0x40, 32, .ro, 0⟩
def GLB_FW_CFG_VERSION : Fld := ⟨0x60, 32, .ro, 0⟩
def GLB_COMPAT_FW_MIN : Fld := ⟨0x80, 32, .ro, 0⟩
def GLB_COMPAT_FW_MAX : Fld := ⟨0xA0, 32, .ro, 0⟩
def GLB_STRAPS_TRAY_ID : Fld := ⟨0xC0, 6, .ro, 0⟩
def GLB_STRAPS_FACTORY_TEST : Fld := ⟨0xC6, 1, .ro, 0⟩
def GLB_NODE_PROVISIONAL : Fld := ⟨0x100, 16, .ro, 65534⟩
def GLB_NODE_NODE : Fld := ⟨0x110, 16, .rw, 65534⟩
def GLB_NODE_CURRENT : Fld := ⟨0x120, 16, .ro, 65534⟩
def GLB_RESET_CAUSE_CAUSE : Fld := ⟨0x140, 3, .ro, 1⟩
def GLB_RESET_CAUSE_HASP_KEPT : Fld := ⟨0x143, 1, .ro, 0⟩
def MGT_STATUS_PHASE : Fld := ⟨0x8800000, 4, .ro, 0⟩
def MGT_STATUS_SLOT : Fld := ⟨0x8800004, 1, .ro, 0⟩
def MGT_STATUS_TRIAL : Fld := ⟨0x8800005, 1, .ro, 0⟩
def MGT_STATUS_CFG_CAUSE : Fld := ⟨0x8800006, 4, .ro, 0⟩
def MGT_STATUS_CFG_OFFSET : Fld := ⟨0x8800020, 32, .ro, 0⟩
def MGT_SEAL_GO : Fld := ⟨0x8800040, 1, .wo, 0⟩
def MGT_SEAL_SEALED : Fld := ⟨0x8800041, 1, .ro, 0⟩
def MGT_SEAL_PENDING : Fld := ⟨0x8800042, 1, .ro, 0⟩
def MGT_SEAL_RWS_WRITES : Fld := ⟨0x8800050, 16, .ro, 0⟩
def MGT_SEAL_LAST_OFFSET : Fld := ⟨0x8800060, 32, .ro, 0⟩
def MGT_DIGEST_WORD (i : Nat) : Fld := ⟨0x8800080 + 0x40 * i, 64, .ro, 0⟩
def MGT_BOOT_ACTIVE : Fld := ⟨0x8800200, 1, .ro, 0⟩
def MGT_BOOT_TRIAL_VALID : Fld := ⟨0x8800201, 1, .ro, 0⟩
def MGT_BOOT_TRIAL_SLOT : Fld := ⟨0x8800202, 1, .ro, 0⟩
def MGT_BOOT_ATTEMPTS : Fld := ⟨0x8800203, 3, .ro, 0⟩
def MGT_BOOT_CONFIRM : Fld := ⟨0x8800206, 1, .wo, 0⟩
def MGT_BOOT_SET_TRIAL : Fld := ⟨0x8800207, 1, .wo, 0⟩
def MGT_BOOT_TARGET : Fld := ⟨0x8800208, 1, .wo, 0⟩
def MGT_BOOT_REFUSED : Fld := ⟨0x8800209, 1, .w1c, 0⟩
def MGT_BOOT_SEQ : Fld := ⟨0x8800220, 32, .ro, 0⟩
def MGT_UPD_SRC_ADDR : Fld := ⟨0x8800240, 64, .rw, 0⟩
def MGT_UPD_TARGET : Fld := ⟨0x8800280, 2, .wo, 0⟩
def MGT_UPD_GO : Fld := ⟨0x8800282, 1, .wo, 0⟩
def MGT_UPD_BUSY : Fld := ⟨0x8800283, 1, .ro, 0⟩
def MGT_UPD_DONE : Fld := ⟨0x8800284, 1, .w1c, 0⟩
def MGT_UPD_REFUSED : Fld := ⟨0x8800285, 1, .w1c, 0⟩
def MGT_UPD_CAUSE : Fld := ⟨0x8800286, 4, .ro, 0⟩
def MGT_UPD_PORT : Fld := ⟨0x880028A, 1, .ro, 0⟩
def MGT_UPD_PROGRESS_KIB : Fld := ⟨0x88002A0, 32, .ro, 0⟩
def MGT_OWNER_HOLDER : Fld := ⟨0x88002C0, 2, .ro, 0⟩
def MGT_OWNER_CLAIM : Fld := ⟨0x88002C2, 1, .wo, 0⟩
def MGT_OWNER_RELEASE : Fld := ⟨0x88002C3, 1, .wo, 0⟩
def MGT_OWNER_ENFORCE : Fld := ⟨0x88002C4, 1, .rws, 0⟩
def MGT_OWNER_LEASE_MS : Fld := ⟨0x88002D0, 16, .rw, 1000⟩
def MGT_OWNER_DROPPED : Fld := ⟨0x88002E0, 16, .ro, 0⟩
def MGT_WIN_EN (i : Nat) : Fld := ⟨0x8800300 + 0x40 * i, 1, .rw, 0⟩
def MGT_WIN_CMPT (i : Nat) : Fld := ⟨0x8800301 + 0x40 * i, 4, .rw, 0⟩
def MGT_WIN_BASE (i : Nat) : Fld := ⟨0x8800324 + 0x40 * i, 28, .rw, 0⟩
def MGT_WIN_WARD_WARD (i : Nat) : Fld := ⟨0x8800380 + 0x40 * i, 64, .rw, 0⟩
def MGT_WIN_STATUS_LAST_STATUS (i : Nat) : Fld := ⟨0x8800400 + 0x40 * i, 8, .ro, 0⟩
def MGT_WIN_STATUS_ERROR (i : Nat) : Fld := ⟨0x8800408 + 0x40 * i, 1, .w1c, 0⟩
def MGT_WIN_STATUS_ERRORS (i : Nat) : Fld := ⟨0x8800420 + 0x40 * i, 32, .ro, 0⟩
def MGT_I3C_DA : Fld := ⟨0x8800480, 7, .ro, 0⟩
def MGT_I3C_DA_VALID : Fld := ⟨0x8800487, 1, .ro, 0⟩
def MGT_I3C_SEQ_IN : Fld := ⟨0x8800488, 1, .ro, 1⟩
def MGT_I3C_SEQ_OUT : Fld := ⟨0x8800489, 1, .ro, 0⟩
def MGT_I3C_IBI_ENABLED : Fld := ⟨0x880048A, 1, .ro, 0⟩
def MGT_I3C_IBIS : Fld := ⟨0x8800490, 16, .ro, 0⟩
def MGT_I3C_REFUSED : Fld := ⟨0x88004A0, 16, .ro, 0⟩
def MGT_RESET_KEY : Fld := ⟨0x88004C0, 8, .wo, 0⟩
def MGT_RESET_GO : Fld := ⟨0x88004C8, 1, .wo, 0⟩

end F

/-- Registers, part 0 (in the order of the chapters). -/
def regTable0 : List RegDesc := [
  ⟨0x200000, [], fun _ _ => [F.TICK_CTRL_RUN, F.TICK_CTRL_MASTER, F.TICK_CTRL_REF_EN, F.TICK_CTRL_SERVO_FREEZE, F.TICK_CTRL_ADMIT_FREEZE, F.TICK_CTRL_CLR_CNT]⟩,
  ⟨0x200008, [], fun _ _ => [F.TICK_STATUS_RUNNING, F.TICK_STATUS_SPLIT, F.TICK_STATUS_HOLDOVER, F.TICK_STATUS_REF_MISSING, F.TICK_STATUS_SWITCH_REFUSED, F.TICK_STATUS_SPLIT_SEEN]⟩,
  ⟨0x200010, [], fun _ _ => [F.TICK_TIME_TIME_NS]⟩,
  ⟨0x200018, [], fun _ _ => [F.TICK_COUNT_TICK]⟩,
  ⟨0x200020, [], fun _ _ => [F.TICK_PERIOD_PERIOD_US, F.TICK_PERIOD_NEXT_US, F.TICK_PERIOD_ARMED_US]⟩,
  ⟨0x200028, [], fun _ _ => [F.TICK_SWITCH_SWITCH_AT]⟩,
  ⟨0x200030, [], fun _ _ => [F.TICK_TIME_SET_TIME_NS]⟩,
  ⟨0x200038, [], fun _ _ => [F.TICK_PARENT_PORT, F.TICK_PARENT_VALID]⟩,
  ⟨0x200040, [], fun _ _ => [F.TICK_OFFSET_OFFSET_PS, F.TICK_OFFSET_DELAY_PS]⟩,
  ⟨0x200048, [], fun _ _ => [F.TICK_LIMITS_HOLD_PPM]⟩,
  ⟨0x200050, [], fun _ _ => [F.TICK_BUDGET_RED_SHARE, F.TICK_BUDGET_GTH_SHARE, F.TICK_BUDGET_FLT_SHARE, F.TICK_BUDGET_MTX_SHARE, F.TICK_BUDGET_MOV_SHARE, F.TICK_BUDGET_PIN_SHARE]⟩,
  ⟨0x200058, [], fun _ _ => [F.TICK_REF_PERIOD_PERIOD_US]⟩,
  ⟨0x200060, [(6, 0x8)], fun i _ => [F.TICK_OVR_OVERRUNS i, F.TICK_OVR_LONG_OVERRUNS i]⟩,
  ⟨0x200090, [], fun _ _ => [F.TICK_EVENTS_SPLIT_ENTRIES, F.TICK_EVENTS_SWITCH_REFUSALS, F.TICK_EVENTS_REF_MISSED, F.TICK_EVENTS_BIG_ADMITS]⟩,
  ⟨0x200098, [], fun _ _ => [F.TICK_LONG_LOG_CLASS, F.TICK_LONG_LOG_UNIT, F.TICK_LONG_LOG_TICK, F.TICK_LONG_LOG_OVERFLOW, F.TICK_LONG_LOG_VALID]⟩,
  ⟨0x300000, [], fun _ _ => [F.MAP_CTRL_REACH, F.MAP_CTRL_HOME_REQ_EN, F.MAP_CTRL_CLR_CNT]⟩,
  ⟨0x300008, [], fun _ _ => [F.MAP_EPOCH_CURRENT, F.MAP_EPOCH_PREVIOUS, F.MAP_EPOCH_HINGE]⟩,
  ⟨0x300010, [], fun _ _ => [F.MAP_ARM_COMMIT_AT]⟩,
  ⟨0x300018, [], fun _ _ => [F.MAP_STATUS_ARMED, F.MAP_STATUS_ARM_REFUSED, F.MAP_STATUS_REFUSE_CAUSE, F.MAP_STATUS_LOCKED_WRITES, F.MAP_STATUS_PREV_INFLIGHT]⟩,
  ⟨0x300020, [], fun _ _ => [F.MAP_HINGE_TIMEOUT_US, F.MAP_HINGE_GRACE_US, F.MAP_HINGE_MIN_US]⟩]

/-- Registers, part 1 (in the order of the chapters). -/
def regTable1 : List RegDesc := [
  ⟨0x300028, [], fun _ _ => [F.MAP_STAGE_INDEX_INDEX, F.MAP_STAGE_INDEX_ROUTE, F.MAP_STAGE_INDEX_VIEW]⟩,
  ⟨0x300030, [(4, 0x8)], fun i _ => [F.MAP_STAGE_DATA_WORD i]⟩,
  ⟨0x300050, [], fun _ _ => [F.MAP_REVOKE_ENTRY, F.MAP_REVOKE_GO]⟩,
  ⟨0x300058, [], fun _ _ => [F.MAP_REVOKE_STATUS_DRAINING, F.MAP_REVOKE_STATUS_DONE, F.MAP_REVOKE_STATUS_ABORTED, F.MAP_REVOKE_STATUS_ENTRY, F.MAP_REVOKE_STATUS_PENDING]⟩,
  ⟨0x300060, [], fun _ _ => [F.MAP_REVOKE_DRAIN_DRAIN_US]⟩,
  ⟨0x300068, [], fun _ _ => [F.MAP_QUIESCE_CMPT_MASK, F.MAP_QUIESCE_DONE]⟩,
  ⟨0x300070, [(4, 0x8)], fun i _ => [] ++ (List.range 4).map (fun c => F.MAP_DOMAIN_MEMBER i c)⟩,
  ⟨0x300090, [], fun _ _ => [F.MAP_HOME_REQ_ENTRY, F.MAP_HOME_REQ_NEW_HOME, F.MAP_HOME_REQ_EPOCH, F.MAP_HOME_REQ_VALID]⟩,
  ⟨0x300098, [], fun _ _ => [F.MAP_PUB_CONFLICT_ENTRY, F.MAP_PUB_CONFLICT_OTHER, F.MAP_PUB_CONFLICT_VERSION]⟩,
  ⟨0x3000A0, [], fun _ _ => [F.MAP_EVENTS_HINGE_TIMEOUTS, F.MAP_EVENTS_FORCED, F.MAP_EVENTS_REVERTS, F.MAP_EVENTS_FUTURE_EPOCH]⟩,
  ⟨0x3000A8, [], fun _ _ => [F.MAP_EVENTS2_PUB_CONFLICTS, F.MAP_EVENTS2_REVOKE_ABORTS, F.MAP_EVENTS2_LATE_DROPS, F.MAP_EVENTS2_ARM_REFUSALS]⟩,
  ⟨0x3000B0, [], fun _ _ => [F.MAP_JOIN_EPOCH, F.MAP_JOIN_JOIN]⟩,
  ⟨0x3000B8, [], fun _ _ => [F.MAP_DUP_CACHE_FULL, F.MAP_DUP_PENDING_DROPS, F.MAP_DUP_AGED_OUT, F.MAP_DUP_REVOKE_IGNORED]⟩,
  ⟨0x600000, [], fun _ _ => [F.MEM_CTRL_SCRUB_EN, F.MEM_CTRL_CLR_CNT]⟩,
  ⟨0x600008, [], fun _ _ => [F.MEM_STATUS_TRAINED, F.MEM_STATUS_STAMPED, F.MEM_STATUS_STAMP_BUSY, F.MEM_STATUS_FRAMES_WAITING]⟩,
  ⟨0x600010, [], fun _ _ => [F.MEM_SCRUB_PERIOD_H, F.MEM_SCRUB_ROW_THRESH, F.MEM_SCRUB_PASSES]⟩,
  ⟨0x600018, [], fun _ _ => [F.MEM_STAMP_SHARE]⟩,
  ⟨0x600020, [], fun _ _ => [F.MEM_MODEB_USED, F.MEM_MODEB_LIMIT]⟩,
  ⟨0x600028, [], fun _ _ => [F.MEM_FRAMES_FREE, F.MEM_FRAMES_DIRECTORY, F.MEM_FRAMES_RETIRED]⟩,
  ⟨0x600030, [], fun _ _ => [F.MEM_RETIRE_FRAME, F.MEM_RETIRE_GO]⟩]

/-- Registers, part 2 (in the order of the chapters). -/
def regTable2 : List RegDesc := [
  ⟨0x600038, [], fun _ _ => [F.MEM_RMW_MERGES]⟩,
  ⟨0x600040, [], fun _ _ => [F.MEM_POISON_READS_READS]⟩,
  ⟨0x600048, [(12, 0x8)], fun i _ => [F.MEM_ERR_H_CORRECTED i, F.MEM_ERR_H_UNCORRECTED i, F.MEM_ERR_H_REPAIRS i]⟩,
  ⟨0x6000A8, [], fun _ _ => [F.MEM_UE_LOG_STACK, F.MEM_UE_LOG_CHANNEL, F.MEM_UE_LOG_GRANULE, F.MEM_UE_LOG_CODEWORD, F.MEM_UE_LOG_SOURCE, F.MEM_UE_LOG_MODEB, F.MEM_UE_LOG_OVERFLOW, F.MEM_UE_LOG_VALID]⟩,
  ⟨0x6000B0, [], fun _ _ => [F.MEM_REPAIR_CAND_STACK, F.MEM_REPAIR_CAND_CHANNEL, F.MEM_REPAIR_CAND_GRANULE, F.MEM_REPAIR_CAND_PC, F.MEM_REPAIR_CAND_COUNT, F.MEM_REPAIR_CAND_VALID]⟩,
  ⟨0x6000B8, [], fun _ _ => [F.MEM_FLIP_STACK, F.MEM_FLIP_SYM_A, F.MEM_FLIP_SYM_B, F.MEM_FLIP_PATTERN, F.MEM_FLIP_ARM]⟩,
  ⟨0x700000, [], fun _ _ => [F.TIER_CTRL_PLACER_EN, F.TIER_CTRL_LEND_EN, F.TIER_CTRL_MIGRATE_FREEZE, F.TIER_CTRL_THRESH_FREEZE, F.TIER_CTRL_CLR_CNT, F.TIER_CTRL_FREE_TARGET]⟩,
  ⟨0x700008, [], fun _ _ => [F.TIER_STATUS_FTL_READY, F.TIER_STATUS_OVERCOMMIT, F.TIER_STATUS_SAG_HOLD, F.TIER_STATUS_FTL_MAP_FRAMES, F.TIER_STATUS_CHECK_FRAMES]⟩,
  ⟨0x700010, [], fun _ _ => [F.TIER_OCCUPANCY_RESERVED, F.TIER_OCCUPANCY_TIERED, F.TIER_OCCUPANCY_COPIES, F.TIER_OCCUPANCY_SLACK]⟩,
  ⟨0x700018, [], fun _ _ => [F.TIER_BUDGET_DEMOTE, F.TIER_BUDGET_PEER, F.TIER_BUDGET_LEND, F.TIER_BUDGET_RELOC]⟩,
  ⟨0x700020, [], fun _ _ => [F.TIER_HEAT_DECAY, F.TIER_HEAT_PRESSURE, F.TIER_HEAT_MOVE_SHARE, F.TIER_HEAT_COPY_HOLD]⟩,
  ⟨0x700028, [], fun _ _ => [F.TIER_PLAN_RATE_MBPS, F.TIER_PLAN_LEAD_TICKS]⟩,
  ⟨0x700030, [], fun _ _ => [F.TIER_SCHED_STATUS_LATE, F.TIER_SCHED_STATUS_LAST_LATE, F.TIER_SCHED_STATUS_SKIPPED]⟩,
  ⟨0x700038, [], fun _ _ => [F.TIER_HINT0_EXTENT, F.TIER_HINT0_FIRST_PAGE]⟩,
  ⟨0x700040, [], fun _ _ => [F.TIER_HINT1_PAGES, F.TIER_HINT1_OP, F.TIER_HINT1_GO, F.TIER_HINT1_REFUSED, F.TIER_HINT1_IGNORED]⟩,
  ⟨0x700048, [(4, 0x8)], fun i _ => [F.TIER_STALL_EVENTS i, F.TIER_STALL_CYCLES_K i]⟩,
  ⟨0x700068, [], fun _ _ => [F.TIER_XSTALL_INDEX_EXTENT]⟩,
  ⟨0x700070, [], fun _ _ => [F.TIER_XSTALL_DATA_EVENTS, F.TIER_XSTALL_DATA_CYCLES_K]⟩,
  ⟨0x700078, [], fun _ _ => [F.TIER_LEND_LOANS, F.TIER_LEND_PAGES, F.TIER_LEND_CRC_DISCARDS]⟩,
  ⟨0x700080, [(2, 0x8)], fun i _ => [F.TIER_HOST_PAGES i, F.TIER_HOST_BASE i]⟩]

/-- Registers, part 3 (in the order of the chapters). -/
def regTable3 : List RegDesc := [
  ⟨0x700090, [], fun _ _ => [F.TIER_FLASH_GEOM_CHANNELS, F.TIER_FLASH_GEOM_TARGETS, F.TIER_FLASH_GEOM_LUNS, F.TIER_FLASH_GEOM_PLANES, F.TIER_FLASH_GEOM_PAGES_PER_BLOCK, F.TIER_FLASH_GEOM_BLOCKS_PER_PLANE]⟩,
  ⟨0x700098, [], fun _ _ => [F.TIER_FLASH_CFG_OP_PCT, F.TIER_FLASH_CFG_RD_LIMIT_K, F.TIER_FLASH_CFG_WEAR_DELTA]⟩,
  ⟨0x7000A0, [], fun _ _ => [F.TIER_FLASH_HEALTH_BAD_BLOCKS, F.TIER_FLASH_HEALTH_UNUSED_TARGETS, F.TIER_FLASH_HEALTH_ERASE_MAX, F.TIER_FLASH_HEALTH_ERASE_MIN]⟩,
  ⟨0x7000A8, [], fun _ _ => [F.TIER_FLASH_ERR_RETRIES, F.TIER_FLASH_ERR_SOFT, F.TIER_FLASH_ERR_UNCORRECTABLE]⟩,
  ⟨0x7000B0, [], fun _ _ => [F.TIER_SAG_PROGRAMS_HELD, F.TIER_SAG_ERASES_HELD, F.TIER_SAG_DEMOTIONS_PAUSED, F.TIER_SAG_SUSPECT_FOUND]⟩,
  ⟨0x7000B8, [], fun _ _ => [F.TIER_EVENTS_FETCHES, F.TIER_EVENTS_DEMOTIONS, F.TIER_EVENTS_DROPS, F.TIER_EVENTS_HOME_COPIES]⟩,
  ⟨0x700100, [(16, 0x8)], fun i _ => [F.TIER_POLICY_ENABLED i, F.TIER_POLICY_BACKING i, F.TIER_POLICY_LENT i, F.TIER_POLICY_COLD i, F.TIER_POLICY_LENT_THRESH i, F.TIER_POLICY_MIN_TICKS i]⟩,
  ⟨0x800000, [], fun _ _ => [F.COH_CTRL_CLR_CNT]⟩,
  ⟨0x800008, [], fun _ _ => [F.COH_USAGE_USED_4K, F.COH_USAGE_DIR_FRAMES]⟩,
  ⟨0x800010, [], fun _ _ => [F.COH_AGENT_INDEX_WORD]⟩,
  ⟨0x800018, [], fun _ _ => [F.COH_AGENT_DATA_REGISTERED]⟩,
  ⟨0x800020, [], fun _ _ => [F.COH_TIMERS_SNOOP_US, F.COH_TIMERS_COMPLETE_US]⟩,
  ⟨0x800028, [], fun _ _ => [F.COH_RECALL_ENTRY, F.COH_RECALL_GO]⟩,
  ⟨0x800030, [], fun _ _ => [F.COH_RECALL_STATUS_BUSY, F.COH_RECALL_STATUS_DONE, F.COH_RECALL_STATUS_ENTRY, F.COH_RECALL_STATUS_LINES]⟩,
  ⟨0x800038, [], fun _ _ => [F.COH_DEAD_NODE, F.COH_DEAD_GO]⟩,
  ⟨0x800040, [], fun _ _ => [F.COH_DEAD_STATUS_SWEEPING, F.COH_DEAD_STATUS_DONE, F.COH_DEAD_STATUS_AUTO, F.COH_DEAD_STATUS_NODE, F.COH_DEAD_STATUS_LINES_POISONED]⟩,
  ⟨0x800048, [], fun _ _ => [F.COH_TXN_ACTIVE, F.COH_TXN_PEAK]⟩,
  ⟨0x800050, [], fun _ _ => [F.COH_PEEK_ENTRY, F.COH_PEEK_LINE, F.COH_PEEK_GO]⟩,
  ⟨0x800058, [(2, 0x8)], fun i _ => [F.COH_PEEK_DATA_WORD i]⟩,
  ⟨0x800068, [(2, 0x8)], fun i _ => [F.COH_CACHE_HITS i, F.COH_CACHE_MISSES i]⟩]

/-- Registers, part 4 (in the order of the chapters). -/
def regTable4 : List RegDesc := [
  ⟨0x800078, [], fun _ _ => [F.COH_STALL_EVENTS, F.COH_STALL_CYCLES_K]⟩,
  ⟨0x800080, [], fun _ _ => [F.COH_EVENTS_FWD_EMPTY, F.COH_EVENTS_COARSE_CONV, F.COH_EVENTS_BUSY_REFUSALS, F.COH_EVENTS_LATE_DROPS]⟩,
  ⟨0x800088, [], fun _ _ => [F.COH_EVENTS2_DEAD_DECLARED, F.COH_EVENTS2_COMPLETE_TIMEOUTS, F.COH_EVENTS2_DIR_UNCORRECTABLE, F.COH_EVENTS2_STALE_WB]⟩,
  ⟨0x900000, [], fun _ _ => [F.RED_CTRL_CLR_CNT]⟩,
  ⟨0x900008, [], fun _ _ => [F.RED_CAPS_STREAMS, F.RED_CAPS_LANES, F.RED_CAPS_STORE_MIB]⟩,
  ⟨0x900010, [], fun _ _ => [F.RED_STORE_FREE_C0, F.RED_STORE_FREE_C1]⟩,
  ⟨0x900018, [], fun _ _ => [F.RED_STREAM_INDEX_STREAM]⟩,
  ⟨0x900020, [], fun _ _ => [F.RED_STREAM_STATE_VALID, F.RED_STREAM_STATE_ROLE, F.RED_STREAM_STATE_OPEN, F.RED_STREAM_STATE_NEXT]⟩,
  ⟨0x900028, [], fun _ _ => [F.RED_STREAM_SLOTS_IN_USE_C0, F.RED_STREAM_SLOTS_IN_USE_C1, F.RED_STREAM_SLOTS_SLOTS]⟩,
  ⟨0x900030, [], fun _ _ => [F.RED_PARENT_WARD_WARD]⟩,
  ⟨0x900038, [], fun _ _ => [F.RED_ABORT_STREAM, F.RED_ABORT_GO, F.RED_ABORT_ROUND]⟩,
  ⟨0x900040, [], fun _ _ => [F.RED_ROUNDS_COMMITTED, F.RED_ROUNDS_ABORTED]⟩,
  ⟨0x900048, [], fun _ _ => [F.RED_ABORT_CAUSE_DEADLINE, F.RED_ABORT_CAUSE_SOFTWARE, F.RED_ABORT_CAUSE_PARENT_POISON, F.RED_ABORT_CAUSE_DESTROY, F.RED_ABORT_CAUSE_IGNORED]⟩,
  ⟨0x900050, [], fun _ _ => [F.RED_EVENTS_DUP_BITMAP, F.RED_EVENTS_LATE_DONE, F.RED_EVENTS_STALE, F.RED_EVENTS_BUSY]⟩,
  ⟨0x900058, [], fun _ _ => [F.RED_EVENTS2_SPLIT_REFUSALS, F.RED_EVENTS2_FWD_TIMEOUTS, F.RED_EVENTS2_BCAST_FAILS, F.RED_EVENTS2_POST_DROPS, F.RED_EVENTS2_ABORT_ANSWERS]⟩,
  ⟨0x900060, [], fun _ _ => [F.RED_STORE_ECC_CORRECTED, F.RED_STORE_ECC_UNCORRECTED]⟩,
  ⟨0x900068, [], fun _ _ => [F.RED_STRAGGLER0_ROUND, F.RED_STRAGGLER0_STREAM, F.RED_STRAGGLER0_CONTRIBUTOR, F.RED_STRAGGLER0_MISSING, F.RED_STRAGGLER0_VALID]⟩,
  ⟨0x900070, [], fun _ _ => [F.RED_STRAGGLER1_LATE_TICKS, F.RED_STRAGGLER1_MISSING_COUNT]⟩,
  ⟨0xA00000, [], fun _ _ => [F.GFS_CTRL_CLR_CNT]⟩,
  ⟨0xA00008, [], fun _ _ => [F.GFS_CAPS_GATHER, F.GFS_CAPS_FILTER, F.GFS_CAPS_MATRIX, F.GFS_CAPS_SELECT_ENTRIES]⟩]

/-- Registers, part 5 (in the order of the chapters). -/
def regTable5 : List RegDesc := [
  ⟨0xA00010, [], fun _ _ => [F.GFS_ACTIVE_JOBS, F.GFS_ACTIVE_REQUESTS, F.GFS_ACTIVE_SELECT_FREE]⟩,
  ⟨0xA00018, [], fun _ _ => [F.GFS_GATHER_ROWS, F.GFS_GATHER_REUSED]⟩,
  ⟨0xA00020, [], fun _ _ => [F.GFS_GATHER_OUT_OUT_ROWS, F.GFS_GATHER_OUT_PADDING]⟩,
  ⟨0xA00028, [], fun _ _ => [F.GFS_FILTER_SCANNED, F.GFS_FILTER_PASSED]⟩,
  ⟨0xA00030, [], fun _ _ => [F.GFS_SCORE_TILES, F.GFS_SCORE_NAN_EXCLUDED]⟩,
  ⟨0xA00038, [], fun _ _ => [F.GFS_POISON_ROWS, F.GFS_POISON_RECORDS, F.GFS_POISON_KEYS, F.GFS_POISON_ECC]⟩,
  ⟨0xA00040, [], fun _ _ => [F.GFS_REFUSALS_COST, F.GFS_REFUSALS_SIZE, F.GFS_REFUSALS_FORMAT, F.GFS_REFUSALS_SELECT_BUSY]⟩,
  ⟨0xA00048, [], fun _ _ => [F.GFS_KEY_WAIT_EVENTS, F.GFS_KEY_WAIT_CYCLES_K]⟩,
  ⟨0xB00000, [], fun _ _ => [F.CMP_CTRL_CLR_CNT]⟩,
  ⟨0xB00008, [], fun _ _ => [F.CMP_CAPS_EXPANDERS, F.CMP_CAPS_TABLES, F.CMP_CAPS_SLOT_BYTES]⟩,
  ⟨0xB00010, [], fun _ _ => [F.CMP_TABLE_SRC_ADDR]⟩,
  ⟨0xB00018, [], fun _ _ => [F.CMP_TABLE_LOAD_TABLE, F.CMP_TABLE_LOAD_VERSION, F.CMP_TABLE_LOAD_CMPT, F.CMP_TABLE_LOAD_GO]⟩,
  ⟨0xB00020, [], fun _ _ => [F.CMP_TABLE_STATUS_BUSY, F.CMP_TABLE_STATUS_PENDING, F.CMP_TABLE_STATUS_DONE, F.CMP_TABLE_STATUS_REFUSED, F.CMP_TABLE_STATUS_CAUSE, F.CMP_TABLE_STATUS_TABLE, F.CMP_TABLE_STATUS_VERSION, F.CMP_TABLE_STATUS_SLOT, F.CMP_TABLE_STATUS_WAITS, F.CMP_TABLE_STATUS_REFUSALS]⟩,
  ⟨0xB00028, [], fun _ _ => [F.CMP_SLOT_INDEX_TABLE, F.CMP_SLOT_INDEX_SLOT]⟩,
  ⟨0xB00030, [], fun _ _ => [F.CMP_SLOT_STATE_STATE, F.CMP_SLOT_STATE_KIND, F.CMP_SLOT_STATE_ENTRY, F.CMP_SLOT_STATE_CMPT, F.CMP_SLOT_STATE_VERSION, F.CMP_SLOT_STATE_REFS]⟩,
  ⟨0xB00038, [], fun _ _ => [F.CMP_BLOCKS_AXC2, F.CMP_BLOCKS_AXC1]⟩,
  ⟨0xB00040, [], fun _ _ => [F.CMP_AXC1_RAW, F.CMP_AXC1_SLOW]⟩,
  ⟨0xB00048, [(3, 0x8)], fun i _ => [F.CMP_STALL_EVENTS i, F.CMP_STALL_CYCLES_K i]⟩,
  ⟨0xB00060, [], fun _ _ => [F.CMP_ERRORS_TABLE_MISS, F.CMP_ERRORS_MODE_MISMATCH, F.CMP_ERRORS_MALFORMED, F.CMP_ERRORS_SEAMS_K]⟩,
  ⟨0xB00068, [], fun _ _ => [F.CMP_ERR_LOG_CAUSE, F.CMP_ERR_LOG_STACK, F.CMP_ERR_LOG_CHANNEL, F.CMP_ERR_LOG_GRANULE, F.CMP_ERR_LOG_CMPT, F.CMP_ERR_LOG_OVERFLOW, F.CMP_ERR_LOG_VALID]⟩]

/-- Registers, part 6 (in the order of the chapters). -/
def regTable6 : List RegDesc := [
  ⟨0xC00000, [], fun _ _ => [F.PIN_CTRL_CLR_CNT]⟩,
  ⟨0xC00008, [], fun _ _ => [F.PIN_CAPS_CORES, F.PIN_CAPS_THREADS, F.PIN_CAPS_SCRATCH_KIB, F.PIN_CAPS_CODE_WORDS, F.PIN_CAPS_ENTRIES]⟩,
  ⟨0xC00010, [], fun _ _ => [F.PIN_LIMITS_KILL_FRAMES, F.PIN_LIMITS_BUSY_RETRIES]⟩,
  ⟨0xC00018, [], fun _ _ => [F.PIN_IMAGE_SRC_ADDR]⟩,
  ⟨0xC00020, [], fun _ _ => [F.PIN_IMAGE_LOAD_SLOT, F.PIN_IMAGE_LOAD_BASE, F.PIN_IMAGE_LOAD_CMPT, F.PIN_IMAGE_LOAD_GO, F.PIN_IMAGE_LOAD_UNLOAD]⟩,
  ⟨0xC00028, [], fun _ _ => [F.PIN_IMAGE_STATUS_BUSY, F.PIN_IMAGE_STATUS_UNLOADING, F.PIN_IMAGE_STATUS_DONE, F.PIN_IMAGE_STATUS_REFUSED, F.PIN_IMAGE_STATUS_CAUSE, F.PIN_IMAGE_STATUS_SLOT, F.PIN_IMAGE_STATUS_LOADS, F.PIN_IMAGE_STATUS_REFUSALS]⟩,
  ⟨0xC00030, [], fun _ _ => [F.PIN_SLOT_INDEX_SLOT]⟩,
  ⟨0xC00038, [], fun _ _ => [F.PIN_SLOT_STATE_VALID, F.PIN_SLOT_STATE_UNLOADING, F.PIN_SLOT_STATE_CMPT, F.PIN_SLOT_STATE_BASE, F.PIN_SLOT_STATE_COUNT, F.PIN_SLOT_STATE_ENTRIES]⟩,
  ⟨0xC00040, [], fun _ _ => [F.PIN_SLOT_REFS_REFS]⟩,
  ⟨0xC00048, [], fun _ _ => [F.PIN_ENTRY_INDEX_ENTRY]⟩,
  ⟨0xC00050, [], fun _ _ => [F.PIN_ENTRY_DATA_VALID, F.PIN_ENTRY_DATA_EXCL, F.PIN_ENTRY_DATA_TRIGGER, F.PIN_ENTRY_DATA_RUN, F.PIN_ENTRY_DATA_CUSTOM, F.PIN_ENTRY_DATA_SLOT, F.PIN_ENTRY_DATA_CMPT, F.PIN_ENTRY_DATA_PC, F.PIN_ENTRY_DATA_CYCLES]⟩,
  ⟨0xC00058, [], fun _ _ => [F.PIN_ITEMS_STARTED, F.PIN_ITEMS_NOT_OK]⟩,
  ⟨0xC00060, [], fun _ _ => [F.PIN_EXC_EXCEPTIONS, F.PIN_EXC_KILLS, F.PIN_EXC_ECC]⟩,
  ⟨0xC00068, [], fun _ _ => [F.PIN_EXC_LOG_CORE, F.PIN_EXC_LOG_THREAD, F.PIN_EXC_LOG_CAUSE, F.PIN_EXC_LOG_ENTRY, F.PIN_EXC_LOG_PC, F.PIN_EXC_LOG_STATUS, F.PIN_EXC_LOG_OVERFLOW, F.PIN_EXC_LOG_VALID]⟩,
  ⟨0xC00070, [], fun _ _ => [F.PIN_QUEUE_FULL_REFUSALS, F.PIN_QUEUE_CMPT_SWITCHES]⟩,
  ⟨0xC00078, [], fun _ _ => [F.PIN_MEM_BUSY_RESENDS, F.PIN_MEM_RESOLVES, F.PIN_MEM_STORE_FAULTS]⟩,
  ⟨0xC00080, [], fun _ _ => [F.PIN_SCRATCH_ECC_CORRECTED, F.PIN_SCRATCH_ECC_UNCORRECTED]⟩,
  ⟨0xC00100, [(32, 0x8)], fun i _ => [F.PIN_FENCED_FENCED i]⟩,
  ⟨0xD00000, [], fun _ _ => [F.SUB_CTRL_CLR_CNT, F.SUB_CTRL_ZONE_TIMEOUT_US, F.SUB_CTRL_PT_CMPT]⟩,
  ⟨0xD00008, [], fun _ _ => [F.SUB_KW_EVENTS_BAD_LENGTH, F.SUB_KW_EVENTS_OVERWRITES, F.SUB_KW_EVENTS_ABANDONED, F.SUB_KW_EVENTS_NO_CQ]⟩]

/-- Registers, part 7 (in the order of the chapters). -/
def regTable7 : List RegDesc := [
  ⟨0xD00010, [], fun _ _ => [F.SUB_CMD_ACCEPTED, F.SUB_CMD_NOT_OK]⟩,
  ⟨0xD00018, [], fun _ _ => [F.SUB_MOVER_REMOTE_CYCLES, F.SUB_MOVER_BUSY_RETRIES]⟩,
  ⟨0xD00020, [(2, 0x20)], fun i _ => [F.SUB_Q_INDEX_QUEUE i]⟩,
  ⟨0xD00028, [(2, 0x20)], fun i _ => [F.SUB_Q_CFG_VALID i, F.SUB_Q_CFG_CMPT i, F.SUB_Q_CFG_LOC i, F.SUB_Q_CFG_MSIX_PORT i, F.SUB_Q_CFG_SLOTS_LOG2 i, F.SUB_Q_CFG_SLOT_LOG2 i, F.SUB_Q_CFG_VECTOR i]⟩,
  ⟨0xD00030, [(2, 0x20)], fun i _ => [F.SUB_Q_BASE_BASE i]⟩,
  ⟨0xD00038, [(2, 0x20)], fun i _ => [F.SUB_Q_HEAD_HEAD i, F.SUB_Q_HEAD_TAIL i]⟩,
  ⟨0xD00060, [], fun _ _ => [F.SUB_ASID_INDEX_ASID]⟩,
  ⟨0xD00068, [], fun _ _ => [F.SUB_ASID_ROOT_VALID, F.SUB_ASID_ROOT_CMPT, F.SUB_ASID_ROOT_ROOT]⟩,
  ⟨0xD00070, [], fun _ _ => [F.SUB_XLATE_INVAL_ASID, F.SUB_XLATE_INVAL_ALL, F.SUB_XLATE_INVAL_GO, F.SUB_XLATE_INVAL_BUSY, F.SUB_XLATE_INVAL_DONE]⟩,
  ⟨0xD00078, [], fun _ _ => [F.SUB_XLATE_EVENTS_WALKS, F.SUB_XLATE_EVENTS_FAULTS, F.SUB_XLATE_EVENTS_INVALS]⟩,
  ⟨0xD00080, [], fun _ _ => [F.SUB_HOSTWIN_FRAMES, F.SUB_HOSTWIN_IN_USE, F.SUB_HOSTWIN_FILLS, F.SUB_HOSTWIN_DRAINS]⟩,
  ⟨0xD00088, [], fun _ _ => [F.SUB_PIN_PINNED, F.SUB_PIN_FAULTED, F.SUB_PIN_FETCHES]⟩,
  ⟨0x500000, [(32, 0x8000)], fun i _ => [F.LNK_CTRL_ENABLE i, F.LNK_CTRL_RETRAIN i, F.LNK_CTRL_QUARANTINE i, F.LNK_CTRL_EQ_FREEZE i, F.LNK_CTRL_BIAS_FREEZE i, F.LNK_CTRL_CLR_CNT i, F.LNK_CTRL_WIDTH_MAX i]⟩,
  ⟨0x500008, [(32, 0x8000)], fun i _ => [F.LNK_STATUS_STATE i, F.LNK_STATUS_WIDTH i, F.LNK_STATUS_DOWN_CAUSE i, F.LNK_STATUS_QCAUSE i, F.LNK_STATUS_PARTNER_ROLE i, F.LNK_STATUS_PARTNER_REACH i, F.LNK_STATUS_PARTNER_NODE i, F.LNK_STATUS_PARTNER_AFP i]⟩,
  ⟨0x500010, [(32, 0x8000)], fun i _ => [F.LNK_PARTNER_FW_VERSION i]⟩,
  ⟨0x500018, [(32, 0x8000), (6, 0x8)], fun i j => [F.LNK_PARTNER_DIGEST_WORD i j]⟩,
  ⟨0x500048, [(32, 0x8000)], fun i _ => [F.LNK_BIND_NODE i, F.LNK_BIND_VALID i]⟩,
  ⟨0x500050, [(32, 0x8000), (2, 8)], fun i j => (List.range 4).map (fun c => F.LNK_CREDIT_TC i (4 * j + c))⟩,
  ⟨0x500060, [(32, 0x8000)], fun i _ => [F.LNK_RETRY_REPLAY_NS i, F.LNK_RETRY_NAK_NS i, F.LNK_RETRY_RETRY_MAX i]⟩,
  ⟨0x500068, [(32, 0x8000)], fun i _ => [F.LNK_TS_CAL_TX_PS i, F.LNK_TS_CAL_RX_PS i]⟩]

/-- Registers, part 8 (in the order of the chapters). -/
def regTable8 : List RegDesc := [
  ⟨0x500070, [(32, 0x8000)], fun i _ => [F.LNK_TS_DELAY_TX_PS i, F.LNK_TS_DELAY_RX_PS i]⟩,
  ⟨0x500078, [(32, 0x8000)], fun i _ => [F.LNK_COUNT0_CRC_ERRORS i, F.LNK_COUNT0_REPLAYS i]⟩,
  ⟨0x500080, [(32, 0x8000)], fun i _ => [F.LNK_COUNT1_SEQ_DISCARDS i, F.LNK_COUNT1_NAKS_SENT i, F.LNK_COUNT1_RETRAINS i]⟩,
  ⟨0x500088, [(32, 0x8000)], fun i _ => [F.LNK_COUNT2_SRC_DROPS i, F.LNK_COUNT2_CREDIT_DROPS i, F.LNK_COUNT2_FRAME_ERRORS i, F.LNK_COUNT2_LOST_PACKETS i]⟩,
  ⟨0x500100, [(32, 0x8000), (8, 0x8)], fun i j => [F.LNK_LANE_FEC_CORR_SYMBOLS i j, F.LNK_LANE_FEC_UNCORR_CW i j, F.LNK_LANE_FEC_LOCK_LOSSES i j]⟩,
  ⟨0x500140, [(32, 0x8000), (8, 0x8)], fun i j => [F.LNK_LANE_EQ_FFE_PRE i j, F.LNK_LANE_EQ_FFE_MAIN i j, F.LNK_LANE_EQ_FFE_POST i j, F.LNK_LANE_EQ_CTLE i j, F.LNK_LANE_EQ_DFE1 i j, F.LNK_LANE_EQ_DFE2 i j, F.LNK_LANE_EQ_DFE3 i j]⟩,
  ⟨0x500180, [(32, 0x8000), (8, 0x8)], fun i j => [F.LNK_LANE_OPT_RX_OMA i j, F.LNK_LANE_OPT_PARTNER_RX_OMA i j, F.LNK_LANE_OPT_MOD_BIAS i j]⟩,
  ⟨0x5001C0, [(32, 0x8000)], fun i _ => [F.LNK_FEC_ALARM_THRESH i, F.LNK_FEC_ALARM_ALARMS i]⟩,
  ⟨0x5001C8, [(32, 0x8000)], fun i _ => [F.LNK_HIST_SEL_LANE i, F.LNK_HIST_SEL_BIN i]⟩,
  ⟨0x5001D0, [(32, 0x8000)], fun i _ => [F.LNK_HIST_DATA_COUNT i]⟩,
  ⟨0x504000, [(4, 0x40000)], fun i _ => [] ++ (List.range 4).map (fun c => F.LNK_TILE_FEED_POWER i c) ++ (List.range 4).map (fun c => F.LNK_TILE_FEED_LOSS i c)⟩,
  ⟨0x504008, [(4, 0x40000)], fun i _ => [] ++ (List.range 4).map (fun c => F.LNK_LASER_REQ_SETPOINT i c) ++ (List.range 4).map (fun c => F.LNK_LASER_REQ_CHANGED i c)⟩,
  ⟨0x400000, [], fun _ _ => [F.XBAR_CTRL_ITER, F.XBAR_CTRL_CLR_CNT]⟩,
  ⟨0x400008, [], fun _ _ => [F.XBAR_TC_ARB_STRICT] ++ [1, 2, 3, 4, 5, 6, 7].map (fun c => F.XBAR_TC_ARB_WEIGHT c)⟩,
  ⟨0x400010, [(8, 0x8)], fun i _ => [F.XBAR_CT_TO_FABRIC i, F.XBAR_CT_TO_INTERNAL i]⟩,
  ⟨0x400050, [], fun _ _ => [F.XBAR_EVENTS_CT_ENDED, F.XBAR_EVENTS_GATE_WRITE_REFUSED, F.XBAR_EVENTS_BRIDGE_DECLINED]⟩,
  ⟨0x400058, [], fun _ _ => [F.XBAR_QSAMPLE_SEL_INPUT, F.XBAR_QSAMPLE_SEL_OUTPUT, F.XBAR_QSAMPLE_SEL_TC, F.XBAR_QSAMPLE_SEL_PERIOD, F.XBAR_QSAMPLE_SEL_EN]⟩,
  ⟨0x400060, [], fun _ _ => [F.XBAR_QSAMPLE_DATA_DEPTH_LAST, F.XBAR_QSAMPLE_DATA_DEPTH_MIN, F.XBAR_QSAMPLE_DATA_DEPTH_MAX, F.XBAR_QSAMPLE_DATA_SAMPLES]⟩,
  ⟨0x400068, [], fun _ _ => [F.XBAR_QSAMPLE_DELAY_DELAY_LAST_NS, F.XBAR_QSAMPLE_DELAY_DELAY_MAX_NS]⟩,
  ⟨0x400800, [(48, 0x8)], fun i _ => [F.XBAR_INBUF_USED i, F.XBAR_INBUF_PEAK i]⟩]

/-- Registers, part 9 (in the order of the chapters). -/
def regTable9 : List RegDesc := [
  ⟨0x401000, [(48, 0x40), (8, 0x8)], fun i j => [F.XBAR_SHAPER_RATE_MBPS i j, F.XBAR_SHAPER_EN i j, F.XBAR_SHAPER_RESET_ZERO i j, F.XBAR_SHAPER_BURST i j, F.XBAR_SHAPER_TOKENS i j]⟩,
  ⟨0x402000, [(32, 0x20)], fun i _ => [F.XBAR_GATE_CTRL_EN i, F.XBAR_GATE_CTRL_ACTIVE i, F.XBAR_GATE_CTRL_SPLIT_OPEN i, F.XBAR_GATE_CTRL_LEN0 i, F.XBAR_GATE_CTRL_LEN1 i, F.XBAR_GATE_CTRL_GUARD_NS i]⟩,
  ⟨0x402008, [(32, 0x20)], fun i _ => [F.XBAR_GATE_SWAP_AT_SWAP_AT i]⟩,
  ⟨0x402010, [(32, 0x20)], fun i _ => [F.XBAR_GATE_STATUS_ENTRY i, F.XBAR_GATE_STATUS_ARMED i, F.XBAR_GATE_STATUS_SWAP_REFUSED i, F.XBAR_GATE_STATUS_HOLDS i, F.XBAR_GATE_STATUS_SWAPS i]⟩,
  ⟨0x403000, [], fun _ _ => [F.XBAR_GATE_ENTRY_PORT, F.XBAR_GATE_ENTRY_LIST, F.XBAR_GATE_ENTRY_INDEX, F.XBAR_GATE_ENTRY_DUR_NS, F.XBAR_GATE_ENTRY_MASK, F.XBAR_GATE_ENTRY_GO]⟩,
  ⟨0xE00000, [], fun _ _ => [F.SEC_CTRL_CLR_CNT, F.SEC_CTRL_VIEW_EN, F.SEC_CTRL_VIEW_MISSES]⟩,
  ⟨0xE00008, [], fun _ _ => [F.SEC_STATUS_BOOTED, F.SEC_STATUS_ECDSA_KEY, F.SEC_STATUS_LMS_KEY, F.SEC_STATUS_ENGINEERING, F.SEC_STATUS_FACTORY_TEST, F.SEC_STATUS_UDS_LOCKED, F.SEC_STATUS_FW_SVN, F.SEC_STATUS_CFG_SVN, F.SEC_STATUS_LAST_REFUSAL, F.SEC_STATUS_LAST_KIND]⟩,
  ⟨0xE00010, [], fun _ _ => [F.SEC_MEMBER_INDEX_NODE]⟩,
  ⟨0xE00018, [], fun _ _ => [F.SEC_MEMBER_DATA_MASK]⟩,
  ⟨0xE00020, [], fun _ _ => [F.SEC_WARD_COUNT, F.SEC_WARD_THRESH, F.SEC_WARD_ALARMS]⟩,
  ⟨0xE00028, [], fun _ _ => [F.SEC_WARD_LOG_SRC, F.SEC_WARD_LOG_CMPT, F.SEC_WARD_LOG_TEST, F.SEC_WARD_LOG_ENTRY, F.SEC_WARD_LOG_OVERFLOW, F.SEC_WARD_LOG_VALID]⟩,
  ⟨0xE00030, [], fun _ _ => [F.SEC_SCRUB_CMPT, F.SEC_SCRUB_GO]⟩,
  ⟨0xE00038, [], fun _ _ => [F.SEC_SCRUB_STATUS_BUSY, F.SEC_SCRUB_STATUS_DONE, F.SEC_SCRUB_STATUS_CMPT, F.SEC_SCRUB_STATUS_LATE, F.SEC_SCRUB_STATUS_STOP_NS, F.SEC_SCRUB_STATUS_TOTAL_NS]⟩,
  ⟨0xE00040, [], fun _ _ => [F.SEC_SCRUB_COUNTS_COMMANDS_ENDED, F.SEC_SCRUB_COUNTS_ITEMS_STOPPED, F.SEC_SCRUB_COUNTS_RECORDS_DROPPED, F.SEC_SCRUB_COUNTS_WRITES_DROPPED, F.SEC_SCRUB_COUNTS_REFUSED]⟩,
  ⟨0xE00048, [], fun _ _ => [F.SEC_CMPT_STATE_SCRUBBING]⟩,
  ⟨0xE00050, [], fun _ _ => [F.SEC_VIEW_INDEX_CMPT]⟩,
  ⟨0xE00058, [], fun _ _ => [F.SEC_VIEW_BASE_EN, F.SEC_VIEW_BASE_BASE]⟩,
  ⟨0xE00060, [], fun _ _ => [F.SEC_SVN_FUSED, F.SEC_SVN_COMMIT, F.SEC_SVN_BUSY, F.SEC_SVN_DONE, F.SEC_SVN_REFUSED, F.SEC_SVN_CAUSE]⟩,
  ⟨0xE00068, [], fun _ _ => [F.SEC_KEYS_ECDSA_REVOKED, F.SEC_KEYS_LMS_REVOKED]⟩,
  ⟨0xE00070, [], fun _ _ => [F.SEC_LMS_NEXT, F.SEC_LMS_RESERVED_LEFT, F.SEC_LMS_EXHAUSTED, F.SEC_LMS_WRITING]⟩]

/-- Registers, part 10 (in the order of the chapters). -/
def regTable10 : List RegDesc := [
  ⟨0xE00078, [], fun _ _ => [F.SEC_LMS_COUNT_SIGNATURES, F.SEC_LMS_COUNT_RESERVATIONS, F.SEC_LMS_COUNT_BUSY_ANSWERS]⟩,
  ⟨0xE00080, [(2, 0x8)], fun i _ => [F.SEC_SPDM_REQUESTS i, F.SEC_SPDM_ERRORS i, F.SEC_SPDM_VERSION i]⟩,
  ⟨0xE00090, [(6, 0x8)], fun i _ => [F.SEC_DEVICE_ID_WORD i]⟩,
  ⟨0x100000, [(2, 0x8)], fun i _ => [F.FLT_WORDS_GROUPS i]⟩,
  ⟨0x100010, [], fun _ _ => [F.FLT_FATAL_GROUPS]⟩,
  ⟨0x100018, [], fun _ _ => [F.FLT_NOTIFY_VECTOR, F.FLT_NOTIFY_EN_A, F.FLT_NOTIFY_EN_B, F.FLT_NOTIFY_IBI_EN]⟩,
  ⟨0x100020, [(2, 0x8)], fun i _ => [F.FLT_NOTIFY_MASK_MASK i]⟩,
  ⟨0x100030, [], fun _ _ => [F.FLT_SYN_INDEX_GROUP]⟩,
  ⟨0x100038, [], fun _ _ => [F.FLT_SYN_DATA0_VALID, F.FLT_SYN_DATA0_OVERFLOW, F.FLT_SYN_DATA0_CLASS, F.FLT_SYN_DATA0_REG, F.FLT_SYN_DATA0_UNIT]⟩,
  ⟨0x100040, [], fun _ _ => [F.FLT_SYN_DATA1_TIME_NS]⟩,
  ⟨0x100048, [], fun _ _ => [F.FLT_COUNT_CORRECTED, F.FLT_COUNT_CONTAINED, F.FLT_COUNT_FATAL]⟩,
  ⟨0x100050, [], fun _ _ => [F.FLT_HASP0_VALID, F.FLT_HASP0_CAUSE, F.FLT_HASP0_GROUP, F.FLT_HASP0_TRANSIT_DROPS]⟩,
  ⟨0x100058, [(3, 0x8)], fun i _ => [F.FLT_HASPN_WORD i]⟩,
  ⟨0x100070, [], fun _ _ => [F.FLT_FENCE_KIND, F.FLT_FENCE_UNIT, F.FLT_FENCE_GO, F.FLT_FENCE_UNFENCE, F.FLT_FENCE_REFUSED]⟩,
  ⟨0x100078, [(2, 0x8)], fun i _ => [F.FLT_FENCED_ENG_MATRIX_or_FILTER i, F.FLT_FENCED_ENG_GATHER_or_MOVER i]⟩,
  ⟨0x100088, [(2, 0x8)], fun i _ => [F.FLT_FENCED_RED_LANES i]⟩,
  ⟨0x100098, [], fun _ _ => [F.FLT_CHECK_RATE_LOG2, F.FLT_CHECK_THRESH, F.FLT_CHECK_AUTO_FENCE, F.FLT_CHECK_WAIT_FRAMES]⟩,
  ⟨0x1000A0, [], fun _ _ => [F.FLT_CHECK_STATS_CHECKED, F.FLT_CHECK_STATS_MISMATCHES, F.FLT_CHECK_STATS_SKIPPED, F.FLT_CHECK_STATS_AUTO_FENCES, F.FLT_CHECK_STATS_LOG_DROPS]⟩,
  ⟨0x1000A8, [], fun _ _ => [F.FLT_CHECK_LOG0_KIND, F.FLT_CHECK_LOG0_UNIT, F.FLT_CHECK_LOG0_CHECKER, F.FLT_CHECK_LOG0_THIRD, F.FLT_CHECK_LOG0_VERDICT, F.FLT_CHECK_LOG0_TEMP_Q, F.FLT_CHECK_LOG0_VDD_MV, F.FLT_CHECK_LOG0_VALID]⟩,
  ⟨0x1000B0, [], fun _ _ => [F.FLT_CHECK_LOG1_TICK, F.FLT_CHECK_LOG1_ACLK_MHZ, F.FLT_CHECK_LOG1_ACTIVITY]⟩]

/-- Registers, part 11 (in the order of the chapters). -/
def regTable11 : List RegDesc := [
  ⟨0x1000B8, [], fun _ _ => [F.FLT_CHECK_LOG2_WORK]⟩,
  ⟨0x1000C0, [], fun _ _ => [F.FLT_FREEZE_LOOPS]⟩,
  ⟨0x1000C8, [], fun _ _ => [F.FLT_TEST_STRAP, F.FLT_TEST_ENTER, F.FLT_TEST_ACTIVE, F.FLT_TEST_REFUSED, F.FLT_TEST_CAUSE]⟩,
  ⟨0x1000D0, [], fun _ _ => [F.FLT_INJECT_GROUP, F.FLT_INJECT_CLASS, F.FLT_INJECT_UNIT, F.FLT_INJECT_GO, F.FLT_INJECT_MISCOMPARE]⟩,
  ⟨0x1000D8, [], fun _ _ => [F.FLT_CTRL_CLR_CNT]⟩,
  ⟨0x101000, [(512, 0x8)], fun i _ => [F.FLT_TOKEN_WORD i]⟩,
  ⟨0x1000000, [], fun _ _ => [F.MON_CTRL_EN]⟩,
  ⟨0x1000008, [], fun _ _ => [F.MON_BIN_SEL_MONITOR, F.MON_BIN_SEL_BIN]⟩,
  ⟨0x1000010, [], fun _ _ => [F.MON_BIN_DATA_COUNT]⟩,
  ⟨0x1000100, [(16, 0x20)], fun i _ => [F.MON_SEL_SRC i, F.MON_SEL_UNIT i, F.MON_SEL_TC i, F.MON_SEL_LOG i, F.MON_SEL_WINDOW_TICKS i]⟩,
  ⟨0x1000108, [(16, 0x20)], fun i _ => [F.MON_SCALE_BASE i, F.MON_SCALE_WIDTH i]⟩,
  ⟨0x1000110, [(16, 0x20)], fun i _ => [F.MON_MINMAX_MIN i, F.MON_MINMAX_MAX i]⟩,
  ⟨0x1000118, [(16, 0x20)], fun i _ => [F.MON_STATUS_SAMPLES i, F.MON_STATUS_END_TICK i]⟩,
  ⟨0xF00000, [], fun _ _ => [F.PWR_CTRL_CLR_CNT]⟩,
  ⟨0xF00008, [], fun _ _ => [F.PWR_STATE_STATE, F.PWR_STATE_EXITING, F.PWR_STATE_ACLK_MHZ, F.PWR_STATE_THROTTLE, F.PWR_STATE_POWER_THROTTLE, F.PWR_STATE_THERM_THROTTLE, F.PWR_STATE_NARROWED]⟩,
  ⟨0xF00010, [], fun _ _ => [F.PWR_BUDGET0_ENGINE_NS, F.PWR_BUDGET0_MEMORY_NS]⟩,
  ⟨0xF00018, [], fun _ _ => [F.PWR_BUDGET1_FORWARD_NS]⟩,
  ⟨0xF00020, [], fun _ _ => [F.PWR_IDLE_IDLE_TICKS, F.PWR_IDLE_Q3_PORT_GBPS, F.PWR_IDLE_NARROW]⟩,
  ⟨0xF00028, [], fun _ _ => [F.PWR_LIMIT_CAP_W, F.PWR_LIMIT_HYST_W, F.PWR_LIMIT_TMIN, F.PWR_LIMIT_SHED_ON_SAG]⟩,
  ⟨0xF00030, [], fun _ _ => [F.PWR_POWER_AVG_DW, F.PWR_POWER_PEAK_DW, F.PWR_POWER_THROTTLE_MS]⟩]

/-- Registers, part 12 (in the order of the chapters). -/
def regTable12 : List RegDesc := [
  ⟨0xF00038, [], fun _ _ => [F.PWR_RAIL_INDEX_RAIL]⟩,
  ⟨0xF00040, [], fun _ _ => [F.PWR_RAIL_DATA_MV, F.PWR_RAIL_DATA_NOMINAL_MV, F.PWR_RAIL_DATA_AMPS_DA, F.PWR_RAIL_DATA_MIN_MV]⟩,
  ⟨0xF00048, [], fun _ _ => [F.PWR_AVS_FREEZE, F.PWR_AVS_SET_C0_MV, F.PWR_AVS_SET_C1_MV, F.PWR_AVS_STEPS, F.PWR_AVS_MARGIN_FAULTS]⟩,
  ⟨0xF00050, [], fun _ _ => [F.PWR_THERM_DIE_THROTTLE_C, F.PWR_THERM_STACK_THROTTLE_C, F.PWR_THERM_HOTTEST, F.PWR_THERM_HOTTEST_Q]⟩,
  ⟨0xF00058, [], fun _ _ => [F.PWR_SENSOR_INDEX_SENSOR]⟩,
  ⟨0xF00060, [], fun _ _ => [F.PWR_SENSOR_DATA_TEMP_Q, F.PWR_SENSOR_DATA_MAX_Q, F.PWR_SENSOR_DATA_VALID]⟩,
  ⟨0xF00068, [], fun _ _ => [F.PWR_SAG_WARN, F.PWR_SAG_SAG_N, F.PWR_SAG_SEEN, F.PWR_SAG_LAST_RAIL, F.PWR_SAG_WARNINGS]⟩,
  ⟨0xF00070, [], fun _ _ => [F.PWR_EVENTS_Q1_ENTRIES, F.PWR_EVENTS_Q2_ENTRIES, F.PWR_EVENTS_Q3_ENTRIES, F.PWR_EVENTS_FAST_TRIPS]⟩,
  ⟨0x0, [], fun _ _ => [F.GLB_ID_PART, F.GLB_ID_STEPPING, F.GLB_ID_PCI_VENDOR]⟩,
  ⟨0x8, [], fun _ _ => [F.GLB_FW_FW_VERSION, F.GLB_FW_CFG_VERSION]⟩,
  ⟨0x10, [], fun _ _ => [F.GLB_COMPAT_FW_MIN, F.GLB_COMPAT_FW_MAX]⟩,
  ⟨0x18, [], fun _ _ => [F.GLB_STRAPS_TRAY_ID, F.GLB_STRAPS_FACTORY_TEST]⟩,
  ⟨0x20, [], fun _ _ => [F.GLB_NODE_PROVISIONAL, F.GLB_NODE_NODE, F.GLB_NODE_CURRENT]⟩,
  ⟨0x28, [], fun _ _ => [F.GLB_RESET_CAUSE_CAUSE, F.GLB_RESET_CAUSE_HASP_KEPT]⟩,
  ⟨0x1100000, [], fun _ _ => [F.MGT_STATUS_PHASE, F.MGT_STATUS_SLOT, F.MGT_STATUS_TRIAL, F.MGT_STATUS_CFG_CAUSE, F.MGT_STATUS_CFG_OFFSET]⟩,
  ⟨0x1100008, [], fun _ _ => [F.MGT_SEAL_GO, F.MGT_SEAL_SEALED, F.MGT_SEAL_PENDING, F.MGT_SEAL_RWS_WRITES, F.MGT_SEAL_LAST_OFFSET]⟩,
  ⟨0x1100010, [(6, 0x8)], fun i _ => [F.MGT_DIGEST_WORD i]⟩,
  ⟨0x1100040, [], fun _ _ => [F.MGT_BOOT_ACTIVE, F.MGT_BOOT_TRIAL_VALID, F.MGT_BOOT_TRIAL_SLOT, F.MGT_BOOT_ATTEMPTS, F.MGT_BOOT_CONFIRM, F.MGT_BOOT_SET_TRIAL, F.MGT_BOOT_TARGET, F.MGT_BOOT_REFUSED, F.MGT_BOOT_SEQ]⟩,
  ⟨0x1100048, [], fun _ _ => [F.MGT_UPD_SRC_ADDR]⟩,
  ⟨0x1100050, [], fun _ _ => [F.MGT_UPD_TARGET, F.MGT_UPD_GO, F.MGT_UPD_BUSY, F.MGT_UPD_DONE, F.MGT_UPD_REFUSED, F.MGT_UPD_CAUSE, F.MGT_UPD_PORT, F.MGT_UPD_PROGRESS_KIB]⟩]

/-- Registers, part 13 (in the order of the chapters). -/
def regTable13 : List RegDesc := [
  ⟨0x1100058, [], fun _ _ => [F.MGT_OWNER_HOLDER, F.MGT_OWNER_CLAIM, F.MGT_OWNER_RELEASE, F.MGT_OWNER_ENFORCE, F.MGT_OWNER_LEASE_MS, F.MGT_OWNER_DROPPED]⟩,
  ⟨0x1100060, [(2, 0x8)], fun i _ => [F.MGT_WIN_EN i, F.MGT_WIN_CMPT i, F.MGT_WIN_BASE i]⟩,
  ⟨0x1100070, [(2, 0x8)], fun i _ => [F.MGT_WIN_WARD_WARD i]⟩,
  ⟨0x1100080, [(2, 0x8)], fun i _ => [F.MGT_WIN_STATUS_LAST_STATUS i, F.MGT_WIN_STATUS_ERROR i, F.MGT_WIN_STATUS_ERRORS i]⟩,
  ⟨0x1100090, [], fun _ _ => [F.MGT_I3C_DA, F.MGT_I3C_DA_VALID, F.MGT_I3C_SEQ_IN, F.MGT_I3C_SEQ_OUT, F.MGT_I3C_IBI_ENABLED, F.MGT_I3C_IBIS, F.MGT_I3C_REFUSED]⟩,
  ⟨0x1100098, [], fun _ _ => [F.MGT_RESET_KEY, F.MGT_RESET_GO]⟩]

/-- Every register of BAR0 outside the MSI-X tables. -/
def regTable : List RegDesc :=
  regTable0 ++ regTable1 ++ regTable2 ++ regTable3 ++ regTable4 ++ regTable5 ++ regTable6 ++ regTable7 ++ regTable8 ++ regTable9 ++ regTable10 ++ regTable11 ++ regTable12 ++ regTable13

end Sys2Proof.Machine
end

