-- ==== Sys2Proof/Machine/Bits.lean ====
section
/-!
DEFINITION. Plain helpers under every block: bit fields of numbers, little-endian byte strings (R1), saturating counters, sparse tables
in one canonical form, and CRC-32C (R280, R338, R375).
-/

namespace Sys2Proof.Machine

/-- Bits `lo` to `lo + w - 1` of a number. -/
def bits (n lo w : Nat) : Nat := (n >>> lo) % 2 ^ w

/-- Whether bit `i` is set. -/
def bit (n i : Nat) : Bool := n.testBit i

/-- Set bit `i`. -/
def setBit (n i : Nat) : Nat := n ||| 2 ^ i

/-- Clear bit `i`. -/
def clrBit (n i : Nat) : Nat := if n.testBit i then n - 2 ^ i else n

/-- Set or clear bit `i`. -/
def putBit (n i : Nat) (b : Bool) : Nat := if b then setBit n i else clrBit n i

/-- How many of the low `w` bits are set. -/
def popCount (n : Nat) : Nat → Nat
  | 0 => 0
  | w + 1 => popCount n w + (if n.testBit w then 1 else 0)

/-- The two's-complement value of the low `w` bits. -/
def sext (n w : Nat) : Int :=
  let m := n % 2 ^ w
  if m < 2 ^ (w - 1) then m else (m : Int) - 2 ^ w

/-- The low `w` bits of an integer, two's complement. -/
def toBits (i : Int) (w : Nat) : Nat := (i % (2 ^ w : Nat)).toNat

/-- `a` divided by `b`, rounded up. -/
def ceilDiv (a b : Nat) : Nat := (a + b - 1) / b

/-- A counter that saturates at the top of a `w`-bit field. -/
def satAdd (w n k : Nat) : Nat := min (n + k) (2 ^ w - 1)

/-- The number a little-endian byte string spells (R1). -/
def leNat : List Byte → Nat
  | [] => 0
  | b :: bs => b.toNat + 256 * leNat bs

/-- The `n` bytes of a number, lowest first (R1). -/
def leBytes : Nat → Nat → List Byte
  | 0, _ => []
  | n + 1, v => BitVec.ofNat 8 v :: leBytes n (v / 256)

/-- Bytes `off` to `off + n - 1` of a string, zero past its end. -/
def slice (bs : List Byte) (off n : Nat) : List Byte :=
  (List.range n).map (fun i => bs.getD (off + i) 0)

/-- The little-endian field of `n` bytes at offset `off`. -/
def field (bs : List Byte) (off n : Nat) : Nat := leNat (slice bs off n)

/-- A string of `n` bytes zero. -/
def zeros (n : Nat) : List Byte := List.replicate n 0

/-- A string cut or zero-padded to `n` bytes. -/
def fit (bs : List Byte) (n : Nat) : List Byte := slice bs 0 n

/-- A string cut into pieces of `n` bytes (the last may be short); `fuel` bounds the pieces. -/
def chunks (n : Nat) : Nat → List Byte → List (List Byte)
  | 0, _ => []
  | _ + 1, [] => []
  | fuel + 1, bs => bs.take n :: chunks n fuel (bs.drop n)

/-- A string with bytes replaced from offset `off` on (bytes past its end are dropped). -/
def splice (bs : List Byte) (off : Nat) (new : List Byte) : List Byte :=
  (List.range bs.length).map (fun i =>
    if off ≤ i ∧ i < off + new.length then new.getD (i - off) 0 else bs.getD i 0)

/-- A sparse table: keys strictly rising. -/
abbrev Tbl (α : Type) := List (Nat × α)

/-- The entry at a key. -/
def Tbl.get? {α : Type} : Tbl α → Nat → Option α
  | [], _ => none
  | (k, v) :: t, x => if k = x then some v else Tbl.get? t x

/-- Put an entry at a key, in order. -/
def Tbl.put {α : Type} : Tbl α → Nat → α → Tbl α
  | [], x, a => [(x, a)]
  | (k, v) :: t, x, a =>
    if x < k then (x, a) :: (k, v) :: t else if k = x then (x, a) :: t else (k, v) :: Tbl.put t x a

/-- Take the entry at a key away. -/
def Tbl.del {α : Type} (t : Tbl α) (x : Nat) : Tbl α := t.filter (fun e => e.1 != x)

/-- The entry at a key, or a default that unlisted keys hold. -/
def Tbl.getD {α : Type} (t : Tbl α) (x : Nat) (d : α) : α := (t.get? x).getD d

/-- Put a value whose default is not listed: the canonical form. -/
def Tbl.setD {α : Type} [DecidableEq α] (t : Tbl α) (x : Nat) (d a : α) : Tbl α :=
  if a = d then t.del x else t.put x a

/-- Change the entry at a key, if there is one. -/
def Tbl.upd {α : Type} (t : Tbl α) (x : Nat) (f : α → α) : Tbl α :=
  match t.get? x with
  | some v => t.put x (f v)
  | none => t

/-- Change every entry. -/
def Tbl.mapV {α β : Type} (t : Tbl α) (f : Nat → α → β) : Tbl β := t.map (fun e => (e.1, f e.1 e.2))

/-- Keys strictly rising. -/
def Tbl.sorted {α : Type} : Tbl α → Bool
  | [] => true
  | [_] => true
  | (a, _) :: (b, v) :: t => decide (a < b) && Tbl.sorted ((b, v) :: t)

/-- A sorted list of numbers without repeats: insert. -/
def insNat : List Nat → Nat → List Nat
  | [], x => [x]
  | k :: t, x => if x < k then x :: k :: t else if x = k then k :: t else k :: insNat t x

/-- Replace element `i` of a list. -/
def setAt {α : Type} (l : List α) (i : Nat) (a : α) : List α := l.set i a

/-- One step of CRC-32C over a bit (RFC 3720, reflected polynomial 0x82F63B78). -/
def crcBit (c : Nat) : Nat := if c % 2 = 1 then (c / 2) ^^^ 0x82F63B78 else c / 2

/-- CRC-32C over a byte. -/
def crcByte (c : Nat) (b : Byte) : Nat :=
  crcBit (crcBit (crcBit (crcBit (crcBit (crcBit (crcBit (crcBit (c ^^^ b.toNat))))))))

/-- CRC-32C of a byte string, as RFC 3720 computes it (R280). -/
def crc32c (bs : List Byte) : Nat := (bs.foldl crcByte 0xFFFFFFFF) ^^^ 0xFFFFFFFF

/-- The first element that a test accepts, with its place. -/
def findIdx {α : Type} (p : α → Bool) : List α → Option (Nat × α)
  | [] => none
  | a :: t => if p a then some (0, a) else (findIdx p t).map (fun r => (r.1 + 1, r.2))

end Sys2Proof.Machine
end

