-- ==== Sys2Proof/Machine/Float.lean ====
section
/-!
DEFINITION. Floating-point and MX element formats (R157, R158, R160, R187, R202, R240): exact values, decoding, rounding once, and the
operations that the reduce lanes, the engines and the pin cores share. A finite value is m × 2^e exactly, so an operation is exact until
`roundTo` rounds it once.
-/

namespace Sys2Proof.Machine

/-- A value: NaN, an infinity, or a finite number ±m × 2^e (m = 0 is a zero of that sign). -/
inductive FVal where
  | nan
  | inf (neg : Bool)
  | fin (neg : Bool) (m : Nat) (e : Int)
  deriving DecidableEq, Repr

/-- What lies at the top of a format's encodings: infinities and NaNs (IEEE 754), one NaN and no infinity (E4M3), or neither. -/
inductive FTop where
  | ieee | nanOnly | none
  deriving DecidableEq, Repr

/-- A binary format: significand bits with the hidden one, exponent bits, bias, and its top. -/
structure FFmt where
  p : Nat
  w : Nat
  bias : Nat
  top : FTop
  deriving DecidableEq, Repr

def FFmt.fp32 : FFmt := ⟨24, 8, 127, .ieee⟩
def FFmt.fp64 : FFmt := ⟨53, 11, 1023, .ieee⟩
def FFmt.bf16 : FFmt := ⟨8, 8, 127, .ieee⟩
def FFmt.fp16 : FFmt := ⟨11, 5, 15, .ieee⟩
def FFmt.e4m3 : FFmt := ⟨4, 4, 7, .nanOnly⟩
def FFmt.e5m2 : FFmt := ⟨3, 5, 15, .ieee⟩
def FFmt.e2m3 : FFmt := ⟨4, 2, 1, .none⟩
def FFmt.e3m2 : FFmt := ⟨3, 3, 3, .none⟩
def FFmt.e2m1 : FFmt := ⟨2, 2, 1, .none⟩

/-- Bits of an encoding. -/
def FFmt.width (f : FFmt) : Nat := f.p + f.w

/-- The exponent of the least significant bit of a subnormal. -/
def FFmt.qmin (f : FFmt) : Int := 1 - (f.bias : Int) - ((f.p : Int) - 1)

/-- The largest finite magnitude's encoding (without sign). -/
def FFmt.maxCode (f : FFmt) : Nat :=
  match f.top with
  | .ieee => (2 ^ f.w - 1) * 2 ^ (f.p - 1) - 1
  | .nanOnly => 2 ^ (f.w + f.p - 1) - 2
  | .none => 2 ^ (f.w + f.p - 1) - 1

/-- The value an encoding stands for. -/
def FFmt.decode (f : FFmt) (b : Nat) : FVal :=
  let neg := bit b (f.p + f.w - 1)
  let mag := b % 2 ^ (f.p + f.w - 1)
  let ex := mag / 2 ^ (f.p - 1)
  let mant := mag % 2 ^ (f.p - 1)
  if f.top = .ieee ∧ ex = 2 ^ f.w - 1 then (if mant = 0 then .inf neg else .nan)
  else if f.top = .nanOnly ∧ mag = 2 ^ (f.w + f.p - 1) - 1 then .nan
  else if ex = 0 then .fin neg mant f.qmin
  else .fin neg (mant + 2 ^ (f.p - 1)) ((ex : Int) - 1 + f.qmin)

/-- The canonical NaN (R240, R160). -/
def FFmt.nanCode (f : FFmt) : Nat :=
  match f.top with
  | .ieee => if f.w = 5 ∧ f.p = 3 then 0x7F else (2 ^ f.w - 1) * 2 ^ (f.p - 1) + 2 ^ (f.p - 2)
  | _ => 2 ^ (f.w + f.p - 1) - 1

/-- A significand divided by 2^d, rounded to nearest even, or with a random integer below 2^d added before it is truncated (R160). -/
def shiftRound (m d : Nat) (rnd : Option Nat) : Nat :=
  match rnd with
  | some r => (m + r % 2 ^ d) / 2 ^ d
  | none =>
    let q := m / 2 ^ d
    let r := m % 2 ^ d
    if d = 0 then m
    else if 2 * r > 2 ^ d ∨ (2 * r = 2 ^ d ∧ q % 2 = 1) then q + 1 else q

/-- The magnitude code of m × 2^e in a format, unbounded above (a code past `maxCode` is an overflow). -/
def FFmt.roundMag (f : FFmt) (m : Nat) (e : Int) (rnd : Option Nat) : Nat :=
  if m = 0 then 0 else
  let top := (Nat.log2 m : Int) + e
  let q := max (top - ((f.p : Int) - 1)) f.qmin
  let sig := if q ≤ e then m * 2 ^ (e - q).toNat else shiftRound m (q - e).toNat rnd
  sig + (q - f.qmin).toNat * 2 ^ (f.p - 1)

/-- What a conversion does past the top: IEEE (to infinity), or saturation as R160 gives it for FP8 and MX elements. -/
inductive Over where
  | ieee | sat
  deriving DecidableEq, Repr

/-- The encoding of a value in a format: one rounding; overflow and infinities as `o` says (R160, R240). -/
def FFmt.encode (f : FFmt) (o : Over) (v : FVal) (rnd : Option Nat) : Nat :=
  let sgn (neg : Bool) := if neg then 2 ^ (f.p + f.w - 1) else 0
  let infCode := (2 ^ f.w - 1) * 2 ^ (f.p - 1)
  match v with
  | .nan => f.nanCode
  | .inf neg => (if f.top = .ieee then infCode else f.maxCode) + sgn neg
  | .fin neg m e =>
    let c := f.roundMag m e rnd
    if c ≤ f.maxCode then c + sgn neg
    else (match o with
      | .ieee => if f.top = .ieee then infCode else f.maxCode
      | .sat => f.maxCode) + sgn neg

/-- A signed significand. -/
def signed (neg : Bool) (m : Nat) : Int := if neg then -(m : Int) else m

/-- A finite value from a signed significand; an exact zero takes the sign given. -/
def ofSigned (i : Int) (e : Int) (zneg : Bool) : FVal :=
  if i = 0 then .fin zneg 0 e else .fin (decide (i < 0)) i.natAbs e

/-- The exact sum (IEEE 754 to-nearest signs of zero). -/
def FVal.add : FVal → FVal → FVal
  | .nan, _ => .nan
  | _, .nan => .nan
  | .inf a, .inf b => if a = b then .inf a else .nan
  | .inf a, _ => .inf a
  | _, .inf b => .inf b
  | .fin n1 m1 e1, .fin n2 m2 e2 =>
    let e := min e1 e2
    let s := signed n1 (m1 * 2 ^ (e1 - e).toNat) + signed n2 (m2 * 2 ^ (e2 - e).toNat)
    ofSigned s e (n1 && n2)

/-- The value with its sign turned. -/
def FVal.neg : FVal → FVal
  | .nan => .nan
  | .inf a => .inf (!a)
  | .fin n m e => .fin (!n) m e

/-- The exact difference. -/
def FVal.sub (a b : FVal) : FVal := a.add b.neg

/-- Whether a value is a zero. -/
def FVal.isZero : FVal → Bool
  | .fin _ 0 _ => true
  | _ => false

/-- The sign of a value. -/
def FVal.sign : FVal → Bool
  | .nan => false
  | .inf n => n
  | .fin n _ _ => n

/-- The exact product. -/
def FVal.mul (a b : FVal) : FVal :=
  match a, b with
  | .nan, _ => .nan
  | _, .nan => .nan
  | .fin n1 m1 e1, .fin n2 m2 e2 => .fin (n1 ^^ n2) (m1 * m2) (e1 + e2)
  | x, y => if x.isZero || y.isZero then .nan else .inf (x.sign ^^ y.sign)

/-- A quotient with 70 bits below its leading one and a sticky bit: enough to round once in any format here. -/
def FVal.div (a b : FVal) : FVal :=
  match a, b with
  | .nan, _ => .nan
  | _, .nan => .nan
  | .inf n1, .inf _ => let _ := n1; .nan
  | .inf n1, y => .inf (n1 ^^ y.sign)
  | x, .inf n2 => .fin (x.sign ^^ n2) 0 0
  | .fin n1 m1 e1, .fin n2 m2 e2 =>
    if m2 = 0 then (if m1 = 0 then .nan else .inf (n1 ^^ n2))
    else if m1 = 0 then .fin (n1 ^^ n2) 0 0
    else
      let k := 70 + Nat.log2 m2
      let n := m1 * 2 ^ k
      .fin (n1 ^^ n2) (2 * (n / m2) + (if n % m2 = 0 then 0 else 1)) (e1 - e2 - k - 1)

/-- The integer square root, bit by bit from bit `i` down. -/
def isqrtFrom : Nat → Nat → Nat → Nat
  | 0, n, r => if (r + 1) * (r + 1) ≤ n then r + 1 else r
  | i + 1, n, r => isqrtFrom i n (if (r + 2 ^ (i + 1)) * (r + 2 ^ (i + 1)) ≤ n then r + 2 ^ (i + 1) else r)

/-- The integer square root. -/
def isqrt (n : Nat) : Nat := if n = 0 then 0 else isqrtFrom (Nat.log2 n / 2 + 1) n 0

/-- A square root with a sticky bit, enough to round once. -/
def FVal.sqrt : FVal → FVal
  | .nan => .nan
  | .inf n => if n then .nan else .inf false
  | .fin n m e =>
    if m = 0 then .fin n 0 e
    else if n then .nan
    else
      let odd := e % 2 = 1
      let m' := if odd then 2 * m else m
      let e' := if odd then e - 1 else e
      let s := m' * 2 ^ 160
      let r := isqrt s
      .fin false (2 * r + (if r * r = s then 0 else 1)) (e' / 2 - 81)

/-- Whether a is below b (false with a NaN; zeros are equal). -/
def FVal.lt : FVal → FVal → Bool
  | .nan, _ => false
  | _, .nan => false
  | .inf a, .inf b => a && !b
  | .inf a, _ => a
  | _, .inf b => !b
  | .fin n1 m1 e1, .fin n2 m2 e2 =>
    let e := min e1 e2
    decide (signed n1 (m1 * 2 ^ (e1 - e).toNat) < signed n2 (m2 * 2 ^ (e2 - e).toNat))

/-- Whether two values are equal as IEEE 754 compares them. -/
def FVal.eq (a b : FVal) : Bool :=
  match a, b with
  | .nan, _ => false
  | _, .nan => false
  | x, y => !x.lt y && !y.lt x

/-- MAX as R160 and R240 give it: NaN with a NaN operand, +0 above −0. -/
def FVal.max (a b : FVal) : FVal :=
  match a, b with
  | .nan, _ => .nan
  | _, .nan => .nan
  | x, y => if x.lt y then y else if y.lt x then x else if x.sign then y else x

/-- MIN as R160 and R240 give it. -/
def FVal.min (a b : FVal) : FVal :=
  match a, b with
  | .nan, _ => .nan
  | _, .nan => .nan
  | x, y => if x.lt y then x else if y.lt x then y else if x.sign then x else y

/-- A value scaled by 2^k. -/
def FVal.scale (v : FVal) (k : Int) : FVal :=
  match v with
  | .fin n m e => .fin n m (e + k)
  | x => x

/-- m × 2^e rounded to the nearest integer, ties to even. -/
def nearestMag (m : Nat) (e : Int) : Nat := if 0 ≤ e then m * 2 ^ e.toNat else shiftRound m (-e).toNat none

/-- The value of an integer. -/
def FVal.ofInt (i : Int) : FVal := ofSigned i 0 false

/-- A value toward zero, saturated between two bounds, NaN to 0 (R243 FCVT, R244). -/
def FVal.toIntSat (v : FVal) (lo hi : Int) : Int :=
  match v with
  | .nan => 0
  | .inf n => if n then lo else hi
  | .fin n m e =>
    let mag := if 0 ≤ e then m * 2 ^ e.toNat else m / 2 ^ (-e).toNat
    let i := signed n mag
    if i < lo then lo else if hi < i then hi else i

/-- binary32 arithmetic, one rounding to nearest even. -/
def f32 (b : Nat) : FVal := FFmt.fp32.decode b
def toF32 (v : FVal) : Nat := FFmt.fp32.encode .ieee v none
def f32Add (a b : Nat) : Nat := toF32 ((f32 a).add (f32 b))
def f32Sub (a b : Nat) : Nat := toF32 ((f32 a).sub (f32 b))
def f32Mul (a b : Nat) : Nat := toF32 ((f32 a).mul (f32 b))
def f32Div (a b : Nat) : Nat := toF32 ((f32 a).div (f32 b))
def f32Sqrt (a : Nat) : Nat := toF32 (f32 a).sqrt

/-- The payload format codes of R157 and R187 whose elements stand alone (code, format). -/
def plainFmt : Nat → Option FFmt
  | 0x01 => some .fp32
  | 0x02 => some .bf16
  | 0x03 => some .fp16
  | 0x04 => some .e4m3
  | 0x05 => some .e5m2
  | _ => none

/-- Element formats of the MX codes (R157): 0x0B is MXINT8, which has none. -/
def mxFmt : Nat → Option FFmt
  | 0x06 => some .e4m3
  | 0x07 => some .e5m2
  | 0x08 => some .e2m3
  | 0x09 => some .e3m2
  | 0x0A => some .e2m1
  | _ => none

/-- Element width in bits of a code (R157, R187); AXC2 output codes take their mode's width. -/
def elemBits : Nat → Nat
  | 0x01 => 32 | 0x02 => 16 | 0x03 => 16 | 0x04 => 8 | 0x05 => 8
  | 0x06 => 8 | 0x07 => 8 | 0x08 => 6 | 0x09 => 6 | 0x0A => 4 | 0x0B => 8
  | 0x0C => 32 | 0x0D => 8 | 0x0E => 4
  | 0x30 => 8 | 0x31 => 6 | 0x32 => 4
  | _ => 0

/-- Whether a code is an MX code. -/
def isMx (c : Nat) : Bool := decide (0x06 ≤ c ∧ c ≤ 0x0B)

/-- Whether a code is an AXC2 output code. -/
def isAxc (c : Nat) : Bool := decide (0x30 ≤ c ∧ c ≤ 0x32)

/-- Bytes of n elements in a format (R157, R202). -/
def fmtBytes (c n : Nat) : Nat :=
  if isMx c then n / 32 * (1 + 4 * elemBits c)
  else if isAxc c then ceilDiv n 256 * (16 + 32 * elemBits c)
  else ceilDiv (n * elemBits c) 8

/-- Element j, w bits wide, of the little-endian bit string that a byte string holds (R158, R201). -/
def packedElem (bs : List Byte) (w j : Nat) : Nat := bits (leNat bs) (w * j) w

/-- The byte string of elements w bits wide (R158, R201). -/
def packElems (w : Nat) (es : List Nat) : List Byte :=
  leBytes (ceilDiv (w * es.length) 8) ((es.zipIdx).foldl (fun a p => a + (p.1 % 2 ^ w) * 2 ^ (w * p.2)) 0)

/-- The value of an element of an MX block: element code, its scale byte, its bits (R160: scale 0xFF gives NaN; MXINT8 elements are
two's-complement with six fraction bits, as the OCP specification encodes them). -/
def mxElem (c scale b : Nat) : FVal :=
  if scale = 255 then .nan
  else
    let v := match mxFmt c with
      | some f => f.decode b
      | none => (FVal.ofInt (sext b 8)).scale (-6)
    v.scale ((scale : Int) - 127)

/-- The values of a payload of n elements in an FP format (codes 0x01 to 0x0B). -/
def fpElems (c : Nat) (bs : List Byte) (n : Nat) : List FVal :=
  match plainFmt c with
  | some f => (List.range n).map (fun j => f.decode (field bs (j * f.width / 8) (f.width / 8)))
  | none =>
    let w := elemBits c
    let bsz := 1 + 4 * w
    (List.range n).map (fun j =>
      let blk := slice bs (j / 32 * bsz) bsz
      mxElem c (blk.getD 0 0).toNat (packedElem (blk.drop 1) w (j % 32)))

/-- The integer values of a payload of n elements (codes 0x0C to 0x0E). -/
def intElems (c : Nat) (bs : List Byte) (n : Nat) : List Int :=
  (List.range n).map (fun j =>
    match c with
    | 0x0C => sext (field bs (4 * j) 4) 32
    | 0x0D => sext (field bs j 1) 8
    | _ => sext (packedElem bs 4 j) 4)

/-- The largest magnitude's exponent among finite values, none when all are zero. -/
def maxExp (vs : List FVal) : Option Int :=
  vs.foldl (fun a v => match v with
    | .fin _ 0 _ => a
    | .fin _ m e =>
      let x := (Nat.log2 m : Int) + e
      (match a with
       | none => some x
       | some y => some (max x y))
    | _ => a) none

/-- Whether a value is a NaN or an infinity. -/
def FVal.special : FVal → Bool
  | .fin _ _ _ => false
  | _ => true

/-- The largest exponent of an element format (OCP MX: the shared exponent is the block's largest less this). -/
def mxEmax (f : FFmt) : Int :=
  match f.top with
  | .none => (2 ^ f.w - 1 : Nat) - (f.bias : Int)
  | .nanOnly => (2 ^ f.w - 1 : Nat) - (f.bias : Int)
  | .ieee => (2 ^ f.w - 2 : Nat) - (f.bias : Int)

/-- The E8M0 scale of a block (R160): 0x7F when all are zero, 0xFF with a NaN or an infinity, else the floor exponent of the largest
magnitude less the element format's largest exponent, within 0 to 254. -/
def mxScale (f : FFmt) (vs : List FVal) : Nat :=
  if vs.any FVal.special then 0xFF
  else match maxExp vs with
    | none => 0x7F
    | some x => (min 254 (max 0 (x - mxEmax f + 127))).toNat

/-- A scaled block's elements: with scale 0xFF every element bit is zero; finite values saturate (R160). -/
def mxCodes (f : FFmt) (scale : Nat) (vs : List FVal) (rnd : Nat → Option Nat) : List Nat :=
  if scale = 255 then vs.map (fun _ => 0)
  else vs.zipIdx.map (fun p => f.encode .sat (p.1.scale (127 - (scale : Int))) (rnd p.2))

/-- One MX block: its scale byte, then its elements (R158). -/
def mxBlock (f : FFmt) (w : Nat) (vs : List FVal) (rnd : Nat → Option Nat) : List Byte :=
  let s := mxScale f vs
  BitVec.ofNat 8 s :: packElems w (mxCodes f s vs rnd)

/-- One AXC2 block of 256 elements, KIND 0 (R201, R205). -/
def axcBlock (f : FFmt) (w : Nat) (vs : List FVal) (rnd : Nat → Option Nat) : List Byte :=
  let grp (g : Nat) := (List.range 32).map (fun j => vs.getD (32 * g + j) (.fin false 0 0))
  let ss := (List.range 8).map (fun g => mxScale f (grp g))
  let es := (List.range 8).flatMap (fun g => mxCodes f (ss.getD g 0) (grp g) (fun j => rnd (32 * g + j)))
  [BitVec.ofNat 8 w, 0, 0, 0, 0, 0, 0, 0] ++ ss.map (BitVec.ofNat 8) ++ packElems w es

/-- The element format of an MX or AXC2 output code. -/
def blockFmt (c : Nat) : FFmt :=
  match c with
  | 0x30 => .e4m3
  | 0x31 => .e2m3
  | 0x32 => .e2m1
  | _ => (mxFmt c).getD .e4m3

/-- Overflow rule of a plain output code (R160). -/
def overOf (c : Nat) : Over := if c = 0x04 ∨ c = 0x05 then .sat else .ieee

/-- The bytes of values in an output code (R157, R160); `rnd j` gives the random bits of element j when rounding is stochastic. -/
def fpBytes (c : Nat) (vs : List FVal) (rnd : Nat → Option Nat) : List Byte :=
  match plainFmt c with
  | some f => vs.zipIdx.flatMap (fun p => leBytes (f.width / 8) (f.encode (overOf c) p.1 (rnd p.2)))
  | none =>
    if isAxc c then
      (List.range (ceilDiv vs.length 256)).flatMap (fun b =>
        axcBlock (blockFmt c) (elemBits c) ((vs.drop (256 * b)).take 256) (fun j => rnd (256 * b + j)))
    else
      (List.range (ceilDiv vs.length 32)).flatMap (fun b =>
        mxBlock (blockFmt c) (elemBits c) ((vs.drop (32 * b)).take 32) (fun j => rnd (32 * b + j)))

end Sys2Proof.Machine
end

