-- ==== Sys2Proof/Machine/Types.lean ====
section
/-!
DEFINITION. The pieces that the state of the Gikan is made of: one record per chapter of the manual, for the state that has no BAR0
register of its own. Every register field lives in one place, `Gikan.csr`.
-/

namespace Sys2Proof.Machine

/-! What leaves the part -/

/-- What the part has sent or driven outside, oldest first. -/
inductive Out where
  /-- completion of a register read (R3, R408) -/
  | busRead (b : Bus) (off : Nat) (v : Nat)
  /-- one MSI-X message of a vector (R383) -/
  | msix (s : Side) (vector addr data : Nat)
  /-- I3C in-band interrupt with its mandatory data byte (R390) -/
  | ibi (mdb : Nat)
  /-- bytes returned on I3C (R386, R389) -/
  | i3c (data : List Byte)
  /-- PCIe memory write issued by the Gikan (R383) -/
  | hostWrite (s : Side) (addr : Nat) (data : List Byte)
  /-- PCIe memory read issued by the Gikan (R383) -/
  | hostRead (s : Side) (addr len : Nat)
  /-- completion of a BAR4 read: the bytes, and whether the EP bit is set (R384) -/
  | bar4 (s : Side) (data : List Byte) (ep : Bool)
  /-- SPDM response bytes (R335) -/
  | spdm (s : Side) (data : List Byte)
  /-- AVSBus voltage write to a rail, in 0.1 mV (R366) -/
  | avs (rail : Nat) (dmv : Int)
  /-- a flit sent on a port, of whatever kind (R280, R281) -/
  | flit (p : Nat) (f : Flit)
  /-- a MAP_REVOKE write handed on to the Gikan that holds the token (R80) -/
  | revokeForward (node entry : Nat)
  /-- an LMS signature index used, or another signing act (R338) -/
  | signed (index : Nat)
  deriving DecidableEq, Repr

/-- The levels the part drives on its pins: SEQ_OUT (R387), THERMTRIP_N asserted (R368). -/
structure Pins where
  seqOut : Bool
  thermtrip : Bool
  deriving DecidableEq, Repr

/-! Fabric time, frames and admission (chapter 2) -/

/-- What a child knows of its parent's schedule (R19), or an armed change it has learned. -/
structure ParentSched where
  /-- the parent's tick number at its last period change -/
  baseTick : Nat
  baseNs : Nat
  periodUs : Nat
  nextUs : Nat
  switchAt : Nat
  deriving DecidableEq, Repr

structure TickSt where
  /-- fabric time below one nanosecond, in millionths of a ns -/
  sub : Nat
  /-- slew correction in force, in ppm (R18) -/
  slew : Int
  /-- fabric time of the last period change, T_base (R26) -/
  base : Nat
  /-- tick number at T_base -/
  baseTick : Nat
  /-- consecutive exchanges within 25 ns: toward the start (R20) and toward leaving the time-split state (R25) -/
  good : Nat
  goodSplit : Nat
  /-- boundary at which a child starts ticks, and the tick number it takes (R20) -/
  startAt : Option (Nat × Nat)
  parent : Option ParentSched
  /-- fabric time of the last valid exchange (R23) -/
  lastExch : Option Nat
  /-- the last exchange request sent: number and t1 -/
  req : Option (Nat × Nat)
  exchNo : Nat
  /-- time at which the last SYNC_REQ was sent (R17, R288) -/
  sentAt : Option Nat
  /-- TICK_TIME_SET held until the start (R20) -/
  timeSet : Option Nat
  /-- late period change to be taken at the next boundary (R22, third case) -/
  late : Bool
  /-- inside the interval of R22 in which nothing is admitted: the tick number that the next boundary takes and its time -/
  gap : Option (Nat × Nat)
  /-- the node of the last TICK_REF edge and the fabric time at which the next is expected (R33) -/
  refNext : Option Nat
  deriving DecidableEq, Repr

/-- What an admitted or queued item of work belongs to (R28). The effect of the item on memory and on streams is decided at the
command that forms it or at the item's end, as each owning rule says. -/
inductive Work where
  /-- an item of a command: Keyway, submission index, number of the item (R177, R261) -/
  | job (kw idx item : Nat)
  /-- an item of a request, by the number of the held request (R46, R177) -/
  | request (id item : Nat)
  /-- reduce lane items (R166): stream, round, chunk -/
  | add (stream round chunk : Nat)
  | output (stream round chunk : Nat)
  | update (stream round chunk : Nat)
  | relayDown (stream round chunk : Nat)
  /-- a pin-core item: place in the core's item list (R233) -/
  | pin (core id : Nat)
  deriving DecidableEq, Repr

/-- A work item: worst-case cost in ACLK cycles (R28), what it serves, its compartment, and, where the draw of R347 took it as a sample,
the bytes its check needs. -/
structure Item where
  cost : Nat
  work : Work
  cmpt : Nat
  sample : Option Nat
  deriving DecidableEq, Repr

/-- An admitted item: `late` is 1 once it counted as an overrun, 2 once as a long one (R31). -/
structure RunItem where
  item : Item
  late : Nat
  deriving DecidableEq, Repr

/-- An admission unit (R28). -/
structure UnitSt where
  queue : List Item
  run : List RunItem
  busy : Nat
  /-- R30: cost and budgets so far of the item that holds the unit for whole frames -/
  hold : Option (Nat × Nat)
  deriving DecidableEq, Repr

def UnitSt.idle : UnitSt := ⟨[], [], 0, none⟩

structure EngSt where
  units : Tbl UnitSt
  /-- frame length in force, in ACLK cycles, and the budgets of the six classes (R26, R28) -/
  len : Nat
  budget : List Nat
  /-- the same budgets before throttling: B of R28 -/
  base : List Nat
  /-- ADMIT_FREEZE as taken at the last boundary (R32) -/
  frozen : Bool
  deriving DecidableEq, Repr

/-! Requests (chapter 3) -/

/-- A duplicate-suppression record (R58): the response stored and the count of tick boundaries at its sending, once complete. -/
structure DupRec where
  src : Nat
  tag : Nat
  sentTick : Nat
  type : Nat
  cmpt : Nat
  done : Option (Resp × Nat)
  deriving DecidableEq, Repr

/-- Who takes the answer to a request of the Gikan's own (R63). -/
inductive Consumer where
  /-- a piece of a mover item: Keyway, index, byte offset in the destination, its length, whether it is the write leg, its resends on
  BUSY_RETRY, and whether its address was resolved again (R261) -/
  | mover (kw idx off len : Nat) (writeLeg : Bool) (busy : Nat) (again : Bool)
  /-- a relay's partial (R168) or its result going down (R169): stream, round, chunk -/
  | partialUp (stream round chunk : Nat)
  | down (stream round chunk target : Nat)
  /-- a pin-core memory access: core, thread, access number (R246) -/
  | pin (core thread access : Nat)
  /-- a BAR4 window access (R384) -/
  | bar4 (s : Side) (len : Nat) (isRead : Bool)
  /-- a fence packet of a FENCE command, by its place among its packets from 1 on (R53, R265) -/
  | fence (kw idx node : Nat)
  /-- a PUBLISH, LEND or RECLAIM command (R262, R263) -/
  | command (kw idx : Nat)
  /-- the Placer's access to a lent page (R123): entry, page, granule -/
  | lent (entry page granule : Nat) (isWrite : Bool)
  /-- a READ of a home copy being pulled (R128): entry, byte offset in the extent, bytes -/
  | pull (entry off len : Nat)
  /-- a control request of R81 or R127: extent index, and the line offset of a HOME_LINE -/
  | control (entry line : Nat)
  deriving DecidableEq, Repr

/-- A request of the Gikan's own that is outstanding (R56, R61). -/
structure OutReq where
  q : Req
  port : Nat
  consumer : Consumer
  /-- fabric time of the first and of the last send, and the period in force at the first (R61) -/
  firstAt : Nat
  lastAt : Nat
  periodUs : Nat
  resends : Nat
  deriving DecidableEq, Repr

/-- A request that no tag was free for (R56). -/
structure TagWait where
  q : Req
  port : Nat
  consumer : Consumer
  deriving DecidableEq, Repr

/-- A fence in progress (R53): the tags it still waits for, and whether one ended with an unknown outcome. -/
structure FenceSt where
  kw : Nat
  idx : Nat
  tags : List Nat
  unknown : Bool
  deriving DecidableEq, Repr

/-- Why a request waits at this Gikan after its admission (R82, R150, R47, R44, R46). -/
inductive Hold where
  | token (entry : Nat)
  | coherent (line : Nat)
  | fenceCmds (left : List Nat)
  | pin (core id : Nat)
  | job (id : Nat)
  deriving DecidableEq, Repr

/-- A request held at this Gikan: the crossbar input it came by, its extent index, and its place of execution. -/
structure Held where
  id : Nat
  x : Nat
  q : Req
  entry : Nat
  why : Hold
  deriving DecidableEq, Repr

/-- A request to be sent again after BUSY_RETRY once `due` has passed, as a new request (R168, R246, R261). -/
structure Again where
  due : Nat
  q : Req
  port : Nat
  consumer : Consumer
  deriving DecidableEq, Repr

structure ReqSt where
  dups : List DupRec
  outst : Tbl OutReq
  /-- tick number of the last use of a tag (R56) -/
  lastUse : Tbl Nat
  waiting : List TagWait
  again : List Again
  fences : List FenceSt
  held : List Held
  nextId : Nat
  /-- tick boundaries since reset (R58) -/
  boundaries : Nat
  deriving DecidableEq, Repr

/-! Maps (chapter 4) -/

/-- The four words of an extent entry, as written (R65). -/
structure ExtW where
  w0 : Nat
  w1 : Nat
  w2 : Nat
  w3 : Nat
  deriving DecidableEq, Repr

def ExtW.none : ExtW := ⟨0, 0, 0, 0⟩

/-- A map: extent table, route table, placement domain (R66 to R68). -/
structure MapTab where
  ext : Tbl ExtW
  route : Tbl Nat
  dom : List Nat
  deriving DecidableEq, Repr

def MapTab.empty : MapTab := ⟨[], [], []⟩

/-- The part this Gikan plays in a handover (R82): A before and after it stopped, B waiting, B holding the token, reverted. -/
inductive HandStep where
  | aRunning | aStopped | aDone | bWaiting | bHolds | bReverted | aKept
  deriving DecidableEq, Repr

structure Handover where
  step : HandStep
  /-- the other Gikan -/
  peer : Nat
  epoch : Nat
  /-- fabric time of the deadline (R82) -/
  deadline : Nat
  /-- fabric time of the last send of HANDOVER or HOME_REVERT -/
  sentAt : Nat
  deriving DecidableEq, Repr

structure MapSt where
  cur : MapTab
  prev : MapTab
  stage : MapTab
  /-- MAP_STAGE_DATA0 to DATA2 as last written (R71) -/
  stageW : List Nat
  /-- fabric time of the commit whose Hinge is open, and its limits in µs (R75) -/
  hingeAt : Nat
  hingeMin : Nat
  hingeTimeout : Nat
  /-- entry and fabric time of the revoke that is draining (R79) -/
  revokeAt : Option (Nat × Nat)
  /-- entries with a committed revoke, and whether it reached DONE (R80) -/
  revoked : Tbl Bool
  homeReq : List (Nat × Nat × Nat)
  hand : Tbl Handover
  deriving DecidableEq, Repr

/-! Stacks (chapter 5) -/

/-- What a frame of 32 MiB holds (R97, R98, R276); an unlisted frame is free and stamped. Two kinds wait for their stamping: released frames,
and host-window frames that no command holds any longer, which stay reserved. -/
inductive FrameSt where
  | free | waiting | page (entry page : Nat) | moveTo (entry page : Nat) | dir | record | window | windowWait | retired
  deriving DecidableEq, Repr

/-- MEM_REPAIR_CAND entry (R101). -/
structure RepairCand where
  stack : Nat
  channel : Nat
  granule : Nat
  pc : Nat
  count : Nat
  deriving DecidableEq, Repr

structure StkSt where
  frames : Tbl FrameSt
  /-- frames whose retirement waits for the page to leave or for the stamping (R103) -/
  retiring : List Nat
  cand : List RepairCand
  /-- corrected errors of a DRAM row in this scrub pass (R101), by stack, channel, row and pseudo-channel -/
  rows : Tbl Nat
  /-- codewords that patrol scrub has read in this pass, as disjoint ranges in rising order: first, and first after -/
  scrubbed : List (Nat × Nat)
  /-- symbols in error of a codeword of a frame that holds no page, by the codeword's number in the stacks (R100 to R102) -/
  freeBad : Tbl Nat
  /-- of a Mode B unit in error: which of its three granules holds the symbol last found wrong (R92); an unlisted one is the data granule -/
  badAt : Tbl Nat
  deriving DecidableEq, Repr

/-! Tiers and the Placer (chapter 6) -/

/-- The state of a placement page (R106); `slack` is the UNBACKED page with a reserved frame of R117, `stamping` the slack page whose
frame is being stamped after its first write, `unplaced` a page without a frame under R108, `reserved` a page of a home copy at B. -/
inductive PageState where
  | unbacked | resident | residentClean | lower | slack | stamping | unplaced | reserved
  deriving DecidableEq, Repr

/-- Where a lower copy lies (R105): none, flash (by the free value that stands for the blocks its pages were programmed in), or a page of the
host pool behind port A or B. -/
inductive LowerAt where
  | none | flash (d : Nat) | host (s : Side) (page : Nat)
  deriving DecidableEq, Repr

/-- What moves a page (MOVING, R106): a fetch with the granule that was touched first, the granules it has brought in, and whether one of them
has been written since; a demotion or a lent copy with the granules still to write; a move to another frame (R131). -/
inductive Moving where
  | none
  | fetch (staged : Bool) (first : Nat) (got : List Nat) (dirty : Bool)
  | demote (left : Nat)
  | lend (next answered : Nat)
  | frame (dest left : Nat)
  deriving DecidableEq, Repr

/-- A clean copy in lent memory (LENT, R106, R123): its fabric address and the CRC-32C of each granule written. -/
structure LentCopy where
  addr : Nat
  crc : Tbl Nat
  deriving DecidableEq, Repr

structure PageRec where
  state : PageState
  lowerAt : LowerAt
  heat : Nat
  /-- tick at which the page became RESIDENT or RESIDENT_CLEAN (R112) -/
  since : Nat
  kept : Bool
  moving : Moving
  lent : Option LentCopy
  deriving DecidableEq, Repr

/-- An entry of a layer schedule (R118) with its plan (R120). -/
structure Tile where
  entry : Nat
  first : Nat
  pages : Nat
  deadline : Nat
  release : Option Nat
  keep : Bool
  drop : Bool
  skipped : Bool
  /-- repetition in force, planned start tick, and what has happened of it -/
  rep : Nat
  start : Nat
  staging : Bool
  late : Bool
  done : Bool
  deriving DecidableEq, Repr

structure Sched where
  baseTick : Nat
  period : Nat
  repeats : Nat
  tiles : List Tile
  deriving DecidableEq, Repr

/-- A range on loan (R122): its base on the lender, its pages, the compartment, and the pages a RECLAIM has closed. -/
structure Loan where
  base : Nat
  pages : Nat
  cmpt : Nat
  closed : List Nat
  deriving DecidableEq, Repr

/-- A RECLAIM whose answer is still due (R124): its arrival, the request, and the tick of its end. -/
structure ReclaimWait where
  x : Nat
  q : Req
  acceptTick : Nat
  endTick : Nat
  deriving DecidableEq, Repr

/-- A home copy as A sees it (R129): the peer, whether HOME_COPY was answered, the tick at which it was posted, and the lines written
whose HOME_LINE is out (true: written again since) or was sent since the copy. -/
structure CopyA where
  peer : Nat
  answered : Bool
  posted : Option Nat
  lines : Tbl Bool
  sent : List Nat
  deriving DecidableEq, Repr

/-- A home copy as B sees it (R128): the peer, the next byte offset to pull, the lines stored meanwhile, and whether all is pulled. -/
structure CopyB where
  peer : Nat
  next : Nat
  lines : List Nat
  done : Bool
  deriving DecidableEq, Repr

structure TierSt where
  /-- page records, by entry × 2^24 + page; an unlisted page is UNBACKED -/
  pages : Tbl PageRec
  /-- granules of DEMOTE, PEER, LEND and RELOC left in this tick (R113) -/
  budget : List Nat
  /-- an allocation was refused for want of a frame; pages whose fetch waits for one: the granule touched first, and whether it is staging -/
  asked : Bool
  want : Tbl (Nat × Bool)
  /-- granules that an engine's access has found not there: entry, page, granule, and whether it writes (R111); empty between commands -/
  stall : List (Nat × Nat × Nat × Bool)
  /-- work items that have stalled and not gone on since: each is counted once (R111, R150) -/
  stalled : List (List Nat)
  /-- schedules in force, and those that wait for their BASE_TICK in the order they were accepted, by compartment (R119) -/
  sched : Tbl Sched
  nextSched : Tbl (List Sched)
  /-- stalls by extent: events and cycles (TIER_XSTALL) -/
  xstall : Tbl (Nat × Nat)
  loans : List Loan
  /-- this Gikan's own pages on loan (R263): page address / 32 MiB to borrower -/
  lentOut : Tbl Nat
  reclaims : List ReclaimWait
  copyA : Tbl CopyA
  copyB : Tbl CopyB
  /-- free frames last reported by each member (R127) -/
  domFree : Tbl Nat
  lastCopy : Option Nat
  lastStatus : Option Nat
  pressure : Nat
  /-- admitted requests since the last decay: by extent, and by extent × 65536 + partner node (R130) -/
  seen : Tbl Nat
  seenBy : Tbl Nat
  /-- the same counts of the last whole decay window, and the tick of the last decay (R112, R130) -/
  seenLast : Tbl Nat
  seenByLast : Tbl Nat
  lastDecay : Option Nat
  /-- the translation layer's own records, which survive a start: retired blocks, erase counts, reads since the erase, blocks that the journal
  shows open (R134 to R136) -/
  badBlocks : List Nat
  erases : Tbl Nat
  reads : Tbl Nat
  openBlocks : List Nat
  /-- blocks being relocated, with the granules still to move, and whether the block is retired then (R135) -/
  reloc : Tbl (Nat × Bool)
  /-- read-offset sets: hard decodes since the last step, and the offset, by target, LUN, plane and band of erase cycles (R135) -/
  thresh : Tbl (Nat × Int)
  deriving DecidableEq, Repr

/-! Coherence (chapter 7) -/

/-- What a transaction carries out (R146, R150, R152): an agent's request, an access of the home's, or a line of a recall. -/
inductive CohKind where
  | rdShared | rdOwn | upgrade | writeBack | homeRead | homeWrite | engineRead | engineWrite | recall
  deriving DecidableEq, Repr

/-- A directory entry, as its two words (R142). -/
structure Dir where
  w0 : Nat
  w1 : Nat
  deriving DecidableEq, Repr

/-- A transaction on a line, open or queued (R145, R146). -/
structure Txn where
  /-- address of the line's first byte, and its extent -/
  line : Nat
  entry : Nat
  kind : CohKind
  /-- the requesting agent and its tag -/
  node : Nat
  tag : Nat
  /-- line carried by a WB_DIRTY -/
  data : List Byte
  /-- the held request that a home access serves -/
  held : Nat
  opened : Bool
  homeTag : Nat
  /-- agents whose SNP_RSP is awaited, and when the snoops were sent -/
  await : List Nat
  snoopAt : Nat
  /-- the snoop is a forward; an SNP_RSP had HAD_LINE -/
  fwd : Bool
  had : Bool
  /-- the entry could not be read: every agent is snooped first (R151) -/
  recover : Bool
  /-- the owner died: the line is poisoned when the snoops end (R151) -/
  lost : Bool
  /-- a COMPLETE is still due, since when -/
  needComplete : Bool
  grantAt : Nat
  /-- entry at the close -/
  final : Dir
  /-- a home access, or a work item's, whose snoops have ended: it may be performed -/
  ready : Bool
  /-- the work item that an engine's access is part of; empty where there is none -/
  who : List Nat
  deriving DecidableEq, Repr

structure CohSt where
  /-- the agent registry (R139), and the agents declared dead since they were registered (R153) -/
  agents : List Nat
  dead : List Nat
  /-- directory entries, by the address of the line; an unlisted line is U -/
  dir : Tbl Dir
  txns : List Txn
  /-- extents whose recall has ended under the quiesce in force (R152), and the extent being recalled -/
  recalled : List Nat
  recalling : Option Nat
  /-- the agent whose sweep runs, lines it has poisoned so far, declarations that wait: node, and whether by SNOOP_US -/
  sweep : Option Nat
  sweepLost : Nat
  sweepWait : List (Nat × Bool)
  /-- directory caches: lines of a set, last used first, by slice × 65536 + set (R144) -/
  cache : Tbl (List Nat)
  /-- lines that an engine's access has found held by agents: address, extent, and whether it writes (R150); empty between commands -/
  want : List (Nat × Nat × Bool)
  /-- the work item whose step runs; empty between commands -/
  who : List Nat
  deriving DecidableEq, Repr

/-! Switch core (chapter 14) -/

/-- A packet in a virtual output queue: its cells, those already in the buffer and those that have crossed (R306, R311). -/
structure VPkt where
  pkt : Packet
  cells : Nat
  inBuf : Nat
  sent : Nat
  joined : Nat
  /-- counted in HOLDS (R315) -/
  gateHeld : Bool
  deriving DecidableEq, Repr

structure XbarSt where
  /-- virtual output queues, by (48 × input + output) × 8 + class -/
  voq : Tbl (List VPkt)
  /-- packets that have crossed whole to an internal output, waiting for their unit -/
  inbox : Tbl (List Packet)
  /-- packets that a fabric output has taken, in order -/
  tx : Tbl (List Packet)
  grantPtr : Tbl Nat
  acceptPtr : Tbl Nat
  /-- deficits of R309, by output × 8 + class -/
  deficit : Tbl Nat
  /-- shaper tokens in 1/65,536 B, by output × 8 + class (R313) -/
  tokens : Tbl Int
  /-- gate lists, by (port × 2 + list) × 64 + index: duration and mask (R315) -/
  gates : Tbl (Nat × Nat)
  /-- fabric time at which the current gate entry began -/
  gateAt : Tbl Nat
  /-- packets that the unit of an internal input holds back while its input buffer is full, by input: output and packet, in order (R307) -/
  backlog : Tbl (List (Nat × Packet))
  /-- when the selected queue was last sampled, in ns of the reference clock (R318) -/
  sampledAt : Option Nat
  /-- samples of the live window: depth and head delay of each (R318) -/
  qwin : List (Nat × Nat)
  /-- a new window waits for the next boundary -/
  qwait : Bool
  deriving DecidableEq, Repr

/-! Links (chapter 13) -/

/-- A SLEEP or WAKE under way in one direction of a port (R361): a WAKE, the flit time AT, and that of the last message. -/
structure Narrowing where
  wake : Bool
  at_ : Nat
  sent : Nat
  deriving DecidableEq, Repr

/-- A fabric port (R278 to R301, R361), beyond its registers. Lists by class have eight places. -/
structure PortLnk where
  /-- time at which the state of R290 was entered, and failures in a row (BACKOFF) -/
  since : Nat
  fails : Nat
  /-- PARAM: the partner's last message, a SEEN received, a SEEN sent, time of the last send (R292, R293) -/
  got : Option ParamMsg
  seenIn : Bool
  sentSeen : Bool
  paramAt : Option Nat
  /-- receiver: expected sequence number, whether a DATA flit was accepted, when the outstanding NAK was raised, a NAK to send (R285) -/
  expect : Nat
  accepted : Bool
  nak : Option Nat
  nakDue : Bool
  /-- bytes of the packet being received, and the output to which it is cut through (R282, R311) -/
  part : List Byte
  cut : Option Nat
  /-- units received since bring-up, units held from before it, credits freed to the partner; by class, modulo 65,536 (R287) -/
  rxIn : List Nat
  stale : List Nat
  cumOut : List Nat
  /-- whole packets received, waiting for their command, in order of arrival -/
  buf : List Packet
  /-- sender: next sequence number; flits held for replay, each with whether it begins within a packet (R284) -/
  nextSeq : Nat
  held : List (Flit × Bool)
  /-- place in `held` of the next flit to replay; start of the last replay and its time; replays in a row; when waiting began (R286) -/
  replay : Option Nat
  replayFrom : Option (Nat × Nat)
  inRow : Nat
  waitFrom : Nat
  /-- CUM received, units taken, initial credits of the partner, by class (R287) -/
  cumIn : List Nat
  taken : List Nat
  initial : List Nat
  /-- bytes still to send of the packet being sent; the next class reported (R281, R282) -/
  rest : List Byte
  crNext : Nat
  /-- last LANE_STATUS sent, last laser loop of the port's feed, feed lost (R298, R300, R301) -/
  laneAt : Option Nat
  loopAt : Option Nat
  feedLost : Bool
  /-- the 1 ms window of R303 and its corrected symbols by lane; codewords by 16 × lane + symbols corrected (LNK_HIST_DATA) -/
  fecAt : Nat
  fecWin : Tbl Nat
  hist : Tbl Nat
  /-- narrowing of each direction: in force, under way; flit times counted and the time of that count (R361) -/
  txNarrow : Bool
  rxNarrow : Bool
  txSched : Option Narrowing
  rxSched : Option Narrowing
  txAt : Nat × Nat
  rxAt : Nat × Nat
  /-- payload bytes carried in this tick (R359) -/
  rxBytes : Nat
  txBytes : Nat
  deriving DecidableEq, Repr

/-- Eight classes at zero. -/
def noClasses : List Nat := [0, 0, 0, 0, 0, 0, 0, 0]

/-- A port that has never been up. -/
def PortLnk.reset : PortLnk where
  since := 0
  fails := 0
  got := none
  seenIn := false
  sentSeen := false
  paramAt := none
  expect := 0
  accepted := false
  nak := none
  nakDue := false
  part := []
  cut := none
  rxIn := noClasses
  stale := noClasses
  cumOut := noClasses
  buf := []
  nextSeq := 0
  held := []
  replay := none
  replayFrom := none
  inRow := 0
  waitFrom := 0
  cumIn := noClasses
  taken := noClasses
  initial := noClasses
  rest := []
  crNext := 0
  laneAt := none
  loopAt := none
  feedLost := false
  fecAt := 0
  fecWin := []
  hist := []
  txNarrow := false
  rxNarrow := false
  txSched := none
  rxSched := none
  txAt := (0, 0)
  rxAt := (0, 0)
  rxBytes := 0
  txBytes := 0

/-! Faults (chapter 16) -/

/-- A held syndrome (R341): class 2 contained or 3 fatal. -/
structure Syn where
  valid : Bool
  overflow : Bool
  cls : Nat
  reg : Nat
  unit : Nat
  time : Nat
  deriving DecidableEq, Repr

def Syn.none : Syn := ⟨false, false, 0, 0, 0, 0⟩

/-- A sampled item whose check has not run (R347, R348): its unit, the tick and the boundary count of its frame, what it served, the
bytes it holds of the check buffer, and the busy share of its die. -/
structure Sample where
  unit : UnitId
  tick : Nat
  boundary : Nat
  work : Nat
  bytes : Nat
  activity : Nat
  deriving DecidableEq, Repr

/-- The three words of a FLT_CHECK_LOG entry (R349). -/
structure CheckLog where
  w0 : Nat
  w1 : Nat
  w2 : Nat
  deriving DecidableEq, Repr

/-- A monitor's window (R352): histogram, least and greatest value, samples. -/
structure MonWin where
  bins : Tbl Nat
  lo : Nat
  hi : Nat
  n : Nat
  deriving DecidableEq, Repr

def MonWin.zero : MonWin := ⟨[], 0, 0, 0⟩

structure FltSt where
  syn : Tbl Syn
  corrected : Tbl Nat
  contained : Tbl Nat
  fatal : Tbl Nat
  /-- the tick (or, before ticks, the time) whose notice has been sent (R340), and that of each interrupt kind (R390) -/
  notice : Option (Bool × Nat)
  ibi : Tbl (Bool × Nat)
  samples : List Sample
  checkLog : List CheckLog
  /-- mismatch counts, by kind × 4096 + unit (R350) -/
  mismatch : Tbl Nat
  /-- units whose next sample is to compare as a mismatch (R354), as group × 65536 + unit -/
  miscompare : List Nat
  token : Tbl Nat
  live : Tbl MonWin
  done : Tbl MonWin
  /-- ticks left in a monitor's window; unlisted: it starts at the next boundary -/
  monLeft : Tbl Nat
  /-- corrected FEC symbols in this tick, by 8 × port + lane (R352) -/
  fecTick : Tbl Nat
  deriving DecidableEq, Repr

/-! Power (chapter 17) -/

structure PwrSt where
  /-- last and greatest reading of each sensor, in 0.25 °C (R367) -/
  temps : Tbl (Nat × Nat)
  /-- throttle factors of R364 and of R368, each at most 64; T falls to TMIN at the next boundary (R365, R370) -/
  tPower : Nat
  tTherm : Nat
  shed : Bool
  /-- times of the last lowering and raising; since when T is at TMIN, until its fault is logged -/
  lowerAt : Nat
  raiseAt : Nat
  minSince : Option Nat
  /-- sensors that have entered throttling; rails whose margin is lost (R366) -/
  hot : List Nat
  margin : List Nat
  /-- voltage acknowledged by rail, in 0.1 mV; time of its last step; rails that hold after R401 -/
  avs : Tbl Nat
  avsAt : Tbl Nat
  avsHeld : List Nat
  /-- ns with T below 64 (PWR_POWER.THROTTLE_MS) -/
  throttleNs : Nat
  /-- whole ticks in a row for which the conditions of Q1, Q2 and Q3 have held; whether they held at the last boundary (R359) -/
  idle : List Nat
  wasIdle : Bool
  /-- domains whose work has arrived in this tick -/
  work : List Nat
  /-- state to which the exit under way leads (R360, R362) -/
  exitTo : Nat
  deriving DecidableEq, Repr

/-! Start, configuration, management (chapter 18) -/

/-- A PCIe port (R383): link up, PERST asserted, D3hot, MSI-X function mask, the port's MSI-X table as 64-bit words (two a vector), and
its pending bits. -/
structure PciePort where
  up : Bool
  perst : Bool
  d3 : Bool
  fmask : Bool
  table : Tbl Nat
  pend : List Nat
  deriving DecidableEq, Repr

/-- A port after PERST or reset: link down, every vector masked (PCIe), no bit pending. -/
def PciePort.reset : PciePort := ⟨false, false, false, false, [], []⟩

/-- An update under way (R382). -/
structure Upd where
  s : Side
  target : Nat
  image : Image
  deriving DecidableEq, Repr

structure MgtSt where
  portA : PciePort
  portB : PciePort
  /-- boot flash: firmware slots 0 and 1, the configuration area (R374) -/
  slot0 : Option Image
  slot1 : Option Image
  cfg : Option Image
  /-- DIGEST of the configuration image applied (R336), its HOLD_MS (R376), and the time at which STAMPED was set (R381) -/
  applied : Option Nat
  holdMs : Nat
  stampedAt : Option Nat
  upd : Option Upd
  /-- time at which the holder's lease lapses, and whether it has lapsed (R385) -/
  leaseAt : Nat
  lapsed : Bool
  /-- BAR0 offset that an I3C read has named (R389) -/
  i3cOff : Nat
  deriving DecidableEq, Repr

end Sys2Proof.Machine
end

