-- ==== Sys2Proof/Machine/Units.lean ====
section
/-!
DEFINITION. The pieces of state of the engines and of the Keyways: reduce streams (chapter 8), gather, filter and score (9), expander tables
(10), pin cores (11), Keyways and queues (12), compartments and trust (15).
-/

namespace Sys2Proof.Machine

/-! Reduce streams (chapter 8) -/

/-- A down entry of a stream (R155). -/
structure DownEntry where
  addr : Nat
  ward : Nat
  stream : Nat
  mode : Nat
  deriving DecidableEq, Repr

/-- A stream's descriptor (R155). -/
structure Descr where
  stream : Nat
  relay : Bool
  op : Nat
  inFmt : Nat
  accFmt : Nat
  outFmt : Nat
  stochastic : Bool
  writeResult : Bool
  update : Nat
  chunkElems : Nat
  contributors : Nat
  firstRound : Nat
  deadline : Nat
  straggler : Nat
  maxOpen : Nat
  myIndex : Nat
  parentStream : Nat
  parentNode : Nat
  slots : Nat
  tableEntries : Nat
  result : Nat
  table : Nat
  status : Nat
  param : Nat
  master : Nat
  state1 : Nat
  state2 : Nat
  out : Nat
  seed : Nat
  entry : Nat
  downFmt : Nat
  parentWard : Nat
  downs : List DownEntry
  deriving DecidableEq, Repr

/-- An accepted contribution that has not been added: the held request that it answers, and its payload. -/
structure Contrib where
  held : Nat
  contributor : Nat
  payload : List Byte
  deriving DecidableEq, Repr

/-- What has become of a chunk (R166 to R169). -/
inductive ChunkSt where
  /-- taking contributions -/
  | open
  /-- its output item is queued or runs -/
  | output
  /-- complete, before the commit of a round with an update program -/
  | complete
  /-- its update item, or its kernel, is queued or runs -/
  | update
  /-- its partial or its down sends are out -/
  | sent
  | ended
  deriving DecidableEq, Repr

structure Chunk where
  st : ChunkSt
  /-- contributors accepted -/
  bits : List Nat
  /-- queued at the lane; and, by add item admitted, those it adds -/
  queued : List Contrib
  adding : List (List Contrib)
  /-- accumulator, one FP32 or INT32 code an element; empty before the first addition -/
  acc : List Nat
  poisoned : Bool
  /-- output bytes that the down sends carry, and how many down sends are unanswered -/
  out : List Byte
  downsLeft : Nat
  /-- the code other than OK with which its kernel ended (R173) -/
  code : Nat
  deriving DecidableEq, Repr

inductive RoundSt where
  | open | committed | aborted
  deriving DecidableEq, Repr

structure Round where
  num : Nat
  base : Nat
  count : Nat
  openTick : Nat
  st : RoundSt
  chunks : Tbl Chunk
  /-- tick of each contributor's last accepted contribution (R172) -/
  arrived : Tbl Nat
  /-- parameter record read at commit, and whether it was poisoned (R174) -/
  param : List Byte
  paramBad : Bool
  /-- of its record (R170) -/
  status : Nat
  cause : Nat
  bcast : Bool
  stragglers : Bool
  missing : Nat
  recorded : Bool
  /-- chunks whose result a relay has sent on (R169) -/
  passed : List Nat
  deriving DecidableEq, Repr

/-- A result received from the parent, in a slot until it has been sent to every down entry (R169). -/
structure DownResult where
  round : Nat
  chunk : Nat
  data : List Byte
  left : Nat
  deriving DecidableEq, Repr

structure Stream where
  d : Descr
  cmpt : Nat
  next : Nat
  /-- the rounds most recently opened, oldest first -/
  rounds : List Round
  results : List DownResult
  /-- destroyed, its running items not yet ended; and the command that waits for it -/
  dying : Bool
  by_ : Option (Nat × Nat)
  deriving DecidableEq, Repr

/-- A straggler post (R172). -/
structure Post where
  round : Nat
  stream : Nat
  contributor : Nat
  missing : Bool
  late : Nat
  count : Nat
  deriving DecidableEq, Repr

structure RedSt where
  streams : Tbl Stream
  posts : List Post
  deriving DecidableEq, Repr

/-! Gather, filter, score (chapter 9) -/

/-- Whose work it is: a held request, or a command of a Keyway. -/
inductive Owner where
  | request (id : Nat)
  | cmd (kw idx : Nat)
  deriving DecidableEq, Repr

/-- A tensor as its header gives it (R204, R211). -/
inductive Tensor where
  /-- AXC2: address of block 0 and MODE -/
  | axc2 (a mode : Nat)
  /-- AXC1: address of the header, FP16 elements, element count, index and data offsets -/
  | axc1 (a : Nat) (fp16 : Bool) (count index data : Nat)
  /-- its header gives no tensor: every element is poisoned -/
  | bad
  deriving DecidableEq, Repr

/-- What a scan has found so far (R186): entries with their ranks, entry bytes, the record to resume at, whether poison was met, records examined,
whether an entry no longer fitted, and the places of the entries that an error spoiled (R198). -/
structure Scan where
  out : List (FVal × List Byte)
  used : Nat
  next : Nat
  poisoned : Bool
  seen : Nat
  full : Bool
  spoilt : List Nat
  deriving DecidableEq, Repr

def Scan.zero : Scan := ⟨[], 0, 0, false, 0, false, []⟩

/-- A GATHER_REQ, FILTER_REQ, SCORE_REQ, or a job, whose items have not all ended: each item reads its data and gives its output at its end. -/
structure EngJob where
  owner : Owner
  cmpt : Nat
  /-- items that have not ended -/
  left : Nat
  /-- merge items still to come (R191), by filter engine: cost -/
  merges : List (Nat × Nat)
  /-- selection entries reserved: on one filter engine, or on all -/
  select : Nat
  engine : Option Nat
  /-- poison has been met (R99) -/
  poisoned : Bool
  /-- items whose output an uncorrectable error spoiled (R198) -/
  lost : List Nat
  /-- a gather's indices, as checked before any row is read (R179), and whether their list met poison -/
  idx : List (Option Nat)
  idxBad : Bool
  /-- the tensor of a compressed table or of compressed keys, once its header has been read (R204) -/
  tensor : Option Tensor
  /-- a gather request's output rows, by item, and whether each is poisoned -/
  rows : Tbl (List Byte × Bool)
  scan : Scan
  /-- a score's queries as each matrix engine has loaded them, and whether each is poisoned; key tiles that have query blocks to come -/
  loads : Tbl (List (List Byte × Bool))
  keys : Tbl (List (List Byte × Bool))
  /-- the best keys of each query so far, key and score bits, and the queries whose output is poisoned -/
  best : Tbl (List (Nat × Nat))
  spoilt : List Nat
  deriving DecidableEq, Repr

/-- A request or job just dealt. -/
def EngJob.start (o : Owner) (cmpt left select : Nat) (engine : Option Nat) : EngJob :=
  ⟨o, cmpt, left, [], select, engine, false, [], [], false, none, [], Scan.zero, [], [], [], []⟩

structure GfsSt where
  jobs : List EngJob
  deriving DecidableEq, Repr

/-! Expander tables (chapter 10) -/

/-- A table slot that is not EMPTY (R217, R220). -/
structure TabSlot where
  retiring : Bool
  kind : Nat
  entry : Nat
  cmpt : Nat
  version : Nat
  data : List Byte
  deriving DecidableEq, Repr

/-- A load under way (R219): the slot it has taken, if any. -/
structure TabLoad where
  table : Nat
  version : Nat
  cmpt : Nat
  kind : Nat
  entry : Nat
  data : List Byte
  slot : Option Nat
  deriving DecidableEq, Repr

structure CmpSt where
  /-- by 2 × table + slot -/
  slots : Tbl TabSlot
  load : Option TabLoad
  /-- a load that waits for a scrub of its compartment (R325): source, table, version, compartment -/
  wait : Option (Nat × Nat × Nat × Nat)
  /-- seams passed since the counters were cleared (R208) -/
  seams : Nat
  /-- admitted items that read blocks, by the slots that those blocks name: how many of each are still to be expanded (R220) -/
  reading : List (Work × Tbl Nat)
  deriving DecidableEq, Repr

/-! Pin cores (chapter 11) -/

/-- A registered entry point (R248). -/
structure EntryPt where
  slot : Nat
  cmpt : Nat
  pc : Nat
  cycles : Nat
  excl : Bool
  trigger : Bool
  run : Bool
  custom : Bool
  deriving DecidableEq, Repr

/-- A kernel image (R249, R250). -/
structure KImage where
  cmpt : Nat
  base : Nat
  count : Nat
  entries : Nat
  unloading : Bool
  deriving DecidableEq, Repr

/-- A checked image whose words are being written (R249). -/
structure KLoad where
  slot : Nat
  base : Nat
  cmpt : Nat
  words : List Nat
  entries : List (Nat × EntryPt)
  deriving DecidableEq, Repr

/-- How an item was invoked (R234). -/
inductive Invoked where
  | trigger (held addr src resultMax ward : Nat) (arg : List Byte)
  | run (kw idx i count base5 ward : Nat) (arg : List Byte)
  | custom (stream round chunk first elems : Nat)
  deriving DecidableEq, Repr

/-- An item of a pin core (R232). -/
structure PinItem where
  id : Nat
  entry : Nat
  e : EntryPt
  cmpt : Nat
  by_ : Invoked
  deriving DecidableEq, Repr

/-- What a memory access of a thread does with its answer. -/
inductive AccKind where
  | load (rd width : Nat) (sext : Bool)
  | vload (vd : Nat)
  | get (at_ n : Nat)
  | atom (rd width : Nat)
  | store
  deriving DecidableEq, Repr

/-- An access of a thread that has not been answered (R245, R246). -/
structure Access where
  id : Nat
  kind : AccKind
  q : Bool
  req : Req
  busy : Nat
  resolved : Bool
  deriving DecidableEq, Repr

/-- What a thread that issues nothing waits for. -/
inductive ThreadWait where
  | none
  /-- parked on an access; on a FENCE -/
  | access (id : Nat)
  | fence
  /-- ending, once its stores are answered: exception cause (0 for END), status, result word, result bytes -/
  | ending (cause status result : Nat) (bytes : List Byte)
  deriving DecidableEq, Repr

structure Thread where
  item : PinItem
  x : Tbl Nat
  v : Tbl Nat
  p : Tbl Nat
  pc : Nat
  /-- index of the last instruction issued -/
  last : Nat
  lastStatus : Nat
  seed : Nat
  ward : Tbl Nat
  /-- fabric time of the item's start, tick of the last frame allotted -/
  start : Nat
  frame : Nat
  acc : List Access
  /-- the code of a posted store answered other than OK, not yet delivered -/
  storeFault : Option Nat
  wait : ThreadWait
  deriving DecidableEq, Repr

structure PinCore where
  cmpt : Option Nat
  queue : List PinItem
  /-- items admitted onto a thread that has not ended its last one, by thread, oldest first, with the last frame allotted to each -/
  ready : Tbl (List (PinItem × Nat))
  threads : Tbl Thread
  scratch : Tbl Byte
  /-- fabric time of the last end of an EXCL item (R230) -/
  exclEnd : Nat
  deriving DecidableEq, Repr

def PinCore.idle : PinCore := ⟨none, [], [], [], [], 0⟩

structure PinSt where
  code : Tbl Nat
  images : Tbl KImage
  entries : Tbl EntryPt
  load : Option KLoad
  /-- a load that waits for a scrub of its compartment (R325): source, slot, base, compartment -/
  wait : Option (Nat × Nat × Nat × Nat)
  cores : Tbl PinCore
  /-- RUN instances and CUSTOM chunks that wait outside their core's queue, by core in order (R232) -/
  outside : List (Nat × PinItem)
  nextId : Nat
  deriving DecidableEq, Repr

/-! Keyways and queues (chapter 12) -/

/-- A landing zone that is not EMPTY (R254): its bytes, the bytes written, the length once known, the time of its first write. -/
structure Zone where
  bytes : Tbl Byte
  have_ : Tbl Bool
  len : Option Nat
  since : Nat
  held : Bool
  deriving DecidableEq, Repr

inductive CmdState where
  | queued | translating | faulted | ready | running | done
  deriving DecidableEq, Repr

/-- A page of a translated descriptor (R273): virtual address, size, the fabric address it maps to, or the host page. -/
structure XPage where
  va : Nat
  size : Nat
  addr : Nat
  write : Bool
  host : Option Side
  deriving DecidableEq, Repr

structure Cmd where
  idx : Nat
  /-- the requester whose TRIGGER brought it -/
  src : Option Nat
  bytes : List Byte
  st : CmdState
  /-- its AFTER condition has been met (R256) -/
  released : Bool
  status : Nat
  detail : Nat
  pages : List XPage
  /-- placement pages pinned, by page key (R275), or waiting for room -/
  pins : List Nat
  pinned : Bool
  /-- items that have not ended; of a RUN the instances -/
  left : Nat
  /-- codes other than OK met so far, by destination offset or instance, and bytes written -/
  codes : Tbl Nat
  written : Nat
  /-- fabric time of the first send (R263) -/
  sentAt : Nat
  /-- granules of host pages that it writes (R276), by place in `pages` × 8192 + granule -/
  dirty : List Nat
  /-- granules of host pages that have not arrived, by the same numbers -/
  fill : List Nat
  /-- every span of a VA command is in `pages` (R273) -/
  whole : Bool
  /-- the tensor of a MOVE with EXPAND, its header read once (R204) -/
  tensor : Option Tensor
  deriving DecidableEq, Repr

structure Keyway where
  next : Nat
  zones : Tbl Zone
  cmds : List Cmd
  deriving DecidableEq, Repr

def Keyway.empty : Keyway := ⟨0, [], []⟩

/-- A ring: CFG, BASE, HEAD and TAIL registers, and whether it is armed (R267, R269). -/
structure Ring where
  cfg : Nat
  base : Nat
  head : Nat
  tail : Nat
  armed : Bool
  /-- NOTIFY flags of the records between HEAD and TAIL, oldest first -/
  notify : List Bool
  deriving DecidableEq, Repr

/-- A host-window frame (R276): the port and PCIe page, the granules filled, and those read and not yet arrived. -/
structure HostFrame where
  side : Side
  page : Nat
  got : List Nat
  asked : List Nat
  deriving DecidableEq, Repr

structure SubSt where
  kws : Tbl Keyway
  cqs : Tbl Ring
  mqs : Tbl Ring
  asids : Tbl Nat
  /-- walk cache (R273): ASID, virtual page address, leaf -/
  walks : List (Nat × XPage)
  /-- commands whose record waits for its ring, in completion order: queue, Keyway, index -/
  waiting : List (Nat × Nat × Nat)
  frames : List HostFrame
  /-- bytes of host-window frames, by 2^64 × port + PCIe address -/
  hostMem : List Host.Cell
  /-- walks that an invalidation under way waits for, by Keyway and index; none under way: none -/
  inval : Option (List (Nat × Nat))
  deriving DecidableEq, Repr

/-! Compartments and trust (chapter 15) -/

/-- What a tenant's view record counts (R328). -/
structure View where
  commands : Nat
  items : Nat
  requests : Nat
  wards : Nat
  stalls : Nat
  overruns : Nat
  deriving DecidableEq, Repr

def View.zero : View := ⟨0, 0, 0, 0, 0, 0⟩

/-- SPDM state of a port (R335): versions agreed, the hash that the last signed response signed. -/
structure SpdmSt where
  version : Nat
  caps : Bool
  algs : Bool
  signed : Option Nat
  deriving DecidableEq, Repr

structure SecSt where
  masks : Tbl Nat
  /-- WARD_FAULTs in this tick, and whether its alarm was raised -/
  wardTick : Nat
  wardAlarm : Bool
  view : Tbl View
  viewBase : Tbl Nat
  /-- compartments whose record of the present tick has been written -/
  viewed : List Nat
  /-- a scrub: compartment, time of its commit, end of its stop phase -/
  scrub : Option (Nat × Nat × Option Nat)
  /-- units that held an item of that compartment at the commit, by key: they admit nothing until the clearing ends (R325) -/
  cleared : List Nat
  spdmA : SpdmSt
  spdmB : SpdmSt
  /-- index record copies in boot flash: SEQ and NEXT (R338), and the next reserved index -/
  lmsSeq : Nat
  lmsNext : Nat
  lmsUse : Nat
  deriving DecidableEq, Repr

end Sys2Proof.Machine
end

