-- ==== Sys2Proof/Machine/State.lean ====
section
/-!
DEFINITION. The state of the block: everything the manual gives one Gikan (`Gikan`), and the queue of the commands that wait (`State`);
the two ways a step could stop; and the state right after reset.
-/

namespace Sys2Proof.Machine

/-- One Gikan. -/
structure Gikan where
  /-- time since power-on by REFCLK_SYS, in ns; the model's clock for the timers that are not in fabric time -/
  now : Nat
  /-- the model's own: how many free values have been taken; no statement rests on it -/
  draw : Nat
  /-- every BAR0 register field that does not hold its reset value, by the field's key; an unlisted field holds its reset value -/
  csr : Tbl Nat
  /-- the bytes of the extents homed here, by naming fabric address; an unlisted byte is 0 (stamped, R96) -/
  mem : List Host.Cell
  /-- the units that hold data without the poison signature, by the address of their first byte: 32 B in Mode S, one byte in Mode B
  (R94); a unit that is not listed is poisoned, as stamping leaves it -/
  clean : List Nat
  /-- symbols in error of a stored unit (R90, R104), by the address of its first byte -/
  bad : Tbl Nat
  out : List Out
  pins : Pins
  tick : TickSt
  eng : EngSt
  req : ReqSt
  map : MapSt
  stk : StkSt
  tier : TierSt
  coh : CohSt
  xbar : XbarSt
  lnk : Tbl PortLnk
  red : RedSt
  gfs : GfsSt
  cmp : CmpSt
  pin : PinSt
  sub : SubSt
  sec : SecSt
  flt : FltSt
  pwr : PwrSt
  mgt : MgtSt
  deriving DecidableEq, Repr

/-- The block: the Gikan and its waiting commands, first in, first out. -/
structure State where
  pending : List Instr
  g : Gikan
  deriving DecidableEq, Repr

/-- Ways a step could stop with a fault. -/
inductive Fault where
  /-- No meaning raises it: every command of the table has an effect that the manual gives, and every access the manual calls absent is
  answered with a code or with zeros (R3, R34). Safe. -/
  | none
  deriving DecidableEq, Repr

/-- Ways a step could refuse. -/
inductive Refusal where
  /-- Raised by an arm of `exec` for a command that has no meaning yet, which it names. Safe: nothing is claimed of it. -/
  | notModelled (mnemonic : String)
  deriving DecidableEq, Repr

/-! The state right after reset (R372, and the reset columns of the register tables) -/

def TickSt.reset : TickSt where
  sub := 0
  slew := 0
  base := 0
  baseTick := 0
  good := 0
  goodSplit := 0
  startAt := none
  parent := none
  lastExch := none
  req := none
  exchNo := 0
  sentAt := none
  timeSet := some 0
  late := false
  gap := none
  refNext := none

def TierSt.reset : TierSt where
  pages := []
  budget := []
  asked := false
  want := []
  stall := []
  stalled := []
  sched := []
  nextSched := []
  xstall := []
  loans := []
  lentOut := []
  reclaims := []
  copyA := []
  copyB := []
  domFree := []
  lastCopy := none
  lastStatus := none
  pressure := 0
  seen := []
  seenBy := []
  seenLast := []
  seenByLast := []
  lastDecay := none
  badBlocks := []
  erases := []
  reads := []
  openBlocks := []
  reloc := []
  thresh := []

def CohSt.reset : CohSt where
  agents := []
  dead := []
  dir := []
  txns := []
  recalled := []
  recalling := none
  sweep := none
  sweepLost := 0
  sweepWait := []
  cache := []
  want := []
  who := []

def XbarSt.reset : XbarSt where
  voq := []
  inbox := []
  tx := []
  grantPtr := []
  acceptPtr := []
  deficit := []
  tokens := []
  gates := []
  gateAt := []
  backlog := []
  sampledAt := none
  qwin := []
  qwait := false

def SubSt.reset : SubSt where
  kws := []
  cqs := []
  mqs := []
  asids := []
  walks := []
  waiting := []
  frames := []
  hostMem := []
  inval := none

def SpdmSt.reset : SpdmSt := ⟨0, false, false, none⟩

def SecSt.reset : SecSt where
  masks := []
  wardTick := 0
  wardAlarm := false
  view := []
  viewBase := []
  viewed := []
  scrub := none
  cleared := []
  spdmA := SpdmSt.reset
  spdmB := SpdmSt.reset
  lmsSeq := 0
  lmsNext := 0
  lmsUse := 0

def FltSt.reset : FltSt where
  syn := []
  corrected := []
  contained := []
  fatal := []
  notice := none
  ibi := []
  samples := []
  checkLog := []
  mismatch := []
  miscompare := []
  token := []
  live := []
  done := []
  monLeft := []
  fecTick := []

def PwrSt.reset : PwrSt where
  temps := []
  tPower := 64
  tTherm := 64
  shed := false
  lowerAt := 0
  raiseAt := 0
  minSince := none
  hot := []
  margin := []
  avs := []
  avsAt := []
  avsHeld := []
  throttleNs := 0
  idle := [0, 0, 0]
  wasIdle := false
  work := []
  exitTo := 0

def MgtSt.reset : MgtSt where
  portA := PciePort.reset
  portB := PciePort.reset
  slot0 := none
  slot1 := none
  cfg := none
  applied := none
  holdMs := 0
  stampedAt := none
  upd := none
  leaseAt := 0
  lapsed := false
  i3cOff := 0

/-- A Gikan that has just been reset: every register field at its reset value (its table lists none), nothing stored, nothing waiting,
phase BOOT_ROM. The values that the manual leaves to the part are those of the log: fuses and straps 0, SEQ_IN high, boot flash blank. -/
def Gikan.reset : Gikan where
  now := 0
  draw := 0
  csr := []
  mem := []
  clean := []
  bad := []
  out := []
  pins := ⟨false, false⟩
  tick := TickSt.reset
  eng := ⟨[], 0, [], [], false⟩
  req := ⟨[], [], [], [], [], [], [], 1, 0⟩
  map := ⟨MapTab.empty, MapTab.empty, MapTab.empty, [0, 0, 0], 0, 0, 0, none, [], [], []⟩
  stk := ⟨[], [], [], [], [], [], []⟩
  tier := TierSt.reset
  coh := CohSt.reset
  xbar := XbarSt.reset
  lnk := []
  red := ⟨[], []⟩
  gfs := ⟨[]⟩
  cmp := ⟨[], none, none, 0, []⟩
  pin := ⟨[], [], [], none, none, [], [], 1⟩
  sub := SubSt.reset
  sec := SecSt.reset
  flt := FltSt.reset
  pwr := PwrSt.reset
  mgt := MgtSt.reset

/-- The block right after reset: no command waits. -/
def State.reset : State := ⟨[], Gikan.reset⟩

end Sys2Proof.Machine
end

