-- ==== Sys2Proof/Machine/Answer.lean ====
section
/-!
DEFINITION. How a command's meaning answers: with a next state in which the Gikan has changed and the queue of waiting commands has not.
-/

namespace Sys2Proof.Machine

/-- The outcome of a command that changes the Gikan and nothing else. -/
def State.done (s : State) (g : Gikan) : Host.Outcome State Fault Refusal := .next { s with g := g }

end Sys2Proof.Machine
end

