-- ==== Sys2Proof/Config.lean ====
section
/-!
DEFINITION. What the manual leaves open. Every constant here is opaque: it has no body that Lean can see, so no statement can rest on a
value of it. Each docstring names the rule that leaves the value open; the assumption log says so too.
-/

namespace Sys2Proof.Config

/-- R68: which of the usable ports a request with this SRC and TAG takes (the hash is not given); taken modulo the number of usable
ports. -/
opaque spread : Nat → Nat → Nat

/-- R18: the slew, in ppm, that the time servo's own filter asks for after an exchange (draw, offset in 1/256 ns); the meaning
clamps it to the limit that R18 gives. -/
opaque slew : Nat → Int → Int

/-- R58: whether a record that may be evicted is gone already (draw). -/
opaque evicted : Nat → Bool

/-- R160, R244, CSR 10: the stochastic-rounding generator (its kind is not given): from a state, the random bits and the next state. -/
opaque randBits : Nat → Nat
opaque randNext : Nat → Nat

/-- R160: the state that a lane's generator is seeded with from SEED, STREAM, ROUND and CHUNK. -/
opaque randSeed : Nat → Nat → Nat → Nat → Nat

/-- R347: a unit's 16-bit sampling draw (the generator is not given). -/
opaque sampleDraw : Nat → Nat

/-- R90: whether the decoder detects an error in more than two symbols of a Mode S codeword (draw, number of symbols). -/
opaque detects : Nat → Nat → Bool

/-- R90: a byte of a codeword whose error passed undetected (draw, byte position). -/
opaque undetectedByte : Nat → Nat → Byte

/-- R90: whether the decoder takes an error in more than two symbols that it does not detect for an error in one symbol (draw). -/
opaque miscorrects : Nat → Bool

/-- R92, R101: the first of the byte units in error that share one DRAM codeword of a Mode B page (draw); taken modulo 32. -/
opaque errorByte : Nat → Nat

/-- R144: the set of the directory cache that a line falls in; taken modulo 65,536. -/
opaque dirSet : Nat → Nat

/-- R101: the first granule row of the DRAM row that holds a granule row (the size of a DRAM row is not given). -/
opaque rowFirst : Nat → Nat

/-- R133: what the parameter page of a target of the tray's flash gives (channel, target): 0 when there is no target; else page bytes in bits
15–0, spare bytes in 31–16, pages per block in 47–32, planes in 55–48, LUNs in 63–56, blocks per plane in 79–64. -/
opaque flashPage : Nat → Nat → Nat

/-- R134: the block that holds a flash page of a demoted page (the free value of its demotion, flash page 0 to 2,047); taken modulo the number
of blocks. -/
opaque flashBlock : Nat → Nat → Nat

/-- R135: target, LUN and plane of a block, as one number; whether the read-threshold loop steps a set up or down (draw). -/
opaque flashSet : Nat → Nat
opaque threshUp : Nat → Bool

/-- R134: flash pages of a block that hold data still when it is relocated (draw); taken modulo one more than its pages. -/
opaque validPages : Nat → Nat

/-- R111: stalled ACLK cycles of a work item divided by 1,024 (draw): durations are not modelled. -/
opaque stallK : Nat → Nat

/-- R210: whether a work item waited for expanded data or key data otherwise than for a page, and for what (draw); taken modulo 4. -/
opaque waitCause : Nat → Nat

/-- R98, R108: which of the free stamped frames an allocation takes (draw); taken modulo their number. -/
opaque framePick : Nat → Nat

/-- R281, R283: symbols that FEC corrected on a lane in a received flit (draw, lane): the commands carry flits as decoded. -/
opaque fecCorrected : Nat → Nat → Nat

/-- R56: which of the free tags a requester takes (draw); taken modulo their number. -/
opaque tagPick : Nat → Nat

/-- R254, R334: SHA-384 of a byte string, as a number of 384 bits (FIPS 180-4, which the manual names and does not restate). -/
opaque sha384 : List Byte → Nat

/-- R331: ECDSA P-384 verification (public key bytes, message hash, signature bytes). -/
opaque ecdsaVerify : List Byte → Nat → List Byte → Bool

/-- R331: LMS verification under RFC 8554 (public key bytes, message, signature bytes). -/
opaque lmsVerify : List Byte → List Byte → List Byte → Bool

/-- R332: the fused SHA-384 of a key slot: kind 0 ECDSA, 1 LMS; slot. -/
opaque fusedKeyHash : Nat → Nat → Nat

/-- R335: the Alias-key ECDSA signature over a 48-byte hash (draw, hash). -/
opaque aliasSign : Nat → Nat → List Byte

/-- R337: the LMS signature over a 48-byte hash at a leaf index. -/
opaque lmsSign : Nat → Nat → List Byte

/-- GLB_FW, GLB_COMPAT: the version of a firmware image and the range of partner versions it accepts, by its DIGEST (where they stand in the
image is not given). -/
opaque fwVersion : Nat → Nat
opaque fwMin : Nat → Nat
opaque fwMax : Nat → Nat

/-- R334: the SHA-384 of the DeviceID public key derived from the fused secret. -/
opaque deviceIdHash : Nat → Nat

/-- R335: bytes of an SPDM response whose form the SPDM standard gives and the manual does not restate (request code, draw). -/
opaque spdmBytes : Nat → Nat → List Byte

/-- R386: what GETPID, GETBCR and GETDCR return; the manual names the commands and does not give the values. -/
opaque i3cPid : Nat
opaque i3cBcr : Nat
opaque i3cDcr : Nat

/-- R386: the GETSTATUS word (draw): MIPI I3C Basic gives its form, the manual does not restate it. -/
opaque i3cStatus : Nat → Nat

/-- R363: the fused core-voltage setpoint in millivolts for rail 0 or 1 (set for each part, not published). -/
opaque fusedSetpoint : Nat → Nat

/-- R14: which of the six engine ports a request of the Gikan's own engines leaves by (draw); taken modulo 6. -/
opaque enginePort : Nat → Nat


/-- R102, R252: free bits for a value the manual states nowhere (draw). -/
opaque openValue : Nat → Nat

end Sys2Proof.Config
end

