-- ==== Sys2Proof/Machine/Ops.lean ====
section
/-!
DEFINITION. The named operations under every meaning: register fields (R2 to R6), what leaves the part, free values, time, the node's own
number, and the gate that every BAR0 write passes (R345, R373, R385, R389).
-/

namespace Sys2Proof.Machine

/-! Register fields -/

/-- The value a field holds. -/
def Gikan.get (g : Gikan) (f : Fld) : Nat := g.csr.getD f.key f.rst

/-- Put a value into a field, cut to its width. -/
def Gikan.set (g : Gikan) (f : Fld) (v : Nat) : Gikan := { g with csr := g.csr.setD f.key f.rst (v % 2 ^ f.wid) }

/-- Whether a one-bit field is set. -/
def Gikan.on (g : Gikan) (f : Fld) : Bool := g.get f != 0

/-- Set or clear a one-bit field. -/
def Gikan.setB (g : Gikan) (f : Fld) (b : Bool) : Gikan := g.set f (if b then 1 else 0)

/-- Count `k` in a saturating counter. -/
def Gikan.inc (g : Gikan) (f : Fld) (k : Nat) : Gikan := g.set f (satAdd f.wid (g.get f) k)

/-- Bit `i` of a field. -/
def Gikan.bitOf (g : Gikan) (f : Fld) (i : Nat) : Bool := (g.get f).testBit i

/-- The BAR0 offset of the register that holds a field. -/
def offOf (f : Fld) : Nat := f.key / 64 * 8

/-- Set bit `i` of a field. -/
def Gikan.setBitOf (g : Gikan) (f : Fld) (i : Nat) : Gikan := g.set f (setBit (g.get f) i)

/-- Set or clear bit `i` of a field. -/
def Gikan.putBitOf (g : Gikan) (f : Fld) (i : Nat) (b : Bool) : Gikan := g.set f (putBit (g.get f) i b)

/-- Clear a list of counters. -/
def Gikan.clear (g : Gikan) (fs : List Fld) : Gikan := fs.foldl (fun h f => h.set f 0) g

/-! Outputs and free values -/

/-- Send something out. -/
def Gikan.emit (g : Gikan) (o : Out) : Gikan := { g with out := g.out ++ [o] }

/-- Take a free value: the number to apply an opaque constant to, and the state after it was taken. -/
def Gikan.next (g : Gikan) : Nat × Gikan := (g.draw, { g with draw := g.draw + 1 })

/-! What a tenant can measure (R328) -/

/-- Count for a compartment's view record (R328). -/
def Gikan.viewed (g : Gikan) (c : Nat) (f : View → View) : Gikan :=
  { g with sec := { g.sec with view := g.sec.view.setD c View.zero (f (g.sec.view.getD c View.zero)) } }

/-- One item of a compartment admitted; one overrun; one stall. -/
def View.item (v : View) : View := { v with items := v.items + 1 }
def View.overrun (v : View) : View := { v with overruns := v.overruns + 1 }
def View.stall (v : View) : View := { v with stalls := v.stalls + 1 }

/-! Phase and time -/

/-- The phase of R373. -/
def Gikan.phase (g : Gikan) : Nat := g.get F.MGT_STATUS_PHASE

/-- In the Hasp state (R344). -/
def Gikan.hasp (g : Gikan) : Bool := g.phase == 7

/-- After the seal (R381): SEALED, or the Hasp state entered from it. -/
def Gikan.sealed (g : Gikan) : Bool := g.on F.MGT_SEAL_SEALED

/-- Fabric time in ns. -/
def Gikan.time (g : Gikan) : Nat := g.get F.TICK_TIME_TIME_NS

/-- Current tick number. -/
def Gikan.tickNo (g : Gikan) : Nat := g.get F.TICK_COUNT_TICK

/-- Whether ticks run. -/
def Gikan.running (g : Gikan) : Bool := g.on F.TICK_STATUS_RUNNING

/-- The tick period in ns. -/
def Gikan.periodNs (g : Gikan) : Nat := 1000 * g.get F.TICK_PERIOD_PERIOD_US

/-- The node number in force (R388). -/
def Gikan.node (g : Gikan) : Nat := g.get F.GLB_NODE_CURRENT

/-- Time in whole and 1/256 ns as a timestamp. -/
def Gikan.stamp256 (g : Gikan) : Nat := 256 * g.time + 256 * g.tick.sub / 1000000

/-! Wake domains (R358, R360) -/

/-- Whether the power state in force delays a domain: 0 ENGINE, 1 MEMORY, 2 FORWARD. -/
def Gikan.delays (g : Gikan) (d : Nat) : Bool := decide (d < g.get F.PWR_STATE_STATE)

/-- Work of a domain has arrived in this tick (R359). -/
def Gikan.arrivedWork (g : Gikan) (d : Nat) : Gikan := { g with pwr := { g.pwr with work := insNat g.pwr.work d } }

/-! Register writes -/

/-- The bits of a register that a write covers. -/
def halfMask : Half → Nat
  | .full => 2 ^ 64 - 1
  | .low => 2 ^ 32 - 1
  | .high => (2 ^ 32 - 1) <<< 32

/-- The value that a write puts into the bits of a field, in field position; and the mask of the field's bits it covers. -/
def wrField (w : RegW) (f : Fld) : Nat × Nat :=
  let lo := f.key % 64
  (bits w.data.toNat lo f.wid, bits (halfMask w.half) lo f.wid)

/-- Whether the write sets a one-bit field to 1. -/
def wrOne (w : RegW) (f : Fld) : Bool :=
  let (v, m) := wrField w f
  (v &&& m) != 0

/-- The value the whole field takes from a write (bits not covered keep what they hold). -/
def Gikan.wrValue (g : Gikan) (w : RegW) (f : Fld) : Nat :=
  let (v, m) := wrField w f
  let old := g.get f
  (v &&& m) ||| (old - (old &&& m))

/-- Whether the write covers any bit of the field. -/
def wrCovers (w : RegW) (f : Fld) : Bool := (wrField w f).2 != 0

/-- A field under a write (R4). -/
def Gikan.putField (g : Gikan) (w : RegW) (f : Fld) : Gikan :=
  let (v, m) := wrField w f
  let old := g.get f
  match f.acc with
  | .ro => g
  | .rw => g.set f (g.wrValue w f)
  | .w1c => g.set f (old - (old &&& (v &&& m)))
  | .wo => g
  | .rws => if g.sealed then g else g.set f (g.wrValue w f)

/-- Whether a write after the seal would change a read-only-by-seal field (R381). -/
def Gikan.rwsChange (g : Gikan) (w : RegW) (fs : List Fld) : Bool :=
  fs.any (fun f => f.acc == .rws && g.wrValue w f != g.get f)

/-- The fields of one register under a write, with the count of R381. -/
def Gikan.putFields (g : Gikan) (w : RegW) (off : Nat) (fs : List Fld) : Gikan :=
  let g1 := if g.sealed && g.rwsChange w fs then
      (g.inc F.MGT_SEAL_RWS_WRITES 1).set F.MGT_SEAL_LAST_OFFSET off
    else g
  fs.foldl (fun h f => h.putField w f) g1

/-- The register at an 8-byte aligned offset: the descriptor, and the place in its dimensions. -/
def regHit (d : RegDesc) (off : Nat) : Option (Nat × Nat) :=
  if off < d.base then none else
  let o := off - d.base
  match d.dims with
  | [] => if o = 0 then some (0, 0) else none
  | [(n, s)] => if o % s = 0 ∧ o / s < n then some (o / s, 0) else none
  | (n, s) :: (m, t) :: _ =>
    let i := o / s
    let r := o % s
    if i < n ∧ r % t = 0 ∧ r / t < m then some (i, r / t) else none

/-- The fields of the register at an offset, if one is assigned there (R3). -/
def regAt : List RegDesc → Nat → Option (List Fld)
  | [], _ => none
  | d :: ds, off =>
    match regHit d off with
    | some (i, j) => some (d.fields i j)
    | none => regAt ds off

/-- BAR0 block of an offset (the block map of chapter 18). -/
def blockOf (off : Nat) : Nat := off / 0x100000

/-- GLB, FLT and MGT, which stay readable in every phase (R345, R373). -/
def mgmtBlock (off : Nat) : Bool := blockOf off == 0 || blockOf off == 1 || blockOf off == 0x11

/-- Registers that an I3C write may reach (R389): LNK_LASER_REQ, W1C bits of FLT, FLT_NOTIFY and MGT_RESET. -/
def i3cMay (off : Nat) : Bool :=
  (List.range 4).any (fun t => off == offOf (F.LNK_LASER_REQ_CHANGED t 0)) || off == offOf F.FLT_NOTIFY_VECTOR || off == offOf F.MGT_RESET_KEY ||
  (blockOf off == 1 && (match regAt regTable off with | some fs => fs.any (fun f => f.acc == .w1c) | none => false))

/-- Whether a write by this bus holds ownership (R385). -/
def Gikan.owns (g : Gikan) (b : Bus) : Bool :=
  match b with
  | .pcieA => g.get F.MGT_OWNER_HOLDER == 1
  | .pcieB => g.get F.MGT_OWNER_HOLDER == 2
  | .i3c => true

/-- Writes that ENFORCE lets through (R385): MGT_OWNER, W1C bits of FLT, the update function. -/
def enforceFree (off : Nat) : Bool :=
  off == offOf F.MGT_OWNER_CLAIM || off == offOf F.MGT_UPD_SRC_ADDR || off == offOf F.MGT_UPD_GO ||
  (blockOf off == 1 && (match regAt regTable off with | some fs => fs.any (fun f => f.acc == .w1c) | none => false))

/-- What becomes of a BAR0 write before it reaches its register: taken, without effect, dropped by ENFORCE, or refused from I3C. -/
inductive Gate where
  | pass | none | dropped | i3cRefused
  deriving DecidableEq, Repr

/-- The gate (R345: no PCIe write in the Hasp state; R373: only GLB, FLT and MGT before CONFIG; R385; R389). -/
def Gikan.gate (g : Gikan) (b : Bus) (off : Nat) : Gate :=
  match b with
  | .i3c => if i3cMay off then .pass else .i3cRefused
  | _ =>
    if g.hasp then .none
    else if decide (g.phase ≤ 1) && !mgmtBlock off then .none
    else if g.on F.MGT_OWNER_ENFORCE && !g.owns b && !enforceFree off then .dropped
    else .pass

/-- Pass a write through the gate to what it does. -/
def Gikan.gated (g : Gikan) (b : Bus) (off : Nat) (f : Gikan → Gikan) : Gikan :=
  match g.gate b off with
  | .pass => f g
  | .none => g
  | .dropped => g.inc F.MGT_OWNER_DROPPED 1
  | .i3cRefused => g.inc F.MGT_I3C_REFUSED 1

/-- Bits that an I3C or unowned write may change are the W1C bits alone in the FLT block, but for FLT_NOTIFY (R385, R389). -/
def w1cOnly (g : Gikan) (b : Bus) (off : Nat) : Bool :=
  blockOf off == 1 &&
  (match b with
   | .i3c => off != offOf F.FLT_NOTIFY_VECTOR
   | _ => g.on F.MGT_OWNER_ENFORCE && !g.owns b)

/-- A write with its trigger bit at 1: the rows that name a bit stand for the writes that set it. -/
def trig (w : RegW) (f : Fld) : RegW :=
  let lo := f.key % 64
  let half := if (halfMask w.half).testBit lo then w.half else .full
  ⟨w.bus, half, w.data ||| BitVec.ofNat 64 (2 ^ lo)⟩

end Sys2Proof.Machine
end

