-- ==== Sys2Proof/Machine/Flags.lean ====
section
/-!
DEFINITION. Status and flags: the MSI-X message (R383), the in-band interrupt (R390), and the fault collector's one shared operation, which
every rule that logs a fault calls (R339 to R345).
-/

namespace Sys2Proof.Machine

/-! PCIe messages -/

/-- A side's PCIe port. -/
def Gikan.port (g : Gikan) : Side → PciePort
  | .a => g.mgt.portA
  | .b => g.mgt.portB

/-- Change a side's PCIe port. -/
def Gikan.setPort (g : Gikan) (s : Side) (p : PciePort) : Gikan :=
  match s with
  | .a => { g with mgt := { g.mgt with portA := p } }
  | .b => { g with mgt := { g.mgt with portB := p } }

/-- A word of a port's MSI-X table; after reset every vector is masked (PCIe: the Vector Control mask bit is 1). -/
def msixWord (p : PciePort) (n : Nat) : Nat := p.table.getD n (if n % 2 = 1 then 2 ^ 32 else 0)

/-- Whether a vector's mask bit, the function mask or D3hot holds its messages back. -/
def msixMasked (p : PciePort) (v : Nat) : Bool := p.fmask || p.d3 || (msixWord p (2 * v + 1)).testBit 32

/-- The message of a vector. -/
def msixOut (s : Side) (p : PciePort) (v : Nat) : Out :=
  .msix s v (msixWord p (2 * v)) (bits (msixWord p (2 * v + 1)) 0 32)

/-- Send a vector's message on a port: dropped while its link is down, left pending while masked (R383). -/
def Gikan.msix (g : Gikan) (s : Side) (v : Nat) : Gikan :=
  let p := g.port s
  if !p.up then g
  else if msixMasked p v then g.setPort s { p with pend := insNat p.pend v }
  else g.emit (msixOut s p v)

/-- Send the pending messages that nothing holds back any more. -/
def Gikan.msixRelease (g : Gikan) (s : Side) : Gikan :=
  let p := g.port s
  if !p.up then g else
  let (held, free) := p.pend.partition (fun v => msixMasked p v)
  free.foldl (fun h v => h.emit (msixOut s p v)) (g.setPort s { p with pend := held })

/-! Sharing of notices within a tick -/

/-- The span of time that a notice or interrupt covers: the tick, or before ticks run the present instant (R340, R390). -/
def Gikan.span (g : Gikan) : Bool × Nat := if g.running then (true, g.tickNo) else (false, g.now)

/-- Raise an in-band interrupt of a kind, once in a tick (R390). -/
def Gikan.ibi (g : Gikan) (mdb : Nat) : Gikan :=
  if !g.on F.MGT_I3C_IBI_ENABLED then g
  else if g.flt.ibi.get? mdb = some g.span then g
  else ({ g with flt := { g.flt with ibi := g.flt.ibi.put mdb g.span } }.inc F.MGT_I3C_IBIS 1).emit (.ibi mdb)

/-- One notice of R340: a message on each enabled port, and an interrupt when IBI_EN is set. -/
def Gikan.sendNotice (g : Gikan) : Gikan :=
  let v := g.get F.FLT_NOTIFY_VECTOR
  let g := if g.on F.FLT_NOTIFY_EN_A then g.msix .a v else g
  let g := if g.on F.FLT_NOTIFY_EN_B then g.msix .b v else g
  if g.on F.FLT_NOTIFY_IBI_EN then g.ibi 1 else g

/-- A notice that its tick may share (R340: corrected and contained events). -/
def Gikan.notice (g : Gikan) : Gikan :=
  if g.flt.notice = some g.span then g
  else { g.sendNotice with flt := { g.sendNotice.flt with notice := some g.span } }

/-! The collector -/

/-- The syndrome a group holds. -/
def Gikan.syn (g : Gikan) (n : Nat) : Syn := g.flt.syn.getD n Syn.none

/-- Record the syndrome of a contained (2) or fatal (3) event (R341). -/
def Gikan.recordSyn (g : Gikan) (n cls reg unit : Nat) : Gikan :=
  let s := g.syn n
  let t : Syn :=
    if !s.valid then ⟨true, s.overflow, cls, reg, unit, g.time⟩
    else if cls == 3 && s.cls == 2 then ⟨true, true, cls, reg, unit, g.time⟩
    else { s with overflow := true }
  { g with flt := { g.flt with syn := g.flt.syn.setD n Syn.none t } }

/-- The syndrome data word of a group (FLT_SYN_DATA0). -/
def synWord (s : Syn) : Nat :=
  (if s.valid then 1 else 0) + (if s.overflow then 2 else 0) + s.cls * 2 ^ 2 + (s.reg % 2 ^ 26) * 2 ^ 4 + (s.unit % 2 ^ 16) * 2 ^ 30

/-- Count `k` events of a class for a group. -/
def Gikan.countFault (g : Gikan) (c : FClass) (n k : Nat) : Gikan :=
  let f := g.flt
  match c with
  | .corrected => { g with flt := { f with corrected := f.corrected.setD n 0 (satAdd 32 (f.corrected.getD n 0) k) } }
  | .contained => { g with flt := { f with contained := f.contained.setD n 0 (satAdd 16 (f.contained.getD n 0) k) } }
  | .fatal => { g with flt := { f with fatal := f.fatal.setD n 0 (satAdd 16 (f.fatal.getD n 0) k) } }

/-- The Fault Word, contained and fatal bits of a group, at entry to the Hasp state. -/
def Gikan.haspGroups (g : Gikan) (n : Nat) : Gikan :=
  ((g.setBitOf (F.FLT_WORDS_GROUPS 0) n).setBitOf (F.FLT_WORDS_GROUPS 1) n).setBitOf F.FLT_FATAL_GROUPS n

/-- FLT_HASP0 to FLT_HASP3: cause, group, time, Fault Word and syndrome (R344). -/
def Gikan.haspRecord (g : Gikan) (cause n : Nat) : Gikan :=
  (((((g.set F.FLT_HASP0_VALID 1).set F.FLT_HASP0_CAUSE cause).set F.FLT_HASP0_GROUP n).set (F.FLT_HASPN_WORD 0) g.time).set
    (F.FLT_HASPN_WORD 1) (g.get (F.FLT_WORDS_GROUPS 0))).set (F.FLT_HASPN_WORD 2) (synWord (g.syn n))

/-- Entry to the Hasp state (R344): the record, PHASE 7, the one notice of its own (R340) and the interrupt of R390. Framed units stop
admitting and running items write nothing further: every command that would admit or end work tests `hasp`. -/
def Gikan.enterHasp (g : Gikan) (cause n : Nat) : Gikan :=
  ((((g.haspGroups n).haspRecord cause n).set F.MGT_STATUS_PHASE 7).sendNotice).ibi 4

/-- Whether a clear Fault Word bit that this event sets calls for a notice (R340). -/
def Gikan.notifies (g : Gikan) (c : FClass) (n : Nat) : Bool :=
  match c with
  | .corrected => g.bitOf (F.FLT_NOTIFY_MASK_MASK 0) n
  | .contained => g.bitOf (F.FLT_NOTIFY_MASK_MASK 1) n
  | .fatal => false

/-- An event on an error line of group `n`: a class, the unit, the register that holds the detail, and how many more events of the
class the block presents with it (R339 to R344). After entry to the Hasp state it is counted and FLT_WORD is set (R343). -/
def Gikan.fault (g : Gikan) (c : FClass) (n unit reg others : Nat) : Gikan :=
  let fresh := !g.bitOf (F.FLT_WORDS_GROUPS 0) n
  let was := g.hasp
  let g := (g.setBitOf (F.FLT_WORDS_GROUPS 0) n).countFault c n (1 + others)
  let g := match c with
    | .corrected => g
    | .contained => (g.setBitOf ((F.FLT_WORDS_GROUPS 1)) n).recordSyn n 2 reg unit
    | .fatal => (((g.setBitOf ((F.FLT_WORDS_GROUPS 1)) n).setBitOf F.FLT_FATAL_GROUPS n)).recordSyn n 3 reg unit
  let g := if others = 0 then g else match c with
    | .corrected => g
    | .contained => g.recordSyn n 2 reg unit
    | .fatal => g.recordSyn n 3 reg unit
  if was then g
  else match c with
    | .fatal => g.enterHasp 1 n
    | _ => if fresh && g.notifies c n then g.notice else g

/-- A contained or fatal event whose unit within the group the manual does not state: the unit is a free value. -/
def Gikan.faultOpen (g : Gikan) (c : FClass) (n units reg : Nat) : Gikan :=
  let (d, g) := g.next
  g.fault c n (Config.openValue d % units) reg 0

/-- A corrected event. -/
def Gikan.corrected (g : Gikan) (n unit reg : Nat) : Gikan := g.fault .corrected n unit reg 0

/-- A contained event. -/
def Gikan.contained (g : Gikan) (n unit reg : Nat) : Gikan := g.fault .contained n unit reg 0

/-- A fatal event. -/
def Gikan.fatal (g : Gikan) (n unit reg : Nat) : Gikan := g.fault .fatal n unit reg 0

/-- Fault Word groups, as the manual numbers them (the faults chapter and R341). -/
abbrev grpPort (p : Nat) : Nat := p
abbrev grpTile (t : Nat) : Nat := 32 + t
abbrev grpStack (h : Nat) : Nat := 36 + h

end Sys2Proof.Machine
end

