-- ==== Sys2Proof/Machine/Operands.lean ====
section
/-!
DEFINITION. Operand forms: the layouts of request and response packets (R37, R38), the type-specific bodies (R43 to R50, R81, R127,
R140), the type table (R39), status codes (R7), and the fields of addresses (fabric addresses, R34, R35).
-/

namespace Sys2Proof.Machine

/-! Status codes (R7) -/

abbrev stOK : Nat := 0x00
abbrev stSTALE : Nat := 0x01
abbrev stREVOKED : Nat := 0x02
abbrev stWARD : Nat := 0x03
abbrev stLENGTH : Nat := 0x04
abbrev stPOISONED : Nat := 0x05
abbrev stCONFLICT : Nat := 0x06
abbrev stSTALEV : Nat := 0x07
abbrev stABORT : Nat := 0x08
abbrev stTIMEOUT : Nat := 0x09
abbrev stNOTPRES : Nat := 0x0A
abbrev stBUSY : Nat := 0x0B
abbrev stUNSUP : Nat := 0x0C
abbrev stHASP : Nat := 0x0D
abbrev stQUAR : Nat := 0x0E
abbrev stSPLIT : Nat := 0x0F

/-! Fabric addresses -/

/-- The node number of a fabric address. -/
def addrNode (a : Nat) : Nat := bits a 48 16

/-- The offset of a fabric address. -/
def addrOff (a : Nat) : Nat := bits a 0 48

/-- A fabric address. -/
def mkAddr (node off : Nat) : Nat := node * 2 ^ 48 + off % 2 ^ 48

/-- Assignable node numbers (R34). -/
def assignable (n : Nat) : Bool := decide (n < 0x4000)

/-! Request types (R39, R81, R127, R141) -/

abbrev tyREAD : Nat := 0x01
abbrev tyWRITE : Nat := 0x02
abbrev tyATOMIC : Nat := 0x03
abbrev tyTRIGGER : Nat := 0x04
abbrev tyCONTRIB : Nat := 0x05
abbrev tyGATHER : Nat := 0x06
abbrev tyFILTER : Nat := 0x07
abbrev tySCORE : Nat := 0x08
abbrev tyFENCE : Nat := 0x09
abbrev tyMSG : Nat := 0x0A
abbrev tyLEND : Nat := 0x0B
abbrev tyRECLAIM : Nat := 0x0C
abbrev tyPUBLISH : Nat := 0x0D
abbrev tyRDSHARED : Nat := 0x20
abbrev tyRDOWN : Nat := 0x21
abbrev tyUPGRADE : Nat := 0x22
abbrev tyWBDIRTY : Nat := 0x23
abbrev tyCOMPLETE : Nat := 0x24
abbrev tySNPRSP : Nat := 0x30
abbrev tyHANDOVER : Nat := 0x40
abbrev tyREVERT : Nat := 0x41
abbrev tyHOMECOPY : Nat := 0x42
abbrev tyHOMELINE : Nat := 0x43
abbrev tyCOPYDONE : Nat := 0x44
abbrev tyCOPYCANCEL : Nat := 0x45
abbrev tyDOMAIN : Nat := 0x46

/-- A coherence type (R39). -/
def isCohType (t : Nat) : Bool := decide (0x20 ≤ t ∧ t ≤ 0x3F)

/-- A control type of R81 and R127. -/
def isCtlType (t : Nat) : Bool := decide (0x40 ≤ t ∧ t ≤ 0x46)

/-- Bytes of the type-specific body (R39, R81, R127, R140). -/
def bodySize (t : Nat) : Nat :=
  match t with
  | 0x03 => 32
  | 0x04 => 8
  | 0x05 => 16
  | 0x06 => 16
  | 0x07 => 16
  | 0x08 => 16
  | 0x0A => 8
  | 0x0B => 16
  | 0x0C => 16
  | 0x0D => 8
  | _ => if isCohType t || isCtlType t then 16 else 0

/-- Non-idempotent types (R39). -/
def nonIdem (t : Nat) : Bool := t == 0x03 || t == 0x04 || t == 0x05 || t == 0x0A || t == 0x0D

/-- The class a request of the type travels on (R39); READ and WRITE take TC2 or TC3. -/
def tcAllowed (t tc : Nat) : Bool :=
  match t with
  | 0x01 => tc == 2 || tc == 3
  | 0x02 => tc == 2 || tc == 3
  | 0x03 => tc == 2
  | 0x04 => tc == 2
  | 0x05 => tc == 4
  | 0x06 => tc == 2
  | 0x07 => tc == 2
  | 0x08 => tc == 2
  | 0x09 => tc == 2
  | 0x0A => tc == 7
  | 0x0B => tc == 6
  | 0x0C => tc == 6
  | 0x0D => tc == 3
  | _ => if isCohType t then tc == 1 else if isCtlType t then tc == 0 else false

/-- The class of a type's response (R39); the control types answer on TC0. -/
def respTc (q : Req) : Nat :=
  match q.hdr.type with
  | 0x06 => 5
  | 0x07 => 5
  | 0x08 => 5
  | _ => q.hdr.tc

/-- Node-addressed types (R41, R81, R127): the coherence messages not addressed to a line at its home are node-addressed too (R140). -/
def nodeAddressed (q : Req) : Bool :=
  let t := q.hdr.type
  t == tyFENCE || t == tyMSG || t == tyLEND || t == tyRECLAIM || isCtlType t ||
  (t == tyTRIGGER && field q.body 0 2 == 0xFFFF) ||
  (isCohType t && !(decide (t ≤ tyCOMPLETE) || t == tySNPRSP))

/-- Whether a type may go beyond the first stage in Near reach (R39, R54). -/
def beyondFirst (q : Req) : Bool :=
  let h := q.hdr
  ((h.type == tyREAD || h.type == tyWRITE) && h.mov == 1 && h.tc == 3) || h.type == tyFENCE || h.type == tyMSG || isCtlType h.type

/-! Packing -/

/-- The 32 header bytes of R37. -/
def encodeHdr (h : Hdr) : List Byte :=
  leBytes 1 h.type ++ leBytes 1 (h.dup + 2 * h.retry + 4 * h.mov + 8 * h.rsv1) ++ leBytes 1 (h.tc + 8 * h.rsv2) ++
  leBytes 1 (h.cmpt + 16 * h.rsv3) ++ leBytes 2 h.tag ++ leBytes 2 h.src ++ leBytes 8 h.addr ++ leBytes 2 h.epoch ++
  leBytes 2 h.sentTick ++ leBytes 3 h.length ++ leBytes 1 h.subop ++ leBytes 8 h.ward

/-- The header that 32 bytes spell (R37). -/
def parseHdr (b : List Byte) : Hdr :=
  let b1 := field b 1 1
  let b2 := field b 2 1
  let b3 := field b 3 1
  ⟨field b 0 1, bits b1 0 1, bits b1 1 1, bits b1 2 1, bits b1 3 5, bits b2 0 3, bits b2 3 5, bits b3 0 4, bits b3 4 4,
   field b 4 2, field b 6 2, field b 8 8, field b 16 2, field b 18 2, field b 20 3, field b 23 1, field b 24 8⟩

/-- A request as bytes (R37, R39). -/
def encodeReq (q : Req) : List Byte := encodeHdr q.hdr ++ (q.body ++ q.payload)

/-- The request that bytes spell; its body has the size of its type. -/
def parseReq (b : List Byte) : Option Req :=
  if b.length < 32 then none else
  let h := parseHdr b
  let rest := b.drop 32
  some ⟨h, rest.take (bodySize h.type), rest.drop (bodySize h.type)⟩

/-- A response as bytes (R38). -/
def encodeResp (r : Resp) : List Byte :=
  leBytes 1 r.type ++ leBytes 1 (r.dup + 2 * r.retry) ++ leBytes 1 r.tc ++ leBytes 1 r.status ++ leBytes 2 r.tag ++ leBytes 2 r.src ++
  leBytes 2 r.dst ++ leBytes 2 r.sentTick ++ leBytes 2 r.epoch ++ leBytes 2 r.payload.length ++ r.payload

/-- The response that bytes spell (R38); LENGTH bytes of payload follow the header. Reserved bits are ignored (DESIGN CHOICE, assumption 146). -/
def parseResp (b : List Byte) : Option Resp :=
  if b.length < 16 then none else
  let b1 := field b 1 1
  some ⟨field b 0 1, bits b1 0 1, bits b1 1 1, bits (field b 2 1) 0 3, field b 3 1, field b 4 2, field b 6 2, field b 8 2,
        field b 10 2, field b 12 2, (b.drop 16).take (field b 14 2)⟩

/-- A packet as bytes. -/
def encodePacket : Packet → List Byte
  | .req q => encodeReq q
  | .resp r => encodeResp r

/-- The packet that bytes spell: bit 7 of TYPE tells a response (R37, R38). -/
def parsePacket (b : List Byte) : Option Packet :=
  match b with
  | [] => none
  | t :: _ => if t.toNat < 128 then (parseReq b).map .req else (parseResp b).map .resp

/-- Bytes of a packet. -/
def packetBytes (p : Packet) : Nat :=
  match p with
  | .req q => 32 + q.body.length + q.payload.length
  | .resp r => 16 + r.payload.length

/-- The class a packet travels on. -/
def packetTc : Packet → Nat
  | .req q => q.hdr.tc
  | .resp r => r.tc

/-! Body fields -/

/-- A body field at packet byte `off` (bodies start at byte 32). -/
def bodyField (q : Req) (off n : Nat) : Nat := field q.body (off - 32) n

/-- OPERAND and COMPARE of an ATOMIC (R43). -/
def atomOperand (q : Req) : Nat := bodyField q 32 16
def atomCompare (q : Req) : Nat := bodyField q 48 16

/-- ENTRY, RESULT_MAX and the reserved bytes of a TRIGGER (R44). -/
def trigEntry (q : Req) : Nat := bodyField q 32 2
def trigResultMax (q : Req) : Nat := bodyField q 34 1
def trigRsv (q : Req) : Nat := bodyField q 35 5

/-- STREAM, CONTRIBUTOR, ROUND, CHUNK of a CONTRIB (R45). -/
def conStream (q : Req) : Nat := bodyField q 32 2
def conContributor (q : Req) : Nat := bodyField q 34 2
def conRound (q : Req) : Nat := bodyField q 36 4
def conChunk (q : Req) : Nat := bodyField q 40 4
def conRsv (q : Req) : Nat := bodyField q 44 4

/-- QUEUE of a MSG (R48). -/
def msgQueue (q : Req) : Nat := bodyField q 32 2

/-- RANGE_BASE, PAGES, NOTICE of LEND and RECLAIM (R49). -/
def lendBase (q : Req) : Nat := bodyField q 32 8
def lendPages (q : Req) : Nat := bodyField q 40 4
def lendNotice (q : Req) : Nat := bodyField q 44 2

/-- VERSION of a PUBLISH (R50). -/
def pubVersion (q : Req) : Nat := bodyField q 32 4

/-! Answers -/

/-- The response to a request (R38): from this node, under this epoch. -/
def mkResp (q : Req) (node epoch status : Nat) (payload : List Byte) : Resp :=
  ⟨q.hdr.type % 128 + 128, 0, q.hdr.retry, respTc q, status, q.hdr.tag, node, q.hdr.src, q.hdr.sentTick, epoch, payload⟩

end Sys2Proof.Machine
end

