-- ==== Sys2Proof/Machine/Extents.lean ====
section
/-!
DEFINITION. Extent entries and route entries (R65, R68), the live maps (R74), and the resolution of R69.
-/

namespace Sys2Proof.Machine

/-! The fields of an extent entry (R65) -/

def ExtW.base (e : ExtW) : Nat := e.w0
def ExtW.node (e : ExtW) : Nat := bits e.w0 48 16
def ExtW.off (e : ExtW) : Nat := bits e.w0 0 48
def ExtW.len (e : ExtW) : Nat := bits e.w1 0 49
def ExtW.ward (e : ExtW) : Nat := e.w2
def ExtW.home (e : ExtW) : Nat := bits e.w3 0 16
def ExtW.cmpt (e : ExtW) : Nat := bits e.w3 16 4
def ExtW.modeB (e : ExtW) : Bool := bit e.w3 20
def ExtW.coh (e : ExtW) : Bool := bit e.w3 21
def ExtW.seated (e : ExtW) : Bool := bit e.w3 22
def ExtW.valid (e : ExtW) : Bool := bit e.w3 23
def ExtW.comp (e : ExtW) : Nat := bits e.w3 24 3
def ExtW.pub (e : ExtW) : Bool := bit e.w3 27
def ExtW.tier (e : ExtW) : Nat := bits e.w3 28 4

/-- Whether a reserved bit of an entry is set. -/
def ExtW.rsvBad (e : ExtW) : Bool := bits e.w1 49 15 != 0 || bits e.w3 32 32 != 0

/-- Placement pages of 32 MiB (R105). -/
abbrev pageBytes : Nat := 33554432

/-- Number of placement pages of an extent. -/
def ExtW.pages (e : ExtW) : Nat := ceilDiv e.len pageBytes

/-- Whether `n` bytes from a fabric address lie in the extent. -/
def ExtW.covers (e : ExtW) (a n : Nat) : Bool :=
  e.valid && e.node == addrNode a && decide (e.off ≤ addrOff a) && decide (addrOff a + n ≤ e.off + e.len)

/-- The entry at an index (VALID clear where nothing is stored). -/
def MapTab.entry (m : MapTab) (i : Nat) : ExtW := m.ext.getD i ExtW.none

/-- The extent that holds an address (R69). -/
def extentIn : Tbl ExtW → Nat → Option (Nat × ExtW)
  | [], _ => none
  | (i, e) :: t, a => if e.covers a 1 then some (i, e) else extentIn t a

/-- The extent of a map that holds an address. -/
def MapTab.extentAt (m : MapTab) (a : Nat) : Option (Nat × ExtW) := extentIn m.ext a

/-! Route entries (R68) -/

/-- The route entry of a node. -/
def MapTab.routeOf (m : MapTab) (n : Nat) : Nat := m.route.getD n 0

def routePorts (r : Nat) : Nat := bits r 0 32
def routeLocal (r : Nat) : Bool := bit r 32
def routeAttached (r : Nat) : Bool := bit r 33
def routeStages (r : Nat) : Nat := bits r 34 2

/-- Whether a node can be reached by an entry. -/
def routeUp (r : Nat) : Bool := routePorts r != 0 || routeLocal r

/-! Live maps -/

/-- The current epoch. -/
def Gikan.epoch (g : Gikan) : Nat := g.get F.MAP_EPOCH_CURRENT

/-- The map of an epoch, when it is live (R74). -/
def Gikan.liveMap (g : Gikan) (e : Nat) : Option MapTab :=
  if e = g.epoch then some g.map.cur
  else if g.on F.MAP_EPOCH_HINGE && e == g.get F.MAP_EPOCH_PREVIOUS then some g.map.prev
  else none

/-- Whether an epoch is newer than the current one (R73). -/
def Gikan.newerEpoch (g : Gikan) (e : Nat) : Bool :=
  let d := (e + 65536 - g.epoch) % 65536
  decide (1 ≤ d ∧ d ≤ 32767)

/-- Whether a node is a member of the map's placement domain: a Gikan is always a member of its own (R67). -/
def Gikan.inDomain (g : Gikan) (m : MapTab) (n : Nat) : Bool := n == g.node || m.dom.contains n

/-- The node a request's address names, the alias resolved (R35). -/
def Gikan.targetNode (g : Gikan) (a : Nat) : Nat := if addrNode a = 0xFFFF then g.node else addrNode a

/-- The address with the alias resolved. -/
def Gikan.realAddr (g : Gikan) (a : Nat) : Nat := mkAddr (g.targetNode a) (addrOff a)

/-- Where a request goes (R69). -/
inductive Route where
  | home (entry : Nat) (e : ExtW)
  | send (node ports : Nat)
  | refuse (status : Nat)
  deriving DecidableEq, Repr

/-- Whether a map names this Gikan by a node number: its number in force, or an entry with LOCAL (R68). -/
def Gikan.selfIn (g : Gikan) (m : MapTab) (n : Nat) : Bool := n == g.node || routeLocal (m.routeOf n)

/-- Resolve a request that names memory under a map (R69). A node with PORTS 0 and LOCAL 0 is unreachable; one with LOCAL is this Gikan, so
its extents are those of the table here. A request to the alias 0xFFFF is never sent on (R35): an extent homed elsewhere is not present
under that name. -/
def Gikan.resolve (g : Gikan) (m : MapTab) (a : Nat) : Route :=
  let node := g.targetNode a
  let sendTo := fun (n : Nat) =>
    if routePorts (m.routeOf n) = 0 ∨ addrNode a = 0xFFFF then Route.refuse stNOTPRES else .send n (routePorts (m.routeOf n))
  if g.inDomain m node || routeLocal (m.routeOf node) then
    match m.extentAt (g.realAddr a) with
    | none => .refuse stNOTPRES
    | some (i, e) => if g.selfIn m e.home then .home i e else sendTo e.home
  else sendTo node

/-- Whether a node is this Gikan: its number in force, the alias, or an entry of the current map with LOCAL (R34, R68). -/
def Gikan.isSelf (g : Gikan) (n : Nat) : Bool :=
  n == g.node || n == 0xFFFF || (decide (n < 16384) && routeLocal (g.map.cur.routeOf n))

end Sys2Proof.Machine
end

