-- ==== Sys2Proof/Machine/Memory.lean ====
section
/-!
DEFINITION. The stacks' bytes: where a byte lies (R87, R92), how a unit is decoded and what a finding does (R90, R92, R94, R99, R100,
R102), how a write encodes, merges and clears poison (R91, R95), and MEM_FLIP's corruption of the next codeword written (R104).
-/

namespace Sys2Proof.Machine

/-! Plain bytes -/

/-- The byte at an address; an unlisted byte is 0 (R96). -/
def memGet (m : List Host.Cell) (a : Nat) : Byte := Tbl.getD m a 0

/-- Store a byte, keeping the canonical form. -/
def memPut (m : List Host.Cell) (a : Nat) (b : Byte) : List Host.Cell := Tbl.setD m a 0 b

/-- The bytes from an address on. -/
def memGetN (m : List Host.Cell) (a n : Nat) : List Byte := (List.range n).map (fun i => memGet m (a + i))

/-- Store bytes from an address on. -/
def memPutN (m : List Host.Cell) : Nat → List Byte → List Host.Cell
  | _, [] => m
  | a, b :: bs => memPutN (memPut m a b) (a + 1) bs

/-- Canonical form: addresses strictly rising, no listed zero. -/
def Memory.wf (m : List Host.Cell) : Bool := Tbl.sorted m && m.all (fun c => c.2 != 0)

/-- Take a number out of a sorted list. -/
def delNat (l : List Nat) (x : Nat) : List Nat := l.filter (fun y => y != x)

/-! Places -/

/-- The extent of an access: its index and its entry. -/
structure Site where
  entry : Nat
  e : ExtW
  deriving DecidableEq, Repr

/-- Bytes of a unit of the extent (R94). -/
def Site.unit (s : Site) : Nat := if s.e.modeB then 1 else 32

/-- The first byte of the unit that holds an address. -/
def Site.unitOf (s : Site) (a : Nat) : Nat := a / s.unit * s.unit

/-- The units that `n` bytes from `a` touch, by their first bytes. -/
def Site.units (s : Site) (a n : Nat) : List Nat :=
  if n = 0 then [] else
  let u := s.unit
  (List.range ((a + n - 1) / u - a / u + 1)).map (fun i => (a / u + i) * u)

/-- The placement page that holds an address. -/
def Site.page (s : Site) (a : Nat) : Nat := (a - s.e.base) / pageBytes

/-- The first frame that a page occupies (R87, R92). -/
def frameOf : Tbl FrameSt → Nat → Nat → Option Nat
  | [], _, _ => none
  | (f, x) :: t, entry, p => if x = .page entry p then some f else frameOf t entry p

/-- The stack-address granule of a byte (R87, R92); a page with no frame counts as in frame 0. -/
def Gikan.granuleOf (g : Gikan) (s : Site) (a : Nat) : Nat :=
  let f := (frameOf g.stk.frames s.entry (s.page a)).getD 0
  let n := (a - s.e.base) % pageBytes / 4096
  if s.e.modeB then 8192 * f + 3 * n else 8192 * f + n

/-- Stack, channel, granule row and codeword of a byte (R87). -/
def Gikan.place (g : Gikan) (s : Site) (a : Nat) : Nat × Nat × Nat × Nat :=
  let G := g.granuleOf s a
  (G % 12, G / 12 % 32, G / 384, (a - s.e.base) % 4096 / 32)

/-- The crossbar port of the home agent that serves a byte (R88). -/
def Gikan.homePort (g : Gikan) (s : Site) (a : Nat) : Nat :=
  let (h, k, _, _) := g.place s a
  32 + k / 16 * 4 + (if h < 6 then 0 else 2) + k / 8 % 2

/-! Decoding -/

/-- What decoding a unit finds (R90, R92, R94, R100). -/
inductive Finding where
  | good | signature | uncorrectable
  deriving DecidableEq, Repr

/-- Stack, channel, granule row and codeword of the symbol of a unit that is in error: of a Mode B unit in granule 3n, 3n + 1 or 3n + 2 of its
page (R87, R92). -/
def Gikan.errPlace (g : Gikan) (s : Site) (u : Nat) : Nat × Nat × Nat × Nat :=
  let G := g.granuleOf s u + g.stk.badAt.getD u 0
  (G % 12, G / 12 % 32, G / 384, (u - s.e.base) % 4096 / 32)

/-- Log an uncorrectable error at a place (MEM_UE_LOG, R100). -/
def Gikan.logUeAt (g : Gikan) (p : Nat × Nat × Nat × Nat) (src : Nat) (modeB : Bool) : Gikan :=
  let (h, k, r, c) := p
  let g := if g.on F.MEM_UE_LOG_VALID then g.set F.MEM_UE_LOG_OVERFLOW 1
    else
      let g := ((g.set F.MEM_UE_LOG_STACK h).set F.MEM_UE_LOG_CHANNEL k).set F.MEM_UE_LOG_GRANULE r
      let g := ((g.set F.MEM_UE_LOG_CODEWORD c).set F.MEM_UE_LOG_SOURCE src).setB F.MEM_UE_LOG_MODEB modeB
      g.set F.MEM_UE_LOG_VALID 1
  (g.inc (F.MEM_ERR_H_UNCORRECTED h) 1).contained (grpStack h) k (offOf F.MEM_UE_LOG_VALID)

/-- Log an uncorrectable error of a unit. -/
def Gikan.logUe (g : Gikan) (s : Site) (u src : Nat) : Gikan := g.logUeAt (g.errPlace s u) src s.e.modeB

/-- Symbols of the next codeword written on stack `h` that MEM_FLIP corrupts, of `most` that it can reach there; the corrupted write clears
ARM (R104). -/
def Gikan.flipOn (g : Gikan) (h most : Nat) : Nat × Gikan :=
  if g.on F.FLT_TEST_ACTIVE && g.on F.MEM_FLIP_ARM && h == g.get F.MEM_FLIP_STACK then
    let n := if g.get F.MEM_FLIP_PATTERN = 0 then 0 else if g.get F.MEM_FLIP_SYM_A = g.get F.MEM_FLIP_SYM_B then 1 else 2
    (min most n, g.set F.MEM_FLIP_ARM 0)
  else (0, g)

/-- Symbols of a unit in error, and the granule of the last of them. -/
def Gikan.setBad (g : Gikan) (u n which : Nat) : Gikan :=
  { g with bad := g.bad.setD u 0 n, stk := { g.stk with badAt := g.stk.badAt.setD u 0 (if n = 0 then 0 else which) } }

/-- MEM_FLIP on the codeword of a unit just written (R104): a Mode B unit has one symbol on each of three stacks (R92). -/
def Gikan.flipWritten (g : Gikan) (s : Site) (u : Nat) : Gikan :=
  let G := g.granuleOf s u
  if s.e.modeB then
    match (List.range 3).find? (fun i => (G + i) % 12 == g.get F.MEM_FLIP_STACK) with
    | some i => let (n, h) := g.flipOn ((G + i) % 12) 1; if n = 0 then h else h.setBad u n i
    | none => g
  else
    let (n, h) := g.flipOn (G % 12) 2
    if n = 0 then h else h.setBad u n 0

/-- A unit is written whole: no symbol of it is in error, but for MEM_FLIP. -/
def Gikan.written (g : Gikan) (s : Site) (u : Nat) : Gikan := (g.setBad u 0 0).flipWritten s u

/-- Leave a unit zero with the poison signature. -/
def Gikan.poisonUnit (g : Gikan) (s : Site) (u : Nat) : Gikan :=
  { g with mem := memPutN g.mem u (zeros s.unit), clean := delNat g.clean u }.written s u

/-- The bytes a decoder hands on when it misses an error (R90): free values; whether it took the error for one in one symbol, and so counts a
correction, is free too. -/
def Gikan.garble (g : Gikan) (s : Site) (u : Nat) : Bool × Gikan :=
  let (d, g) := g.next
  (Config.miscorrects d,
   { g with mem := memPutN g.mem u ((List.range s.unit).map (fun i => Config.undetectedByte d i)), clean := insNat g.clean u }.setBad u 0 0)

/-- Count a corrected error of a DRAM row in this scrub pass; at ROW_THRESH the row is posted, if the queue has room (R101). -/
def Gikan.rowCorrected (g : Gikan) (h k r c : Nat) : Gikan :=
  let row := Config.rowFirst r
  let key := ((h * 32 + k) * 2 ^ 20 + row) * 2 + c % 2
  let n := g.stk.rows.getD key 0 + 1
  let cand := if n = max 1 (g.get F.MEM_SCRUB_ROW_THRESH) ∧ g.stk.cand.length < 64 then g.stk.cand ++ [⟨h, k, row, c % 2, min n 255⟩] else g.stk.cand
  { g with stk := { g.stk with rows := g.stk.rows.put key n, cand := cand } }

/-- A corrected error at a place is counted, for its stack and its row (R100, R101). -/
def Gikan.correctedAt (g : Gikan) (p : Nat × Nat × Nat × Nat) : Gikan :=
  let (h, k, r, c) := p
  ((g.inc (F.MEM_ERR_H_CORRECTED h) 1).rowCorrected h k r c).corrected (grpStack h) k (offOf (F.MEM_ERR_H_CORRECTED h))

/-- Whether the decoder detects an error in `n` symbols of a unit: any in two (R90, R92), others as the part does. -/
def Gikan.detected (g : Gikan) (n : Nat) : Bool × Gikan :=
  if n ≤ 2 then (true, g) else let (d, h) := g.next; (Config.detects d n, h)

/-- An error that cannot be corrected: the unit is written back poisoned, and logged. -/
def Gikan.uncorrectable (g : Gikan) (s : Site) (u src : Nat) : Gikan := (g.logUe s u src).poisonUnit s u

/-- Decode a unit for a read from a source (0 demand read, 1 merge, 2 scrub, 3 engine read), with all that R100 does. A poisoned unit with one
or two symbols in error is neither the signature nor a codeword with one error (R94). What it does with more than two symbols is free (DESIGN
CHOICE, assumption 38). -/
def Gikan.decode (g : Gikan) (s : Site) (u src : Nat) : Finding × Gikan :=
  let n := g.bad.getD u 0
  if n = 0 then (if g.clean.contains u then (.good, g) else (.signature, g))
  else if n = 1 && g.clean.contains u then (.good, (g.correctedAt (g.errPlace s u)).written s u)
  else
    let (found, g1) := g.detected n
    if found then (.uncorrectable, g1.uncorrectable s u src)
    else
      let (one, g2) := g1.garble s u
      (.good, if one then g2.correctedAt (g1.errPlace s u) else g2)

/-- Decode units in order: the state, the units found without usable data, and whether a signature was found. -/
def Gikan.decodeAll (g : Gikan) (s : Site) (src : Nat) : List Nat → Gikan × List Nat × Bool
  | [] => (g, [], false)
  | u :: us =>
    let (f, g1) := g.decode s u src
    let (g2, ps, sig) := g1.decodeAll s src us
    match f with
    | .good => (g2, ps, sig)
    | .signature => (g2, u :: ps, true)
    | .uncorrectable => (g2, u :: ps, sig)

/-- Read `n` bytes: the state after, the bytes (those of poisoned units as 0x00, R99), and whether a unit was poisoned. -/
def Gikan.readMem (g : Gikan) (s : Site) (a n src : Nat) : Gikan × List Byte × Bool :=
  let (g1, ps, sig) := g.decodeAll s src (s.units a n)
  let g2 := if sig then g1.inc F.MEM_POISON_READS_READS 1 else g1
  let data := (List.range n).map (fun i => if ps.contains (s.unitOf (a + i)) then (0 : Byte) else memGet g2.mem (a + i))
  (g2, data, !ps.isEmpty)

/-! Writing -/

/-- Write the part of a span that falls in one unit: whole units are encoded directly and lose their poison; a part of a codeword is
merged (R91, R95, R102). -/
def Gikan.writeUnit (g : Gikan) (s : Site) (a : Nat) (data : List Byte) (u : Nat) : Gikan :=
  let lo := max a u
  let hi := min (a + data.length) (u + s.unit)
  let part := slice data (lo - a) (hi - lo)
  if hi - lo = s.unit then
    ({ g with mem := memPutN g.mem lo part, clean := insNat g.clean u }).written s u
  else
    -- a merge writes its codeword once: what its read finds is not written back before
    let arm := g.get F.MEM_FLIP_ARM
    let (f, g1) := ((g.inc F.MEM_RMW_MERGES 1).set F.MEM_FLIP_ARM 0).decode s u 1
    let g2 := if f = .signature then g1.inc F.MEM_POISON_READS_READS 1 else g1
    ({ g2 with mem := memPutN g2.mem lo part }.set F.MEM_FLIP_ARM arm).written s u

/-- Write bytes at an address (R42, R91, R92). -/
def Gikan.writeMem (g : Gikan) (s : Site) (a : Nat) (data : List Byte) : Gikan :=
  (s.units a data.length).foldl (fun h u => h.writeUnit s a data u) g

/-- Leave every unit that `n` bytes touch zero with the poison signature (R99). -/
def Gikan.poisonMem (g : Gikan) (s : Site) (a n : Nat) : Gikan :=
  (s.units a n).foldl (fun h u => h.poisonUnit s u) g

/-- Drop the entries of a table whose key lies in a range. -/
def outside {α : Type} (t : List (Nat × α)) (a n : Nat) : List (Nat × α) := t.filter (fun c => !(decide (a ≤ c.1) && decide (c.1 < a + n)))

/-- Forget the symbols in error of a range: its frames hold it no more. -/
def Gikan.forgetErrors (g : Gikan) (a n : Nat) : Gikan :=
  { g with bad := outside g.bad a n, stk := { g.stk with badAt := outside g.stk.badAt a n } }

/-- Forget the symbols in error of a frame that holds no page. -/
def Gikan.forgetFree (g : Gikan) (f : Nat) : Gikan :=
  { g with stk := { g.stk with freeBad := outside g.stk.freeBad (f * 1048576) 1048576 } }

/-- Leave a range as stamping leaves it: zero data with the poison signature (R96, R97). -/
def Gikan.stampRange (g : Gikan) (a n : Nat) : Gikan :=
  { g with mem := outside g.mem a n, clean := g.clean.filter (fun u => !(decide (a ≤ u) && decide (u < a + n))) }.forgetErrors a n

/-- The bytes of a span for a copy that the Placer makes: every unit is decoded, and poisoned bytes are zero (R99, R100). -/
def Gikan.copyOut (g : Gikan) (s : Site) (a n : Nat) : Gikan × List Byte :=
  let (g, data, _) := g.readMem s a n 3
  (g, data)

end Sys2Proof.Machine
end

