-- ==== Sys2Proof/Machine/Flits.lean ====
section
/-!
DEFINITION. The bytes of a flit and of the messages in the slots of TSYNC and LCTL flits: header and CRC (R280), TSYNC (R288), PARAM (R292),
LANE_STATUS (R298), SLEEP and WAKE (R361).
-/

namespace Sys2Proof.Machine

/-- Bytes 0 to 11 of a flit's header. -/
def headerBytes (f : Flit) : List Byte :=
  leBytes 1 (f.kind % 4 + f.nak % 2 * 4 + f.ackValid % 2 * 8) ++ leBytes 2 (f.seq % 4096) ++ leBytes 2 (f.ackSeq % 4096) ++
  leBytes 1 (f.crTcA % 8 + f.crTcB % 8 * 16) ++ leBytes 2 f.cumA ++ leBytes 2 f.cumB ++ leBytes 2 (f.start % 32768)

/-- The CRC of a flit: bytes 0 to 11 and 16 to 255. -/
def flitCrc (f : Flit) : Nat := crc32c (headerBytes f ++ fit f.slots 240)

/-- The 256 bytes of a flit. -/
def flitBytes (f : Flit) : List Byte := headerBytes f ++ leBytes 4 f.crc ++ fit f.slots 240

/-- A flit is bad when an uncorrectable codeword marks it or its CRC fails (R283). -/
def flitBad (f : Flit) : Bool := f.bad || f.crc != flitCrc f

/-- A flit without data. -/
def idle0 : Flit := ⟨false, 0, 0, 0, 0, 0, 0, 0, 0, 0, 0, zeros 240, 0⟩

/-- A TSYNC or LCTL flit around its message. -/
def msgFlit (kind : Nat) (slots : List Byte) : Flit := { idle0 with kind := kind, slots := fit slots 240 }

/-- The slots of a TSYNC flit: SYNC_REQ (1) or SYNC_RESP (2). -/
def tsyncSlots (msg : Nat) (m : TSync) : List Byte :=
  leBytes 1 msg ++ leBytes 1 m.timeValid ++ leBytes 2 m.exch ++ zeros 4 ++ leBytes 8 (m.ta / 256) ++ leBytes 1 (m.ta % 256) ++
  leBytes 1 (m.tb % 256) ++ zeros 6 ++ leBytes 8 (m.tb / 256) ++ leBytes 8 m.tick ++ leBytes 8 m.baseNs ++ leBytes 1 m.periodUs ++
  leBytes 1 m.nextUs ++ zeros 6 ++ leBytes 8 m.switchAt

/-- The slots of a PARAM flit. -/
def paramSlots (m : ParamMsg) : List Byte :=
  leBytes 1 1 ++ leBytes 1 (m.role % 2 + m.reach % 2 * 2 + m.seen % 2 * 4) ++ leBytes 2 m.afpVersion ++ leBytes 2 m.node ++ zeros 2 ++
  leBytes 4 m.fwVersion ++ leBytes 4 m.fwMin ++ leBytes 4 m.fwMax ++ zeros 4 ++ ((List.range 8).flatMap (fun c => leBytes 2 (m.credits.getD c 0))) ++
  zeros 8 ++ leBytes 48 m.digest

/-- The slots of a LANE_STATUS flit. -/
def laneSlots (m : LaneStatusMsg) : List Byte :=
  leBytes 1 2 ++ zeros 7 ++ ((List.range 8).flatMap (fun i => leBytes 1 (toBits (m.rxOma.getD i 0) 8))) ++
  ((List.range 8).flatMap (fun i => leBytes 1 (m.ffeReq.getD i 0)))

/-- The slots of a SLEEP (3) or WAKE (4) flit. -/
def narrowSlots (msg at_ : Nat) : List Byte := leBytes 1 msg ++ zeros 7 ++ leBytes 4 at_

end Sys2Proof.Machine
end

