-- ==== Sys2Proof/Machine/Xbar.lean ====
section
/-!
DEFINITION. The switch core: input buffers and virtual output queues (R305 to R307), the way a packet leaves (R69, R294 to R296), the
central scheduler (R308 to R311), shapers (R313, R314), time gates (R315 to R317), and queue sampling (R318).
-/

namespace Sys2Proof.Machine

/-! Ports (R305) -/

/-- Cells a crossbar port sends and receives in a slot. -/
def portCells (x : Nat) : Nat := if 32 ≤ x ∧ x ≤ 45 then 4 else 1

/-- A home-agent or engine port. -/
def wideXPort (x : Nat) : Bool := decide (32 ≤ x ∧ x ≤ 45)

/-- The die of a crossbar port: 0 on C0, 1 on C1. -/
def portDie (x : Nat) : Nat :=
  if x ≤ 15 ∨ (32 ≤ x ∧ x ≤ 35) ∨ (40 ≤ x ∧ x ≤ 42) ∨ 46 ≤ x then 0 else 1

/-- Packet bytes padded to whole 16 B slots (R281, R282). -/
def padded (p : Packet) : Nat := ceilDiv (packetBytes p) 16 * 16

/-- Input-buffer units of 64 B that a packet takes (R287, R307). -/
def bufUnits (p : Packet) : Nat := ceilDiv (padded p) 64

/-- The key of a virtual output queue. -/
def voqKey (i o c : Nat) : Nat := (48 * i + o) * 8 + c

/-- The port state of R290. -/
def Gikan.lnkState (g : Gikan) (p : Nat) : Nat := g.get (F.LNK_STATUS_STATE p)

/-- A fabric port's link. -/
def Gikan.link (g : Gikan) (p : Nat) : PortLnk := g.lnk.getD p PortLnk.reset

def Gikan.setLink (g : Gikan) (p : Nat) (l : PortLnk) : Gikan := { g with lnk := g.lnk.put p l }

/-- Width of a port in lanes, sending or receiving, and its flit time in ns (R278, R361). -/
def Gikan.txLanes (g : Gikan) (p : Nat) : Nat := if (g.link p).txNarrow then 2 else 8 / 2 ^ g.get (F.LNK_STATUS_WIDTH p)
def Gikan.rxLanes (g : Gikan) (p : Nat) : Nat := if (g.link p).rxNarrow then 2 else 8 / 2 ^ g.get (F.LNK_STATUS_WIDTH p)
def Gikan.flitNs (g : Gikan) (p : Nat) : Nat := 16 / g.txLanes p

/-- Whether a port carries packets of a class (R290, R294). -/
def Gikan.carries (g : Gikan) (p tc : Nat) : Bool := g.lnkState p == 5 || (g.lnkState p == 6 && tc == 0)

/-! Queueing -/

/-- Count the buffer units in use at an input (R307). -/
def Gikan.addUsed (g : Gikan) (i n : Nat) : Gikan :=
  let u := g.get (F.XBAR_INBUF_USED i) + n
  let g := g.set (F.XBAR_INBUF_USED i) u
  if g.get (F.XBAR_INBUF_PEAK i) < u then g.set (F.XBAR_INBUF_PEAK i) u else g

def Gikan.subUsed (g : Gikan) (i n : Nat) : Gikan :=
  g.set (F.XBAR_INBUF_USED i) (g.get (F.XBAR_INBUF_USED i) - n)

/-- Put a packet into the queue of an output, with `inBuf` of its cells in the buffer. -/
def Gikan.enqueueCells (g : Gikan) (i o : Nat) (p : Packet) (inBuf : Nat) : Gikan :=
  let cells := ceilDiv (packetBytes p) 256
  let k := voqKey i o (packetTc p)
  let v : VPkt := ⟨p, cells, min inBuf cells, 0, g.now, false⟩
  { g with xbar := { g.xbar with voq := g.xbar.voq.put k (g.xbar.voq.getD k [] ++ [v]) } }

/-- Units of an input buffer: 2 MiB of 64 B (R307). -/
abbrev inbufUnits : Nat := 32768

/-- Whether an input's buffer has room for a packet. -/
def Gikan.inbufRoom (g : Gikan) (i : Nat) (p : Packet) : Bool := decide (g.get (F.XBAR_INBUF_USED i) + bufUnits p ≤ inbufUnits)

/-- Put a whole packet into an input's buffer and the queue of its output. -/
def Gikan.enqueueNow (g : Gikan) (i o : Nat) (p : Packet) : Gikan :=
  (g.addUsed i (bufUnits p)).enqueueCells i o p 17

/-- Put a whole packet of an internal unit into the queue of an output (R307, R311); the unit holds it back while the buffer is full. -/
def Gikan.enqueue (g : Gikan) (i o : Nat) (p : Packet) : Gikan :=
  let held := g.xbar.backlog.getD i []
  if 32 ≤ i && (!held.isEmpty || !g.inbufRoom i p) then { g with xbar := { g.xbar with backlog := g.xbar.backlog.put i (held ++ [(o, p)]) } }
  else g.enqueueNow i o p

/-- The packets that an internal unit held back enter its buffer, in order, as far as there is room. -/
def Gikan.refill (g : Gikan) (i : Nat) : List (Nat × Packet) → Gikan
  | [] => { g with xbar := { g.xbar with backlog := g.xbar.backlog.del i } }
  | (o, p) :: t =>
    if g.inbufRoom i p then (g.enqueueNow i o p).refill i t
    else { g with xbar := { g.xbar with backlog := g.xbar.backlog.put i ((o, p) :: t) } }

/-- Every internal input that has packets held back. -/
def Gikan.refillAll (g : Gikan) : Gikan := g.xbar.backlog.foldl (fun h x => h.refill x.1 x.2) g

/-- Free the buffer space of a packet that has left an input, and a fabric input's credits (R287, R307). -/
def Gikan.freeInput (g : Gikan) (i : Nat) (p : Packet) : Gikan :=
  let g := g.subUsed i (bufUnits p)
  if i < 32 then
    let l := g.link i
    let c := packetTc p
    let old := l.stale.getD c 0
    if 0 < old then g.setLink i { l with stale := l.stale.set c (old - bufUnits p) }
    else g.setLink i { l with cumOut := l.cumOut.set c ((l.cumOut.getD c 0 + bufUnits p) % 65536) }
  else g

/-- A packet enters the buffer of a fabric input: its units count against its class's credits (R287). -/
def Gikan.arrived (g : Gikan) (i : Nat) (p : Packet) : Gikan :=
  if i < 32 then
    let l := g.link i
    let c := packetTc p
    g.setLink i { l with rxIn := l.rxIn.set c ((l.rxIn.getD c 0 + bufUnits p) % 65536) }
  else g

/-- Deliver a packet that has crossed whole: to the port's sender, or to the unit behind an internal output. -/
def Gikan.deliver (g : Gikan) (o : Nat) (p : Packet) : Gikan :=
  if o < 32 then { g with xbar := { g.xbar with tx := g.xbar.tx.put o (g.xbar.tx.getD o [] ++ [p]) } }
  else { g with xbar := { g.xbar with inbox := g.xbar.inbox.put o (g.xbar.inbox.getD o [] ++ [p]) } }

/-! The way out (R69, R294, R296) -/

/-- The ports of a set in a given range of states, in ascending order. -/
def Gikan.portsIn (g : Gikan) (mask : Nat) (ok : Nat → Bool) : List Nat :=
  (List.range 32).filter (fun p => mask.testBit p && ok (g.lnkState p))

/-- Pick one of several ports by the hash of SRC and TAG, which the manual does not give (R68). -/
def spreadPort (ps : List Nat) (src tag : Nat) : Nat := ps.getD (Config.spread src tag % ps.length) 0

/-- The port a packet of a class leaves by, or the code of R296. -/
def Gikan.exitPort (g : Gikan) (mask tc src tag : Nat) : Nat ⊕ Nat :=
  let act := g.portsIn mask (fun s => s == 5)
  let quar := g.portsIn mask (fun s => s == 6)
  let use := if tc = 0 then g.portsIn mask (fun s => s == 5 || s == 6) else act
  if use ≠ [] then .inl (spreadPort use src tag)
  else if quar ≠ [] then .inr stQUAR
  else .inr stNOTPRES

/-- Send a response on its way from crossbar input `i`: to this node's own engine or control ports by `self`, else by the route
table of the current map; one whose DST is unreachable is dropped and counted (R69). -/
def Gikan.sendResp (g : Gikan) (i self : Nat) (r : Resp) : Gikan :=
  if g.isSelf r.dst then g.enqueue i self (.resp r)
  else
    match g.exitPort (routePorts (g.map.cur.routeOf r.dst)) r.tc r.dst r.tag with
    | .inl p => g.enqueue i p (.resp r)
    | .inr _ => g.inc F.MAP_EVENTS2_LATE_DROPS 1

/-- Answer a request that came in by crossbar input `x` (a response to an endpoint that is not bound yet goes back out the port
it came by, R295). -/
def Gikan.answerFrom (g : Gikan) (i x : Nat) (q : Req) (r : Resp) : Gikan :=
  if x < 32 then
    if g.get (F.LNK_STATUS_PARTNER_ROLE x) = 1 && !g.on (F.LNK_BIND_VALID x) then g.enqueue i x (.resp r)
    else if g.isSelf q.hdr.src then g.enqueue i 47 (.resp r)
    else
      match g.exitPort (routePorts (g.map.cur.routeOf r.dst)) r.tc r.dst r.tag with
      | .inl p => g.enqueue i p (.resp r)
      | .inr _ => g.inc F.MAP_EVENTS2_LATE_DROPS 1
  else g.enqueue i x (.resp r)

/-! Shapers (R313, R314) -/

def shKey (o c : Nat) : Nat := 8 * o + c

/-- The cap of a shaper, in 1/65,536 B. -/
def Gikan.shCap (g : Gikan) (o c : Nat) : Int := (max 1 (g.get (F.XBAR_SHAPER_BURST o c)) * 256 * 65536 : Nat)

def Gikan.tokensOf (g : Gikan) (o c : Nat) : Int := g.xbar.tokens.getD (shKey o c) 0

def Gikan.setTokens (g : Gikan) (o c : Nat) (v : Int) : Gikan :=
  let g := { g with xbar := { g.xbar with tokens := g.xbar.tokens.setD (shKey o c) 0 v } }
  g.set (F.XBAR_SHAPER_TOKENS o c) (toBits (v / 65536) 24)

/-- Accrual of one slot at every shaper that is enabled: two SCLK cycles (R313), and the cap. -/
def Gikan.accrue (g : Gikan) : Gikan :=
  (List.range 384).foldl (fun h k =>
    let o := k / 8
    let c := k % 8
    if h.on (F.XBAR_SHAPER_EN o c) then
      let rate := max 1 (h.get (F.XBAR_SHAPER_RATE_MBPS o c))
      h.setTokens o c (min (h.tokensOf o c + (2 * (rate * 65536 / 1500) : Nat)) (h.shCap o c))
    else h) g

/-- The write of a shaper register: the count is set to full or to zero (R314). -/
def Gikan.shaperReset (g : Gikan) (o c : Nat) : Gikan :=
  g.setTokens o c (if g.on (F.XBAR_SHAPER_RESET_ZERO o c) then 0 else g.shCap o c)

/-! Gates (R315 to R317) -/

def gateKey (p list i : Nat) : Nat := (p * 2 + list) * 64 + i

/-- A list's length, and an entry: duration in ns and mask; 0 in a field acts as 1 (R315). -/
def Gikan.gateLen (g : Gikan) (p list : Nat) : Nat :=
  let n := if list = 0 then g.get (F.XBAR_GATE_CTRL_LEN0 p) else g.get (F.XBAR_GATE_CTRL_LEN1 p)
  min 64 (max 1 n)

def Gikan.gateEntry (g : Gikan) (p list i : Nat) : Nat × Nat :=
  let (d, m) := g.xbar.gates.getD (gateKey p list i) (8000, 0xFF)
  (max 1 d, m)

/-- The windows of a list from entry `i` on, that begin at time `t`, cut at the frame's end: start, end, mask. -/
def Gikan.gateWins (g : Gikan) (p list : Nat) (fin : Nat) : Nat → Nat → Nat → List (Nat × Nat × Nat)
  | 0, _, _ => []
  | fuel + 1, i, t =>
    if fin ≤ t then [] else
    let (d, m) := g.gateEntry p list i
    if i + 1 ≥ g.gateLen p list then [(t, fin, m)]
    else (t, min fin (t + d), m) :: g.gateWins p list fin fuel (i + 1) (t + d)

/-- The end of the present frame in fabric time. -/
def Gikan.frameEnd (g : Gikan) : Nat :=
  match g.tick.gap with
  | some (_, at_) => at_
  | none => g.tick.base + (g.tickNo + 1 - g.tick.baseTick) * g.periodNs

/-- The list that is active in the `n`-th frame from this one, an armed swap included (R315, R316). -/
def Gikan.gateList (g : Gikan) (p n : Nat) : Nat :=
  let act := g.get (F.XBAR_GATE_CTRL_ACTIVE p)
  if g.get (F.XBAR_GATE_SWAP_AT_SWAP_AT p) ≤ g.tickNo + n then 1 - act else act

/-- The length of the `n`-th frame from this one, an armed period change included (R27). -/
def Gikan.framePeriod (g : Gikan) (n : Nat) : Nat :=
  if g.get F.TICK_SWITCH_SWITCH_AT ≤ g.tickNo + n then 1000 * max 1 (g.get F.TICK_PERIOD_ARMED_US) else g.periodNs

/-- The windows of this frame, from the current entry on, and of the next two. -/
def Gikan.gateWindows (g : Gikan) (p : Nat) : List (Nat × Nat × Nat) :=
  let f0 := max g.frameEnd (g.time + 1)
  let f1 := f0 + g.framePeriod 1
  g.gateWins p (g.get (F.XBAR_GATE_CTRL_ACTIVE p)) f0 64 (g.get (F.XBAR_GATE_STATUS_ENTRY p)) (g.xbar.gateAt.getD p g.time) ++
    g.gateWins p (g.gateList p 1) f1 64 0 f0 ++ g.gateWins p (g.gateList p 2) (f1 + g.framePeriod 2) 64 0 f1

/-- Whether a class stays open at a port from now for `span` ns (R315, R317). -/
def Gikan.gateOpen (g : Gikan) (p c span : Nat) : Bool :=
  !g.on (F.XBAR_GATE_CTRL_EN p) || c == 0 || !g.running || (g.on F.TICK_STATUS_SPLIT && g.on (F.XBAR_GATE_CTRL_SPLIT_OPEN p)) ||
    (g.gateWindows p).all (fun (s, e, m) => decide (e ≤ g.time) || decide (g.time + span ≤ s) || m.testBit c)

/-- The time a packet takes on a fabric output, with the guard (R315). -/
def Gikan.gateSpan (g : Gikan) (p : Nat) (pk : Packet) : Nat :=
  (ceilDiv (padded pk) 240 + 1) * g.flitNs p + g.get (F.XBAR_GATE_CTRL_GUARD_NS p)

/-! The scheduler (R308 to R311) -/

/-- The packet at the head of a queue. -/
def Gikan.voqHead (g : Gikan) (i o c : Nat) : Option VPkt := (g.xbar.voq.getD (voqKey i o c) []).head?

/-- The queue heads for an output that have begun to cross: input and class. -/
def Gikan.started (g : Gikan) (o : Nat) : List (Nat × Nat) :=
  g.xbar.voq.filterMap (fun (k, q) =>
    match q with
    | v :: _ => if k / 8 % 48 = o ∧ 0 < v.sent then some (k / 8 / 48, k % 8) else none
    | [] => none)

/-- Cut-through (R311): the class's bit of the input for the kind of output; a fabric output not wider than the input; no wait under a
gate guard. -/
def Gikan.cutThrough (g : Gikan) (i o c : Nat) (v : VPkt) : Bool :=
  decide (i < 32) &&
  (if o < 32 then (g.get (F.XBAR_CT_TO_FABRIC c)).testBit i && decide (g.txLanes o ≤ g.rxLanes i) && !v.gateHeld
   else (g.get (F.XBAR_CT_TO_INTERNAL c)).testBit i)

/-- Rooms left in a slot, pairs matched with their class, and cells taken across the bridge in each direction. -/
structure Slot where
  roomIn : Tbl Nat
  roomOut : Tbl Nat
  pairs : List (Nat × Nat × Nat)
  across : List Nat
  declined : Bool
  deriving DecidableEq, Repr

def Slot.zero : Slot := ⟨[], [], [], [0, 0], false⟩

def Slot.rin (s : Slot) (i : Nat) : Nat := s.roomIn.getD i (portCells i)
def Slot.rout (s : Slot) (o : Nat) : Nat := s.roomOut.getD o (portCells o)

/-- Whether a pair may match once more in this slot (R308). -/
def Slot.pairFree (s : Slot) (i o : Nat) : Bool :=
  (wideXPort i && wideXPort o) || s.pairs.all (fun (a, b, _) => !(a == i && b == o))

/-- Cells of a queue matched so far in the slot. -/
def Slot.cells (s : Slot) (i o c : Nat) : Nat := (s.pairs.filter (fun m => m == (i, o, c))).length

/-- The packets an output holds in part: those begun before the slot and those begun in it, by input and class (R306). -/
def Gikan.begun (g : Gikan) (s : Slot) (o : Nat) : List (Nat × Nat) :=
  (g.started o ++ (s.pairs.filter (fun m => m.2.1 == o)).map (fun m => (m.1, m.2.2))).dedup

/-- Padded bytes of the packets of a class that an output has begun in the slot (R309, R313). -/
def Gikan.charged (g : Gikan) (s : Slot) (o c : Nat) : Nat :=
  ((s.pairs.filter (fun m => m.2.1 == o && m.2.2 == c)).dedup).foldl (fun n m =>
    match g.voqHead m.1 o c with
    | some v => if v.sent = 0 then n + padded v.pkt else n
    | none => n) 0

/-- Whether the head packet's first cell may be asked for, output locks and DRR aside. -/
def Gikan.mayStart (g : Gikan) (s : Slot) (i o c : Nat) (v : VPkt) : Bool :=
  (v.inBuf == v.cells || (0 < v.inBuf && g.cutThrough i o c v)) &&
  (!g.on (F.XBAR_SHAPER_EN o c) || decide (((g.charged s o c * 65536 : Nat) : Int) < g.tokensOf o c)) &&
  (decide (32 ≤ o) || (g.carries o c && g.gateOpen o c (g.gateSpan o v.pkt)))

/-- Whether the pair has one more cell it may move in the class in this slot (R306, R308): the lock of a single-packet output, four packets at
most in assembly at a wide one, one packet at a time for the pair. -/
def Gikan.eligible (g : Gikan) (s : Slot) (i o c : Nat) : Bool :=
  match g.voqHead i o c with
  | none => false
  | some v =>
    let sent := v.sent + s.cells i o c
    if 0 < sent then decide (sent < v.inBuf) && (decide (32 ≤ o) || g.carries o c)
    else
      let st := g.begun s o
      (st.all (fun (j, _) => j != i)) && decide (st.length < portCells o) && g.mayStart s i o c v

/-- The tier and order of a class (R309): TC0, the strict classes in order, the rest. -/
def Gikan.tierOf (g : Gikan) (c : Nat) : Nat :=
  if c = 0 then 0 else if (g.get F.XBAR_TC_ARB_STRICT).testBit c then c else 8 + c

/-- Whether a third-tier class may start its head packet under the deficit of the output. -/
def Gikan.drrOk (g : Gikan) (s : Slot) (i o c : Nat) (v : VPkt) : Bool :=
  decide (g.tierOf c < 8) || decide (0 < v.sent + s.cells i o c) ||
    decide (g.charged s o c + padded v.pkt ≤ g.xbar.deficit.getD (shKey o c) 0)

/-- The class a pair asks for: a packet already started, else the best tier (R309). -/
def Gikan.headClass (g : Gikan) (s : Slot) (i o : Nat) : Option Nat :=
  let cs := (List.range 8).filter (fun c => g.eligible s i o c &&
    (match g.voqHead i o c with | some v => g.drrOk s i o c v | none => false))
  cs.foldl (fun b c => match b with
    | none => some c
    | some d => if g.tierOf c < g.tierOf d then some c else b) none

/-- The inputs with a packet of a class whose first cell an output could take now, the deficit aside. -/
def Gikan.drrHeads (g : Gikan) (o c : Nat) : List (Nat × VPkt) :=
  (List.range 48).filterMap (fun i =>
    match g.voqHead i o c with
    | some v => if v.sent = 0 && g.eligible Slot.zero i o c then some (i, v) else none
    | none => none)

/-- One round of the deficit round robin at an output: when packets of the third tier could start but for their deficit, and none can, each
class with such a packet gains its quantum; a class with an empty queue loses its deficit. -/
def Gikan.drrRound (g : Gikan) (o : Nat) : Gikan :=
  let third := (List.range 8).filter (fun c => 8 ≤ g.tierOf c)
  let heads := third.map (fun c => (c, g.drrHeads o c))
  if heads.all (fun x => x.2.isEmpty) || heads.any (fun x => x.2.any (fun y => g.drrOk Slot.zero y.1 o x.1 y.2)) then g
  else heads.foldl (fun h x =>
    let k := shKey o x.1
    let empty := (List.range 48).all (fun i => (h.voqHead i o x.1).isNone)
    let d := h.xbar.deficit.getD k 0
    let w := max 1 (h.get (F.XBAR_TC_ARB_WEIGHT x.1))
    { h with xbar := { h.xbar with deficit := h.xbar.deficit.setD k 0 (if empty then 0 else if x.2.isEmpty then d else d + w * 4096) } }) g

/-- Distance from a round-robin pointer. -/
def ringDist (ptr x : Nat) : Nat := (x + 48 - ptr) % 48

/-- The best of several candidates by tier, then by distance from the class's pointer. -/
def pickBest (key : (Nat × Nat) → Nat × Nat) : List (Nat × Nat) → Option (Nat × Nat)
  | [] => none
  | a :: t =>
    match pickBest key t with
    | none => some a
    | some b => if (key a).1 < (key b).1 ∨ ((key a).1 = (key b).1 ∧ (key a).2 ≤ (key b).2) then some a else some b

/-- Take up to `n` best candidates, at most `p` of those that are `new`. -/
def pickN (key : (Nat × Nat) → Nat × Nat) (new : Nat × Nat → Bool) : Nat → Nat → List (Nat × Nat) → List (Nat × Nat)
  | 0, _, _ => []
  | n + 1, p, l =>
    match pickBest key (if p = 0 then l.filter (fun a => !new a) else l) with
    | none => []
    | some b => b :: pickN key new n (if new b then p - 1 else p) (l.filter (fun a => a != b))

/-- Requests of an iteration: input, output and class. -/
def Gikan.slotRequests (g : Gikan) (s : Slot) : List (Nat × Nat × Nat) :=
  let prs := (g.xbar.voq.filter (fun (_, q) => !q.isEmpty)).map (fun (k, _) => (k / 8 / 48, k / 8 % 48))
  prs.dedup.filterMap (fun (i, o) =>
    if 0 < s.rin i ∧ 0 < s.rout o ∧ s.pairFree i o then (g.headClass s i o).map (fun c => (i, o, c)) else none)

/-- One accepted match, unless the bridge is full (R310). -/
def Slot.accept (s : Slot) (i o c : Nat) : Slot :=
  let d := portDie i
  if portDie o ≠ d then
    if 16 ≤ s.across.getD d 0 then { s with declined := true }
    else { s with across := s.across.set d (s.across.getD d 0 + 1), pairs := s.pairs ++ [(i, o, c)],
                  roomIn := s.roomIn.put i (s.rin i - 1), roomOut := s.roomOut.put o (s.rout o - 1) }
  else { s with pairs := s.pairs ++ [(i, o, c)], roomIn := s.roomIn.put i (s.rin i - 1), roomOut := s.roomOut.put o (s.rout o - 1) }

/-- The requests that an output grants: the best by tier and pointer, as many as it has room for and as many new packets as it has places. -/
def Gikan.slotGrants (g : Gikan) (s : Slot) (reqs : List (Nat × Nat × Nat)) (o : Nat) : List (Nat × Nat × Nat) :=
  let cands := (reqs.filter (fun r => r.2.1 == o)).map (fun r => (r.1, r.2.2))
  let old := g.begun s o
  (pickN (fun (i, c) => (g.tierOf c, ringDist (g.xbar.grantPtr.getD (o * 8 + c) 0) i)) (fun x => !old.contains x) (s.rout o)
    (portCells o - old.length) cands).map (fun (i, c) => (i, o, c))

/-- One iteration of request, grant and accept (R308), inputs accepting in number order. -/
def Gikan.iteration (g : Gikan) (s : Slot) : Slot :=
  let reqs := g.slotRequests s
  let grants := ((reqs.map (fun r => r.2.1)).dedup).flatMap (fun o => g.slotGrants s reqs o)
  (List.range 48).foldl (fun t i =>
    let cands := (grants.filter (fun r => r.1 == i)).map (fun r => (r.2.1, r.2.2))
    (pickN (fun (o, c) => (g.tierOf c, ringDist (g.xbar.acceptPtr.getD (i * 8 + c) 0) o)) (fun _ => false) (t.rin i) 1 cands).foldl
      (fun u (o, c) => u.accept i o c) t) s

/-- Move the pointers one past each partner matched in the first iteration. -/
def Gikan.movePtrs (g : Gikan) (pairs : List (Nat × Nat × Nat)) : Gikan :=
  pairs.foldl (fun h (i, o, c) => { h with xbar := { h.xbar with
    grantPtr := h.xbar.grantPtr.put (o * 8 + c) ((i + 1) % 48)
    acceptPtr := h.xbar.acceptPtr.put (i * 8 + c) ((o + 1) % 48) } }) g

/-- Move one cell of the head packet of a queue (R306, R309, R313). -/
def Gikan.moveCell (g : Gikan) (m : Nat × Nat × Nat) : Gikan :=
  let (i, o, c) := m
  let k := voqKey i o c
  match g.xbar.voq.getD k [] with
  | [] => g
  | v :: rest =>
    let g := if v.sent = 0 then
        let g := if g.on (F.XBAR_SHAPER_EN o c) then g.setTokens o c (g.tokensOf o c - (padded v.pkt * 65536 : Nat)) else g
        if 8 ≤ g.tierOf c then
          { g with xbar := { g.xbar with
            deficit := g.xbar.deficit.setD (shKey o c) 0 (g.xbar.deficit.getD (shKey o c) 0 - padded v.pkt) } }
        else g
      else g
    if v.sent + 1 < v.cells then
      { g with xbar := { g.xbar with voq := g.xbar.voq.put k ({ v with sent := v.sent + 1 } :: rest) } }
    else
      let g := { g with xbar := { g.xbar with voq := if rest = [] then g.xbar.voq.del k else g.xbar.voq.put k rest } }
      (g.freeInput i v.pkt).deliver o v.pkt

/-- Mark and count the packets that a gate or its guard holds at the head of a fabric output's queue (HOLDS, R315). -/
def Gikan.markHeld (g : Gikan) : Gikan :=
  g.xbar.voq.foldl (fun h (k, q) =>
    let o := k / 8 % 48
    match q with
    | v :: rest =>
      if o < 32 && v.sent == 0 && !v.gateHeld && !h.gateOpen o (k % 8) (h.gateSpan o v.pkt) then
        let h := h.inc (F.XBAR_GATE_STATUS_HOLDS o) 1
        { h with xbar := { h.xbar with voq := h.xbar.voq.put k ({ v with gateHeld := true } :: rest) } }
      else h
    | [] => h) g

/-- Iterations of a slot. -/
def Gikan.iterations (g : Gikan) : Nat → Slot → Slot
  | 0, s => s
  | n + 1, s => g.iterations n (g.iteration s)

/-- XBAR_CTRL.ITER: 0 acts as 1, 5 to 7 act as 4. -/
def Gikan.iterCount (g : Gikan) : Nat := min 4 (max 1 (g.get F.XBAR_CTRL_ITER))

/-- An answer of R345. -/
def haspAnswer : Packet → Bool
  | .resp r => r.status == stHASP
  | .req _ => false

/-- In the Hasp state the ports send the answers of R345 alone: every other packet is dropped, those in transit counted (R344, R345). -/
def Gikan.haspDrop (g : Gikan) : Gikan :=
  if !g.hasp then g else
  g.xbar.voq.foldl (fun h (k, q) =>
    let i := k / 8 / 48
    let gone := q.filter (fun v => !haspAnswer v.pkt)
    let keep := q.filter (fun v => haspAnswer v.pkt)
    let h := { h with xbar := { h.xbar with voq := if keep = [] then h.xbar.voq.del k else h.xbar.voq.put k keep } }
    let h := gone.foldl (fun h v => h.freeInput i v.pkt) h
    if i < 32 then h.inc F.FLT_HASP0_TRANSIT_DROPS gone.length else h)
    { g with xbar := { g.xbar with backlog := (g.xbar.backlog.mapV (fun _ l => l.filter (fun x => haspAnswer x.2))).filter (fun x => !x.2.isEmpty) } }

/-- One slot of two SCLK cycles: matches, their cells, token accrual (R308). Packets that become whole at one output in the slot are passed in the
order of their inputs (R306). -/
def Gikan.slot (g : Gikan) : Gikan :=
  let g := g.haspDrop
  let g := g.markHeld
  let g := (List.range 48).foldl (fun h o => (h.drrRound o).drrRound o) g
  let s1 := g.iteration Slot.zero
  let s := g.iterations (g.iterCount - 1) s1
  let g := g.movePtrs s1.pairs
  let g := ((List.range 48).flatMap (fun i => s.pairs.filter (fun m => m.1 == i))).foldl (fun h m => h.moveCell m) g
  let g := if s.declined then g.inc F.XBAR_EVENTS_BRIDGE_DECLINED 1 else g
  g.accrue.refillAll

/-! Events and registers of this chapter -/

/-- A packet of a fabric input that retrains, not yet wholly received, ends as R312 gives; `retrain` is what a fabric output does. -/
def Gikan.endPartial (g : Gikan) (p : Nat) : Gikan × List Nat :=
  g.xbar.voq.foldl (fun (h, outs) (k, q) =>
    if k / 8 / 48 = p then
      let cutq := q.filter (fun v => v.inBuf < v.cells)
      let keep := q.filter (fun v => !(decide (v.inBuf < v.cells)))
      let o := k / 8 % 48
      let crossed := cutq.any (fun v => 0 < v.sent)
      let h := { h with xbar := { h.xbar with voq := if keep = [] then h.xbar.voq.del k else h.xbar.voq.put k keep } }
      let h := cutq.foldl (fun h v => h.subUsed p (bufUnits v.pkt)) h
      (h.inc F.XBAR_EVENTS_CT_ENDED cutq.length, if crossed && decide (o < 32) then outs ++ [o] else outs)
    else (h, outs)) (g, [])

/-! Narrowing and waking (R360, R361) -/

/-- Flit times that one direction of a port has counted since it became ACTIVE (R361). -/
def Gikan.txFlits (g : Gikan) (p : Nat) : Nat := (g.link p).txAt.1 + (g.now - (g.link p).txAt.2) / g.flitNs p
def Gikan.rxFlits (g : Gikan) (p : Nat) : Nat := (g.link p).rxAt.1 + (g.now - (g.link p).rxAt.2) / (16 / g.rxLanes p)

/-- The flit with the header fields of the moment; a NAK that is due goes with it. -/
def Gikan.sendFlit (g : Gikan) (p : Nat) (f : Flit) : Gikan :=
  let l := g.link p
  let a := l.crNext
  let b := (a + 1) % 8
  let f := { f with nak := if l.nakDue then 1 else 0, ackValid := if l.accepted then 1 else 0, ackSeq := (l.expect + 4095) % 4096
                    crTcA := a, crTcB := b, cumA := l.cumOut.getD a 0, cumB := l.cumOut.getD b 0 }
  let f := { f with crc := flitCrc f }
  let g := if l.nakDue then g.inc (F.LNK_COUNT1_NAKS_SENT p) 1 else g
  (g.setLink p { l with nakDue := false, crNext := (a + 2) % 8 }).emit (.flit p f)

/-- A SLEEP or WAKE message, sent again every 256 flit times until AT (R361). -/
def Gikan.sendNarrowing (g : Gikan) (p : Nat) : Gikan :=
  let l := g.link p
  match l.txSched with
  | none => g
  | some s => (g.setLink p { l with txSched := some { s with sent := g.txFlits p } }).sendFlit p (msgFlit 3 (narrowSlots (if s.wake then 4 else 3) (s.at_ % 2 ^ 32)))

/-- Begin to narrow, or to widen, the sending direction of a port. -/
def Gikan.narrowTx (g : Gikan) (p : Nat) (wake : Bool) : Gikan :=
  let n := g.txFlits p
  (g.setLink p { g.link p with txSched := some ⟨wake, n + (if wake then 250000 else 16384), n⟩ }).sendNarrowing p

/-- Ports whose sending direction is narrowed, or on its way to be (R361). -/
def Gikan.narrowed (g : Gikan) : List Nat :=
  (List.range 32).filter (fun p => (g.link p).txNarrow || (match (g.link p).txSched with | some s => !s.wake | none => false))

/-- An exit from the power state begins, to state `to_`; from Q3 every narrowed port is told to widen. -/
def Gikan.beginExit (g : Gikan) (to_ : Nat) : Gikan :=
  let h := { g.set F.PWR_STATE_EXITING 1 with pwr := { g.pwr with exitTo := if g.on F.PWR_STATE_EXITING then min g.pwr.exitTo to_ else to_ } }
  if g.on F.PWR_STATE_EXITING || g.get F.PWR_STATE_STATE != 3 then h else h.narrowed.foldl (fun k p => k.narrowTx p true) h

/-- Work of a domain arrives: whether it must wait, and the start of an exit when it must. -/
def Gikan.wakeFor (g : Gikan) (d : Nat) : Bool × Gikan := if g.delays d then (true, g.beginExit 0) else (false, g)

/-- The counters and peaks that XBAR_CTRL.CLR_CNT clears. -/
def xbarCounters : List Fld :=
  [F.XBAR_EVENTS_CT_ENDED, F.XBAR_EVENTS_GATE_WRITE_REFUSED, F.XBAR_EVENTS_BRIDGE_DECLINED] ++
  (List.range 48).map F.XBAR_INBUF_PEAK ++ (List.range 32).map F.XBAR_GATE_STATUS_HOLDS ++
  (List.range 32).map F.XBAR_GATE_STATUS_SWAPS

/-- XBAR_SHAPER: all fields change together and the count is reset (R314). -/
def Gikan.wrShaper (g : Gikan) (w : RegW) (o c : Nat) : Gikan :=
  let g := g.putFields w (offOf (F.XBAR_SHAPER_EN o c))
    [F.XBAR_SHAPER_RATE_MBPS o c, F.XBAR_SHAPER_EN o c, F.XBAR_SHAPER_RESET_ZERO o c, F.XBAR_SHAPER_BURST o c]
  g.shaperReset o c

/-- XBAR_GATE_ENTRY: GO stores the entry, unless it is of the active list (R316). -/
def Gikan.wrGateEntry (g : Gikan) (w : RegW) : Gikan :=
  let p := g.wrValue w F.XBAR_GATE_ENTRY_PORT
  let l := g.wrValue w F.XBAR_GATE_ENTRY_LIST
  let i := g.wrValue w F.XBAR_GATE_ENTRY_INDEX
  let d := g.wrValue w F.XBAR_GATE_ENTRY_DUR_NS
  let m := g.wrValue w F.XBAR_GATE_ENTRY_MASK
  let g := g.putFields w (offOf F.XBAR_GATE_ENTRY_GO)
    [F.XBAR_GATE_ENTRY_PORT, F.XBAR_GATE_ENTRY_LIST, F.XBAR_GATE_ENTRY_INDEX, F.XBAR_GATE_ENTRY_DUR_NS, F.XBAR_GATE_ENTRY_MASK]
  if !wrOne w F.XBAR_GATE_ENTRY_GO then g
  else if g.get (F.XBAR_GATE_CTRL_ACTIVE p) = l then g.inc F.XBAR_EVENTS_GATE_WRITE_REFUSED 1
  else { g with xbar := { g.xbar with gates := g.xbar.gates.put (gateKey p l i) (d, m) } }

/-- XBAR_GATE_CTRL: a length of the active list does not change and the write is counted (R316). -/
def Gikan.wrGateCtrl (g : Gikan) (w : RegW) (p : Nat) : Gikan :=
  let act := g.get (F.XBAR_GATE_CTRL_ACTIVE p)
  let frozen := if act = 0 then F.XBAR_GATE_CTRL_LEN0 p else F.XBAR_GATE_CTRL_LEN1 p
  let other := if act = 0 then F.XBAR_GATE_CTRL_LEN1 p else F.XBAR_GATE_CTRL_LEN0 p
  let refused := wrCovers w frozen && g.wrValue w frozen != g.get frozen
  let g := g.putFields w (offOf (F.XBAR_GATE_CTRL_EN p))
    [F.XBAR_GATE_CTRL_EN p, F.XBAR_GATE_CTRL_SPLIT_OPEN p, other, F.XBAR_GATE_CTRL_GUARD_NS p]
  if refused then g.inc F.XBAR_EVENTS_GATE_WRITE_REFUSED 1 else g

/-- XBAR_GATE_SWAP_AT: arms, re-arms or disarms a swap; below TICK_COUNT + 4 it is refused (R316). -/
def Gikan.wrGateSwapAt (g : Gikan) (w : RegW) (p : Nat) : Gikan :=
  let v := g.wrValue w (F.XBAR_GATE_SWAP_AT_SWAP_AT p)
  if v = 2 ^ 64 - 1 then (g.set (F.XBAR_GATE_SWAP_AT_SWAP_AT p) v).set (F.XBAR_GATE_STATUS_ARMED p) 0
  else if v < g.tickNo + 4 then g.set (F.XBAR_GATE_STATUS_SWAP_REFUSED p) 1
  else (g.set (F.XBAR_GATE_SWAP_AT_SWAP_AT p) v).set (F.XBAR_GATE_STATUS_ARMED p) 1

/-- The swap at its boundary (R316). -/
def Gikan.gateSwap (g : Gikan) (p : Nat) : Gikan :=
  if g.on (F.XBAR_GATE_STATUS_ARMED p) && decide (g.get (F.XBAR_GATE_SWAP_AT_SWAP_AT p) ≤ g.tickNo) && g.running then
    let g := g.set (F.XBAR_GATE_CTRL_ACTIVE p) (1 - g.get (F.XBAR_GATE_CTRL_ACTIVE p))
    let g := (g.set (F.XBAR_GATE_STATUS_ARMED p) 0).set (F.XBAR_GATE_SWAP_AT_SWAP_AT p) (2 ^ 64 - 1)
    (g.set (F.XBAR_GATE_STATUS_ENTRY p) 0).inc (F.XBAR_GATE_STATUS_SWAPS p) 1
  else g

/-- The current entry of a gate list ends and the next begins; the last lasts until the boundary (R315). -/
def Gikan.gateEntryEnd (g : Gikan) (p : Nat) : Gikan :=
  let act := g.get (F.XBAR_GATE_CTRL_ACTIVE p)
  let i := g.get (F.XBAR_GATE_STATUS_ENTRY p)
  let t0 := g.xbar.gateAt.getD p 0
  let t1 := t0 + (g.gateEntry p act i).1
  if g.running && decide (i + 1 < g.gateLen p act) && decide (t1 ≤ g.time) then
    { g.set (F.XBAR_GATE_STATUS_ENTRY p) (i + 1) with xbar := { g.xbar with gateAt := g.xbar.gateAt.put p t1 } }
  else g

/-- The gates at a tick boundary: entry 0 begins (R315). -/
def Gikan.gateBoundary (g : Gikan) : Gikan :=
  (List.range 32).foldl (fun h p =>
    { h.set (F.XBAR_GATE_STATUS_ENTRY p) 0 with xbar := { h.xbar with gateAt := h.xbar.gateAt.put p h.time } }) g

/-- The packets of the sampled queue (R318). -/
def Gikan.sampledQueue (g : Gikan) : List VPkt :=
  g.xbar.voq.getD (voqKey (min 47 (g.get F.XBAR_QSAMPLE_SEL_INPUT)) (min 47 (g.get F.XBAR_QSAMPLE_SEL_OUTPUT))
    (g.get F.XBAR_QSAMPLE_SEL_TC)) []

/-- Depth in cells and head delay in ns. -/
def Gikan.queueValues (g : Gikan) : Nat × Nat :=
  let q := g.sampledQueue
  (q.foldl (fun n v => n + (v.cells - v.sent)) 0, match q with | v :: _ => g.now - v.joined | [] => 0)

/-- Whether 64 × PERIOD cycles of SCLK, 1.5 a ns, have passed since the last sample. -/
def Gikan.sampleDue (g : Gikan) : Bool :=
  match g.xbar.sampledAt with
  | some t => decide (64 * max 1 (g.get F.XBAR_QSAMPLE_SEL_PERIOD) * 2 ≤ (g.now - t) * 3)
  | none => true

/-- One sample (R318), without the monitors it feeds. -/
def Gikan.queueSample (g : Gikan) : Gikan :=
  let (d, t) := g.queueValues
  let g := { g with xbar := { g.xbar with sampledAt := some g.now } }
  let g := (g.set F.XBAR_QSAMPLE_DATA_DEPTH_LAST (min d 65535)).set F.XBAR_QSAMPLE_DELAY_DELAY_LAST_NS (min t (2 ^ 32 - 1))
  if g.xbar.qwait then g else { g with xbar := { g.xbar with qwin := g.xbar.qwin ++ [(d, t)] } }

/-- At a boundary the window's results are latched and a new window begins (R318). -/
def Gikan.qsampleBoundary (g : Gikan) : Gikan :=
  let w := g.xbar.qwin
  let ds := w.map (fun x => min x.1 65535)
  let ts := w.map (fun x => min x.2 (2 ^ 32 - 1))
  let g := if g.xbar.qwait then g else
    let g := g.set F.XBAR_QSAMPLE_DATA_DEPTH_MIN (ds.foldl min (ds.headD 0))
    let g := g.set F.XBAR_QSAMPLE_DATA_DEPTH_MAX (ds.foldl max 0)
    let g := g.set F.XBAR_QSAMPLE_DATA_SAMPLES (min w.length 65535)
    g.set F.XBAR_QSAMPLE_DELAY_DELAY_MAX_NS (ts.foldl max 0)
  { g with xbar := { g.xbar with qwin := [], qwait := false } }

end Sys2Proof.Machine
end

