-- ==== Sys2Proof/Machine/Checks.lean ====
section
/-!
DEFINITION. What every Gikan on the path of a request tests, and where the request then goes: checks 2 and 3 of R10 (R35 to R50, R54), the
resolution of R69 with the token of a handover (R82).
-/

namespace Sys2Proof.Machine

/-- Whether the partner of a fabric port is an endpoint. -/
def Gikan.endpointPort (g : Gikan) (x : Nat) : Bool := decide (x < 32) && g.get (F.LNK_STATUS_PARTNER_ROLE x) == 1

/-! Check 3: what the header and the bodies of R39 to R50 may hold -/

/-- Coherence types that R141 does not define. -/
def cohReserved (t : Nat) : Bool := isCohType t && !(decide (t ≤ tyCOMPLETE) || decide (0x28 ≤ t ∧ t ≤ 0x2D) || t == tySNPRSP || t == 0x31)

/-- Coherence types that a home or an agent sends to an agent, which no Gikan is (R139, R141). -/
def toAgent (t : Nat) : Bool := decide (0x28 ≤ t ∧ t ≤ 0x2D) || t == 0x31

/-- Reserved bits, DUP, the type and its class, MOV, and a node number that names none. -/
def headerBad (fromEndpoint : Bool) (q : Req) : Bool :=
  let h := q.hdr
  h.dup != 0 || h.rsv1 != 0 || h.rsv2 != 0 || h.rsv3 != 0 || !tcAllowed h.type h.tc ||
  cohReserved h.type || (h.mov != 0 && ((h.type != tyREAD && h.type != tyWRITE) || fromEndpoint)) || addrNode h.addr == 0xFFFE

/-- ADDR bits [47:0] and WARD of a node-addressed type (R41). -/
def nodeFieldsBad (q : Req) : Bool := nodeAddressed q && (addrOff q.hdr.addr != 0 || q.hdr.ward != 0)

/-- Widths that an atomic operation takes (R43). -/
def atomWidth (op w : Nat) : Bool :=
  if 1 ≤ op ∧ op ≤ 8 then w == 4 || w == 8
  else if op = 9 ∨ op = 10 then w == 4 || w == 8 || w == 16
  else op == 11 && w == 4

/-- The body and SUBOP of a type (R42 to R50); a LENGTH that check 8 refuses is left to it. -/
def bodyBad (q : Req) : Bool :=
  let h := q.hdr
  match h.type with
  | 0x01 => h.subop != 0
  | 0x02 => h.subop != 0
  | 0x03 =>
    if h.subop = 0 ∨ 11 < h.subop then true
    else if h.length = 0 ∨ 16 < h.length then false
    else !atomWidth h.subop h.length || h.addr % h.length != 0 ||
      atomOperand q / 256 ^ h.length != 0 || atomCompare q / 256 ^ h.length != 0
  | 0x04 => h.subop != 0 || trigRsv q != 0 || !(decide (trigEntry q < 4096) || trigEntry q == 0xFFFF)
  | 0x05 => addrOff h.addr != 0 || conRsv q != 0
  | 0x09 => h.subop != 0
  | 0x0A => h.subop != 0 || bodyField q 34 6 != 0
  | 0x0B => h.subop != 0 || bodyField q 44 4 != 0 || lendBase q % pageBytes != 0
  | 0x0C => h.subop != 0 || bodyField q 46 2 != 0 || lendBase q % pageBytes != 0
  | 0x0D => h.subop != 0 || bodyField q 36 4 != 0
  | _ => false

/-! Routing (R69, R82) -/

/-- The part of the token: execute here, hold, or send to the other Gikan of the handover. -/
inductive Token where
  | here | hold | to_ (node : Nat)
  deriving DecidableEq, Repr

def Gikan.token (g : Gikan) (entry : Nat) : Token :=
  match g.map.hand.get? entry with
  | none => .here
  | some h =>
    match h.step with
    | .aRunning => .here
    | .aStopped => .hold
    | .aDone => .to_ h.peer
    | .bWaiting => .hold
    | .bHolds => .here
    | .bReverted => .to_ h.peer
    | .aKept => .here

/-- Where a request for memory goes: as R69 resolves it under its map, but a Gikan that holds the token executes the request though that
map names the other home: A when the change was reverted, B once it has taken the token (R82). -/
def Gikan.routeMem (g : Gikan) (m : MapTab) (a : Nat) : Route :=
  match g.resolve m a with
  | .send n ps =>
    match m.extentAt (g.realAddr a) with
    | some (i, e) =>
      (match g.map.hand.get? i with
       | some h => if h.step = .aKept ∨ (h.step = .bHolds ∧ h.peer = e.home) then .home i e else .send n ps
       | none => .send n ps)
    | none => .send n ps
  | r => r

/-- A node that a node-addressed request, or a CONTRIB, names. -/
def Gikan.routeNode (g : Gikan) (n : Nat) : Route :=
  if g.isSelf n then .home 0 ExtW.none
  else
    let r := g.map.cur.routeOf n
    if 16384 ≤ n ∨ routePorts r = 0 then .refuse stNOTPRES else .send n (routePorts r)

/-! Checks 2 and 3 as a whole -/

/-- The node that a request would leave for, when it does not stay here: that of its home under the map of its epoch, or under the current
map when that epoch is dead (checks 2 and 3 come before check 4). -/
def Gikan.awayNode (g : Gikan) (q : Req) : Option Nat :=
  let n := g.targetNode q.hdr.addr
  if nodeAddressed q || q.hdr.type == tyCONTRIB then if g.isSelf n then none else some n
  else match g.routeMem ((g.liveMap q.hdr.epoch).getD g.map.cur) q.hdr.addr with
    | .home _ _ => none
    | .send k _ => some k
    | .refuse _ => if g.isSelf n then none else some n

/-- Whether a request stays at this Gikan, to be executed or refused here. -/
def Gikan.forSelf (g : Gikan) (q : Req) : Bool := (g.awayNode q).isNone

/-- Near reach: a request at its first stage that may not go on (R54). -/
def Gikan.nearBad (g : Gikan) (x : Nat) (q : Req) : Bool :=
  !g.on F.MAP_CTRL_REACH && (g.endpointPort x || decide (32 ≤ x)) && !beyondFirst q &&
  (match g.awayNode q with
   | some n => !routeAttached (g.map.cur.routeOf n)
   | none => false)

/-- Whether the way out of a request is quarantined (check 2). -/
def Gikan.pathQuar (g : Gikan) (q : Req) : Bool :=
  match g.awayNode q with
  | some n => (match g.exitPort (routePorts (g.map.cur.routeOf n)) q.hdr.tc q.hdr.src q.hdr.tag with | .inr st => st == stQUAR | .inl _ => false)
  | none => false

/-- Whether a type has a meaning of its own in R39, R81, R127 or R141. -/
def knownType (t : Nat) : Bool :=
  decide (1 ≤ t ∧ t ≤ 0x0D) || isCtlType t || decide (0x20 ≤ t ∧ t ≤ 0x24) || t == tySNPRSP

/-- Check 2 of a request here: its input, or its way out, is quarantined for its class. -/
def Gikan.quarBad (g : Gikan) (x : Nat) (q : Req) : Bool := (decide (x < 32) && g.lnkState x == 6 && q.hdr.tc != 0) || g.pathQuar q

/-- Check 3 of a request; `bad` is what its type's own chapter adds. -/
def Gikan.unsup (g : Gikan) (x : Nat) (q : Req) (bad : Bool) : Bool :=
  headerBad (g.endpointPort x) q || nodeFieldsBad q || bodyBad q || bad || g.nearBad x q || (toAgent q.hdr.type && g.forSelf q)

end Sys2Proof.Machine
end

