-- ==== Sys2Proof/Machine/Requester.lean ====
section
/-!
DEFINITION. The Gikan as a requester: tags (R56), the sending of its own requests from an engine port, the PCIe-pair port or the control
port (R14, R61, R69), and the fences that count their answers (R53).
-/

namespace Sys2Proof.Machine

/-- The engine port that a request of the Gikan's own engines leaves by, or an engine's answer: which of the six is not stated (R14;
DESIGN CHOICE: a free value, assumption 101). -/
def Gikan.engPort (g : Gikan) : Nat × Gikan := let (d, h) := g.next; (40 + Config.enginePort d % 6, h)

/-- A tag that no outstanding request holds and whose last use was sent in an earlier tick (R56). -/
def Gikan.tagFree (g : Gikan) (t : Nat) : Bool :=
  (g.req.outst.get? t).isNone && (match g.req.lastUse.get? t with | some k => decide (k < g.tickNo) | none => true)

/-- Take a free tag; which one is not stated (R56). -/
def Gikan.takeTag (g : Gikan) : Option (Nat × Gikan) :=
  let free := (List.range 65536).filter g.tagFree
  match free with
  | [] => none
  | t0 :: _ =>
    let (d, g1) := g.next
    some (free.getD (Config.tagPick d % free.length) t0, g1)

/-- Leave a packet for the unit behind an internal port. -/
def Gikan.toInbox (g : Gikan) (x : Nat) (p : Packet) : Gikan :=
  { g with xbar := { g.xbar with inbox := g.xbar.inbox.put x (g.xbar.inbox.getD x [] ++ [p]) } }

/-- Send a request of the Gikan's own from port `x` toward its target: to the port's own admission when this Gikan executes or refuses it,
out by the route table otherwise, after checks 2 and 3 as a fabric port makes them (R14, R35, R54, R69, R296); a refusal is the answer. -/
def Gikan.sendOwn (g : Gikan) (x : Nat) (q : Req) : Gikan :=
  let refuse := fun st => g.toInbox x (.resp (mkResp q g.node g.epoch st []))
  let out := fun (ports : Nat) =>
    if g.quarBad x q then refuse stQUAR
    else if g.unsup x q false then refuse stUNSUP
    else match g.exitPort ports q.hdr.tc q.hdr.src q.hdr.tag with
      | .inl p => g.enqueue x p (.req q)
      | .inr st => refuse st
  if nodeAddressed q || q.hdr.type == tyCONTRIB then
    match g.routeNode (addrNode q.hdr.addr) with
    | .send _ ports => out ports
    | _ => g.toInbox x (.req q)
  else
    match g.liveMap q.hdr.epoch with
    | none => g.toInbox x (.req q)
    | some m =>
      match g.routeMem m q.hdr.addr with
      | .send _ ports => out ports
      | _ => g.toInbox x (.req q)

/-- A header for a request of the Gikan's own: type, class, compartment, address, length, sub-operation, ward key. -/
def ownHdr (type tc cmpt addr length subop ward : Nat) : Hdr :=
  ⟨type, 0, 0, 0, 0, tc, 0, cmpt, 0, 0, 0, addr, 0, 0, length, subop, ward⟩

/-- Fill in what the first send fixes: SRC, EPOCH, TAG, SENT_TICK (R37, R57). -/
def Gikan.stampHdr (g : Gikan) (q : Req) (tag : Nat) : Req :=
  { q with hdr := { q.hdr with src := g.node, epoch := g.epoch, tag := tag, sentTick := g.tickNo % 65536, retry := 0 } }

/-- First send under a tag. -/
def Gikan.sendFirst (g : Gikan) (x : Nat) (q : Req) (c : Consumer) (tag : Nat) : Gikan :=
  let q := g.stampHdr q tag
  let o : OutReq := ⟨q, x, c, g.time, g.time, g.get F.TICK_PERIOD_PERIOD_US, 0⟩
  { g with req := { g.req with outst := g.req.outst.put tag o, lastUse := g.req.lastUse.put tag g.tickNo } }.sendOwn x q

/-- Issue a request of the Gikan's own, or let it wait for a tag (R56). -/
def Gikan.issue (g : Gikan) (x : Nat) (q : Req) (c : Consumer) : Gikan :=
  if g.req.waiting ≠ [] then { g with req := { g.req with waiting := g.req.waiting ++ [⟨q, x, c⟩] } }
  else
    match g.takeTag with
    | some (t, g1) => g1.sendFirst x q c t
    | none => { g with req := { g.req with waiting := g.req.waiting ++ [⟨q, x, c⟩] } }

/-- Issue a request of an engine, a mover or the Placer, by an engine port. -/
def Gikan.engOut (g : Gikan) (q : Req) (c : Consumer) : Gikan := let (x, h) := g.engPort; h.issue x q c

/-- The first request that waits for a tag goes out when one is free (R56). -/
def Gikan.issueWaiting (g : Gikan) : Gikan :=
  match g.req.waiting with
  | [] => g
  | w :: ws =>
    match g.takeTag with
    | none => g
    | some (t, g1) => ({ g1 with req := { g1.req with waiting := ws } }).sendFirst w.port w.q w.consumer t

/-- A fence learns that a request it covers has been acknowledged, and whether with an unknown outcome (R53). -/
def Gikan.fenceAck (g : Gikan) (tag : Nat) (unknown : Bool) : Gikan :=
  { g with req := { g.req with fences := g.req.fences.map (fun f =>
      if f.tags.contains tag then { f with tags := f.tags.filter (fun t => t != tag), unknown := f.unknown || unknown } else f) } }

/-- An outstanding request ends. -/
def Gikan.closeTag (g : Gikan) (tag : Nat) (unknown : Bool) : Gikan :=
  ({ g with req := { g.req with outst := g.req.outst.del tag } }).fenceAck tag unknown

/-- Resend an outstanding request byte for byte, RETRY set (R57). -/
def Gikan.resend (g : Gikan) (tag : Nat) : Gikan :=
  match g.req.outst.get? tag with
  | none => g
  | some o =>
    let q := { o.q with hdr := { o.q.hdr with retry := 1 } }
    ({ g with req := { g.req with outst := g.req.outst.put tag { o with resends := o.resends + 1, lastAt := g.time } } }).sendOwn o.port q

/-- The tags of outstanding control requests of a type for an extent. -/
def Gikan.controlTags (g : Gikan) (type entry : Nat) : List Nat :=
  (g.req.outst.filter (fun (_, o) => o.q.hdr.type == type &&
    (match o.consumer with | .control e _ => e == entry | _ => false))).map (fun e => e.1)

/-- Close every outstanding control request of a type for an extent. -/
def Gikan.closeControl (g : Gikan) (type entry : Nat) : Gikan :=
  (g.controlTags type entry).foldl (fun h t => h.closeTag t false) g

/-- Send a control request to a node: 16 bytes of body, sent from the control port (R81, R127). -/
def Gikan.sendControl (g : Gikan) (type node entry line : Nat) (body payload : List Byte) : Gikan :=
  let h := ownHdr type 0 0 (mkAddr node 0) payload.length 0 0
  g.issue 47 ⟨h, fit body 16, payload⟩ (.control entry line)

/-- When a request answered BUSY_RETRY goes out again: one tick period after its last send (R61). -/
def OutReq.againAt (o : OutReq) : Nat := o.lastAt + 1000 * o.periodUs

/-- Let a request wait until it may be sent again after BUSY_RETRY. -/
def Gikan.sendAgain (g : Gikan) (a : Again) : Gikan := { g with req := { g.req with again := g.req.again ++ [a] } }

/-- Whole tick periods since an outstanding request's first send (R61). -/
def Gikan.ticksOut (g : Gikan) (o : OutReq) : Nat := (g.time - o.firstAt) / (1000 * max 1 o.periodUs)

end Sys2Proof.Machine
end

