-- ==== Sys2Proof/Machine/Placer.lean ====
section
/-!
DEFINITION. Placement pages and frames: states, allocation and release (R97, R98, R105 to R108), access to pages and what a write does to
its page (R110, R111, R117), eviction (R112 to R115), fetches, lent copies (R123), and the home copy's lines (R129).
-/

namespace Sys2Proof.Machine

/-! Page records -/

def PageRec.unbacked : PageRec := ⟨.unbacked, .none, 0, 0, false, .none, none⟩

def pageKey (entry p : Nat) : Nat := entry * 2 ^ 24 + p

def Gikan.page (g : Gikan) (entry p : Nat) : PageRec := g.tier.pages.getD (pageKey entry p) PageRec.unbacked

def Gikan.setPage (g : Gikan) (entry p : Nat) (r : PageRec) : Gikan :=
  { g with tier := { g.tier with pages := g.tier.pages.setD (pageKey entry p) PageRec.unbacked r } }

/-- Name address of a page's first byte. -/
def pageAddr (e : ExtW) (p : Nat) : Nat := e.base + p * pageBytes

/-- A codeword of a page's frames: the unit of Mode S; in Mode B the 32 bytes of which the DRAM codeword holds one symbol each, and which of
their three granules it lies in (R87, R92). -/
def Gikan.cellUnits (g : Gikan) (entry p f0 cell : Nat) : Site × List Nat × Nat :=
  let e := g.map.cur.entry entry
  let n := cell / 128 - 8192 * f0
  let a := fun (k : Nat) => pageAddr e p + k * 4096 + cell % 128 * 32
  if e.modeB then (⟨entry, e⟩, (List.range 32).map (fun i => a (n / 3) + i), n % 3) else (⟨entry, e⟩, [a n], 0)

/-- `n` symbols of a codeword have gone wrong: of a Mode B codeword one symbol in each of `n` byte units, from one that is not stated on. -/
def Gikan.addErrors (g : Gikan) (us : List Nat) (which n : Nat) : Gikan :=
  match us with
  | [u] => if n = 0 then g else g.setBad u (g.bad.getD u 0 + n) which
  | _ =>
    if n = 0 then g else
    let (d, g) := g.next
    (List.range (min n 32)).foldl (fun h i =>
      let u := us.getD ((Config.errorByte d + i) % 32) 0
      h.setBad u (h.bad.getD u 0 + 1) which) g

/-- Frames a page of the extent takes (R87). -/
def ExtW.framesPerPage (e : ExtW) : Nat := if e.modeB then 3 else 1

/-- The policy entry of an extent (R109); entry 0 is fixed. -/
def Gikan.policyBacking (g : Gikan) (t : Nat) : Nat := if t = 0 then 0 else g.get (F.TIER_POLICY_BACKING t)
def Gikan.policyEnabled (g : Gikan) (t : Nat) : Bool := t == 0 || g.on (F.TIER_POLICY_ENABLED t)

/-! Frames -/

def Gikan.frame (g : Gikan) (f : Nat) : FrameSt := g.stk.frames.getD f .free

def Gikan.setFrame (g : Gikan) (f : Nat) (x : FrameSt) : Gikan :=
  { g with stk := { g.stk with frames := g.stk.frames.setD f .free x } }

/-- Whether start stamping has ended (R96). -/
def Gikan.stamped (g : Gikan) : Bool := g.on F.MEM_STATUS_STAMPED

/-- Count of free stamped frames. -/
def Gikan.freeFrames (g : Gikan) : Nat := if g.stamped then 30720 - g.stk.frames.length else 0

/-- Count of frames in a use. -/
def Gikan.framesIn (g : Gikan) (p : FrameSt → Bool) : Nat := (g.stk.frames.filter (fun e => p e.2)).length

/-- Count of frames that wait for their release stamping, those of the host window among them (MEM_STAMP). -/
def Gikan.framesToStamp (g : Gikan) : Nat := g.framesIn (fun x => x == .waiting || x == .windowWait)

/-- Count of released frames not yet stamped. -/
def Gikan.framesWaiting (g : Gikan) : Nat := g.framesIn (fun x => x == .waiting)

/-- Allocate `n` consecutive free stamped frames (1, or 3 in Mode B); which ones is not stated (R87, R92, R98). -/
def Gikan.allocFrames (g : Gikan) (n : Nat) (x : FrameSt) : Option (Nat × Gikan) :=
  if !g.stamped then none else
  let ok := fun f => (List.range n).all (fun i => g.frame (f + i) == .free)
  let free := (List.range (30721 - n)).filter ok
  match free with
  | [] => none
  | f0 :: _ =>
    let (d, g1) := g.next
    let f := free.getD (Config.framePick d % free.length) f0
    some (f, (List.range n).foldl (fun h i => h.setFrame (f + i) x) g1)

/-- Symbols that were in error in the frames a page now has are in error in its units (R100). -/
def Gikan.adoptErrors (g : Gikan) (entry p f n : Nat) : Gikan :=
  let hit := g.stk.freeBad.filter (fun c => decide (f * 1048576 ≤ c.1) && decide (c.1 < (f + n) * 1048576))
  hit.foldl (fun h c =>
    let (_, us, which) := h.cellUnits entry p f c.1
    { h with stk := { h.stk with freeBad := h.stk.freeBad.del c.1 } }.addErrors us which c.2) g

/-- Give a page its frames. -/
def Gikan.allocPage (g : Gikan) (entry p : Nat) (e : ExtW) : Option Gikan :=
  (g.allocFrames e.framesPerPage (.page entry p)).map (fun r => r.2.adoptErrors entry p r.1 e.framesPerPage)

/-- Release the frames of a page: they wait for their stamping (R97). -/
def Gikan.releaseFrames (g : Gikan) (entry p : Nat) : Gikan :=
  (g.stk.frames.filter (fun c => c.2 == .page entry p || c.2 == .moveTo entry p)).foldl (fun h c => h.setFrame c.1 .waiting) g

/-- Release a page whole: frames, lower copy, lent copy, data (R107, R116). -/
def Gikan.releasePage (g : Gikan) (entry p : Nat) (e : ExtW) : Gikan :=
  ((g.releaseFrames entry p).setPage entry p PageRec.unbacked).stampRange (pageAddr e p) pageBytes

/-- Take the page records of an extent away. -/
def Gikan.releaseExtent (g : Gikan) (entry : Nat) (e : ExtW) : Gikan :=
  (List.range e.pages).foldl (fun h p => h.releasePage entry p e) g

/-- Take an extent's page records away and release its frames, but leave the bytes of its range: another extent has them. -/
def Gikan.releasePages (g : Gikan) (entry : Nat) (e : ExtW) : Gikan :=
  (List.range e.pages).foldl (fun h p => (h.releaseFrames entry p).setPage entry p PageRec.unbacked) g

/-- The listed pages of the Gikan that are unplaced, lowest extent and page first (R108). -/
def Gikan.unplaced (g : Gikan) : List Nat := (g.tier.pages.filter (fun c => c.2.state == .unplaced)).map (fun c => c.1)

/-- Pages of TIER-nonzero extents homed here (R108: at most 4,194,304). -/
def Gikan.tieredPages (g : Gikan) : Nat :=
  g.map.cur.ext.foldl (fun n c => if c.2.valid && decide (c.2.home = g.node) && c.2.tier != 0 then n + c.2.pages else n) 0

/-! Eviction (R114) -/

/-- The Placer's migration loop may start a move (R115, R351): PLACER_EN, MIGRATE_FREEZE and its FLT_FREEZE bit. -/
def Gikan.mayMigrate (g : Gikan) : Bool :=
  g.on F.TIER_CTRL_PLACER_EN && !g.on F.TIER_CTRL_MIGRATE_FREEZE && !g.bitOf F.FLT_FREEZE_LOOPS 4 && !g.hasp &&
    decide (g.get F.PWR_STATE_STATE < 2)

/-- Whether a schedule entry with KEEP covers a page now (R114). -/
def Gikan.schedKeeps (g : Gikan) (entry p : Nat) : Bool :=
  let keeps := fun (s : Sched) => s.tiles.any (fun t =>
    t.keep && t.staging && !t.done && t.entry == entry && decide (t.first ≤ p ∧ p < t.first + t.pages))
  g.tier.sched.any (fun c => keeps c.2) || g.tier.nextSched.any (fun c => c.2.any keeps)

/-- Whether a command holds a page pinned (R275). -/
def Gikan.pinnedPage (g : Gikan) (key : Nat) : Bool :=
  g.sub.kws.any (fun (k : Nat × Keyway) => k.2.cmds.any (fun c => c.pinned && c.pins.contains key))

/-- Whether a page may be evicted (R114). -/
def Gikan.evictable (g : Gikan) (entry p : Nat) (e : ExtW) (r : PageRec) : Bool :=
  e.tier != 0 && !r.kept && !g.schedKeeps entry p && r.moving == .none && (g.tier.copyA.get? entry).isNone &&
  !g.pinnedPage (pageKey entry p)

/-- Something waits for a frame (R114): a refused allocation, a fetch, or an unplaced page. -/
def Gikan.frameWanted (g : Gikan) : Bool := g.tier.asked || !g.tier.want.isEmpty || !g.unplaced.isEmpty

/-- FREE_TARGET; larger values act as 1,024. -/
def Gikan.freeTarget (g : Gikan) : Nat := min 1024 (g.get F.TIER_CTRL_FREE_TARGET)

/-- Eviction has reached its aim (R114). -/
def Gikan.evictDone (g : Gikan) : Bool := decide (g.freeTarget ≤ g.freeFrames) && !g.frameWanted

/-- Put a page into a list in order of heat, then extent index, then page. -/
def heatInsert (x : Nat × Nat) : List (Nat × Nat) → List (Nat × Nat)
  | [] => [x]
  | y :: t => if x.1 < y.1 ∨ (x.1 = y.1 ∧ x.2 < y.2) then x :: y :: t else y :: heatInsert x t

/-- Keys of the pages in a state, coldest first (R114). -/
def Gikan.byHeat (g : Gikan) (st : PageState) : List Nat :=
  ((g.tier.pages.filter (fun c => c.2.state == st)).foldl (fun l c => heatInsert (c.2.heat, c.1) l) []).map (fun x => x.2)

/-- Drop a clean copy: the page becomes LOWER (R114). -/
def Gikan.dropPage (g : Gikan) (entry p : Nat) : Gikan :=
  let r := g.page entry p
  let g := ((g.releaseFrames entry p).forgetErrors (pageAddr (g.map.cur.entry entry) p) pageBytes)
  (g.setPage entry p { r with state := .lower, moving := .none }).inc F.TIER_EVENTS_DROPS 1

/-- A page of a loan of a compartment that is free for a copy (R122, R123). -/
def Gikan.loanRoom (g : Gikan) (cmpt : Nat) : Option Nat :=
  let used := g.tier.pages.filterMap (fun c => c.2.lent.map (fun l => l.addr))
  g.tier.loans.findSome? (fun l =>
    if l.cmpt = cmpt then
      (List.range l.pages).findSome? (fun i =>
        let a := l.base + i * pageBytes
        if l.closed.contains i || used.contains a then none else some a)
    else none)

/-- Take granules from a budget (0 DEMOTE, 1 PEER, 2 LEND, 3 RELOC): how many, and the state after (R113). -/
def Gikan.spend (g : Gikan) (i n : Nat) : Nat × Gikan :=
  let b := g.tier.budget.getD i 0
  let k := min b n
  (k, { g with tier := { g.tier with budget := g.tier.budget.set i (b - k) } })

/-- Whether flash writes may be issued (R136, R137). -/
def Gikan.flashWritable (g : Gikan) : Bool := g.on F.TIER_STATUS_FTL_READY && !g.on F.TIER_STATUS_SAG_HOLD && !g.hasp

/-- Free pages of a host pool, lowest first (R126). -/
def Gikan.poolFree (g : Gikan) (s : Side) : List Nat :=
  let i := match s with | .a => 0 | .b => 1
  let used := g.tier.pages.filterMap (fun c => match c.2.lowerAt with | .host t n => if t = s then some n else none | _ => none)
  if (g.port s).up then (List.range (g.get (F.TIER_HOST_PAGES i))).filter (fun n => !used.contains n) else []

/-- The pool a demotion goes to: the one with more free pages, A when equal (R126). -/
def Gikan.pickPool (g : Gikan) : Option LowerAt :=
  let a := g.poolFree .a
  let b := g.poolFree .b
  if b.length ≤ a.length then a.head?.map (.host .a) else b.head?.map (.host .b)

/-- PCIe address of a page of a pool. -/
def Gikan.poolAddr (g : Gikan) (s : Side) (n : Nat) : Nat :=
  let i := match s with | .a => 0 | .b => 1
  g.get (F.TIER_HOST_BASE i) * 2 ^ 25 + n * pageBytes

/-- Blocks of the flash. -/
def Gikan.flashBlocks (g : Gikan) : Nat :=
  popCount (g.get F.TIER_FLASH_GEOM_CHANNELS) 16 * g.get F.TIER_FLASH_GEOM_TARGETS * g.get F.TIER_FLASH_GEOM_LUNS *
    g.get F.TIER_FLASH_GEOM_PLANES * g.get F.TIER_FLASH_GEOM_BLOCKS_PER_PLANE

/-- Flash pages of 16 KiB, and those that may hold data: raw × (100 − OP_PCT) ÷ 100 (R134). -/
def Gikan.flashPages (g : Gikan) : Nat := g.flashBlocks * g.get F.TIER_FLASH_GEOM_PAGES_PER_BLOCK
def Gikan.flashUsable (g : Gikan) : Nat :=
  let o := g.get F.TIER_FLASH_CFG_OP_PCT
  g.flashPages * (100 - (if o < 7 ∨ 50 < o then 12 else o)) / 100

/-- Whether flash has room for one more placement page of 2,048 flash pages (R134). -/
def Gikan.flashRoom (g : Gikan) : Bool :=
  let used := (g.tier.pages.filter (fun c => match c.2.lowerAt with | .flash _ => true | _ => false)).length
  decide (2048 * (used + 1) ≤ g.flashUsable)

/-- The blocks that hold flash pages `a` to `b − 1` of a demoted page (R134). -/
def Gikan.blocksOf (g : Gikan) (d a b : Nat) : List Nat :=
  ((List.range (b - a)).map (fun i => Config.flashBlock d (a + i) % max 1 g.flashBlocks)).foldl insNat []

/-- The journal shows blocks open, or closed (R136). -/
def Gikan.openBlocks (g : Gikan) (bs : List Nat) : Gikan := { g with tier := { g.tier with openBlocks := bs.foldl insNat g.tier.openBlocks } }
def Gikan.closeBlocks (g : Gikan) (bs : List Nat) : Gikan := { g with tier := { g.tier with openBlocks := g.tier.openBlocks.filter (fun b => !bs.contains b) } }

/-- Whether the backing of a policy can take a page now (R109, R126, R134, R136); during SAG warning nothing is demoted (R137). -/
def Gikan.canDemote (g : Gikan) (t : Nat) : Bool :=
  !g.on F.TIER_STATUS_SAG_HOLD &&
  (match g.policyBacking t with
   | 1 => g.flashWritable && g.flashRoom
   | 2 => g.pickPool.isSome
   | _ => false)

/-- Where a page is demoted to. -/
def Gikan.demoteTarget (g : Gikan) (t : Nat) : Option (LowerAt × Gikan) :=
  if !g.canDemote t then none
  else if g.policyBacking t = 1 then let (d, h) := g.next; some (.flash d, h)
  else g.pickPool.map (fun l => (l, g))

/-- Stage 1 of eviction on one page (R114): drop it, or copy it to lent memory first within the LEND budget. -/
def Gikan.evictClean (g : Gikan) (key : Nat) : Gikan :=
  let entry := key / 2 ^ 24
  let p := key % 2 ^ 24
  let e := g.map.cur.entry entry
  let r := g.page entry p
  if g.evictDone || !g.evictable entry p e r then g
  else if !(decide (r.heat ≤ g.get (F.TIER_POLICY_COLD e.tier)) || g.frameWanted) then g
  else if decide (g.get (F.TIER_POLICY_LENT_THRESH e.tier) ≤ r.heat) && g.on (F.TIER_POLICY_LENT e.tier) && !g.frameWanted then
    match g.loanRoom e.cmpt with
    | some a => g.setPage entry p { r with moving := .lend 0 0, lent := some ⟨a, []⟩ }
    | none => g.dropPage entry p
  else g.dropPage entry p

/-- Stage 2 of eviction on one page (R114): begin its demotion. -/
def Gikan.evictDirty (g : Gikan) (key : Nat) : Gikan :=
  let entry := key / 2 ^ 24
  let p := key % 2 ^ 24
  let e := g.map.cur.entry entry
  let r := g.page entry p
  let cold := decide (r.heat ≤ g.get (F.TIER_POLICY_COLD e.tier)) &&
    decide (g.get (F.TIER_POLICY_MIN_TICKS e.tier) * 16 ≤ g.tickNo - r.since)
  if g.evictDone || !g.evictable entry p e r || !(cold || g.frameWanted) then g
  else
    match g.demoteTarget e.tier with
    | some (l, h) => h.setPage entry p { r with moving := .demote 8192, lowerAt := l }
    | none => g

/-- Write granules of the demotions under way, within the DEMOTE budget; flash writes wait out SAG warning (R113, R114, R137), and their blocks
are open in the journal (R136). -/
def Gikan.demoteStep (g : Gikan) : Gikan :=
  g.tier.pages.foldl (fun h (key, r) =>
    match r.moving with
    | .demote left =>
      let flash := match r.lowerAt with | .flash d => some d | _ => none
      if flash.isSome ∧ !h.flashWritable then h
      else
        let (k, h) := h.spend 0 left
        let h := match flash with
          | some d => if k = 0 then h else h.openBlocks (h.blocksOf d ((8192 - left) / 4) ((8192 - left + k + 3) / 4))
          | none => h
        h.setPage (key / 2 ^ 24) (key % 2 ^ 24) { r with moving := .demote (left - k) }
    | _ => h) g

/-- Copy granules of the pages that leave retired frames, within the DEMOTE budget (R131). -/
def Gikan.moveStep (g : Gikan) : Gikan :=
  g.tier.pages.foldl (fun h (key, r) =>
    match r.moving with
    | .frame d left =>
      let (k, h) := h.spend 0 left
      h.setPage (key / 2 ^ 24) (key % 2 ^ 24) { r with moving := .frame d (left - k) }
    | _ => h) g

/-- A WRITE or READ of one 4 KiB granule of lent memory, on TC3 with MOV set (R123). -/
def lentReq (type cmpt addr : Nat) (data : List Byte) : Req :=
  ⟨{ ownHdr type 3 cmpt addr 4096 0 0 with mov := 1 }, [], data⟩

/-- Write one granule of a lent copy: read from the stacks as any read is, with its CRC-32C (R99, R100, R123), by an engine port, of which R14
does not say which. -/
def Gikan.lendGranule (g : Gikan) (entry p n : Nat) : Gikan :=
  let e := g.map.cur.entry entry
  let (g, data) := g.copyOut ⟨entry, e⟩ (pageAddr e p + n * 4096) 4096
  let r := g.page entry p
  match r.lent with
  | some l =>
    (g.setPage entry p { r with lent := some { l with crc := l.crc.put n (crc32c data) } }).engOut
      (lentReq tyWRITE e.cmpt (l.addr + n * 4096) data) (.lent entry p n true)
  | none => g

/-- Write granules of the lent copies under way, within the LEND budget (R113, R123). -/
def Gikan.lendStep (g : Gikan) : Gikan :=
  g.tier.pages.foldl (fun h (key, r) =>
    match r.moving with
    | .lend next answered =>
      let entry := key / 2 ^ 24
      let p := key % 2 ^ 24
      let (k, h) := h.spend 2 (8192 - next)
      let h := h.setPage entry p { r with moving := .lend (next + k) answered }
      (List.range k).foldl (fun h i => h.lendGranule entry p (next + i)) h
    | _ => h) g

/-- The Placer's eviction at a tick boundary or when a frame is awaited (R114); while the loop is frozen nothing is started (R115). -/
def Gikan.evict (g : Gikan) : Gikan :=
  if !g.mayMigrate then g else
  let g := (g.byHeat .residentClean).foldl (fun h k => h.evictClean k) g
  let g := if g.evictDone then g else (g.byHeat .resident).foldl (fun h k => h.evictDirty k) g
  { g with tier := { g.tier with asked := false } }

/-- What has been started goes on, frozen or not (R115); PLACER_EN at 0 stops demotions and copies, and the Hasp state stops all. -/
def Gikan.migrate (g : Gikan) : Gikan :=
  if g.hasp then g else
  let g := g.moveStep
  if g.on F.TIER_CTRL_PLACER_EN then (g.demoteStep).lendStep else g

/-! Creation of pages, and pages that have no frame (R107, R108) -/

/-- Frames that drops and demotions of R114 can still bring: those of pages on their way out, and of pages that may be evicted. -/
def Gikan.releasable (g : Gikan) : Nat :=
  g.tier.pages.foldl (fun n c =>
    let entry := c.1 / 2 ^ 24
    let e := g.map.cur.entry entry
    let out : Bool := match c.2.moving with
      | .demote _ => true
      | .lend _ _ => true
      | _ => g.mayMigrate && g.evictable entry (c.1 % 2 ^ 24) e c.2 &&
        (c.2.state == .residentClean || (c.2.state == .resident && g.canDemote e.tier))
    if out then n + 1 else n) 0

/-- OVERCOMMIT while pages are unplaced that neither frames in stamping nor the drops and demotions of R114 will hold, or because the pages of
TIER-nonzero extents pass their limit; its setting logs a contained fault. -/
def Gikan.checkOvercommit (g : Gikan) : Gikan :=
  let excess := decide (g.framesWaiting + g.releasable < g.unplaced.length) || decide (4194304 < g.tieredPages)
  let was := g.on F.TIER_STATUS_OVERCOMMIT
  let g := g.setB F.TIER_STATUS_OVERCOMMIT excess
  if excess && !was then g.contained 55 0xFFFF (offOf F.TIER_STATUS_OVERCOMMIT) else g

/-- The header of a publish region, kept by the home (R83): stamping leaves VERSION 0 and PUBLISHER 0xFFFE in the unit that holds it, whose
other bytes are zero, as soon as the region's first page has a frame of its own. -/
def Gikan.stampHeader (g : Gikan) (s : Site) (p : Nat) : Gikan :=
  if s.e.pub && p == 0 then
    let g := { g with mem := memPutN g.mem s.e.base (fit (leBytes 4 0 ++ leBytes 2 0xFFFE) 8) }
    { g with clean := ((List.range (if s.e.modeB then 8 else 1)).map (fun i => s.e.base + i)).foldl insNat g.clean }
  else g

/-- The state a new page of an extent takes (R107). -/
def newPageState (e : ExtW) : PageState := if e.tier ≠ 0 then .unbacked else if e.comp = 0 then .resident else .slack

/-- Create one page of an added extent (R107): without a frame it is unplaced (R108). -/
def Gikan.createPage (g : Gikan) (entry : Nat) (e : ExtW) (p : Nat) : Gikan :=
  if e.tier ≠ 0 then g
  else
    match g.allocPage entry p e with
    | some g1 =>
      let g1 := g1.setPage entry p { PageRec.unbacked with state := newPageState e, since := g.tickNo }
      if e.comp = 0 then g1.stampHeader ⟨entry, e⟩ p else g1
    | none => g.setPage entry p { PageRec.unbacked with state := .unplaced }

/-- The pages of the last `n` of an extent's pages, from the highest down, that hold nothing: they are left unplaced. -/
def Gikan.leaveUnplaced (g : Gikan) (entry : Nat) (e : ExtW) (n : Nat) : Nat × Gikan :=
  (List.range e.pages).foldl (fun (k, h) i =>
    let p := e.pages - 1 - i
    if k = 0 ∨ (h.page entry p).state ≠ .unbacked then (k, h)
    else (k - 1, h.setPage entry p { h.page entry p with state := .unplaced })) (n, g)

/-- Leave the pages of TIER-nonzero extents past the limit of R108 unplaced, from the highest extent index and page down among those that have
no frame, and no others. -/
def Gikan.fitTiered (g : Gikan) : Gikan :=
  let tiered := g.unplaced.filter (fun k => (g.map.cur.entry (k / 2 ^ 24)).tier != 0)
  let g := tiered.foldl (fun h k =>
    h.setPage (k / 2 ^ 24) (k % 2 ^ 24) { h.page (k / 2 ^ 24) (k % 2 ^ 24) with state := .unbacked }) g
  let excess := g.tieredPages - 4194304
  if excess = 0 then g else
  let mine := (g.map.cur.ext.filter (fun c => c.2.valid && decide (c.2.home = g.node) && c.2.tier != 0)).reverse
  (mine.foldl (fun (n, h) c => if n = 0 then (n, h) else h.leaveUnplaced c.1 c.2 n) (excess, g)).2

/-- Create an added extent's pages (R107, R108): its range is as stamping leaves it, its lines are in no agent's hands (R143). -/
def Gikan.createExtent (g : Gikan) (entry : Nat) (e : ExtW) : Gikan :=
  let g := { g with coh := { g.coh with dir := outside g.coh.dir e.base e.len } }.stampRange e.base e.len
  (List.range e.pages).foldl (fun h p => h.createPage entry e p) g

/-- After extents have been created or released: the limit of R108, the drops and demotions that unplaced pages call for, OVERCOMMIT. -/
def Gikan.placed (g : Gikan) : Gikan :=
  let g := g.fitTiered
  (if g.unplaced.isEmpty then g else g.evict).checkOvercommit

/-! Fetches (R110) -/

/-- Granules that one read of the lower copy brings: four of a flash page, else one (R110, R134). -/
def PageRec.span (r : PageRec) : Nat := match r.lent, r.lowerAt with | none, .flash _ => 4 | _, _ => 1

/-- The granule that a fetch brings in next: those of the read that holds the granule touched first, then the rest in address order. -/
def PageRec.nextGranule (r : PageRec) : Option Nat :=
  match r.moving with
  | .fetch _ first got _ =>
    let w := r.span
    match ((List.range w).map (fun i => first / w * w + i)).find? (fun n => !got.contains n) with
    | some n => some n
    | none => (List.range 8192).find? (fun n => !got.contains n)
  | _ => none

/-- Ask the page's lower tier for the next granule: a PCIe read of the pool page, or a READ of the lent copy (R110, R123, R126). -/
def Gikan.fetchNext (g : Gikan) (entry p : Nat) : Gikan :=
  let r := g.page entry p
  match r.nextGranule with
  | none => g
  | some n =>
    match r.lent with
    | some l => g.engOut (lentReq tyREAD (g.map.cur.entry entry).cmpt (l.addr + n * 4096) []) (.lent entry p n false)
    | none =>
      match r.lowerAt with
      | .host s k => g.emit (.hostRead s (g.poolAddr s k + n * 4096) 4096)
      | _ => g

/-- Start a fetch of a LOWER page unless one runs; without a free frame it waits for one (R110, R114). -/
def Gikan.startFetch (g : Gikan) (entry p first : Nat) (staged : Bool) : Gikan :=
  let r := g.page entry p
  if r.state ≠ .lower ∨ r.moving ≠ .none then g
  else
    match g.allocPage entry p (g.map.cur.entry entry) with
    | some g1 => (g1.setPage entry p { r with moving := Moving.fetch staged first [] false }).fetchNext entry p
    | none =>
      if (g.tier.want.get? (pageKey entry p)).isSome then g
      else { g with tier := { g.tier with want := g.tier.want.put (pageKey entry p) (first, staged) } }

/-- A page has all its granules: it is RESIDENT_CLEAN (R106, R120), or RESIDENT if a granule was written meanwhile. -/
def Gikan.fetchDone (g : Gikan) (entry p : Nat) (r : PageRec) (dirty : Bool) : Gikan :=
  let r' := if dirty then { r with state := .resident, lowerAt := .none, lent := none } else { r with state := .residentClean }
  (g.setPage entry p { r' with moving := .none, since := g.tickNo }).inc F.TIER_EVENTS_FETCHES 1

/-- A granule has been written to the frame of a page being fetched; the next one is asked for. -/
def Gikan.granuleIn (g : Gikan) (entry p n : Nat) : Gikan :=
  let r := g.page entry p
  match r.moving with
  | .fetch staged first got dirty =>
    let got := insNat got n
    let g := g.forgetErrors (pageAddr (g.map.cur.entry entry) p + n * 4096) 4096
    if got.length = 8192 then g.fetchDone entry p r dirty
    else (g.setPage entry p { r with moving := .fetch staged first got dirty }).fetchNext entry p
  | _ => g

/-- Give waiting fetches and unplaced pages the frames that have become free: unplaced pages lowest first (R108), then the fetches. -/
def Gikan.placeWaiting (g : Gikan) : Gikan :=
  let g := g.unplaced.foldl (fun h k =>
    let entry := k / 2 ^ 24
    let p := k % 2 ^ 24
    let e := h.map.cur.entry entry
    if e.tier ≠ 0 then h else
    match h.allocPage entry p e with
    | some h1 =>
      let h1 := h1.setPage entry p { PageRec.unbacked with state := newPageState e, since := h.tickNo }
      if e.comp = 0 then h1.stampHeader ⟨entry, e⟩ p else h1
    | none => h) g
  let g := g.tier.want.foldl (fun (h : Gikan) w =>
    if h.freeFrames = 0 then h
    else { h with tier := { h.tier with want := h.tier.want.del w.1 } }.startFetch (w.1 / 2 ^ 24) (w.1 % 2 ^ 24) w.2.1 w.2.2) g
  g.placed

/-! Access (R110, R111, R117) -/

/-- The granules that a span touches: page and granule number. -/
def granules (s : Site) (a n : Nat) : List (Nat × Nat) :=
  if n = 0 then [] else
  let o := a - s.e.base
  (List.range ((o + n - 1) / 4096 - o / 4096 + 1)).map (fun i => ((o / 4096 + i) / 8192, (o / 4096 + i) % 8192))

/-- Whether a granule can be served now. -/
def granuleHere (r : PageRec) (n : Nat) (write : Bool) : Bool :=
  match r.state with
  | .resident => true
  | .residentClean => true
  | .reserved => true
  | .unbacked => !write
  | .slack => !write
  | .lower => (match r.moving with | .fetch _ _ got _ => got.contains n | _ => false)
  | .stamping => false
  | .unplaced => false

/-- A write's first touch of a slack page: its copies are dropped and its frame is stamped where it is (R117). -/
def Gikan.slackWrite (g : Gikan) (entry p : Nat) (e : ExtW) : Gikan :=
  ((g.setPage entry p { g.page entry p with state := .stamping }).stampRange (pageAddr e p) pageBytes).stampHeader ⟨entry, e⟩ p

/-- Frames that a write needs for the pages without backing among some granules. -/
def Gikan.frameNeed (g : Gikan) (s : Site) (gs : List (Nat × Nat)) : Nat :=
  s.e.framesPerPage * ((gs.map (fun c => c.1)).dedup.filter (fun p => (g.page s.entry p).state == .unbacked)).length

/-- Something asks for a frame that is not free: eviction runs at once (R114). -/
def Gikan.askFrame (g : Gikan) : Gikan := { g with tier := { g.tier with asked := true } }.evict

/-- What an access to a granule that is not there starts: the fetch of its page, the stamping of a slack page's frame on a write. -/
def Gikan.bringIn (g : Gikan) (s : Site) (p k : Nat) (write : Bool) : Gikan :=
  match (g.page s.entry p).state with
  | .lower => g.startFetch s.entry p k false
  | .slack => if write then g.slackWrite s.entry p s.e else g
  | _ => g

/-- Check 10 for a request's granules (R10, R98, R108, R110, R111, R117): whether it may run, and the placement effects of its refusal. The
pages without backing that a write touches must all find frames. -/
def Gikan.admitPages (g : Gikan) (s : Site) (a n : Nat) (write : Bool) : Bool × Gikan :=
  let gs := granules s a n
  let short := write && decide (g.freeFrames < g.frameNeed s gs)
  (gs.foldl (fun (ok, h) (p, k) =>
    let r := h.page s.entry p
    if granuleHere r k write || (r.state == .unbacked && !short) then (ok, h) else (false, h.bringIn s p k write))
    (!short, if short then g.askFrame else g))

/-- Heat of the granules touched (R112). -/
def Gikan.heatUp (g : Gikan) (s : Site) (a n : Nat) : Gikan :=
  (granules s a n).foldl (fun h (p, _) =>
    let r := h.page s.entry p
    h.setPage s.entry p { r with heat := min 255 (r.heat + 1) }) g

/-- What a write does to its page before its bytes are stored (R106, R111, R131): an unbacked page takes a frame, a clean page loses its
lower copy, a page in fetch will be RESIDENT, a demotion or a lent copy under way is abandoned, a move to another frame begins again. -/
def Gikan.dirtyPage (g : Gikan) (s : Site) (p : Nat) : Gikan :=
  let r := g.page s.entry p
  let again := fun (m : Moving) => match m with | .frame d _ => Moving.frame d 8192 | .lend _ _ => .none | .demote _ => .none | m => m
  match r.state with
  | .unbacked =>
    match g.allocPage s.entry p s.e with
    | some g1 => (g1.setPage s.entry p { r with state := .resident, since := g.tickNo }).stampHeader s p
    | none => g
  | .residentClean => g.setPage s.entry p { r with state := .resident, lowerAt := .none, lent := none, moving := again r.moving }
  | .resident =>
    let g := match r.moving, r.lowerAt with | .demote _, .flash d => g.closeBlocks (g.blocksOf d 0 2048) | _, _ => g
    g.setPage s.entry p { r with lowerAt := .none, moving := again r.moving }
  | .lower =>
    match r.moving with
    | .fetch st first got _ => g.setPage s.entry p { r with moving := .fetch st first got true }
    | _ => g
  | .reserved => g.setPage s.entry p { r with moving := again r.moving }
  | _ => g

/-- The pages a span touches. -/
def pagesOf (s : Site) (a n : Nat) : List Nat :=
  if n = 0 then [] else
  let o := a - s.e.base
  (List.range ((o + n - 1) / pageBytes - o / pageBytes + 1)).map (fun i => o / pageBytes + i)

/-- HOME_LINE to B for one line just written (R129): one outstanding at most, sent again after its answer when written again. -/
def Gikan.sendHomeLine (g : Gikan) (entry : Nat) (e : ExtW) (c : CopyA) (line : Nat) : Gikan :=
  match c.lines.get? line with
  | some _ => { g with tier := { g.tier with copyA := g.tier.copyA.put entry { c with lines := c.lines.put line true } } }
  | none =>
    let g := { g with tier := { g.tier with copyA := g.tier.copyA.put entry { c with lines := c.lines.put line false } } }
    let (g, data) := g.copyOut ⟨entry, e⟩ (e.base + line) (min 128 (e.len - line))
    g.sendControl tyHOMELINE c.peer entry line (leBytes 2 entry ++ leBytes 2 0 ++ leBytes 8 line ++ leBytes 4 0) (fit data 128)

/-- The lines that a write touched go to B while a home copy runs (R129). -/
def Gikan.copyLines (g : Gikan) (s : Site) (a n : Nat) : Gikan :=
  if (g.tier.copyA.get? s.entry).isNone || n == 0 then g else
  let o := a - s.e.base
  (List.range ((o + n - 1) / 128 - o / 128 + 1)).foldl (fun h i =>
    match h.tier.copyA.get? s.entry with
    | some c => h.sendHomeLine s.entry s.e c ((o / 128 + i) * 128)
    | none => h) g

/-- A write to an extent by anyone: pages, bytes, lines of a home copy. -/
def Gikan.store (g : Gikan) (s : Site) (a : Nat) (data : List Byte) : Gikan :=
  let g := (pagesOf s a data.length).foldl (fun h p => h.dirtyPage s p) g
  (g.writeMem s a data).copyLines s a data.length

/-- A store of poison: the units touched are left zero with the signature (R99); the lines go to B as any store's do (R129). -/
def Gikan.storePoison (g : Gikan) (s : Site) (a n : Nat) : Gikan :=
  let g := (pagesOf s a n).foldl (fun h p => h.dirtyPage s p) g
  (g.poisonMem s a n).copyLines s a n

/-- An engine's access to pages (R111): granules that are not there, and pages without backing for which a write finds no frame, are noted as
what its step stalls on. -/
def Gikan.engineTouch (g : Gikan) (s : Site) (a n : Nat) (write : Bool) : Gikan :=
  let gs := granules s a n
  let short := write && decide (g.freeFrames < g.frameNeed s gs)
  let away := gs.filter (fun (c : Nat × Nat) =>
    let r := g.page s.entry c.1
    !(granuleHere r c.2 write || (r.state == .unbacked && !short)))
  { g with tier := { g.tier with stall := g.tier.stall ++ away.map (fun (c : Nat × Nat) => (s.entry, c.1, c.2, write)) } }.heatUp s a n

/-- The register that counts a stall on a page: flash 0, host 1, lent 2, a frame 3 (R111). -/
def stallClass (r : PageRec) : Nat :=
  match r.state with
  | .lower => if r.lent.isSome then 2 else (match r.lowerAt with | .host _ _ => 1 | _ => 0)
  | _ => 3

/-- Count a stalled work item on a page: in the register of its tier, for the extent, for its compartment. -/
def Gikan.countStall (g : Gikan) (entry cls : Nat) : Gikan :=
  let (d, h) := g.next
  let h := ((h.inc (F.TIER_STALL_EVENTS cls) 1).inc (F.TIER_STALL_CYCLES_K cls) (Config.stallK d)).viewed (h.map.cur.entry entry).cmpt View.stall
  let (ev, cy) := h.tier.xstall.getD entry (0, 0)
  { h with tier := { h.tier with xstall := h.tier.xstall.put entry (satAdd 32 ev 1, satAdd 32 cy (Config.stallK d)) } }

/-- An engine's read (R94, R99): data, with poisoned bytes zero, and whether any unit was poisoned. -/
def Gikan.engineRead (g : Gikan) (s : Site) (a n : Nat) : Gikan × List Byte × Bool :=
  (g.engineTouch s a n false).readMem s a n 3

/-- An engine's write. -/
def Gikan.engineWrite (g : Gikan) (s : Site) (a : Nat) (data : List Byte) : Gikan :=
  (g.engineTouch s a data.length true).store s a data

/-- Discard a lent copy whose page it no longer serves. -/
def Gikan.dropLent (g : Gikan) (entry p : Nat) : Gikan :=
  let r := g.page entry p
  g.setPage entry p { r with lent := none, moving := (match r.moving with | .lend _ _ => .none | m => m) }

/-- The fetch of a page begins again from its authoritative copy: its lent copy is discarded (R110, R123, R125). -/
def Gikan.lentFailed (g : Gikan) (entry p : Nat) : Gikan :=
  let r := g.page entry p
  let (staged, first, dirty) := match r.moving with | .fetch st f _ d => (st, f, d) | _ => (false, 0, false)
  -- a page written meanwhile keeps what it has: its copies are no longer clean
  let got := match r.moving with | .fetch _ _ got true => got | _ => []
  (g.setPage entry p { r with lent := none, moving := Moving.fetch staged first got dirty }).fetchNext entry p

/-- A lent copy is no more: a fetch from it begins again. -/
def Gikan.loseLent (g : Gikan) (entry p : Nat) : Gikan :=
  match (g.page entry p).moving with
  | .fetch _ _ _ _ => g.lentFailed entry p
  | _ => g.dropLent entry p

end Sys2Proof.Machine
end

