-- ==== Sys2Proof/Machine/Maps.lean ====
section
/-!
DEFINITION. Map tables, epochs and the Hinge (R71 to R76), quiesce (R77, R78), revoke (R79, R80), and the bookkeeping of a handover
(R81, R82). What a handover does with the requests it held is in Handover.lean.
-/

namespace Sys2Proof.Machine

/-! Requests in flight under an epoch -/

/-- Whether a request is counted under an epoch: the control types are not, since their EPOCH is not tested (R81). -/
def underEpoch (e : Nat) (q : Req) : Bool := q.hdr.epoch == e && !isCtlType q.hdr.type

def packetUnder (e : Nat) (p : Packet) : Bool := match p with | .req q => underEpoch e q | .resp _ => false

/-- A held request that has not begun execution (R75). -/
def Held.idleUnder (h : Held) (e : Nat) : Bool :=
  underEpoch e h.q && (match h.why with | .token _ => true | _ => false)

/-- Requests of an epoch that have neither left nor begun execution (R75). -/
def Gikan.inflight (g : Gikan) (e : Nat) : Nat :=
  (g.req.held.filter (fun h => h.idleUnder e)).length +
  (g.xbar.voq.foldl (fun n c => n + (c.2.filter (fun v => packetUnder e v.pkt)).length) 0) +
  (g.xbar.inbox.foldl (fun n c => n + (c.2.filter (packetUnder e)).length) 0) +
  (g.lnk.foldl (fun n c => n + (c.2.buf.filter (packetUnder e)).length) 0)

/-- The previous-epoch in-flight count (PREV_INFLIGHT). -/
def Gikan.prevInflight (g : Gikan) : Nat := if g.on F.MAP_EPOCH_HINGE then g.inflight (g.get F.MAP_EPOCH_PREVIOUS) else 0

/-- A coherence message from the home to a node. -/
def Gikan.cohMsg (g : Gikan) (type dst tag line reqNode reqTag st status : Nat) (payload : List Byte) : Req :=
  let body := leBytes 8 line ++ leBytes 2 reqNode ++ leBytes 2 reqTag ++ leBytes 1 st ++ leBytes 1 (if payload.isEmpty then 0 else 1) ++
    leBytes 1 status ++ leBytes 1 0
  ⟨{ ownHdr type 1 0 (mkAddr dst 0) payload.length 0 0 with tag := tag, src := g.node, epoch := g.epoch, sentTick := g.tickNo % 65536 }, body, payload⟩

/-- A refused coherence request is answered with a GRANT, or a WB_DIRTY with a WB_ACK, that carries the code; the other coherence messages
draw no answer (R140, R145). -/
def Gikan.cohRefuse (g : Gikan) (q : Req) (st : Nat) : Gikan :=
  let t := q.hdr.type
  if t = tyCOMPLETE ∨ t = tySNPRSP ∨ (0x28 ≤ t ∧ t ≤ 0x2D) ∨ t = 0x31 then g else
  match g.exitPort (routePorts (g.map.cur.routeOf q.hdr.src)) 1 g.node q.hdr.tag with
  | .inl p => g.enqueue 47 p (.req (g.cohMsg (if t = tyWBDIRTY then 0x2D else 0x2C) q.hdr.src q.hdr.tag (bodyField q 32 8) (bodyField q 40 2)
      (bodyField q 42 2) 0 st []))
  | .inr _ => g

/-- Refuse a request: its response leaves by the way it came (from the control port). -/
def Gikan.refuse (g : Gikan) (x : Nat) (q : Req) (st : Nat) : Gikan :=
  if isCohType q.hdr.type then g.cohRefuse q st else g.answerFrom 47 x q (mkResp q g.node g.epoch st [])

/-- Take packets that have not begun to cross out of the queues, packets out of the units' boxes, and out of the links' buffers. -/
def voqDrop (f : Packet → Bool) (t : Tbl (List VPkt)) : Tbl (List VPkt) :=
  let t2 : List (Nat × List VPkt) := t.map (fun (c : Nat × List VPkt) => (c.1, c.2.filter (fun v => !(f v.pkt && v.sent == 0))))
  t2.filter (fun c => !c.2.isEmpty)
def boxDrop (f : Packet → Bool) (t : Tbl (List Packet)) : Tbl (List Packet) :=
  t.map (fun (c : Nat × List Packet) => (c.1, c.2.filter (fun p => !f p)))
def bufDrop (f : Packet → Bool) (t : Tbl PortLnk) : Tbl PortLnk :=
  t.map (fun (c : Nat × PortLnk) => (c.1, { c.2 with buf := c.2.buf.filter (fun p => !f p) }))

/-- Answer STALE_EPOCH to every request of an epoch that has not begun execution, and drop it (R75, R76). -/
def Gikan.staleAll (g : Gikan) (e : Nat) : Gikan :=
  let held := g.req.held.filter (fun h => h.idleUnder e)
  let g := { g with req := { g.req with held := g.req.held.filter (fun h => !h.idleUnder e) } }
  let g := held.foldl (fun h r => h.refuse r.x r.q stSTALE) g
  let queued : List (Nat × Req × Packet) := g.xbar.voq.flatMap (fun c => c.2.filterMap (fun v =>
    match v.pkt with | .req q => if underEpoch e q && v.sent == 0 then some (c.1 / 8 / 48, q, v.pkt) else none | .resp _ => none))
  let g := { g with xbar := { g.xbar with
    voq := voqDrop (packetUnder e) g.xbar.voq } }
  let g := queued.foldl (fun h t => (h.freeInput t.1 t.2.2).refuse t.1 t.2.1 stSTALE) g
  let boxed : List (Nat × Req) := g.xbar.inbox.flatMap (fun c => c.2.filterMap (fun p =>
    match p with | .req q => if underEpoch e q then some (c.1, q) else none | .resp _ => none))
  let g := { g with xbar := { g.xbar with inbox := boxDrop (packetUnder e) g.xbar.inbox } }
  let g := boxed.foldl (fun h t => h.refuse t.1 t.2 stSTALE) g
  let rx : List (Nat × Req × Packet) := g.lnk.flatMap (fun c => c.2.buf.filterMap (fun p =>
    match p with | .req q => if underEpoch e q then some (c.1, q, p) else none | .resp _ => none))
  let g := { g with lnk := bufDrop (packetUnder e) g.lnk }
  rx.foldl (fun h t => (h.freeInput t.1 t.2.2).refuse t.1 t.2.1 stSTALE) g

/-! Staging (R71) -/

/-- The members that MAP_DOMAIN_0 to MAP_DOMAIN_3 name (R67). -/
def Gikan.domainRegs (g : Gikan) : List Nat :=
  ((List.range 16).map (fun i => g.get (F.MAP_DOMAIN_MEMBER (i / 4) (i % 4)))).filter (fun n => n != 0xFFFE)

/-- Whether a validated commit is armed. -/
def Gikan.armed (g : Gikan) : Bool := g.on F.MAP_STATUS_ARMED

/-- A write that ARMED locks out is counted (R72). -/
def Gikan.locked (g : Gikan) : Gikan := g.inc F.MAP_STATUS_LOCKED_WRITES 1

/-- A write of MAP_STAGE_DATA0 to DATA3 (R71): DATA3 stores an extent entry, DATA0 with ROUTE a route entry, and INDEX advances. A 32-bit
write of either half of a storing register stores, with the other half as it was, and advances INDEX: R71 does not say whether half a
write stores (DESIGN CHOICE, assumption 141). -/
def Gikan.wrStageData (g : Gikan) (w : RegW) (n : Nat) : Gikan :=
  if g.armed then g.locked else
  let m := halfMask w.half
  let old := g.map.stageW.getD n 0
  let v := (w.data.toNat &&& m) ||| (old - (old &&& m))
  let ws := g.map.stageW.set n v
  let i := g.get F.MAP_STAGE_INDEX_INDEX
  let g := { g with map := { g.map with stageW := ws } }
  let step := fun (h : Gikan) => h.set F.MAP_STAGE_INDEX_INDEX (i + 1)
  if g.on F.MAP_STAGE_INDEX_ROUTE then
    if n ≠ 0 then g
    else if 16384 ≤ i then step g
    else
      let st := g.map.stage
      step { g with map := { g.map with stage := { st with route := st.route.setD i 0 v } } }
  else if n ≠ 3 then g
  else
    let st := g.map.stage
    let e : ExtW := ⟨ws.getD 0 0, ws.getD 1 0, ws.getD 2 0, v⟩
    step { g with map := { g.map with stage := { st with ext := st.ext.setD i ExtW.none e } } }

/-! Validation (R72) -/

/-- The indices of entries in either of two tables. -/
def bothKeys (a b : Tbl ExtW) : List Nat := (a.map (fun c => c.1)).foldl insNat (b.map (fun c => c.1))

/-- Two valid extents of one naming node overlap. -/
def overlap (a b : ExtW) : Bool :=
  a.valid && b.valid && a.node == b.node && decide (a.off < b.off + b.len) && decide (b.off < a.off + a.len)

def anyOverlap : Tbl ExtW → Bool
  | [] => false
  | (_, e) :: t => t.any (fun c => overlap e c.2) || anyOverlap t

/-- R65, R66, R93, R109, R138: an entry's own fields. -/
def Gikan.entryBad (g : Gikan) (e : ExtW) : Bool :=
  e.valid &&
  (!assignable e.node || e.off % 4096 != 0 || decide (e.len < 4096) || e.len % 4096 != 0 || decide (2 ^ 48 < e.off + e.len) ||
   e.rsvBad || decide (2 < e.comp) || (e.coh && (!e.seated || e.comp != 0 || e.pub)) ||
   (e.tier != 0 && (e.off % pageBytes != 0 || e.len % pageBytes != 0 || !g.policyEnabled e.tier || e.coh || e.modeB)) ||
   (e.modeB && e.comp != 0))

/-- Whether the token of a handover has not settled here: A has not given it up or kept it, B has neither taken it nor had its HOME_REVERT
answered (R82). -/
def Gikan.unsettled (g : Gikan) (i : Nat) (h : Handover) : Bool :=
  h.step == .aRunning || h.step == .aStopped || h.step == .bWaiting || (h.step == .bReverted && !(g.controlTags tyREVERT i).isEmpty)

/-- The home that an entry of the current map has in effect: after a reversion it is A still (R82). -/
def Gikan.effHome (g : Gikan) (i : Nat) (e : ExtW) : Nat :=
  match g.map.hand.get? i with
  | some h => if h.step = .aKept then g.node else if h.step = .bReverted then h.peer else e.home
  | none => e.home

/-- A change in place that R77 does not permit, or a second move before the token has settled (R82). -/
def Gikan.changeBad (g : Gikan) (i : Nat) (old new : ExtW) : Bool :=
  old.valid && new.valid &&
  (old.base != new.base || old.len != new.len || old.cmpt != new.cmpt || old.modeB != new.modeB || old.coh != new.coh ||
   old.seated != new.seated || old.comp != new.comp || old.pub != new.pub ||
   (old.home != new.home && (match g.map.hand.get? i with | some h => g.unsettled i h | none => false)))

/-- Whether a seated extent's compartment is quiesced (R78). -/
def Gikan.quiesced (g : Gikan) (c : Nat) : Bool := (g.get F.MAP_QUIESCE_CMPT_MASK).testBit c && g.on F.MAP_QUIESCE_DONE

/-- A change to a seated entry without what R78 asks. -/
def Gikan.seatedBad (g : Gikan) (i : Nat) (old new : ExtW) : Bool :=
  old.valid && old.seated && old != new &&
  !(if old.coh then g.quiesced old.cmpt && (old.home != g.node || g.coh.recalled.contains i)
    else g.quiesced old.cmpt || (!new.valid && g.map.revoked.get? i == some true))

/-- R67: HOME is the naming node or another member of its domain. -/
def Gikan.homeBad (g : Gikan) (e : ExtW) : Bool :=
  e.valid && e.home != e.node &&
  !((e.node == g.node || g.domainRegs.contains e.node) && (e.home == g.node || g.domainRegs.contains e.home))

/-- Bytes of the Mode B extents homed here, each rounded up to 32 MiB (R93). -/
def Gikan.modeBTotal (g : Gikan) (t : Tbl ExtW) : Nat :=
  t.foldl (fun n c => if c.2.valid && c.2.modeB && c.2.home == g.node then n + c.2.pages * pageBytes else n) 0

/-- Bytes of the coherent extents homed here (R138). -/
def Gikan.cohTotal (g : Gikan) (t : Tbl ExtW) : Nat :=
  t.foldl (fun n c => if c.2.valid && c.2.coh && c.2.home == g.node then n + c.2.len else n) 0

/-- A home handover in which this Gikan takes part has not settled. -/
def Gikan.handoverOpen (g : Gikan) : Bool :=
  g.map.hand.any (fun c => g.unsettled c.1 c.2)

/-- The lowest-numbered cause of R72 that fails, 0 when none does. -/
def Gikan.armCause (g : Gikan) (at_ : Nat) : Nat :=
  let cur := g.map.cur.ext
  let st := g.map.stage.ext
  let join := g.on F.MAP_JOIN_JOIN
  let ks := bothKeys cur st
  let pair := fun i => (Tbl.getD cur i ExtW.none, Tbl.getD st i ExtW.none)
  if at_ < g.tickNo + 16 then 1
  else if anyOverlap st then 2
  else if st.any (fun c => g.entryBad c.2) then 3
  else if !join && ks.any (fun i => g.changeBad i (pair i).1 (pair i).2) then 4
  else if !join && ks.any (fun i => g.seatedBad i (pair i).1 (pair i).2) then 5
  else if g.get F.MEM_MODEB_LIMIT < g.modeBTotal st then 6
  else if 137438953472 < g.cohTotal st then 7
  else if st.any (fun c => g.homeBad c.2) then 8
  else if !join && ks.any (fun i =>
      match g.map.revoked.get? i with
      | none => false
      | some done => (pair i).1.valid && (pair i).1 != (pair i).2 && !(done && !(pair i).2.valid)) then 9
  else if join && (g.on F.MAP_EPOCH_HINGE || g.on F.MAP_REVOKE_STATUS_DRAINING || g.handoverOpen ||
      g.get F.MAP_JOIN_EPOCH == g.epoch) then 10
  else 0

/-- All ones: no commit armed. -/
abbrev noTick : Nat := 2 ^ 64 - 1

/-- A write of MAP_ARM (R72): it disarms, then validates and arms or refuses. All ones only disarms. A disarm clears JOIN, so the rewrite
of an armed join commit arms an ordinary one unless JOIN is set again first. -/
def Gikan.wrMapArm (g : Gikan) (w : RegW) : Gikan :=
  let v := g.wrValue w F.MAP_ARM_COMMIT_AT
  let g := if g.armed then g.set F.MAP_JOIN_JOIN 0 else g
  let g := (g.set F.MAP_STATUS_ARMED 0).set F.MAP_ARM_COMMIT_AT noTick
  if v = noTick then g.set F.MAP_JOIN_JOIN 0
  else
    let c := g.armCause v
    if c = 0 then ((g.set F.MAP_STATUS_ARMED 1).set F.MAP_ARM_COMMIT_AT v).set F.MAP_STATUS_REFUSE_CAUSE 0
    else ((g.set F.MAP_STATUS_ARM_REFUSED 1).set F.MAP_STATUS_REFUSE_CAUSE c).inc F.MAP_EVENTS2_ARM_REFUSALS 1

/-! Commit and retirement (R74 to R76, R107) -/

/-- Release the pages of the entries homed here in `old` that `new` no longer holds (R107). -/
def Gikan.releaseGone (g : Gikan) (old new : Tbl ExtW) : Gikan :=
  old.foldl (fun h c =>
    if c.2.valid && c.2.home == h.node && !(Tbl.getD new c.1 ExtW.none).valid then
      (if new.any (fun d => overlap c.2 d.2) then h.releasePages c.1 c.2 else h.releaseExtent c.1 c.2)
    else h) g

/-- Frames of directory backing: 16 B per 128 B line of the coherent extents homed here (R87). -/
def Gikan.dirFrames (g : Gikan) : Nat := ceilDiv (g.cohTotal g.map.cur.ext / 8) pageBytes

/-- Bring the frames that hold directory backing to the number the current map needs. -/
def Gikan.fitDir (g : Gikan) : Gikan :=
  let have_ := (g.stk.frames.filter (fun c => c.2 == .dir)).map (fun c => c.1)
  let need := g.dirFrames
  if have_.length ≤ need then
    (List.range (need - have_.length)).foldl (fun h _ => match h.allocFrames 1 .dir with | some r => r.2 | none => h) g
  else (have_.drop need).foldl (fun h f => h.setFrame f .waiting) g

/-- Withdraw the loans of lenders that the current map cannot reach (R125): their copies are dropped and counted as copies lost. -/
def Gikan.withdrawLoans (g : Gikan) : Gikan :=
  let lost := g.tier.loans.filter (fun l => !routeUp (g.map.cur.routeOf (addrNode l.base)) && !g.isSelf (addrNode l.base))
  let hit := fun a => lost.any (fun l => decide (l.base ≤ a) && decide (a < l.base + l.pages * pageBytes))
  let g := { g with tier := { g.tier with loans := g.tier.loans.filter (fun l => !lost.contains l) } }
  g.tier.pages.foldl (fun h c => match c.2.lent with
    | some l => if hit l.addr then (h.loseLent (c.1 / 2 ^ 24) (c.1 % 2 ^ 24)).inc F.TIER_EVENTS_DROPS 1 else h
    | none => h) g

/-- Registers that follow from the current map: the Mode B total, loans. -/
def Gikan.mapChanged (g : Gikan) : Gikan :=
  let g := g.set F.MEM_MODEB_USED (g.modeBTotal g.map.cur.ext)
  (g.fitDir).withdrawLoans

/-- Release the pages of an extent whose token this Gikan has given up, once the previous map is gone. -/
def Gikan.releaseMoved (g : Gikan) (entry : Nat) (e : ExtW) : Gikan :=
  match g.map.hand.get? entry with
  | some h => if h.step == .aDone then g.releaseExtent entry e else g
  | none => g

/-- The revokes that a map no longer needs to remember: their entries are gone (R80). -/
def Gikan.forgetRevoked (g : Gikan) : Gikan :=
  { g with map := { g.map with revoked := g.map.revoked.filter (fun c => (g.map.cur.entry c.1).valid) } }

/-- The previous map retires (R75): removed entries' pages are released, and those of entries that have moved away. -/
def Gikan.retirePrev (g : Gikan) : Gikan :=
  let g := g.releaseGone g.map.prev.ext g.map.cur.ext
  let g := g.map.prev.ext.foldl (fun h c => if c.2.valid && c.2.home == h.node then h.releaseMoved c.1 c.2 else h) g
  (({ g with map := { g.map with prev := MapTab.empty } }).forgetRevoked).set F.MAP_EPOCH_HINGE 0

/-- The previous map retires at a timeout: counted requests are answered STALE_EPOCH first (R75). -/
def Gikan.retireForced (g : Gikan) : Gikan := (g.staleAll (g.get F.MAP_EPOCH_PREVIOUS)).retirePrev

/-- Handover roles that a commit opens (R82): entries whose home in effect changes between two members. Records that have not settled stay,
and B keeps the record of a token it has taken, so that a HANDOVER sent again is acknowledged again. -/
def Gikan.openHandovers (g : Gikan) (old new : Tbl ExtW) (deadline : Nat) : Gikan :=
  let kept := g.map.hand.filter (fun c => g.unsettled c.1 c.2 ||
    (c.2.step == .bHolds && (Tbl.getD new c.1 ExtW.none).valid && (Tbl.getD new c.1 ExtW.none).home == g.node))
  new.foldl (fun h c =>
    let o := Tbl.getD old c.1 ExtW.none
    let from_ := g.effHome c.1 o
    let open_ := match g.map.hand.get? c.1 with | some x => g.unsettled c.1 x | none => false
    if o.valid && c.2.valid && !open_ && from_ != c.2.home then
      if from_ == h.node then
        { h with map := { h.map with hand := h.map.hand.put c.1 ⟨.aRunning, c.2.home, h.epoch, deadline, 0⟩ } }
      else if c.2.home == h.node then
        { h with map := { h.map with hand := h.map.hand.put c.1 ⟨.bWaiting, from_, h.epoch, deadline, 0⟩ } }
      else h
    else h) { g with map := { g.map with hand := kept } }

/-- Pages of entries that a commit adds here; an entry that comes to this home without a copy gets stamped frames (R107, R129). -/
def Gikan.createAdded (g : Gikan) (old new : Tbl ExtW) : Gikan :=
  new.foldl (fun h c =>
    let o := Tbl.getD old c.1 ExtW.none
    if c.2.valid && c.2.home == h.node && (!o.valid || (o.home != h.node && (h.tier.copyB.get? c.1).isNone)) then
      h.createExtent c.1 c.2
    else h) g

/-- Minimum and maximum of MAP_HINGE as they act, in µs: timeout, grace, minimum hold. -/
def Gikan.hingeTimes (g : Gikan) : Nat × Nat × Nat :=
  let t := max 100 (g.get F.MAP_HINGE_TIMEOUT_US)
  (t, max 100 (g.get F.MAP_HINGE_GRACE_US), min t (max 1 (g.get F.MAP_HINGE_MIN_US)))

/-- Whether the armed commit's boundary has come. -/
def Gikan.commitDue (g : Gikan) : Bool := g.armed && g.running && decide (g.get F.MAP_ARM_COMMIT_AT ≤ g.tickNo)

/-- After a commit nothing is armed and the staging tables are a copy of the current map (R71, R72). -/
def Gikan.commitEnd (g : Gikan) : Gikan :=
  let g := { g with map := { g.map with stage := g.map.cur } }
  (g.set F.MAP_STATUS_ARMED 0).set F.MAP_ARM_COMMIT_AT noTick

/-- The commit of R74. -/
def Gikan.mapCommit (g : Gikan) : Gikan :=
  if !g.commitDue || g.on F.MAP_JOIN_JOIN then g else
  let g := if g.on F.MAP_EPOCH_HINGE then (g.inc F.MAP_EVENTS_FORCED 1).retireForced else g
  let old := g.map.cur
  let new : MapTab := { g.map.stage with dom := g.domainRegs }
  let (t, grace, mn) := g.hingeTimes
  let g := g.set F.MAP_EPOCH_PREVIOUS g.epoch
  let g := (g.set F.MAP_EPOCH_CURRENT (g.epoch + 1)).set F.MAP_EPOCH_HINGE 1
  let g := { g with map := { g.map with prev := old, cur := new, hingeAt := g.time, hingeMin := mn, hingeTimeout := t } }
  let g := g.openHandovers old.ext new.ext (g.time + 1000 * (t + grace))
  let g := g.createAdded old.ext new.ext
  (g.mapChanged.placed).commitEnd

/-- The join commit of R76: no Hinge, no previous map; entries kept unchanged keep their pages. What becomes of the pages of an entry that
changes is not stated: they are released and created anew, as for an entry removed and one added (DESIGN CHOICE, assumption 142). -/
def Gikan.joinCommit (g : Gikan) : Gikan :=
  if !g.commitDue || !g.on F.MAP_JOIN_JOIN then g else
  let e0 := g.epoch
  let old := g.map.cur
  let new : MapTab := { g.map.stage with dom := g.domainRegs }
  let g := { g.set F.MAP_EPOCH_CURRENT (g.get F.MAP_JOIN_EPOCH) with map := { g.map with cur := new, prev := MapTab.empty, hand := [] } }
  let g := g.staleAll e0
  let same := fun i => Tbl.getD old.ext i ExtW.none == Tbl.getD new.ext i ExtW.none
  let g := old.ext.foldl (fun h c => if c.2.valid && c.2.home == h.node && !same c.1 then h.releaseExtent c.1 c.2 else h) g
  let g := new.ext.foldl (fun h c => if c.2.valid && c.2.home == h.node && !same c.1 then h.createExtent c.1 c.2 else h) g
  let g := { g with map := { g.map with revoked := g.map.revoked.filter (fun c => same c.1 && (Tbl.getD new.ext c.1 ExtW.none).valid) } }
  ((g.mapChanged.placed).commitEnd).set F.MAP_JOIN_JOIN 0

/-- The previous map retires on its count (R75). -/
def Gikan.hingeRetire (g : Gikan) : Gikan :=
  if g.on F.MAP_EPOCH_HINGE && decide (g.map.hingeAt + 1000 * g.map.hingeMin ≤ g.time) &&
     decide (g.map.hingeMin < g.map.hingeTimeout) && g.prevInflight == 0
  then g.retirePrev else g

/-- The Hinge timeout (R75). -/
def Gikan.hingeTimeout (g : Gikan) : Gikan :=
  if g.on F.MAP_EPOCH_HINGE && decide (g.map.hingeAt + 1000 * g.map.hingeTimeout ≤ g.time) then
    (g.inc F.MAP_EVENTS_HINGE_TIMEOUTS 1).retireForced
  else g

/-! Quiesce (R78) -/

/-- A write of MAP_QUIESCE (R78): a newly masked compartment clears DONE until it has drained; no mask clears it. -/
def Gikan.wrQuiesce (g : Gikan) (w : RegW) : Gikan :=
  let old := g.get F.MAP_QUIESCE_CMPT_MASK
  let g := g.putField w F.MAP_QUIESCE_CMPT_MASK
  let new := g.get F.MAP_QUIESCE_CMPT_MASK
  let kept := g.coh.recalled.filter (fun i => (old &&& new).testBit (g.map.cur.entry i).cmpt)
  let g := { g with coh := { g.coh with recalled := kept } }
  if new = 0 ∨ (new &&& (new ^^^ old)) ≠ 0 then g.set F.MAP_QUIESCE_DONE 0 else g

/-! Revoke (R79, R80) -/

/-- Whether this Gikan holds the token of a handover in progress. -/
def Handover.holds (h : Handover) : Bool := h.step == .aRunning || h.step == .aStopped || h.step == .bHolds || h.step == .aKept

/-- A write of MAP_REVOKE with GO (R79, R80). -/
def Gikan.wrRevoke (g : Gikan) (w : RegW) : Gikan :=
  if !wrOne w F.MAP_REVOKE_GO then g else
  let i := bits w.data.toNat 0 16
  let e := g.map.cur.entry i
  let commit := fun (h : Gikan) =>
    let h := ((h.set F.MAP_REVOKE_STATUS_DRAINING 1).set F.MAP_REVOKE_STATUS_DONE 0).set F.MAP_REVOKE_STATUS_ABORTED 0
    let h := h.set F.MAP_REVOKE_STATUS_ENTRY i
    { h with map := { h.map with revoked := h.map.revoked.put i false, revokeAt := some (i, h.time) } }
  if g.on F.MAP_REVOKE_STATUS_DRAINING || (g.map.revoked.get? i).isSome then g.inc F.MAP_DUP_REVOKE_IGNORED 1
  else
    match g.map.hand.get? i with
    | some h =>
      if h.step == .aRunning || h.step == .aStopped || h.step == .bWaiting then
        if h.holds then commit g else g.emit (.revokeForward h.peer i)
      else if e.valid && (e.home == g.node && h.step != .bReverted || h.step == .aKept) then commit g
      else g.inc F.MAP_DUP_REVOKE_IGNORED 1
    | none => if e.valid && e.home == g.node then commit g else g.inc F.MAP_DUP_REVOKE_IGNORED 1

/-! Handover: the sends (R81, R82) -/

/-- The body of HANDOVER and HOME_REVERT: extent index, node number. -/
def handBody (entry node : Nat) : List Byte := leBytes 2 entry ++ leBytes 2 node ++ zeros 12

/-- Whether a previous-epoch request on the extent is counted or executing here. -/
def Gikan.prevOn (g : Gikan) (entry : Nat) : Bool :=
  let ep := g.get F.MAP_EPOCH_PREVIOUS
  let e := g.map.prev.entry entry
  let hits := fun (p : Packet) => match p with
    | .req q => underEpoch ep q && !nodeAddressed q && e.covers (g.realAddr q.hdr.addr) 1
    | .resp _ => false
  g.on F.MAP_EPOCH_HINGE &&
  (g.req.held.any (fun h => h.entry == entry && underEpoch ep h.q && (match h.why with | .token _ => false | _ => true)) ||
   g.xbar.inbox.any (fun c => c.2.any hits) || g.lnk.any (fun c => c.2.buf.any hits))

/-- Put a handover's record back. -/
def Gikan.setHand (g : Gikan) (entry : Nat) (h : Handover) : Gikan :=
  { g with map := { g.map with hand := g.map.hand.put entry h } }

/-- A stops, sends again the lines written since they were copied, and sends HANDOVER (R82). -/
def Gikan.handoverSend (g : Gikan) (entry : Nat) : Gikan :=
  match g.map.hand.get? entry with
  | none => g
  | some h =>
    if h.step != .aRunning || g.prevOn entry then g else
    let g := match g.tier.copyA.get? entry with
      | some c => c.sent.foldl (fun (k : Gikan) line =>
          k.sendHomeLine entry (k.map.prev.entry entry) ((k.tier.copyA.get? entry).getD c) line) g
      | none => g
    (g.setHand entry { h with step := .aStopped, sentAt := g.time }).sendControl tyHANDOVER h.peer entry 0 (handBody entry g.node) []

/-- A control request of R82 is sent again once per tick until it is answered. -/
def Gikan.handResend (g : Gikan) (type entry : Nat) : Gikan :=
  match g.map.hand.get? entry with
  | none => g
  | some h =>
    if g.periodNs ≤ g.time - h.sentAt then
      match g.controlTags type entry with
      | t :: _ => (g.setHand entry { h with sentAt := g.time }).resend t
      | [] => g
    else g

/-- MAP_HOME_REQ: post a change (R82, R129); a post to a full queue is dropped. -/
def Gikan.postHomeReq (g : Gikan) (entry newHome : Nat) : Gikan :=
  if 64 ≤ g.map.homeReq.length then g
  else { g with map := { g.map with homeReq := g.map.homeReq ++ [(entry, newHome, g.epoch)] } }

/-- Both sides of a reversion count it and log it (R82). -/
def Gikan.countRevert (g : Gikan) : Gikan := (g.inc F.MAP_EVENTS_REVERTS 1).contained 55 0xFFFF (offOf F.MAP_EVENTS_REVERTS)

/-- The counters of MAP_EVENTS, MAP_EVENTS2 and MAP_DUP. -/
def mapCounters : List Fld :=
  [F.MAP_EVENTS_HINGE_TIMEOUTS, F.MAP_EVENTS_FORCED, F.MAP_EVENTS_REVERTS, F.MAP_EVENTS_FUTURE_EPOCH, F.MAP_EVENTS2_PUB_CONFLICTS,
   F.MAP_EVENTS2_REVOKE_ABORTS, F.MAP_EVENTS2_LATE_DROPS, F.MAP_EVENTS2_ARM_REFUSALS, F.MAP_DUP_CACHE_FULL, F.MAP_DUP_PENDING_DROPS,
   F.MAP_DUP_AGED_OUT, F.MAP_DUP_REVOKE_IGNORED]

end Sys2Proof.Machine
end

