-- ==== Sys2Proof/Machine/Coherence.lean ====
section
/-!
DEFINITION. The directory and its transactions (R138 to R153): entries, messages, what each transaction does when it opens, when its
snoops are answered and when it closes, recall, and dead agents.
-/

namespace Sys2Proof.Machine

/-! Directory entries (R142) -/

def Dir.u : Dir := ⟨0, 0⟩

/-- STATE: 0 U, 1 S, 2 X. -/
def Dir.st (d : Dir) : Nat := bits d.w0 0 2

/-- CVEC. -/
def Dir.coarse (d : Dir) : Bool := bit d.w0 2

/-- The pointers that are valid, in their order. -/
def Dir.pointers (d : Dir) : List Nat :=
  ((List.range 4).map (fun i => bits d.w1 (16 * i) 16)).filterMap (fun p => if p.testBit 14 then some (p % 16384) else none)

/-- The agents an entry records: in coarse mode every registered agent of a group whose bit is set (R146). -/
def Gikan.recorded (g : Gikan) (d : Dir) : List Nat :=
  if d.st = 0 then []
  else if d.coarse then g.coh.agents.filter (fun n => d.w1.testBit (n / 256))
  else d.pointers

/-- The owner that an X entry records. -/
def Dir.owner (d : Dir) : Option Nat := if d.st = 2 then d.pointers.head? else none

/-- X {n}. -/
def Dir.x (n : Nat) : Dir := ⟨2, n + 2 ^ 14⟩

/-- S {} with one sharer. -/
def Dir.s1 (n : Nat) : Dir := ⟨1, n + 2 ^ 14⟩

/-- The first invalid pointer. -/
def Dir.hole (d : Dir) : Option Nat := (List.range 4).find? (fun i => !(d.w1.testBit (16 * i + 14)))

/-- Add a sharer to an S entry (or make one of U): the entry, and whether it turned to coarse mode. -/
def Dir.add (d : Dir) (n : Nat) : Dir × Bool :=
  if d.st ≠ 1 then (Dir.s1 n, false)
  else if d.coarse then (⟨d.w0, setBit d.w1 (n / 256)⟩, false)
  else if d.pointers.contains n then (d, false)
  else match d.hole with
    | some i => (⟨d.w0, d.w1 - bits d.w1 (16 * i) 16 * 2 ^ (16 * i) + (n + 2 ^ 14) * 2 ^ (16 * i)⟩, false)
    | none => (⟨5, (n :: d.pointers).foldl (fun m x => setBit m (x / 256)) 0⟩, true)

/-- Clear a valid pointer to a node (R153). -/
def Dir.clearPtr (d : Dir) (n : Nat) : Dir :=
  if d.coarse then d else
  let w := (List.range 4).foldl (fun w i => if bits w (16 * i) 16 = n + 2 ^ 14 then w - (n + 2 ^ 14) * 2 ^ (16 * i) else w) d.w1
  if w = 0 then Dir.u else ⟨d.w0, w⟩

/-- The entry of a line. -/
def Gikan.dir (g : Gikan) (a : Nat) : Dir := g.coh.dir.getD a Dir.u

def Gikan.setDir (g : Gikan) (a : Nat) (d : Dir) : Gikan := { g with coh := { g.coh with dir := g.coh.dir.setD a Dir.u d } }

/-- The site of a coherent extent. -/
def Gikan.siteOf (g : Gikan) (entry : Nat) : Site :=
  let e := g.map.cur.entry entry
  ⟨entry, if e.valid then e else g.map.prev.entry entry⟩

/-- One look at the directory cache for a line: a hit or a miss is counted, and the line becomes its set's last used (R144). -/
def Gikan.dirCache (g : Gikan) (entry a : Nat) : Gikan :=
  let (h, _, _, _) := g.place (g.siteOf entry) a
  let slice_ := if h < 6 then 0 else 1
  let k := slice_ * 65536 + Config.dirSet (a / 128) % 65536
  let ways := g.coh.cache.getD k []
  let g := if ways.contains a then g.inc (F.COH_CACHE_HITS slice_) 1 else g.inc (F.COH_CACHE_MISSES slice_) 1
  { g with coh := { g.coh with cache := g.coh.cache.put k ((a :: delNat ways a).take 16) } }

/-! Messages (R140, R141) -/

/-- Send a coherence message from the home agent of a line; one to an unreachable node is lost. -/
def Gikan.sendCoh (g : Gikan) (entry line : Nat) (q : Req) : Gikan :=
  let dst := addrNode q.hdr.addr
  match g.exitPort (routePorts (g.map.cur.routeOf dst)) 1 q.hdr.src q.hdr.tag with
  | .inl p => g.enqueue (g.homePort (g.siteOf entry) line) p (.req q)
  | .inr _ => g

/-- GRANT to an agent. -/
def Gikan.grant (g : Gikan) (t : Txn) (st status : Nat) (payload : List Byte) : Gikan :=
  g.sendCoh t.entry t.line (g.cohMsg 0x2C t.node t.tag t.line t.node t.tag st status payload)

/-- WB_ACK to an agent. -/
def Gikan.wbAck (g : Gikan) (t : Txn) (status : Nat) : Gikan :=
  g.sendCoh t.entry t.line (g.cohMsg 0x2D t.node t.tag t.line t.node t.tag 0 status [])

/-- A snoop of a transaction to an agent. -/
def Gikan.snoop (g : Gikan) (t : Txn) (type agent : Nat) : Gikan :=
  g.sendCoh t.entry t.line (g.cohMsg type agent t.homeTag t.line t.node t.tag 0 0 [])

/-! The table of transactions (R145) -/

/-- Transactions that the table holds at most. -/
abbrev cohLimit : Nat := 16384

def Gikan.setTxns (g : Gikan) (ts : List Txn) : Gikan :=
  let g := { g with coh := { g.coh with txns := ts } }
  let g := g.set F.COH_TXN_ACTIVE ts.length
  if g.get F.COH_TXN_PEAK < ts.length then g.set F.COH_TXN_PEAK ts.length else g

/-- A queued transaction. -/
def Txn.new (line entry : Nat) (kind : CohKind) (node tag held : Nat) (data : List Byte) : Txn :=
  ⟨line, entry, kind, node, tag, data, held, false, 0, [], 0, false, false, false, false, false, 0, Dir.u, false, []⟩

/-- Queue a transaction behind those on its line. -/
def Gikan.queueTxn (g : Gikan) (t : Txn) : Gikan := g.setTxns (g.coh.txns ++ [t])

/-- Whether the table has room for `n` more. -/
def Gikan.cohRoom (g : Gikan) (n : Nat) : Bool := decide (g.coh.txns.length + n ≤ cohLimit)

/-- The open transaction of a line. -/
def Gikan.openOn (g : Gikan) (line : Nat) : Option Txn := g.coh.txns.find? (fun t => t.opened && t.line == line)

/-- Put the open transaction of its line back. -/
def Gikan.putTxn (g : Gikan) (t : Txn) : Gikan :=
  { g with coh := { g.coh with txns := g.coh.txns.map (fun x => if x.opened && x.line == t.line then t else x) } }

/-- Poison a line (R151, R153). -/
def Gikan.poisonLine (g : Gikan) (entry line : Nat) : Gikan := g.poisonMem (g.siteOf entry) line 128

/-- The change of the sweep for a dead agent, applied to a line (R153). -/
def Gikan.sweepLine (g : Gikan) (n entry line : Nat) : Gikan :=
  let d := g.dir line
  if d.owner = some n then
    let g := (g.setDir line Dir.u).poisonLine entry line
    { g with coh := { g.coh with sweepLost := g.coh.sweepLost + 1 } }
  else if d.st = 1 then g.setDir line (d.clearPtr n)
  else g

/-- The changes of every sweep that has not ended, before a transaction opens on a line (R153). -/
def Gikan.sweepFirst (g : Gikan) (entry line : Nat) : Gikan :=
  (g.coh.sweep.toList ++ g.coh.sweepWait.map (fun x => x.1)).foldl (fun h n => h.sweepLine n entry line) g

/-- Close the open transaction of a line: the entry takes its final value, in which no dead agent is left (R146, R153). -/
def Gikan.closeTxn (g : Gikan) (t : Txn) : Gikan :=
  let g := g.setTxns (g.coh.txns.filter (fun x => !(x.opened && x.line == t.line)))
  g.coh.dead.foldl (fun h n => h.sweepLine n t.entry t.line) (g.setDir t.line t.final)

/-- A home tag that no open transaction uses; which one is not stated. -/
def Gikan.homeTag (g : Gikan) : Nat × Gikan :=
  let used := (g.coh.txns.filter (fun t => t.opened)).map (fun t => t.homeTag)
  let (d, g) := g.next
  let first := Config.tagPick d % 65536
  (((List.range 65536).map (fun i => (first + i) % 65536)).find? (fun t => !used.contains t) |>.getD first, g)

/-! Closing, and answers from memory -/

/-- Close a transaction once nothing is awaited; an access of the home, or of a work item, that is ready waits for its performance. -/
def Gikan.tryClose (g : Gikan) (t : Txn) : Gikan :=
  if !t.await.isEmpty || t.needComplete then g.putTxn t
  else match t.kind with
    | .homeRead => g.putTxn { t with ready := true }
    | .homeWrite => g.putTxn { t with ready := true }
    | .engineRead => if t.who.isEmpty then g.closeTxn t else g.putTxn { t with ready := true }
    | .engineWrite => if t.who.isEmpty then g.closeTxn t else g.putTxn { t with ready := true }
    | _ => g.closeTxn t

/-- Grant a line from memory with a state; a poisoned line is refused and the transaction closes with the entry as it was (R147, R148). -/
def Gikan.grantMem (g : Gikan) (t : Txn) (st : Nat) (final : Dir) : Gikan :=
  let s := g.siteOf t.entry
  let (g, data, bad) := g.readMem s t.line 128 0
  if bad then (g.grant t 0 stPOISONED []).closeTxn { t with final := g.dir t.line }
  else
    let t := { t with needComplete := true, grantAt := g.time, final := final }
    (g.grant t st stOK data).putTxn t

/-- Grant permission without data. -/
def Gikan.grantBare (g : Gikan) (t : Txn) (final : Dir) : Gikan :=
  let t := { t with needComplete := true, grantAt := g.time, final := final }
  (g.grant t 2 stOK []).putTxn t

/-- S with the requester added, counting a turn to coarse mode. -/
def Gikan.addSharer (g : Gikan) (d : Dir) (n : Nat) : Dir × Gikan :=
  let (d', conv) := d.add n
  (d', if conv then g.inc F.COH_EVENTS_COARSE_CONV 1 else g)

/-! Opening (R146, R150) -/

/-- Send the snoops of a transaction and wait for their answers. -/
def Gikan.sendSnoops (g : Gikan) (t : Txn) (type : Nat) (agents : List Nat) : Gikan :=
  let t := { t with await := agents, snoopAt := g.time }
  agents.foldl (fun h a => h.snoop t type a) (g.putTxn t)

/-- What a transaction does once no snoop is awaited, from the entry that it opened on. -/
def Gikan.cohAct (g : Gikan) (t : Txn) : Gikan :=
  let d := g.dir t.line
  let s := g.siteOf t.entry
  match t.kind with
  | .rdShared =>
    if t.fwd && !t.had then
      let (f, g) := g.addSharer Dir.u t.node
      (g.inc F.COH_EVENTS_FWD_EMPTY 1).grantMem t 1 f
    else if t.fwd then
      let o := d.owner.getD 0
      let (f, g) := g.addSharer (Dir.s1 o) t.node
      g.tryClose { t with final := f }
    else if d.st = 2 then
      let (f, g) := g.addSharer Dir.u t.node
      g.grantMem t 1 f
    else
      let (f, g) := g.addSharer d t.node
      g.grantMem t 1 f
  | .rdOwn =>
    if t.fwd && !t.had then (g.inc F.COH_EVENTS_FWD_EMPTY 1).grantMem t 2 (Dir.x t.node)
    else if t.fwd then g.tryClose { t with final := Dir.x t.node }
    else g.grantMem t 2 (Dir.x t.node)
  | .upgrade =>
    if t.fwd && !t.had then (g.inc F.COH_EVENTS_FWD_EMPTY 1).grantMem t 2 (Dir.x t.node)
    else if t.fwd then g.tryClose { t with final := Dir.x t.node }
    else if d.st = 1 && !d.coarse && d.pointers.contains t.node then g.grantBare t (Dir.x t.node)
    else g.grantMem t 2 (Dir.x t.node)
  | .writeBack =>
    if d.owner = some t.node then
      let g := g.writeMem s t.line (fit t.data (min 128 (s.e.base + s.e.len - t.line)))
      (g.wbAck t stOK).closeTxn { t with final := Dir.u }
    else ((g.inc F.COH_EVENTS2_STALE_WB 1).wbAck t stOK).closeTxn { t with final := d }
  | .homeRead =>
    let f := if d.st = 2 then (if t.had then Dir.s1 (d.owner.getD 0) else Dir.u) else d
    g.tryClose { t with final := f }
  | .engineRead =>
    let f := if d.st = 2 then (if t.had then Dir.s1 (d.owner.getD 0) else Dir.u) else d
    g.tryClose { t with final := f }
  | .homeWrite => g.tryClose { t with final := Dir.u }
  | .engineWrite => g.tryClose { t with final := Dir.u }
  | .recall => g.tryClose { t with final := Dir.u }

/-- The snoops that a transaction needs on the entry it finds: message type, agents, and whether it is a forward (R146, R150, R152). -/
def Gikan.snoopsFor (g : Gikan) (t : Txn) (d : Dir) : Nat × List Nat × Bool :=
  let rec_ := g.recorded d
  let others := rec_.filter (fun n => n != t.node)
  let owner := d.owner
  match t.kind with
  | .rdShared =>
    match owner with
    | some o => if o = t.node then (0, [], false) else (0x2A, [o], true)
    | none => (0, [], false)
  | .rdOwn =>
    match owner with
    | some o => if o = t.node then (0, [], false) else (0x2B, [o], true)
    | none => (0x28, others, false)
  | .upgrade =>
    match owner with
    | some o => if o = t.node then (0, [], false) else (0x2B, [o], true)
    | none => (0x28, others, false)
  | .writeBack => (0, [], false)
  | .homeRead => match owner with | some o => (0x29, [o], false) | none => (0, [], false)
  | .engineRead => match owner with | some o => (0x29, [o], false) | none => (0, [], false)
  | .homeWrite => (0x28, rec_, false)
  | .engineWrite => (0x28, rec_, false)
  | .recall => (0x28, rec_, false)

/-- Carry a transaction out from the entry in force: the snoops, or the act itself. -/
def Gikan.cohRun (g : Gikan) (t : Txn) : Gikan :=
  let (type, agents, fwd) := g.snoopsFor t (g.dir t.line)
  if agents.isEmpty then g.cohAct t
  else
    let t := { t with fwd := fwd, needComplete := fwd, grantAt := g.time }
    g.sendSnoops t type agents

/-- Every coherent line that the directory lists: its extent and address. -/
def Gikan.dirLines (g : Gikan) : List (Nat × Nat) :=
  g.coh.dir.filterMap (fun c => (g.map.cur.extentAt c.1).map (fun e => (e.1, c.1)))

/-- Open the next queued transaction of a line, unless one is open (R145); an entry that cannot be read is recovered first (R151). -/
def Gikan.openTxn (g : Gikan) (line : Nat) (dirOk : Bool) : Gikan :=
  if (g.openOn line).isSome then g else
  match findIdx (fun t : Txn => !t.opened && t.line == line) g.coh.txns with
  | none => g
  | some (i, t) =>
    let g := g.sweepFirst t.entry line
    let g := g.dirCache t.entry line
    let (tag, g) := g.homeTag
    let t := { t with opened := true, homeTag := tag }
    let g := { g with coh := { g.coh with txns := g.coh.txns.set i t } }
    if dirOk then g.cohRun t
    else
      let die := if (g.place (g.siteOf t.entry) line).1 < 6 then 0 else 1
      let g := (g.inc F.COH_EVENTS2_DIR_UNCORRECTABLE 1).contained 54 die (offOf F.COH_EVENTS2_DIR_UNCORRECTABLE)
      if g.coh.agents.isEmpty then (g.setDir line Dir.u).cohRun t
      else g.sendSnoops { t with recover := true } 0x28 g.coh.agents

/-! Answers to snoops -/

/-- The last awaited answer is in: the recovery ends, or the transaction acts; a line lost with its owner is poisoned first. -/
def Gikan.snoopsDone (g : Gikan) (t : Txn) : Gikan :=
  let g := if t.lost then g.poisonLine t.entry t.line else g
  if t.recover then
    let t := { t with recover := false, had := false }
    ((g.setDir t.line Dir.u).putTxn t).cohRun t
  else g.cohAct t

/-- One awaited agent has answered, or is taken to have answered. -/
def Gikan.snoopAnswered (g : Gikan) (t : Txn) (agent : Nat) (had : Bool) : Gikan :=
  let t := { t with await := t.await.filter (fun n => n != agent), had := t.had || had }
  if t.await.isEmpty then (g.putTxn t).snoopsDone t else g.putTxn t

/-- An SNP_RSP that answers a snoop of an open transaction (R147); any other is dropped and counted (R151). -/
def Gikan.snpRsp (g : Gikan) (src tag line : Nat) (had dirty : Bool) (data : List Byte) : Gikan :=
  match g.coh.txns.find? (fun t => t.opened && t.homeTag == tag && t.line == line && t.await.contains src) with
  | none => g.inc F.COH_EVENTS_LATE_DROPS 1
  | some t =>
    let s := g.siteOf t.entry
    let g := if dirty then g.writeMem s t.line (fit data (min 128 (s.e.base + s.e.len - t.line))) else g
    g.snoopAnswered t src had

/-- A COMPLETE of the requester (R146); any other is dropped and counted. -/
def Gikan.cohComplete (g : Gikan) (src tag line : Nat) : Gikan :=
  match g.coh.txns.find? (fun t => t.opened && t.line == line && t.node == src && t.tag == tag && t.needComplete) with
  | none => g.inc F.COH_EVENTS_LATE_DROPS 1
  | some t => g.tryClose { t with needComplete := false }

/-- No COMPLETE by COMPLETE_US: the transaction closes as if it had arrived (R151). -/
def Gikan.completeTimeout (g : Gikan) (line : Nat) : Gikan :=
  match g.openOn line with
  | none => g
  | some t =>
    let lim := 1000 * max 10 (g.get F.COH_TIMERS_COMPLETE_US)
    if t.needComplete && decide (lim ≤ g.time - t.grantAt) then
      (g.inc F.COH_EVENTS2_COMPLETE_TIMEOUTS 1).tryClose { t with needComplete := false }
    else g

/-! Dead agents (R153) -/

/-- The sweep for a dead agent begins. -/
def Gikan.sweepStart (g : Gikan) (n : Nat) (auto : Bool) : Gikan :=
  let g := { g with coh := { g.coh with sweep := some n, sweepLost := 0 } }
  ((g.set F.COH_DEAD_STATUS_SWEEPING 1).set F.COH_DEAD_STATUS_NODE n).setB F.COH_DEAD_STATUS_AUTO auto

/-- An agent is declared dead: its bit is cleared, the transactions that await its SNP_RSP or its COMPLETE finish, the sweep begins or waits for its
turn. -/
def Gikan.declareDead (g : Gikan) (n : Nat) (auto : Bool) : Gikan :=
  let c := g.coh
  let g := { g with coh := { c with agents := delNat c.agents n, dead := insNat c.dead n } }.inc F.COH_EVENTS2_DEAD_DECLARED 1
  let ts := g.coh.txns.filter (fun t => t.opened && t.await.contains n)
  let g := ts.foldl (fun h t0 =>
    match h.openOn t0.line with
    | some t =>
      let lost := (h.dir t.line).owner == some n && !t.recover
      h.snoopAnswered { t with lost := t.lost || lost } n false
    | none => h) g
  let cs := g.coh.txns.filter (fun t => t.opened && t.node == n && t.needComplete)
  let g := cs.foldl (fun h t0 =>
    match h.openOn t0.line with
    | some t => h.tryClose { t with needComplete := false }
    | none => h) g
  if g.coh.sweep.isSome then { g with coh := { g.coh with sweepWait := g.coh.sweepWait ++ [(n, auto)] } }
  else g.sweepStart n auto

/-- No SNP_RSP by SNOOP_US: the agent is declared dead (R151). -/
def Gikan.snoopTimeout (g : Gikan) (line node : Nat) : Gikan :=
  match g.openOn line with
  | none => g
  | some t =>
    let lim := 1000 * max 10 (g.get F.COH_TIMERS_SNOOP_US)
    if t.await.contains node && decide (lim ≤ g.time - t.snoopAt) then g.declareDead node true else g

/-- The sweep ends: every line has had its change; the poisoned lines are counted, a contained fault; the next declaration's begins. -/
def Gikan.sweepEnd (g : Gikan) : Gikan :=
  match g.coh.sweep with
  | none => g
  | some n =>
    let g := g.dirLines.foldl (fun h x => h.sweepLine n x.1 x.2) g
    let lost := g.coh.sweepLost
    let g := { g with coh := { g.coh with sweep := none } }
    let g := ((g.set F.COH_DEAD_STATUS_SWEEPING 0).set F.COH_DEAD_STATUS_DONE 1).set F.COH_DEAD_STATUS_LINES_POISONED (min lost (2 ^ 32 - 1))
    let g := g.faultOpen .contained 54 2 (offOf F.COH_DEAD_STATUS_SWEEPING)
    match g.coh.sweepWait with
    | [] => g
    | (m, a) :: rest => ({ g with coh := { g.coh with sweepWait := rest } }).sweepStart m a

/-! Recall (R152) -/

/-- The lines of an extent whose entry is not U. -/
def Gikan.heldLines (g : Gikan) (entry : Nat) : List Nat :=
  let e := g.map.cur.entry entry
  if e.valid then (g.coh.dir.filter (fun c => decide (e.base ≤ c.1 ∧ c.1 < e.base + e.len))).map (fun c => c.1) else []

/-- Queue a recall transaction for each line that has none, as the table has room. -/
def Gikan.recallLines (g : Gikan) (entry : Nat) : Gikan :=
  (g.heldLines entry).foldl (fun h a =>
    if h.cohRoom 1 && !(h.coh.txns.any (fun t => t.kind == .recall && t.line == a)) then h.queueTxn (Txn.new a entry .recall 0 0 0 [])
    else h) g

/-- A write of COH_RECALL. -/
def Gikan.wrRecall (g : Gikan) (w : RegW) : Gikan :=
  if !wrOne w F.COH_RECALL_GO then g
  else if g.on F.COH_RECALL_STATUS_BUSY then g.inc F.COH_EVENTS_BUSY_REFUSALS 1
  else
    let i := (wrField w F.COH_RECALL_ENTRY).1
    let g := { g with coh := { g.coh with recalling := some i } }
    let g := (g.set F.COH_RECALL_STATUS_BUSY 1).set F.COH_RECALL_STATUS_ENTRY i
    (g.set F.COH_RECALL_STATUS_LINES (min (g.heldLines i).length (2 ^ 32 - 1))).recallLines i

/-- The recall ends when every line is U; lines taken again meanwhile are walked again. -/
def Gikan.recallDone (g : Gikan) : Gikan :=
  match g.coh.recalling with
  | none => g
  | some i =>
    if (g.heldLines i) ≠ [] then g.recallLines i
    else if g.coh.txns.any (fun t => t.kind == .recall) then g
    else
      let c := (g.map.cur.entry i).cmpt
      let rs := if (g.get F.MAP_QUIESCE_CMPT_MASK).testBit c then insNat g.coh.recalled i else g.coh.recalled
      let g := { g with coh := { g.coh with recalling := none, recalled := rs } }
      (g.set F.COH_RECALL_STATUS_BUSY 0).set F.COH_RECALL_STATUS_DONE 1

/-! Registers -/

/-- A write of COH_DEAD. -/
def Gikan.wrDead (g : Gikan) (w : RegW) : Gikan :=
  if wrOne w F.COH_DEAD_GO then g.declareDead (wrField w F.COH_DEAD_NODE).1 false else g

/-- A write of COH_PEEK. -/
def Gikan.wrPeek (g : Gikan) (w : RegW) : Gikan :=
  let g := g.putFields w (offOf F.COH_PEEK_ENTRY) [F.COH_PEEK_ENTRY, F.COH_PEEK_LINE]
  if !wrOne w F.COH_PEEK_GO then g else
  let e := g.map.cur.entry (g.get F.COH_PEEK_ENTRY)
  let o := 128 * g.get F.COH_PEEK_LINE
  let d := if e.valid && e.coh && decide (o < e.len) then g.dir (e.base + o) else Dir.u
  (g.set (F.COH_PEEK_DATA_WORD 0) d.w0).set (F.COH_PEEK_DATA_WORD 1) d.w1

/-- Whether a node's sweep has not ended. -/
def Gikan.sweepOpen (g : Gikan) (n : Nat) : Bool := g.coh.sweep == some n || g.coh.sweepWait.any (fun x => x.1 == n)

/-- A write of COH_AGENT_DATA: 1 registers a node whose sweep is done, 0 has no effect (R153). -/
def Gikan.wrAgentData (g : Gikan) (w : RegW) : Gikan :=
  let (v, m) := wrField w F.COH_AGENT_DATA_REGISTERED
  let base := 64 * g.get F.COH_AGENT_INDEX_WORD
  let new := ((List.range 64).filter (fun b => (v &&& m).testBit b)).map (fun b => base + b)
  let new := new.filter (fun n => !g.sweepOpen n)
  let c := g.coh
  { g with coh := { c with agents := new.foldl insNat c.agents, dead := c.dead.filter (fun n => !new.contains n) } }

/-- COH_AGENT_DATA as read. -/
def Gikan.agentWord (g : Gikan) : Nat :=
  let base := 64 * g.get F.COH_AGENT_INDEX_WORD
  (List.range 64).foldl (fun m b => if g.coh.agents.contains (base + b) then setBit m b else m) 0

/-- Counters that COH_CTRL.CLR_CNT clears. -/
def cohCounters : List Fld :=
  [F.COH_CACHE_HITS 0, F.COH_CACHE_MISSES 0, F.COH_CACHE_HITS 1, F.COH_CACHE_MISSES 1, F.COH_STALL_EVENTS, F.COH_STALL_CYCLES_K,
   F.COH_EVENTS_FWD_EMPTY, F.COH_EVENTS_COARSE_CONV, F.COH_EVENTS_BUSY_REFUSALS, F.COH_EVENTS_LATE_DROPS, F.COH_EVENTS2_DEAD_DECLARED,
   F.COH_EVENTS2_COMPLETE_TIMEOUTS, F.COH_EVENTS2_DIR_UNCORRECTABLE, F.COH_EVENTS2_STALE_WB]

/-- A write of COH_CTRL: CLR_CNT also begins PEAK anew from ACTIVE. -/
def Gikan.wrCohCtrl (g : Gikan) (w : RegW) : Gikan :=
  if wrOne w F.COH_CTRL_CLR_CNT then (g.clear cohCounters).set F.COH_TXN_PEAK (g.get F.COH_TXN_ACTIVE) else g

/-! Accesses by the home itself (R150) -/

/-- The lines that a span touches. -/
def linesOf (a n : Nat) : List Nat :=
  if n = 0 then [] else (List.range ((a + n - 1) / 128 - a / 128 + 1)).map (fun i => (a / 128 + i) * 128)

/-- Whether an engine may access a line as it stands: a read needs U or S, a write needs U, and no transaction on it. -/
def Gikan.lineFree (g : Gikan) (line : Nat) (write : Bool) : Bool :=
  (if write then (g.dir line).st == 0 else (g.dir line).st != 2) && !(g.coh.txns.any (fun t => t.line == line))

/-- Whether a work item's own transaction holds a line for its access. -/
def Txn.holdsFor (t : Txn) (who : List Nat) (line : Nat) (write : Bool) : Bool :=
  t.opened && t.ready && !who.isEmpty && t.who == who && t.line == line && (t.kind == .engineWrite || (t.kind == .engineRead && !write))

/-- An access to a line on which no snoop is needed: its transaction opens and closes at once (R144, R150). -/
def Gikan.quickTxn (g : Gikan) (entry line : Nat) : Gikan :=
  let n := g.coh.txns.length + 1
  let g := if g.get F.COH_TXN_PEAK < n then g.set F.COH_TXN_PEAK n else g
  g.dirCache entry line

/-- An engine touches a span of a coherent extent: a line that its work item holds, or that is free, is accessed; any other is wanted first. -/
def Gikan.cohTouch (g : Gikan) (s : Site) (a n : Nat) (write : Bool) : Gikan :=
  if !s.e.coh then g else
  (linesOf a n).foldl (fun h l =>
    if h.coh.txns.any (fun t => t.holdsFor h.coh.who l write) then h
    else if h.lineFree l write && h.cohRoom 1 then h.quickTxn s.entry l
    else { h with coh := { h.coh with want := h.coh.want ++ [(l, s.entry, write)] } }) g

/-- Run a step as part of a work item. -/
def Gikan.asItem (g : Gikan) (who : List Nat) : Gikan := { g with coh := { g.coh with who := who } }

/-- Close the transactions that hold lines for a work item. -/
def Gikan.letGo (g : Gikan) (who : List Nat) : Gikan :=
  (g.coh.txns.filter (fun t => t.opened && t.ready && !who.isEmpty && t.who == who && (t.kind == .engineRead || t.kind == .engineWrite))).foldl
    (fun h t => h.closeTxn t) g

/-- Count a stall of the work item whose step runs, once for each class until the item goes on (R111, R150): tier registers 0 to 3, coherence 4. -/
def Gikan.stallOnce (g : Gikan) (cls : Nat) (count : Gikan → Gikan) : Gikan :=
  let k := g.coh.who ++ [cls]
  if g.coh.who.isEmpty || g.tier.stalled.contains k then g
  else count { g with tier := { g.tier with stalled := g.tier.stalled ++ [k] } }

/-- A work item has gone on: what it held and what was counted of its stalls is done with. -/
def Gikan.wentOn (g : Gikan) (who : List Nat) : Gikan :=
  if who.isEmpty then g else
  let g := g.letGo who
  { g with tier := { g.tier with stalled := g.tier.stalled.filter (fun k => k.dropLast != who) } }

/-- The lines that a step wanted: its work item lets go of those it holds when it wants one it has not asked for, and a transaction is queued
for each; one that is no work item's closes by itself and the step runs again on a free line. -/
def Gikan.queueLines (g : Gikan) (ws : List (Nat × Nat × Bool)) : Gikan :=
  let kind := fun (w : Nat × Nat × Bool) => if w.2.2 then CohKind.engineWrite else .engineRead
  let new := ws.dedup.filter (fun w => !(g.coh.txns.any (fun t =>
    t.line == w.1 && t.who == g.coh.who && (t.kind == kind w || (t.kind == .engineWrite && !g.coh.who.isEmpty)))))
  if new.isEmpty then g else
  new.foldl (fun h w => if h.cohRoom 1 then h.queueTxn { Txn.new w.1 w.2.1 (kind w) 0 0 0 [] with who := h.coh.who } else h) (g.letGo g.coh.who)

/-- What an engine stalls on in its pages: fetches start, a frame is asked for, and each tier's stall is counted. -/
def Gikan.stallPages (g : Gikan) (gs : List (Nat × Nat × Nat × Bool)) : Gikan :=
  gs.dedup.foldl (fun h c =>
    let (entry, p, k, write) := c
    let r := h.page entry p
    let cls := stallClass r
    let h := h.stallOnce cls (fun h => h.countStall entry cls)
    if r.state == .unbacked then h.askFrame else h.bringIn (h.siteOf entry) p k write) g

/-- Whether a step, `done`, that began in `g` wanted lines that agents hold, or granules that are not there. -/
def Gikan.stalls (g done : Gikan) : Bool :=
  !((done.coh.want.drop g.coh.want.length).isEmpty && (done.tier.stall.drop g.tier.stall.length).isEmpty)

/-- Settle a step of an engine, `done`, from `g`: when it wanted lines that agents hold or granules that are not there, the step waits and has
no effect but what brings them in, and runs again once they are there; the stall of a work item is counted, with `also`. -/
def Gikan.settleAlso (g done : Gikan) (also : Gikan → Gikan) : Gikan :=
  let ws := done.coh.want.drop g.coh.want.length
  let gs := done.tier.stall.drop g.tier.stall.length
  if !g.stalls done then (done.wentOn g.coh.who).asItem [] else
  let g := g.stallOnce 5 also
  let g := if ws.isEmpty then g
    else g.stallOnce 4 (fun h => let (d, h) := h.next; (h.inc F.COH_STALL_EVENTS 1).inc F.COH_STALL_CYCLES_K (Config.stallK d))
  ((g.queueLines ws).stallPages gs).asItem []

/-- Settle a step that is no work item's. -/
def Gikan.cohSettle (g done : Gikan) : Gikan := ((g.asItem []).settleAlso done (fun h => h)).asItem g.coh.who

/-- A step of a work item. -/
def Gikan.itemStep (g : Gikan) (who : List Nat) (f : Gikan → Gikan) : Gikan := (g.asItem who).settleAlso (f (g.asItem who)) (fun h => h)

end Sys2Proof.Machine
end

