-- ==== Sys2Proof/Machine/Monitors.lean ====
section
/-!
DEFINITION. The monitors (R352): taking a value into the live windows, and the end of a window.
-/

namespace Sys2Proof.Machine

/-- The bin of a value. -/
def monBin (base width : Nat) (log : Bool) (v : Nat) : Nat :=
  let w := max 1 width
  if v < base then 0
  else if !log then min 31 ((v - base) / w)
  else if v - base < w then 0
  else min 31 (1 + Nat.log2 ((v - base) / w))

/-- A window with one more value. -/
def MonWin.add (x : MonWin) (b v : Nat) : MonWin :=
  { bins := x.bins.setD b 0 (x.bins.getD b 0 + 1), lo := if x.n = 0 then v else min x.lo v, hi := max x.hi v, n := x.n + 1 }

/-- Whether a monitor runs: EN, a source of the table, and a window begun at a boundary. -/
def Gikan.monRuns (g : Gikan) (m : Nat) : Bool :=
  let s := g.get (F.MON_SEL_SRC m)
  g.on F.MON_CTRL_EN && decide (1 ≤ s ∧ s ≤ 8) && (g.flt.monLeft.get? m).isSome

/-- Take a value into one monitor. -/
def Gikan.monTake (g : Gikan) (m v : Nat) : Gikan :=
  let b := monBin (g.get (F.MON_SCALE_BASE m)) (g.get (F.MON_SCALE_WIDTH m)) (g.on (F.MON_SEL_LOG m)) v
  { g with flt := { g.flt with live := g.flt.live.put m ((g.flt.live.getD m MonWin.zero).add b v) } }

/-- Take a value into every monitor of a source whose UNIT names `unit` (0xFFFF names all) and whose class is `tc`, where the source has
them. -/
def Gikan.monitor (g : Gikan) (src : Nat) (unit tc : Option Nat) (v : Nat) : Gikan :=
  (List.range 16).foldl (fun h m =>
    let u := h.get (F.MON_SEL_UNIT m)
    if h.monRuns m && h.get (F.MON_SEL_SRC m) == src &&
        (match unit with | none => true | some x => u == x || u == 0xFFFF) &&
        (match tc with | none => true | some c => h.get (F.MON_SEL_TC m) == c)
    then h.monTake m v else h) g

/-- A monitor's window must start anew at the next boundary: a write of MON_SEL or MON_SCALE. -/
def Gikan.monRestart (g : Gikan) (m : Nat) : Gikan :=
  { g with flt := { g.flt with monLeft := g.flt.monLeft.del m, live := g.flt.live.del m } }

/-- One boundary at a monitor: a tick of its window has passed, or its window begins. A monitor without a source of the table is idle. -/
def Gikan.monTick (g : Gikan) (m : Nat) : Gikan :=
  let s := g.get (F.MON_SEL_SRC m)
  if !g.on F.MON_CTRL_EN || s == 0 || decide (8 < s) then g else
  match g.flt.monLeft.get? m with
  | some n => { g with flt := { g.flt with monLeft := g.flt.monLeft.put m (n - 1) } }
  | none => { g with flt := { g.flt with monLeft := g.flt.monLeft.put m (max 1 (g.get (F.MON_SEL_WINDOW_TICKS m))) } }

/-- The end of a monitor's window: results latched, the live window from zero again. -/
def Gikan.monEnd (g : Gikan) (m : Nat) : Gikan :=
  if g.flt.monLeft.get? m ≠ some 0 then g else
  let x := g.flt.live.getD m MonWin.zero
  let g := { g with flt := { g.flt with
    done := g.flt.done.put m x
    live := g.flt.live.del m
    monLeft := g.flt.monLeft.put m (max 1 (g.get (F.MON_SEL_WINDOW_TICKS m))) } }
  let g := (g.set (F.MON_MINMAX_MIN m) (min x.lo (2 ^ 32 - 1))).set (F.MON_MINMAX_MAX m) (min x.hi (2 ^ 32 - 1))
  (g.set (F.MON_STATUS_SAMPLES m) (min x.n (2 ^ 32 - 1))).set (F.MON_STATUS_END_TICK m) g.tickNo

/-- COUNT of the selected bin of the last completed window (MON_BIN_DATA). -/
def Gikan.monBinData (g : Gikan) : Nat :=
  min (((g.flt.done.getD (g.get F.MON_BIN_SEL_MONITOR) MonWin.zero).bins).getD (g.get F.MON_BIN_SEL_BIN) 0) (2 ^ 32 - 1)

/-- One sensor, in 0.25 °C. -/
def Gikan.tempQ (g : Gikan) (s : Nat) : Nat := (g.pwr.temps.getD s (0, 0)).1

end Sys2Proof.Machine
end

