-- ==== Sys2Proof/Machine/Tick.lean ====
section
/-!
DEFINITION. Fabric time, the exchange with the parent, ticks and frames, and admission (R17 to R33).
-/

namespace Sys2Proof.Machine

/-! Admission units -/

/-- A class in TICK_OVR order. -/
def classCode : UClass → Nat
  | .red => 0
  | .gth => 1
  | .flt => 2
  | .mtx => 3
  | .mov => 4
  | .pin => 5

def classOf (n : Nat) : UClass :=
  match n with
  | 0 => .red
  | 1 => .gth
  | 2 => .flt
  | 3 => .mtx
  | 4 => .mov
  | _ => .pin

/-- The place of a unit in the table of units. -/
def unitKey (u : UnitId) : Nat := classCode u.cls * 16384 + u.n

def unitOfKey (k : Nat) : UnitId := ⟨classOf (k / 16384), k % 16384⟩

/-- Whether a number names a unit of its class (R28). -/
def unitExists (u : UnitId) : Bool :=
  match u.cls with
  | .red => decide (u.n < 128)
  | .pin => decide (u.n < 16384)
  | _ => decide (u.n < 32)

/-- The C-die of a unit. -/
def unitDie (u : UnitId) : Nat :=
  match u.cls with
  | .red => u.n / 64
  | .pin => u.n / 8192
  | _ => u.n / 16

def Gikan.unit (g : Gikan) (u : UnitId) : UnitSt := g.eng.units.getD (unitKey u) UnitSt.idle

def Gikan.setUnit (g : Gikan) (u : UnitId) (x : UnitSt) : Gikan :=
  { g with eng := { g.eng with units := g.eng.units.setD (unitKey u) UnitSt.idle x } }

/-- Queue an item on a unit, behind those that wait (R29). -/
def Gikan.queueItem (g : Gikan) (u : UnitId) (i : Item) : Gikan :=
  let x := g.unit u
  g.setUnit u { x with queue := x.queue ++ [i] }

/-- Whether a unit is fenced (R346). -/
def Gikan.fenced (g : Gikan) (u : UnitId) : Bool :=
  match u.cls with
  | .red => g.bitOf (F.FLT_FENCED_RED_LANES (u.n / 64)) (u.n % 64)
  | .gth => g.bitOf (F.FLT_FENCED_ENG_GATHER_or_MOVER 0) u.n
  | .flt => g.bitOf (F.FLT_FENCED_ENG_MATRIX_or_FILTER 1) u.n
  | .mtx => g.bitOf (F.FLT_FENCED_ENG_MATRIX_or_FILTER 0) u.n
  | .mov => g.bitOf (F.FLT_FENCED_ENG_GATHER_or_MOVER 1) u.n
  | .pin => g.bitOf (F.PIN_FENCED_FENCED (u.n / 8 / 64)) (u.n / 8 % 64)

/-- SHARE of a class; 0 is treated as 1. -/
def Gikan.share (g : Gikan) (c : UClass) : Nat :=
  max 1 (g.get (match c with
    | .red => F.TICK_BUDGET_RED_SHARE
    | .gth => F.TICK_BUDGET_GTH_SHARE
    | .flt => F.TICK_BUDGET_FLT_SHARE
    | .mtx => F.TICK_BUDGET_MTX_SHARE
    | .mov => F.TICK_BUDGET_MOV_SHARE
    | .pin => F.TICK_BUDGET_PIN_SHARE))

/-- The frame length that the period and ACLK give (R26). -/
def Gikan.frameLen (g : Gikan) : Nat := g.get F.TICK_PERIOD_PERIOD_US * g.get F.PWR_STATE_ACLK_MHZ

/-- B of R28 for a frame of `l` cycles. -/
def Gikan.baseFor (g : Gikan) (c : UClass) (l : Nat) : Nat := l * g.share c / 64

/-- B' of R364. -/
def Gikan.budgetFor (g : Gikan) (c : UClass) (l : Nat) : Nat := g.baseFor c l * g.get F.PWR_STATE_THROTTLE / 64

def allClasses : List UClass := [.red, .gth, .flt, .mtx, .mov, .pin]

/-- Take L and the budgets for the frame that begins (R26, R28, R364), and ADMIT_FREEZE (R32, R351). -/
def Gikan.newFrame (g : Gikan) : Gikan :=
  let l := g.frameLen
  { g with eng := { g.eng with
    len := l
    budget := allClasses.map (fun c => g.budgetFor c l)
    base := allClasses.map (fun c => g.baseFor c l)
    frozen := g.on F.TICK_CTRL_ADMIT_FREEZE || g.bitOf F.FLT_FREEZE_LOOPS 5 } }

/-- The budget in force for a class. -/
def Gikan.budget (g : Gikan) (c : UClass) : Nat := g.eng.budget.getD (classCode c) 0

/-- B of R28 in force for a class, before throttling; what the registers give while no frame has begun. -/
def Gikan.classB (g : Gikan) (c : UClass) : Nat := g.eng.base.getD (classCode c) (g.baseFor c g.frameLen)

/-- Whether a unit may admit at all: ticks run, no freeze, no Hasp state, not in the interval of R22, in Q0 (R356, R360), not fenced,
no clearing of a compartment's data to come (R325). -/
def Gikan.admitOpen (g : Gikan) (u : UnitId) : Bool :=
  g.running && !g.eng.frozen && !g.hasp && g.tick.gap.isNone && g.get F.PWR_STATE_STATE == 0 && !g.fenced u &&
    !g.sec.cleared.contains (unitKey u)

/-- Whether a unit still runs an item of an earlier frame (R29). -/
def UnitSt.carried (x : UnitSt) : Bool := x.hold.isSome || x.run.any (fun r => decide (0 < r.late))

/-- A unit with nothing admitted. -/
def UnitSt.isIdle (x : UnitSt) : Bool := x.run.isEmpty && x.hold.isNone

/-! Samples (R347, R348) -/

/-- The share of a die's framed units that are busy, in 1/256. -/
def Gikan.busyShare (g : Gikan) (die : Nat) : Nat :=
  let busy := (g.eng.units.filter (fun e => unitDie (unitOfKey e.1) == die && !e.2.run.isEmpty)).length
  min 255 (busy * 256 / (64 + 4 * 16 + 8192))

/-- A number for what a sampled item serves (FLT_CHECK_LOG2.WORK). -/
def Gikan.workWord (g : Gikan) (w : Work) : Nat :=
  match w with
  | .job kw idx _ => idx % 2 ^ 32 + kw % 16 * 2 ^ 32 + 2 ^ 36
  | .request id _ =>
    match g.req.held.find? (fun h => h.id == id) with
    | some h => h.q.hdr.src + h.q.hdr.tag * 2 ^ 16 + h.q.hdr.cmpt * 2 ^ 32
    | none => 0
  | .add s r _ => s % 2 ^ 10 + r % 2 ^ 32 * 2 ^ 32
  | .output s r _ => s % 2 ^ 10 + r % 2 ^ 32 * 2 ^ 32
  | .update s r _ => s % 2 ^ 10 + r % 2 ^ 32 * 2 ^ 32
  | .relayDown s r _ => s % 2 ^ 10 + r % 2 ^ 32 * 2 ^ 32
  | .pin _ id => id

/-- Whether the check buffer can take a sample: one per matrix engine; 4 MiB a die for reduce. -/
def Gikan.sampleFits (g : Gikan) (u : UnitId) (n : Nat) : Bool :=
  match u.cls with
  | .mtx => g.flt.samples.all (fun s => s.unit != u)
  | .red =>
    let held := (g.flt.samples.filter (fun s => s.unit.cls == .red && unitDie s.unit == unitDie u)).foldl (fun k s => k + s.bytes) 0
    decide (held + n ≤ 4194304)
  | _ => false

/-- Keep the sample of an item that its unit takes, or count it as skipped. -/
def Gikan.takeSample (g : Gikan) (u : UnitId) (i : Item) : Gikan :=
  match i.sample with
  | none => g
  | some n =>
    if g.sampleFits u n then
      { g with flt := { g.flt with samples := g.flt.samples ++
        [⟨u, g.tickNo, g.req.boundaries, g.workWord i.work, n, g.busyShare (unitDie u)⟩] } }
    else g.inc F.FLT_CHECK_STATS_SKIPPED 1

/-- The draw of R347 for an item that a unit forms. -/
def Gikan.drawSample (g : Gikan) (n : Nat) : Option Nat × Gikan :=
  let r := g.get F.FLT_CHECK_RATE_LOG2
  if r = 0 then (none, g) else
  let (d, g) := g.next
  (if Config.sampleDraw d % 2 ^ r = 0 then some n else none, g)

/-! Admission (R29, R30) -/

/-- Admit the head item of a unit's queue at offset `t` of the frame, if it fits. An item above the budget is admitted only at the
boundary (`t` = 0), on an idle unit, and holds the unit for whole frames. -/
def Gikan.unitAdmit (g : Gikan) (u : UnitId) (t : Nat) : Gikan :=
  let x := g.unit u
  let b := g.budget u.cls
  match x.queue with
  | [] => g
  | i :: rest =>
    if !g.admitOpen u || x.carried then g
    else if b < i.cost then
      if t = 0 && x.isIdle && x.busy == 0 then
        (g.setUnit u { x with queue := rest, run := [⟨i, 0⟩], hold := some (i.cost, b) }).inc F.TICK_EVENTS_BIG_ADMITS 1 |>.takeSample u i |>.viewed i.cmpt View.item
      else g
    else
      let start := max t x.busy
      if start + i.cost ≤ b then
        (g.setUnit u { x with queue := rest, run := x.run ++ [⟨i, 0⟩], busy := start + i.cost }).takeSample u i |>.viewed i.cmpt View.item
      else g

/-- The item that a unit finishes next: the one admitted first. -/
def Gikan.runHead (g : Gikan) (u : UnitId) : Option RunItem := (g.unit u).run.head?

/-- The running item ends at cycle `t` (R29, R31): a unit that carried it over a boundary takes `t` as busy_until once nothing of the
earlier frames is left. -/
def Gikan.unitFinish (g : Gikan) (u : UnitId) (t : Nat) : Gikan :=
  let x := g.unit u
  match x.run with
  | [] => g
  | _ :: rest =>
    let held := x.carried
    let y := { x with run := rest }
    let y := if rest.isEmpty then { y with hold := none } else y
    g.setUnit u (if held && !y.carried then { y with busy := t } else y)

/-- Take one running item off a unit wherever it stands in it (a thread that ends, an aborted round). -/
def Gikan.unitEndOf (g : Gikan) (u : UnitId) (t : Nat) (p : Work → Bool) : Gikan :=
  let x := g.unit u
  match findIdx (fun r : RunItem => p r.item.work) x.run with
  | none => g
  | some (k, _) =>
    let held := x.carried
    let rest := x.run.eraseIdx k
    let y := { x with run := rest }
    let y := if rest.isEmpty then { y with hold := none } else y
    g.setUnit u (if held && !y.carried then { y with busy := t } else y)

/-- The cycle of the frame in force that a fabric time falls in; 0 for a time before the frame. -/
def Gikan.cycleAt (g : Gikan) (t : Nat) : Nat :=
  (t - (g.tick.base + (g.tickNo - g.tick.baseTick) * g.periodNs)) * g.get F.PWR_STATE_ACLK_MHZ / 1000

def Gikan.cycleNow (g : Gikan) : Nat := g.cycleAt g.time

/-! Overruns (R31) -/

/-- Record a long overrun of the frame of a tick that has ended. -/
def Gikan.longOverrun (g : Gikan) (u : UnitId) (tick : Nat) : Gikan :=
  let g := g.inc (F.TICK_OVR_LONG_OVERRUNS (classCode u.cls)) 1
  let g := if g.on F.TICK_LONG_LOG_VALID then g.set F.TICK_LONG_LOG_OVERFLOW 1
    else (((g.set F.TICK_LONG_LOG_VALID 1).set F.TICK_LONG_LOG_CLASS (classCode u.cls)).set F.TICK_LONG_LOG_UNIT u.n).set F.TICK_LONG_LOG_TICK tick
  g.corrected 58 u.n (offOf F.TICK_LONG_LOG_VALID)

/-- One item that runs on past its last frame. -/
def Gikan.overrunOne (g : Gikan) (u : UnitId) (tick : Nat) (r : RunItem) : Gikan :=
  match r.late with
  | 0 => (g.inc (F.TICK_OVR_OVERRUNS (classCode u.cls)) 1).viewed r.item.cmpt View.overrun
  | 1 => g.longOverrun u tick
  | _ => g

/-- A unit at the boundary that ends the frame of a tick, before the new frame admits: busy_until to 0 when nothing runs; the frames of R30 go on;
overruns count. DESIGN CHOICE (assumption 138): an item that was admitted to the frame and has not ended counts
as still running, whether its turn on the unit had come or not. -/
def Gikan.unitBoundary (g : Gikan) (u : UnitId) (tick : Nat) : Gikan :=
  let x := g.unit u
  if x.run.isEmpty then g.setUnit u { x with busy := 0, hold := none }
  else match x.hold with
    | some (c, s) =>
      if s < c then g.setUnit u { x with hold := some (c, s + g.budget u.cls) }
      else x.run.foldl (fun h r => h.overrunOne u tick r) (g.setUnit u { x with run := x.run.map (fun r => { r with late := min 2 (r.late + 1) }) })
    | none => x.run.foldl (fun h r => h.overrunOne u tick r) (g.setUnit u { x with run := x.run.map (fun r => { r with late := min 2 (r.late + 1) }) })

/-- Every unit that holds anything, at a boundary. -/
def Gikan.unitsBoundary (g : Gikan) (tick : Nat) : Gikan := g.eng.units.foldl (fun h e => h.unitBoundary (unitOfKey e.1) tick) g

/-- Tick slack of the frame that ends, to the monitors that measure it (R31, R352). -/
def Gikan.slackSamples (g : Gikan) : Gikan :=
  (List.range 16).foldl (fun h m =>
    if h.monRuns m && h.get (F.MON_SEL_SRC m) == 5 then
      let w := h.get (F.MON_SEL_UNIT m)
      let u : UnitId := ⟨classOf (bits w 12 3), bits w 0 12⟩
      h.monTake m (h.budget u.cls - (h.unit u).busy)
    else h) g

/-! Fabric time -/

/-- The servo is held (R32, R351). -/
def Gikan.servoHeld (g : Gikan) : Bool := g.on F.TICK_CTRL_SERVO_FREEZE || g.bitOf F.FLT_FREEZE_LOOPS 6

/-- Slew toward an offset, in 1/512 ns: the filter is the Gikan's own, its answer is held within the limit of R18. -/
def Gikan.steer (g : Gikan) (off : Int) : Gikan :=
  if g.servoHeld then g else
  let lim : Int := if g.on F.TICK_STATUS_SPLIT then 1000 else 100
  let (d, g) := g.next
  { g with tick := { g.tick with slew := max (-lim) (min lim (Config.slew d off)) } }

/-- Set fabric time to a stamp in 1/256 ns (before ticks start). -/
def Gikan.setStamp (g : Gikan) (v : Nat) : Gikan :=
  { g.set F.TICK_TIME_TIME_NS (v / 256) with tick := { g.tick with sub := v % 256 * 1000000 / 256 } }

/-- One nanosecond of REFCLK_SYS passes: fabric time advances by it and by the slew (the model's own tick of the empty queue). -/
def Gikan.passNs (g : Gikan) : Gikan :=
  let acc := (g.tick.sub : Int) + 1000000 + g.tick.slew
  let n := acc.toNat / 1000000
  let low := if g.get F.PWR_STATE_THROTTLE < 64 then 1 else 0
  { g.set F.TICK_TIME_TIME_NS (g.time + n) with
    now := g.now + 1, tick := { g.tick with sub := acc.toNat % 1000000 }, pwr := { g.pwr with throttleNs := g.pwr.throttleNs + low } }

/-! The time-split state (R22 to R25) -/

/-- Entry. -/
def Gikan.splitEntry (g : Gikan) : Gikan :=
  if g.servoHeld || g.on F.TICK_STATUS_SPLIT then g else
  let g := ((g.set F.TICK_STATUS_SPLIT 1).set F.TICK_STATUS_SPLIT_SEEN 1).inc F.TICK_EVENTS_SPLIT_ENTRIES 1
  let g := { g with tick := { g.tick with goodSplit := 0 } }
  g.contained 58 (g.get F.TICK_PARENT_PORT) (offOf F.TICK_EVENTS_SPLIT_ENTRIES)

/-- Exit: from here on the slew keeps to the limit outside the state (R18). -/
def Gikan.splitExit (g : Gikan) : Gikan :=
  if !g.servoHeld && g.on F.TICK_STATUS_SPLIT && decide (16 ≤ g.tick.goodSplit) then
    { g.set F.TICK_STATUS_SPLIT 0 with tick := { g.tick with slew := max (-100) (min 100 g.tick.slew) } }
  else g

/-! Starting ticks (R20) -/

/-- Whether this Gikan takes its time from a parent. -/
def Gikan.isChild (g : Gikan) : Bool := g.on F.TICK_CTRL_RUN && !g.on F.TICK_CTRL_MASTER && g.on F.TICK_PARENT_VALID

/-- A time master that has nothing to slew toward runs free on REFCLK_SYS: one that was no master before, and one without TICK_REF (R18). -/
def Gikan.runFree (g : Gikan) (wasMaster : Bool) : Gikan :=
  if g.on F.TICK_CTRL_MASTER && (!wasMaster || !g.on F.TICK_CTRL_REF_EN) && !g.servoHeld then { g with tick := { g.tick with slew := 0 } } else g

/-- A write of TICK_CTRL. -/
def Gikan.wrTickCtrl (g : Gikan) (w : RegW) : Gikan :=
  let g := (g.putFields w (offOf F.TICK_CTRL_RUN) [F.TICK_CTRL_MASTER, F.TICK_CTRL_REF_EN, F.TICK_CTRL_SERVO_FREEZE, F.TICK_CTRL_ADMIT_FREEZE]).runFree
    (g.on F.TICK_CTRL_MASTER)
  let g := if wrOne w F.TICK_CTRL_RUN then g.set F.TICK_CTRL_RUN 1 else g
  if wrOne w F.TICK_CTRL_CLR_CNT then
    let g := g.clear [F.TICK_EVENTS_SPLIT_ENTRIES, F.TICK_EVENTS_SWITCH_REFUSALS, F.TICK_EVENTS_REF_MISSED, F.TICK_EVENTS_BIG_ADMITS]
    g.clear ((List.range 6).flatMap (fun i => [F.TICK_OVR_OVERRUNS i, F.TICK_OVR_LONG_OVERRUNS i]))
  else g

/-- A write of TICK_TIME_SET: it takes effect only while RUN is 0. -/
def Gikan.wrTimeSet (g : Gikan) (w : RegW) : Gikan :=
  if g.on F.TICK_CTRL_RUN then g else
  let old := g.tick.timeSet.getD 0
  let v := (w.data.toNat &&& halfMask w.half) ||| (old - (old &&& halfMask w.half))
  { g with tick := { g.tick with timeSet := some v } }

/-- The smallest multiple of TICK_REF_PERIOD that is not less than a time. -/
def Gikan.refCeil (g : Gikan) (t : Nat) : Nat :=
  let p := 1000 * max 1 (g.get F.TICK_REF_PERIOD_PERIOD_US)
  ceilDiv t p * p

/-- Ticks run from now: tick number, base and period; the first frame. -/
def Gikan.runTicks (g : Gikan) (tick baseTick base period : Nat) : Gikan :=
  let g := ((g.set F.TICK_STATUS_RUNNING 1).set F.TICK_COUNT_TICK tick).set F.TICK_PERIOD_PERIOD_US period
  let g := { g with tick := { g.tick with base := base, baseTick := baseTick, startAt := none } }
  g.newFrame

/-- The time master starts ticks at the first REFCLK_SYS edge after RUN. -/
def Gikan.masterTickStart (g : Gikan) : Gikan :=
  if !(g.on F.TICK_CTRL_RUN && g.on F.TICK_CTRL_MASTER && !g.running) then g else
  let g := match g.tick.timeSet with | some v => g.setStamp (256 * v) | none => g
  let t := g.time
  let g := { g with tick := { g.tick with timeSet := none, refNext := some (g.tick.refNext.getD (g.refCeil t)) } }
  g.runTicks 0 0 t (g.get F.TICK_PERIOD_NEXT_US)

/-- SWITCH_AT when no change is armed. -/
abbrev tickNone : Nat := 2 ^ 64 - 1

/-- A parent's schedule as it stands at a time: with the change that it had armed, once that has come. -/
def ParentSched.inForce (p : ParentSched) (t : Nat) : ParentSched :=
  let at_ := p.baseNs + (p.switchAt - p.baseTick) * (1000 * p.periodUs)
  if p.switchAt ≠ tickNone ∧ at_ ≤ t then ⟨p.switchAt, at_, p.nextUs, 0, tickNone⟩ else p

/-- The armed change that a parent's schedule names. -/
def Gikan.armAs (g : Gikan) (p : ParentSched) : Gikan := (g.set F.TICK_SWITCH_SWITCH_AT p.switchAt).set F.TICK_PERIOD_ARMED_US p.nextUs

/-- A child starts ticks at the boundary that R20 names. -/
def Gikan.tickStart (g : Gikan) : Gikan :=
  match g.tick.startAt, g.tick.parent with
  | some (b, n), some p0 =>
    let p := p0.inForce b
    if g.isChild && !g.running && decide (b ≤ g.time) then (g.armAs p).runTicks n p.baseTick p.baseNs p.periodUs else g
  | _, _ => g

/-! The exchange (R18, R19, R288) -/

/-- A fixed delay of a port, in 1/256 ns. -/
def psTo256 (ps : Nat) : Nat := ps * 256 / 1000

/-- Time between two SYNC_REQs, in ns (R17, R288). -/
abbrev syncGap : Nat := 4000

/-- Longest time that a parent takes over its answer, in 1/256 ns (R288). -/
abbrev syncAnswer : Nat := 256000

/-- One codeword of lane L0 in 1/256 ns: a flit that is encoded now passes the next codeword boundary within it (R279, R288). -/
abbrev codewordTime : Nat := 10280

/-- The receive time of 70 ns in 1/256 ns: a flit whose boundary arrived longer ago has been taken already (R279). -/
abbrev receiveTime : Nat := 17920

/-- t1 or t3: the fabric time at which the boundary `lead` from now, in 1/256 ns, passes the port's plane of reference (R288). -/
def Gikan.stampTx (g : Gikan) (p lead : Nat) : Nat := g.stamp256 + lead + psTo256 (g.get (F.LNK_TS_DELAY_TX_PS p))

/-- t2 or t4: the fabric time at which the boundary that arrived `since` ago passed the port's plane of reference (R288). -/
def Gikan.stampRx (g : Gikan) (p since : Nat) : Nat := g.stamp256 - since - psTo256 (g.get (F.LNK_TS_DELAY_RX_PS p))

/-- The child sends SYNC_REQ every 4 µs, the flit beginning at the codeword boundary `lead` from now. t1 is its own fabric time there (R17, R288). -/
def Gikan.syncReqSend (g : Gikan) (lead : Nat) : Gikan :=
  let p := g.get F.TICK_PARENT_PORT
  let due := match g.tick.sentAt with | some t => decide (t + syncGap ≤ g.now) | none => true
  if !(g.isChild && g.carries p 0 && due && decide (lead ≤ codewordTime)) then g else
  let t := g.stampTx p lead
  let e := (g.tick.exchNo + 1) % 65536
  { g.sendFlit p (msgFlit 2 (tsyncSlots 1 ⟨false, if g.running then 1 else 0, e, t, 0, 0, 0, g.get F.TICK_PERIOD_PERIOD_US,
    g.get F.TICK_PERIOD_ARMED_US, g.get F.TICK_SWITCH_SWITCH_AT⟩)) with tick := { g.tick with exchNo := e, req := some (e, t), sentAt := some g.now } }

/-- The parent answers a SYNC_REQ within 1 µs of its arrival: t2 is its fabric time when the request's boundary arrived, `since` ago, and t3 that
of the answer's boundary, `wait` from now (R17, R288). -/
def Gikan.syncReq (g : Gikan) (p : Nat) (m : TSync) (since wait : Nat) : Gikan :=
  if m.bad || !g.carries p 0 || decide (receiveTime < since) || decide (syncAnswer < since + wait) then g else
  g.sendFlit p (msgFlit 2 (tsyncSlots 2 ⟨false, if g.running then 1 else 0, m.exch, g.stampRx p since, g.stampTx p wait, g.tickNo, g.tick.base, g.get F.TICK_PERIOD_PERIOD_US,
    g.get F.TICK_PERIOD_ARMED_US, g.get F.TICK_SWITCH_SWITCH_AT⟩))

/-- What the parent's message says of its schedule. -/
def schedOf (m : TSync) : ParentSched :=
  let per := 1000 * max 1 m.periodUs
  ⟨m.tick - (m.tb / 256 - m.baseNs) / per, m.baseNs, m.periodUs, m.nextUs, m.switchAt⟩

/-- Whether a message was sent before the boundary at which this Gikan has already made the armed change that it names. -/
def Gikan.schedOld (g : Gikan) (m : TSync) : Bool :=
  decide (m.switchAt ≠ tickNone) && decide (m.switchAt ≤ g.tickNo) && g.tick.baseTick == m.switchAt &&
    g.get F.TICK_PERIOD_PERIOD_US == m.nextUs

/-- Whether a message tells of a period change whose tick has passed here without it: one still armed at the parent, or one that the parent has
made and that is not armed here for a tick to come (R22, third case). -/
def Gikan.schedLate (g : Gikan) (m : TSync) : Bool :=
  (decide (m.switchAt ≠ tickNone) && decide (m.switchAt ≤ g.tickNo)) ||
    (decide (m.baseNs ≠ g.tick.base) &&
      !(g.get F.TICK_SWITCH_SWITCH_AT == (schedOf m).baseTick && decide (g.tickNo < (schedOf m).baseTick)))

/-- Learn the parent's schedule while ticks run (R19): an armed change is taken or taken back; a late one makes this Gikan enter the time-split state
and take the parent's schedule at its next boundary (R22), unless SERVO_FREEZE holds that state (R32). -/
def Gikan.learnSched (g : Gikan) (m : TSync) : Gikan :=
  if g.schedOld m then g
  else if g.schedLate m then (if g.servoHeld then g else ({ g with tick := { g.tick with late := true } }).splitEntry)
  else if m.baseNs ≠ g.tick.base then g
  else if m.switchAt ≠ tickNone then g.armAs (schedOf m)
  else (g.set F.TICK_SWITCH_SWITCH_AT tickNone).set F.TICK_PERIOD_ARMED_US 0

/-- Before ticks: the third exchange in a row within 25 ns fixes the boundary at which they start. -/
def Gikan.planStart (g : Gikan) (p0 : ParentSched) : Gikan :=
  if g.tick.good < 3 || g.tick.startAt.isSome then g else
  let p := p0.inForce g.time
  let per := 1000 * max 1 p.periodUs
  let k := (g.time - p.baseNs) / per + 1
  { g with tick := { g.tick with startAt := some (p.baseNs + k * per, p.baseTick + k) } }

/-- The offset and the delay, doubled, in 1/256 ns. -/
def offset2 (t1 t2 t3 t4 : Nat) : Int := ((t2 : Int) - t1) - ((t4 : Int) - t3)
def delay2 (t1 t2 t3 t4 : Nat) : Int := ((t2 : Int) - t1) + ((t4 : Int) - t3)

/-- The child receives a SYNC_RESP: t4 is its fabric time when the answer's boundary arrived, `since` ago (R17, R18, R288). -/
def Gikan.syncResp (g : Gikan) (p : Nat) (m : TSync) (since : Nat) : Gikan :=
  match g.tick.req with
  | none => g
  | some (e, t1) =>
    if !(g.isChild && p == g.get F.TICK_PARENT_PORT && g.carries p 0 && !m.bad && m.exch == e && m.timeValid == 1 && decide (since ≤ receiveTime)) then g else
    let t4 := g.stampRx p since
    let off := offset2 t1 m.ta m.tb t4
    let dly := delay2 t1 m.ta m.tb t4
    let within := decide (off.natAbs ≤ 12800)
    let g := (g.set F.TICK_OFFSET_OFFSET_PS (toBits (off * 1000 / 512) 32)).set F.TICK_OFFSET_DELAY_PS (toBits (dly * 1000 / 512) 32)
    let first := g.tick.lastExch.isNone && !g.running
    let ps := schedOf m
    let g := { g with tick := { g.tick with
      req := none
      parent := some ps
      good := if within then g.tick.good + 1 else 0
      goodSplit := if within then g.tick.goodSplit + 1 else 0 } }
    -- R20: the first exchange gives the time directly; from then on it slews
    let g := if first then g.setStamp ((g.stamp256 : Int) + off / 2).toNat else g.steer off
    let g := { g with tick := { g.tick with lastExch := some g.time } }.set F.TICK_STATUS_HOLDOVER 0
    if g.running then
      let g := if decide (102400 < off.natAbs) then g.splitEntry else g
      (g.learnSched m).splitExit
    else
      (g.armAs ps).planStart ps

/-- Time since the last valid exchange. -/
def Gikan.exchAge (g : Gikan) : Nat := match g.tick.lastExch with | some t => g.time - t | none => 0

/-- Holdover (R23). -/
def Gikan.holdover (g : Gikan) : Gikan :=
  if g.isChild && g.tick.lastExch.isSome && decide (12000 ≤ g.exchAge) then g.set F.TICK_STATUS_HOLDOVER 1 else g

/-- The estimated holdover error passes 200 ns (R22, R23). -/
def Gikan.holdoverErrorLimit (g : Gikan) : Gikan :=
  if g.running && g.on F.TICK_STATUS_HOLDOVER && decide (200000000 < g.exchAge * max 1 (g.get F.TICK_LIMITS_HOLD_PPM)) then g.splitEntry else g

/-! Boundaries (R26, R27) -/

/-- The numbering that the new frame takes: the next tick; under a late period change the parent's schedule, and, where the boundary is
not one of the parent's, the interval of R22 in which the count stands. -/
def Gikan.boundaryNumber (g : Gikan) : Gikan :=
  match g.tick.gap with
  | some (n, _) => { g.set F.TICK_COUNT_TICK n with tick := { g.tick with gap := none } }
  | none =>
    match g.tick.late, g.tick.parent with
    | true, some p0 =>
      let b := g.frameEnd
      let p := p0.inForce b
      let per := 1000 * max 1 p.periodUs
      let k := ceilDiv (b - p.baseNs) per
      let at_ := p.baseNs + k * per
      let g := { g.set F.TICK_PERIOD_PERIOD_US p.periodUs with tick := { g.tick with late := false, base := p.baseNs, baseTick := p.baseTick } }
      let g := g.armAs p
      if at_ = b then g.set F.TICK_COUNT_TICK (p.baseTick + k)
      else { g with tick := { g.tick with gap := some (p.baseTick + k, at_) } }
    | _, _ => g.set F.TICK_COUNT_TICK (g.tickNo + 1)

/-- Whether the next boundary is due. -/
def Gikan.boundaryDue (g : Gikan) : Bool := g.running && decide (g.frameEnd ≤ g.time)

/-- The number that the next frame takes. -/
def Gikan.nextTick (g : Gikan) : Nat :=
  match g.tick.gap with
  | some (n, _) => n
  | none => g.tickNo + 1

/-- The armed change takes effect at its boundary (R27): T_base is that boundary, and the frame that begins there has the armed period. A Gikan that
takes its parent's schedule at the boundary (R22) has no change of its own there. -/
def Gikan.periodChange (g : Gikan) : Gikan :=
  let at_ := g.get F.TICK_SWITCH_SWITCH_AT
  if !(g.boundaryDue && !g.tick.late && decide (at_ ≠ tickNone) && decide (at_ ≤ g.nextTick) && g.on F.TICK_PERIOD_ARMED_US) then g else
  let end_ := g.frameEnd
  let g := { g with tick := { g.tick with base := end_, baseTick := g.nextTick } }
  ((g.set F.TICK_PERIOD_PERIOD_US (g.get F.TICK_PERIOD_ARMED_US)).set F.TICK_SWITCH_SWITCH_AT tickNone).set F.TICK_PERIOD_ARMED_US 0

/-- The tick's own part of a boundary: an armed change, the number, the new frame and its budgets, the overruns of the frame that ends. -/
def Gikan.tickFrame (g : Gikan) : Gikan :=
  let tick := g.tickNo
  let g := g.slackSamples
  let g := g.periodChange.boundaryNumber.newFrame
  let g := { g with req := { g.req with boundaries := g.req.boundaries + 1 } }
  g.unitsBoundary tick

/-- A refused write of R27. -/
def Gikan.switchRefused (g : Gikan) : Gikan := (g.set F.TICK_STATUS_SWITCH_REFUSED 1).inc F.TICK_EVENTS_SWITCH_REFUSALS 1

/-- A write of TICK_PERIOD. -/
def Gikan.wrTickPeriod (g : Gikan) (w : RegW) : Gikan :=
  if !wrCovers w F.TICK_PERIOD_NEXT_US then g else
  let v := g.wrValue w F.TICK_PERIOD_NEXT_US
  if 2 ≤ v ∧ v ≤ 64 then g.set F.TICK_PERIOD_NEXT_US v else g.switchRefused

/-- A write of TICK_SWITCH. DESIGN CHOICE (assumption 137): such a write, which R27 neither refuses nor lets
disarm, has no effect. -/
def Gikan.wrSwitchAt (g : Gikan) (w : RegW) : Gikan :=
  let v := g.wrValue w F.TICK_SWITCH_SWITCH_AT
  if v = tickNone then
    if g.on F.TICK_CTRL_MASTER then (g.set F.TICK_SWITCH_SWITCH_AT tickNone).set F.TICK_PERIOD_ARMED_US 0 else g
  else if g.on F.TICK_CTRL_MASTER && decide (g.tickNo + 16 ≤ v) then
    (g.set F.TICK_SWITCH_SWITCH_AT v).set F.TICK_PERIOD_ARMED_US (g.get F.TICK_PERIOD_NEXT_US)
  else g.switchRefused

/-! TICK_REF (R33) -/

/-- Whether TICK_REF is taken. -/
def Gikan.takesRef (g : Gikan) : Bool := g.on F.TICK_CTRL_MASTER && g.on F.TICK_CTRL_REF_EN

/-- A rising edge: before RUN the first one sets fabric time, after the start of ticks each steers. DESIGN CHOICE (assumption 139): the
edge works on the running count, and a TICK_TIME_SET written before it is dropped. -/
def Gikan.tickRefEdge (g : Gikan) : Gikan :=
  if !g.takesRef then g else
  let p := 1000 * max 1 (g.get F.TICK_REF_PERIOD_PERIOD_US)
  if !g.on F.TICK_CTRL_RUN then
    match g.tick.refNext with
    | none =>
      let v := g.refCeil g.time
      { g.setStamp (256 * v) with tick := { (g.setStamp (256 * v)).tick with timeSet := none, refNext := some (v + p) } }
    | some _ => { g with tick := { g.tick with refNext := some ((g.time + p / 2) / p * p + p) } }
  else if !g.running then g
  else
    let m := (g.time + p / 2) / p * p
    let g := g.steer (512 * (m : Int) - 2 * (g.stamp256 : Int))
    { g with tick := { g.tick with refNext := some (m + p) } }

/-- No edge within the period and 1 µs of the expected time: the master runs free until the next. -/
def Gikan.tickRefMissing (g : Gikan) : Gikan :=
  match g.tick.refNext with
  | none => g
  | some t =>
    let p := 1000 * max 1 (g.get F.TICK_REF_PERIOD_PERIOD_US)
    if !(g.takesRef && decide (t + p + 1000 ≤ g.time)) then g else
    let g := (g.set F.TICK_STATUS_REF_MISSING 1).inc F.TICK_EVENTS_REF_MISSED 1
    let g := { g with tick := { g.tick with refNext := some (t + p), slew := if g.servoHeld then g.tick.slew else 0 } }
    g.corrected 58 0xFFFF (offOf F.TICK_EVENTS_REF_MISSED)

end Sys2Proof.Machine
end

