-- ==== Sys2Proof/Machine/Stacks.lean ====
section
/-!
DEFINITION. The stacks: training, stamping, release stamping, patrol scrub, retirement of frames and the moves it causes, MEM_FLIP (R86,
R95 to R104, R131).
-/

namespace Sys2Proof.Machine

/-- Frames of the stacks. -/
abbrev allFrames : Nat := 30720

/-- MEM_FLIP on the first codeword of a frame that stamping writes on STACK (R104). -/
def Gikan.stampFlip (g : Gikan) (f : Nat) : Gikan :=
  match (List.range 12).find? (fun i => (8192 * f + i) % 12 == g.get F.MEM_FLIP_STACK) with
  | some i =>
    let (n, h) := g.flipOn ((8192 * f + i) % 12) 2
    { h with stk := { h.stk with freeBad := h.stk.freeBad.setD ((8192 * f + i) * 128) 0 n } }
  | none => g

/-- Frames that software retired before they were stamped and that hold nothing are retired now (R103). -/
def Gikan.retireStamped (g : Gikan) : Gikan :=
  g.stk.retiring.foldl (fun h f =>
    if h.frame f == .free then ({ h with stk := { h.stk with retiring := delNat h.stk.retiring f } }).setFrame f .retired else h) g

/-- Training of a stack at start ends (R86, R103). -/
def Gikan.stackTrained (g : Gikan) (h : Nat) (ok : Bool) (repairs : Nat) : Gikan :=
  if g.phase != 4 || g.stamped || g.bitOf F.MEM_STATUS_TRAINED h then g else
  let g := g.set (F.MEM_ERR_H_REPAIRS h) (min repairs 256)
  if ok then g.setBitOf F.MEM_STATUS_TRAINED h else g.faultOpen .fatal (grpStack h) 32 (offOf F.MEM_STATUS_TRAINED)

/-- Stamping at start ends (R96). -/
def Gikan.stampingEnd (g : Gikan) : Gikan :=
  if g.phase != 4 || g.stamped || g.get F.MEM_STATUS_TRAINED != 4095 then g else
  let g := { g with mem := [], clean := [], bad := [], mgt := { g.mgt with stampedAt := some g.now }
                    stk := { g.stk with freeBad := [], badAt := [] } }
  ((g.set F.MEM_STATUS_STAMPED 1).retireStamped).stampFlip 0

/-! Retirement (R103, R131) -/

/-- Frames retired or being retired. -/
def Gikan.retired (g : Gikan) : Nat := g.framesIn (fun x => x == .retired) + g.stk.retiring.length

/-- Another frame takes the place of a frame of the Gikan's own use. -/
def Gikan.frameReplace (g : Gikan) (f : Nat) (x : FrameSt) : Gikan :=
  match g.allocFrames 1 x with
  | some (_, g1) => g1.setFrame f .waiting
  | none => g

/-- Begin the move of a page off a frame that retires: a frame for it, and the granules to copy within the DEMOTE budget. A directory,
record or host-window frame gives its place to another frame. Nothing begins while the page moves for another cause or no frame is free. -/
def Gikan.frameMove (g : Gikan) (f : Nat) : Gikan :=
  match g.frame f with
  | .page entry p =>
    let r := g.page entry p
    if r.moving ≠ .none then g else
    match g.allocFrames (g.map.cur.entry entry).framesPerPage (.moveTo entry p) with
    | some (d, g1) => g1.setPage entry p { r with moving := .frame d 8192 }
    | none => g
  | .dir => g.frameReplace f .dir
  | .record => g.frameReplace f .record
  | .window => g.frameReplace f .window
  | _ => g

/-- Begin every move that a retirement waits for. -/
def Gikan.frameMoves (g : Gikan) : Gikan := g.stk.retiring.foldl (fun h f => h.frameMove f) g

/-- A write of MEM_RETIRE. -/
def Gikan.wrRetire (g : Gikan) (w : RegW) : Gikan :=
  let f := (wrField w F.MEM_RETIRE_FRAME).1
  if !wrOne w F.MEM_RETIRE_GO || decide (allFrames ≤ f) || g.frame f == .retired || g.stk.retiring.contains f || decide (64 ≤ g.retired) then g
  else if g.frame f == .free && g.stamped then g.setFrame f .retired
  else ({ g with stk := { g.stk with retiring := insNat g.stk.retiring f } }).frameMove f

/-- The move of a page off a retired frame ends: every unit has been decoded and written at the new frame (R100), which holds the page now; the
old one is stamped (R97, R131). -/
def Gikan.frameMoveEnd (g : Gikan) (f : Nat) : Gikan :=
  match g.frame f with
  | .page entry p =>
    let r := g.page entry p
    match r.moving with
    | .frame _ 0 =>
      if !g.stk.retiring.contains f then g else
      let fs := g.stk.frames
      let e := g.map.cur.entry entry
      let g := (g.copyOut ⟨entry, e⟩ (pageAddr e p) (min pageBytes (e.len - p * pageBytes))).1
      let g := g.forgetErrors (pageAddr e p) pageBytes
      let g := (fs.filter (fun c => c.2 == .page entry p)).foldl (fun h c => h.setFrame c.1 .waiting) g
      let g := (fs.filter (fun c => c.2 == .moveTo entry p)).foldl (fun h c => (h.setFrame c.1 (.page entry p)).forgetFree c.1) g
      g.setPage entry p { r with moving := .none }
    | _ => g
  | _ => g

/-- Stamping and scrub pause in Q2 and Q3 (R356). -/
def Gikan.stacksAwake (g : Gikan) : Bool := decide (g.get F.PWR_STATE_STATE < 2)

/-- A released frame has been stamped: free, of the host window again, or retired, with another frame for the window (R97, R103, R276). -/
def Gikan.frameStamped (g : Gikan) (f : Nat) : Gikan :=
  let g := (g.forgetFree f).stampFlip f
  let window := g.frame f == .windowWait
  if g.stk.retiring.contains f then
    let g := ({ g with stk := { g.stk with retiring := delNat g.stk.retiring f } }).setFrame f .retired
    match window, g.allocFrames 1 .window with
    | true, some (_, g1) => g1
    | _, _ => g
  else g.setFrame f (if window then .window else .free)

/-! Patrol scrub (R101, R102) -/

/-- Codewords of the stacks. -/
abbrev allCodewords : Nat := 30720 * 8192 * 128

/-- Stack, channel, granule row and codeword of a cell (R87). -/
def cellPlace (cell : Nat) : Nat × Nat × Nat × Nat :=
  let G := cell / 128
  (G % 12, G / 12 % 32, G / 384, cell % 128)

/-- Whether a frame's codewords hold data: of the directory, of records, of the host window. Any other holds the stamp. -/
def FrameSt.holdsData (x : FrameSt) : Bool := x == .dir || x == .record || x == .window

/-- Scrub reads a codeword of a frame that holds no page: one symbol in error is corrected where it holds data; what cannot be corrected is
left poisoned, logged, a contained fault (R100 to R102). -/
def Gikan.scrubFree (g : Gikan) (cell n : Nat) : Gikan :=
  let n := g.stk.freeBad.getD cell 0 + n
  let g := { g with stk := { g.stk with freeBad := g.stk.freeBad.del cell } }
  if n = 0 then g
  else if n = 1 && (g.frame (cell / 1048576)).holdsData then g.correctedAt (cellPlace cell)
  else
    let (found, g) := g.detected n
    if found then g.logUeAt (cellPlace cell) 2 false else g

/-- Put a number into a set of disjoint ranges. -/
def covAdd (c : Nat) : List (Nat × Nat) → List (Nat × Nat)
  | [] => [(c, c + 1)]
  | (a, b) :: t =>
    if c + 1 < a then (c, c + 1) :: (a, b) :: t
    else if c + 1 = a then (c, b) :: t
    else if c < b then (a, b) :: t
    else if c = b then
      match t with
      | (a2, b2) :: t2 => if a2 = b + 1 then (a, b2) :: t2 else (a, b + 1) :: (a2, b2) :: t2
      | [] => [(a, b + 1)]
    else (a, b) :: covAdd c t

/-- Patrol scrub reads codeword `cell` of the stacks, in which `n` symbols have gone wrong since its last read. A pass ends when every codeword
has been read in it; the counts by row begin anew (R101). -/
def Gikan.patrol (g : Gikan) (cell n : Nat) : Gikan :=
  if !g.on F.MEM_CTRL_SCRUB_EN || !g.stamped || !g.stacksAwake || decide (allCodewords ≤ cell) then g else
  let done := covAdd cell g.stk.scrubbed
  let g := match g.frame (cell / 1048576) with
    | .page entry p =>
      let (s, us, which) := g.cellUnits entry p ((frameOf g.stk.frames entry p).getD 0) cell
      ((g.addErrors us which n).decodeAll s 2 us).1
    | _ => g.scrubFree cell n
  if done = [(0, allCodewords)] then
    ({ g with stk := { g.stk with scrubbed := [], rows := [] } }).inc F.MEM_SCRUB_PASSES 1
  else { g with stk := { g.stk with scrubbed := done } }

/-! Registers -/

/-- A write of MEM_FLIP: it acts in factory test mode only (R104). -/
def Gikan.wrMemFlip (g : Gikan) (w : RegW) : Gikan :=
  if g.on F.FLT_TEST_ACTIVE then
    g.putFields w (offOf F.MEM_FLIP_STACK) [F.MEM_FLIP_STACK, F.MEM_FLIP_SYM_A, F.MEM_FLIP_SYM_B, F.MEM_FLIP_PATTERN, F.MEM_FLIP_ARM]
  else g

/-- Counters that MEM_CTRL.CLR_CNT clears. -/
def memCounters : List Fld :=
  [F.MEM_RMW_MERGES, F.MEM_POISON_READS_READS] ++
  (List.range 12).flatMap (fun h => [F.MEM_ERR_H_CORRECTED h, F.MEM_ERR_H_UNCORRECTED h])

/-- A write of MEM_CTRL. -/
def Gikan.wrMemCtrl (g : Gikan) (w : RegW) : Gikan :=
  let g := g.putFields w (offOf F.MEM_CTRL_SCRUB_EN) [F.MEM_CTRL_SCRUB_EN]
  if wrOne w F.MEM_CTRL_CLR_CNT then g.clear memCounters else g

end Sys2Proof.Machine
end

