-- ==== Sys2Proof/Machine/Tiers.lean ====
section
/-!
DEFINITION. Tiers and the Placer: arrivals of fetched granules, heat, demotion, hints, the layer schedule, lending, home copies and the
flash layer's visible part (R105 to R137).
-/

namespace Sys2Proof.Machine

/-! Record frames (R108) -/

/-- Frames of the translation map: 1 per 128 GiB of raw flash. -/
def Gikan.ftlFrames (g : Gikan) : Nat :=
  if !g.on F.TIER_STATUS_FTL_READY then 0 else
  let blocks := popCount (g.get F.TIER_FLASH_GEOM_CHANNELS) 16 * g.get F.TIER_FLASH_GEOM_TARGETS * g.get F.TIER_FLASH_GEOM_LUNS *
    g.get F.TIER_FLASH_GEOM_PLANES * g.get F.TIER_FLASH_GEOM_BLOCKS_PER_PLANE
  ceilDiv (blocks * g.get F.TIER_FLASH_GEOM_PAGES_PER_BLOCK * 16384) (128 * 2 ^ 30)

/-- Pages of a loan that no RECLAIM has closed. -/
def Loan.live (l : Loan) : Nat := l.pages - l.closed.length

/-- Pages on loan. -/
def Gikan.loanPages (g : Gikan) : Nat := g.tier.loans.foldl (fun n l => n + l.live) 0

/-- Frames of the lent-copy check store: 1 per 1,024 pages on loan. -/
def Gikan.checkFrames (g : Gikan) : Nat := ceilDiv g.loanPages 1024

/-- Take the frames that the Placer's records need, as frames are free, or give back those they need no longer (R108, R122). -/
def Gikan.fitRecords (g : Gikan) : Gikan :=
  if !g.stamped then g else
  let need := 8 + g.ftlFrames + g.checkFrames
  let have_ := g.framesIn (fun x => x == .record)
  let g := if have_ < need then
      (List.range (need - have_)).foldl (fun h _ => match h.allocFrames 1 .record with | some (_, h1) => h1 | none => h) g
    else
      ((g.stk.frames.filter (fun c => c.2 == .record)).take (have_ - need)).foldl (fun h c => h.setFrame c.1 .waiting) g
  let n := g.framesIn (fun x => x == .record) - 8
  (g.set F.TIER_STATUS_FTL_MAP_FRAMES (min n g.ftlFrames)).set F.TIER_STATUS_CHECK_FRAMES (n - g.ftlFrames)

/-- A released frame has been stamped (R97): what the directory and the Placer's records lack takes frames first, then pages and fetches that
wait for one, then the moves off retired frames. -/
def Gikan.releaseStampEnd (g : Gikan) (f : Nat) : Gikan :=
  if (g.frame f ≠ .waiting ∧ g.frame f ≠ .windowWait) ∨ !g.stacksAwake then g else (((g.frameStamped f).fitDir).fitRecords).placeWaiting.frameMoves

/-! Fetched granules (R110, R135) -/

/-- Which of a page's reads came from: flash, host memory, or lent memory (whose answers come as responses). -/
def PageRec.fromLent (r : PageRec) : Bool := r.lent.isSome

/-- Relocation or retirement of a block is due while flash writes are held (R137). -/
def Gikan.heldWrites (g : Gikan) : Gikan := (g.inc F.TIER_SAG_PROGRAMS_HELD 1).inc F.TIER_SAG_ERASES_HELD 1

/-- Retire a block (R135). -/
def Gikan.retireBlock (g : Gikan) (b : Nat) : Gikan :=
  let bs := insNat g.tier.badBlocks b
  ({ g with tier := { g.tier with badBlocks := bs } }).set F.TIER_FLASH_HEALTH_BAD_BLOCKS (min bs.length (2 ^ 24 - 1))

/-- A block has been erased: its reads begin anew (R135). -/
def Gikan.erased (g : Gikan) (b : Nat) : Gikan :=
  { g with tier := { g.tier with erases := g.tier.erases.put b (g.tier.erases.getD b 0 + 1), reads := g.tier.reads.del b } }

/-- Move granules of the blocks being relocated, within the RELOC budget; a block whose pages have gone is erased, or retired (R113, R135). -/
def Gikan.relocStep (g : Gikan) : Gikan :=
  if !g.flashWritable then g else
  g.tier.reloc.foldl (fun h (b, left, bad) =>
    let (k, h) := h.spend 3 left
    if left ≤ k then
      let h := { h with tier := { h.tier with reloc := h.tier.reloc.del b } }
      if bad then h.retireBlock b else h.erased b
    else { h with tier := { h.tier with reloc := h.tier.reloc.put b (left - k, bad) } }) g

/-- The valid pages of a block are to be relocated, and the block erased, or retired (R135); while flash writes are held it waits (R137). How
many pages hold data still is not modelled: a free value. -/
def Gikan.relocate (g : Gikan) (b : Nat) (bad : Bool) : Gikan :=
  let (d, g) := g.next
  let n := 4 * (Config.validPages d % (g.get F.TIER_FLASH_GEOM_PAGES_PER_BLOCK + 1))
  let left := match g.tier.reloc.get? b with | some (k, _) => k | none => n
  let g := { g with tier := { g.tier with reloc := g.tier.reloc.put b (left, bad || (g.tier.reloc.getD b (0, false)).2) } }
  if g.flashWritable then g.relocStep else g.heldWrites

/-- The read-threshold loop: after each 64 hard decodes an offset set moves one step toward fewer corrected bits, which way is free (R135). -/
def Gikan.threshold (g : Gikan) (b : Nat) : Gikan :=
  if g.on F.TIER_CTRL_THRESH_FREEZE || g.bitOf F.FLT_FREEZE_LOOPS 3 then g else
  let k := Config.flashSet b * 65536 + g.tier.erases.getD b 0 / 1000
  let (n, o) := g.tier.thresh.getD k (0, 0)
  if n < 63 then { g with tier := { g.tier with thresh := g.tier.thresh.put k (n + 1, o) } }
  else
    let (d, g) := g.next
    { g with tier := { g.tier with thresh := g.tier.thresh.put k (0, if Config.threshUp d then o + 1 else o - 1) } }

/-- A flash page of a block is read: its read count, and its offset set (R135). -/
def Gikan.blockRead (g : Gikan) (b : Nat) : Gikan :=
  { g with tier := { g.tier with reads := g.tier.reads.put b (g.tier.reads.getD b 0 + 1) } }.threshold b

/-- What a flash read's decoding counts (R135): offset retries, soft decodes, lost codewords. -/
def Gikan.flashDecode (g : Gikan) (how : FlashDecode) : Gikan :=
  match how with
  | .hard => g
  | .retried => g.inc F.TIER_FLASH_ERR_RETRIES 1
  | .soft => (g.inc F.TIER_FLASH_ERR_RETRIES 1).inc F.TIER_FLASH_ERR_SOFT 1
  | .failed => ((g.inc F.TIER_FLASH_ERR_RETRIES 1).inc F.TIER_FLASH_ERR_SOFT 1).inc F.TIER_FLASH_ERR_UNCORRECTABLE 1

/-- Put a granule in that its source could not read: poisoned, a contained fault (R111, R135); a flash block so found is relocated and retired. -/
def Gikan.granuleLost (g : Gikan) (entry p n : Nat) (block : Option Nat) : Gikan :=
  let e := g.map.cur.entry entry
  let g := g.poisonMem ⟨entry, e⟩ (pageAddr e p + n * 4096) 4096
  let g := g.contained 55 0xFFFF (offOf F.TIER_FLASH_ERR_RETRIES)
  match block with
  | some b => g.relocate b true
  | none => g

/-- The flash block that a granule of a page is read from. -/
def Gikan.flashBlockOf (g : Gikan) (r : PageRec) (n : Nat) : Option Nat :=
  match r.lowerAt with
  | .flash d => some (Config.flashBlock d (n / 4) % max 1 g.flashBlocks)
  | _ => none

/-- A granule arrives from flash or host memory: the one that the fetch brings in next (R110). -/
def Gikan.fetchArrive (g : Gikan) (entry p n : Nat) (how : FlashDecode) : Gikan :=
  let r := g.page entry p
  if r.nextGranule ≠ some n || r.fromLent then g else
  let block := g.flashBlockOf r n
  let g := match block with
    | some b =>
      let (d, g) := (g.blockRead b).next
      (g.flashDecode how).monitor 7 (some (Config.openValue d % 16)) none (Config.openValue (d + 1))
    | none => g
  let g := if how == .failed then g.granuleLost entry p n block else g
  g.granuleIn entry p n

/-- A granule read back from lent memory takes its place in the frame: units that were poisoned when it was written there stay so, since
lent memory holds no signature of this Gikan's (R99, R123). -/
def Gikan.lentStore (g : Gikan) (entry p n : Nat) (data : List Byte) : Gikan :=
  let e := g.map.cur.entry entry
  let s : Site := ⟨entry, e⟩
  let a := pageAddr e p + n * 4096
  (s.units a 4096).foldl (fun h u =>
    if h.clean.contains u then h.writeMem s u (slice (fit data 4096) (u - a) s.unit) else h) g

/-- The answer to an access to lent memory (R123, R124). -/
def Gikan.lentAnswer (g : Gikan) (entry p n : Nat) (isWrite : Bool) (status : Nat) (data : List Byte) : Gikan :=
  let r := g.page entry p
  match isWrite, r.moving, r.lent with
  | true, .lend next answered, some _ =>
    if status ≠ stOK then g.dropLent entry p
    else if answered + 1 = 8192 ∧ next = 8192 then
      (g.setPage entry p { r with moving := .none }).dropPage entry p
    else g.setPage entry p { r with moving := .lend next (answered + 1) }
  | false, .fetch _ _ _ _, some l =>
    if status ≠ stOK then g.lentFailed entry p
    else if crc32c data ≠ l.crc.getD n 0 then (g.inc F.TIER_LEND_CRC_DISCARDS 1).lentFailed entry p
    else (g.lentStore entry p n data).granuleIn entry p n
  | _, _, _ => g

/-! Heat (R112) -/

/-- At each tick that is a multiple of 16 × DECAY every heat count is halved; the window of R130 turns over. -/
def Gikan.heatDecay (g : Gikan) : Gikan :=
  let n := 16 * max 1 (g.get F.TIER_HEAT_DECAY)
  if !g.running || g.tickNo % n != 0 || g.tier.lastDecay == some g.tickNo then g else
  let t := g.tier
  { g with tier := { t with
    pages := t.pages.mapV (fun _ (r : PageRec) => { r with heat := r.heat / 2 })
    seenLast := t.seen
    seenByLast := t.seenBy
    seen := []
    seenBy := []
    lastDecay := some g.tickNo } }

/-! Demotion (R114) -/

/-- A demoted page's data and journal record are stored: the page becomes LOWER. The journal record is a flash write too, and waits out SAG
warning (R114, R137); the blocks are closed in the journal (R136). Its units were decoded as they were copied (R100). -/
def Gikan.demotionEnd (g : Gikan) (entry p : Nat) : Gikan :=
  let r := g.page entry p
  let held := match r.lowerAt with | .flash _ => !g.flashWritable | _ => false
  match r.moving with
  | .demote 0 =>
    if held then g else
    let e := g.map.cur.entry entry
    let (g, data) := g.copyOut ⟨entry, e⟩ (pageAddr e p) pageBytes
    let g := match r.lowerAt with
      | .host s n => g.emit (.hostWrite s (g.poolAddr s n) data)
      | .flash d => g.closeBlocks (g.blocksOf d 0 2048)
      | .none => g
    let g := (g.releaseFrames entry p).forgetErrors (pageAddr e p) pageBytes
    (g.setPage entry p { r with state := .lower, moving := .none }).inc F.TIER_EVENTS_DEMOTIONS 1
  | _ => g

/-- A port of a host pool goes down: the LOWER pages in its pool are lost, a contained fault (R126). -/
def Gikan.poolLost (g : Gikan) (s : Side) : Gikan :=
  let hit := g.tier.pages.filter (fun c => (match c.2.lowerAt with | .host t _ => t == s | _ => false) && c.2.state == .lower)
  (hit.foldl (fun h c => h.releasePage (c.1 / 2 ^ 24) (c.1 % 2 ^ 24) (h.map.cur.entry (c.1 / 2 ^ 24))) g).contained 55 0xFFFF
    (offOf (F.TIER_HOST_PAGES (match s with | .a => 0 | .b => 1)))

/-! Hints (R116) -/

/-- Pages that KEEP holds. -/
def Gikan.keptPages (g : Gikan) : Nat := (g.tier.pages.filter (fun c => c.2.kept)).length

/-- One hint applied to a page. -/
def Gikan.hintPage (g : Gikan) (op entry : Nat) (e : ExtW) (p : Nat) : Gikan :=
  let r := g.page entry p
  match op with
  | 1 => g.startFetch entry p 0 false
  | 2 => g.setPage entry p { r with heat := 0 }
  | 3 => g.setPage entry p { r with kept := true }
  | 4 => g.setPage entry p { r with kept := false }
  | _ =>
    let g := (g.releasePage entry p e).setPage entry p { PageRec.unbacked with kept := r.kept, heat := r.heat }
    { g with tier := { g.tier with want := g.tier.want.del (pageKey entry p) } }

/-- A hint on the pages of TIER_HINT0 and TIER_HINT1. -/
def Gikan.hint (g : Gikan) (op n : Nat) : Gikan :=
  let entry := g.get F.TIER_HINT0_EXTENT
  let first := g.get F.TIER_HINT0_FIRST_PAGE
  let e := g.map.cur.entry entry
  let refuse := g.set F.TIER_HINT1_REFUSED 1
  if n = 0 ∨ op = 0 ∨ 5 < op then refuse
  else if !e.valid || e.home != g.node || e.tier == 0 then g.inc F.TIER_HINT1_IGNORED 1
  else if e.pages < first + n then refuse
  else
    let ps := (List.range n).map (fun i => first + i)
    let fresh := (ps.filter (fun p => !(g.page entry p).kept)).length
    if op = 3 ∧ 4096 < g.keptPages + fresh then refuse
    else ps.foldl (fun h p => h.hintPage op entry e p) g

/-- A write of TIER_HINT1. -/
def Gikan.wrHint1 (g : Gikan) (w : RegW) : Gikan :=
  let g := g.putFields w (offOf F.TIER_HINT1_PAGES) [F.TIER_HINT1_PAGES, F.TIER_HINT1_OP, F.TIER_HINT1_REFUSED]
  if wrOne w F.TIER_HINT1_GO then g.hint (g.get F.TIER_HINT1_OP) (g.get F.TIER_HINT1_PAGES) else g

/-- A write with an operation code in its OP bits. -/
def withOp (w : RegW) (op : Nat) : RegW :=
  let d := w.data.toNat
  ⟨w.bus, if w.half = .high then .full else w.half, BitVec.ofNat 64 (d - bits d 16 3 * 2 ^ 16 + op * 2 ^ 16)⟩

/-! The layer schedule (R118 to R121) -/

abbrev releaseNever : Nat := 2 ^ 32 - 1

/-- A tile as a schedule's entry gives it, with no plan yet. -/
def tileAt (b : List Byte) (i : Nat) : Tile :=
  let o := 32 + 32 * i
  let f := field b (o + 16) 1
  let rel := field b (o + 12) 4
  { entry := field b o 2, first := field b (o + 4) 4, pages := field b (o + 2) 2, deadline := field b (o + 8) 4
    release := if rel = releaseNever then none else some rel
    keep := bit f 0, drop := bit f 1, skipped := false, rep := 0, start := 0, staging := false, late := false, done := false }

/-- Why a schedule body is refused, as a status: 0 when it is not (R118, R119, R257). -/
def Gikan.schedRefusal (g : Gikan) (b : List Byte) : Nat :=
  let n := field b 4 4
  let per := field b 16 4
  let ts := (List.range n).map (tileAt b)
  let rsv := field b 2 2 != 0 || field b 24 8 != 0 ||
    (List.range n).any (fun i => bits (field b (48 + 32 * i) 1) 2 6 != 0 || (slice b (49 + 32 * i) 15).any (fun x => x != 0))
  if field b 0 2 != 1 || rsv then stUNSUP
  else if n = 0 ∨ 16384 < n ∨ 16777215 < per then stLENGTH
  else if ts.any (fun t => t.pages == 0 || decide (4096 < t.pages) || (match t.release with | some r => decide (r < t.deadline) | none => false)) then stLENGTH
  else if ts.any (fun t => let e := g.map.cur.entry t.entry; e.valid && decide (e.pages < t.first + t.pages)) then stLENGTH
  else if per != 0 && ts.any (fun t => match t.release with | some r => decide (per < r) | none => false) then stLENGTH
  else 0

/-- Deadline of a tile in its repetition in force. -/
def Sched.deadlineOf (s : Sched) (t : Tile) : Nat := s.baseTick + t.rep * s.period + t.deadline

/-- Release of a tile in its repetition in force. -/
def Sched.releaseOf (s : Sched) (t : Tile) : Option Nat := t.release.map (fun r => s.baseTick + t.rep * s.period + r)

/-- Bytes of a tile that lie in a lower tier: 0 flash, 1 pool A, 2 pool B. -/
def Gikan.bytesLower (g : Gikan) (t : Tile) (tier : Nat) : Nat :=
  pageBytes * ((List.range t.pages).filter (fun i =>
    let r := g.page t.entry (t.first + i)
    r.state == .lower && (match tier, r.lowerAt with
      | 0, .flash _ => true
      | 1, .host .a _ => true
      | 2, .host .b _ => true
      | _, _ => false))).length

/-- Planning rate of a tier in bytes a tick (R120). -/
def Gikan.planRate (g : Gikan) (tier : Nat) : Nat :=
  let us := g.get F.TICK_PERIOD_PERIOD_US
  if tier = 0 then
    let r := g.get F.TIER_PLAN_RATE_MBPS
    (if r < 100 ∨ 3600 < r then 3600 else r) * popCount (g.get F.TIER_FLASH_GEOM_CHANNELS) 16 * us
  else 64000 * us

/-- Put a tile's place among others by deadline, latest first. The spec gives no order among tiles of one deadline: the entry that stands first
is planned first (DESIGN CHOICE, assumption 143). -/
def latestFirst (s : Sched) (x : Nat × Tile) : List (Nat × Tile) → List (Nat × Tile)
  | [] => [x]
  | y :: t => if s.deadlineOf y.2 < s.deadlineOf x.2 then x :: y :: t else y :: latestFirst s x t

/-- Start ticks in one tier, backwards from the latest deadline (R120); a tile with nothing to bring in from the tier takes no ticks of it. -/
def Gikan.planTier (g : Gikan) (s : Sched) (tier : Nat) : List (Nat × Nat) :=
  let rate := g.planRate tier
  let lead := g.get F.TIER_PLAN_LEAD_TICKS
  let ts := (s.tiles.mapIdx (fun i t => (i, t))).filter (fun x => !x.2.skipped && !x.2.done && !x.2.staging)
  let order := ts.foldl (fun l x => latestFirst s x l) []
  (order.foldl (fun (acc : List (Nat × Nat) × Option Nat) (x : Nat × Tile) =>
    let need := g.bytesLower x.2 tier
    let ticks := if need = 0 then 0 else if rate = 0 then 2 ^ 64 else ceilDiv need rate
    let limit := match acc.2 with | some n => min n (s.deadlineOf x.2) | none => s.deadlineOf x.2
    let start := limit - ticks - lead
    ((x.1, start) :: acc.1, some start)) ([], none)).1

/-- The schedule with its tiles planned: each starts at the earliest start of its tiers. -/
def Gikan.planSched (g : Gikan) (s : Sched) : Sched :=
  let plans := [g.planTier s 0, g.planTier s 1, g.planTier s 2]
  { s with tiles := s.tiles.mapIdx (fun i t =>
      if t.staging then t else
      let starts := plans.filterMap (fun l => (l.find? (fun x => x.1 == i)).map (fun x => x.2))
      { t with start := starts.foldl min (s.deadlineOf t) }) }

/-- Accept a schedule for a compartment (R119): entries of other compartments, not homed here, or TIER 0, are skipped and counted. -/
def Gikan.acceptSched (g : Gikan) (c : Nat) (b : List Byte) : Gikan :=
  let ts := ((List.range (field b 4 4)).map (tileAt b)).map (fun t =>
    let e := g.map.cur.entry t.entry
    { t with skipped := !e.valid || e.cmpt != c || e.home != g.node || e.tier == 0 })
  let g := g.inc F.TIER_SCHED_STATUS_SKIPPED (ts.filter (fun t => t.skipped)).length
  let s : Sched := ⟨field b 8 8, field b 16 4, field b 20 4, ts⟩
  { g with tier := { g.tier with nextSched := g.tier.nextSched.put c (g.tier.nextSched.getD c [] ++ [g.planSched s]) } }

/-- The place of the schedule that comes in force next: of those whose BASE_TICK has come the one with the earliest, the first accepted of
equals. -/
def Gikan.schedDue (g : Gikan) (ss : List Sched) : Option Nat :=
  ((ss.mapIdx (fun i s => (i, s))).filter (fun x => g.running && decide (x.2.baseTick ≤ g.tickNo))).foldl
    (fun (b : Option (Nat × Nat)) x =>
      match b with
      | some (_, t) => if x.2.baseTick < t then some (x.1, x.2.baseTick) else b
      | none => some (x.1, x.2.baseTick)) none |>.map (fun x => x.1)

/-- At its BASE_TICK a schedule that waits takes the place of the compartment's previous one, whose tiles are released without DROP (R119);
schedules accepted before it that still wait are previous ones too. -/
def Gikan.schedReplace (g : Gikan) (c : Nat) : Gikan :=
  let ss := g.tier.nextSched.getD c []
  match g.schedDue ss with
  | some i =>
    let rest := ss.drop (i + 1)
    let next := if rest.isEmpty then g.tier.nextSched.del c else g.tier.nextSched.put c rest
    { g with tier := { g.tier with sched := g.tier.sched.put c (g.planSched (ss.getD i ⟨0, 0, 0, []⟩)), nextSched := next } }
  | none => g

/-- Change a tile of a compartment's schedule: of the one in force, or, for staging ahead of its BASE_TICK, of one that waits. -/
def Gikan.setTile (g : Gikan) (waiting : Option Nat) (c i : Nat) (s : Sched) (t : Tile) : Gikan :=
  let s' := { s with tiles := s.tiles.set i t }
  match waiting with
  | some k => { g with tier := { g.tier with nextSched := g.tier.nextSched.put c ((g.tier.nextSched.getD c []).set k s') } }
  | none => { g with tier := { g.tier with sched := g.tier.sched.put c s' } }

/-- Whether a schedule repeats a tile once more. -/
def Sched.again (s : Sched) (t : Tile) : Bool := s.period != 0 && (s.repeats == 0 || decide (t.rep + 1 < s.repeats))

/-- A tile that is never released goes to its next repetition once its deadline has passed. -/
def Sched.roll (s : Sched) (now : Nat) (t : Tile) : Tile :=
  if t.staging && t.release.isNone && s.again t && decide (s.deadlineOf t ≤ now) then { t with rep := t.rep + 1, staging := false, late := false } else t

/-- Whether a tile waits to be staged at a tick at which its start has come. -/
def Tile.due (t : Tile) (now : Nat) : Bool := !t.skipped && !t.done && !t.staging && decide (t.start ≤ now)

/-- Whether a due tile comes before tile `i` in the order of deadlines (R120). -/
def Sched.behind (s : Sched) (i now : Nat) (t : Tile) : Bool :=
  (s.tiles.mapIdx (fun j x => (j, x))).any (fun c => c.2.due now &&
    (decide (s.deadlineOf c.2 < s.deadlineOf t) || (s.deadlineOf c.2 == s.deadlineOf t && decide (c.1 < i))))

/-- Begin staging tile `i` of a schedule, if its start tick has come and it is the first due by deadline; in Q2 and Q3 the exit starts and the
tile waits (R120, R360). -/
def Gikan.stageIn (g : Gikan) (waiting : Option Nat) (c i : Nat) (s : Sched) : Option Gikan :=
  match s.tiles[i]? with
  | none => none
  | some t0 =>
    let t1 := s.roll g.tickNo t0
    let s1 := { s with tiles := s.tiles.set i t1 }
    let s2 := if t1.rep = t0.rep then s1 else g.planSched s1
    let t := s2.tiles.getD i t1
    if !t.due g.tickNo || !g.running || s2.behind i g.tickNo t then none else
    if g.delays 1 then some (g.wakeFor 1).2 else
    let g := g.setTile waiting c i s2 { t with staging := true }
    some ((List.range t.pages).foldl (fun h k => h.startFetch t.entry (t.first + k) 0 true) g)

/-- Staging of a tile begins: of the schedule in force, else of the first that waits in which it is due. -/
def Gikan.stagingStart (g : Gikan) (c i : Nat) : Gikan :=
  let inForce := match g.tier.sched.get? c with | some s => g.stageIn none c i s | none => none
  match inForce with
  | some h => h
  | none => (((g.tier.nextSched.getD c []).mapIdx (fun k s => g.stageIn (some k) c i s)).findSome? (fun o => o)).getD g

/-- Whether every page of a tile is resident. -/
def Gikan.tileHere (g : Gikan) (t : Tile) : Bool :=
  (List.range t.pages).all (fun k => let r := g.page t.entry (t.first + k); r.state == .resident || r.state == .residentClean)

/-- A tile at the first boundary of its deadline tick (R121). -/
def Gikan.tileLate (g : Gikan) (c i : Nat) : Gikan :=
  match g.tier.sched.get? c with
  | none => g
  | some s =>
    match s.tiles[i]? with
    | none => g
    | some t =>
      if t.skipped || t.done || t.late || !g.running || g.tickNo != s.deadlineOf t || g.tileHere t then g else
      ((g.setTile none c i s { t with late := true }).inc F.TIER_SCHED_STATUS_LATE 1).set F.TIER_SCHED_STATUS_LAST_LATE i

/-- A tile's RELEASE (R118, R119): its KEEP ends; with DROP its clean copies are dropped, unless the loop is frozen (R115); its next repetition
is planned. -/
def Gikan.tileRelease (g : Gikan) (c i : Nat) : Gikan :=
  match g.tier.sched.get? c with
  | none => g
  | some s =>
    match s.tiles[i]? with
    | none => g
    | some t =>
      match s.releaseOf t with
      | none => g
      | some rel =>
        if t.skipped || t.done || !g.running || decide (g.tickNo < rel) then g else
        let g := if t.drop && g.mayMigrate then
            (List.range t.pages).foldl (fun h k =>
              let r := h.page t.entry (t.first + k)
              if r.state == .residentClean && r.moving == .none then h.dropPage t.entry (t.first + k) else h) g
          else g
        let t' := if s.again t then { t with rep := t.rep + 1, staging := false, late := false } else { t with done := true }
        let s' := g.planSched { s with tiles := s.tiles.set i t' }
        { g with tier := { g.tier with sched := g.tier.sched.put c s' } }

/-! Lending (R122 to R125) -/

/-- A LEND: its status, and the state with the loan (R122). -/
def Gikan.takeLoan (g : Gikan) (base pages cmpt : Nat) : Nat × Gikan :=
  if g.tier.loans.any (fun l => l.base == base && l.pages == pages && l.cmpt == cmpt && l.closed.isEmpty) then (stOK, g)
  else if !g.on F.TIER_CTRL_LEND_EN || decide (256 ≤ g.tier.loans.length) || decide (65536 < g.loanPages + pages) ||
      g.tier.loans.any (fun l => decide (l.base < base + pages * pageBytes ∧ base < l.base + l.pages * pageBytes)) then (stBUSY, g)
  else (stOK, ({ g with tier := { g.tier with loans := g.tier.loans ++ [(⟨base, pages, cmpt, []⟩ : Loan)] } }).fitRecords)

/-- The page addresses of a range that are on loan from a node, in a compartment. -/
def Gikan.onLoan (g : Gikan) (lender base pages cmpt : Nat) : List Nat :=
  (List.range pages).map (fun i => base + i * pageBytes) |>.filter (fun a =>
    addrNode a == lender && g.tier.loans.any (fun l => l.cmpt == cmpt && decide (l.base ≤ a ∧ a < l.base + l.pages * pageBytes)))

/-- A loan with some of its pages closed. -/
def Loan.close (l : Loan) (addrs : List Nat) : Loan :=
  let mine := addrs.filter (fun a => decide (l.base ≤ a ∧ a < l.base + l.pages * pageBytes))
  { l with closed := mine.foldl (fun c a => insNat c ((a - l.base) / pageBytes)) l.closed }

/-- Close pages of the loans: no new copy goes there. -/
def Gikan.closePages (g : Gikan) (addrs : List Nat) : Gikan :=
  { g with tier := { g.tier with loans := g.tier.loans.map (fun l => l.close addrs) } }

/-- Loans of which every page is closed end. -/
def Gikan.endLoans (g : Gikan) : Gikan :=
  ({ g with tier := { g.tier with loans := g.tier.loans.filter (fun l => decide (0 < l.live)) } }).fitRecords

/-- The pages whose lent copy lies in some pages of lent memory. -/
def Gikan.copiesIn (g : Gikan) (addrs : List Nat) : List (Nat × PageRec) :=
  g.tier.pages.filter (fun c => match c.2.lent with | some l => addrs.contains l.addr | none => false)

/-- Drop the copies that lie in some pages of lent memory; a fetch from one begins again from the authoritative copy. -/
def Gikan.dropCopies (g : Gikan) (addrs : List Nat) : Gikan :=
  (g.copiesIn addrs).foldl (fun h c => h.loseLent (c.1 / 2 ^ 24) (c.1 % 2 ^ 24)) g

/-- Whether an access of this Gikan's to some pages of lent memory has not ended: outstanding, or waiting to be sent (R124). -/
def Gikan.lentBusy (g : Gikan) (addrs : List Nat) (readsOnly : Bool) : Bool :=
  let hit := fun (c : Consumer) (a : Nat) => match c with
    | .lent _ _ _ w => !(readsOnly && w) && addrs.any (fun b => decide (b ≤ a ∧ a < b + pageBytes))
    | _ => false
  g.req.outst.any (fun c => hit c.2.consumer c.2.q.hdr.addr) || g.req.waiting.any (fun w => hit w.consumer w.q.hdr.addr) ||
    g.req.again.any (fun w => hit w.consumer w.q.hdr.addr)

/-- The pages that a RECLAIM of the lender names and that are on loan to it. -/
def Gikan.reclaimPages (g : Gikan) (q : Req) : List Nat := g.onLoan q.hdr.src (lendBase q) (lendPages q) q.hdr.cmpt

/-- One copy in pages that a RECLAIM with notice names: a copy being written is stopped; a running fetch begins again from the authoritative
copy (R125); a hot copy is fetched (R124). -/
def Gikan.noticeCopy (g : Gikan) (entry p : Nat) : Gikan :=
  let r := g.page entry p
  match r.moving with
  | .lend _ _ => g.dropLent entry p
  | .fetch _ _ _ _ => g.lentFailed entry p
  | _ => if g.get (F.TIER_POLICY_COLD (g.map.cur.entry entry).tier) ≤ r.heat then g.startFetch entry p 0 false else g

/-- A RECLAIM (R124): with notice no new copy is made and hot copies are fetched; forced, every copy in the pages is dropped at once. -/
def Gikan.reclaim (g : Gikan) (x : Nat) (q : Req) : Gikan :=
  let addrs := g.reclaimPages q
  let n := lendNotice q
  let g := g.closePages addrs
  let g := if n = 0 then g.dropCopies addrs
    else (g.copiesIn addrs).foldl (fun h c => h.noticeCopy (c.1 / 2 ^ 24) (c.1 % 2 ^ 24)) g
  { g with tier := { g.tier with reclaims := g.tier.reclaims ++ [⟨x, q, g.tickNo, g.tickNo + n⟩] } }

/-- Whether a RECLAIM can be answered now: forced, once nothing of the pages is outstanding; with notice, once no read is, after the
notice or when no copy is left, and in any case 4 ticks after the notice. -/
def Gikan.reclaimDue (g : Gikan) (r : ReclaimWait) : Bool :=
  let addrs := g.reclaimPages r.q
  if lendNotice r.q = 0 then !g.lentBusy addrs false
  else
    (!g.lentBusy addrs true && ((g.copiesIn addrs).isEmpty || decide (r.endTick ≤ g.tickNo))) || decide (r.endTick + 4 ≤ g.tickNo)

/-- Answer RECLAIM number `i` of those that wait, when it is due: the copies left in the pages are dropped and the loan ends there. -/
def Gikan.reclaimEnd (g : Gikan) (i : Nat) : Gikan :=
  match g.tier.reclaims[i]? with
  | none => g
  | some r =>
    if !g.reclaimDue r then g else
    let g := (g.dropCopies (g.reclaimPages r.q)).endLoans
    let g := { g with tier := { g.tier with reclaims := g.tier.reclaims.eraseIdx i } }
    g.refuse r.x r.q stOK

/-- The forced RECLAIMs that have become due. -/
def Gikan.reclaimsForced (g : Gikan) : Gikan :=
  let is := (g.tier.reclaims.mapIdx (fun i r => (i, r))).filter (fun c => lendNotice c.2.q == 0 && g.reclaimDue c.2)
  (is.map (fun c => c.1)).reverse.foldl (fun h i => h.reclaimEnd i) g

/-! Home copies: B's side (R127, R128) -/

/-- A HOME_COPY: its status, and the state in which B has frames for every page. -/
def Gikan.copyBegin (g : Gikan) (entry peer : Nat) : Nat × Gikan :=
  if (g.tier.copyB.get? entry).isSome then (stOK, g) else
  let e := g.map.cur.entry entry
  if !e.valid || decide (g.freeFrames < e.pages) then (stBUSY, { g with tier := { g.tier with asked := true } }) else
  let g := (List.range e.pages).foldl (fun h p =>
    match h.allocPage entry p e with
    | some h1 => (h1.setPage entry p { PageRec.unbacked with state := .reserved, since := h.tickNo })
    | none => h) g
  (stOK, { g with tier := { g.tier with copyB := g.tier.copyB.put entry ⟨peer, 0, [], false⟩ } })

/-- The READs of a home copy that fit the PEER budget. -/
def Gikan.pullOne (g : Gikan) (entry : Nat) : Gikan :=
  match g.tier.copyB.get? entry with
  | none => g
  | some c =>
    let e := g.map.cur.entry entry
    let left := ceilDiv (e.len - c.next) 4096
    let (k, g) := g.spend 1 left
    let g := { g with tier := { g.tier with copyB := g.tier.copyB.put entry { c with next := min e.len (c.next + k * 4096) } } }
    (List.range k).foldl (fun h i =>
      let off := c.next + i * 4096
      let n := min 4096 (e.len - off)
      h.engOut ⟨{ ownHdr tyREAD 3 e.cmpt (e.base + off) n 0 e.ward with mov := 1 }, [], []⟩ (.pull entry off n)) g

/-- Pulling goes on for every copy. -/
def Gikan.pullStep (g : Gikan) : Gikan :=
  if g.on F.TIER_CTRL_PLACER_EN then g.tier.copyB.foldl (fun h c => h.pullOne c.1) g else g

/-- A write to a page of a copy restarts its move to another frame (R131). -/
def Gikan.copyTouch (g : Gikan) (entry off : Nat) : Gikan := g.dirtyPage ⟨entry, g.map.cur.entry entry⟩ (off / pageBytes)

/-- Put pulled data in, but for the lines that a HOME_LINE has brought since. -/
def Gikan.pullStore (g : Gikan) (entry off : Nat) (data : List Byte) : Gikan :=
  let e := g.map.cur.entry entry
  let g := g.copyTouch entry off
  let lines := (g.tier.copyB.get? entry).map (fun c => c.lines) |>.getD []
  (List.range (ceilDiv data.length 32)).foldl (fun h i =>
    let o := off + 32 * i
    if lines.contains (o / 128 * 128) then h
    else h.writeMem ⟨entry, e⟩ (e.base + o) (slice data (32 * i) (min 32 (data.length - 32 * i)))) g

/-- The answer to a READ of a pull: stored; poisoned spans are read again in 32 B pieces; a poisoned piece is stored poisoned. -/
def Gikan.pullAnswer (g : Gikan) (entry off len status : Nat) (data : List Byte) : Gikan :=
  match g.tier.copyB.get? entry with
  | none => g
  | some c =>
    let e := g.map.cur.entry entry
    if status = stOK then g.pullStore entry off data
    else if status = stPOISONED then
      if len ≤ 32 then (if c.lines.contains (off / 128 * 128) then g else (g.copyTouch entry off).poisonMem ⟨entry, e⟩ (e.base + off) len)
      else (List.range (ceilDiv len 32)).foldl (fun h i =>
        let n := min 32 (len - 32 * i)
        h.engOut ⟨{ ownHdr tyREAD 3 e.cmpt (e.base + off + 32 * i) n 0 e.ward with mov := 1 }, [], []⟩ (.pull entry (off + 32 * i) n)) g
    else g.engOut ⟨{ ownHdr tyREAD 3 e.cmpt (e.base + off) len 0 e.ward with mov := 1 }, [], []⟩ (.pull entry off len)

/-- A HOME_LINE at B. -/
def Gikan.copyLine (g : Gikan) (entry line : Nat) (data : List Byte) : Gikan :=
  match g.tier.copyB.get? entry with
  | none => g
  | some c =>
    let e := g.map.cur.entry entry
    if c.next ≤ line / pageBytes * pageBytes then g else
    let g := (g.copyTouch entry line).writeMem ⟨entry, e⟩ (e.base + line) (fit data (min 128 (e.len - line)))
    { g with tier := { g.tier with copyB := g.tier.copyB.put entry { c with lines := insNat c.lines line } } }

/-- Whether a READ of a pull is still to be answered. -/
def Gikan.pulling (g : Gikan) (entry : Nat) : Bool :=
  let of := fun (c : Consumer) => match c with | .pull x _ _ => x == entry | _ => false
  g.req.outst.any (fun c => of c.2.consumer) || g.req.waiting.any (fun w => of w.consumer) || g.req.again.any (fun w => of w.consumer)

/-- Every page has been pulled: B sends COPY_DONE. -/
def Gikan.pullEnd (g : Gikan) (entry : Nat) : Gikan :=
  match g.tier.copyB.get? entry with
  | none => g
  | some c =>
    if c.done || decide (c.next < (g.map.cur.entry entry).len) || g.pulling entry then g else
    let g := ({ g with tier := { g.tier with copyB := g.tier.copyB.put entry { c with done := true } } }).inc F.TIER_EVENTS_HOME_COPIES 1
    g.sendControl tyCOPYDONE c.peer entry 0 (handBody entry g.node) []

/-- B gives up a copy: its reserved frames are released. -/
def Gikan.releaseCopyB (g : Gikan) (entry : Nat) : Gikan :=
  match g.tier.copyB.get? entry with
  | none => g
  | some _ =>
    let e := g.map.cur.entry entry
    let g := (List.range e.pages).foldl (fun h p => if (h.page entry p).state == .reserved then h.releasePage entry p e else h) g
    { g with tier := { g.tier with copyB := g.tier.copyB.del entry } }

/-- The pages of a copy that has become the extent's home are the home's own (R82, R129). -/
def Gikan.adoptCopy (g : Gikan) (entry : Nat) : Gikan :=
  let e := g.map.cur.entry entry
  let g := (List.range e.pages).foldl (fun h p =>
    let r := h.page entry p
    if r.state == .reserved then h.setPage entry p { r with state := .resident } else h) g
  { g with tier := { g.tier with copyB := g.tier.copyB.del entry } }

/-! Home copies: A's side (R129, R130) -/

/-- Whether two nodes share a path in the current map. -/
def Gikan.reaches (g : Gikan) (n : Nat) : Bool := routeUp (g.map.cur.routeOf n)

/-- The copy is no more: its control requests end, A's record and B's frames go. -/
def Gikan.dropCopy (g : Gikan) (entry : Nat) : Gikan :=
  let g := ((g.closeControl tyHOMECOPY entry).closeControl tyHOMELINE entry).closeControl tyCOPYDONE entry
  ({ g with tier := { g.tier with copyA := g.tier.copyA.del entry } }).releaseCopyB entry

/-- The peer of a copy, on either side. -/
def Gikan.copyPeer (g : Gikan) (entry : Nat) : Option Nat :=
  match g.tier.copyA.get? entry with
  | some c => some c.peer
  | none => (g.tier.copyB.get? entry).map (fun c => c.peer)

/-- Cancel a copy: COPY_CANCEL to the peer, and release what is held (R127). -/
def Gikan.cancelCopy (g : Gikan) (entry : Nat) : Gikan :=
  match g.copyPeer entry with
  | none => g
  | some p => (g.dropCopy entry).sendControl tyCOPYCANCEL p entry 0 (handBody entry g.node) []

/-- Unanswered for 128 ticks, or the peer unreachable: the copy is cancelled; a COPY_CANCEL to an unreachable peer is given up (R127). -/
def Gikan.copyCancelTimeout (g : Gikan) (entry : Nat) : Gikan :=
  let tags := g.controlTags tyHOMECOPY entry ++ g.controlTags tyHOMELINE entry ++ g.controlTags tyCOPYDONE entry
  let old := tags.any (fun t => match g.req.outst.get? t with | some o => decide (128 ≤ g.ticksOut o) | none => false)
  let lost := match g.copyPeer entry with | some p => !g.reaches p | none => false
  let gone := (g.controlTags tyCOPYCANCEL entry).filter (fun t =>
    match g.req.outst.get? t with | some o => !g.reaches (addrNode o.q.hdr.addr) | none => false)
  let g := gone.foldl (fun h t => h.closeTag t false) g
  if old || lost then g.cancelCopy entry else g

/-- A posted change that no commit has made within COPY_HOLD ticks (R129). -/
def Gikan.copyHoldExpiry (g : Gikan) (entry : Nat) : Gikan :=
  match g.tier.copyA.get? entry with
  | some c =>
    match c.posted with
    | some t => if max 16 (g.get F.TIER_HEAT_COPY_HOLD) ≤ g.tickNo - t && (g.map.hand.get? entry).isNone then g.cancelCopy entry else g
    | none => g
  | none => g

/-- COPY_DONE at A: the change is posted (R129). -/
def Gikan.copyDone (g : Gikan) (entry : Nat) : Gikan :=
  match g.tier.copyA.get? entry with
  | none => g
  | some c =>
    if c.posted.isSome then g else
    let g := ({ g with tier := { g.tier with copyA := g.tier.copyA.put entry { c with posted := some g.tickNo } } }).inc F.TIER_EVENTS_HOME_COPIES 1
    if g.mayMigrate then g.postHomeReq entry c.peer else g

/-- An answer to a control request of a home copy: HOME_COPY to A, HOME_LINE to A; the others have no further effect. -/
def Gikan.copyAnswer (g : Gikan) (type entry line status : Nat) : Gikan :=
  match g.tier.copyA.get? entry with
  | none => g
  | some c =>
    if type = tyHOMECOPY then
      if status = stOK then { g with tier := { g.tier with copyA := g.tier.copyA.put entry { c with answered := true } } }
      else { g with tier := { g.tier with copyA := g.tier.copyA.del entry } }
    else if type = tyHOMELINE then
      let again := c.lines.getD line false
      let c' := { c with lines := c.lines.del line, sent := insNat c.sent line }
      let g := { g with tier := { g.tier with copyA := g.tier.copyA.put entry c' } }
      if again then g.sendHomeLine entry (g.map.cur.entry entry) c' line else g
    else g

/-- Extents that may move (R130). -/
def Gikan.movable (g : Gikan) (entry : Nat) : Bool :=
  let e := g.map.cur.entry entry
  e.valid && e.home == g.node && !e.seated && !e.coh && !e.modeB && (g.tier.copyA.get? entry).isNone && (g.map.hand.get? entry).isNone

/-- The member that sent most of an extent's requests in the last window, if its share is enough (rule 1 of R130). -/
def Gikan.trafficMember (g : Gikan) (entry : Nat) : Option Nat :=
  let s := g.get F.TIER_HEAT_MOVE_SHARE
  let share := if s < 51 ∨ 100 < s then 75 else s
  let total := g.tier.seenLast.getD entry 0
  if total = 0 then none else
  g.map.cur.dom.find? (fun m => m != g.node && decide (share * total ≤ 100 * g.tier.seenByLast.getD (entry * 65536 + m) 0))

/-- Total heat of an extent. -/
def Gikan.extentHeat (g : Gikan) (entry : Nat) : Nat :=
  (g.tier.pages.filter (fun c => c.1 / 2 ^ 24 == entry)).foldl (fun n c => n + c.2.heat) 0

/-- The member with the most free frames in its last report. -/
def Gikan.roomiest (g : Gikan) : Option (Nat × Nat) :=
  (g.map.cur.dom.filter (fun m => m != g.node)).foldl (fun (b : Option (Nat × Nat)) m =>
    let f := g.tier.domFree.getD m 0
    match b with
    | some (_, k) => if k < f then some (m, f) else b
    | none => some (m, f)) none

/-- Rule 2 of R130: the member, and the coolest extent that fits. -/
def Gikan.capacityMove (g : Gikan) : Option (Nat × Nat) :=
  if g.tier.pressure < max 1 (g.get F.TIER_HEAT_PRESSURE) then none else
  match g.roomiest with
  | none => none
  | some (m, f) =>
    let fits := (g.map.cur.ext.map (fun c => c.1)).filter (fun i =>
      g.movable i && decide (4 * g.freeTarget + (g.map.cur.entry i).pages ≤ f))
    (fits.foldl (fun (b : Option (Nat × Nat)) i =>
      let h := g.extentHeat i
      match b with
      | some (_, k) => if h < k then some (i, h) else b
      | none => some (i, h)) none).map (fun x => (x.1, m))

/-- A starts a home copy of an extent (R130): by traffic, or, when no extent has such traffic, by capacity. -/
def Gikan.homeCopyStart (g : Gikan) (entry : Nat) : Gikan :=
  let spaced := match g.tier.lastCopy with | some t => decide (128 ≤ g.tickNo - t) | none => true
  if !(g.on F.MAP_CTRL_HOME_REQ_EN && g.mayMigrate && spaced && g.running && g.movable entry) then g else
  let byTraffic := (g.map.cur.ext.map (fun c => c.1)).any (fun i => g.movable i && (g.trafficMember i).isSome)
  let peer := if byTraffic then g.trafficMember entry
    else match g.capacityMove with
      | some (i, m) => if i = entry then some m else none
      | none => none
  match peer with
  | none => g
  | some m =>
    let g := { g with tier := { g.tier with lastCopy := some g.tickNo, copyA := g.tier.copyA.put entry ⟨m, false, none, [], []⟩ } }
    g.sendControl tyHOMECOPY m entry 0 (handBody entry g.node) []

/-- Every 128 ticks each member's free frames go to every other (R127). -/
def Gikan.domainStatusSend (g : Gikan) : Gikan :=
  let due := match g.tier.lastStatus with | some t => decide (128 ≤ g.tickNo - t) | none => true
  if !(g.running && due) then g else
  let g := { g with tier := { g.tier with lastStatus := some g.tickNo } }
  let body := zeros 4 ++ leBytes 4 g.freeFrames ++ zeros 8
  (g.map.cur.dom.filter (fun m => m != g.node)).foldl (fun h m => h.sendControl tyDOMAIN m 0xFFFF 0 body []) g

/-- An unanswered control request of a home copy is sent again, once per tick (R61, R127). -/
def Gikan.controlResend (g : Gikan) (tag : Nat) : Gikan :=
  match g.req.outst.get? tag with
  | some o =>
    let t := o.q.hdr.type
    if (t == tyHOMECOPY || t == tyHOMELINE || t == tyCOPYDONE || t == tyCOPYCANCEL) && decide (o.resends < g.ticksOut o) then g.resend tag else g
  | none => g

/-! The tick's part -/

/-- The budgets of a new tick, and the ticks under pressure (R113, R130). -/
def Gikan.tierTick (g : Gikan) : Gikan :=
  let b := [g.get F.TIER_BUDGET_DEMOTE, g.get F.TIER_BUDGET_PEER, g.get F.TIER_BUDGET_LEND, g.get F.TIER_BUDGET_RELOC]
  { g with tier := { g.tier with
    budget := b
    pressure := if g.freeFrames < g.freeTarget then g.tier.pressure + 1 else 0 } }

/-- Eviction, what it has started, flash relocation, the moves off retired frames, and the pulls of home copies. -/
def Gikan.placerStep (g : Gikan) : Gikan := (g.evict.migrate.relocStep).frameMoves.pullStep

/-- A slack page's frame has been stamped: the page is RESIDENT (R117). -/
def Gikan.slackStampEnd (g : Gikan) (entry p : Nat) : Gikan :=
  let r := g.page entry p
  if r.state == .stamping then g.setPage entry p { r with state := .resident, since := g.tickNo } else g

/-! Flash (R133 to R136) -/

/-- Highest and lowest erase counts; a block with no record has 0. -/
def Gikan.eraseMax (g : Gikan) : Nat := min 65535 (g.tier.erases.foldl (fun n c => max n c.2) 0)
def Gikan.eraseMin (g : Gikan) : Nat :=
  let used := g.tier.erases.filter (fun c => !g.tier.badBlocks.contains c.1)
  if used.length + g.tier.badBlocks.length < g.flashBlocks then 0
  else match used with
    | [] => 0
    | c :: t => min 65535 (t.foldl (fun n x => min n x.2) c.2)

/-- Whether a cause of R135 holds for a block: its reads since its erase, or the spread of erase counts; what a read corrected is not modelled. -/
def Gikan.relocCause (g : Gikan) (b : Nat) (c : RelocCause) : Bool :=
  match c with
  | .readCount => decide (1000 * max 1 (g.get F.TIER_FLASH_CFG_RD_LIMIT_K) ≤ g.tier.reads.getD b 0)
  | .errorLevel => true
  | .wear => decide (g.eraseMin + max 16 (g.get F.TIER_FLASH_CFG_WEAR_DELTA) < g.eraseMax)

/-- A block's valid pages are relocated for a cause of R135. -/
def Gikan.blockRelocate (g : Gikan) (b : Nat) (c : RelocCause) : Gikan :=
  if g.tier.badBlocks.contains b || !g.relocCause b c then g else g.relocate b false

/-- A failed program or erase. -/
def Gikan.programFail (g : Gikan) (b : Nat) : Gikan := g.retireBlock b

/-! The parameter pages (R133) -/

/-- Geometry of a target: page bytes, spare bytes, pages per block, planes, LUNs, blocks per plane. -/
structure FlashGeo where
  page : Nat
  spare : Nat
  pages : Nat
  planes : Nat
  luns : Nat
  blocks : Nat
  deriving DecidableEq, Repr

/-- A target's geometry as its parameter page gives it; none where no target is. -/
def flashGeo (channel target : Nat) : Option FlashGeo :=
  let w := Config.flashPage channel target
  if w = 0 then none else some ⟨bits w 0 16, bits w 16 16, bits w 32 16, bits w 48 8, bits w 56 8, bits w 64 16⟩

/-- The limits of R133. -/
def FlashGeo.ok (x : FlashGeo) : Bool :=
  x.page == 16384 && decide (1792 ≤ x.spare) && decide (256 ≤ x.pages ∧ x.pages ≤ 4096) && (x.planes == 1 || x.planes == 2 || x.planes == 4) &&
  decide (1 ≤ x.luns ∧ x.luns ≤ 8)

def FlashGeo.bytes (x : FlashGeo) : Nat := x.page * x.pages * x.planes * x.luns * x.blocks

/-- The targets that are present, in channel order: channel and geometry. -/
def flashFound : List (Nat × FlashGeo) :=
  (List.range 16).flatMap (fun c => (List.range 8).filterMap (fun t => (flashGeo c t).map (fun x => (c, x))))

/-- The first target found on F0. -/
def flashFirst : Option FlashGeo := (flashFound.find? (fun x => x.1 == 0)).map (fun x => x.2)

/-- The channels of the targets that are used: within the limits, of the geometry of the first, and of 128 TiB raw at most. -/
def flashUsed : List Nat :=
  match flashFirst with
  | none => []
  | some f =>
    if !f.ok then [] else
    ((flashFound.filter (fun x => decide (x.2 = f))).take (2 ^ 47 / max 1 f.bytes)).map (fun x => x.1)

/-- TIER_FLASH_GEOM and UNUSED_TARGETS from the parameter pages. -/
def Gikan.readGeometry (g : Gikan) : Gikan :=
  let u := flashUsed
  let f := flashFirst.getD ⟨0, 0, 0, 0, 0, 0⟩
  let per := fun (c : Nat) => (u.filter (fun x => x == c)).length
  let mask := (List.range 16).foldl (fun m c => if u.contains c then setBit m c else m) 0
  let some_ := if u.isEmpty then 0 else 1
  let g := ((g.set F.TIER_FLASH_GEOM_CHANNELS mask).set F.TIER_FLASH_GEOM_TARGETS ((List.range 16).foldl (fun m c => max m (per c)) 0)).set
    F.TIER_FLASH_GEOM_LUNS (some_ * f.luns)
  let g := ((g.set F.TIER_FLASH_GEOM_PLANES (some_ * f.planes)).set F.TIER_FLASH_GEOM_PAGES_PER_BLOCK (some_ * f.pages)).set
    F.TIER_FLASH_GEOM_BLOCKS_PER_PLANE (some_ * f.blocks)
  g.set F.TIER_FLASH_HEALTH_UNUSED_TARGETS (min 255 (flashFound.length - u.length))

/-- The translation layer's start ends (R133, R136): the blocks that the journal shows open are suspect, with those whose erase it does not
show complete; each is erased, or retired when that fails. -/
def Gikan.ftlReady (g : Gikan) (ok : Bool) (suspects failed : List Nat) : Gikan :=
  if g.on F.TIER_STATUS_FTL_READY || g.hasp then g else
  if !ok then g.contained 55 0xFFFF (offOf F.TIER_STATUS_FTL_READY) else
  let ss := suspects.foldl insNat g.tier.openBlocks
  let g := { g with tier := { g.tier with openBlocks := [] } }
  let g := (ss.filter (fun b => failed.contains b)).foldl (fun h b => h.retireBlock b) g
  let g := (ss.filter (fun b => !failed.contains b)).foldl (fun h b => h.erased b) g
  let g := (g.readGeometry).set F.TIER_SAG_SUSPECT_FOUND (min ss.length 65535)
  (g.set F.TIER_STATUS_FTL_READY 1).fitRecords

/-- Frames in each use (TIER_OCCUPANCY): reserved (host-window frames among them, R276), tiered, copies, slack. -/
def Gikan.occupancy (g : Gikan) : Nat × Nat × Nat × Nat :=
  g.stk.frames.foldl (fun (a, b, c, d) f => match f.2 with
    | .page entry p =>
      let e := g.map.cur.entry entry
      let r := g.page entry p
      if e.valid && e.tier == 0 then (a + 1, b, c, if r.state == .slack then d + 1 else d)
      else if r.state == .residentClean || r.state == .lower then (a, b, c + 1, d) else (a, b + 1, c, d)
    | .window | .windowWait => (a + 1, b, c, d)
    | _ => (a, b, c, d)) (0, 0, 0, 0)

/-- Counters that TIER_CTRL.CLR_CNT clears. -/
def tierCounters : List Fld :=
  [F.TIER_SCHED_STATUS_LATE, F.TIER_SCHED_STATUS_SKIPPED, F.TIER_HINT1_IGNORED, F.TIER_LEND_CRC_DISCARDS, F.TIER_FLASH_ERR_RETRIES,
   F.TIER_FLASH_ERR_SOFT, F.TIER_FLASH_ERR_UNCORRECTABLE, F.TIER_SAG_PROGRAMS_HELD, F.TIER_SAG_ERASES_HELD, F.TIER_SAG_DEMOTIONS_PAUSED,
   F.TIER_EVENTS_FETCHES, F.TIER_EVENTS_DEMOTIONS, F.TIER_EVENTS_DROPS, F.TIER_EVENTS_HOME_COPIES] ++
  (List.range 4).flatMap (fun i => [F.TIER_STALL_EVENTS i, F.TIER_STALL_CYCLES_K i])

/-- A write of TIER_CTRL. -/
def Gikan.wrTierCtrl (g : Gikan) (w : RegW) : Gikan :=
  let g := g.putFields w (offOf F.TIER_CTRL_PLACER_EN)
    [F.TIER_CTRL_PLACER_EN, F.TIER_CTRL_LEND_EN, F.TIER_CTRL_MIGRATE_FREEZE, F.TIER_CTRL_THRESH_FREEZE, F.TIER_CTRL_FREE_TARGET]
  if wrOne w F.TIER_CTRL_CLR_CNT then { g.clear tierCounters with tier := { g.tier with xstall := [] } } else g

end Sys2Proof.Machine
end

