-- ==== Sys2Proof/Machine/Intake.lean ====
section
/-!
DEFINITION. How a request is received: the source rule (R36, R295), the admission checks that every type shares (R10), the record cache (R58,
R59), routing (R69) with the token of a handover (R82), the compartment match (R321, R322), and the answers.
-/

namespace Sys2Proof.Machine

/-! Where a packet lies -/

/-- Where the packet of a command was found: in the buffer of its fabric port, in the box of its internal port, or nowhere, when the
command itself brings it. -/
inductive From where
  | buffer | inbox | outside
  deriving DecidableEq, Repr

/-- Take a packet that arrived by crossbar input `x` out of the place where it waits. -/
def Gikan.takePkt (g : Gikan) (x : Nat) (p : Packet) : From × Gikan :=
  if x < 32 then
    let l := g.link x
    if l.buf.contains p then (.buffer, g.setLink x { l with buf := l.buf.erase p }) else (.outside, g)
  else
    let b := g.xbar.inbox.getD x []
    if b.contains p then (.inbox, { g with xbar := { g.xbar with inbox := g.xbar.inbox.put x (b.erase p) } }) else (.outside, g)

/-- The packet is used up here: its buffer space and credits are free. -/
def Gikan.consumed (g : Gikan) (src : From) (x : Nat) (p : Packet) : Gikan :=
  if src = .buffer then g.freeInput x p else g

/-- The packet goes on to an output. -/
def Gikan.passOn (g : Gikan) (src : From) (x port : Nat) (p : Packet) : Gikan :=
  if src = .buffer then g.enqueueCells x port p 17 else (g.arrived x p).enqueue x port p

/-- The packet goes back to where it waits: its command will come again (R360, R150). -/
def Gikan.keepPkt (g : Gikan) (x : Nat) (p : Packet) : Gikan :=
  if x < 32 then g.setLink x { g.link x with buf := (g.link x).buf ++ [p] }
  else g.toInbox x p

/-- The buffer space that a kept packet goes on holding. -/
def Gikan.keepFrom (g : Gikan) (src : From) (x : Nat) (p : Packet) : Gikan :=
  if src = .outside && decide (x < 32) then ((g.arrived x p).addUsed x (bufUnits p)).keepPkt x p else g.keepPkt x p

/-! Records (R58, R59) -/

/-- The age of a request. -/
def Gikan.reqAge (g : Gikan) (q : Req) : Nat :=
  let a := (g.tickNo % 65536 + 65536 - q.hdr.sentTick) % 65536
  if a = 65535 then 0 else a

def DupRec.is (r : DupRec) (q : Req) : Bool :=
  r.src == q.hdr.src && r.tag == q.hdr.tag && r.sentTick == q.hdr.sentTick && r.type == q.hdr.type

/-- Whether a record may be evicted. -/
def Gikan.evictableRec (g : Gikan) (r : DupRec) : Bool :=
  match r.done with
  | some (_, b) => decide (b + 4 ≤ g.req.boundaries) && decide (3 < (g.tickNo % 65536 + 65536 - r.sentTick) % 65536)
  | none => false

abbrev dupLimit : Nat := 262144

/-- Make room for a record: the oldest that may be evicted goes when the cache is full. -/
def Gikan.dupRoom (g : Gikan) : Bool × Gikan :=
  if g.req.dups.length < dupLimit then (true, g)
  else match findIdx g.evictableRec g.req.dups with
    | some (i, _) => (true, { g with req := { g.req with dups := g.req.dups.eraseIdx i } })
    | none => (false, g)

/-- Every record up to place `i` that may be evicted goes: eviction takes the oldest first. -/
def Gikan.evictThrough (g : Gikan) (i : Nat) : Gikan :=
  { g with req := { g.req with dups := (g.req.dups.take (i + 1)).filter (fun r => !g.evictableRec r) ++ g.req.dups.drop (i + 1) } }

/-- A pending record for an accepted request. -/
def Gikan.dupOpen (g : Gikan) (q : Req) : Gikan :=
  if nonIdem q.hdr.type then { g with req := { g.req with dups := g.req.dups ++ [⟨q.hdr.src, q.hdr.tag, q.hdr.sentTick, q.hdr.type, q.hdr.cmpt, none⟩] } } else g

/-- The response is sent: its record is complete, with the header and up to 48 bytes. -/
def Gikan.dupClose (g : Gikan) (q : Req) (r : Resp) : Gikan :=
  if nonIdem q.hdr.type then
    { g with req := { g.req with dups := g.req.dups.map (fun c =>
      if c.is q && c.done.isNone then { c with done := some ({ r with payload := r.payload.take 48 }, g.req.boundaries) } else c) } }
  else g

/-! Answers -/

/-- Answer an executed request from crossbar input `i`. -/
def Gikan.answer (g : Gikan) (i x : Nat) (q : Req) (st : Nat) (payload : List Byte) : Gikan :=
  let r := mkResp q g.node g.epoch st payload
  (g.dupClose q r).answerFrom i x q r

/-- What the lookup of R59 says: go on, or the state in which the request has been dealt with. -/
def Gikan.dupLookup (g : Gikan) (x : Nat) (q : Req) (here : Bool) : Gikan × Bool :=
  if !nonIdem q.hdr.type then (g, true) else
  let fresh := fun (h : Gikan) =>
    if here && decide (4 ≤ h.reqAge q) then ((h.inc F.MAP_DUP_AGED_OUT 1).refuse x q stTIMEOUT, false) else (h, true)
  match findIdx (fun r : DupRec => r.is q) g.req.dups with
  | none => fresh g
  | some (i, r) =>
    match r.done with
    | none => (g.inc F.MAP_DUP_PENDING_DROPS 1, false)
    | some (a, _) =>
      let (gone, g) := if g.evictableRec r then let (d, h) := g.next; (Config.evicted d, h) else (false, g)
      if gone then fresh (g.evictThrough i)
      else (g.answerFrom 47 x q { a with dup := 1, retry := q.hdr.retry }, false)

/-! The source rule (R36, R295) -/

/-- Whether a request's SRC is permitted on the port it came by: an assignable number, of a bound endpoint its own; an endpoint that is not
bound may send only TC0 requests to 0xFFFF. -/
def Gikan.srcOk (g : Gikan) (x : Nat) (q : Req) : Bool :=
  if 32 ≤ x then true
  else if !assignable q.hdr.src then false
  else if !g.endpointPort x then true
  else if g.on (F.LNK_BIND_VALID x) then q.hdr.src == g.get (F.LNK_BIND_NODE x)
  else q.hdr.tc == 0 && addrNode q.hdr.addr == 0xFFFF

/-! The compartment match (R321, R322) -/

/-- The mask of a node (R320). -/
def Gikan.memberOf (g : Gikan) (node c : Nat) : Bool := (g.sec.masks.getD node 0).testBit c

/-- The first test that fails, 0 when none does; the ward test is left out when no key is given. -/
def Gikan.match3 (g : Gikan) (q : Req) (cmpt : Nat) (ward : Option Nat) : Nat :=
  if !g.memberOf q.hdr.src q.hdr.cmpt then 1
  else if q.hdr.cmpt != cmpt then 2
  else match ward with
    | some w => if q.hdr.ward = w then 0 else 3
    | none => 0

def View.ward (v : View) : View := { v with wards := v.wards + 1 }

/-- A WARD_FAULT is counted, logged, and raises its alarm once a tick (R322). -/
def Gikan.wardFault (g : Gikan) (src cmpt test entry : Nat) : Gikan :=
  let g := (g.inc F.SEC_WARD_COUNT 1).viewed cmpt View.ward
  let g := if g.on F.SEC_WARD_LOG_VALID then g.set F.SEC_WARD_LOG_OVERFLOW 1
    else ((((g.set F.SEC_WARD_LOG_VALID 1).set F.SEC_WARD_LOG_SRC src).set F.SEC_WARD_LOG_CMPT cmpt).set F.SEC_WARD_LOG_TEST test).set
      F.SEC_WARD_LOG_ENTRY entry
  let n := g.sec.wardTick + 1
  let g := { g with sec := { g.sec with wardTick := n } }
  if decide (max 1 (g.get F.SEC_WARD_THRESH) < n) && !g.sec.wardAlarm then
    (({ g with sec := { g.sec with wardAlarm := true } }).inc F.SEC_WARD_ALARMS 1).contained 59 cmpt (offOf F.SEC_WARD_COUNT)
  else g

/-- Refuse a request whose match failed. -/
def Gikan.refuseWard (g : Gikan) (x : Nat) (q : Req) (test entry : Nat) : Gikan :=
  (g.wardFault q.hdr.src q.hdr.cmpt test entry).refuse x q stWARD

/-- Whether a compartment is SCRUBBING (R325). -/
def Gikan.scrubbing (g : Gikan) (c : Nat) : Bool := (g.get F.SEC_CMPT_STATE_SCRUBBING).testBit c

/-! Receipt -/

/-- What the receipt of a request comes to: it has been dealt with, or it is admitted through check 5 on an extent (index 0 and no entry
for a request addressed to this node). -/
inductive Recv where
  | done (g : Gikan)
  | go (g : Gikan) (entry : Nat) (e : ExtW)

/-- The wake domain of the work that a request brings: 0 engines, 1 memory, 3 none (a command that a TRIGGER carries waits in its Keyway,
R360). -/
def workDomain (q : Req) : Nat :=
  let t := q.hdr.type
  if t == tyTRIGGER then (if trigEntry q = 0xFFFF then 3 else 0)
  else if t == tyCONTRIB || t == tyGATHER || t == tyFILTER || t == tySCORE then 0
  else if t == tyFENCE || t == tyMSG || isCtlType t then 3
  else 1

/-- Hold a request at this Gikan. -/
def Gikan.hold (g : Gikan) (x : Nat) (q : Req) (entry : Nat) (why : Hold) : Nat × Gikan :=
  let id := g.req.nextId
  (id, { g with req := { g.req with nextId := id + 1, held := g.req.held ++ [⟨id, x, q, entry, why⟩] } })

/-- A held request. -/
def Gikan.heldById (g : Gikan) (id : Nat) : Option Held := g.req.held.find? (fun h => h.id == id)

/-- A held request is held no more. -/
def Gikan.release (g : Gikan) (id : Nat) : Gikan := { g with req := { g.req with held := g.req.held.filter (fun h => h.id != id) } }

/-- Send a request on toward a node (check 2 of its path among it). -/
def Gikan.sendOn (g : Gikan) (src : From) (x : Nat) (q : Req) (ports : Nat) : Gikan :=
  match g.exitPort ports q.hdr.tc q.hdr.src q.hdr.tag with
  | .inl p => g.passOn src x p (.req q)
  | .inr st => (g.consumed src x (.req q)).refuse x q st

/-- Whether some port of a set takes a request. -/
def Gikan.wayOpen (g : Gikan) (ports : Nat) (q : Req) : Bool :=
  match g.exitPort ports q.hdr.tc q.hdr.src q.hdr.tag with | .inl _ => true | .inr _ => false

/-- Checks 4 and 5, and the token: a request that stays here is admitted so far, any other has been dealt with. -/
def Gikan.place5 (g : Gikan) (src : From) (x : Nat) (q : Req) : Recv :=
  let refuse := fun (st : Nat) => Recv.done ((g.consumed src x (.req q)).refuse x q st)
  let enter := fun (i : Nat) (e : ExtW) =>
    if g.delays (workDomain q) then Recv.done (((g.wakeFor (workDomain q)).2).keepFrom src x (.req q))
    else .go (g.consumed src x (.req q)) i e
  let live := isCtlType q.hdr.type || (g.liveMap q.hdr.epoch).isSome
  let stale := fun (_ : Unit) =>
    let h := (g.consumed src x (.req q)).refuse x q stSTALE
    Recv.done (if g.newerEpoch q.hdr.epoch then (h.inc F.MAP_EVENTS_FUTURE_EPOCH 1).corrected 62 0 (offOf F.MAP_EVENTS_FUTURE_EPOCH) else h)
  if nodeAddressed q || q.hdr.type == tyCONTRIB then
    match g.routeNode (addrNode q.hdr.addr) with
    | .send _ ports => if live || g.wayOpen ports q then .done (g.sendOn src x q ports) else stale ()
    | .refuse st => if live then refuse st else stale ()
    | .home i e => if !live then stale () else if isCtlType q.hdr.type then .go (g.consumed src x (.req q)) i e else enter i e
  else match g.liveMap q.hdr.epoch with
    | none => stale ()
    | some m =>
      if decide (16384 ≤ addrNode q.hdr.addr) && addrNode q.hdr.addr != 0xFFFF then refuse stNOTPRES else
      match g.routeMem m q.hdr.addr with
      | .refuse st => refuse st
      | .send _ ports => .done (g.sendOn src x q ports)
      | .home i e =>
        match g.token i with
        | .here => enter i e
        | .hold => .done ((g.consumed src x (.req q)).hold x q i (.token i)).2
        | .to_ n =>
          if addrNode q.hdr.addr = 0xFFFF then refuse stNOTPRES
          else .done (g.sendOn src x q (routePorts (g.map.cur.routeOf n)))

/-- Whether a request for this Gikan is refused at check 3. -/
def Gikan.refusedAt3 (g : Gikan) (x : Nat) (q : Req) (bad : Bool) : Bool :=
  g.srcOk x q && !g.hasp && !g.quarBad x q && g.unsup x q bad && g.forSelf q

/-- Receive a request of one of some types by crossbar input `x`: the source rule, checks 1 to 3 (with what the type's own chapter adds
to check 3), the record cache, checks 4 and 5. A packet of another known type is not this command's and stays as it was. -/
def Gikan.receive (g0 : Gikan) (x : Nat) (q : Req) (type : Nat) (bad : Bool) : Recv :=
  if q.hdr.type != type && knownType q.hdr.type then .done g0 else
  let (src, g) := g0.takePkt x (.req q)
  let drop := g.consumed src x (.req q)
  if !g.srcOk x q then
    .done ((drop.inc (F.LNK_COUNT2_SRC_DROPS x) 1).contained (grpPort x) 0xFF (offOf (F.LNK_COUNT2_SRC_DROPS x)))
  else if g.hasp then
    if g.forSelf q then .done (drop.refuse x q stHASP) else .done (drop.inc F.FLT_HASP0_TRANSIT_DROPS 1)
  else if g.quarBad x q then .done (drop.refuse x q stQUAR)
  else if g.unsup x q bad then .done (drop.refuse x q stUNSUP)
  else
    let (h, ok) := g.dupLookup x q (g.forSelf q)
    if ok then h.place5 src x q else .done (h.consumed src x (.req q))

/-! Checks 6 to 10 on an extent -/

/-- The site of an admitted access. -/
def siteFor (entry : Nat) (e : ExtW) : Site := ⟨entry, e⟩

/-- The borrowers of the pages that a span touches (R263). -/
def Gikan.lentTo (g : Gikan) (a n : Nat) : List Nat :=
  if n = 0 then [] else
  (List.range ((a + n - 1) / pageBytes - a / pageBytes + 1)).filterMap (fun i => g.tier.lentOut.get? (a / pageBytes + i))

/-- Whether a span touches a page on loan from this Gikan. -/
def Gikan.onLoanHere (g : Gikan) (a n : Nat) : Bool := !(g.lentTo a n).isEmpty

/-- Whether a request is the borrower's own traffic on pages on loan, which skips check 7 (R263). -/
def Gikan.borrower (g : Gikan) (q : Req) : Bool :=
  let ls := g.lentTo (g.realAddr q.hdr.addr) q.hdr.length
  (q.hdr.type == tyREAD || q.hdr.type == tyWRITE) && q.hdr.mov == 1 && !ls.isEmpty && ls.all (fun n => n == q.hdr.src)

/-- Check 7 on an extent: the failing test, 0 when none; with the check skipped only test 2 is made. -/
def Gikan.check7 (g : Gikan) (q : Req) (e : ExtW) : Nat :=
  if g.borrower q then (if q.hdr.cmpt != e.cmpt then 2 else 0) else g.match3 q e.cmpt (some e.ward)

/-- Room in the record cache for a request that takes a record (R58). -/
def Gikan.checkRecord (g : Gikan) (q : Req) : Bool × Gikan :=
  if nonIdem q.hdr.type then
    let (ok, g) := g.dupRoom
    if ok then (true, g) else (false, g.inc F.MAP_DUP_CACHE_FULL 1)
  else (true, g)

/-- What of check 10 does not depend on the type: no request to an extent is admitted before STAMPED (R96; the code is that of a transient refusal,
DEDUCED, assumption 144), a quiesced extent, a compartment being scrubbed, room in the record cache. -/
def Gikan.check10 (g : Gikan) (q : Req) (e : ExtW) : Bool × Gikan :=
  if !g.stamped then (false, g)
  else if e.seated && (g.get F.MAP_QUIESCE_CMPT_MASK).testBit e.cmpt then (false, g)
  else if g.scrubbing q.hdr.cmpt || g.scrubbing e.cmpt then (false, g)
  else g.checkRecord q

/-- The same for a request that names no extent: only its own compartment can be scrubbed (R325). -/
def Gikan.check10Node (g : Gikan) (q : Req) : Bool × Gikan := if g.scrubbing q.hdr.cmpt then (false, g) else g.checkRecord q

def View.request (v : View) : View := { v with requests := v.requests + 1 }

/-- A request is admitted: its record, the counts of R130 and R328. -/
def Gikan.admitted (g : Gikan) (x entry : Nat) (q : Req) : Gikan :=
  let g := ((g.dupOpen q).viewed q.hdr.cmpt View.request).arrivedWork (workDomain q)
  if nodeAddressed q then g else
  let t := g.tier
  let partner := if x < 32 then g.get (F.LNK_STATUS_PARTNER_NODE x) else g.node
  let k := entry * 65536 + partner
  { g with tier := { t with seen := t.seen.put entry (t.seen.getD entry 0 + 1), seenBy := t.seenBy.put k (t.seenBy.getD k 0 + 1) } }

/-- A work item as the transactions of its accesses name it: its unit's key, what it serves. -/
def itemKey (u : UnitId) (w : Work) : List Nat :=
  unitKey u :: (match w with
    | .job kw idx i => [1, kw, idx, i]
    | .request id i => [2, id, i]
    | .add s r c => [3, s, r, c]
    | .output s r c => [4, s, r, c]
    | .update s r c => [5, s, r, c]
    | .relayDown s r c => [6, s, r, c]
    | .pin core id => [7, core, id])

/-- The same for an instruction of a pin-core thread. -/
def threadKey (core t id : Nat) : List Nat := [2 ^ 32, core, t, id]

/-! An engine's access to its own stacks, coherent lines wanted first (R14, R150) -/

def Gikan.engRead (g : Gikan) (s : Site) (a n : Nat) : Gikan × List Byte × Bool := (g.cohTouch s a n false).engineRead s a n

def Gikan.engWrite (g : Gikan) (s : Site) (a : Nat) (data : List Byte) : Gikan := (g.cohTouch s a data.length true).engineWrite s a data

/-- The site of `n` bytes of an extent of the current map that is homed here. -/
def Gikan.siteAt (g : Gikan) (a : Nat) : Option Site :=
  match g.map.cur.extentAt (g.realAddr a) with
  | some (i, e) => if e.home = g.node && g.token i == .here then some ⟨i, e⟩ else none
  | none => none

end Sys2Proof.Machine
end

