-- ==== Sys2Proof/Machine/Rings.lean ====
section
/-!
DEFINITION. Completion queues and message queues: rings in host memory or in an extent, their PHASE bit, HEAD and TAIL, and the messages
they raise (R48, R267, R269, R270).
-/

namespace Sys2Proof.Machine

/-- A queue as reset leaves it: SLOTS_LOG2 and SLOT_LOG2 at 6. -/
def Ring.reset : Ring := ⟨6 * 2 ^ 8 + 6 * 2 ^ 12, 0, 0, 0, false, []⟩

def Gikan.cq (g : Gikan) (n : Nat) : Ring := g.sub.cqs.getD n Ring.reset
def Gikan.mq (g : Gikan) (n : Nat) : Ring := g.sub.mqs.getD n Ring.reset

def Gikan.setCq (g : Gikan) (n : Nat) (r : Ring) : Gikan := { g with sub := { g.sub with cqs := g.sub.cqs.setD n Ring.reset r } }
def Gikan.setMq (g : Gikan) (n : Nat) (r : Ring) : Gikan := { g with sub := { g.sub with mqs := g.sub.mqs.setD n Ring.reset r } }

/-! The fields of CFG -/

def Ring.valid (r : Ring) : Bool := bit r.cfg 0
def Ring.cmpt (r : Ring) : Nat := bits r.cfg 1 4
def Ring.loc (r : Ring) : Nat := if bits r.cfg 5 2 = 3 then 0 else bits r.cfg 5 2

/-- The port of a queue's messages. -/
def Ring.side (r : Ring) : Side :=
  match r.loc with
  | 1 => .a
  | 2 => .b
  | _ => if bit r.cfg 7 then .b else .a

def Ring.vector (r : Ring) : Nat := bits r.cfg 16 11

/-- Records of a completion queue; slots of a message queue and their bytes; values outside a range act as its lowest. -/
def Ring.records (r : Ring) : Nat :=
  let n := bits r.cfg 8 4
  2 ^ (if n = 0 then 16 else if n < 6 then 6 else n)
def Ring.slots (r : Ring) : Nat :=
  let n := bits r.cfg 8 4
  2 ^ (if n < 4 ∨ 12 < n then 4 else n)
def Ring.slotBytes (r : Ring) : Nat :=
  let n := bits r.cfg 12 4
  2 ^ (if n < 6 ∨ 13 < n then 6 else n)

/-- Entries written and not consumed. -/
def Ring.used (r : Ring) : Nat := (r.tail + 2 ^ 32 - r.head) % 2 ^ 32

/-- PHASE of the entry at TAIL: 1 on the first pass, the other at each wrap. -/
def Ring.phase (r : Ring) (size : Nat) : Nat := (r.tail / size + 1) % 2

/-- Write the bytes of an entry at TAIL, where the ring lies. -/
def Gikan.ringWrite (g : Gikan) (r : Ring) (size width : Nat) (data : List Byte) : Gikan :=
  let a := r.base + width * (r.tail % size)
  match r.loc with
  | 1 => g.emit (.hostWrite .a a data)
  | 2 => g.emit (.hostWrite .b a data)
  | _ =>
    match g.siteAt a with
    | some s => if s.e.cmpt = r.cmpt && s.e.covers (g.realAddr a) data.length then g.engWrite s (g.realAddr a) data else g
    | none => g

/-- One entry more, with its NOTIFY; an armed queue sends its message and disarms. -/
def Gikan.ringPut (g : Gikan) (r : Ring) (notify : Bool) : Gikan × Ring :=
  let r := { r with tail := (r.tail + 1) % 2 ^ 32, notify := r.notify ++ [notify] }
  if notify && r.armed then (g.msix r.side r.vector, { r with armed := false }) else (g, r)

/-- A write of HEAD: entries consumed; re-armed; unread NOTIFY entries raise the message at once. -/
def Gikan.ringHead (g : Gikan) (r : Ring) (head : Nat) : Gikan × Ring :=
  let n := (head + 2 ^ 32 - r.head) % 2 ^ 32
  let r := { r with head := head % 2 ^ 32, notify := r.notify.drop n, armed := true }
  if r.notify.any (fun b => b) then (g.msix r.side r.vector, { r with armed := false }) else (g, r)

/-- The slot of a message (R270). -/
def msgSlot (q : Req) (phase time : Nat) (payload : List Byte) : List Byte :=
  leBytes 2 q.hdr.src ++ leBytes 2 payload.length ++ leBytes 2 q.hdr.tag ++ leBytes 1 phase ++ leBytes 1 0 ++ leBytes 8 time ++ payload

/-- Write a message to its queue. -/
def Gikan.putMsg (g : Gikan) (n : Nat) (q : Req) (payload : List Byte) : Gikan :=
  let r := g.mq n
  let g := g.ringWrite r r.slots r.slotBytes (msgSlot q (r.phase r.slots) g.time payload)
  let (g, r) := g.ringPut r true
  g.setMq n r

/-- A write of a CFG register: while VALID is 1 only VALID changes; setting VALID arms the queue and starts its first pass, HEAD and TAIL at 0. -/
def Ring.writeCfg (r : Ring) (v : Nat) : Ring :=
  let v := v % 2 ^ 27
  if r.valid then
    let c := putBit r.cfg 0 (bit v 0)
    { r with cfg := c, armed := if bit v 0 then r.armed else false }
  else if bit v 0 then { r with cfg := v, armed := true, head := 0, tail := 0, notify := [] }
  else { r with cfg := v, armed := false }

end Sys2Proof.Machine
end

