-- ==== Sys2Proof/Machine/Requests.lean ====
section
/-!
DEFINITION. The requests on memory and the node-addressed ones that need no engine: READ, WRITE, ATOMIC, PUBLISH, MSG, LEND, RECLAIM (R42,
R43, R48 to R51, R64, R83, R84).
-/

namespace Sys2Proof.Machine

/-! What is done once every check has passed -/

/-- A READ's own effect: bytes, those of poisoned units zero, and POISONED when there is one (R42, R99). -/
def Gikan.runRead (g : Gikan) (x : Nat) (q : Req) (s : Site) : Gikan :=
  let a := g.realAddr q.hdr.addr
  let i := g.homePort s a
  let g := g.heatUp s a q.hdr.length
  let (g, data, bad) := g.readMem s a q.hdr.length 0
  g.answer i x q (if bad then stPOISONED else stOK) data

/-- A WRITE's own effect. -/
def Gikan.runWrite (g : Gikan) (x : Nat) (q : Req) (s : Site) : Gikan :=
  let a := g.realAddr q.hdr.addr
  let i := g.homePort s a
  let g := (g.heatUp s a q.hdr.length).store s a (fit q.payload q.hdr.length)
  g.answer i x q stOK []

/-- The smaller or larger of two numbers of `w` bytes, signed or not. -/
def atomPick (signed_ larger : Bool) (w a b : Nat) : Nat :=
  let less := if signed_ then decide (sext a (8 * w) < sext b (8 * w)) else decide (a < b)
  if larger then (if less then b else a) else (if less then a else b)

/-- The new value of an atomic operation (R43). -/
def atomResult (op w old operand compare : Nat) : Nat :=
  let m := 256 ^ w
  let x := operand % m
  match op with
  | 1 => (old + x) % m
  | 2 => old &&& x
  | 3 => old ||| x
  | 4 => old ^^^ x
  | 5 => atomPick true false w old x
  | 6 => atomPick true true w old x
  | 7 => atomPick false false w old x
  | 8 => atomPick false true w old x
  | 9 => x
  | 10 => if old = compare % m then x else old
  | _ => f32Add old x

/-- An ATOMIC's own effect: not performed on a poisoned word. -/
def Gikan.runAtomic (g : Gikan) (x : Nat) (q : Req) (s : Site) : Gikan :=
  let a := g.realAddr q.hdr.addr
  let w := q.hdr.length
  let i := g.homePort s a
  let g := g.heatUp s a w
  let (g, data, bad) := g.readMem s a w 0
  if bad then g.answer i x q stPOISONED []
  else
    let new := atomResult q.hdr.subop w (leNat data) (atomOperand q) (atomCompare q)
    (g.store s a (leBytes w new)).answer i x q stOK data

/-- Record a publish conflict: the entry, the other publisher and the version (R84). -/
def Gikan.pubConflict (g : Gikan) (entry version src : Nat) : Gikan :=
  let g := g.inc F.MAP_EVENTS2_PUB_CONFLICTS 1
  let g := ((g.set F.MAP_PUB_CONFLICT_ENTRY entry).set F.MAP_PUB_CONFLICT_OTHER src).set F.MAP_PUB_CONFLICT_VERSION version
  g.contained 62 0 (offOf F.MAP_PUB_CONFLICT_ENTRY)

/-- A PUBLISH decided against the region's header (R84). -/
def Gikan.runPublish (g : Gikan) (x : Nat) (q : Req) (s : Site) : Gikan :=
  let a := g.realAddr q.hdr.addr
  let n := q.hdr.length
  let i := g.homePort s a
  let v := pubVersion q
  let g := g.heatUp s a n
  let (g, hd, _) := g.readMem s s.e.base 8 0
  -- stamping leaves VERSION 0 and PUBLISHER 0xFFFE: a page that has no frame yet has no header written
  let fresh := !g.clean.contains (s.unitOf s.e.base)
  let ver := if fresh then 0 else field hd 0 4
  let pub := if fresh then 0xFFFE else field hd 4 2
  if v < ver || ver == 2 ^ 32 - 1 || (v == ver && q.hdr.src == pub) then g.answer i x q stSTALEV []
  else if v = ver then (g.pubConflict s.entry v q.hdr.src).answer i x q stCONFLICT []
  else
    let g := if n = 0 then g else g.store s a (fit q.payload n)
    let g := g.store s s.e.base (leBytes 4 v ++ leBytes 2 q.hdr.src ++ zeros 2)
    g.answer i x q stOK []

/-- Perform a request on memory. -/
def Gikan.runMem (g : Gikan) (x : Nat) (q : Req) (s : Site) : Gikan :=
  if q.hdr.type = tyREAD then g.runRead x q s
  else if q.hdr.type = tyWRITE then g.runWrite x q s
  else if q.hdr.type = tyATOMIC then g.runAtomic x q s
  else g.runPublish x q s

/-! Checks 6 to 10 of the types on memory -/

/-- Lengths of check 8 (R51). -/
def Gikan.memLength (g : Gikan) (q : Req) (e : ExtW) : Bool :=
  let n := q.hdr.length
  let top := if q.hdr.type = tyATOMIC then 16 else 4096
  (decide (0 < n) || q.hdr.type == tyPUBLISH) && decide (n ≤ top) && e.covers (g.realAddr q.hdr.addr) (max 1 n)

/-- The lines of a coherent extent that a request touches: of a PUBLISH also the header's. -/
def Gikan.memLines (g : Gikan) (q : Req) (e : ExtW) : List Nat :=
  let ls := linesOf (g.realAddr q.hdr.addr) q.hdr.length
  if q.hdr.type = tyPUBLISH then (linesOf e.base 8 ++ ls).dedup else ls

/-- A request on a coherent extent: a home transaction for each line, performed when all are ready (R150). -/
def Gikan.runCoherent (g : Gikan) (x : Nat) (q : Req) (i : Nat) (e : ExtW) : Gikan :=
  let ls := g.memLines q e
  let (id, g) := g.hold x q i (.coherent (ls.headD e.base))
  let kind := if q.hdr.type = tyREAD then CohKind.homeRead else .homeWrite
  ls.foldl (fun h l => h.queueTxn (Txn.new l i kind h.node q.hdr.tag id [])) g

/-- Checks 6 to 10, R43 and R83 on a READ, WRITE, ATOMIC or PUBLISH that is admitted through check 5, and its performance. R43 gives the
UNSUPPORTED of an ATOMIC on a compressed extent no place in the order of R10: it is tested before check 6 (DESIGN CHOICE, assumption 145). -/
def Gikan.memRequest (g : Gikan) (x : Nat) (q : Req) (i : Nat) (e : ExtW) : Gikan :=
  let a := g.realAddr q.hdr.addr
  let n := q.hdr.length
  let s := siteFor i e
  let write := q.hdr.type != tyREAD
  if q.hdr.type == tyATOMIC && e.comp != 0 then g.refuse x q stUNSUP
  else if (g.map.revoked.get? i).isSome then g.refuse x q stREVOKED
  else if g.check7 q e ≠ 0 then g.refuseWard x q (g.check7 q e) i
  else if !g.memLength q e then g.refuse x q stLENGTH
  else
    let (ok, g) := g.check10 q e
    if !ok then g.refuse x q stBUSY
    else if write && (g.onLoanHere a (max 1 n) || (q.hdr.type == tyPUBLISH && g.onLoanHere e.base 8)) && !g.borrower q then g.refuse x q stBUSY
    else if e.coh && !g.cohRoom (g.memLines q e).length then (g.inc F.COH_EVENTS_BUSY_REFUSALS 1).refuse x q stBUSY
    else
      let (ok, g) := g.admitPages s a n write
      let (ok, g) := if ok && q.hdr.type == tyPUBLISH then g.admitPages s e.base 8 true else (ok, g)
      if !ok then g.refuse x q stBUSY
      else if (q.hdr.type == tyWRITE || q.hdr.type == tyATOMIC) && e.pub then g.refuse x q stUNSUP
      else if q.hdr.type == tyPUBLISH && (!e.pub || decide (a < e.base + 8)) then g.refuse x q stUNSUP
      else
        let g := g.admitted x i q
        if e.coh then g.runCoherent x q i e else g.runMem x q s

/-- A request on memory as it arrives. -/
def Gikan.memArrive (g : Gikan) (x : Nat) (q : Req) (type : Nat) : Gikan :=
  match g.receive x q type false with
  | .done g => g
  | .go g i e => g.memRequest x q i e

/-! The agents' requests -/

/-- LENGTH: 128 with DATA, else 0. -/
def cohLength (q : Req) : Bool := q.hdr.length == (if bit (bodyField q 45 1) 0 then 128 else 0)

/-- Checks 6 to 10 of an agent's request, and its place in the queue of its line (R145). -/
def Gikan.cohAdmit (g : Gikan) (x : Nat) (q : Req) (i : Nat) (e : ExtW) (kind : CohKind) : Gikan :=
  if (g.map.revoked.get? i).isSome then g.refuse x q stREVOKED
  else if g.match3 q e.cmpt (some e.ward) ≠ 0 then g.refuseWard x q (g.match3 q e.cmpt (some e.ward)) i
  else if !cohLength q then g.refuse x q stLENGTH
  else
    let (ok, g) := if kind = .writeBack then (true, g) else g.check10 q e
    let (ok, g) := if kind = .writeBack || !ok then (ok, g) else g.admitPages (siteFor i e) (g.realAddr q.hdr.addr) 128 false
    if !ok then g.refuse x q stBUSY
    else if !g.cohRoom 1 then (g.inc F.COH_EVENTS_BUSY_REFUSALS 1).refuse x q stBUSY
    else if !e.coh then g.refuse x q stUNSUP
    else (g.admitted x i q).queueTxn (Txn.new (g.realAddr q.hdr.addr) i kind q.hdr.src q.hdr.tag 0 (fit q.payload 128))

/-- What an agent's request of a type asks of its line. -/
def cohKindOf (type : Nat) : CohKind :=
  if type = tyRDSHARED then .rdShared else if type = tyRDOWN then .rdOwn else if type = tyUPGRADE then .upgrade else .writeBack

/-! Node-addressed types -/

/-- Test 1 and the common part of check 10 for a node-addressed request: refused, or admitted. -/
def Gikan.nodeAdmit (g : Gikan) (x : Nat) (q : Req) (body : Gikan → Gikan) : Gikan :=
  if !g.memberOf q.hdr.src q.hdr.cmpt then g.refuseWard x q 1 0
  else body g

/-- Check 10 of a node-addressed request, then its effect. -/
def Gikan.node10 (g : Gikan) (x : Nat) (q : Req) (body : Gikan → Gikan) : Gikan :=
  let (ok, g) := g.check10Node q
  if ok then body g else g.refuse x q stBUSY

/-- A MSG at its destination (R48, R270). -/
def Gikan.msgHere (g : Gikan) (x : Nat) (q : Req) : Gikan :=
  let n := msgQueue q
  let r := g.mq n
  if 4096 ≤ n || !r.valid || r.cmpt != q.hdr.cmpt then g.refuse x q stNOTPRES
  else g.nodeAdmit x q (fun g =>
    if q.hdr.length = 0 ∨ 4096 < q.hdr.length ∨ r.slotBytes < q.hdr.length + 16 then g.refuse x q stLENGTH
    else g.node10 x q (fun g =>
      if r.slots ≤ r.used then g.refuse x q stBUSY
      else
        let h := g.admitted x 0 q
        g.cohSettle ((h.putMsg n q (fit q.payload q.hdr.length)).answer 47 x q stOK [])))

def Gikan.msgArrive (g : Gikan) (x : Nat) (q : Req) : Gikan :=
  match g.receive x q tyMSG false with
  | .done g => g
  | .go g _ _ => g.msgHere x q

/-- The ranges of LEND and RECLAIM (R49). -/
def lendLengthBad (q : Req) : Bool := q.hdr.length != 0 || lendPages q == 0 || decide (4096 < lendPages q)

/-- A LEND at the borrower (R122). -/
def Gikan.lendHere (g : Gikan) (x : Nat) (q : Req) : Gikan :=
  g.nodeAdmit x q (fun g =>
    if lendLengthBad q then g.refuse x q stLENGTH
    else g.node10 x q (fun g =>
      let (st, g) := g.takeLoan (lendBase q) (lendPages q) q.hdr.cmpt
      (g.admitted x 0 q).answer 47 x q st []))

def Gikan.lendArrive (g : Gikan) (x : Nat) (q : Req) : Gikan :=
  match g.receive x q tyLEND false with
  | .done g => g
  | .go g _ _ => g.lendHere x q

/-- A RECLAIM at the borrower (R124): answered when its pages are free of use. -/
def Gikan.reclaimHere (g : Gikan) (x : Nat) (q : Req) : Gikan :=
  g.nodeAdmit x q (fun g =>
    if lendLengthBad q then g.refuse x q stLENGTH
    else g.node10 x q (fun g => ((g.admitted x 0 q).reclaim x q).reclaimsForced))

def Gikan.reclaimArrive (g : Gikan) (x : Nat) (q : Req) : Gikan :=
  match g.receive x q tyRECLAIM false with
  | .done g => g
  | .go g _ _ => g.reclaimHere x q

end Sys2Proof.Machine
end

