-- ==== Sys2Proof/Machine/Expand.lean ====
section
/-!
DEFINITION. Compressed tensors and the expanders (chapter 10): AXC2 and AXC1 blocks, what an expander emits, the error log, and the tables
with their loads and slots.
-/

namespace Sys2Proof.Machine

/-! Tables (R217 to R222) -/

/-- The slot that serves a block: of its table number, version and kind, and of the extent's compartment. -/
def Gikan.tableFor (g : Gikan) (table version kind cmpt : Nat) : Option (Nat × TabSlot) :=
  (g.cmp.slots.find? (fun (k, s) => k / 2 == table && s.version == version && s.kind == kind && s.cmpt == cmpt))

/-- Blocks counted on a slot (R220): those that admitted items read and have not expanded. -/
def Gikan.slotRefs (g : Gikan) (k : Nat) : Nat := g.cmp.reading.foldl (fun n r => n + r.2.getD k 0) 0

/-- An admitted item reads the headers of its blocks: each counts on the slot it names (R220). -/
def Gikan.blocksRead (g : Gikan) (w : Work) (refs : Tbl Nat) : Gikan :=
  if refs.isEmpty then g else { g with cmp := { g.cmp with reading := g.cmp.reading ++ [(w, refs)] } }

/-- The blocks of an item have been expanded, or it will read none. -/
def Gikan.blocksDone (g : Gikan) (w : Work) : Gikan :=
  { g with cmp := { g.cmp with reading := g.cmp.reading.filter (fun r => r.1 != w) } }

/-- Add the counts of one list of slots to another. -/
def addRefs (a b : Tbl Nat) : Tbl Nat := b.foldl (fun t (k, n) => t.put k (t.getD k 0 + n)) a

/-! Errors (R206, R221) -/

/-- Record an expander's error: the counter, the first in CMP_ERR_LOG, a contained fault on bit 51. Causes: 1 table miss, 2 mode mismatch,
3 AXC2 header, 4 AXC1 header or index, 5 AXC1 block. -/
def Gikan.cmpError (g : Gikan) (cause : Nat) (s : Site) (a : Nat) : Gikan :=
  let (h, k, r, _) := g.place s a
  let g := g.inc (match cause with
    | 1 => F.CMP_ERRORS_TABLE_MISS
    | 2 => F.CMP_ERRORS_MODE_MISMATCH
    | _ => F.CMP_ERRORS_MALFORMED) 1
  let g := if g.on F.CMP_ERR_LOG_VALID then g.set F.CMP_ERR_LOG_OVERFLOW 1
    else
      let g := ((g.set F.CMP_ERR_LOG_CAUSE cause).set F.CMP_ERR_LOG_STACK h).set F.CMP_ERR_LOG_CHANNEL k
      ((g.set F.CMP_ERR_LOG_GRANULE r).set F.CMP_ERR_LOG_CMPT s.e.cmpt).set F.CMP_ERR_LOG_VALID 1
  g.contained 51 (32 * h + k) (offOf F.CMP_ERR_LOG_CAUSE)

/-- Count the seam of a block that runs past its granule (R208). -/
def Gikan.countSeam (g : Gikan) (s : Site) (a n : Nat) : Gikan :=
  if (a - s.e.base) / 4096 = (a + n - 1 - s.e.base) / 4096 then g else
  let k := g.cmp.seams + 1
  ({ g with cmp := { g.cmp with seams := k } }).set F.CMP_ERRORS_SEAMS_K (min 65535 (k / 1024))

/-! Elements -/

/-- What an expander emits for an element: its value, and, where the block holds an MX format of R187, that code with scale and bits. -/
structure XElem where
  v : FVal
  mx : Option (Nat × Nat × Nat)
  deriving DecidableEq, Repr

/-- MODEs of R202. -/
def axcMode (w : Nat) : Bool := w == 2 || w == 3 || w == 4 || w == 6 || w == 8

/-- Pairs of MODE and KIND of R202. -/
def axcPair (w k : Nat) : Bool :=
  (w == 8 && decide (k ≤ 2)) || (w == 6 && decide (k ≤ 1)) || (w == 4 && decide (k ≤ 2)) || ((w == 3 || w == 2) && k == 2)

/-- Bytes of an AXC2 block. -/
def axcBytes (w : Nat) : Nat := 16 + 32 * w

/-- Whether an AXC2 block is malformed (R206). -/
def axcBad (b : List Byte) : Bool :=
  let w := bits (field b 0 1) 0 4
  let k := bits (field b 0 1) 4 4
  !axcPair w k || bits (field b 1 1) 5 3 != 0 || field b 3 5 != 0 ||
  k != 2 && (bits (field b 1 1) 0 5 != 0 || field b 2 1 != 0)

/-- Whether a block of a MODE and KIND takes its values from a codebook. -/
def axcCodebook (w k : Nat) : Bool := k == 2 && w != 8

/-- The MX code of a block whose elements are of an MX format. -/
def axcMx (w k : Nat) : Option Nat :=
  match w, k with
  | 8, 0 => some 0x06
  | 8, 1 => some 0x07
  | 6, 0 => some 0x08
  | 6, 1 => some 0x09
  | 4, 0 => some 0x0A
  | _, _ => none

/-- The wide output of a value (R203): BF16, overflow to an infinity. -/
def toBf16 (v : FVal) : FVal := FFmt.bf16.decode (FFmt.bf16.encode .ieee v none)

/-- One element of a well-formed AXC2 block (R203), with the entries of its table where it names one. -/
def axcElem (b : List Byte) (entry : Nat) (tab : List Byte) (j : Nat) : XElem :=
  let w := bits (field b 0 1) 0 4
  let k := bits (field b 0 1) 4 4
  let scale := field b (8 + j / 32) 1
  let c := packedElem (b.drop 16) w j
  let scaled := fun (v : FVal) => if scale = 255 then FVal.nan else v.scale ((scale : Int) - 127)
  if axcCodebook w k then
    if entry = 0 then ⟨scaled (FFmt.e4m3.decode (field tab c 1)), none⟩
    else ⟨toBf16 (scaled (FFmt.bf16.decode (field tab (2 * c) 2))), none⟩
  else match axcMx w k with
    | some m => ⟨scaled ((mxFmt m).getD .e4m3 |>.decode c), some (m, scale, c)⟩
    | none => ⟨scaled (FVal.ofInt (sext c w)), none⟩

/-- Expand block `i` of an AXC2 tensor: its 256 elements, or none when they are poisoned; and the slot it counts on. -/
def Gikan.expandAxc2 (g : Gikan) (s : Site) (a mode i : Nat) : Gikan × Option (List XElem) × Tbl Nat :=
  let n := axcBytes mode
  let at_ := a + i * n
  let (g, b, bad) := g.engRead s at_ n
  let g := (g.inc F.CMP_BLOCKS_AXC2 1).countSeam s at_ n
  if bad then (g, none, [])
  else
    let w := bits (field b 0 1) 0 4
    let k := bits (field b 0 1) 4 4
    if axcBad b then (g.cmpError 3 s at_, none, [])
    else if w ≠ mode then (g.cmpError 2 s at_, none, [])
    else if axcCodebook w k then
      match g.tableFor (bits (field b 1 1) 0 5) (field b 2 1) 1 s.e.cmpt with
      | none => (g.cmpError 1 s at_, none, [])
      | some (key, t) => (g, some ((List.range 256).map (axcElem b t.entry t.data)), [(key, 1)])
    else (g, some ((List.range 256).map (axcElem b 0 [])), [])

/-! AXC1 (R211 to R216) -/

/-- The symbols of a prefix-code table of one code length, in order. -/
def symsOf (tab : List Byte) (n len : Nat) : List Nat := (List.range n).filter (fun k => packedElem tab 4 k == len)

/-- The first code of each length under RFC 1951's canonical order: for lengths 1 to 15. -/
def firstCodes (tab : List Byte) (n : Nat) : List Nat :=
  ((List.range 15).foldl (fun (acc : List Nat × Nat × Nat) l =>
    let code := (acc.2.1 + acc.2.2) * 2
    (acc.1 ++ [code], code, (symsOf tab n (l + 1)).length)) ([], 0, 0)).1

/-- A canonical code: for each length from 1, its first code and its symbols. -/
def canon (tab : List Byte) (n : Nat) : List (Nat × List Nat) :=
  (firstCodes tab n).zip ((List.range 15).map (fun l => symsOf tab n (l + 1)))

/-- Decode one symbol: bits from the front, the first bit the most significant; the symbol and the bits left. -/
def decodeSym : List (Nat × List Nat) → Nat → List Bool → Option (Nat × List Bool)
  | [], _, _ => none
  | _, _, [] => none
  | (first, syms) :: rest, code, b :: bs =>
    let c := 2 * code + (if b then 1 else 0)
    if first ≤ c ∧ c < first + syms.length then some (syms.getD (c - first) 0, bs) else decodeSym rest c bs

/-- Decode a number of symbols. -/
def decodeSyms (t : List (Nat × List Nat)) : Nat → List Bool → Option (List Nat × List Bool)
  | 0, bs => some ([], bs)
  | n + 1, bs =>
    match decodeSym t 0 bs with
    | none => none
    | some (x, r) => (decodeSyms t n r).map (fun y => (x :: y.1, y.2))

/-- The value of a 16-bit element. -/
def axc1Val (fp16 : Bool) (b : Nat) : XElem := ⟨if fp16 then FFmt.fp16.decode b else FFmt.bf16.decode b, none⟩

/-- Element bits from sign-and-mantissa field and exponent symbol. -/
def axc1Join (fp16 : Bool) (sm ex : Nat) : Nat :=
  if fp16 then sm / 2 ^ 10 * 2 ^ 15 + ex % 32 * 2 ^ 10 + sm % 2 ^ 10 else sm / 2 ^ 7 * 2 ^ 15 + ex % 256 * 2 ^ 7 + sm % 2 ^ 7

/-- The elements of a coded block, given its table; none when it is malformed. -/
def axc1Coded (fp16 : Bool) (tab b : List Byte) : Option (List XElem) :=
  let s0 := field b 0 2
  let n0 := ceilDiv s0 8
  let w := if fp16 then 11 else 8
  let str := (List.range s0).map (fun i => (field b (4 + i / 8) 1).testBit (i % 8))
  match decodeSyms (canon tab (if fp16 then 32 else 256)) 512 str with
  | some (syms, []) =>
    some ((List.range 512).map (fun j => axc1Val fp16 (axc1Join fp16 (packedElem (b.drop (4 + n0)) w j) (syms.getD j 0))))
  | _ => none

/-- Expand block `i` of an AXC1 tensor. -/
def Gikan.expandAxc1 (g : Gikan) (s : Site) (a : Nat) (fp16 : Bool) (count index data i : Nat) : Gikan × Option (List XElem) × Tbl Nat :=
  let ia := a + index + 8 * i
  -- a block wholly past ELEM_COUNT is no structure: `Gikan.expand` counts the read (R215)
  if count ≤ 512 * i then (g, none, []) else
  if !s.e.covers ia 8 then (g.cmpError 4 s a, none, []) else
  let (g, ib, bad) := g.engRead s ia 8
  if bad then (g, none, [])
  else
    let e := leNat ib
    let off := bits e 0 40
    let len := bits e 40 11
    let raw := bit e 51
    let ba := a + data + off
    if bits e 52 12 != 0 || (raw && len != 1024) || (!raw && (len == 0 || decide (1023 < len))) || !s.e.covers ba len then (g.cmpError 4 s ia, none, [])
    else
      let (g, b, bad) := g.engRead s ba len
      let g := (g.inc F.CMP_BLOCKS_AXC1 1).countSeam s ba len
      if bad then (g, none, [])
      else if raw then
        (g.inc F.CMP_AXC1_RAW 1, some ((List.range 512).map (fun j => axc1Val fp16 (field b (2 * j) 2))), [])
      else
        let s0 := field b 0 2
        let w := if fp16 then 11 else 8
        let g := if 11 < ceilDiv s0 128 then g.inc F.CMP_AXC1_SLOW 1 else g
        if s0 == 0 || bits (field b 2 1) 5 3 != 0 || len != 4 + ceilDiv s0 8 + 64 * w then (g.cmpError 5 s ba, none, [])
        else match g.tableFor (bits (field b 2 1) 0 5) (field b 3 1) 2 s.e.cmpt with
          | none => (g.cmpError 1 s ba, none, [])
          | some (key, t) =>
            match axc1Coded fp16 t.data b with
            | none => (g.cmpError 5 s ba, none, [(key, 1)])
            | some es => (g, some es, [(key, 1)])

/-! Reading a tensor -/

/-- Open the tensor at an address of a compressed extent: its first header is read once for a request or job (R204). -/
def Gikan.openTensor (g : Gikan) (s : Site) (a : Nat) : Gikan × Tensor :=
  if s.e.comp = 2 then
    if !s.e.covers a 64 then (g.cmpError 4 s a, .bad) else
    let (g, b, bad) := g.engRead s a 64
    if bad then (g, .bad)
    else
      let count := field b 8 8
      if field b 0 4 != 0x31435841 || decide (1 < field b 4 1) || field b 5 3 != 0 || count == 0 || decide (2 ^ 40 < count) ||
          field b 16 4 != ceilDiv count 512 || field b 20 4 != 0 || field b 24 8 % 8 != 0 then (g.cmpError 4 s a, .bad)
      else (g, .axc1 a (field b 4 1 == 1) count (field b 24 8) (field b 32 8))
  else
    let (g, b, bad) := g.engRead s a 8
    let w := bits (field b 0 1) 0 4
    if bad then (g, .bad)
    else if !axcMode w then (g.cmpError 3 s a, .bad)
    else (g, .axc2 a w)

/-- Elements in a block. -/
def Tensor.per : Tensor → Nat
  | .axc2 _ _ => 256
  | _ => 512

/-- Expand block `i` of a tensor. -/
def Gikan.expandBlock (g : Gikan) (s : Site) (t : Tensor) (i : Nat) : Gikan × Option (List XElem) × Tbl Nat :=
  match t with
  | .axc2 a m => g.expandAxc2 s a m i
  | .axc1 a f c x d => g.expandAxc1 s a f c x d i
  | .bad => (g, none, [])

/-- Expand the blocks that elements `first` to `first + n - 1` lie in: each block once. -/
def Gikan.expandBlocks (g : Gikan) (s : Site) (t : Tensor) : List Nat → Gikan × Tbl (Option (List XElem)) × Tbl Nat
  | [] => (g, [], [])
  | i :: is =>
    let (g, es, r) := g.expandBlock s t i
    let (g, m, rs) := g.expandBlocks s t is
    (g, m.put i es, addRefs r rs)

/-- Whether an element lies past an AXC1 tensor's count (R215). -/
def Tensor.past (t : Tensor) (e : Nat) : Bool := match t with | .axc1 _ _ c _ _ => decide (c ≤ e) | _ => false

/-- Elements `first` to `first + n - 1` of a tensor, each none when it is poisoned, and the slots counted. -/
def Gikan.expand (g : Gikan) (s : Site) (t : Tensor) (first n : Nat) : Gikan × List (Option XElem) × Tbl Nat :=
  if n = 0 then (g, [], []) else
  let p := t.per
  let blks := (List.range ((first + n - 1) / p - first / p + 1)).map (fun k => first / p + k)
  let (g, m, r) := g.expandBlocks s t blks
  let g := match t with
    | .axc1 a _ c _ _ => if c < first + n then g.cmpError 4 s a else g
    | _ => g
  let es := (List.range n).map (fun k =>
    let e := first + k
    if t.past e then none else
    match m.getD (e / p) none with
    | some bs => bs[e % p]?
    | none => none)
  (g, es, r)

/-- Whether the blocks of elements `first` to `first + n - 1` lie in the extent (R207), as the stored header of block 0 gives their size, if
it is not poisoned (R99) and names a MODE; an AXC1 tensor's header must. -/
def Gikan.tensorFits (g : Gikan) (s : Site) (a first n : Nat) : Bool :=
  if s.e.comp = 2 then s.e.covers a 64
  else if !s.e.covers a 8 then false
  else
    let (_, b, bad) := g.engRead s a 8
    let w := bits (field b 0 1) 0 4
    if !bad && axcMode w && decide (0 < n) then s.e.covers a (((first + n - 1) / 256 + 1) * axcBytes w) else true

/-! Waits (R210) -/

/-- A work item has expanded data: whether it waited for it, and for which of causes 2 to 4, is not stated and free; cause 2 is of AXC1 alone,
and cause 3 needs a block that took longer than 11 cycles (`slow`). Cause 1 is counted where the item stalls (R111). -/
def Gikan.expandWait (g : Gikan) (axc1 slow : Bool) : Gikan × Bool :=
  let (d, g) := g.next
  match Config.waitCause d % 4 with
  | 0 => (g, false)
  | k =>
    let i := if k = 1 && axc1 then 0 else if k = 2 && slow then 1 else 2
    ((g.inc (F.CMP_STALL_EVENTS i) 1).inc (F.CMP_STALL_CYCLES_K i) (Config.stallK d), true)

/-! Loading a table (R218, R219) -/

/-- The image length that R218 gives. -/
def tabBytes (kind entry : Nat) : Nat := if kind = 1 then (if entry = 0 then 32 else 48) else (if entry = 0 then 144 else 32)

/-- The sum of 2^(15 − length) over the nonzero code lengths of a prefix-code table. -/
def kraft (tab : List Byte) (n : Nat) : Nat :=
  (List.range n).foldl (fun k i => let l := packedElem tab 4 i; if l = 0 then k else k + 2 ^ (15 - l)) 0

/-- The site of an image: an extent homed here, of a compartment, with COMP 0, that holds `n` bytes from an address. -/
def Gikan.imageSite (g : Gikan) (a n cmpt : Nat) : Option Site :=
  match g.siteAt a with
  | some s => if s.e.covers (g.realAddr a) n && s.e.cmpt == cmpt && s.e.comp == 0 then some s else none
  | none => none

/-- A refused load. -/
def Gikan.tableRefused (g : Gikan) (cause : Nat) : Gikan :=
  ((g.set F.CMP_TABLE_STATUS_REFUSED 1).set F.CMP_TABLE_STATUS_CAUSE cause).inc F.CMP_TABLE_STATUS_REFUSALS 1

/-- A slot that a load may take: an EMPTY one of its table. -/
def Gikan.emptySlot (g : Gikan) (table : Nat) : Option Nat :=
  [0, 1].find? (fun j => (g.cmp.slots.get? (2 * table + j)).isNone)

/-- A load takes a slot when one is EMPTY; it waits with PENDING otherwise (R219, R220). -/
def Gikan.takeSlot (g : Gikan) (l : TabLoad) : Gikan :=
  match g.emptySlot l.table with
  | some j =>
    { ((g.set F.CMP_TABLE_STATUS_BUSY 1).set F.CMP_TABLE_STATUS_PENDING 0).set F.CMP_TABLE_STATUS_SLOT j with
      cmp := { g.cmp with load := some { l with slot := some j } } }
  | none =>
    let g1 := (g.set F.CMP_TABLE_STATUS_BUSY 0).set F.CMP_TABLE_STATUS_PENDING 1
    let g2 := if g.on F.CMP_TABLE_STATUS_PENDING then g1 else g1.inc F.CMP_TABLE_STATUS_WAITS 1
    { g2 with cmp := { g2.cmp with load := some { l with slot := none } } }

/-- Where the header of an image may be read: an extent homed here. -/
def Gikan.headerSite (g : Gikan) (a n : Nat) : Option Site :=
  match g.siteAt a with
  | some s => if s.e.covers (g.realAddr a) n then some s else none
  | none => none

/-- Whether a slot of a table number holds a version. -/
def Gikan.versionHeld (g : Gikan) (table version : Nat) : Bool := g.cmp.slots.any (fun (i, t) => i / 2 == table && t.version == version)

/-- The checks of R219 on an image, in the order of their causes, and the load that passes them. The fields of a header that is not in an extent
here, or is poisoned, are not there to be checked: causes 3, 5 and 6 remain. -/
def Gikan.tableLoad (g : Gikan) (a table version cmpt : Nat) : Gikan :=
  match g.headerSite a 16 with
  | none => g.tableRefused 3
  | some s =>
    let ra := g.realAddr a
    let (g, h, bad) := g.engRead s ra 16
    let kind := field h 2 1
    let entry := field h 3 1
    let n := field h 4 2
    if bad then g.tableRefused (if (g.imageSite a 16 cmpt).isNone then 3 else if g.versionHeld table version then 5 else 6)
    else if field h 0 2 != 1 || !(kind == 1 || kind == 2) || decide (1 < entry) || field h 6 10 != 0 then g.tableRefused 1
    else if n != tabBytes kind entry then g.tableRefused 2
    else if (g.imageSite a n cmpt).isNone then g.tableRefused 3
    else
      let (g, b, bad) := g.engRead s ra n
      let tab := b.drop 16
      let k := kraft tab (if entry = 0 then 256 else 32)
      if !bad && kind == 2 && (k == 0 || decide (2 ^ 15 < k)) then g.tableRefused 4
      else if g.versionHeld table version then g.tableRefused 5
      else if bad then g.tableRefused 6
      else g.takeSlot ⟨table, version, cmpt, kind, entry, tab, none⟩

/-- The image is read and checked; while it waits for lines or granules of it the load stays BUSY (R111, R150). -/
def Gikan.tableRead (g : Gikan) (a table version cmpt : Nat) : Gikan :=
  let done := g.tableLoad a table version cmpt
  let h := g.cohSettle done
  if g.stalls done then { h.set F.CMP_TABLE_STATUS_BUSY 1 with cmp := { h.cmp with wait := some (a, table, version, cmpt) } } else h

/-- A write of CMP_TABLE_LOAD; a load that names a compartment being scrubbed waits with BUSY set (R325). -/
def Gikan.wrTableLoad (g : Gikan) (w : RegW) : Gikan :=
  if !wrOne w F.CMP_TABLE_LOAD_GO then g else
  let v := fun (f : Fld) => let (x, m) := wrField w f; x &&& m
  if g.on F.CMP_TABLE_STATUS_BUSY || g.on F.CMP_TABLE_STATUS_PENDING then g.tableRefused 7
  else
    let t := v F.CMP_TABLE_LOAD_TABLE
    let ver := v F.CMP_TABLE_LOAD_VERSION
    let c := v F.CMP_TABLE_LOAD_CMPT
    let h := (g.set F.CMP_TABLE_STATUS_TABLE t).set F.CMP_TABLE_STATUS_VERSION ver
    if h.scrubbing c then { h.set F.CMP_TABLE_STATUS_BUSY 1 with cmp := { h.cmp with wait := some (h.get F.CMP_TABLE_SRC_ADDR, t, ver, c) } }
    else h.tableRead (h.get F.CMP_TABLE_SRC_ADDR) t ver c

/-- The load that a scrub held back, or that waits for its image, goes on. -/
def Gikan.tableWaited (g : Gikan) : Gikan :=
  match g.cmp.wait with
  | some (a, t, v, c) =>
    if g.scrubbing c then g else ({ g.set F.CMP_TABLE_STATUS_BUSY 0 with cmp := { g.cmp with wait := none } }).tableRead a t v c
  | none => g

/-- A pending load takes its slot. -/
def Gikan.tableSlotTake (g : Gikan) : Gikan :=
  match g.cmp.load with
  | some l => if l.slot.isNone && (g.emptySlot l.table).isSome then g.takeSlot l else g
  | none => g

/-- A load ends: its slot CURRENT, the other RETIRING, DONE. One that still waits for its image reads it. -/
def Gikan.tableLoadEnd (g : Gikan) : Gikan :=
  match g.cmp.load with
  | none => g.tableWaited
  | some l =>
    match l.slot with
    | none => g
    | some j =>
      let key := 2 * l.table + j
      let slots := (g.cmp.slots.upd (2 * l.table + (1 - j)) (fun t => { t with retiring := true })).put key
        ⟨false, l.kind, l.entry, l.cmpt, l.version, l.data⟩
      ({ (g.set F.CMP_TABLE_STATUS_BUSY 0) with cmp := { g.cmp with slots := slots, load := none } }).set F.CMP_TABLE_STATUS_DONE 1

/-- A RETIRING slot with nothing counted on it becomes EMPTY (R220). -/
def Gikan.slotEmpty (g : Gikan) (table slot : Nat) : Gikan :=
  let k := 2 * (table % 32) + slot % 2
  match g.cmp.slots.get? k with
  | some t => if t.retiring && g.slotRefs k == 0 then { g with cmp := { g.cmp with slots := g.cmp.slots.del k } } else g
  | none => g

/-- An uncorrectable error in table memory (R221): which expander found it is not stated. -/
def Gikan.tableEcc (g : Gikan) (table slot : Nat) : Gikan :=
  let k := 2 * (table % 32) + slot % 2
  ({ g with cmp := { g.cmp with slots := g.cmp.slots.del k } }).faultOpen .contained 51 384 (offOf F.CMP_SLOT_STATE_STATE)

/-- CMP_SLOT_STATE of the slot shown. -/
def Gikan.slotWord (g : Gikan) : Nat :=
  let k := 2 * g.get F.CMP_SLOT_INDEX_TABLE + g.get F.CMP_SLOT_INDEX_SLOT
  match g.cmp.slots.get? k with
  | some t => (if t.retiring then 2 else 1) + t.kind * 2 ^ 2 + t.entry * 2 ^ 4 + t.cmpt * 2 ^ 8 + t.version * 2 ^ 16 + min (g.slotRefs k) (2 ^ 32 - 1) * 2 ^ 32
  | none => 0

/-- The counters that CMP_CTRL.CLR_CNT clears. -/
def cmpCounters : List Fld :=
  [F.CMP_TABLE_STATUS_WAITS, F.CMP_TABLE_STATUS_REFUSALS, F.CMP_BLOCKS_AXC2, F.CMP_BLOCKS_AXC1, F.CMP_AXC1_RAW, F.CMP_AXC1_SLOW,
   F.CMP_ERRORS_TABLE_MISS, F.CMP_ERRORS_MODE_MISMATCH, F.CMP_ERRORS_MALFORMED, F.CMP_ERRORS_SEAMS_K] ++
  (List.range 3).flatMap (fun i => [F.CMP_STALL_EVENTS i, F.CMP_STALL_CYCLES_K i])

def Gikan.wrCmpCtrl (g : Gikan) (w : RegW) : Gikan :=
  if wrOne w F.CMP_CTRL_CLR_CNT then { g.clear cmpCounters with cmp := { g.cmp with seams := 0 } } else g

end Sys2Proof.Machine
end

