-- ==== Sys2Proof/Machine/Commands.lean ====
section
/-!
DEFINITION. What every command shares (R255 to R258, R268, R273 to R276): its header, its state, the pages its addresses map through, the
reads and writes it makes at this Gikan, and its end.
-/

namespace Sys2Proof.Machine

/-! Keyways and their commands -/

def Gikan.kway (g : Gikan) (c : Nat) : Keyway := g.sub.kws.getD c Keyway.empty

def Gikan.setKway (g : Gikan) (c : Nat) (k : Keyway) : Gikan :=
  { g with sub := { g.sub with kws := g.sub.kws.setD c Keyway.empty k } }

/-- An accepted command that is not COMPLETE, or whose record waits. -/
def Gikan.cmd? (g : Gikan) (kw idx : Nat) : Option Cmd := (g.kway kw).cmds.find? (fun c => c.idx == idx)

/-- Change a command. -/
def Gikan.updCmd (g : Gikan) (kw idx : Nat) (f : Cmd → Cmd) : Gikan :=
  let k := g.kway kw
  g.setKway kw { k with cmds := k.cmds.map (fun c => if c.idx == idx then f c else c) }

/-! The header (R256) -/

def Cmd.op (c : Cmd) : Nat := field c.bytes 0 1
def Cmd.after (c : Cmd) : Bool := bit (field c.bytes 1 1) 0
def Cmd.notify (c : Cmd) : Bool := bit (field c.bytes 1 1) 1
def Cmd.va (c : Cmd) : Bool := bit (field c.bytes 1 1) 2
def Cmd.quiet (c : Cmd) : Bool := bit (field c.bytes 1 1) 3
def Cmd.cq (c : Cmd) : Nat := field c.bytes 2 2
def Cmd.length (c : Cmd) : Nat := field c.bytes 4 2
def Cmd.asid (c : Cmd) : Nat := field c.bytes 6 2
def Cmd.user (c : Cmd) : Nat := field c.bytes 8 8

/-- The body, which follows at byte 32; a field of it. -/
def Cmd.body (c : Cmd) : List Byte := c.bytes.drop 32
def Cmd.f (c : Cmd) (off n : Nat) : Nat := field c.bytes (32 + off) n

abbrev opMOVE : Nat := 1
abbrev opFILL : Nat := 2
abbrev opSETUP : Nat := 3
abbrev opGATHER : Nat := 4
abbrev opFILTER : Nat := 5
abbrev opSCORE : Nat := 6
abbrev opRUN : Nat := 7
abbrev opPUBLISH : Nat := 8
abbrev opSCHEDULE : Nat := 9
abbrev opLEND : Nat := 10
abbrev opFENCE : Nat := 11

/-! Its addresses -/

/-- Where a byte of a command lies: at a fabric address, or in a host page behind a port. -/
inductive CLoc where
  | fab (a : Nat)
  | host (s : Side) (a : Nat)
  deriving DecidableEq, Repr

/-- The page of a translated descriptor that holds an address. -/
def Cmd.pageFor (c : Cmd) (va : Nat) : Option XPage := c.pages.find? (fun p => decide (p.va ≤ va ∧ va < p.va + p.size))

/-- Where an address of the command lies. -/
def Cmd.loc (c : Cmd) (va : Nat) : CLoc :=
  if !c.va then .fab va else
  match c.pageFor va with
  | none => .fab va
  | some p => match p.host with
    | none => .fab (p.addr + (va - p.va))
    | some s => .host s (p.addr + (va - p.va))

/-- A span cut at multiples of 32 MiB, as pages may be. -/
def cutSpan : Nat → Nat → Nat → List (Nat × Nat)
  | 0, _, _ => []
  | f + 1, a, n =>
    if n = 0 then [] else
    let k := min n (pageBytes - a % pageBytes)
    (a, k) :: cutSpan f (a + k) (n - k)

/-- The pieces of a span of the command: each lies in one page. -/
def Cmd.pieces (c : Cmd) (va n : Nat) : List (Nat × Nat) :=
  if c.va then cutSpan (n / pageBytes + 2) va n else if n = 0 then [] else [(va, n)]

/-- Bytes of a span from a fabric address up to where the extent it lies in ends or, outside every extent, the next one begins. -/
def Gikan.untilEdge (g : Gikan) (a n : Nat) : Nat :=
  let ra := g.realAddr a
  match g.map.cur.extentAt ra with
  | some (_, e) => min n (e.base + e.len - ra)
  | none => g.map.cur.ext.foldl (fun k x => if x.2.valid && decide (ra < x.2.base) then min k (x.2.base - ra) else k) n

/-- A span cut where extents begin and end: each address takes the route that fits it (R258). -/
def Gikan.cutEdges (g : Gikan) : Nat → Nat → Nat → List (Nat × Nat)
  | 0, _, _ => []
  | f + 1, a, n =>
    if n = 0 then [] else
    let k := max 1 (g.untilEdge a n)
    (a, k) :: g.cutEdges f (a + k) (n - k)

/-- The pieces of a span of the command, each in one page and in one extent. -/
def Gikan.cutPieces (g : Gikan) (c : Cmd) (va n : Nat) : List (Nat × Nat) :=
  (c.pieces va n).flatMap (fun p => match c.loc p.1 with
    | .host _ _ => [p]
    | .fab a => (g.cutEdges (2 * g.map.cur.ext.length + 2) a p.2).map (fun q => (p.1 + (q.1 - a), q.2)))

/-- The key of a host byte. -/
def hostKey (s : Side) (a : Nat) : Nat := (match s with | .a => 0 | .b => 2 ^ 64) + a

/-- The 4 KiB granules of host pages that a span of the command touches: place of the page × 8192 + granule (R276). -/
def Cmd.hostGranules (c : Cmd) (va n : Nat) : List Nat :=
  (c.pieces va n).flatMap (fun (a, k) =>
    match findIdx (fun p : XPage => decide (p.va ≤ a ∧ a < p.va + p.size)) c.pages with
    | some (i, p) =>
      if p.host.isNone then [] else
      (List.range ((a - p.va + k - 1) / 4096 - (a - p.va) / 4096 + 1)).map (fun j => i * 8192 + (a - p.va) / 4096 + j)
    | none => [])

/-! Accesses at this Gikan (R258): the caller has checked them -/

/-- Read one piece: the state, the bytes, and whether poison was met. -/
def Gikan.locRead (g : Gikan) (l : CLoc) (n : Nat) : Gikan × List Byte × Bool :=
  match l with
  | .host s a => (g, memGetN g.sub.hostMem (hostKey s a) n, false)
  | .fab a =>
    match g.siteAt a with
    | some s => g.engRead s (g.realAddr a) n
    | none => (g, zeros n, true)

/-- Write one piece. -/
def Gikan.locWrite (g : Gikan) (l : CLoc) (data : List Byte) : Gikan :=
  match l with
  | .host s a => { g with sub := { g.sub with hostMem := memPutN g.sub.hostMem (hostKey s a) data } }
  | .fab a =>
    match g.siteAt a with
    | some s => g.engWrite s (g.realAddr a) data
    | none => g

/-- Leave a piece poisoned (R99); host memory holds no poison and takes zeros. -/
def Gikan.locPoison (g : Gikan) (l : CLoc) (n : Nat) : Gikan :=
  match l with
  | .host s a => { g with sub := { g.sub with hostMem := memPutN g.sub.hostMem (hostKey s a) (zeros n) } }
  | .fab a =>
    match g.siteAt a with
    | some s => (g.cohTouch s (g.realAddr a) n true).storePoison s (g.realAddr a) n
    | none => g

/-- Read a span of a command. -/
def Gikan.readPieces (g : Gikan) (c : Cmd) : List (Nat × Nat) → Gikan × List Byte × Bool
  | [] => (g, [], false)
  | (a, n) :: t =>
    let (g, b, p) := g.locRead (c.loc a) n
    let (g, bs, ps) := g.readPieces c t
    (g, b ++ bs, p || ps)

def Gikan.cmdRead (g : Gikan) (c : Cmd) (va n : Nat) : Gikan × List Byte × Bool := g.readPieces c (g.cutPieces c va n)

/-- Mark the granules of host pages that a write of the command touches. -/
def Gikan.markDirty (g : Gikan) (kw : Nat) (c : Cmd) (va n : Nat) : Gikan :=
  let gs := c.hostGranules va n
  if gs.isEmpty then g else g.updCmd kw c.idx (fun d => { d with dirty := gs.foldl insNat d.dirty })

/-- Write a span of a command. -/
def Gikan.cmdWrite (g : Gikan) (kw : Nat) (c : Cmd) (va : Nat) (data : List Byte) : Gikan :=
  let g := g.markDirty kw c va data.length
  (g.cutPieces c va data.length).foldl (fun h (a, n) => h.locWrite (c.loc a) (slice data (a - va) n)) g

/-- Poison a span of a command. -/
def Gikan.cmdPoison (g : Gikan) (kw : Nat) (c : Cmd) (va n : Nat) : Gikan :=
  let g := g.markDirty kw c va n
  (g.cutPieces c va n).foldl (fun h (a, n) => h.locPoison (c.loc a) n) g

/-! Checks of addresses at this Gikan -/

/-- What a piece at this Gikan comes to: the code that R10 (check 7 skipped) and the compartment match give. -/
def Gikan.localCode (g : Gikan) (cmpt a n : Nat) (write : Bool) : Nat :=
  match g.siteAt a with
  | none => stNOTPRES
  | some s =>
    let ra := g.realAddr a
    if (g.map.revoked.get? s.entry).isSome then stREVOKED
    else if s.e.cmpt != cmpt then stWARD
    else if !s.e.covers ra n then stLENGTH
    else if s.e.seated && (g.get F.MAP_QUIESCE_CMPT_MASK).testBit s.e.cmpt then stBUSY
    else if write && g.onLoanHere ra n then stBUSY
    else if write && s.e.pub then stUNSUP
    else stOK

/-- Whether an address of the command is reached at this Gikan: a host page, or an extent homed here. -/
def Gikan.isLocal (g : Gikan) (c : Cmd) (va : Nat) : Bool :=
  match c.loc va with
  | .host _ _ => true
  | .fab a => (g.siteAt a).isSome

/-- The extent of an address of the command, at this Gikan. -/
def Gikan.cmdSite (g : Gikan) (c : Cmd) (va : Nat) : Option Site :=
  match c.loc va with
  | .host _ _ => none
  | .fab a => g.siteAt a

/-- NOT_PRESENT of R195: each piece of a span starts in an extent homed here of the command's compartment, or in a host page; an output
lies in no compressed extent and no publish region. -/
def Gikan.spanAbsent (g : Gikan) (kw : Nat) (c : Cmd) (va n : Nat) (out : Bool) : Bool :=
  (c.pieces va (max 1 n)).any (fun (a, _) =>
    match c.loc a with
    | .host _ _ => false
    | .fab x => match g.siteAt x with
      | none => true
      | some s => s.e.cmpt != kw || (out && (s.e.comp != 0 || s.e.pub)))

/-- LENGTH_RANGE of R195: a piece passes the end of its extent. -/
def Gikan.spanLong (g : Gikan) (c : Cmd) (va n : Nat) : Bool :=
  (c.pieces va n).any (fun (a, k) =>
    match c.loc a with
    | .host _ _ => false
    | .fab x => match g.siteAt x with
      | none => true
      | some s => !s.e.covers (g.realAddr x) k)

/-- What admission of a span's accesses comes to when the job starts (R196, R258): the first code other than OK of a piece. -/
def Gikan.spanCode (g : Gikan) (kw : Nat) (c : Cmd) (va n : Nat) (write : Bool) : Nat :=
  (c.pieces va n).foldl (fun st (a, k) =>
    if st ≠ stOK then st else
    match c.loc a with
    | .host _ _ => stOK
    | .fab x => g.localCode kw x k write) stOK

/-! The end of a command -/

def View.command (v : View) : View := { v with commands := v.commands + 1 }

/-- A command has nothing more to do: its code. Its record is due (COMMAND_COMPLETE). -/
def Gikan.cmdDone (g : Gikan) (kw idx status : Nat) : Gikan :=
  g.updCmd kw idx (fun c => { c with st := .done, status := status })

/-- The same, with DETAIL. -/
def Gikan.cmdEnd (g : Gikan) (kw idx status detail : Nat) : Gikan :=
  g.updCmd kw idx (fun c => { c with st := .done, status := status, detail := detail })

/-- Whether every command accepted earlier in the Keyway is COMPLETE (R256). -/
def Gikan.earlierDone (g : Gikan) (kw idx : Nat) : Bool :=
  ((g.kway kw).cmds.takeWhile (fun c => c.idx != idx)).isEmpty

/-- The command of an opcode that a row starts: READY, and past its AFTER condition. -/
def Gikan.cmdReady (g : Gikan) (k : CmdRef) (op : Nat) : Option Cmd :=
  match g.cmd? k.kw.val k.idx with
  | some c => if c.st = .ready && c.op == op && (!c.after || c.released) && !g.hasp then some c else none
  | none => none

/-- Its items are dealt and queued. -/
def Gikan.cmdRun (g : Gikan) (kw idx left : Nat) : Gikan := g.updCmd kw idx (fun c => { c with st := .running, left := left })

/-- Engines of a class that are not fenced, in order; with all of them fenced, all (R177, R198). -/
def Gikan.engines (g : Gikan) (cls : UClass) : List Nat :=
  let es := (List.range 32).filter (fun n => !g.fenced ⟨cls, n⟩)
  if es.isEmpty then List.range 32 else es

end Sys2Proof.Machine
end

