-- ==== Sys2Proof/Machine/Gfs.lean ====
section
/-!
DEFINITION. Gather, filter and score (chapter 9): what each engine kind computes, the items a request or job is divided into, its admission,
and its end.
-/

namespace Sys2Proof.Machine

/-- How an engine reads: the state, an address and a length to the state, the bytes, and whether a unit was poisoned. -/
abbrev Reader := Gikan → Nat → Nat → Gikan × List Byte × Bool

/-- The engine path to an extent here. -/
def siteReader (s : Site) : Reader := fun g a n => g.engRead s a n

/-- The engine path through a command's pages. -/
def cmdReader (c : Cmd) : Reader := fun g a n => g.cmdRead c a n

/-! Gather (R178 to R183) -/

/-- A gather: mode, row bytes, indices an output row, the table's address, the indices (none: padding), and the tensor of a compressed
table. -/
structure GatherP where
  mode : Nat
  rowBytes : Nat
  group : Nat
  table : Nat
  idx : List (Option Nat)
  tensor : Option (Site × Tensor)
  deriving DecidableEq, Repr

def gPool (mode : Nat) : Nat := bits mode 0 3
def gFmt (mode : Nat) : Nat := bits mode 3 4

/-- Element size of a ROW_FORMAT in bytes. -/
def gElem (fmt : Nat) : Nat :=
  match fmt with
  | 1 => 4
  | 2 => 2
  | 3 => 2
  | 4 => 4
  | _ => 1

/-- The code of R157 that a ROW_FORMAT names; none for RAW and INT32. -/
def gCode (fmt : Nat) : Option Nat :=
  match fmt with
  | 1 => some 0x01
  | 2 => some 0x02
  | 3 => some 0x03
  | 5 => some 0x04
  | 6 => some 0x05
  | _ => none

/-- A mode that R178 does not accept. -/
def gModeBad (mode : Nat) : Bool :=
  decide (4 < gPool mode) || decide (6 < gFmt mode) || bit mode 7 || (gFmt mode == 0 && gPool mode != 0) || (gFmt mode == 4 && gPool mode == 2)

/-- The indices in an index list (R179). -/
def gIndices (bs : List Byte) (w n : Nat) : List (Option Nat) :=
  (List.range n).map (fun i => let v := field bs (w * i) w; if v = 256 ^ w - 1 then none else some v)

/-- One value as an element of a ROW_FORMAT, through FP32 (R182). What an INT32 element holds for a value outside INT32 is not stated. -/
def gConvert (d fmt j : Nat) (v : FVal) : List Byte :=
  let x := f32 (toF32 v)
  match gCode fmt with
  | some c => fpBytes c [x] (fun _ => none)
  | none =>
    match x with
    | .fin neg m e =>
      let i : Int := if neg then -(nearestMag m e : Int) else nearestMag m e
      if -(2 : Int) ^ 31 ≤ i ∧ i < 2 ^ 31 then leBytes 4 (toBits i 32) else leBytes 4 (Config.openValue (d + j))
    | _ => leBytes 4 (Config.openValue (d + j))

/-- The bytes of a source row, and whether it is poisoned; slots counted. -/
def Gikan.gatherSource (g : Gikan) (rd : Reader) (p : GatherP) (i : Nat) : Gikan × List Byte × Bool × Tbl Nat :=
  match p.tensor with
  | none =>
    let (g, b, bad) := rd g (p.table + i * p.rowBytes) p.rowBytes
    (g, b, bad, [])
  | some (s, t) =>
    let n := p.rowBytes / gElem (gFmt p.mode)
    let (g, es, r) := g.expand s t (i * n) n
    if es.any (fun e => e.isNone) then (g, zeros p.rowBytes, true, r)
    else
      let (d, g) := g.next
      (g, es.zipIdx.flatMap (fun e => match e.1 with | some x => gConvert d (gFmt p.mode) e.2 x.v | none => []), false, r)

/-- Read each distinct row of a group once (R181): the rows by index. -/
def Gikan.gatherRows (g : Gikan) (rd : Reader) (p : GatherP) : List Nat → Gikan × Tbl (List Byte × Bool) × Tbl Nat
  | [] => (g, [], [])
  | i :: is =>
    let (g, b, bad, r) := g.gatherSource rd p i
    let (g, m, rs) := g.gatherRows rd p is
    (g, m.put i (b, bad), addRefs r rs)

/-- Pool one element position over rows in index order (R180). -/
def gPoolF (pool : Nat) (vs : List FVal) : FVal :=
  match vs with
  | [] => .fin false 0 0
  | v :: rest =>
    let step := fun (a b : FVal) =>
      match pool with
      | 3 => a.max b
      | 4 => a.min b
      | _ => f32 (toF32 (a.add b))
    let s := rest.foldl step v
    if pool = 2 then f32 (toF32 (s.div (FVal.ofInt (vs.length : Int)))) else s

def gPoolI (pool : Nat) (vs : List Int) : Int :=
  match vs with
  | [] => 0
  | v :: rest => rest.foldl (fun a b =>
    match pool with
    | 3 => max a b
    | 4 => min a b
    | _ => sext (toBits (a + b) 32) 32) v

/-- Pool rows into an output row. -/
def gPoolRows (mode n : Nat) (rows : List (List Byte)) : List Byte :=
  let fmt := gFmt mode
  let pool := gPool mode
  let w := gElem fmt
  if pool = 0 then rows.headD (zeros n)
  else (List.range (n / w)).flatMap (fun j =>
    match gCode fmt with
    | some c =>
      fpBytes c [gPoolF pool (rows.map (fun r => ((fpElems c (slice r (w * j) w) 1).headD .nan)))] (fun _ => none)
    | none => leBytes 4 (toBits (gPoolI pool (rows.map (fun r => sext (field r (4 * j) 4) 32))) 32))

/-- One output row: its bytes, and whether it is poisoned; `spoilt` poisons it whatever its rows hold. -/
def Gikan.gatherRow (g : Gikan) (rd : Reader) (p : GatherP) (idx : List (Option Nat)) (spoilt : Bool) : Gikan × List Byte × Bool × Tbl Nat :=
  let occ := idx.filterMap (fun x => x)
  let (g, m, r) := g.gatherRows rd p occ.dedup
  let g := (g.inc F.GFS_GATHER_ROWS occ.dedup.length).inc F.GFS_GATHER_REUSED (occ.length - occ.dedup.length)
  let g := (g.inc F.GFS_GATHER_OUT_OUT_ROWS 1).inc F.GFS_GATHER_OUT_PADDING (idx.length - occ.length)
  let rows := occ.map (fun i => m.getD i ([], true))
  if spoilt || rows.any (fun x => x.2) then (g.inc F.GFS_POISON_ROWS 1, zeros p.rowBytes, true, r)
  else if occ.isEmpty then (g, zeros p.rowBytes, false, r)
  else (g, gPoolRows p.mode p.rowBytes (rows.map (fun x => x.1)), false, r)

/-- Cost of a gather item. -/
def GatherP.cost (p : GatherP) : Nat := p.group * ceilDiv p.rowBytes 1024 + 8

/-! Filter (R184 to R186) -/

structure Term where
  off : Nat
  type : Nat
  op : Nat
  rsv : Nat
  value : Nat
  deriving DecidableEq, Repr

def termAt (bs : List Byte) (i : Nat) : Term :=
  ⟨field bs (16 * i) 2, field bs (16 * i + 2) 1, field bs (16 * i + 3) 1, field bs (16 * i + 4) 4, field bs (16 * i + 8) 8⟩

/-- Bytes of a field TYPE. -/
def termBytes (t : Nat) : Nat :=
  match t with
  | 0x01 => 1
  | 0x02 => 2
  | 0x03 => 4
  | 0x04 => 8
  | 0x05 => 1
  | 0x06 => 2
  | 0x07 => 4
  | 0x08 => 8
  | 0x09 => 2
  | 0x0A => 2
  | _ => 4

def termFloat (t : Nat) : Bool := decide (0x09 ≤ t)

def Term.isRank (t : Term) : Bool := t.op == 0x10 || t.op == 0x11

/-- A term that R184 does not accept. -/
def Term.bad (t : Term) : Bool :=
  t.type == 0 || decide (0x0B < t.type) || !(decide (1 ≤ t.op ∧ t.op ≤ 8) || t.isRank) || t.rsv != 0 ||
  ((t.op == 7 || t.op == 8) && termFloat t.type) || t.value / 256 ^ termBytes t.type != 0 || (t.isRank && t.value != 0)

/-- The value of a field of a TYPE. -/
def termVal (t b : Nat) : FVal :=
  match t with
  | 0x05 => .ofInt (sext b 8)
  | 0x06 => .ofInt (sext b 16)
  | 0x07 => .ofInt (sext b 32)
  | 0x08 => .ofInt (sext b 64)
  | 0x09 => FFmt.fp16.decode b
  | 0x0A => FFmt.bf16.decode b
  | 0x0B => f32 b
  | _ => .ofInt (b : Int)

/-- Whether a record passes a predicate term. -/
def Term.holds (t : Term) (rec_ : List Byte) : Bool :=
  let b := field rec_ t.off (termBytes t.type)
  let x := termVal t.type b
  let y := termVal t.type t.value
  match t.op with
  | 1 => x.eq y
  | 2 => !x.eq y
  | 3 => x.lt y
  | 4 => x.lt y || x.eq y
  | 5 => y.lt x
  | 6 => y.lt x || x.eq y
  | 7 => b &&& t.value != 0
  | _ => b &&& t.value == t.value

/-- A filter: mode, record bytes and count, K, terms, address of record 0, and the bytes that entries may fill. -/
structure FilterP where
  mode : Nat
  recBytes : Nat
  count : Nat
  k : Nat
  terms : List Term
  base : Nat
  room : Nat
  deriving DecidableEq, Repr

def FilterP.preds (p : FilterP) : List Term := p.terms.filter (fun t => !t.isRank)
def FilterP.rank (p : FilterP) : Option Term := p.terms.find? (fun t => t.isRank)

/-- Codes and arrangements that R184 and R185 do not accept. -/
def FilterP.bad (p : FilterP) : Bool :=
  p.mode / 4 != 0 || p.terms.any Term.bad ||
  (let n := (p.terms.filter (fun t => t.isRank)).length
   if p.k = 0 then n != 0 else n != 1)

/-- A field of a term that passes the record. -/
def FilterP.termLong (p : FilterP) : Bool := p.terms.any (fun t => decide (p.recBytes < t.off + termBytes t.type))

def FilterP.entryBytes (p : FilterP) : Nat := if bit p.mode 1 then 4 else p.recBytes

/-- Whether a record passes. -/
def FilterP.passes (p : FilterP) (rec_ : List Byte) : Bool :=
  let ps := p.preds
  if ps.isEmpty then true
  else if bit p.mode 0 then ps.any (fun t => t.holds rec_) else ps.all (fun t => t.holds rec_)

def FilterP.entry (p : FilterP) (i : Nat) (rec_ : List Byte) : List Byte := if bit p.mode 1 then leBytes 4 i else rec_

/-- Insert a ranked entry: equal ranks keep the lower record index, which was inserted first, ahead. -/
def rankInsert (desc : Bool) (x : FVal × List Byte) : List (FVal × List Byte) → List (FVal × List Byte)
  | [] => [x]
  | y :: t => if (if desc then y.1.lt x.1 else x.1.lt y.1) then x :: y :: t else y :: rankInsert desc x t

/-- One record of a scan. -/
def Scan.step (p : FilterP) (s : Scan) (i : Nat) (rec_ : List Byte) (bad : Bool) : Scan × Bool :=
  if bad then ({ s with poisoned := true, next := i + 1, seen := s.seen + 1 }, false)
  else if !p.passes rec_ then ({ s with next := i + 1, seen := s.seen + 1 }, false)
  else
    let e := p.entry i rec_
    match p.rank with
    | none =>
      if p.room < s.used + e.length then ({ s with next := i, seen := s.seen + 1, full := true }, true)
      else ({ s with out := s.out ++ [(.nan, e)], used := s.used + e.length, next := i + 1, seen := s.seen + 1 }, true)
    | some t =>
      let v := termVal t.type (field rec_ t.off (termBytes t.type))
      let s1 := { s with next := i + 1, seen := s.seen + 1 }
      (if v = .nan then s1 else { s1 with out := (rankInsert (t.op == 0x10) (v, e) s.out).take p.k }, true)

/-- Scan up to `n` records from record `i` on. -/
def Gikan.scan (g : Gikan) (rd : Reader) (p : FilterP) : Nat → Nat → Scan → Gikan × Scan
  | 0, _, s => (g, s)
  | n + 1, i, s =>
    if s.full then (g, s) else
    let (g, b, bad) := rd g (p.base + i * p.recBytes) p.recBytes
    let (s, pass) := s.step p i b bad
    let g := g.inc F.GFS_FILTER_SCANNED 1
    let g := if bad then g.inc F.GFS_POISON_RECORDS 1 else if pass then g.inc F.GFS_FILTER_PASSED 1 else g
    g.scan rd p n (i + 1) s

/-- The entries of a scan, in order; those that an error spoiled read as zero. -/
def Scan.entries (s : Scan) (w : Nat) : List Byte := s.out.zipIdx.flatMap (fun e => if s.spoilt.contains e.2 then zeros w else e.1.2)

/-- Costs of the scan items over a number of records. -/
def FilterP.costs (p : FilterP) (records : Nat) : List Nat :=
  (List.range (max 1 (ceilDiv records 4096))).map (fun j =>
    let r := min 4096 (records - 4096 * j)
    max (ceilDiv (r * p.recBytes) 256) r + 32)

/-! Score (R187 to R191) -/

/-- A score: format, DIM, queries, keys, K, address of key 0, and the tensor of compressed keys. -/
structure ScoreP where
  fmt : Nat
  dim : Nat
  queries : Nat
  keys : Nat
  k : Nat
  base : Nat
  tensor : Option (Site × Tensor)
  deriving DecidableEq, Repr

/-- SCORE formats. -/
def scoreFmt (c : Nat) : Bool := (decide (2 ≤ c ∧ c ≤ 0x0A)) || c == 0x0D || c == 0x0E

/-- qb(DIM). -/
def qBytes (fmt dim : Nat) : Nat := fmtBytes fmt dim

/-- ceil(DIM × f). -/
def tileDim (fmt dim : Nat) : Nat :=
  match fmt with
  | 0x02 => 4 * dim
  | 0x03 => 4 * dim
  | 0x0A => ceilDiv dim 2
  | 0x0E => ceilDiv dim 2
  | _ => dim

/-- The bytes of a key that an expander's elements give in a format (R188); a NaN as an integer element is not stated. -/
def keyBytes (d fmt : Nat) (es : List XElem) : List Byte :=
  if fmt = 0x0D ∨ fmt = 0x0E then
    let w := if fmt = 0x0D then 8 else 4
    packElems w (es.zipIdx.map (fun e =>
      match e.1.v with
      | .nan => Config.openValue (d + e.2) % 2 ^ w
      | .inf neg => if neg then 2 ^ (w - 1) else 2 ^ (w - 1) - 1
      | .fin neg m x =>
        let top : Int := 2 ^ (w - 1)
        toBits (if neg then max (-top) (-(nearestMag m x : Int)) else min (top - 1) (nearestMag m x)) w))
  else if isMx fmt then
    (List.range (es.length / 32)).flatMap (fun i =>
      let grp := (es.drop (32 * i)).take 32
      match grp.headD ⟨.nan, none⟩ with
      | ⟨_, some (c, sc, _)⟩ =>
        if c = fmt ∧ grp.all (fun e => match e.mx with | some (c2, s2, _) => c2 == c && s2 == sc | none => false) then
          BitVec.ofNat 8 sc :: packElems (elemBits fmt) (grp.map (fun e => match e.mx with | some (_, _, b) => b | none => 0))
        else fpBytes fmt (grp.map (fun e => e.v)) (fun _ => none)
      | _ => fpBytes fmt (grp.map (fun e => e.v)) (fun _ => none))
  else fpBytes fmt (es.map (fun e => e.v)) (fun _ => none)

/-- Sum of products of a group of elements, exact. -/
def dotExact (a b : List FVal) : FVal := (a.zip b).foldl (fun s p => s.add (p.1.mul p.2)) (.fin false 0 0)

/-- The score of a query and a key, as FP32 bits (R189). -/
def scoreOf (fmt dim : Nat) (q k : List Byte) : Nat :=
  if fmt = 0x0D ∨ fmt = 0x0E then
    toF32 (FVal.ofInt (((intElems fmt q dim).zip (intElems fmt k dim)).foldl (fun s p => s + p.1 * p.2) 0))
  else
    let a := fpElems fmt q dim
    let b := fpElems fmt k dim
    (List.range (dim / 32)).foldl (fun acc i =>
      toF32 ((f32 acc).add (dotExact ((a.drop (32 * i)).take 32) ((b.drop (32 * i)).take 32)))) 0

/-- Insert a key into a query's list: higher scores first, equal scores by the lower index. -/
def bestInsert (key score : Nat) : List (Nat × Nat) → List (Nat × Nat)
  | [] => [(key, score)]
  | y :: t =>
    if (f32 y.2).lt (f32 score) || (!(f32 score).lt (f32 y.2) && decide (key < y.1)) then (key, score) :: y :: t else y :: bestInsert key score t

/-- Read key `i`: its bytes, whether it is poisoned. -/
def Gikan.readKey (g : Gikan) (rd : Reader) (p : ScoreP) (i : Nat) : Gikan × List Byte × Bool :=
  rd g (p.base + i * qBytes p.fmt p.dim) (qBytes p.fmt p.dim)

/-- Keys `i` to `i + n - 1` one by one, uncompressed. -/
def Gikan.readKeys (g : Gikan) (rd : Reader) (p : ScoreP) : Nat → Nat → Gikan × List (List Byte × Bool)
  | 0, _ => (g, [])
  | n + 1, i =>
    let (g, b, bad) := g.readKey rd p i
    let (g, ks) := g.readKeys rd p n (i + 1)
    (g, (b, bad) :: ks)

/-- The keys of a tile, each read once (R191). -/
def Gikan.tileKeys (g : Gikan) (rd : Reader) (p : ScoreP) (t : Nat) : Gikan × List (List Byte × Bool) × Tbl Nat :=
  let n := min 128 (p.keys - 128 * t)
  match p.tensor with
  | none =>
    let (g, ks) := g.readKeys rd p n (128 * t)
    (g, ks, [])
  | some (s, tn) =>
    let (g, es, r) := g.expand s tn (128 * t * p.dim) (n * p.dim)
    let (d, g) := g.next
    (g, (List.range n).map (fun j =>
      let xs := (es.drop (j * p.dim)).take p.dim
      if xs.any (fun e => e.isNone) then ([], true) else (keyBytes d p.fmt (xs.filterMap (fun e => e)), false)), r)

/-- Query blocks of up to 128 queries. -/
def ScoreP.blocks (p : ScoreP) : Nat := ceilDiv p.queries 128

def ScoreP.tiles (p : ScoreP) : Nat := ceilDiv p.keys 128

/-- The query block of a tile item, by queries. -/
def ScoreP.block (p : ScoreP) (b : Nat) : List Nat := (List.range (min 128 (p.queries - 128 * b))).map (fun i => 128 * b + i)

/-- Score one key tile against one query: its list, and how many scores were NaN (R189, R190). -/
def ScoreP.against (p : ScoreP) (t : Nat) (ks : List (List Byte × Bool)) (q : List Byte) (best : List (Nat × Nat)) : List (Nat × Nat) × Nat :=
  ks.zipIdx.foldl (fun (acc : List (Nat × Nat) × Nat) kx =>
    if kx.1.2 then acc else
    let s := scoreOf p.fmt p.dim q kx.1.1
    if f32 s = .nan then (acc.1, acc.2 + 1) else ((bestInsert (128 * t + kx.2) s acc.1).take p.k, acc.2)) (best, 0)

/-- The entries of a query, padded to K (R190). -/
def scoreEntries (k : Nat) (best : List (Nat × Nat)) : List Byte :=
  (List.range k).flatMap (fun j =>
    let e := best.getD j (0xFFFFFFFF, 0xFF800000)
    leBytes 4 e.1 ++ leBytes 4 e.2)

/-! Items -/

/-- Numbers of query-load and merge items, clear of the tiles' numbers: the first by matrix engine, the second by filter engine. -/
abbrev loadItem : Nat := 2 ^ 40
abbrev mergeItem : Nat := 2 ^ 41

/-- The work of an item of an owner. -/
def Owner.work (o : Owner) (i : Nat) : Work :=
  match o with
  | .request id => .request id i
  | .cmd kw idx => .job kw idx i

/-- Queue an item of an owner on an engine; a matrix tile may be drawn as a sample of 64 KiB (R347). -/
def Gikan.queueWork (g : Gikan) (o : Owner) (cmpt : Nat) (cls : UClass) (e i cost : Nat) : Gikan :=
  let (s, g) := if cls = .mtx ∧ i < loadItem then g.drawSample 65536 else (none, g)
  g.queueItem ⟨cls, e⟩ ⟨cost, o.work i, cmpt, s⟩

/-- Deal items over the engines of their class: item j to the engine at j mod their number (R177, R198). -/
def Gikan.dealItems (g : Gikan) (o : Owner) (cmpt : Nat) (cls : UClass) (costs : List Nat) : Gikan :=
  let es := g.engines cls
  costs.zipIdx.foldl (fun h c => h.queueWork o cmpt cls (es.getD (c.2 % es.length) 0) c.2 c.1) g

/-- The largest sum of costs on one engine when items are dealt. -/
def Gikan.dealtCost (g : Gikan) (cls : UClass) (costs : List Nat) : Nat :=
  let n := (g.engines cls).length
  (List.range n).foldl (fun m e => max m ((costs.zipIdx.filter (fun c => c.2 % n == e)).foldl (fun k c => k + c.1) 0)) 0

/-- Where an item of cost `c` starts on a unit whose next free cycle is (frame, cycle), under a budget (R29, R30). -/
def slotFor (b : Nat) (p : Nat × Nat) (c : Nat) : Nat × Nat :=
  if c ≤ b then (if p.2 + c ≤ b then p else (p.1 + 1, 0)) else if p.2 = 0 ∧ p.1 ≠ 0 then p else (p.1 + 1, 0)

/-- Where its unit is free again. -/
def afterItem (b : Nat) (p : Nat × Nat) (c : Nat) : Nat × Nat :=
  let s := slotFor b p c
  if c ≤ b then (s.1, s.2 + c) else (s.1 + ceilDiv c (max 1 b), 0)

/-- Where a unit is free once everything queued on it has run. DESIGN CHOICE (assumption 149): one that runs on past its frame is
taken to end with the present frame. -/
def Gikan.freeFrom (g : Gikan) (u : UnitId) : Nat × Nat :=
  let x := g.unit u
  let b := g.budget u.cls
  let p := match x.hold with
    | some (c, s) => (1 + ceilDiv (c - s) (max 1 b), 0)
    | none => if x.carried then (1, 0) else (0, max x.busy g.cycleNow)
  x.queue.foldl (fun q i => afterItem b q i.cost) p

/-- The filter engine whose scan unit would start a further item of a cost earliest, ties to the lower number (R177). -/
def Gikan.pickFilter (g : Gikan) (cost : Nat) : Nat :=
  let start := fun (e : Nat) => slotFor (g.budget .flt) (g.freeFrom ⟨.flt, e⟩) cost
  let sooner := fun (a b : Nat × Nat) => decide (a.1 < b.1) || (a.1 == b.1 && decide (a.2 < b.2))
  (g.engines .flt).foldl (fun (b : Option Nat) e => match b with
    | none => some e
    | some c => if sooner (start e) (start c) then some e else some c) none |>.getD 0

/-- Query-load, tile and merge costs (R191). -/
def ScoreP.loadCost (p : ScoreP) : Nat := ceilDiv (p.queries * qBytes p.fmt p.dim) 256 + 32
def ScoreP.tileCost (p : ScoreP) : Nat := max (tileDim p.fmt p.dim) 128 + 8
def ScoreP.mergeCost (p : ScoreP) (queries : Nat) : Nat := ceilDiv (queries * 32 * p.k) 64 + 64

/-- The matrix engines that take score tiles: those in service whose filter engine is in service too (R346). -/
def Gikan.scoreEngines (g : Gikan) : List Nat :=
  let es := (List.range 32).filter (fun n => !g.fenced ⟨.mtx, n⟩ && !g.fenced ⟨.flt, n⟩)
  if es.isEmpty then List.range 32 else es

/-- The filter engine that takes filter engine `e`'s merges: itself, or the next one above it that is not fenced, modulo 32 (R346). -/
def Gikan.mergeEngine (g : Gikan) (e : Nat) : Nat :=
  (((List.range 32).map (fun i => (e + i) % 32)).find? (fun n => !g.fenced ⟨.flt, n⟩)).getD e

/-- Merge items: for each filter engine e that has queries q with q modulo 32 = e, the engine that merges them and the cost (R191). -/
def Gikan.scoreMerges (g : Gikan) (p : ScoreP) : List (Nat × Nat) :=
  (List.range (min 32 p.queries)).map (fun e => (g.mergeEngine e, p.mergeCost (ceilDiv (p.queries - e) 32)))

/-- Deal the query loads and the tiles of a score; how many items that makes. -/
def Gikan.dealScore (g : Gikan) (o : Owner) (cmpt : Nat) (p : ScoreP) : Nat × Gikan :=
  let es := g.scoreEngines
  let used := es.take (min es.length p.tiles)
  let g := used.foldl (fun h e => h.queueWork o cmpt .mtx e (loadItem + e) p.loadCost) g
  let g := (List.range p.tiles).foldl (fun h t =>
    (List.range p.blocks).foldl (fun h b => h.queueWork o cmpt .mtx (es.getD (t % es.length) 0) (t * p.blocks + b) p.tileCost) h) g
  (used.length + p.tiles * p.blocks, g)

/-- The largest sum of merge costs on one filter engine. -/
def Gikan.mergeMost (g : Gikan) (p : ScoreP) : Nat :=
  let ms := g.scoreMerges p
  (List.range 32).foldl (fun m e => max m ((ms.filter (fun x => x.1 == e)).foldl (fun k x => k + x.2) 0)) 0

/-- The largest matrix-engine cost of a score. -/
def Gikan.scoreCost (g : Gikan) (p : ScoreP) : Nat := p.loadCost + ceilDiv p.tiles g.scoreEngines.length * p.blocks * p.tileCost

/-! Selection memory (R191) -/

abbrev selectAll : Nat := 131072

/-- Free selection entries of a filter engine. -/
def Gikan.selectFree (g : Gikan) (e : Nat) : Nat :=
  selectAll - (g.gfs.jobs.filter (fun j => j.engine.isNone || j.engine == some e)).foldl (fun n j => n + j.select) 0

/-- The least over the engines (GFS_ACTIVE.SELECT_FREE). -/
def Gikan.selectLeast (g : Gikan) : Nat := (List.range 32).foldl (fun m e => min m (g.selectFree e)) selectAll

/-! Jobs under way -/

def Gikan.addJob (g : Gikan) (j : EngJob) : Gikan := { g with gfs := { g.gfs with jobs := g.gfs.jobs ++ [j] } }

def Gikan.jobOf (g : Gikan) (o : Owner) : Option EngJob := g.gfs.jobs.find? (fun j => j.owner == o)

def Gikan.putJob (g : Gikan) (j : EngJob) : Gikan :=
  { g with gfs := { g.gfs with jobs := g.gfs.jobs.map (fun k => if k.owner == j.owner then j else k) } }

def Gikan.dropJob (g : Gikan) (o : Owner) : Gikan := { g with gfs := { g.gfs with jobs := g.gfs.jobs.filter (fun k => k.owner != o) } }

/-! Requests (R46) -/

/-- The gather of a request. -/
def reqGather (q : Req) (base : Nat) (t : Option (Site × Tensor)) : GatherP :=
  let w := bodyField q 36 1
  let n := q.hdr.length / max 1 w
  ⟨q.hdr.subop, bodyField q 32 2, n / max 1 (bodyField q 34 2), base, gIndices q.payload w n, t⟩

/-- What a GATHER_REQ's fields may not hold. With POOL NONE a LENGTH that is no multiple of INDEX_WIDTH is refused with the rest, at check 3
(DESIGN CHOICE, assumption 147). -/
def gatherReqBad (q : Req) : Bool :=
  let w := bodyField q 36 1
  let rb := bodyField q 32 2
  gModeBad q.hdr.subop || bodyField q 37 11 != 0 || !(w == 4 || w == 8) ||
  rb % gElem (gFmt q.hdr.subop) != 0 || (gPool q.hdr.subop == 0 && w != 0 && q.hdr.length != bodyField q 34 2 * w)

/-- The sizes of a GATHER_REQ (R46, R51). -/
def gatherReqLong (q : Req) : Bool :=
  let w := bodyField q 36 1
  let rb := bodyField q 32 2
  let rows := bodyField q 34 2
  q.hdr.length == 0 || decide (4096 < q.hdr.length) || q.hdr.length % w != 0 || rb == 0 || decide (16384 < rb) || rows == 0 || decide (1024 < rows) ||
  (q.hdr.length / w) % rows != 0

/-- Response bytes of a GATHER_REQ, its mask included (R183). -/
def gatherRespBytes (q : Req) : Nat := let rows := bodyField q 34 2; rows * bodyField q 32 2 + ceilDiv rows 8

/-- Whether every row of a gather lies in its extent. -/
def Gikan.gatherFits (g : Gikan) (s : Site) (p : GatherP) : Bool :=
  p.idx.all (fun x => match x with
    | none => true
    | some i =>
      if s.e.comp = 0 then s.e.covers (p.table + i * p.rowBytes) p.rowBytes
      else let n := p.rowBytes / gElem (gFmt p.mode); g.tensorFits s p.table (i * n) n)

/-- The poison mask of R183. -/
def poisonMask (rows : List Bool) : List Byte :=
  leBytes (ceilDiv rows.length 8) (rows.zipIdx.foldl (fun n r => if r.1 then setBit n r.2 else n) 0)

/-- A GATHER_REQ's answer from its rows (R183). -/
def gatherAnswer (rows : List (List Byte × Bool)) : Nat × List Byte :=
  let data := rows.flatMap (fun r => r.1)
  if rows.any (fun r => r.2) then (stPOISONED, data ++ poisonMask (rows.map (fun r => r.2))) else (stOK, data)

/-- The filter of a FILTER_REQ. -/
def reqFilter (q : Req) (base : Nat) : FilterP :=
  let n := min (bodyField q 40 1) (q.payload.length / 16)
  ⟨q.hdr.subop, bodyField q 32 2, bodyField q 34 4, bodyField q 38 2, (List.range n).map (termAt q.payload), base,
   if bodyField q 38 2 = 0 then 4088 else 4096⟩

def filterReqBad (q : Req) : Bool := bodyField q 41 7 != 0 || (reqFilter q 0).bad

/-- The sizes of a FILTER_REQ, its response aside. -/
def filterReqLong (q : Req) : Bool :=
  let p := reqFilter q 0
  let n := bodyField q 40 1
  p.recBytes == 0 || decide (4096 < p.recBytes) || p.count == 0 || decide (16777216 < p.count) || decide (512 < p.k) || n == 0 || decide (16 < n) ||
  q.hdr.length != 16 * n || p.termLong

/-- A response that could pass 4,096 B (R186). -/
def filterRespLong (q : Req) : Bool :=
  let p := reqFilter q 0
  if p.k = 0 then !bit p.mode 1 && decide (4088 < p.recBytes) else decide (4096 < p.k * p.entryBytes)

/-- The score of a SCORE_REQ. -/
def reqScore (q : Req) (base : Nat) (t : Option (Site × Tensor)) : ScoreP :=
  ⟨q.hdr.subop, bodyField q 36 2, bodyField q 38 2, bodyField q 32 4, bodyField q 40 2, base, t⟩

def scoreReqBad (q : Req) : Bool :=
  let p := reqScore q 0 none
  !scoreFmt q.hdr.subop || bodyField q 42 6 != 0 || decide (p.dim < 32) || decide (1024 < p.dim) || p.dim % 32 != 0

def scoreReqLong (q : Req) : Bool :=
  let p := reqScore q 0 none
  p.keys == 0 || decide (16777216 < p.keys) || p.queries == 0 || decide (256 < p.queries) || p.k == 0 || decide (512 < p.queries * p.k) ||
  q.hdr.length != p.queries * qBytes p.fmt p.dim

/-- Whether the keys lie in their extent. -/
def Gikan.keysFit (g : Gikan) (s : Site) (p : ScoreP) : Bool :=
  if s.e.comp = 0 then s.e.covers p.base (p.keys * qBytes p.fmt p.dim) else g.tensorFits s p.base 0 (p.keys * p.dim)

/-- Checks 6 and 7 and the common part of check 10 on a request of the engines; `long` says check 8 fails. -/
def Gikan.engAdmit (g : Gikan) (x : Nat) (q : Req) (i : Nat) (e : ExtW) (long : Bool) (body : Gikan → Gikan) : Gikan :=
  if (g.map.revoked.get? i).isSome then g.refuse x q stREVOKED
  else if g.match3 q e.cmpt (some e.ward) ≠ 0 then g.refuseWard x q (g.match3 q e.cmpt (some e.ward)) i
  else if long then g.refuse x q stLENGTH
  else
    let (ok, g) := g.check10 q e
    if ok then body g else g.refuse x q stBUSY

/-- Count a refusal of this chapter. -/
def Gikan.refuseFmt (g : Gikan) (x : Nat) (q : Req) : Gikan := (g.inc F.GFS_REFUSALS_FORMAT 1).refuse x q stUNSUP

/-- A request that a size or cost refuses is counted. -/
def Gikan.engRefusals (g : Gikan) (size cost : Bool) : Gikan :=
  if size then g.inc F.GFS_REFUSALS_SIZE 1 else if cost then g.inc F.GFS_REFUSALS_COST 1 else g

/-- COMP of the extent that a request's address lies in, by the map it names, or by the current map where that map is not live. -/
def Gikan.compOf (g : Gikan) (q : Req) : Nat :=
  match ((g.liveMap q.hdr.epoch).getD g.map.cur).extentAt (g.realAddr q.hdr.addr) with
  | some (_, e) => e.comp
  | none => 0

/-- ROW_FORMAT RAW on a compressed table (R182), refused at check 3. DEDUCED: check 3 comes before the epoch and the extent are checked, so the
extent is looked up for it ahead of them (assumption 148). -/
def Gikan.rawBad (g : Gikan) (q : Req) : Bool := gFmt q.hdr.subop == 0 && g.compOf q != 0

/-- A GATHER_REQ admitted through check 5. -/
def Gikan.gatherHere (g0 : Gikan) (x : Nat) (q : Req) (i : Nat) (e : ExtW) : Gikan :=
  let s : Site := ⟨i, e⟩
  let p := reqGather q (g0.realAddr q.hdr.addr) none
  let sizes := gatherReqLong q || !g0.gatherFits s p
  let size := !sizes && decide (4096 < gatherRespBytes q)
  let costs := List.replicate (bodyField q 34 2) p.cost
  let cost := !sizes && !size && decide (16 * g0.classB .gth < g0.dealtCost .gth costs)
  let w := g0.engAdmit x q i e (sizes || size || cost) (fun g =>
    let g := g.admitted x i q
    let (id, g) := g.hold x q i (.job 0)
    let g := g.dealItems (.request id) q.hdr.cmpt .gth costs
    g.addJob { EngJob.start (.request id) q.hdr.cmpt costs.length 0 none with idx := p.idx })
  if (size || cost) && (g0.map.revoked.get? i).isNone && g0.match3 q e.cmpt (some e.ward) == 0 then w.engRefusals size cost else w

/-- A FILTER_REQ's answer. -/
def filterAnswer (p : FilterP) (s : Scan) (spoilt : Bool) : Nat × List Byte :=
  (if s.poisoned || spoilt then stPOISONED else stOK, (if p.k = 0 then leBytes 8 s.next else []) ++ s.entries p.entryBytes)

/-- A FILTER_REQ admitted through check 5. -/
def Gikan.filterHere (g0 : Gikan) (x : Nat) (q : Req) (i : Nat) (e : ExtW) : Gikan :=
  let p := reqFilter q (g0.realAddr q.hdr.addr)
  if e.comp ≠ 0 then g0.refuseFmt x q
  else
    let costs := p.costs p.count
    let sizes := filterReqLong q || !e.covers p.base (p.count * p.recBytes)
    let size := !sizes && filterRespLong q
    let cost := !sizes && !size && decide (16 * g0.classB .flt < costs.foldl (fun n c => n + c) 0)
    let w := g0.engAdmit x q i e (sizes || size || cost) (fun g =>
      let g := g.admitted x i q
      let (id, g) := g.hold x q i (.job 0)
      let f := g.pickFilter (costs.headD 0)
      let g := costs.zipIdx.foldl (fun h c => h.queueWork (.request id) q.hdr.cmpt .flt f c.2 c.1) g
      g.addJob (EngJob.start (.request id) q.hdr.cmpt costs.length 0 (some f)))
    if (size || cost) && (g0.map.revoked.get? i).isNone && g0.match3 q e.cmpt (some e.ward) == 0 then w.engRefusals size cost else w

/-- A SCORE_REQ admitted through check 5. -/
def Gikan.scoreHere (g0 : Gikan) (x : Nat) (q : Req) (i : Nat) (e : ExtW) : Gikan :=
  let s : Site := ⟨i, e⟩
  let p := reqScore q (g0.realAddr q.hdr.addr) none
  let sizes := scoreReqLong q || !g0.keysFit s p
  let size := !sizes && decide (4096 < p.queries * p.k * 8)
  let cost := !sizes && !size && (decide (16 * g0.classB .mtx < g0.scoreCost p) || decide (16 * g0.classB .flt < g0.mergeMost p))
  let w := g0.engAdmit x q i e (sizes || size || cost) (fun g =>
    if g.selectLeast < p.queries * p.k then (g.inc F.GFS_REFUSALS_SELECT_BUSY 1).refuse x q stBUSY
    else
      let g := g.admitted x i q
      let (id, g) := g.hold x q i (.job 0)
      let (n, g) := g.dealScore (.request id) q.hdr.cmpt p
      g.addJob { EngJob.start (.request id) q.hdr.cmpt n (p.queries * p.k) none with merges := g.scoreMerges p })
  if (size || cost) && (g0.map.revoked.get? i).isNone && g0.match3 q e.cmpt (some e.ward) == 0 then w.engRefusals size cost else w

/-- A request of the engines as it arrives: a line that agents hold keeps it waiting (R150); a refusal at check 3 is counted. -/
def Gikan.engArrive (g : Gikan) (x : Nat) (q : Req) (type : Nat) (bad : Bool) (here : Gikan → Nat → ExtW → Gikan) : Gikan :=
  g.cohSettle (match g.receive x q type bad with
    | .done h => if q.hdr.type == type && g.refusedAt3 x q bad then h.inc F.GFS_REFUSALS_FORMAT 1 else h
    | .go h i e => here h i e)

def Gikan.gatherArrive (g : Gikan) (x : Nat) (q : Req) : Gikan := g.engArrive x q tyGATHER (gatherReqBad q || g.rawBad q) (fun h i e => h.gatherHere x q i e)
def Gikan.filterArrive (g : Gikan) (x : Nat) (q : Req) : Gikan := g.engArrive x q tyFILTER (filterReqBad q) (fun h i e => h.filterHere x q i e)
def Gikan.scoreArrive (g : Gikan) (x : Nat) (q : Req) : Gikan := g.engArrive x q tySCORE (scoreReqBad q) (fun h i e => h.scoreHere x q i e)

/-! Jobs (R192 to R196) -/

/-- The gather of a GATHER command, its index list read; whether that list met poison. -/
def Gikan.cmdGather (g : Gikan) (c : Cmd) : Gikan × GatherP × Bool :=
  let w := c.f 3 1
  let n := c.f 8 4
  let (g, b, bad) := g.cmdRead c (c.f 24 8) (n * w)
  (g, ⟨c.f 2 1, c.f 4 2, c.f 6 2, c.f 16 8, gIndices b w n, none⟩, bad)

/-- COMP of the extent of an address of a command in the current map, wherever its home; 0 in a host page. -/
def Gikan.cmdComp (g : Gikan) (c : Cmd) (va : Nat) : Nat :=
  match c.loc va with
  | .host _ _ => 0
  | .fab a => match g.map.cur.extentAt (g.realAddr a) with
    | some (_, e) => e.comp
    | none => 0

/-- Codes, combinations and reserved fields of the three descriptors (R195, cause 1). -/
def Gikan.jobUnsup (g : Gikan) (c : Cmd) : Bool :=
  let comp := fun (va : Nat) => g.cmdComp c va
  if c.op = opGATHER then
    c.f 0 2 != 1 || gModeBad (c.f 2 1) || !(c.f 3 1 == 4 || c.f 3 1 == 8) || c.f 12 4 != 0 || c.f 40 24 != 0 ||
    c.f 4 2 % gElem (gFmt (c.f 2 1)) != 0 || (gPool (c.f 2 1) == 0 && c.f 6 2 != 1) ||
    (comp (c.f 16 8) != 0 && (gFmt (c.f 2 1) == 0 || c.va))
  else if c.op = opFILTER then
    let n := c.f 3 1
    let p : FilterP := ⟨c.f 2 1, c.f 4 2, c.f 8 4, c.f 12 4, (List.range n).map (termAt (c.bytes.drop 96)), 0, 0⟩
    c.f 0 2 != 1 || c.f 6 2 != 0 || c.f 40 24 != 0 || p.bad || comp (c.f 16 8) != 0
  else
    c.f 0 2 != 1 || c.f 3 1 != 0 || !scoreFmt (c.f 2 1) || c.f 40 24 != 0 ||
    (comp (c.f 16 8) != 0 && c.va)

/-- The filter of a FILTER command. -/
def Cmd.filterP (c : Cmd) : FilterP :=
  ⟨c.f 2 1, c.f 4 2, c.f 8 4, c.f 12 4, (List.range (c.f 3 1)).map (termAt (c.bytes.drop 96)), c.f 16 8, c.f 32 8 - 8⟩

/-- The score of a SCORE command, without its queries. -/
def Cmd.scoreP (c : Cmd) : ScoreP := ⟨c.f 2 1, c.f 4 2, c.f 6 2, c.f 8 4, c.f 12 4, c.f 16 8, none⟩

/-- The spans of a job, and whether each is an output. -/
def Cmd.jobSpans (c : Cmd) (tableBytes : Nat) : List (Nat × Nat × Bool) :=
  if c.op = opGATHER then
    [(c.f 16 8, tableBytes, false), (c.f 24 8, c.f 8 4 * c.f 3 1, false), (c.f 32 8, c.f 8 4 / max 1 (c.f 6 2) * c.f 4 2, true)]
  else if c.op = opFILTER then
    [(c.f 16 8, c.f 4 2 * c.f 8 4, false), (c.f 24 8, c.f 32 8, true)]
  else
    let w := qBytes (c.f 2 1) (c.f 4 2)
    [(c.f 16 8, c.f 8 4 * w, false), (c.f 24 8, c.f 6 2 * w, false), (c.f 32 8, c.f 6 2 * c.f 12 4 * 8, true)]

/-- Fields outside their ranges (R192 to R194). -/
def Cmd.jobRange (c : Cmd) : Bool :=
  if c.op = opGATHER then
    c.f 4 2 == 0 || decide (16384 < c.f 4 2) || c.f 6 2 == 0 || c.f 8 4 == 0 || decide (16777216 < c.f 8 4) || c.f 8 4 % max 1 (c.f 6 2) != 0
  else if c.op = opFILTER then
    let p := c.filterP
    c.f 3 1 == 0 || decide (16 < c.f 3 1) || p.recBytes == 0 || decide (4096 < p.recBytes) || p.count == 0 || decide (131072 < p.k) ||
    decide (c.f 32 8 < 16) || decide (2 ^ 48 < c.f 32 8) || p.termLong || (p.k != 0 && decide (c.f 32 8 < 8 + p.k * p.entryBytes))
  else
    let p := c.scoreP
    decide (p.dim < 32) || decide (1024 < p.dim) || p.dim % 32 != 0 || p.queries == 0 || decide (4096 < p.queries) || decide (1048576 < p.queries * qBytes p.fmt p.dim) || p.keys == 0 || decide (268435456 < p.keys) ||
    p.k == 0 || decide (512 < p.k) || decide (131072 < p.queries * p.k)

/-- The bytes of the table that a gather's indices reach. -/
def GatherP.tableBytes (p : GatherP) : Nat := p.idx.foldl (fun m x => match x with | some i => max m ((i + 1) * p.rowBytes) | none => m) 0

/-- The checks of a job (R195), and what admission of its accesses gives (R196): the first code other than OK. -/
def Gikan.jobCheck (g : Gikan) (kw : Nat) (c : Cmd) : Nat :=
  if g.jobUnsup c then stUNSUP
  else
    let comp := g.cmdComp c (c.f 16 8)
    let ok1 := c.op ≠ opGATHER || (!g.spanAbsent kw c (c.f 24 8) (c.f 8 4 * c.f 3 1) false && !g.spanLong c (c.f 24 8) (c.f 8 4 * c.f 3 1) && !c.jobRange)
    let p : GatherP := if c.op = opGATHER ∧ ok1 then (g.cmdGather c).2.1 else ⟨0, 0, 0, 0, [], none⟩
    let tb := if comp ≠ 0 then 1 else p.tableBytes
    let spans := (c.jobSpans tb).map (fun s => if comp ≠ 0 ∧ s.1 = c.f 16 8 then (s.1, 1, s.2.2) else s)
    if spans.any (fun s => g.spanAbsent kw c s.1 s.2.1 s.2.2) then stNOTPRES
    else if c.jobRange || spans.any (fun s => g.spanLong c s.1 s.2.1) then stLENGTH
    else if comp ≠ 0 && (match g.cmdSite c (c.f 16 8) with
        | some s => if c.op = opGATHER then !g.gatherFits s { p with table := g.realAddr p.table }
                    else !g.keysFit s { c.scoreP with base := g.realAddr c.scoreP.base }
        | none => false) then stLENGTH
    else spans.foldl (fun st s => if st ≠ stOK then st else g.spanCode kw c s.1 s.2.1 s.2.2) stOK

/-- A refused job. -/
def Gikan.jobRefused (g : Gikan) (kw idx st : Nat) : Gikan :=
  (if st = stUNSUP then g.inc F.GFS_REFUSALS_FORMAT 1 else g).cmdDone kw idx st

/-- A GATHER command starts: its index list is read and checked, and its items are dealt. -/
def Gikan.gatherJob (g0 : Gikan) (k : CmdRef) : Gikan :=
  match g0.cmdReady k opGATHER with
  | none => g0
  | some c =>
    let kw := k.kw.val
    let st := g0.jobCheck kw c
    if st ≠ stOK then g0.jobRefused kw c.idx st
    else
      let (g, p, bad) := g0.cmdGather c
      let n := c.f 8 4 / p.group
      let g := g.dealItems (.cmd kw c.idx) kw .gth (List.replicate n p.cost)
      -- an index list that met poison leaves no row that may be used as a value (R99)
      let g := g.addJob { EngJob.start (.cmd kw c.idx) kw n 0 none with idx := p.idx, idxBad := bad }
      g0.cohSettle ((g.cmdRun kw c.idx n).updCmd kw c.idx (fun d => { d with detail := n }))

/-- A FILTER command starts; a top-k above 512 needs its selection entries. -/
def Gikan.filterJob (g : Gikan) (k : CmdRef) : Gikan :=
  match g.cmdReady k opFILTER with
  | none => g
  | some c =>
    let kw := k.kw.val
    let st := g.jobCheck kw c
    let p := c.filterP
    let costs := p.costs p.count
    let f := g.pickFilter (costs.headD 0)
    let need := if 512 < p.k then p.k else 0
    if st ≠ stOK then g.jobRefused kw c.idx st
    else if g.selectFree f < need then g
    else
      let g := costs.zipIdx.foldl (fun h x => h.queueWork (.cmd kw c.idx) kw .flt f x.2 x.1) g
      (g.addJob (EngJob.start (.cmd kw c.idx) kw costs.length need (some f))).cmdRun kw c.idx costs.length

/-- A SCORE command starts, when every filter engine has its entries free. -/
def Gikan.scoreJob (g : Gikan) (k : CmdRef) : Gikan :=
  match g.cmdReady k opSCORE with
  | none => g
  | some c =>
    let kw := k.kw.val
    let st := g.jobCheck kw c
    let p := c.scoreP
    if st ≠ stOK then g.jobRefused kw c.idx st
    else if g.selectLeast < p.queries * p.k then g
    else
      let (n, g) := g.dealScore (.cmd kw c.idx) kw p
      (g.addJob { EngJob.start (.cmd kw c.idx) kw n (p.queries * p.k) none with merges := g.scoreMerges p }).cmdRun kw c.idx n

/-! What an item does: it reads its data, and gives its output, at its end -/

/-- The compressed tensor of a job, its header read by the first item that needs it (R204). -/
def Gikan.jobTensor (g : Gikan) (j : EngJob) (s : Option Site) (a : Nat) : Gikan × EngJob × Option (Site × Tensor) :=
  match s with
  | none => (g, j, none)
  | some s =>
    if s.e.comp = 0 then (g, j, none) else
    match j.tensor with
    | some t => (g, j, some (s, t))
    | none => let (g, t) := g.openTensor s a; (g, { j with tensor := some t }, some (s, t))

/-- The address of a table or of keys: that of the real node where it is compressed. -/
def Gikan.jobBase (g : Gikan) (s : Option Site) (a : Nat) : Nat :=
  match s with
  | some s => if s.e.comp = 0 then a else g.realAddr a
  | none => a

/-- A job's gather, filter or score, with its reader and the extent of its table, records or keys. -/
def Gikan.gatherPlan (g : Gikan) (j : EngJob) : Option (GatherP × Reader × Option Site) :=
  match j.owner with
  | .request id => (g.heldById id).bind (fun h =>
      if h.q.hdr.type = tyGATHER then
        some ({ reqGather h.q (g.realAddr h.q.hdr.addr) none with idx := j.idx }, siteReader (g.siteOf h.entry), some (g.siteOf h.entry))
      else none)
  | .cmd kw idx => (g.cmd? kw idx).bind (fun c =>
      if c.op = opGATHER then
        let s := g.cmdSite c (c.f 16 8)
        some (⟨c.f 2 1, c.f 4 2, c.f 6 2, g.jobBase s (c.f 16 8), j.idx, none⟩, cmdReader c, s)
      else none)

def Gikan.filterPlan (g : Gikan) (j : EngJob) : Option (FilterP × Reader) :=
  match j.owner with
  | .request id => (g.heldById id).bind (fun h =>
      if h.q.hdr.type = tyFILTER then some (reqFilter h.q (g.realAddr h.q.hdr.addr), siteReader (g.siteOf h.entry)) else none)
  | .cmd kw idx => (g.cmd? kw idx).bind (fun c => if c.op = opFILTER then some (c.filterP, cmdReader c) else none)

def Gikan.scorePlan (g : Gikan) (j : EngJob) : Option (ScoreP × Reader × Option Site) :=
  match j.owner with
  | .request id => (g.heldById id).bind (fun h =>
      if h.q.hdr.type = tySCORE then some (reqScore h.q (g.realAddr h.q.hdr.addr) none, siteReader (g.siteOf h.entry), some (g.siteOf h.entry)) else none)
  | .cmd kw idx => (g.cmd? kw idx).bind (fun c =>
      if c.op = opSCORE then
        let s := g.cmdSite c (c.f 16 8)
        some ({ c.scoreP with base := g.jobBase s (c.f 16 8) }, cmdReader c, s)
      else none)

/-- Where a job's output begins. -/
def Cmd.outAt (c : Cmd) : Nat := if c.op = opFILTER then c.f 24 8 else c.f 32 8

/-- A command's item writes output at an offset, or leaves it poisoned (R99); a request's output stays in the engines until its answer. -/
def Gikan.jobWrite (g : Gikan) (j : EngJob) (off : Nat) (data : List Byte) (bad : Bool) : Gikan :=
  match j.owner with
  | .request _ => g
  | .cmd kw idx => match g.cmd? kw idx with
    | none => g
    | some c => if bad then g.cmdPoison kw c (c.outAt + off) data.length else g.cmdWrite kw c (c.outAt + off) data

/-- A gather item: one output row. -/
def Gikan.gatherItem (g : Gikan) (j : EngJob) (i : Nat) (p : GatherP) (rd : Reader) (s : Option Site) : Gikan × EngJob :=
  let slow := g.get F.CMP_AXC1_SLOW
  let (g, j, t) := g.jobTensor j s p.table
  let (g, b, bad, _) := g.gatherRow rd { p with tensor := t } ((p.idx.drop (i * p.group)).take p.group) (j.lost.contains i || j.idxBad)
  let g := match t with
    | some (s, _) => (g.expandWait (s.e.comp == 2) (decide (slow < g.get F.CMP_AXC1_SLOW))).1
    | none => g
  (g.jobWrite j (i * p.rowBytes) b bad, { j with rows := j.rows.put i (b, bad), poisoned := j.poisoned || bad })

/-- Write the entries of a scan from place `k` on, behind the count. -/
def Gikan.putEntries (g : Gikan) (j : EngJob) (s : Scan) (w k : Nat) : Gikan :=
  (s.out.zipIdx.drop k).foldl (fun h e => h.jobWrite j (8 + e.2 * w) (fit e.1.2 w) (s.spoilt.contains e.2)) g

/-- A scan item: up to 4,096 records. An error spoils the entries it found, or a whole selection. -/
def Gikan.filterItem (g : Gikan) (j : EngJob) (i : Nat) (p : FilterP) (rd : Reader) : Gikan × EngJob :=
  let k := j.scan.out.length
  let (g, s) := g.scan rd p (min 4096 (p.count - 4096 * i)) (4096 * i) j.scan
  let lost := j.lost.contains i
  let s := if !lost then s
    else { s with spoilt := if p.k = 0 then s.spoilt ++ (List.range (s.out.length - k)).map (fun n => k + n) else List.range p.k }
  let g := if p.k = 0 then g.putEntries j s p.entryBytes k else g
  (g, { j with scan := s, poisoned := j.poisoned || s.poisoned || lost })

/-- A score tile that waited for its keys is counted (R191, R210). -/
def Gikan.keyWait (g : Gikan) : Gikan :=
  let (d, g) := g.next
  (g.inc F.GFS_KEY_WAIT_EVENTS 1).inc F.GFS_KEY_WAIT_CYCLES_K (Config.stallK d)

/-- The keys of a tile, read for its first query block and kept for the others (R191). -/
def Gikan.tileData (g : Gikan) (j : EngJob) (p : ScoreP) (rd : Reader) (s : Option Site) (t : Nat) : Gikan × EngJob × List (List Byte × Bool) :=
  match j.keys.get? t with
  | some ks => (g, j, ks)
  | none =>
    let slow := g.get F.CMP_AXC1_SLOW
    let (g, j, tn) := g.jobTensor j s p.base
    let (g, ks, _) := g.tileKeys rd { p with tensor := tn } t
    let bad := (ks.filter (fun k => k.2)).length
    let g := g.inc F.GFS_POISON_KEYS bad
    let (g, waited) := match tn with
      | some (s, _) => g.expandWait (s.e.comp == 2) (decide (slow < g.get F.CMP_AXC1_SLOW))
      | none => let (d, g) := g.next; (g, decide (Config.waitCause d % 4 ≠ 0))
    (if waited then g.stallOnce 5 Gikan.keyWait else g, { j with keys := j.keys.put t ks, poisoned := j.poisoned || decide (0 < bad) }, ks)

/-- The queries as a matrix engine holds them; an engine that took over tiles uses what any engine has loaded. -/
def EngJob.queriesOf (j : EngJob) (n : Nat) : List (List Byte × Bool) :=
  (j.loads.get? n).getD (match j.loads with | (_, qs) :: _ => qs | [] => [])

/-- A query load: a request carries its queries, a command reads them. -/
def Gikan.loadItemEnd (g : Gikan) (j : EngJob) (n : Nat) (p : ScoreP) (lost : Bool) : Gikan × EngJob :=
  let w := qBytes p.fmt p.dim
  let (g, qs) : Gikan × List (List Byte × Bool) := match j.owner with
    | .request id =>
      let data := match g.heldById id with | some h => h.q.payload | none => []
      (g, (List.range p.queries).map (fun q => (slice data (q * w) w, false)))
    | .cmd kw idx => match g.cmd? kw idx with
      | none => (g, [])
      | some c => (List.range p.queries).foldl (fun (acc : Gikan × List (List Byte × Bool)) q =>
          let (h, b, bad) := acc.1.cmdRead c (c.f 24 8 + q * w) w
          (h, acc.2 ++ [(b, bad)])) (g, [])
  let qs := if lost then qs.map (fun q => (q.1, true)) else qs
  let bad := (qs.zipIdx.filter (fun q => q.1.2)).map (fun q => q.2)
  (g, { j with loads := j.loads.put n qs, spoilt := bad.foldl insNat j.spoilt, poisoned := j.poisoned || !bad.isEmpty })

/-- A score tile against one query block. -/
def Gikan.tileItemEnd (g : Gikan) (j : EngJob) (n i : Nat) (p : ScoreP) (rd : Reader) (s : Option Site) : Gikan × EngJob :=
  let t := i / p.blocks
  let (g, j, ks) := g.tileData j p rd s t
  let j := if i % p.blocks + 1 = p.blocks then { j with keys := j.keys.del t } else j
  let qs := j.queriesOf n
  let (best, nan) := (p.block (i % p.blocks)).foldl (fun (acc : Tbl (List (Nat × Nat)) × Nat) q =>
    let (b, k) := p.against t ks (qs.getD q ([], true)).1 (acc.1.getD q [])
    (acc.1.put q b, acc.2 + k)) (j.best, 0)
  let lost := j.lost.contains i
  ((g.inc F.GFS_SCORE_NAN_EXCLUDED nan).inc F.GFS_SCORE_TILES 1,
   { j with best := best, spoilt := if lost then (p.block (i % p.blocks)).foldl insNat j.spoilt else j.spoilt, poisoned := j.poisoned || lost })

/-- A merge: the lists of the queries q with q modulo 32 = e. -/
def Gikan.mergeItemEnd (g : Gikan) (j : EngJob) (e : Nat) (p : ScoreP) (lost : Bool) : Gikan × EngJob :=
  let qs := (List.range p.queries).filter (fun q => q % 32 == e)
  let j := if lost then { j with spoilt := qs.foldl insNat j.spoilt, poisoned := true } else j
  (qs.foldl (fun h q => h.jobWrite j (q * p.k * 8) (scoreEntries p.k (j.best.getD q [])) (j.spoilt.contains q)) g, j)

/-- An item of a score. -/
def Gikan.scoreItem (g : Gikan) (j : EngJob) (u : UnitId) (i : Nat) (p : ScoreP) (rd : Reader) (s : Option Site) : Gikan × EngJob :=
  if i < loadItem then g.tileItemEnd j u.n i p rd s
  else if i < mergeItem then g.loadItemEnd j u.n p (j.lost.contains i)
  else g.mergeItemEnd j (i - mergeItem) p (j.lost.contains i)

/-- What an item of a request or job does. -/
def Gikan.itemRun (g : Gikan) (j : EngJob) (u : UnitId) (i : Nat) : Gikan × EngJob :=
  match g.gatherPlan j, g.filterPlan j, g.scorePlan j with
  | some (p, rd, s), _, _ => g.gatherItem j i p rd s
  | _, some (p, rd), _ => g.filterItem j i p rd
  | _, _, some (p, rd, s) => g.scoreItem j u i p rd s
  | _, _, _ => (g, j)

/-- The blocks that an item reads, by the table slots they name (R220). -/
def Gikan.itemRefs (g : Gikan) (o : Owner) (i : Nat) : Tbl Nat :=
  match g.jobOf o with
  | none => []
  | some j =>
    match g.gatherPlan j, g.scorePlan j with
    | some (p, rd, s), _ =>
      let (g, j, t) := g.jobTensor j s p.table
      if t.isNone then [] else (g.gatherRow rd { p with tensor := t } ((p.idx.drop (i * p.group)).take p.group) j.idxBad).2.2.2
    | _, some (p, rd, s) =>
      if loadItem ≤ i || i % p.blocks ≠ 0 then [] else
      let (g, _, t) := g.jobTensor j s p.base
      if t.isNone then [] else (g.tileKeys rd { p with tensor := t } (i / p.blocks)).2.2
    | _, _ => []

/-- The blocks of an admitted item count on their slots from its admission. -/
def Gikan.readsAdmitted (g : Gikan) (w : Work) : Gikan :=
  match w with
  | .job kw idx i => g.blocksRead w (g.itemRefs (.cmd kw idx) i)
  | .request id i => g.blocksRead w (g.itemRefs (.request id) i)
  | _ => g

/-! Ends of items -/

/-- The merge items of a request or job are formed, when every tile item has ended (R191). -/
def Gikan.formMerges (g : Gikan) (j : EngJob) : Gikan :=
  let g := j.merges.zipIdx.foldl (fun h m => h.queueWork j.owner j.cmpt .flt m.1.1 (mergeItem + m.2) m.1.2) g
  g.putJob { j with left := j.merges.length, merges := [] }

/-- A request's answer, its items done. -/
def Gikan.reqAnswer (g : Gikan) (j : EngJob) : Nat × List Byte :=
  match g.gatherPlan j, g.filterPlan j, g.scorePlan j with
  | some (p, _), _, _ =>
    gatherAnswer ((List.range (p.idx.length / max 1 p.group)).map (fun r => j.rows.getD r (zeros p.rowBytes, true)))
  | _, some (p, _), _ => filterAnswer p j.scan j.poisoned
  | _, _, some (p, _) =>
    (if j.poisoned then stPOISONED else stOK,
     (List.range p.queries).flatMap (fun q => if j.spoilt.contains q then zeros (8 * p.k) else scoreEntries p.k (j.best.getD q [])))
  | _, _, _ => (stOK, [])

/-- What a FILTER command writes once its scan is done: the count or the resume index, and a selection's entries (R193). -/
def Gikan.filterLast (g : Gikan) (j : EngJob) : Gikan × Nat :=
  match g.filterPlan j with
  | none => (g, 0)
  | some (p, _) =>
    let n := if p.k = 0 then j.scan.next else j.scan.out.length
    let g := if p.k = 0 then g else g.putEntries j j.scan p.entryBytes 0
    (g.jobWrite j 0 (leBytes 8 n) (decide (0 < p.k) && !j.scan.spoilt.isEmpty), n)

/-- Every item of a request or job has ended. -/
def Gikan.jobEnd (g : Gikan) (j : EngJob) : Gikan :=
  match j.owner with
  | .request id =>
    match g.heldById id with
    | none => g.dropJob j.owner
    | some h =>
      let (st, data) := g.reqAnswer j
      let (p, g) := g.engPort
      ((g.dropJob j.owner).release id).answer p h.x h.q st data
  | .cmd kw idx =>
    match g.cmd? kw idx with
    | none => g.dropJob j.owner
    | some c =>
      let (g, n) := g.filterLast j
      let g := if c.op = opFILTER then g.updCmd kw idx (fun d => { d with detail := n }) else g
      (g.dropJob j.owner).cmdDone kw idx (if j.poisoned then stPOISONED else stOK)

/-- A scan whose next entry does not fit examines no further record (R186): its items that wait are gone. -/
def Gikan.dropScans (g : Gikan) (j : EngJob) : Gikan :=
  match j.engine with
  | none => g
  | some e =>
    let mine := fun (i : Item) => match i.work with
      | .job kw idx _ => j.owner == .cmd kw idx
      | .request id _ => j.owner == .request id
      | _ => false
    let x := g.unit ⟨.flt, e⟩
    g.setUnit ⟨.flt, e⟩ { x with queue := x.queue.filter (fun i => !mine i) }

/-- Whether an item of a scan may end: the records before its own have been examined. -/
def Gikan.scanTurn (g : Gikan) (o : Owner) (i : Nat) : Bool :=
  match g.jobOf o with
  | none => true
  | some j => match g.filterPlan j with
    | some (p, _) => j.scan.full || i + j.left == max 1 (ceilDiv p.count 4096)
    | none => true

/-- An item of a request or job ends: what it does is done; the last one ends the work, or forms a request's merges. -/
def Gikan.gfsItemEnd (g : Gikan) (o : Owner) (u : UnitId) (item : Nat) : Gikan :=
  match g.jobOf o with
  | none => g.blocksDone (o.work item)
  | some j =>
    let (g, j) := g.itemRun j u item
    let j := { j with left := if j.scan.full then 0 else j.left - 1 }
    let g := ((if j.scan.full then g.dropScans j else g).blocksDone (o.work item)).putJob j
    if j.left ≠ 0 then g
    else if j.merges.isEmpty then g.jobEnd j
    else match o with
      | .request _ => g.formMerges j
      | .cmd _ _ => g

/-- The merge items of a SCORE command. -/
def Gikan.mergeStart (g : Gikan) (k : CmdRef) : Gikan :=
  match g.jobOf (.cmd k.kw.val k.idx) with
  | some j => if j.left = 0 ∧ j.merges ≠ [] then g.formMerges j else g
  | none => g

/-- An uncorrectable error in an engine's buffers (R198): the item that its unit runs loses its output. -/
def Gikan.engineEcc (g : Gikan) (u : UnitId) : Gikan :=
  match g.runHead u with
  | none => g
  | some r =>
    let mark := fun (o : Owner) (i : Nat) =>
      match g.jobOf o with
      | some j => (g.putJob { j with lost := insNat j.lost i }).inc F.GFS_POISON_ECC 1
      | none => g
    match r.item.work with
    | .request id i => mark (.request id) i
    | .job kw idx i => mark (.cmd kw idx) i
    | _ => g

/-- GFS counters. -/
def gfsCounters : List Fld :=
  [F.GFS_GATHER_ROWS, F.GFS_GATHER_REUSED, F.GFS_GATHER_OUT_OUT_ROWS, F.GFS_GATHER_OUT_PADDING, F.GFS_FILTER_SCANNED, F.GFS_FILTER_PASSED,
   F.GFS_SCORE_TILES, F.GFS_SCORE_NAN_EXCLUDED, F.GFS_POISON_ROWS, F.GFS_POISON_RECORDS, F.GFS_POISON_KEYS, F.GFS_POISON_ECC,
   F.GFS_REFUSALS_COST, F.GFS_REFUSALS_SIZE, F.GFS_REFUSALS_FORMAT, F.GFS_REFUSALS_SELECT_BUSY, F.GFS_KEY_WAIT_EVENTS, F.GFS_KEY_WAIT_CYCLES_K]

def Gikan.wrGfsCtrl (g : Gikan) (w : RegW) : Gikan := if wrOne w F.GFS_CTRL_CLR_CNT then g.clear gfsCounters else g

/-- GFS_ACTIVE: jobs queued or running, requests executing, least free selection entries. -/
def Gikan.gfsJobs (g : Gikan) : Nat :=
  g.sub.kws.foldl (fun n k => n + (k.2.cmds.filter (fun c => (c.op == opGATHER || c.op == opFILTER || c.op == opSCORE) && c.st != .done)).length) 0
def Gikan.gfsRequests (g : Gikan) : Nat :=
  (g.gfs.jobs.filter (fun j => match j.owner with | .request _ => true | .cmd _ _ => false)).length

end Sys2Proof.Machine
end

