-- ==== Sys2Proof/Machine/PinQueue.lean ====
section
/-!
DEFINITION. The queues of the pin cores (R227 to R232): which core a sliver's work goes to, the items a core holds, and those that wait
outside a full queue.
-/

namespace Sys2Proof.Machine

/-- Pin cores of the Gikan. -/
abbrev pinCores : Nat := 2048

def Gikan.pinCore (g : Gikan) (c : Nat) : PinCore := g.pin.cores.getD c PinCore.idle

def Gikan.setPinCore (g : Gikan) (c : Nat) (p : PinCore) : Gikan :=
  { g with pin := { g.pin with cores := g.pin.cores.setD c PinCore.idle p } }

/-- The sliver of an address (R89). -/
def sliverOf (a : Nat) : Nat := addrOff a / 4096 % 2048

/-- Whether a core is fenced. -/
def Gikan.coreFenced (g : Gikan) (c : Nat) : Bool := g.bitOf (F.PIN_FENCED_FENCED (c / 64)) (c % 64)

/-- The acting owner of a core's work (R229); none when every core is fenced. -/
def Gikan.actingCore (g : Gikan) (c : Nat) : Option Nat :=
  ((List.range pinCores).map (fun i => (c + i) % pinCores)).find? (fun k => !g.coreFenced k)

/-- Items that a core holds, running ones included (R227). -/
def PinCore.load (p : PinCore) : Nat := p.queue.length + p.threads.length + p.ready.foldl (fun n r => n + r.2.length) 0

/-- Whether a core's queue is full. -/
def Gikan.coreFull (g : Gikan) (c : Nat) : Bool := decide (64 ≤ (g.pinCore c).load)

/-- Put an item into a core's queue, behind its items. -/
def Gikan.pinPush (g : Gikan) (c : Nat) (i : PinItem) : Gikan :=
  let p := g.pinCore c
  g.setPinCore c { p with queue := p.queue ++ [i] }

/-- Put a RUN instance or a CUSTOM chunk into a core's queue, or outside it while it is full or others wait for it (R232). -/
def Gikan.pinQueue (g : Gikan) (c : Nat) (i : PinItem) : Gikan :=
  if g.coreFull c || g.pin.outside.any (fun o => o.1 == c) then { g with pin := { g.pin with outside := g.pin.outside ++ [(c, i)] } }
  else g.pinPush c i

/-- Items outside enter the queue of a core as space frees. -/
def Gikan.pinEnter (g : Gikan) (c : Nat) : Gikan :=
  (g.pin.outside.filter (fun o => o.1 == c)).foldl (fun h o =>
    if h.coreFull c then h
    else ({ h with pin := { h.pin with outside := h.pin.outside.filter (fun x => !(x.1 == c && x.2.id == o.2.id)) } }).pinPush c o.2) g

/-- A number for a new item. -/
def Gikan.pinId (g : Gikan) : Nat × Gikan := (g.pin.nextId, { g with pin := { g.pin with nextId := g.pin.nextId + 1 } })

/-- The registered entry that an invocation of a compartment finds; `flag` names its kind (R234). -/
def Gikan.pinEntry (g : Gikan) (n cmpt : Nat) (flag : EntryPt → Bool) : Option EntryPt :=
  match g.pin.entries.get? n with
  | some e => if e.cmpt = cmpt && flag e then some e else none
  | none => none

end Sys2Proof.Machine
end

