-- ==== Sys2Proof/Machine/Reduce.lean ====
section
/-!
DEFINITION. Reduce streams and in-place update (chapter 8): the descriptor and its checks, contributions and rounds, the lanes' items, results
and partials, aborts, records and straggler posts, and the update programs.
-/

namespace Sys2Proof.Machine

/-! Descriptors (R155) -/

def downAt (b : List Byte) (i : Nat) : DownEntry :=
  let o := 128 + 24 * i
  ⟨field b o 8, field b (o + 8) 8, field b (o + 16) 2, field b (o + 18) 1⟩

/-- The descriptor that a command's body spells. -/
def descrOf (b : List Byte) : Descr where
  stream := field b 2 2
  relay := field b 5 1 == 1
  op := field b 6 1
  inFmt := field b 7 1
  accFmt := field b 8 1
  outFmt := field b 9 1
  stochastic := bit (field b 10 1) 0
  writeResult := bit (field b 10 1) 1
  update := field b 11 1
  chunkElems := field b 12 2
  contributors := field b 14 2
  firstRound := field b 16 4
  deadline := field b 20 2
  straggler := field b 22 2
  maxOpen := field b 24 1
  myIndex := field b 26 2
  parentStream := field b 28 2
  parentNode := field b 30 2
  slots := field b 32 4
  tableEntries := field b 36 4
  result := field b 40 8
  table := field b 48 8
  status := field b 56 8
  param := field b 64 8
  master := field b 72 8
  state1 := field b 80 8
  state2 := field b 88 8
  out := field b 96 8
  seed := field b 104 8
  entry := field b 112 2
  downFmt := field b 114 1
  parentWard := field b 120 8
  downs := (List.range (field b 25 1)).map (downAt b)

def setupAction (b : List Byte) : Nat := field b 4 1

/-- Codes of R157 that contributions may carry, and that an output may take (AXC2 codes aside). -/
def inCode (c : Nat) : Bool := decide (1 ≤ c ∧ c ≤ 0x0D)
def outCode (c : Nat) : Bool := decide (1 ≤ c ∧ c ≤ 0x0A) || c == 0x0C

/-- Bytes of one slot (R156). -/
def Descr.slotBytes (d : Descr) : Nat := 4 * d.chunkElems + 64 * ceilDiv d.contributors 512

abbrev storeHalf : Nat := 100663296

/-- Bytes of each half of the store that no stream has reserved (RED_STORE). -/
def Gikan.storeFree (g : Gikan) : Nat := storeHalf - g.red.streams.foldl (fun n s => n + s.2.d.slots * s.2.d.slotBytes) 0

/-- The extent of the current map that holds an address, homed here and of a compartment. -/
def Gikan.ownExtent (g : Gikan) (a cmpt : Nat) : Option Site :=
  match g.siteAt a with
  | some s => if s.e.cmpt = cmpt then some s else none
  | none => none

/-- Bytes from an address to the end of its extent. -/
def Gikan.extentRoom (g : Gikan) (a : Nat) : Nat :=
  match g.siteAt a with
  | some s => s.e.base + s.e.len - g.realAddr a
  | none => 0

/-- Zero but for the fields a destroy or rekey names (R155). -/
def setupRestBad (b : List Byte) : Bool :=
  field b 5 1 != 0 || (slice b 6 114).any (fun x => x != 0) || (setupAction b == 2 && field b 120 8 != 0) || (b.drop 128).any (fun x => x != 0)

/-- Cause 1 of R156. -/
def Gikan.setupUnsup (g : Gikan) (b : List Byte) : Bool :=
  let d := descrOf b
  let upd := d.update
  let seatedPlain := fun (a : Nat) => a == 0 || (match g.siteAt a with | some s => s.e.seated && s.e.comp == 0 | none => true)
  field b 0 2 != 1 || decide (1 < field b 5 1) || d.op == 0 || decide (6 < d.op) || decide (4 < upd) || !inCode d.inFmt ||
  !(d.accFmt == 0x01 || d.accFmt == 0x0C) || !(outCode d.outFmt || isAxc d.outFmt) ||
  !(if d.relay then outCode d.downFmt || isAxc d.downFmt else d.downFmt == 0) || bits (field b 10 1) 2 6 != 0 || field b 115 5 != 0 ||
  d.downs.any (fun e => decide (1 < e.mode)) || (List.range (field b 25 1)).any (fun i => field b (128 + 24 * i + 19) 5 != 0) ||
  (d.accFmt == 0x01) != decide (d.inFmt ≤ 0x0B) || (d.accFmt == 0x01 && decide (3 < d.op)) || (d.accFmt == 0x0C) != (d.outFmt == 0x0C) ||
  (if upd = 0 then isAxc d.outFmt || d.param != 0 || d.master != 0 || d.state1 != 0 || d.state2 != 0 || d.out != 0
   else d.relay || d.op != 1 || d.accFmt != 0x01 || !(d.outFmt == 1 || d.outFmt == 2 || d.outFmt == 3 || isAxc d.outFmt) || d.param == 0 ||
     (upd == 1 && (d.master == 0 || d.state1 == 0 || d.state2 == 0)) ||
     ((upd == 2 || upd == 3) && (d.master == 0 || d.state1 == 0 || d.state2 != 0)) ||
     !(seatedPlain d.master && seatedPlain d.state1 && seatedPlain d.state2))

/-- Cause 2 of R156. -/
def Gikan.setupAbsent (g : Gikan) (kw : Nat) (d : Descr) : Bool :=
  [d.result, d.table].any (fun a => (g.ownExtent a kw).isNone) ||
  [d.status, d.param, d.master, d.state1, d.state2, d.out].any (fun a => a != 0 && (g.ownExtent a kw).isNone)

/-- Cause 3 of R156. -/
def Gikan.setupRange (g : Gikan) (b : List Byte) : Bool :=
  let d := descrOf b
  let axc := isAxc d.outFmt || isAxc d.downFmt
  decide (1023 < d.stream) || decide (d.chunkElems < 32) || decide (4096 < d.chunkElems) || d.chunkElems % (if axc then 256 else 32) != 0 ||
  d.contributors == 0 || decide (16384 < d.contributors) || d.deadline == 0 || d.maxOpen == 0 || decide (4 < d.maxOpen) || decide (16 < field b 25 1) ||
  (if d.relay then decide (16383 < d.myIndex) || decide (1023 < d.parentStream) || !assignable d.parentNode
   else d.myIndex != 0 || d.parentStream != 0 || d.parentNode != 0 || d.parentWard != 0) ||
  d.slots == 0 || decide (524288 < d.slots) || d.tableEntries == 0 || decide (65536 < d.tableEntries) ||
  (if d.update = 4 then decide (4095 < d.entry) else d.entry != 0) ||
  d.downs.any (fun e => if e.mode = 0 then e.stream != 0 else decide (1023 < e.stream) || addrOff e.addr != 0) ||
  decide (4096 < fmtBytes d.inFmt d.chunkElems) || decide (4096 < fmtBytes d.outFmt d.chunkElems) ||
  (d.relay && decide (4096 < fmtBytes d.downFmt d.chunkElems)) ||
  decide (g.extentRoom d.table < 16 * d.tableEntries) || (d.status != 0 && decide (g.extentRoom d.status < 8192)) ||
  (d.param != 0 && decide (g.extentRoom d.param < 64))

/-- A live stream of a compartment. -/
def Gikan.liveStream (g : Gikan) (n : Nat) : Option Stream :=
  match g.red.streams.get? n with
  | some s => if s.dying then none else some s
  | none => none

/-- The first code of R156 that applies to a REDUCE_SETUP body; OK when none does. -/
def Gikan.setupCheck (g : Gikan) (kw : Nat) (b : List Byte) : Nat :=
  let a := setupAction b
  let d := descrOf b
  if a = 1 then
    if g.setupUnsup b then stUNSUP
    else if g.setupAbsent kw d then stNOTPRES
    else if g.setupRange b then stLENGTH
    else if (g.red.streams.get? d.stream).isSome || decide (g.storeFree < d.slots * d.slotBytes) then stBUSY
    else stOK
  else if a = 2 ∨ a = 3 then
    if field b 0 2 != 1 || setupRestBad b then stUNSUP
    else if 1023 < d.stream then stLENGTH
    else match g.liveStream d.stream with
      | none => stNOTPRES
      | some s => if s.cmpt ≠ kw then stNOTPRES else if a = 3 ∧ !s.d.relay then stUNSUP else stOK
  else stUNSUP

/-! Streams, rounds, chunks -/

def Gikan.setStream (g : Gikan) (n : Nat) (s : Stream) : Gikan := { g with red := { g.red with streams := g.red.streams.put n s } }

/-- A round that the stream keeps, by its number. -/
def Stream.round (s : Stream) (r : Nat) : Option Round := s.rounds.find? (fun x => x.num == r)

def Stream.putRound (s : Stream) (r : Round) : Stream := { s with rounds := s.rounds.map (fun x => if x.num == r.num then r else x) }

/-- Change a round of a stream. -/
def Gikan.updRound (g : Gikan) (n r : Nat) (f : Round → Round) : Gikan :=
  match g.red.streams.get? n with
  | some s => g.setStream n { s with rounds := s.rounds.map (fun x => if x.num == r then f x else x) }
  | none => g

def Chunk.empty : Chunk := ⟨.open, [], [], [], [], false, [], 0, 0⟩

/-- Change a chunk of a round. -/
def Gikan.updChunk (g : Gikan) (n r c : Nat) (f : Chunk → Chunk) : Gikan :=
  g.updRound n r (fun x => { x with chunks := x.chunks.upd c f })

/-- A stream, its round and chunk. -/
def Gikan.chunkAt (g : Gikan) (n r c : Nat) : Option (Stream × Round × Chunk) :=
  match g.red.streams.get? n with
  | none => none
  | some s => match s.round r with
    | none => none
    | some x => match x.chunks.get? c with
      | none => none
      | some k => some (s, x, k)

/-- Chunks of a round of `count` elements; elements of chunk `c`; its first element. -/
def Descr.chunksOf (d : Descr) (count : Nat) : Nat := ceilDiv count d.chunkElems
def Descr.elems (d : Descr) (count c : Nat) : Nat := min d.chunkElems (count - c * d.chunkElems)
def Descr.first (d : Descr) (base c : Nat) : Nat := base + c * d.chunkElems

/-- Place of element `e` in bytes (R162). -/
def outOffset (fmt e : Nat) : Nat :=
  if isMx fmt then e / 32 * (1 + 4 * elemBits fmt) else if isAxc fmt then e / 256 * (16 + 32 * elemBits fmt) else fmtBytes fmt e

/-- Slots of a stream held on a die. -/
def Stream.slotsUsed (s : Stream) (die : Nat) : Nat :=
  s.rounds.foldl (fun n r => n + (r.chunks.filter (fun c => c.1 % 2 == die && c.2.st != .ended)).length) 0 +
  (s.results.filter (fun x => x.chunk % 2 == die)).length

/-- Open rounds of a stream. -/
def Stream.openCount (s : Stream) : Nat := (s.rounds.filter (fun r => r.st == .open)).length

/-- The lane of a chunk (R162, R346): the first one above that is not fenced takes a fenced lane's work. -/
def Gikan.laneOf (g : Gikan) (stream c : Nat) : Nat :=
  let die := c % 2
  let l := (c / 2 + stream) % 64
  64 * die + ((((List.range 64).map (fun i => (l + i) % 64)).find? (fun k => !g.fenced ⟨.red, 64 * die + k⟩)).getD l)

/-- What a round number means to a stream (R163): the k-th round not yet opened, a round in history or still open, or one before it. -/
inductive RoundKind where
  | fresh (k : Nat)
  | known (r : Round)
  | stale

def Stream.kindOf (s : Stream) (r : Nat) : RoundKind :=
  let d := (r + 2 ^ 32 - s.next) % 2 ^ 32
  if d < 2 ^ 31 then .fresh (d + 1)
  else match s.round r with
    | some x => if x.st = .open || decide ((s.next + 2 ^ 32 - 1 - r) % 2 ^ 32 < 256) then .known x else .stale
    | none => .stale

/-! Opening (R162, R163) -/

/-- A round's entry of the table: base and count of its elements; zeros where it cannot be read. -/
def Gikan.roundEntry (g : Gikan) (d : Descr) (r : Nat) : Gikan × Nat × Nat :=
  let a := d.table + 16 * ((r + 2 ^ 32 - d.firstRound) % 2 ^ 32 % d.tableEntries)
  match g.siteAt a with
  | none => (g, 0, 0)
  | some s =>
    let (g, b, bad) := g.engRead s (g.realAddr a) 16
    if bad then (g, 0, 0) else (g, field b 0 8, field b 8 4)

/-- Whether an entry may be opened: its range, its multiples, the ends of the extents, and room for whole rounds (R162, R163). -/
def Gikan.entryFits (g : Gikan) (d : Descr) (base count : Nat) : Bool :=
  let mx := isMx d.inFmt || isMx d.outFmt || isMx d.downFmt
  let axc := isAxc d.outFmt || isAxc d.downFmt
  let ends := fun (a n : Nat) => a == 0 || decide (n ≤ g.extentRoom a)
  count != 0 && (!mx || (base % 32 == 0 && count % 32 == 0)) && (!axc || base % 256 == 0) &&
  (!(d.writeResult && !d.relay && d.update == 0) || ends d.result (fmtBytes d.outFmt (base + count))) &&
  (d.update == 0 ||
    (ends d.master (4 * (base + count)) && ends d.state1 (4 * (base + count)) && ends d.state2 (4 * (base + count)) &&
     ends d.out (fmtBytes d.outFmt (base + count)) && decide (ceilDiv (d.chunksOf count) 2 * d.maxOpen ≤ d.slots)))

/-- The entries of rounds from `r` on; none when one may not be opened. -/
def Gikan.readEntries (g : Gikan) (d : Descr) : Nat → Nat → Gikan × Option (List (Nat × Nat))
  | 0, _ => (g, some [])
  | k + 1, r =>
    let (g, base, count) := g.roundEntry d r
    if !g.entryFits d base count then (g, none) else
    let (g, es) := g.readEntries d k ((r + 1) % 2 ^ 32)
    (g, es.map (fun l => (base, count) :: l))

/-- A round as it opens; with an update program its chunks hold their slots from here (R167). -/
def Gikan.newRound (g : Gikan) (d : Descr) (r : Nat) (e : Nat × Nat) : Round :=
  ⟨r, e.1, e.2, g.tickNo, .open, if d.update = 0 then [] else (List.range (d.chunksOf e.2)).map (fun c => (c, Chunk.empty)), [], [], false,
   0, 0, false, false, 0, false, []⟩

/-! Lane items (R166) -/

/-- Queue an item of a chunk at its lane. -/
def Gikan.queueLane (g : Gikan) (n c cmpt cost : Nat) (w : Work) (sample : Option Nat) : Gikan :=
  g.queueItem ⟨.red, g.laneOf n c⟩ ⟨cost, w, cmpt, sample⟩

/-- The contributions that the next add item of a chunk takes, and its cost. -/
def addGroup (q : List Contrib) : List Contrib := q.take 16
def addCost (q : List Contrib) : Nat := ceilDiv ((addGroup q).foldl (fun n c => n + c.payload.length) 0) 64 + 32

/-- Change every queued item that a test picks, on every unit. -/
def Gikan.mapQueued (g : Gikan) (f : Item → Option Item) : Gikan :=
  g.eng.units.foldl (fun h e =>
    let u := unitOfKey e.1
    h.setUnit u { h.unit u with queue := (h.unit u).queue.filterMap f }) g

/-- Keep the chunk's waiting add item in step with what is queued: one while anything is, with the cost of its group. -/
def Gikan.syncAdd (g : Gikan) (n r c : Nat) : Gikan :=
  match g.chunkAt n r c with
  | none => g
  | some (s, _, k) =>
    let w := Work.add n r c
    let waits := g.eng.units.any (fun e => e.2.queue.any (fun i => i.work == w))
    if k.queued.isEmpty then g.mapQueued (fun i => if i.work = w then none else some i)
    else if waits then g.mapQueued (fun i => some (if i.work = w then { i with cost := addCost k.queued } else i))
    else g.queueLane n c s.cmpt (addCost k.queued) w none

/-- A lane has admitted an item: an add item is formed from what is queued. -/
def Gikan.redAdmitted (g : Gikan) (w : Work) : Gikan :=
  match w with
  | .add n r c =>
    (g.updChunk n r c (fun k => { k with queued := k.queued.drop 16, adding := k.adding ++ [addGroup k.queued] })).syncAdd n r c
  | _ => g

/-- Contributions queued at a lane. -/
def Gikan.laneLoad (g : Gikan) (lane : Nat) : Nat :=
  g.red.streams.foldl (fun n s => s.2.rounds.foldl (fun n r => r.chunks.foldl (fun n c =>
    if c.2.queued.isEmpty then n else if g.laneOf s.1 c.1 = lane then n + c.2.queued.length else n) n) n) 0

/-- The draw of R347 for a chunk whose payloads and accumulator would be copied: past 1 MiB of payload it is skipped (R348). -/
def Gikan.chunkSample (g : Gikan) (d : Descr) (elems : Nat) : Option Nat × Gikan :=
  let payload := d.contributors * fmtBytes d.inFmt elems
  match g.drawSample (payload + 4 * elems) with
  | (some n, h) => if 1048576 < payload then (none, h.inc F.FLT_CHECK_STATS_SKIPPED 1) else (some n, h)
  | r => r

/-! Elements (R160) -/

/-- The elements of a payload in the accumulator's format. -/
def accElems (d : Descr) (b : List Byte) (n : Nat) : List Nat :=
  if d.accFmt = 0x0C then (intElems d.inFmt b n).map (fun i => toBits i 32) else (fpElems d.inFmt b n).map toF32

/-- Combine two elements. -/
def combine (d : Descr) (a b : Nat) : Nat :=
  if d.accFmt = 0x0C then
    match d.op with
    | 1 => (a + b) % 2 ^ 32
    | 2 => toBits (max (sext a 32) (sext b 32)) 32
    | 3 => toBits (min (sext a 32) (sext b 32)) 32
    | 4 => a &&& b
    | 5 => a ||| b
    | _ => a ^^^ b
  else
    match d.op with
    | 1 => f32Add a b
    | 2 => toF32 ((f32 a).max (f32 b))
    | _ => toF32 ((f32 a).min (f32 b))

/-- Add a payload to an accumulator; the first one fills it. -/
def accAdd (d : Descr) (acc : List Nat) (b : List Byte) (n : Nat) : List Nat :=
  let xs := accElems d b n
  if acc.isEmpty then xs else (acc.zip xs).map (fun p => combine d p.1 p.2)

/-- `n` draws of a generator. -/
def randList : Nat → Nat → List Nat
  | 0, _ => []
  | n + 1, s => Config.randBits s :: randList n (Config.randNext s)

/-- The random bits of a chunk's elements, where the stream rounds stochastically. -/
def Descr.rnd (d : Descr) (r c n : Nat) : Nat → Option Nat :=
  if d.stochastic then
    let l := randList n (Config.randSeed d.seed d.stream r c)
    fun j => l[j]?
  else fun _ => none

/-- FP32 or INT32 codes in the output format. -/
def outBytes (d : Descr) (r c : Nat) (xs : List Nat) : List Byte :=
  if d.accFmt = 0x0C then xs.flatMap (leBytes 4) else fpBytes d.outFmt (xs.map f32) (d.rnd r c xs.length)

/-! Records and posts (R170, R172) -/

/-- Post one straggler; a full queue drops it. -/
def Gikan.post (g : Gikan) (n r : Nat) (p : Post) : Gikan :=
  if 64 ≤ g.red.posts.length then g.inc F.RED_EVENTS2_POST_DROPS 1
  else ({ g with red := { g.red with posts := g.red.posts ++ [p] } }).updRound n r (fun x => { x with stragglers := true })

/-- Contributors with at least one chunk missing. -/
def missingOf (d : Descr) (x : Round) : List Nat :=
  if x.chunks.length < d.chunksOf x.count then List.range d.contributors
  else (List.range d.contributors).filter (fun w => x.chunks.any (fun c => !c.2.bits.contains w))

/-- Write a round's record, unless the stream keeps none. -/
def Gikan.writeRecord (g : Gikan) (n r : Nat) : Gikan :=
  match g.red.streams.get? n with
  | none => g
  | some s => match s.round r with
    | none => g
    | some x =>
      let code := if x.status ≠ stOK then x.status else
        ((x.chunks.map (fun c => c.2.code)).find? (fun c => c != stOK)).getD stOK
      let g := g.updRound n r (fun y => { y with recorded := true, chunks := [], arrived := [] })
      let a := s.d.status + 32 * ((r + 2 ^ 32 - s.d.firstRound) % 2 ^ 32 % 256)
      if s.d.status = 0 then g else
      match g.siteAt a with
      | none => g
      | some t =>
        let rec_ := leBytes 4 r ++ leBytes 1 code ++ leBytes 1 ((if x.bcast then 1 else 0) + (if x.stragglers then 2 else 0)) ++ leBytes 1 x.cause ++
          leBytes 1 0 ++ leBytes 2 (min x.missing 65535) ++ zeros 6 ++ leBytes 8 x.openTick ++ leBytes 8 g.tickNo
        g.engWrite t (g.realAddr a) rec_

/-- Whether the last work of a committed round has ended: its chunks', and, at a relay with down entries, the sending on of each chunk's result.
DEDUCED: a result is work of its round until it has gone down (assumption 60). -/
def Stream.workDone (s : Stream) (x : Round) : Bool :=
  x.chunks.all (fun c => c.2.st == .ended) && s.results.all (fun y => y.round != x.num) &&
  (!s.d.relay || s.d.downs.isEmpty || (List.range (s.d.chunksOf x.count)).all (fun c => x.passed.contains c))

/-- A committed round whose last work has ended gets its record. -/
def Gikan.roundCheck (g : Gikan) (n r : Nat) : Gikan :=
  match g.red.streams.get? n with
  | none => g
  | some s => match s.round r with
    | none => g
    | some x => if x.st = .committed && !x.recorded && s.workDone x then g.writeRecord n r else g

/-- Open rounds in order; history keeps the 256 opened last, and whatever has not ended. A relay's round that leaves history takes no more results,
so that it gets the record it still lacks. -/
def Gikan.openRounds (g : Gikan) (n : Nat) (s : Stream) (es : List (Nat × Nat)) : Gikan :=
  let s := es.foldl (fun (s : Stream) e =>
    { s with rounds := s.rounds ++ [g.newRound s.d s.next e], next := (s.next + 1) % 2 ^ 32 }) s
  let old := s.rounds.length - 256
  let late := (s.rounds.take old).filter (fun x => x.st == .committed && !x.recorded && x.chunks.all (fun c => c.2.st == .ended))
  let g := late.foldl (fun h x => h.writeRecord n x.num) (g.setStream n s)
  match g.red.streams.get? n with
  | none => g
  | some s => g.setStream n { s with rounds := s.rounds.zipIdx.filterMap (fun r => if r.2 < old && r.1.recorded then none else some r.1) }

/-- A chunk's work has ended: its slot is free. -/
def Gikan.chunkEnd (g : Gikan) (n r c : Nat) : Gikan :=
  (g.updChunk n r c (fun k => { k with st := .ended, acc := [], out := [] })).roundCheck n r

/-- The record takes a status, unless it holds one. -/
def Round.note (x : Round) (status cause : Nat) : Round := if x.status = stOK then { x with status := status, cause := cause } else x

/-! Aborts (R171) -/

/-- Causes of R170. -/
abbrev causeDeadline : Nat := 1
abbrev causeSoftware : Nat := 2
abbrev causeParent : Nat := 3
abbrev causeDestroy : Nat := 4
abbrev causePoison : Nat := 5

/-- Whether an item is work of a round of a stream, or of any of its rounds. -/
def workOf (n : Nat) (r : Option Nat) (w : Work) : Bool :=
  let is := fun (m s : Nat) => m == n && (match r with | some k => k == s | none => true)
  match w with
  | .add m s _ => is m s
  | .output m s _ => is m s
  | .update m s _ => is m s
  | .relayDown m s _ => is m s
  | _ => false

/-- Answer ROUND_ABORT to contributions that have not been added. -/
def Gikan.abortAnswers (g : Gikan) (cs : List Contrib) : Gikan :=
  cs.foldl (fun h c =>
    match h.heldById c.held with
    | none => h
    | some q =>
      let (p, h) := h.engPort
      ((h.release c.held).inc F.RED_EVENTS2_ABORT_ANSWERS 1).answer p q.x q.q stABORT []) g

/-- Partials of a round that wait to be sent again. -/
def Gikan.dropPartials (g : Gikan) (n : Nat) (r : Option Nat) : Gikan :=
  let keep := fun (c : Consumer) => match c with
    | .partialUp m s _ => !(m == n && (match r with | some k => k == s | none => true))
    | _ => true
  { g with req := { g.req with again := g.req.again.filter (fun a => keep a.consumer), waiting := g.req.waiting.filter (fun a => keep a.consumer) } }

/-- Abort an open round. -/
def Gikan.abortRound (g : Gikan) (n r cause : Nat) : Gikan :=
  match g.red.streams.get? n with
  | none => g
  | some s => match s.round r with
    | none => g
    | some x =>
      if x.st ≠ .open then g else
      let miss := missingOf s.d x
      let cs := x.chunks.flatMap (fun c => c.2.adding.flatten ++ c.2.queued)
      let s := { s with results := s.results.filter (fun y => y.round != r) }
      let s := s.putRound { x with st := .aborted, status := stABORT, cause := cause, missing := miss.length, chunks := [] }
      let g := (g.setStream n s).mapQueued (fun i => if workOf n (some r) i.work then none else some i)
      let g := (g.dropPartials n (some r)).abortAnswers cs
      let g := (g.inc F.RED_ROUNDS_ABORTED 1).inc (match cause with
        | 1 => F.RED_ABORT_CAUSE_DEADLINE
        | 2 => F.RED_ABORT_CAUSE_SOFTWARE
        | 4 => F.RED_ABORT_CAUSE_DESTROY
        | _ => F.RED_ABORT_CAUSE_PARENT_POISON) 1
      let g := if s.d.straggler = 0 then g else
        miss.foldl (fun h w => h.post n r ⟨r, n, w, true, 0, min miss.length 65535⟩) g
      g.writeRecord n r

/-- A round is aborted while it is open; the record of one that has committed takes ROUND_ABORT (R168). -/
def Gikan.parentLost (g : Gikan) (n r c : Nat) : Gikan :=
  match g.red.streams.get? n with
  | none => g
  | some s => match s.round r with
    | none => g
    | some x =>
      if x.st = .open then g.abortRound n r causeParent
      else if x.st = .committed then (g.updRound n r (fun y => y.note stABORT causeParent)).chunkEnd n r c
      else g

/-! Sends (R168, R169) -/

/-- A CONTRIB of the stream's own. -/
def contribReq (cmpt node subop ward stream contributor r c : Nat) (data : List Byte) : Req :=
  ⟨ownHdr tyCONTRIB 4 cmpt (mkAddr node 0) data.length subop ward,
   leBytes 2 stream ++ leBytes 2 contributor ++ leBytes 4 r ++ leBytes 4 c ++ zeros 4, data⟩

/-- Issue a request from one of the engine ports. -/
def Gikan.engIssue (g : Gikan) (q : Req) (c : Consumer) : Gikan :=
  let (p, g) := g.engPort
  g.issue p q c

/-- The partial of a chunk goes to the parent (R168). -/
def Gikan.sendPartial (g : Gikan) (s : Stream) (r c : Nat) (data : List Byte) : Gikan :=
  let d := s.d
  g.engIssue (contribReq s.cmpt d.parentNode d.outFmt d.parentWard d.parentStream d.myIndex r c data) (.partialUp d.stream r c)

/-- The bytes of a chunk go to each down entry in order. -/
def Gikan.sendDowns (g : Gikan) (s : Stream) (x : Round) (c fmt : Nat) (data : List Byte) : Gikan :=
  let d := s.d
  let off := outOffset fmt (d.first x.base c) - outOffset fmt x.base
  d.downs.zipIdx.foldl (fun h e =>
    let q := if e.1.mode = 0 then (⟨ownHdr tyWRITE 3 s.cmpt ((e.1.addr + off) % 2 ^ 64) data.length 0 e.1.ward, [], data⟩ : Req)
      else contribReq s.cmpt (addrNode e.1.addr) 0x40 e.1.ward e.1.stream 0 x.num c data
    h.engIssue q (.down d.stream x.num c e.2)) g

/-- A chunk's output goes down; with no down entry the chunk ends. -/
def Gikan.chunkDown (g : Gikan) (s : Stream) (x : Round) (c : Nat) (data : List Byte) : Gikan :=
  if s.d.downs.isEmpty then g.chunkEnd s.d.stream x.num c
  else (g.updChunk s.d.stream x.num c (fun k => { k with st := .sent, acc := [], downsLeft := s.d.downs.length })).sendDowns s x c s.d.outFmt data

/-- A chunk whose output is poisoned is not sent down; the record takes POISONED (R169): with CUSTOM, as the code of that chunk (R170). -/
def Gikan.chunkPoisoned (g : Gikan) (n r c : Nat) : Gikan :=
  let custom := match g.red.streams.get? n with | some s => s.d.update == 4 | none => false
  (if custom then g.updChunk n r c (fun k => { k with code := stPOISONED }) else g.updRound n r (fun x => x.note stPOISONED 0)).chunkEnd n r c

/-- Poison the result of a chunk where it is written. -/
def Gikan.poisonAt (g : Gikan) (a n : Nat) : Gikan :=
  match g.siteAt a with
  | some t => (g.cohTouch t (g.realAddr a) n true).storePoison t (g.realAddr a) n
  | none => g

/-- Write bytes at an address of the stream's extents. -/
def Gikan.writeAt (g : Gikan) (a : Nat) (data : List Byte) : Gikan :=
  match g.siteAt a with
  | some t => g.engWrite t (g.realAddr a) data
  | none => g

/-! Commit (R165, R172 to R174) -/

/-- Bytes of stack traffic of an element under a program (R173). -/
def updateBytes (update : Nat) : Nat := if update = 1 then 24 else 16

/-- Stragglers at commit. -/
def Gikan.commitPosts (g : Gikan) (s : Stream) (x : Round) : Gikan :=
  if s.d.straggler = 0 then g else
  let t0 := x.arrived.foldl (fun m a => min m a.2) (x.arrived.foldl (fun m a => max m a.2) 0)
  x.arrived.foldl (fun h a =>
    if t0 + s.d.straggler < a.2 then h.post s.d.stream x.num ⟨x.num, s.d.stream, a.1, false, min (a.2 - t0) 65535, 0⟩ else h) g

/-- The pin-core item of a CUSTOM chunk, or its end at once when no core can take it or it has no kernel (R173, R229, R234). -/
def Gikan.customItem (g : Gikan) (s : Stream) (x : Round) (c : Nat) : Gikan :=
  let d := s.d
  let first := d.first x.base c
  let fail := fun (st : Nat) => (g.updChunk d.stream x.num c (fun k => { k with code := st })).chunkEnd d.stream x.num c
  match g.pinEntry d.entry s.cmpt EntryPt.custom with
  | none => fail stNOTPRES
  | some e =>
    match g.actingCore (sliverOf (d.master + 4 * first)) with
    | none => fail stBUSY
    | some core =>
      let (id, g) := g.pinId
      (g.updChunk d.stream x.num c (fun k => { k with st := .update })).pinQueue core
        ⟨id, d.entry, e, s.cmpt, .custom d.stream x.num c first (d.elems x.count c)⟩

/-- Hand a chunk of a committed round to its update. -/
def Gikan.updateItem (g : Gikan) (s : Stream) (x : Round) (c : Nat) : Gikan :=
  let d := s.d
  let n := d.elems x.count c
  let bad := (x.chunks.get? c).any (fun k => k.poisoned)
  if d.update = 4 then
    -- no kernel may use a poisoned sum as a number: what it would have written at OUT is poisoned (R99)
    (if bad then (if d.out = 0 then g else g.poisonAt (d.out + outOffset d.outFmt (d.first x.base c)) (fmtBytes d.outFmt n)).chunkPoisoned d.stream x.num c
     else g.customItem s x c)
  else
    let cost := ceilDiv (n * updateBytes d.update + fmtBytes d.outFmt n) 256 + 64
    let (sm, g) := g.chunkSample d n
    (g.updChunk d.stream x.num c (fun k => { k with st := .update })).queueLane d.stream c s.cmpt cost (.update d.stream x.num c) sm

/-- The round commits: stragglers, the parameter record, and the updates in chunk order. -/
def Gikan.commitRound (g : Gikan) (n r : Nat) : Gikan :=
  match g.red.streams.get? n with
  | none => g
  | some s => match s.round r with
    | none => g
    | some x =>
      let g := (g.updRound n r (fun y => { y with st := .committed })).inc F.RED_ROUNDS_COMMITTED 1
      let g := g.commitPosts s x
      let d := s.d
      let cs := x.chunks.map (fun c => c.1)
      if d.update = 0 then g.roundCheck n r else
      let (g, b, bad) := match g.siteAt d.param with
        | some t => g.engRead t (g.realAddr d.param) 64
        | none => (g, zeros 64, true)
      if bad then cs.foldl (fun h c => h.chunkPoisoned n r c) g
      else cs.foldl (fun h c => h.updateItem s x c) (g.updRound n r (fun y => { y with param := b }))

/-- A chunk that has all its contributions: its output item, or its wait for the commit; the last one commits the round. -/
def Gikan.chunkComplete (g : Gikan) (n r c : Nat) : Gikan :=
  match g.chunkAt n r c with
  | none => g
  | some (s, x, k) =>
    let d := s.d
    if k.st ≠ .open || k.bits.length < d.contributors || !k.queued.isEmpty || !k.adding.isEmpty then g
    else
      let elems := d.elems x.count c
      let g := if d.update ≠ 0 then g.updChunk n r c (fun k => { k with st := .complete })
        else
          let (sm, g) := g.chunkSample d elems
          (g.updChunk n r c (fun k => { k with st := .output })).queueLane n c s.cmpt (ceilDiv (4 * elems) 64 + 32) (.output n r c) sm
      match g.red.streams.get? n with
      | none => g
      | some s => match s.round r with
        | none => g
        | some x =>
          if x.st = .open && (x.chunks.filter (fun e => e.2.st != .open)).length == d.chunksOf x.count then g.commitRound n r else g

/-! Ends of lane items -/

/-- Whether a pin-core item is a CUSTOM chunk of a stream. -/
def PinItem.customOf (i : PinItem) (n : Nat) : Bool := match i.by_ with | .custom m _ _ _ _ => m == n | _ => false

/-- Whether any item of a stream is admitted, on a lane or as a kernel. -/
def Gikan.streamRuns (g : Gikan) (n : Nat) : Bool :=
  g.eng.units.any (fun e => e.2.run.any (fun i => workOf n none i.item.work)) ||
  g.pin.cores.any (fun c => c.2.threads.any (fun t => t.2.item.customOf n) || c.2.ready.any (fun r => r.2.any (fun i => i.1.customOf n)))

/-- A destroyed stream is gone once its running items have ended; the command that waits completes. -/
def Gikan.streamGone (g : Gikan) (n : Nat) : Gikan :=
  match g.red.streams.get? n with
  | none => g
  | some s =>
    if !s.dying || g.streamRuns n then g else
    let g := { g with red := { g.red with streams := g.red.streams.del n } }
    match s.by_ with
    | some (kw, idx) => g.cmdDone kw idx stOK
    | none => g

/-- The item that a lane ends, if it is of the kind that the row names. -/
def Gikan.laneEnds (g : Gikan) (lane : Nat) (kind : Work → Bool) (body : Gikan → Work → Gikan) : Gikan :=
  let u : UnitId := ⟨.red, lane⟩
  match g.runHead u with
  | none => g
  | some i =>
    if g.hasp || !kind i.item.work then g else
    g.itemStep (itemKey u i.item.work) (fun g =>
      let h := body (g.unitFinish u g.cycleNow) i.item.work
      match i.item.work with
      | .add n _ _ => h.streamGone n
      | .output n _ _ => h.streamGone n
      | .update n _ _ => h.streamGone n
      | .relayDown n _ _ => h.streamGone n
      | _ => h)

/-- An add item's contributions are in the accumulator, and each is answered OK. -/
def Gikan.addEnd (g : Gikan) (n r c : Nat) : Gikan :=
  match g.chunkAt n r c with
  | none => g
  | some (s, x, k) =>
    match k.adding with
    | [] => g
    | grp :: rest =>
      let elems := s.d.elems x.count c
      let acc := grp.foldl (fun a p => accAdd s.d a p.payload elems) k.acc
      let g := g.updChunk n r c (fun k => { k with acc := acc, adding := rest })
      let g := grp.foldl (fun h p =>
        match h.heldById p.held with
        | none => h
        | some q =>
          let (port, h) := h.engPort
          (h.release p.held).answer port q.x q.q stOK []) g
      g.chunkComplete n r c

def Gikan.addItemEnd (g : Gikan) (lane : Nat) : Gikan :=
  g.laneEnds lane (fun w => match w with | .add _ _ _ => true | _ => false)
    (fun h w => match w with | .add n r c => h.addEnd n r c | _ => h)

/-- An output item ends (R168, R169). -/
def Gikan.outputEnd (g : Gikan) (n r c : Nat) : Gikan :=
  match g.chunkAt n r c with
  | none => g
  | some (s, x, k) =>
    let d := s.d
    let elems := d.elems x.count c
    let data := outBytes d r c k.acc
    if d.relay then
      if k.poisoned then (if x.st = .open then g.abortRound n r causePoison else g.chunkPoisoned n r c)
      else (g.updChunk n r c (fun k => { k with st := .sent, acc := [] })).sendPartial s r c data
    else
      let a := d.result + outOffset d.outFmt (d.first x.base c)
      if k.poisoned then (if d.writeResult then g.poisonAt a (fmtBytes d.outFmt elems) else g).chunkPoisoned n r c
      else (if d.writeResult then g.writeAt a data else g).chunkDown s x c data

def Gikan.outputItemEnd (g : Gikan) (lane : Nat) : Gikan :=
  g.laneEnds lane (fun w => match w with | .output _ _ _ => true | _ => false)
    (fun h w => match w with | .output n r c => h.outputEnd n r c | _ => h)

/-! Update programs (R174, R175) -/

def fNeg (a : Nat) : Nat := toF32 (f32 a).neg
abbrev f32One : Nat := 0x3F800000

/-- The sign of a value as FP32: sign(0) = 0. -/
def f32Sign (a : Nat) : Nat :=
  match f32 a with
  | .nan => 0x7FC00000
  | v => if v.isZero then 0 else if v.sign then 0xBF800000 else f32One

/-- a ** t of R175, t at least 1: the exact power rounded once to nearest even. DEDUCED: it is one of the operations that the rule rounds
(assumption 62). -/
def f32Pow (a t : Nat) : Nat :=
  match f32 a with
  | .nan => toF32 .nan
  | .inf neg => toF32 (.inf (neg && t % 2 == 1))
  | .fin neg m e => toF32 (.fin (neg && t % 2 == 1) (m ^ t) (e * t))

/-- New w, m and v of one element. -/
def updateElem (update : Nat) (p : List Byte) (sum w m v : Nat) : Nat × Nat × Nat :=
  let lr := field p 0 4
  let b1 := field p 4 4
  let b2 := field p 8 4
  let eps := field p 12 4
  let wd := field p 16 4
  let g := f32Mul sum (field p 20 4)
  let t := max 1 (field p 24 4)
  match update with
  | 1 =>
    let m1 := f32Add (f32Mul b1 m) (f32Mul (f32Sub f32One b1) g)
    let v1 := f32Add (f32Mul b2 v) (f32Mul (f32Mul (f32Sub f32One b2) g) g)
    let mh := f32Div m1 (f32Sub f32One (f32Pow b1 t))
    let vh := f32Div v1 (f32Sub f32One (f32Pow b2 t))
    let step := f32Add (f32Div mh (f32Add (f32Sqrt vh) eps)) (f32Mul wd w)
    (f32Sub w (f32Mul lr step), m1, v1)
  | 2 =>
    let m1 := f32Add (f32Add (f32Mul b1 m) g) (f32Mul wd w)
    (f32Sub w (f32Mul lr m1), m1, v)
  | _ =>
    let u := f32Add (f32Mul b1 m) (f32Mul (f32Sub f32One b1) g)
    let w1 := f32Sub w (f32Mul lr (f32Add (f32Sign u) (f32Mul wd w)))
    (w1, f32Add (f32Mul b2 m) (f32Mul (f32Sub f32One b2) g), v)

/-- Read `n` FP32 elements: their codes, and which of them touch a poisoned unit. -/
def Gikan.readF32s (g : Gikan) (a n : Nat) : Gikan × List Nat × List Bool :=
  match g.siteAt a with
  | none => (g, List.replicate n 0, List.replicate n (a != 0))
  | some s =>
    let ra := g.realAddr a
    let (g, b, bad) := g.engRead s ra (4 * n)
    (g, (List.range n).map (fun j => field b (4 * j) 4),
     (List.range n).map (fun j => bad && (s.units (ra + 4 * j) 4).any (fun u => !g.clean.contains u)))

/-- Write FP32 elements, those of a list poisoned. -/
def Gikan.writeF32s (g : Gikan) (a : Nat) (xs : List Nat) (bad : List Bool) : Gikan :=
  let g := g.writeAt a (xs.flatMap (leBytes 4))
  bad.zipIdx.foldl (fun h b => if b.1 then h.poisonAt (a + 4 * b.2) 4 else h) g

/-- An update item ends: master and state take their new values, the working weights are written and go down (R175). -/
def Gikan.updateEnd (g : Gikan) (n r c : Nat) : Gikan :=
  match g.chunkAt n r c with
  | none => g
  | some (s, x, k) =>
    let d := s.d
    let elems := d.elems x.count c
    let first := d.first x.base c
    let two := d.update = 1
    let (g, ws, wb) := g.readF32s (d.master + 4 * first) elems
    let (g, ms, mb) := g.readF32s (d.state1 + 4 * first) elems
    let (g, vs, vb) := if two then g.readF32s (d.state2 + 4 * first) elems else (g, List.replicate elems 0, List.replicate elems false)
    let at_ := fun (l : List Bool) (j : Nat) => l.getD j false
    let res := (List.range elems).map (fun j => updateElem d.update x.param (k.acc.getD j 0) (ws.getD j 0) (ms.getD j 0) (vs.getD j 0))
    let mBad := (List.range elems).map (fun j => k.poisoned || at_ mb j || (d.update == 2 && at_ wb j))
    let vBad := (List.range elems).map (fun j => k.poisoned || at_ vb j)
    let wBad := (List.range elems).map (fun j => k.poisoned || at_ wb j || at_ mb j || at_ vb j)
    let g := g.writeF32s (d.master + 4 * first) (res.map (fun e => e.1)) wBad
    let g := g.writeF32s (d.state1 + 4 * first) (res.map (fun e => e.2.1)) mBad
    let g := if two then g.writeF32s (d.state2 + 4 * first) (res.map (fun e => e.2.2)) vBad else g
    let poisoned := wBad.any (fun b => b)
    if d.out = 0 then (if poisoned then g.chunkPoisoned n r c else g.chunkEnd n r c)
    else
      let data := outBytes d r c (res.map (fun e => e.1))
      let a := d.out + outOffset d.outFmt first
      let g := g.writeAt a data
      if !poisoned then g.chunkDown s x c data
      else
        let g := if isAxc d.outFmt then
            (List.range (ceilDiv elems 256)).foldl (fun h b =>
              if ((wBad.drop (256 * b)).take 256).any (fun y => y) then
                h.poisonAt (a + b * (16 + 32 * elemBits d.outFmt)) (16 + 32 * elemBits d.outFmt) else h) g
          else
            let w := elemBits d.outFmt / 8
            wBad.zipIdx.foldl (fun h b => if b.1 then h.poisonAt (a + w * b.2) w else h) g
        g.chunkPoisoned n r c

def Gikan.updateItemEnd (g : Gikan) (lane : Nat) : Gikan :=
  g.laneEnds lane (fun w => match w with | .update _ _ _ => true | _ => false)
    (fun h w => match w with | .update n r c => h.updateEnd n r c | _ => h)

/-- A CUSTOM chunk's kernel has ended (R173): OUT's bytes go down, or the chunk ends with the code. -/
def Gikan.customEnd (g : Gikan) (n r c status : Nat) : Gikan :=
  match g.chunkAt n r c with
  | none => g.streamGone n
  | some (s, x, _) =>
    let d := s.d
    let g :=
      if status ≠ stOK then (g.updChunk n r c (fun k => { k with code := status })).chunkEnd n r c
      else if d.out = 0 then g.chunkEnd n r c
      else
        let a := d.out + outOffset d.outFmt (d.first x.base c)
        match g.siteAt a with
        | none => g.chunkEnd n r c
        | some t =>
          let (g, data, bad) := g.engRead t (g.realAddr a) (fmtBytes d.outFmt (d.elems x.count c))
          if bad then g.chunkPoisoned n r c else g.chunkDown s x c data
    g.streamGone n

/-- A relay-down item ends: the result goes to each down entry. -/
def Gikan.relayDownOf (g : Gikan) (n r c : Nat) : Gikan :=
  match g.red.streams.get? n with
  | none => g
  | some s => match s.results.find? (fun y => y.round == r && y.chunk == c && y.left == 0), s.round r with
    | some y, some x =>
      if s.d.downs.isEmpty then g.setStream n { s with results := s.results.erase y }
      else
        let s := { s with results := s.results.map (fun z => if z == y then { z with left := s.d.downs.length } else z) }
        (g.setStream n s).sendDowns s x c s.d.downFmt y.data
    | _, _ => g

def Gikan.relayDownEnd (g : Gikan) (lane : Nat) : Gikan :=
  g.laneEnds lane (fun w => match w with | .relayDown _ _ _ => true | _ => false)
    (fun h w => match w with | .relayDown n r c => h.relayDownOf n r c | _ => h)

/-! Answers to what was sent -/

/-- The answer to a partial (R168); `o` is the request as it was sent. -/
def Gikan.partialAnswer (g : Gikan) (o : OutReq) (n r c status : Nat) : Gikan :=
  match g.chunkAt n r c with
  | none => g
  | some (_, _, k) =>
    if k.st ≠ .sent then g
    else if status = stOK then g.chunkEnd n r c
    else if status = stBUSY then
      g.sendAgain ⟨o.againAt, o.q, o.port, o.consumer⟩
    else (if status = stTIMEOUT then g.inc F.RED_EVENTS2_FWD_TIMEOUTS 1 else g).parentLost n r c

/-- The answer to a down send. -/
def Gikan.downAnswer (g : Gikan) (n r c status : Nat) : Gikan :=
  let g := if status = stOK then g else
    (g.inc F.RED_EVENTS2_BCAST_FAILS 1).updRound n r (fun x => { x with bcast := true })
  match g.red.streams.get? n with
  | none => g
  | some s =>
    if s.d.relay then
      match s.results.find? (fun y => y.round == r && y.chunk == c && y.left != 0) with
      | none => g
      | some y =>
        if y.left = 1 then ((g.setStream n { s with results := s.results.erase y }).updRound n r (fun x => { x with passed := insNat x.passed c })).roundCheck n r
        else g.setStream n { s with results := s.results.map (fun z => if z == y then { z with left := z.left - 1 } else z) }
    else
      match g.chunkAt n r c with
      | none => g
      | some (_, _, k) =>
        if k.downsLeft ≤ 1 then g.chunkEnd n r c else g.updChunk n r c (fun k => { k with downsLeft := k.downsLeft - 1 })

/-! CONTRIB (R164) -/

/-- Check 8 of a CONTRIB on a round whose elements are known. -/
def contribLong (d : Descr) (q : Req) (count : Nat) (res : Bool) : Bool :=
  decide (d.chunksOf count ≤ conChunk q) || q.hdr.length != fmtBytes (if res then d.downFmt else d.inFmt) (d.elems count (conChunk q))

/-- A result from the parent is queued for the down entries (R169). -/
def Gikan.takeResult (g : Gikan) (x : Nat) (q : Req) (n : Nat) (s : Stream) (r : Round) : Gikan :=
  let c := conChunk q
  let data := fit q.payload q.hdr.length
  let g := g.setStream n { s with results := s.results ++ [⟨r.num, c, data, 0⟩] }
  let g := g.queueLane n c s.cmpt (ceilDiv data.length 64 + 32) (.relayDown n r.num c) none
  let (p, g) := g.engPort
  g.answer p x q stOK []

/-- A contribution whose round is open takes its bit, its slot and its place at the lane. -/
def Gikan.takeContrib (g : Gikan) (x : Nat) (q : Req) (i n : Nat) (r : Round) : Gikan :=
  let c := conChunk q
  let w := conContributor q
  let (p, g) := g.engPort
  match (r.chunks.get? c) with
  | some k =>
    if k.bits.contains w then (g.inc F.RED_EVENTS_DUP_BITMAP 1).answer p x q stOK []
    else
      let (id, g) := g.hold x q i (.job 0)
      (g.updRound n r.num (fun y => { y with
        chunks := y.chunks.upd c (fun k => { k with bits := insNat k.bits w, queued := k.queued ++ [⟨id, w, fit q.payload q.hdr.length⟩] })
        arrived := y.arrived.put w g.tickNo })).syncAdd n r.num c
  | none =>
    let (id, g) := g.hold x q i (.job 0)
    (g.updRound n r.num (fun y => { y with
      chunks := y.chunks.put c { Chunk.empty with bits := [w], queued := [⟨id, w, fit q.payload q.hdr.length⟩] }
      arrived := y.arrived.put w g.tickNo })).syncAdd n r.num c

/-- Whether a slot is missing for a chunk: it has none, and its die's reservation has none free. -/
def Stream.noSlot (s : Stream) (r : Option Round) (c : Nat) : Bool :=
  let has := match r with
    | some x => (x.chunks.get? c).any (fun k => k.st != .ended)
    | none => false
  !has && decide (s.d.slots ≤ s.slotsUsed (c % 2))

/-- Whether opening rounds leaves a die short of slots for a whole round under an update program. -/
def Stream.noRoom (s : Stream) (es : List (Nat × Nat)) : Bool :=
  let need := fun (die : Nat) => es.foldl (fun n e => n + (if die = 0 then ceilDiv (s.d.chunksOf e.2) 2 else s.d.chunksOf e.2 / 2)) 0
  s.d.update != 0 && [0, 1].any (fun die => decide (s.d.slots < s.slotsUsed die + need die))

/-- What a CONTRIB that passed every check does (the table of R164). -/
def Gikan.contribDo (g : Gikan) (x : Nat) (q : Req) (i n : Nat) (s : Stream) (es : List (Nat × Nat)) (res : Bool) : Gikan :=
  let g := g.admitted x i q
  let (p, g) := g.engPort
  match s.kindOf (conRound q) with
  | .stale =>
    (g.inc F.RED_EVENTS_STALE 1).answer p x q stABORT []
  | .fresh _ =>
    let g := g.openRounds n s es
    match (g.red.streams.get? n).bind (fun t => t.round (conRound q)) with
    | some r => g.takeContrib x q i n r
    | none => g
  | .known r =>
    if r.st = .aborted then (g.inc F.RED_EVENTS2_ABORT_ANSWERS 1).answer p x q stABORT []
    else if res then g.takeResult x q n s r
    else if r.st = .committed then (g.inc F.RED_EVENTS_LATE_DONE 1).answer p x q stOK []
    else g.takeContrib x q i n r

/-- A CONTRIB addressed to this Gikan: checks 5 to 10 against its stream and RESULT extent, and the SUBOP after them (R164). -/
def Gikan.contribHere (g : Gikan) (x : Nat) (q : Req) : Gikan :=
  let n := conStream q
  match g.liveStream n, g.liveMap q.hdr.epoch with
  | some s, some m =>
    match m.extentAt (g.realAddr s.d.result) with
    | none => g.refuse x q stNOTPRES
    | some (i, e) =>
      let res := q.hdr.subop == 0x40 && s.d.relay
      let d := s.d
      if e.home ≠ g.node then g.refuse x q stNOTPRES
      else if (g.map.revoked.get? i).isSome then g.refuse x q stREVOKED
      else if g.match3 q e.cmpt (some e.ward) ≠ 0 then g.refuseWard x q (g.match3 q e.cmpt (some e.ward)) i
      else if d.contributors ≤ conContributor q then g.refuse x q stLENGTH
      else
        let kind := s.kindOf (conRound q)
        let busy := fun (h : Gikan) => (h.inc F.RED_EVENTS_BUSY 1).refuse x q stBUSY
        let subBad := if q.hdr.subop = 0x40 then !(d.relay && q.hdr.src == d.parentNode) else q.hdr.subop != d.inFmt
        let lane := g.laneOf n (conChunk q)
        let last := fun (h : Gikan) (es : List (Nat × Nat)) (full : Bool) =>
          let (ok, h) := h.check10 q e
          if !ok || full then busy h
          else if subBad then h.refuse x q stUNSUP
          else h.contribDo x q i n s es res
        match kind with
        | .stale => if q.hdr.length = 0 ∨ 4096 < q.hdr.length then g.refuse x q stLENGTH else last g [] false
        | .known r =>
          if contribLong d q r.count res then g.refuse x q stLENGTH
          else if r.st = .aborted then last g [] false
          else if res then last g [] (s.noSlot none (conChunk q))
          else last g [] (r.st == .open && (s.noSlot (some r) (conChunk q) || decide (256 ≤ g.laneLoad lane)))
        | .fresh k =>
          let fits := decide (s.openCount + k ≤ d.maxOpen)
          let (g, es) := if fits then g.readEntries d k s.next else g.readEntries d 1 (conRound q)
          match es with
          | none => g.refuse x q stLENGTH
          | some es =>
            let count := (es.getLastD (0, 0)).2
            if contribLong d q count res then g.refuse x q stLENGTH
            -- a result ahead of its round opens none: it fails check 10 unless it is not the parent's (DEDUCED, assumption 54)
            else if res then last g [] (!fits || s.noSlot none (conChunk q) || !subBad)
            else if g.on F.TICK_STATUS_SPLIT then (g.inc F.RED_EVENTS2_SPLIT_REFUSALS 1).refuse x q stSPLIT
            else last g es (!fits || s.noSlot none (conChunk q) && d.update == 0 || s.noRoom es || decide (256 ≤ g.laneLoad lane))
  | _, _ => g.refuse x q stNOTPRES

/-- A CONTRIB as it arrives. -/
def Gikan.contribArrive (g : Gikan) (x : Nat) (q : Req) : Gikan :=
  g.cohSettle (match g.receive x q tyCONTRIB false with
    | .done h => h
    | .go h _ _ => h.contribHere x q)

/-! Deadlines, RED_ABORT, REDUCE_SETUP -/

/-- The deadline of a round; the arrival of its last contribution in the cycle of the boundary wins (R171). -/
def Gikan.roundDeadline (g : Gikan) (n r : Nat) : Gikan :=
  match g.red.streams.get? n with
  | none => g
  | some s => match s.round r with
    | none => g
    | some x =>
      let due := x.openTick + s.d.deadline
      let won := (missingOf s.d x).isEmpty && x.arrived.any (fun a => decide (due ≤ a.2))
      if g.hasp || !g.running || g.tickNo < due || won || x.st ≠ .open then g else g.cohSettle (g.abortRound n r causeDeadline)

/-- A write of RED_ABORT. -/
def Gikan.wrRedAbort (g : Gikan) (w : RegW) : Gikan :=
  let v := fun (f : Fld) => let (x, m) := wrField w f; x &&& m
  if !wrOne w F.RED_ABORT_GO then g else
  let n := v F.RED_ABORT_STREAM
  let r := v F.RED_ABORT_ROUND
  match (g.red.streams.get? n).bind (fun s => s.round r) with
  | some x => if x.st = .open then g.cohSettle (g.abortRound n r causeSoftware) else g.inc F.RED_ABORT_CAUSE_IGNORED 1
  | none => g.inc F.RED_ABORT_CAUSE_IGNORED 1

/-- The REDUCE_SETUP command of an action, checked: refused with a code, or carried out. -/
def Gikan.setup (g : Gikan) (k : CmdRef) (create : Bool) (action : Nat) (body : Gikan → Cmd → Descr → Gikan) : Gikan :=
  match g.cmdReady k opSETUP with
  | none => g
  | some c =>
    let a := setupAction c.body
    let mine := if create then a != 2 && a != 3 else a == action
    if !mine then g else
    let st := g.setupCheck k.kw.val c.body
    if st ≠ stOK then g.cmdDone k.kw.val c.idx st else body g c (descrOf c.body)

/-- Create (R156). -/
def Gikan.setupCreate (g : Gikan) (k : CmdRef) : Gikan :=
  g.setup k true 1 (fun g c d => (g.setStream d.stream ⟨d, k.kw.val, d.firstRound, [], [], false, none⟩).cmdDone k.kw.val c.idx stOK)

/-- Discard what a stream has queued, on lanes and as kernels. -/
def Gikan.dropStreamWork (g : Gikan) (n : Nat) : Gikan :=
  let g := g.mapQueued (fun i => if workOf n none i.work then none else some i)
  let mine := fun (i : PinItem) => i.customOf n
  let g := g.dropPartials n none
  { g with pin := { g.pin with
    outside := g.pin.outside.filter (fun o => !mine o.2)
    cores := g.pin.cores.map (fun c => (c.1, { c.2 with queue := c.2.queue.filter (fun i => !mine i) })) } }

/-- Abort every open round of a stream. -/
def Gikan.abortAll (g : Gikan) (n cause : Nat) : Gikan :=
  match g.red.streams.get? n with
  | none => g
  | some s => (s.rounds.filter (fun r => r.st == .open)).foldl (fun h r => h.abortRound n r.num cause) g

/-- Destroy a stream: its open rounds abort, its queued work goes, its reservation once its running items end (R156). -/
def Gikan.destroyStream (g : Gikan) (n : Nat) (by_ : Option (Nat × Nat)) : Gikan :=
  let g := (g.abortAll n causeDestroy).dropStreamWork n
  match g.red.streams.get? n with
  | none => g
  | some s => (g.setStream n { s with dying := true, by_ := by_ }).streamGone n

def Gikan.setupDestroy (g : Gikan) (k : CmdRef) : Gikan :=
  g.setup k false 2 (fun h c d => g.cohSettle ((h.cmdRun k.kw.val c.idx 1).destroyStream d.stream (some (k.kw.val, c.idx))))

/-- Rekey a relay stream (R156). -/
def Gikan.setupRekey (g : Gikan) (k : CmdRef) : Gikan :=
  g.setup k false 3 (fun g c d =>
    match g.red.streams.get? d.stream with
    | none => g
    | some s => (g.setStream d.stream { s with d := { s.d with parentWard := d.parentWard } }).cmdDone k.kw.val c.idx stOK)

/-! Errors in the store, and registers -/

/-- A chunk's accumulator is poisoned; a relay, whose partials carry no poison, aborts the round (R167). -/
def Gikan.poisonChunk (g : Gikan) (n r c : Nat) : Gikan :=
  let h := g.updChunk n r c (fun k => { k with poisoned := true })
  match g.red.streams.get? n with
  | some s => if s.d.relay then h.abortRound n r causePoison else h
  | none => h

/-- An uncorrectable word in the store poisons the accumulator of the lane's running item (R167). -/
def Gikan.redPoison (g : Gikan) (lane : Nat) : Gikan :=
  match g.runHead ⟨.red, lane⟩ with
  | none => g
  | some i => match i.item.work with
    | .add n r c => g.cohSettle (g.poisonChunk n r c)
    | .output n r c => g.cohSettle (g.poisonChunk n r c)
    | .update n r c => g.cohSettle (g.poisonChunk n r c)
    | _ => g

/-- RED_STRAGGLER0: the post at the head. -/
def Gikan.stragglerWord (g : Gikan) : Nat :=
  match g.red.posts with
  | [] => 0
  | p :: _ => p.round % 2 ^ 32 + p.stream % 2 ^ 10 * 2 ^ 32 + p.contributor % 2 ^ 14 * 2 ^ 42 + (if p.missing then 2 ^ 56 else 0) + 2 ^ 63

/-- The read that takes the head post and latches its second word (R408). -/
def Gikan.takePost (g : Gikan) : Gikan :=
  match g.red.posts with
  | [] => g
  | p :: rest => (({ g with red := { g.red with posts := rest } }).set F.RED_STRAGGLER1_LATE_TICKS p.late).set F.RED_STRAGGLER1_MISSING_COUNT p.count

/-- RED_STREAM_STATE, RED_STREAM_SLOTS and RED_PARENT_WARD of the stream shown. -/
def Gikan.shownStream (g : Gikan) : Option Stream := g.red.streams.get? (g.get F.RED_STREAM_INDEX_STREAM)

def Gikan.streamStateWord (g : Gikan) : Nat :=
  match g.shownStream with
  | none => 0
  | some s => 1 + (if s.d.relay then 2 else 0) + s.openCount * 4 + s.next * 2 ^ 32

def Gikan.streamSlotsWord (g : Gikan) : Nat :=
  match g.shownStream with
  | none => 0
  | some s => s.slotsUsed 0 + s.slotsUsed 1 * 2 ^ 20 + s.d.slots * 2 ^ 40

def Gikan.parentWardWord (g : Gikan) : Nat :=
  match g.shownStream with
  | none => 0
  | some s => if s.d.relay then s.d.parentWard else 0

def redCounters : List Fld :=
  [F.RED_ROUNDS_COMMITTED, F.RED_ROUNDS_ABORTED, F.RED_ABORT_CAUSE_DEADLINE, F.RED_ABORT_CAUSE_SOFTWARE, F.RED_ABORT_CAUSE_PARENT_POISON,
   F.RED_ABORT_CAUSE_DESTROY, F.RED_ABORT_CAUSE_IGNORED, F.RED_EVENTS_DUP_BITMAP, F.RED_EVENTS_LATE_DONE, F.RED_EVENTS_STALE, F.RED_EVENTS_BUSY,
   F.RED_EVENTS2_SPLIT_REFUSALS, F.RED_EVENTS2_FWD_TIMEOUTS, F.RED_EVENTS2_BCAST_FAILS, F.RED_EVENTS2_POST_DROPS, F.RED_EVENTS2_ABORT_ANSWERS,
   F.RED_STORE_ECC_CORRECTED, F.RED_STORE_ECC_UNCORRECTED]

def Gikan.wrRedCtrl (g : Gikan) (w : RegW) : Gikan := if wrOne w F.RED_CTRL_CLR_CNT then g.clear redCounters else g

end Sys2Proof.Machine
end

