-- ==== Sys2Proof/Machine/PinCores.lean ====
section
/-!
DEFINITION. Pin cores (chapter 11): starting and ending a kernel, exceptions, a thread's memory accesses, entry points and kernel images, RUN and
entry-point TRIGGERs.
-/

namespace Sys2Proof.Machine

/-! Threads -/

def Gikan.thread (g : Gikan) (core t : Nat) : Option Thread := (g.pinCore core).threads.get? t

def Gikan.setThread (g : Gikan) (core t : Nat) (th : Thread) : Gikan :=
  let p := g.pinCore core
  g.setPinCore core { p with threads := p.threads.put t th }

def pinUnit (core t : Nat) : UnitId := ⟨.pin, 8 * core + t⟩

/-- Registers: x0 reads as zero and p0 as all ones; writes to them are discarded (R240). -/
def Thread.xr (th : Thread) (n : Nat) : Nat := if n = 0 then 0 else th.x.getD n 0
def Thread.vr (th : Thread) (n : Nat) : Nat := th.v.getD n 0
def Thread.pr (th : Thread) (n : Nat) : Nat := if n = 0 then 2 ^ 32 - 1 else th.p.getD n 0
def Thread.setX (th : Thread) (n v : Nat) : Thread := if n = 0 then th else { th with x := th.x.setD n 0 (v % 2 ^ 64) }
def Thread.setV (th : Thread) (n v : Nat) : Thread := { th with v := th.v.setD n 0 (v % 2 ^ 256) }
def Thread.setP (th : Thread) (n v : Nat) : Thread := if n = 0 then th else { th with p := th.p.setD n 0 (v % 2 ^ 32) }

/-- Registers from a list of numbers and values. -/
def tblOf (l : List (Nat × Nat)) : Tbl Nat := l.foldl (fun t e => t.setD e.1 0 e.2) []

/-- Vector registers from bytes, from `first` on. -/
def vOf (first n : Nat) (b : List Byte) : List (Nat × Nat) := (List.range n).map (fun i => (first + i, field b (32 * i) 32))

/-- The registers a thread starts an item with (R234): scalar, vector, WARD0. -/
def Gikan.startRegs (g : Gikan) (i : PinItem) : List (Nat × Nat) × List (Nat × Nat) × Nat :=
  match i.by_ with
  | .trigger _ addr src rmax ward arg => ([(1, 1), (2, addr), (3, arg.length), (4, src), (5, rmax)], vOf 0 8 arg, ward)
  | .run _ _ k count base ward arg => ([(1, 2), (2, k), (3, arg.length), (4, count), (5, base)], vOf 0 8 arg, ward)
  | .custom n r _ first elems =>
    match g.red.streams.get? n with
    | none => ([(1, 3), (2, first), (3, elems), (4, r), (5, n)], [], 0)
    | some s =>
      let p := match s.round r with | some x => x.param | none => []
      ([(1, 3), (2, first), (3, elems), (4, r), (5, n), (6, s.d.master), (7, s.d.state1), (8, s.d.state2), (9, s.d.out)], vOf 0 2 p, 0)

/-- A thread starts an item (R234). -/
def Gikan.startThread (g : Gikan) (core t : Nat) (i : PinItem) (frame : Nat) : Gikan :=
  let (x, v, w) := g.startRegs i
  let th : Thread := ⟨i, tblOf x, tblOf v, [], i.e.pc, i.e.pc, 0, g.time ^^^ (8 * core + t), tblOf [(0, w)], g.time, frame, [], none, .none⟩
  (g.setThread core t th).inc F.PIN_ITEMS_STARTED 1

/-! Where an item's end goes (R235, R252) -/

/-- A RUN instance has ended: its result word is written, and the last one ends the command. -/
def Gikan.runEnd (g : Gikan) (kw idx i status result : Nat) : Gikan :=
  match g.cmd? kw idx with
  | none => g
  | some c =>
    let a := c.f 32 8
    let st := if a = 0 then stOK else g.spanCode kw c (a + 8 * i) 8 true
    let g := if a = 0 || st ≠ stOK then g else g.cmdWrite kw c (a + 8 * i) (leBytes 8 result)
    let code := if status ≠ stOK then status else st
    let g := g.updCmd kw idx (fun c => { c with left := c.left - 1, codes := if code = stOK then c.codes else c.codes.put i code })
    match g.cmd? kw idx with
    | none => g
    | some c =>
      if c.left ≠ 0 then g else
      match c.codes with
      | [] => g.cmdEnd kw idx stOK (2 ^ 32 - 1)
      | (k, s) :: _ => g.cmdEnd kw idx s k

/-- An item has ended with a status, a result word and result bytes; `ran` is clear for one that no core took (R229). -/
def Gikan.pinRoute (g : Gikan) (i : PinItem) (ran : Bool) (status result : Nat) (bytes : List Byte) : Gikan :=
  match i.by_ with
  | .trigger held _ _ rmax _ _ =>
    match g.heldById held with
    | none => g
    | some h =>
      let (p, g) := g.engPort
      (g.release held).answer p h.x h.q status (if ran then leBytes 8 result ++ bytes.take rmax else [])
  | .run kw idx k _ _ _ _ => g.runEnd kw idx k status result
  | .custom n r c _ _ => g.customEnd n r c status

/-! Fenced cores (R229) -/

/-- Whether nothing admitted is left on a core. -/
def PinCore.idle? (p : PinCore) : Bool := p.threads.isEmpty && p.ready.all (fun r => r.2.isEmpty)

/-- The queue of a fenced core moves to its acting owner once its running items have ended; with every core fenced it ends at once. -/
def Gikan.coreFenceMove (g : Gikan) (core : Nat) : Gikan :=
  let p := g.pinCore core
  if !g.coreFenced core || !p.idle? then g else
  let items := p.queue ++ (g.pin.outside.filter (fun o => o.1 == core)).map (fun o => o.2)
  let g := g.setPinCore core { p with queue := [] }
  let g := { g with pin := { g.pin with outside := g.pin.outside.filter (fun o => o.1 != core) } }
  match g.actingCore core with
  | some a => items.foldl (fun h i => h.pinQueue a i) g
  | none => items.foldl (fun h i => (h.inc F.PIN_ITEMS_NOT_OK 1).pinRoute i false stBUSY 0 []) g

/-! The end of an item -/

/-- The item of a thread ends; the next one admitted to the thread starts. -/
def Gikan.pinFinish (g : Gikan) (core t status result : Nat) (bytes : List Byte) : Gikan :=
  match g.thread core t with
  | none => g
  | some th =>
    let p := g.pinCore core
    let g := g.setPinCore core { p with threads := p.threads.del t, exclEnd := if th.item.e.excl then g.time else p.exclEnd }
    let g := if status = stOK then g else g.inc F.PIN_ITEMS_NOT_OK 1
    let g := g.unitEndOf (pinUnit core t) g.cycleNow (fun w => w == .pin core th.item.id)
    let p := g.pinCore core
    let g := match p.ready.getD t [] with
      | [] => g
      | (i, f) :: rest => (g.setPinCore core { p with ready := p.ready.setD t [] rest }).startThread core t i f
    ((g.pinRoute th.item true status result bytes).pinEnter core).coreFenceMove core

/-- A thread that is ending ends once its accesses have been answered; END gives way to a STORE exception (R235). -/
def Gikan.tryEnd (g : Gikan) (core t : Nat) : Gikan :=
  match g.thread core t with
  | none => g
  | some th =>
    match th.wait with
    | .ending cause status result bytes =>
      if !th.acc.isEmpty then g
      else if cause = 0 then g.pinFinish core t status result bytes
      else g.pinFinish core t status 0 []
    | _ => g

/-- An exception is counted and logged (R236): `pc` is the index that the log holds. -/
def Gikan.logExc (g : Gikan) (core t : Nat) (th : Thread) (cause status pc : Nat) : Gikan :=
  let g := g.inc F.PIN_EXC_EXCEPTIONS 1
  let g := if cause = 8 then g.inc F.PIN_EXC_KILLS 1 else if cause = 10 then g.inc F.PIN_EXC_ECC 1 else g
  if g.on F.PIN_EXC_LOG_VALID then g.set F.PIN_EXC_LOG_OVERFLOW 1
  else
    let g := ((g.set F.PIN_EXC_LOG_CORE core).set F.PIN_EXC_LOG_THREAD t).set F.PIN_EXC_LOG_CAUSE cause
    let g := ((g.set F.PIN_EXC_LOG_ENTRY th.item.entry).set F.PIN_EXC_LOG_PC pc).set F.PIN_EXC_LOG_STATUS status
    g.set F.PIN_EXC_LOG_VALID 1

/-- An exception ends the item with a status (R236). -/
def Gikan.pinExc (g : Gikan) (core t cause status : Nat) : Gikan :=
  match g.thread core t with
  | none => g
  | some th =>
    let g := g.logExc core t th cause status (if cause = 7 ∨ cause = 8 then th.pc else th.last)
    (g.setThread core t { th with wait := .ending cause status 0 [] }).tryEnd core t

/-- A posted store's fault is delivered when it is met (R246). -/
def Gikan.storeExc (g : Gikan) (core t : Nat) : Gikan :=
  match g.thread core t with
  | none => g
  | some th => match th.storeFault with
    | some code => g.pinExc core t 7 code
    | none => g

/-! Memory accesses (R245, R246) -/

def Gikan.getScratch (g : Gikan) (core a n : Nat) : List Byte := memGetN (g.pinCore core).scratch a n

def Gikan.putScratch (g : Gikan) (core a : Nat) (b : List Byte) : Gikan :=
  let p := g.pinCore core
  g.setPinCore core { p with scratch := memPutN p.scratch a b }

/-- Whether the extent at an index is one that the thread's stream descriptor names (R245). -/
def Gikan.streamExtent (g : Gikan) (th : Thread) (entry : Nat) : Bool :=
  match th.item.by_ with
  | .custom n _ _ _ _ =>
    (match g.red.streams.get? n with
     | some s => [s.d.result, s.d.table, s.d.status, s.d.param, s.d.master, s.d.state1, s.d.state2, s.d.out].any (fun a =>
        a != 0 && (match g.siteAt a with | some t => t.entry == entry | none => false))
     | none => false)
  | _ => false

/-- An access whose home is this Gikan, over the engine path: its status and data (R10, R43, R83, R99, R245). -/
def Gikan.pinLocal (g : Gikan) (th : Thread) (q : Req) (s : Site) : Gikan × Nat × List Byte :=
  let a := g.realAddr q.hdr.addr
  let n := q.hdr.length
  let write := q.hdr.type != tyREAD
  let q1 := { q with hdr := { q.hdr with src := g.node } }
  let test := if g.streamExtent th s.entry then (if q.hdr.cmpt != s.e.cmpt then 2 else 0) else g.match3 q1 s.e.cmpt (some s.e.ward)
  if q.hdr.type == tyATOMIC && (s.e.comp != 0 || bodyBad q) then (g, stUNSUP, [])
  else if (g.map.revoked.get? s.entry).isSome then (g, stREVOKED, [])
  else if test ≠ 0 then (g.wardFault g.node q.hdr.cmpt test s.entry, stWARD, [])
  else if !s.e.covers a n then (g, stLENGTH, [])
  else if (s.e.seated && (g.get F.MAP_QUIESCE_CMPT_MASK).testBit s.e.cmpt) || g.scrubbing q.hdr.cmpt || g.scrubbing s.e.cmpt then (g, stBUSY, [])
  else if write && g.onLoanHere a n then (g, stBUSY, [])
  else if write && s.e.pub then (g, stUNSUP, [])
  else if q.hdr.type = tyREAD then
    let (g, d, bad) := g.engRead s a n
    (g, if bad then stPOISONED else stOK, d)
  else if q.hdr.type = tyWRITE then (g.engWrite s a (fit q.payload n), stOK, [])
  else
    let (g, d, bad) := g.engRead s a n
    if bad then (g, stPOISONED, [])
    else (g.engWrite s a (leBytes n (atomResult q.hdr.subop n (leNat d) (atomOperand q) (atomCompare q))), stOK, d)

/-- What an answered access puts into its destination; with no data the destination is zero (R246). -/
def Gikan.accPut (g : Gikan) (core t : Nat) (k : AccKind) (data : List Byte) : Gikan :=
  match g.thread core t with
  | none => g
  | some th =>
    match k with
    | .load rd w sx =>
      let v := field data 0 w
      g.setThread core t (th.setX rd (if sx then toBits (sext v (8 * w)) 64 else v))
    | .vload vd => g.setThread core t (th.setV vd (field data 0 32))
    | .get a n => g.putScratch core a (fit data n)
    | .atom rd w => g.setThread core t (th.setX rd (field data 0 w))
    | .store => g

/-- The answer of an access reaches its thread (R246, R247). -/
def Gikan.pinDeliver (g : Gikan) (core t id status : Nat) (data : List Byte) : Gikan :=
  match g.thread core t with
  | none => g
  | some th =>
    match th.acc.find? (fun a => a.id == id) with
    | none => g
    | some a =>
      let rest := th.acc.filter (fun b => b.id != id)
      let ending := match th.wait with | .ending _ _ _ _ => true | _ => false
      let good := status == stOK || (status == stPOISONED && (match a.kind with | .atom _ _ => false | .store => false | _ => true))
      let th1 := { th with acc := rest, wait := if th.wait = .access id then .none else th.wait }
      let th1 := if a.q && status != stOK && th1.lastStatus == 0 then { th1 with lastStatus := status } else th1
      match a.kind with
      | .store =>
        let g := if status = stOK then g else g.inc F.PIN_MEM_STORE_FAULTS 1
        let th1 := if status != stOK && !a.q && th1.storeFault.isNone then { th1 with storeFault := some status } else th1
        match th.wait with
        | .fence => if rest.isEmpty then (g.setThread core t { th1 with wait := .none }).storeExc core t else g.setThread core t th1
        | .ending 0 st res bs =>
          if !rest.isEmpty then g.setThread core t th1
          else match th1.storeFault with
            | some code => (g.setThread core t th1).pinExc core t 7 code
            | none => (g.setThread core t { th1 with wait := .ending 0 st res bs }).tryEnd core t
        | _ => (g.setThread core t th1).tryEnd core t
      | k =>
        let g := (g.setThread core t th1).accPut core t k (if good then data else [])
        if ending then g.tryEnd core t
        else if status != stOK && !a.q then g.pinExc core t 6 status
        else g

/-- Send an access, or answer it at once when its home is this Gikan; a BUSY_RETRY of the latter is sent again in the next tick. -/
def Gikan.pinSend (g : Gikan) (core t id : Nat) (q : Req) : Gikan × Option (Nat × List Byte) :=
  match g.thread core t, g.siteAt q.hdr.addr with
  | some th, some s =>
    let (g, st, d) := g.pinLocal th q s
    (g, some (st, d))
  | _, _ => (g.engIssue q (.pin core t id), none)

/-- BUSY_RETRY: the access is sent again at `due`, once per tick, up to BUSY_RETRIES times; then it is delivered. -/
def Gikan.pinBusy (g : Gikan) (core t id port due : Nat) (q : Req) : Gikan :=
  match g.thread core t with
  | none => g
  | some th =>
    match th.acc.find? (fun a => a.id == id) with
    | none => g
    | some a =>
      if g.get F.PIN_LIMITS_BUSY_RETRIES ≤ a.busy then g.pinDeliver core t id stBUSY []
      else
        let g := g.setThread core t { th with acc := th.acc.map (fun b => if b.id == id then { b with busy := b.busy + 1 } else b) }
        g.sendAgain ⟨due, q, port, .pin core t id⟩

/-- The answer to an access (R246); `resent` says that the answer is to a resend. -/
def Gikan.pinAnswer (g : Gikan) (core t id : Nat) (o : OutReq) (status : Nat) (data : List Byte) (resent : Bool) : Gikan :=
  if status = stBUSY then g.pinBusy core t id o.port o.againAt o.q
  else if status = stSTALE ∧ !resent then
    match g.thread core t with
    | none => g
    | some th =>
      match th.acc.find? (fun a => a.id == id) with
      | none => g
      | some a =>
        if a.resolved then g.pinDeliver core t id status []
        else
          let g := (g.setThread core t { th with acc := th.acc.map (fun b => if b.id == id then { b with resolved := true } else b) }).inc
            F.PIN_MEM_RESOLVES 1
          let (g, r) := g.pinSend core t id o.q
          match r with
          | none => g
          | some (st, d) => if st = stBUSY then g.pinBusy core t id o.port (g.time + g.periodNs) o.q else g.pinDeliver core t id st d
  else g.pinDeliver core t id status data

/-- The resend of an access after BUSY_RETRY. -/
def Gikan.pinAgain (g : Gikan) (core t id : Nat) (q : Req) : Gikan :=
  match g.thread core t with
  | none => g
  | some th =>
    if !(th.acc.any (fun a => a.id == id)) then g else
    let (g, r) := (g.inc F.PIN_MEM_BUSY_RESENDS 1).pinSend core t id q
    match r with
    | none => g
    | some (st, d) => if st = stBUSY then g.pinBusy core t id 40 (g.time + g.periodNs) q else g.pinDeliver core t id st d

/-- A thread issues an access. -/
def Gikan.pinAccess (g : Gikan) (core t : Nat) (k : AccKind) (quiet : Bool) (q : Req) : Gikan :=
  match g.thread core t with
  | none => g
  | some th =>
    let (id, g) := g.pinId
    let park := match k with | .store => false | _ => true
    let g := g.setThread core t { th with acc := th.acc ++ [⟨id, k, quiet, q, 0, false⟩], wait := if park then .access id else th.wait }
    let (g, r) := g.pinSend core t id q
    match r with
    | none => g
    | some (st, d) => if st = stBUSY then g.pinBusy core t id 40 (g.time + g.periodNs) q else g.pinDeliver core t id st d

/-! Admission (R230 to R232) -/

/-- Whether an EXCL item runs on a core. -/
def PinCore.exclRuns (p : PinCore) : Bool := p.threads.any (fun t => t.2.item.e.excl) || p.ready.any (fun r => r.2.any (fun i => i.1.e.excl))

/-- The head item of a core as an item of one of its threads. -/
def PinItem.item (i : PinItem) (core : Nat) : Item := ⟨i.e.cycles, .pin core i.id, i.cmpt, none⟩

/-- The state with the item admitted on a thread at offset `off`, if R28 to R30 let it in. -/
def Gikan.threadAdmit (g : Gikan) (core t off : Nat) (i : PinItem) : Option Gikan :=
  let u := pinUnit core t
  let h := (g.setUnit u { g.unit u with queue := [i.item core] }).unitAdmit u off
  if (h.unit u).queue.isEmpty then some h else none

/-- Admit the head item of a core on thread `t`, if that is the lowest-numbered thread that admits it. -/
def Gikan.pinAdmit (g : Gikan) (core t off : Nat) : Gikan :=
  let p := g.pinCore core
  match p.queue with
  | [] => g
  | i :: rest =>
    -- an EXCL item starts no earlier than the previous one's actual end (R230)
    let off := if i.e.excl then max off (g.cycleAt p.exclEnd) else off
    if g.coreFenced core || (i.e.excl && p.exclRuns) || (match p.cmpt with | some c => c != i.cmpt | none => false) then g
    else if (List.range t).any (fun k => (g.threadAdmit core k off i).isSome) then g
    else match g.threadAdmit core t off i with
      | none => g
      | some h =>
        let p := h.pinCore core
        let h := h.setPinCore core { p with queue := rest, cmpt := some i.cmpt }
        if (h.thread core t).isNone then h.startThread core t i g.tickNo
        else
          let p := h.pinCore core
          h.setPinCore core { p with ready := p.ready.put t (p.ready.getD t [] ++ [(i, g.tickNo)]) }

/-- Once all threads are idle, a core clears scratch and registers and takes the compartment of its head item (R231). -/
def Gikan.compartmentSwitch (g : Gikan) (core : Nat) : Gikan :=
  let p := g.pinCore core
  match p.queue, p.cmpt with
  | i :: _, some c =>
    if c = i.cmpt || !p.idle? || g.hasp || (match g.sec.scrub with | some s => s.1 == c | none => false) then g
    else (g.setPinCore core { p with cmpt := some i.cmpt, scratch := [] }).inc F.PIN_QUEUE_CMPT_SWITCHES 1
  | _, _ => g

/-- A frame begins: it is allotted to the threads whose items hold their units and have not had their cost in budgets yet, each frame counted
with the budget it had (R30, R237). -/
def Gikan.pinAllot (before g : Gikan) : Gikan :=
  before.eng.units.foldl (fun h e =>
    let u := unitOfKey e.1
    match u.cls, e.2.hold with
    | .pin, some (c, s) =>
      if s < c then (match h.thread (u.n / 8) (u.n % 8) with
        | some th => h.setThread (u.n / 8) (u.n % 8) { th with frame := h.tickNo }
        | none => h) else h
    | _, _ => h) g

/-- A kernel that still runs KILL_FRAMES frames after its last allotted one (R237). -/
def Gikan.kill (g : Gikan) (core t : Nat) : Gikan :=
  match g.thread core t with
  | none => g
  | some th =>
    let n := g.get F.PIN_LIMITS_KILL_FRAMES
    let ending := match th.wait with | .ending _ _ _ _ => true | _ => false
    if n = 0 || ending || g.tickNo ≤ th.frame + n || !g.running || g.hasp then g else g.cohSettle (g.pinExc core t 8 stTIMEOUT)

/-! Kernel images (R248 to R250) -/

/-- A refused load or unload. -/
def Gikan.imageRefused (g : Gikan) (cause : Nat) : Gikan :=
  ((g.set F.PIN_IMAGE_STATUS_REFUSED 1).set F.PIN_IMAGE_STATUS_CAUSE cause).inc F.PIN_IMAGE_STATUS_REFUSALS 1

/-- An entry record of an image: number, entry point, and whether its reserved bits and flags are well formed. -/
def entryRecord (b : List Byte) (slot cmpt base : Nat) : Nat × EntryPt × Bool :=
  let fl := field b 12 1
  (field b 0 2, ⟨slot, cmpt, base + field b 4 4, field b 8 3, bit fl 0, bit fl 1, bit fl 2, bit fl 3⟩,
   field b 2 2 == 0 && field b 11 1 == 0 && bits fl 4 4 == 0 && field b 13 3 == 0 && bits fl 1 3 != 0)

/-- Bytes that an image takes as its header gives them. -/
def imageBytes (h : List Byte) : Nat := max (field h 12 4 + 8 * field h 8 4) (field h 16 4 + 16 * field h 6 2)

/-- Whether two ranges meet. -/
def meets (a n b m : Nat) : Bool := decide (a < b + m) && decide (b < a + n)

/-- Cause 2 of R249 on a header: counts, offsets, code and records overlapping. -/
def imageRange (h : List Byte) : Bool :=
  let ne := field h 6 2
  let nc := field h 8 4
  let co := field h 12 4
  let eo := field h 16 4
  ne == 0 || decide (4096 < ne) || nc == 0 || decide (32768 < nc) || co % 8 != 0 || decide (co < 64) || eo % 16 != 0 || decide (eo < 64) ||
  meets co (8 * nc) eo (16 * ne)

/-- The checks of R249 on an image, in the order of their causes. Fields that are not in an extent here, or are poisoned, are not there to be
checked: poison in the read is found last. -/
def Gikan.imageLoad (g : Gikan) (a slot base cmpt : Nat) : Gikan :=
  match g.headerSite a 64 with
  | none => g.imageRefused 3
  | some s =>
    let ra := g.realAddr a
    let taken := (g.pin.images.get? slot).isSome
    let (g, h, hbad) := g.engRead s ra 64
    let ne := field h 6 2
    let nc := field h 8 4
    if hbad then g.imageRefused (if (g.imageSite a 64 cmpt).isNone then 3 else if taken then 5 else 7)
    else if field h 0 4 != 0x4C424D54 || field h 4 2 != 1 || (slice h 20 44).any (fun x => x != 0) then g.imageRefused 1
    else
      let (g, recs, rbad) := if s.e.covers ra (field h 16 4 + 16 * ne) then g.engRead s (ra + field h 16 4) (16 * ne) else (g, [], true)
      let es := if rbad then [] else (List.range ne).map (fun i => entryRecord (slice recs (16 * i) 16) slot cmpt base)
      let nums := es.map (fun e => e.1)
      if es.any (fun e => !e.2.2) then g.imageRefused 1
      else if imageRange h || es.any (fun e => decide (4095 < e.1) || decide (base + nc ≤ e.2.1.pc) || e.2.1.cycles == 0) then g.imageRefused 2
      else if (g.imageSite a (imageBytes h) cmpt).isNone then g.imageRefused 3
      else if decide (32768 < base + nc) || g.pin.images.any (fun i => meets base nc i.2.base i.2.count) then g.imageRefused 4
      else if taken then g.imageRefused 5
      else if nums.any (fun n => (g.pin.entries.get? n).isSome) || decide (nums.dedup.length < nums.length) then g.imageRefused 6
      else
        let (g, code, cbad) := g.engRead s (ra + field h 12 4) (8 * nc)
        if rbad || cbad then g.imageRefused 7
        else
          let words := (List.range nc).map (fun i => field code (8 * i) 8)
          { ((g.set F.PIN_IMAGE_STATUS_BUSY 1).set F.PIN_IMAGE_STATUS_SLOT slot) with
            pin := { g.pin with load := some ⟨slot, base, cmpt, words, es.map (fun e => (e.1, e.2.1))⟩ } }

/-- The image is read and checked; while it waits for lines or granules of it the load stays BUSY (R111, R150). -/
def Gikan.imageRead (g : Gikan) (a slot base cmpt : Nat) : Gikan :=
  let done := g.imageLoad a slot base cmpt
  let h := g.cohSettle done
  if g.stalls done then { h.set F.PIN_IMAGE_STATUS_BUSY 1 with pin := { h.pin with wait := some (a, slot, base, cmpt) } } else h

/-- The load that a scrub held back, or that waits for its image, goes on. -/
def Gikan.imageWaited (g : Gikan) : Gikan :=
  match g.pin.wait with
  | some (a, slot, base, c) =>
    if g.scrubbing c then g
    else ({ g.set F.PIN_IMAGE_STATUS_BUSY 0 with pin := { g.pin with wait := none } }).imageRead a slot base c
  | none => g

/-- The load's code words are in the stores: its entries are registered and the slot is VALID. One that still waits for its image reads it. -/
def Gikan.imageLoadEnd (g : Gikan) : Gikan :=
  match g.pin.load with
  | none => g.imageWaited
  | some l =>
    if g.hasp then g else
    let p := g.pin
    let code := l.words.zipIdx.foldl (fun (t : Tbl Nat) w => t.setD (l.base + w.2) 0 w.1) p.code
    let es := l.entries.foldl (fun (t : Tbl EntryPt) e => t.put e.1 e.2) p.entries
    let im : KImage := ⟨l.cmpt, l.base, l.words.length, l.entries.length, false⟩
    let g := { g with pin := { p with code := code, entries := es, load := none, images := p.images.put l.slot im } }
    ((g.set F.PIN_IMAGE_STATUS_BUSY 0).set F.PIN_IMAGE_STATUS_DONE 1).inc F.PIN_IMAGE_STATUS_LOADS 1

/-- Items queued or running that name a slot's entries (PIN_SLOT_REFS). -/
def Gikan.slotItems (g : Gikan) (slot : Nat) : Nat :=
  let of := fun (i : PinItem) => i.e.slot == slot
  g.pin.cores.foldl (fun n c => n + (c.2.queue.filter of).length + (c.2.threads.filter (fun t => of t.2.item)).length +
    c.2.ready.foldl (fun m r => m + (r.2.filter (fun i => of i.1)).length) 0) 0 + (g.pin.outside.filter (fun o => of o.2)).length

/-- Unload a slot (R250): its entries are unregistered. -/
def Gikan.unloadSlot (g : Gikan) (slot : Nat) : Gikan :=
  match g.pin.images.get? slot with
  | none => g.inc F.PIN_IMAGE_STATUS_REFUSALS 1
  | some i =>
    if i.unloading then g.inc F.PIN_IMAGE_STATUS_REFUSALS 1 else
    { ((g.set F.PIN_IMAGE_STATUS_UNLOADING 1).set F.PIN_IMAGE_STATUS_SLOT slot) with pin := { g.pin with
      images := g.pin.images.put slot { i with unloading := true }
      entries := g.pin.entries.filter (fun e => e.2.slot != slot) } }

/-- A write of PIN_IMAGE_LOAD; a load that names a compartment being scrubbed waits with BUSY set (R325). -/
def Gikan.wrImageLoad (g : Gikan) (w : RegW) : Gikan :=
  let v := fun (f : Fld) => let (x, m) := wrField w f; x &&& m
  let slot := v F.PIN_IMAGE_LOAD_SLOT
  let go := wrOne w F.PIN_IMAGE_LOAD_GO
  let un := wrOne w F.PIN_IMAGE_LOAD_UNLOAD
  if !go && !un then g
  else if g.on F.PIN_IMAGE_STATUS_BUSY then g.imageRefused 8
  else if un then g.unloadSlot slot
  else
    let a := g.get F.PIN_IMAGE_SRC_ADDR
    let base := v F.PIN_IMAGE_LOAD_BASE
    let c := v F.PIN_IMAGE_LOAD_CMPT
    if g.scrubbing c then { g.set F.PIN_IMAGE_STATUS_BUSY 1 with pin := { g.pin with wait := some (a, slot, base, c) } }
    else g.imageRead a slot base c

/-- A slot is free again: its code goes. -/
def Gikan.dropImage (g : Gikan) (slot : Nat) : Gikan :=
  match g.pin.images.get? slot with
  | none => g
  | some i =>
    let imgs := g.pin.images.del slot
    let code := g.pin.code.filter (fun c => !(decide (i.base ≤ c.1) && decide (c.1 < i.base + i.count)))
    let g := { g with pin := { g.pin with images := imgs, code := code } }
    (g.setB F.PIN_IMAGE_STATUS_UNLOADING (imgs.any (fun j => j.2.unloading))).set F.PIN_IMAGE_STATUS_DONE 1

/-- A slot that unloads and that no item names any more is free. -/
def Gikan.unloadEnd (g : Gikan) : Gikan :=
  match g.pin.images.find? (fun i => i.2.unloading && g.slotItems i.1 == 0) with
  | none => g
  | some (slot, _) => g.dropImage slot

/-! RUN (R251, R252) -/

/-- The first code of R252 that applies, and what R229 gives when every core is fenced. -/
def Gikan.runCheck (g : Gikan) (kw : Nat) (c : Cmd) : Nat :=
  let mode := c.f 4 1
  let n := c.f 8 4
  let base := c.f 16 8
  let stride := c.f 24 8
  let res := c.f 32 8
  if c.f 0 2 != 1 || decide (1 < mode) || c.f 5 1 != 0 || c.f 14 2 != 0 || c.f 48 16 != 0 then stUNSUP
  else if (g.pinEntry (c.f 2 2) kw EntryPt.run).isNone || (mode == 1 && ((g.cmdSite c base).isNone || g.spanAbsent kw c base 1 false)) ||
    (res != 0 && g.spanAbsent kw c res (8 * max 1 n) false) then stNOTPRES
  else if decide (256 < c.f 6 2) || n == 0 || decide (16384 < n) || (if mode = 0 then decide (2047 < c.f 12 2) || base != 0 || stride != 0
      else c.f 12 2 != 0 || decide (2 ^ 48 ≤ stride)) ||
    (mode == 1 && !c.va && g.spanLong c base ((n - 1) * stride + 1)) ||
    (mode == 1 && c.va && (List.range n).any (fun i => g.spanLong c (base + i * stride) 1)) ||
    (res != 0 && g.spanLong c res (8 * n)) then stLENGTH
  else if (g.actingCore 0).isNone then stBUSY
  else stOK

/-- The address of instance i. -/
def Cmd.runAddr (c : Cmd) (i : Nat) : Nat :=
  match c.loc (c.f 16 8 + i * c.f 24 8) with
  | .fab a => a
  | .host _ a => a

/-- A RUN command queues its instances in order. -/
def Gikan.runCommand (g : Gikan) (k : CmdRef) : Gikan :=
  match g.cmdReady k opRUN with
  | none => g
  | some c =>
    let kw := k.kw.val
    let st := g.runCheck kw c
    if st ≠ stOK then g.cmdEnd kw c.idx st (2 ^ 32 - 1)
    else match g.pinEntry (c.f 2 2) kw EntryPt.run with
      | none => g
      | some e =>
        let n := c.f 8 4
        let arg := slice c.body 64 (c.f 6 2)
        (List.range n).foldl (fun h i =>
          let a := c.runAddr i
          let s := if c.f 4 1 = 0 then (c.f 12 2 + i) % 2048 else sliverOf a
          match h.actingCore s with
          | none => h
          | some core =>
            let (id, h) := h.pinId
            h.pinQueue core ⟨id, c.f 2 2, e, kw, .run kw c.idx i n (if c.f 4 1 = 0 then 0 else a) (c.f 40 8) arg⟩) (g.cmdRun kw c.idx n)

/-! TRIGGER (R44) -/

/-- An entry-point TRIGGER admitted through check 5 on its extent. -/
def Gikan.triggerHere (g : Gikan) (x : Nat) (q : Req) (i : Nat) (e : ExtW) : Gikan :=
  match g.pinEntry (trigEntry q) q.hdr.cmpt EntryPt.trigger with
  | none => g.refuse x q stNOTPRES
  | some ep =>
    if (g.map.revoked.get? i).isSome then g.refuse x q stREVOKED
    else if g.match3 q e.cmpt (some e.ward) ≠ 0 then g.refuseWard x q (g.match3 q e.cmpt (some e.ward)) i
    else if 256 < q.hdr.length ∨ 40 < trigResultMax q then g.refuse x q stLENGTH
    else
      let (ok, g) := g.check10 q e
      if !ok then g.refuse x q stBUSY else
      match g.actingCore (sliverOf q.hdr.addr) with
      | none => g.refuse x q stBUSY
      | some core =>
        if g.coreFull core then (g.inc F.PIN_QUEUE_FULL_REFUSALS 1).refuse x q stBUSY
        else
          let g := g.admitted x i q
          let (id, g) := g.pinId
          let (h, g) := g.hold x q i (.pin core id)
          g.pinPush core ⟨id, trigEntry q, ep, q.hdr.cmpt,
            .trigger h q.hdr.addr q.hdr.src (trigResultMax q) q.hdr.ward (fit q.payload q.hdr.length)⟩

/-- An entry-point TRIGGER as it arrives. -/
def Gikan.triggerArrive (g : Gikan) (x : Nat) (q : Req) : Gikan :=
  if q.hdr.type = tyTRIGGER ∧ trigEntry q = 0xFFFF then g else
  match g.receive x q tyTRIGGER false with
  | .done h => h
  | .go h i e => h.triggerHere x q i e

/-! Errors and registers -/

/-- PIN_SLOT_STATE and PIN_ENTRY_DATA of the slot and entry shown. -/
def Gikan.pinSlotWord (g : Gikan) : Nat :=
  match g.pin.images.get? (g.get F.PIN_SLOT_INDEX_SLOT) with
  | none => 0
  | some i => 1 + (if i.unloading then 2 else 0) + i.cmpt * 2 ^ 2 + i.base * 2 ^ 6 + i.count * 2 ^ 21 + (if i.unloading then 0 else i.entries) * 2 ^ 37

def Gikan.pinEntryWord (g : Gikan) : Nat :=
  match g.pin.entries.get? (g.get F.PIN_ENTRY_INDEX_ENTRY) with
  | none => 0
  | some e => 1 + (if e.excl then 2 else 0) + (if e.trigger then 4 else 0) + (if e.run then 8 else 0) + (if e.custom then 16 else 0) +
    e.slot * 2 ^ 5 + e.cmpt * 2 ^ 11 + e.pc * 2 ^ 15 + e.cycles * 2 ^ 30

def pinCounters : List Fld :=
  [F.PIN_IMAGE_STATUS_LOADS, F.PIN_IMAGE_STATUS_REFUSALS, F.PIN_ITEMS_STARTED, F.PIN_ITEMS_NOT_OK, F.PIN_EXC_EXCEPTIONS, F.PIN_EXC_KILLS, F.PIN_EXC_ECC,
   F.PIN_QUEUE_FULL_REFUSALS, F.PIN_QUEUE_CMPT_SWITCHES, F.PIN_MEM_BUSY_RESENDS, F.PIN_MEM_RESOLVES, F.PIN_MEM_STORE_FAULTS,
   F.PIN_SCRATCH_ECC_CORRECTED, F.PIN_SCRATCH_ECC_UNCORRECTED]

def Gikan.wrPinCtrl (g : Gikan) (w : RegW) : Gikan := if wrOne w F.PIN_CTRL_CLR_CNT then g.clear pinCounters else g

end Sys2Proof.Machine
end

