-- ==== Sys2Proof/Machine/Translate.lean ====
section
/-!
DEFINITION. Translation at submission (R271 to R277): spans, walks and the walk cache, pinned pages, host-window frames.
-/

namespace Sys2Proof.Machine

/-! Walks (R271 to R273) -/

/-- The root word of an address space (SUB_ASID_ROOT). -/
def Gikan.asidWord (g : Gikan) (n : Nat) : Nat := g.sub.asids.getD n 0

/-- Read an entry of a page table of `size` bytes: its word, or the code of the fault. -/
def Gikan.tableEntry (g : Gikan) (table size idx : Nat) : Gikan × (Nat ⊕ Nat) :=
  match g.siteAt table with
  | none => (g, .inl stNOTPRES)
  | some s =>
    let a := g.realAddr table
    if s.e.cmpt != g.get F.SUB_CTRL_PT_CMPT || !s.e.seated || !s.e.covers a size then (g, .inl stNOTPRES)
    else
      let (g, b, bad) := g.engRead s (a + 8 * idx) 8
      if bad then (g, .inl stPOISONED) else if !bit (leNat b) 0 then (g, .inl stNOTPRES) else (g, .inr (leNat b))

/-- Whether a word breaks R272 at L0; as an L1 pointer; as an L1 leaf; at L2. -/
def badL0 (e : Nat) : Bool := bit e 1 || bits e 3 9 != 0
def badL1 (e : Nat) : Bool := bits e 3 5 != 0
def badGiB (e : Nat) : Bool := bits e 3 5 != 0 || bits e 8 22 != 0
def badL2 (e : Nat) : Bool := !bit e 1 || (bit e 4 && !bit e 3) || bits e 5 20 != 0

/-- Walk one virtual address through the three levels. -/
def Gikan.walk (g : Gikan) (asid va : Nat) : Gikan × (Nat ⊕ XPage) :=
  let g := g.inc F.SUB_XLATE_EVENTS_WALKS 1
  let root := g.asidWord asid / 65536 * 65536
  match g.tableEntry root 65536 (bits va 39 13) with
  | (g, .inl st) => (g, .inl st)
  | (g, .inr e0) =>
    if badL0 e0 then (g, .inl stUNSUP) else
    match g.tableEntry (e0 / 4096 * 4096) 4096 (bits va 30 9) with
    | (g, .inl st) => (g, .inl st)
    | (g, .inr e1) =>
      if bit e1 1 then
        if badGiB e1 then (g, .inl stUNSUP)
        else (g, .inr ⟨va / 2 ^ 30 * 2 ^ 30, 2 ^ 30, e1 / 2 ^ 30 * 2 ^ 30, bit e1 2, none⟩)
      else if badL1 e1 then (g, .inl stUNSUP)
      else match g.tableEntry (e1 / 256 * 256) 256 (bits va 25 5) with
        | (g, .inl st) => (g, .inl st)
        | (g, .inr e2) =>
          if badL2 e2 then (g, .inl stUNSUP)
          else (g, .inr ⟨va / 2 ^ 25 * 2 ^ 25, 2 ^ 25, e2 / 2 ^ 25 * 2 ^ 25, bit e2 2,
            if bit e2 3 then some (if bit e2 4 then .b else .a) else none⟩)

/-- The page of a virtual address: from the walk cache, else from a walk, which the cache then keeps. -/
def Gikan.xlate (g : Gikan) (asid va : Nat) : Gikan × (Nat ⊕ XPage) :=
  match g.sub.walks.find? (fun w => w.1 == asid && decide (w.2.va ≤ va) && decide (va < w.2.va + w.2.size)) with
  | some w => (g, .inr w.2)
  | none =>
    match g.walk asid va with
    | (g, .inl st) => (g, .inl st)
    | (g, .inr p) =>
      let ws := g.sub.walks ++ [(asid, p)]
      ({ g with sub := { g.sub with walks := ws.drop (ws.length - 4096) } }, .inr p)

/-- Translate the span from `va` to `fin` onto the pages found so far; a fault is its code and the virtual address. -/
def Gikan.mapSpan (g : Gikan) (asid : Nat) (write : Bool) (fin : Nat) : Nat → Nat → List XPage → Gikan × List XPage × Option (Nat × Nat)
  | 0, _, ps => (g, ps, none)
  | f + 1, va, ps =>
    if fin ≤ va then (g, ps, none)
    else if 2 ^ 52 ≤ va then (g, ps, some (stLENGTH, va))
    else match ps.find? (fun p => decide (p.va ≤ va) && decide (va < p.va + p.size)) with
      | some p => if write && !p.write then (g, ps, some (stWARD, va)) else g.mapSpan asid write fin f (p.va + p.size) ps
      | none =>
        if 16 ≤ ps.length then (g, ps, some (stLENGTH, va)) else
        match g.xlate asid va with
        | (h, .inl st) => (h, ps, some (st, va))
        | (h, .inr p) => if write && !p.write then (h, ps, some (stWARD, va)) else h.mapSpan asid write fin f (p.va + p.size) (ps ++ [p])

/-- Translate a list of spans in order, up to the first fault. -/
def Gikan.mapSpans (g : Gikan) (asid : Nat) : List (Nat × Nat × Bool) → List XPage → Gikan × List XPage × Option (Nat × Nat)
  | [], ps => (g, ps, none)
  | s :: ss, ps =>
    match g.mapSpan asid s.2.2 (s.1 + s.2.1) 40 s.1 ps with
    | (h, ps, some f) => (h, ps, some f)
    | (h, ps, none) => h.mapSpans asid ss ps

/-- The spans of a command's fields in the order of R266: address, bytes, written (R273). A GATHER's table comes with the bytes its indices
reach. -/
def Cmd.spans (c : Cmd) (tableBytes : Nat) : List (Nat × Nat × Bool) :=
  if c.op = opMOVE then [(c.f 0 8, c.f 16 8, false), (c.f 8 8, c.f 16 8, true)]
  else if c.op = opFILL then [(c.f 0 8, c.f 8 8, true)]
  else if c.op = opGATHER ∨ c.op = opFILTER ∨ c.op = opSCORE then c.jobSpans tableBytes
  else if c.op = opRUN then
    (if c.f 4 1 = 1 then [(c.f 16 8, (c.f 8 4 - 1) * c.f 24 8 + 1, false)] else []) ++
    (if c.f 32 8 ≠ 0 then [(c.f 32 8, 8 * c.f 8 4, true)] else [])
  else if c.op = opPUBLISH then [(c.f 0 8, max 1 (c.f 20 2), false), (c.f 8 8, max 1 (c.f 20 2), false)]
  else []

/-- The index list of a GATHER. -/
def Cmd.indexSpan (c : Cmd) : Nat × Nat × Bool := (c.f 24 8, c.f 8 4 * c.f 3 1, false)

/-! Pins (R275) -/

/-- The placement pages homed here that the command's spans touch, by key. -/
def Gikan.pinsOf (g : Gikan) (c : Cmd) (tableBytes : Nat) : List Nat :=
  (c.spans tableBytes).foldl (fun l s =>
    (c.pieces s.1 s.2.1).foldl (fun l p =>
      match c.loc p.1 with
      | .host _ _ => l
      | .fab a => match g.siteAt a with
        | some t => (pagesOf t (g.realAddr a) p.2).foldl (fun l k => insNat l (pageKey t.entry k)) l
        | none => l) l) []

/-- Placement pages pinned now. -/
def Gikan.pinnedPages (g : Gikan) : List Nat :=
  g.sub.kws.foldl (fun l k => k.2.cmds.foldl (fun l c => if c.pinned then c.pins.foldl insNat l else l) l) []

/-- Pin a command's pages when there is room, and start the fetches of those that are LOWER. -/
def Gikan.pinCmd (g : Gikan) (kw idx : Nat) : Gikan :=
  match g.cmd? kw idx with
  | none => g
  | some c =>
    if c.pinned || decide (8192 < (c.pins.foldl insNat g.pinnedPages).length) then g
    else
      let g := g.updCmd kw idx (fun c => { c with pinned := true })
      c.pins.foldl (fun h k =>
        let entry := k / 2 ^ 24
        let p := k % 2 ^ 24
        let r := h.page entry p
        if r.state = .lower ∧ r.moving = .none then (h.inc F.SUB_PIN_FETCHES 1).startFetch entry p 0 false else h) g

/-- Whether every pinned page has left LOWER. -/
def Gikan.pinsHere (g : Gikan) (c : Cmd) : Bool := c.pinned && c.pins.all (fun k => (g.page (k / 2 ^ 24) (k % 2 ^ 24)).state != .lower)

/-! Host-window frames (R276) -/

/-- The frames reserved at the seal that do not wait for their stamping. -/
def Gikan.hostFrames (g : Gikan) : Nat := g.framesIn (fun x => x == .window)

/-- Granules of host pages in the command's spans. -/
def Cmd.hostFill (c : Cmd) (tableBytes : Nat) : List Nat :=
  (c.spans tableBytes).foldl (fun l s => (c.hostGranules s.1 s.2.1).foldl insNat l) []

def Gikan.frameFor (g : Gikan) (p : XPage) (s : Side) : Option HostFrame := g.sub.frames.find? (fun f => f.side == s && f.page == p.addr)

/-- Take or share the frames of a command's host pages, and read the granules that nobody has asked for. -/
def Gikan.takeFrames (g : Gikan) (c : Cmd) : Gikan :=
  c.pages.zipIdx.foldl (fun h x =>
    match x.1.host with
    | none => h
    | some s =>
      let need := (c.fill.filter (fun n => n / 8192 == x.2)).map (fun n => n % 8192)
      let fs := h.sub.frames
      let old := h.frameFor x.1 s
      if old.isNone && decide (h.hostFrames ≤ fs.length) then h
      else
        let f := old.getD ⟨s, x.1.addr, [], []⟩
        let new := need.filter (fun n => !f.got.contains n && !f.asked.contains n)
        let f1 := { f with asked := new.foldl insNat f.asked }
        let fs1 := fs.filter (fun y => !(y.side == s && y.page == x.1.addr)) ++ [f1]
        new.foldl (fun h n => h.emit (.hostRead s (x.1.addr + 4096 * n) 4096)) { h with sub := { h.sub with frames := fs1 } }) g

/-- Whether the command holds a frame for each of its host pages. -/
def Gikan.framesHeld (g : Gikan) (c : Cmd) : Bool :=
  c.pages.all (fun p => match p.host with | some s => (g.frameFor p s).isSome | none => true)

/-- What of the command's fill is still missing. -/
def Gikan.fillLeft (g : Gikan) (c : Cmd) : List Nat :=
  c.fill.filter (fun n =>
    match c.pages[n / 8192]? with
    | some p => (match p.host with
      | some s => (match g.frameFor p s with | some f => !f.got.contains (n % 8192) | none => true)
      | none => false)
    | none => false)

/-- Whether a host page of the command lies behind a port that is down. -/
def Gikan.hostDown (g : Gikan) (c : Cmd) : Bool :=
  c.pages.any (fun p => match p.host with | some s => !(g.port s).up | none => false)

/-- A host-window frame that is let go waits for its stamping (R97, R276); which of them held the page is seen nowhere: the lowest is taken. -/
def Gikan.windowReleased (g : Gikan) : Gikan :=
  match g.stk.frames.find? (fun c => c.2 == .window) with
  | some c => g.setFrame c.1 .windowWait
  | none => g

/-- Release the frames that no command holds: their bytes are gone. -/
def Gikan.releaseHostFrames (g : Gikan) : Gikan :=
  let held := fun (f : HostFrame) => g.sub.kws.any (fun k => k.2.cmds.any (fun c => c.pages.any (fun p => p.host == some f.side && p.addr == f.page)))
  let gone := g.sub.frames.filter (fun f => !held f)
  let inGone := fun (a : Nat) => gone.any (fun f => decide (hostKey f.side f.page ≤ a) && decide (a < hostKey f.side f.page + pageBytes))
  let g := gone.foldl (fun h _ => h.windowReleased) g
  { g with sub := { g.sub with frames := g.sub.frames.filter held, hostMem := g.sub.hostMem.filter (fun c => !inGone c.1) } }

/-! From translated to READY -/

/-- A command whose pages are known moves on as far as its pins and frames allow: to READY, or, with only a GATHER's index list translated,
back to TRANSLATING. -/
def Gikan.cmdSettle (g : Gikan) (kw idx : Nat) : Gikan :=
  match g.cmd? kw idx with
  | none => g
  | some c =>
    if g.hostDown c then g.cmdEnd kw idx stNOTPRES 0
    else
      let g := g.pinCmd kw idx
      let g := g.takeFrames c
      match g.cmd? kw idx with
      | none => g
      | some c =>
        let left := g.fillLeft c
        let done := g.framesHeld c && left.isEmpty
        let st := if !done || (c.whole && !g.pinsHere c) then CmdState.faulted else if c.whole then .ready else .translating
        g.updCmd kw idx (fun c => { c with st := st, fill := left })

/-- PAGES_RESIDENT. -/
def Gikan.pagesResident (g : Gikan) (k : CmdRef) : Gikan :=
  match g.cmd? k.kw.val k.idx with
  | some c => if c.st = .faulted && !g.hasp then g.cmdSettle k.kw.val k.idx else g
  | none => g

/-- One granule of a host page arrives in its frame. -/
def Gikan.granuleFill (g : Gikan) (c : Cmd) (n : Nat) (data : List Byte) : Gikan :=
  match c.pages[n / 8192]? with
  | none => g
  | some p =>
    match p.host with
    | none => g
    | some s =>
      match g.frameFor p s with
      | none => g
      | some f =>
        let k := n % 8192
        if !f.asked.contains k then g else
        let f1 := { f with got := insNat f.got k, asked := f.asked.filter (fun x => x != k) }
        let fs := g.sub.frames.map (fun y => if y == f then f1 else y)
        let m := memPutN g.sub.hostMem (hostKey s (p.addr + 4096 * k)) (fit data 4096)
        let g := { g with sub := { g.sub with frames := fs, hostMem := m } }
        if f1.asked.isEmpty then g.inc F.SUB_HOSTWIN_FILLS 1 else g

/-- HOST_FILL_END: granules that a command waits for arrive. -/
def Gikan.hostFillEnd (g : Gikan) (k : CmdRef) (granules : List (Nat × List Byte)) : Gikan :=
  match g.cmd? k.kw.val k.idx with
  | some c =>
    if c.st ≠ .faulted ∨ g.hasp then g else
    (granules.foldl (fun h x => if c.fill.contains x.1 then h.granuleFill c x.1 x.2 else h) g).cmdSettle k.kw.val k.idx
  | none => g

/-! Invalidation (R277) -/

/-- A write of SUB_XLATE_INVAL. -/
def Gikan.wrXlateInval (g : Gikan) (w : RegW) : Gikan :=
  let g := g.putField w F.SUB_XLATE_INVAL_DONE
  if !wrOne w F.SUB_XLATE_INVAL_GO then g else
  let asid := (wrField w F.SUB_XLATE_INVAL_ASID).1 &&& (wrField w F.SUB_XLATE_INVAL_ASID).2
  let all := wrOne w F.SUB_XLATE_INVAL_ALL
  let walking := g.sub.kws.flatMap (fun k => (k.2.cmds.filter (fun c => c.st == .translating)).map (fun c => (k.1, c.idx)))
  let old := g.sub.inval.getD []
  { g.set F.SUB_XLATE_INVAL_BUSY 1 with sub := { g.sub with
    walks := g.sub.walks.filter (fun x => !(all || x.1 == asid)), inval := some (old ++ walking) } }

/-- XLATE_INVAL_DONE. -/
def Gikan.xlateInvalDone (g : Gikan) : Gikan :=
  match g.sub.inval with
  | none => g
  | some l =>
    let walks := l.any (fun x => match g.cmd? x.1 x.2 with | some c => c.st == .translating | none => false)
    if walks then g else
    (({ g with sub := { g.sub with inval := none } }.set F.SUB_XLATE_INVAL_BUSY 0).set F.SUB_XLATE_INVAL_DONE 1).inc F.SUB_XLATE_EVENTS_INVALS 1

end Sys2Proof.Machine
end

