-- ==== Sys2Proof/Machine/Keyways.lean ====
section
/-!
DEFINITION. Keyways (R253 to R258, R262 to R269): landing zones, acceptance and the checks of a command, the end of translation, the release
of AFTER, PUBLISH, SCHEDULE, LEND and FENCE commands, and the completion record.
-/

namespace Sys2Proof.Machine

/-! Completion (R255, R267 to R269) -/

/-- DETAIL of the record. -/
def Cmd.recDetail (c : Cmd) : Nat := if c.op = opSETUP ∧ c.length ≠ 0 then c.f 2 2 else c.detail

/-- The completion record. -/
def Gikan.record (g : Gikan) (c : Cmd) (phase : Nat) : List Byte :=
  leBytes 8 c.user ++ leBytes 4 c.idx ++ leBytes 1 c.op ++ leBytes 1 c.status ++ leBytes 1 phase ++ leBytes 1 0 ++ leBytes 8 c.recDetail ++
  leBytes 8 g.tickNo

/-- FENCE requests that wait for a command learn that it is COMPLETE; one that waits for nothing more is answered (R47). -/
def Gikan.fenceLearn (g : Gikan) (kw idx : Nat) : Gikan :=
  g.req.held.foldl (fun h d =>
    match d.why with
    | .fenceCmds left =>
      if d.q.hdr.cmpt != kw || !left.contains idx then h
      else
        let rest := left.filter (fun i => i != idx)
        if rest.isEmpty then (h.release d.id).answer 47 d.x d.q stOK []
        else { h with req := { h.req with held := h.req.held.map (fun e => if e.id == d.id then { e with why := Hold.fenceCmds rest } else e) } }
    | _ => h) g

/-- A command is COMPLETE: its entry is freed. -/
def Gikan.cmdGone (g : Gikan) (kw idx : Nat) : Gikan :=
  let k := g.kway kw
  let g := g.setKway kw { k with cmds := k.cmds.filter (fun c => c.idx != idx) }
  (g.releaseHostFrames.viewed kw View.command).fenceLearn kw idx

/-- Write a command's record, if its queue has room and no other record waits before it. -/
def Gikan.writeRecordOf (g : Gikan) (q kw idx : Nat) : Gikan :=
  let r := g.cq q
  match g.cmd? kw idx with
  | none => g
  | some c =>
    if r.records ≤ r.used then g
    else
      let g := g.ringWrite r r.records 32 (g.record c (r.phase r.records))
      let (g, r) := g.ringPut r c.notify
      let g := g.setCq q r
      let g := { g with sub := { g.sub with waiting := g.sub.waiting.filter (fun w => w != (q, kw, idx)) } }
      g.cmdGone kw idx

/-- The records that wait for a queue take the room it has, in completion order. -/
def Gikan.cqDrain (g : Gikan) (q : Nat) : Gikan :=
  (g.sub.waiting.filter (fun w => w.1 == q)).foldl (fun h w => h.writeRecordOf q w.2.1 w.2.2) g

/-- Write back the granules that a command wrote in host pages (R276); a port that is down ends the command with NOT_PRESENT. -/
def Gikan.drainHost (g : Gikan) (kw : Nat) (c : Cmd) : Gikan :=
  if c.dirty.isEmpty then g else
  let place := fun (n : Nat) => match c.pages[n / 8192]? with
    | some p => p.host.map (fun s => (s, p.addr + 4096 * (n % 8192)))
    | none => none
  let gs := c.dirty.filterMap place
  let g := g.updCmd kw c.idx (fun d => { d with dirty := [] })
  if gs.any (fun x => !(g.port x.1).up) then g.cmdEnd kw c.idx stNOTPRES c.detail
  else (gs.foldl (fun h x => h.emit (.hostWrite x.1 x.2 (memGetN h.sub.hostMem (hostKey x.1 x.2) 4096))) g).inc F.SUB_HOSTWIN_DRAINS 1

/-- COMMAND_COMPLETE. -/
def Gikan.commandComplete (g0 : Gikan) (k : CmdRef) : Gikan :=
  let g := g0
  let kw := k.kw.val
  match g.cmd? kw k.idx with
  | none => g
  | some c =>
    if c.st ≠ .done ∨ g.hasp then g else
    if g.sub.waiting.contains (c.cq, kw, c.idx) then g0.cohSettle (g.cqDrain c.cq)
    else
      let g := g.drainHost kw c
      match g.cmd? kw k.idx with
      | none => g
      | some c =>
        let g := if c.status = stOK then g else g.inc F.SUB_CMD_NOT_OK 1
        if (c.quiet && c.status == stOK) || !(g.cq c.cq).valid then g.cmdGone kw c.idx
        else g0.cohSettle (({ g with sub := { g.sub with waiting := g.sub.waiting ++ [(c.cq, kw, c.idx)] } }).cqDrain c.cq)

/-- A write of SUB_CQ_HEAD (R267, R269), and of SUB_MQ_HEAD (R270). -/
def Gikan.wrCqHead (g : Gikan) (w : RegW) : Gikan :=
  let n := g.get (F.SUB_Q_INDEX_QUEUE 0)
  let lo := bits (halfMask w.half) 0 32
  if lo = 0 ∨ 256 ≤ n then g else
  let (h, r) := g.ringHead (g.cq n) (bits w.data.toNat 0 32)
  g.cohSettle ((h.setCq n r).cqDrain n)

def Gikan.wrMqHead (g : Gikan) (w : RegW) : Gikan :=
  let n := g.get (F.SUB_Q_INDEX_QUEUE 1)
  let lo := bits (halfMask w.half) 0 32
  if lo = 0 then g else
  let (g, r) := g.ringHead (g.mq n) (bits w.data.toNat 0 32)
  g.setMq n r

/-! Checks of bodies (R257, order 6) -/

/-- Element bytes of an OUT code of R200. -/
def outElem (out : Nat) : Nat := elemBits out / 8

def Cmd.expands (c : Cmd) : Bool := c.op == opMOVE && bit (c.f 40 1) 0

/-- Whether two spans of a command meet in fabric address. -/
def Gikan.spansMeet (g : Gikan) (c : Cmd) (a b n : Nat) : Bool :=
  (c.pieces a n).any (fun p => (c.pieces b n).any (fun r =>
    match c.loc p.1, c.loc r.1 with
    | .fab x, .fab y => meets (g.realAddr x) p.2 (g.realAddr y) r.2
    | _, _ => false))

/-- The extent of the map that an address lies in, wherever its home. -/
def Gikan.extentOf (g : Gikan) (a : Nat) : Option ExtW := (g.map.cur.extentAt (g.realAddr a)).map (fun x => x.2)

/-- MOVE (R259, R200). -/
def Gikan.moveCheck (g : Gikan) (c : Cmd) : Nat :=
  let x := c.expands
  let n := c.f 16 8
  let out := c.f 41 1
  if bits (c.f 40 1) 1 7 != 0 || c.f 42 6 != 0 || (if x then c.va || out == 0 || decide (5 < out) else out != 0 || c.f 48 8 != 0 || c.f 56 8 != 0) then
    stUNSUP
  else if n = 0 ∨ 2 ^ 40 < n then stLENGTH
  else if x && (decide (2 ^ 40 ≤ c.f 48 8) || c.f 56 8 == 0 || decide (2 ^ 40 < c.f 56 8) || n != c.f 56 8 * outElem out) then stLENGTH
  else if !c.va && (decide (2 ^ 48 < addrOff (c.f 8 8) + n) || (!x && decide (2 ^ 48 < addrOff (c.f 0 8) + n))) then stLENGTH
  else if !x then (if g.spansMeet c (c.f 0 8) (c.f 8 8) n then stUNSUP else stOK)
  else match g.siteAt (c.f 0 8) with
    | none => stNOTPRES
    | some s =>
      if s.e.comp = 0 then stUNSUP
      else if (g.cutPieces c (c.f 8 8) n).any (fun p => match g.extentOf p.1 with | some e => e.comp != 0 | none => true) then stUNSUP
      else if !g.tensorFits s (g.realAddr (c.f 0 8)) (c.f 48 8) (c.f 56 8) then stLENGTH
      else stOK

/-- FILL (R260). -/
def fillCheck (c : Cmd) : Nat :=
  let n := c.f 8 8
  if n = 0 ∨ 2 ^ 40 < n then stLENGTH
  else if !c.va && decide (2 ^ 48 < addrOff (c.f 0 8) + n) then stLENGTH
  else stOK

/-- PUBLISH (R262). -/
def Gikan.pubCheck (g : Gikan) (kw : Nat) (c : Cmd) : Nat :=
  let n := c.f 20 2
  if c.f 22 2 != 0 || (n == 0 && c.f 8 8 != 0) then stUNSUP
  else if 4096 < n then stLENGTH
  else if n ≠ 0 && !g.isLocal c (c.f 8 8) then stNOTPRES
  else if n = 0 then stOK else g.spanCode kw c (c.f 8 8) n false

/-- SCHEDULE (R264). -/
def Gikan.schedCheck (g : Gikan) (kw : Nat) (c : Cmd) : Nat :=
  let n := c.f 8 4
  if c.f 12 4 != 0 then stUNSUP
  else if n < 32 ∨ n % 32 ≠ 0 ∨ 524320 < n then stLENGTH
  else match g.siteAt (c.f 0 8) with
    | none => stNOTPRES
    | some s =>
      if s.e.cmpt != kw || s.e.comp != 0 then stNOTPRES
      else if !s.e.covers (g.realAddr (c.f 0 8)) n then stLENGTH
      else stOK

/-- LEND (R263). -/
def Gikan.lendCheck (g : Gikan) (kw : Nat) (c : Cmd) : Nat :=
  let act := c.f 2 1
  let n := c.f 16 4
  let a := c.f 8 8
  if c.f 3 1 != 0 || c.f 6 2 != 0 || c.f 20 12 != 0 || !(act == 1 || act == 2) || (act == 1 && c.f 4 2 != 0) || addrOff a % pageBytes != 0 then stUNSUP
  else if n = 0 ∨ 4096 < n then stLENGTH
  else match g.siteAt a with
    | none => stNOTPRES
    | some s =>
      if s.e.cmpt != kw then stNOTPRES
      else if s.e.tier != 0 || s.e.comp != 0 || s.e.modeB then stUNSUP
      else if !s.e.covers (g.realAddr a) (n * pageBytes) then stLENGTH
      else stOK

/-- FENCE (R265). -/
def fenceCheck (c : Cmd) : Nat :=
  let n := c.f 0 1
  if bits (c.f 1 1) 1 7 != 0 || c.f 2 6 != 0 || (List.range 16).any (fun i => decide (n ≤ i) && c.f (8 + 2 * i) 2 != 0) then stUNSUP
  else if 16 < n then stLENGTH else stOK

def Gikan.bodyCheck (g : Gikan) (kw : Nat) (c : Cmd) : Nat :=
  match c.op with
  | 1 => g.moveCheck c
  | 2 => fillCheck c
  | 3 => g.setupCheck kw c.body
  | 4 => g.jobCheck kw c
  | 5 => g.jobCheck kw c
  | 6 => g.jobCheck kw c
  | 7 => g.runCheck kw c
  | 8 => g.pubCheck kw c
  | 9 => g.schedCheck kw c
  | 10 => g.lendCheck kw c
  | _ => fenceCheck c

/-- End a command on a check, with what its family counts. -/
def Gikan.cmdRefused (g : Gikan) (kw : Nat) (c : Cmd) (st : Nat) : Gikan :=
  let g := if st = stUNSUP ∧ (c.op = opGATHER ∨ c.op = opFILTER ∨ c.op = opSCORE) then g.inc F.GFS_REFUSALS_FORMAT 1 else g
  g.cmdEnd kw c.idx st (if c.op = opRUN then 2 ^ 32 - 1 else 0)

/-! The header (R256, R257) -/

/-- Body bytes of R266. -/
def Cmd.bodyBytes (c : Cmd) : Nat :=
  match c.op with
  | 1 => 64
  | 2 => 32
  | 3 => 128 + 24 * c.f 25 1
  | 4 => 64
  | 5 => 64 + 16 * c.f 3 1
  | 6 => 64
  | 7 => 64 + ceilDiv (c.f 6 2) 8 * 8
  | 8 => 32
  | 9 => 16
  | 10 => 32
  | _ => 40

/-- Whether a command takes VA (R266). -/
def Cmd.mayVa (c : Cmd) : Bool :=
  c.op == opMOVE && !c.expands || c.op == opFILL || c.op == opGATHER || c.op == opFILTER || c.op == opSCORE || c.op == opRUN || c.op == opPUBLISH

/-- Order 2 of R257. -/
def Cmd.headerBad (c : Cmd) : Bool :=
  c.op == 0 || decide (11 < c.op) || bits (field c.bytes 1 1) 4 4 != 0 || field c.bytes 16 16 != 0 || (c.va && !c.mayVa) || (!c.va && c.asid != 0)

/-- COMMAND_CHECK: the checks of R257 on a command just accepted. Those of a VA command's addresses and body follow its walks. -/
def Gikan.commandCheck (g : Gikan) (kw idx : Nat) : Gikan :=
  match g.cmd? kw idx with
  | none => g
  | some c =>
    let r := g.cq c.cq
    let root := g.asidWord c.asid
    if 256 ≤ c.cq ∨ !r.valid ∨ r.cmpt ≠ kw then (g.inc F.SUB_KW_EVENTS_NO_CQ 1).cmdGone kw idx
    else if c.headerBad then g.cmdRefused kw c stUNSUP
    else if c.length ≠ 32 + c.bodyBytes then g.cmdRefused kw c stLENGTH
    else if c.va && (decide (4096 ≤ c.asid) || !bit root 0 || bits root 1 4 != kw) then g.cmdRefused kw c stNOTPRES
    else if c.va then g.updCmd kw idx (fun c => { c with st := .translating })
    else
      let st := g.bodyCheck kw c
      if st ≠ stOK then g.cmdRefused kw c st else g.updCmd kw idx (fun c => { c with st := .ready, whole := true })

/-- COMMAND_ACCEPT: a whole packet takes an entry and NEXT_INDEX (R254), and is checked; its work wakes the engines (R360). -/
def Gikan.accept (g : Gikan) (kw : Nat) (bytes : List Byte) (src : Option Nat) : Gikan :=
  let k := g.kway kw
  let c : Cmd := ⟨k.next, src, bytes, .queued, false, 0, 0, [], [], false, 0, [], 0, 0, [], [], false, none⟩
  let g := (g.setKway kw { k with next := (k.next + 1) % 2 ^ 32, cmds := k.cmds ++ [c] }).inc F.SUB_CMD_ACCEPTED 1
  ((g.arrivedWork 0).wakeFor 0).2.commandCheck kw c.idx

/-- Whether a Keyway has a free entry. -/
def Gikan.kwRoom (g : Gikan) (kw : Nat) : Bool := decide ((g.kway kw).cmds.length < 256)

/-! Landing zones (R254) -/

def Zone.empty (now : Nat) : Zone := ⟨[], [], none, now, false⟩

def Gikan.setZone (g : Gikan) (kw z : Nat) (o : Option Zone) : Gikan :=
  let k := g.kway kw
  g.setKway kw { k with zones := match o with | some x => k.zones.put z x | none => k.zones.del z }

/-- Bytes written at an offset of a zone. -/
def Zone.write (x : Zone) (off : Nat) (data : List Byte) : Zone :=
  data.zipIdx.foldl (fun y d => { y with bytes := y.bytes.setD (off + d.2) 0 d.1, have_ := y.have_.put (off + d.2) true }) x

/-- Whether the first `n` bytes have been written. -/
def Zone.has (x : Zone) (n : Nat) : Bool := (List.range n).all (fun i => (x.have_.get? i).isSome)

def Zone.packet (x : Zone) (n : Nat) : List Byte := (List.range n).map (fun i => x.bytes.getD i 0)

/-- A zone after a write: emptied for its length, accepted, held, or still filling. -/
def Gikan.zoneNext (g : Gikan) (kw z : Nat) (x : Zone) : Gikan :=
  let len := match x.len with
    | some n => some n
    | none => if x.has 8 then some (field (x.packet 8) 4 2) else none
  match len with
  | none => g.setZone kw z (some x)
  | some n =>
    if n % 8 ≠ 0 ∨ n < 32 ∨ 4096 < n then (g.setZone kw z none).inc F.SUB_KW_EVENTS_BAD_LENGTH 1
    else if !x.has n then g.setZone kw z (some { x with len := some n })
    else if g.kwRoom kw then (g.setZone kw z none).accept kw (x.packet n) none
    else g.setZone kw z (some { x with len := some n, held := true })

/-- A write into BAR2 (R3, R253, R254): 4 or 8 bytes at an aligned offset of a landing zone. -/
def Gikan.keywayWrite (g : Gikan) (b : Bus) (off width : Nat) (data : Nat) : Gikan :=
  let kw := off / 0x10000
  let o := off % 0x10000
  if b = .i3c ∨ g.hasp ∨ g.phase ≤ 1 ∨ !(width = 4 ∨ width = 8) ∨ off % width ≠ 0 ∨ 0x100000 ≤ off ∨ 0x8000 ≤ o then g
  else
    let z := o / 4096
    let x := ((g.kway kw).zones.get? z).getD (Zone.empty g.now)
    if g.scrubbing kw then g.inc F.SEC_SCRUB_COUNTS_WRITES_DROPPED 1
    else if x.held then g.inc F.SUB_KW_EVENTS_OVERWRITES 1
    else g.cohSettle (g.zoneNext kw z (x.write (o % 4096) (leBytes width data)))

/-- Instances of a RUN that have not ended. -/
def Gikan.runLeft (g : Gikan) (kw idx : Nat) : List Nat :=
  let num := fun (i : PinItem) => match i.by_ with | .run k x n _ _ _ _ => if k = kw ∧ x = idx then some n else none | _ => none
  (g.pin.outside.filterMap (fun o => num o.2)) ++ g.pin.cores.flatMap (fun c =>
    c.2.queue.filterMap num ++ c.2.threads.filterMap (fun t => num t.2.item) ++ c.2.ready.flatMap (fun r => r.2.filterMap (fun i => num i.1)))

/-- DETAIL of a command that a scrub ends (R268). -/
def Gikan.scrubDetail (g : Gikan) (kw : Nat) (c : Cmd) : Nat :=
  if c.op = opMOVE ∨ c.op = opFILL then c.written
  else if c.op = opRUN then
    (g.runLeft kw c.idx).foldl min (match c.codes with | (k, _) :: _ => k | [] => if c.st = .running then 2 ^ 32 - 1 else 0)
  else c.detail

/-- A scrub ends a command with REVOKED (R325). -/
def Gikan.scrubCmd (g : Gikan) (kw idx : Nat) : Gikan :=
  match g.cmd? kw idx with
  | none => g
  | some c =>
    if c.st = .done then g
    else ((g.updCmd kw idx (fun d => { d with dirty := [] })).cmdEnd kw idx stREVOKED (g.scrubDetail kw c)).inc F.SEC_SCRUB_COUNTS_COMMANDS_ENDED 1

/-- HELD_ZONE_ACCEPT; a packet that a compartment under a scrub accepts ends REVOKED. -/
def Gikan.heldZone (g : Gikan) (kw z : Nat) : Gikan :=
  match (g.kway kw).zones.get? z with
  | some x =>
    if x.held && g.kwRoom kw && !g.hasp then
      let idx := (g.kway kw).next
      let h := (g.setZone kw z none).accept kw (x.packet (x.len.getD 0)) none
      g.cohSettle (if g.scrubbing kw then h.scrubCmd kw idx else h)
    else g
  | none => g

/-- ZONE_TIMEOUT. -/
def Gikan.zoneTimeout (g : Gikan) (kw z : Nat) : Gikan :=
  match (g.kway kw).zones.get? z with
  | some x =>
    if x.held || decide (g.now < x.since + 1000 * max 10 (g.get F.SUB_CTRL_ZONE_TIMEOUT_US)) then g
    else (g.setZone kw z none).inc F.SUB_KW_EVENTS_ABANDONED 1
  | none => g

/-! A command carried by a TRIGGER, and the FENCE request (R44, R47) -/

def Gikan.triggerCommand (g : Gikan) (x : Nat) (q : Req) : Gikan :=
  if q.hdr.type = tyTRIGGER ∧ trigEntry q ≠ 0xFFFF then g else
  match g.receive x q tyTRIGGER false with
  | .done h => h
  | .go h _ _ => h.nodeAdmit x q (fun g =>
    let n := q.hdr.length
    let kw := q.hdr.cmpt
    if n < 32 ∨ 4096 < n ∨ n % 8 ≠ 0 ∨ field q.payload 4 2 ≠ n ∨ 40 < trigResultMax q then g.refuse x q stLENGTH
    else g.node10 x q (fun g =>
      if !g.kwRoom kw then g.refuse x q stBUSY
      else
        let idx := (g.kway kw).next
        g.cohSettle (((g.admitted x 0 q).answer 47 x q stOK (leBytes 8 idx)).accept kw (fit q.payload n) (some q.hdr.src))))

def Gikan.fenceArrive (g : Gikan) (x : Nat) (q : Req) : Gikan :=
  match g.receive x q tyFENCE false with
  | .done h => h
  | .go h _ _ => h.nodeAdmit x q (fun g =>
    if q.hdr.length ≠ 0 then g.refuse x q stLENGTH
    else g.node10 x q (fun g =>
      let left := ((g.kway q.hdr.cmpt).cmds.filter (fun c => c.src == some q.hdr.src)).map (fun c => c.idx)
      let g := g.admitted x 0 q
      if left.isEmpty then g.answer 47 x q stOK [] else (g.hold x q 0 (.fenceCmds left)).2))

/-! The end of translation (R273, R274) -/

/-- The bytes that a GATHER's indices reach, once its index list has been read (R273). -/
def Gikan.tableBytes (g : Gikan) (c : Cmd) : Gikan × Nat :=
  if c.op = opGATHER then
    let (g, p, _) := g.cmdGather c
    (g, p.tableBytes)
  else (g, 0)

/-- A fault of R274. -/
def Gikan.xlateFault (g : Gikan) (kw idx : Nat) (f : Nat × Nat) : Gikan := (g.inc F.SUB_XLATE_EVENTS_FAULTS 1).cmdEnd kw idx f.1 f.2

/-- The pages of a command go into its descriptor; the body is checked, and the command waits for its pages and frames, or is READY. -/
def Gikan.xlated (g : Gikan) (kw : Nat) (c : Cmd) (pages : List XPage) (tableBytes : Nat) : Gikan :=
  let c := { c with pages := pages, whole := true }
  let g := g.updCmd kw c.idx (fun _ => c)
  let st := g.bodyCheck kw c
  if st ≠ stOK then g.cmdRefused kw c st
  else (g.updCmd kw c.idx (fun d => { d with pins := g.pinsOf c tableBytes, pinned := false, fill := c.hostFill tableBytes })).cmdSettle kw c.idx

/-- The work of TRANSLATION_END. A GATHER's index list is translated first, and its granules of host pages arrive, before the table's span is known. -/
def Gikan.translated (g : Gikan) (k : CmdRef) : Gikan :=
  let kw := k.kw.val
  match g.cmd? kw k.idx with
  | none => g
  | some c =>
    if c.st ≠ .translating ∨ g.hasp then g else
    if c.op ≠ opGATHER then
      match g.mapSpans c.asid (c.spans 0) [] with
      | (h, _, some f) => h.xlateFault kw c.idx f
      | (h, ps, none) => h.xlated kw c ps 0
    else
      match g.mapSpans c.asid [c.indexSpan] [] with
      | (h, _, some f) => h.xlateFault kw c.idx f
      | (h, ips, none) =>
        let c1 := { c with pages := ips, fill := c.fill }
        let need := { c1 with pages := ips }.hostGranules c.indexSpan.1 c.indexSpan.2.1
        let c2 := { c1 with fill := need }
        if !(h.framesHeld c2 && (h.fillLeft c2).isEmpty) then (h.updCmd kw c.idx (fun _ => c2)).cmdSettle kw c.idx
        else
          let (h, tb) := h.tableBytes c2
          match h.mapSpans c.asid (c.spans tb) ips with
          | (h, _, some f) => h.xlateFault kw c.idx f
          | (h, ps, none) => h.xlated kw c2 ps tb

/-- TRANSLATION_END; what its walks, reads and records want of lines that agents hold comes first (R150). -/
def Gikan.translationEnd (g : Gikan) (k : CmdRef) : Gikan := g.cohSettle (g.translated k)

/-! AFTER (R256) -/

def Gikan.afterRelease (g : Gikan) (k : CmdRef) : Gikan :=
  match g.cmd? k.kw.val k.idx with
  | some c =>
    if c.st = .ready && c.after && g.earlierDone k.kw.val k.idx then g.updCmd k.kw.val k.idx (fun c => { c with released := true }) else g
  | none => g

/-! PUBLISH, SCHEDULE, LEND (R262 to R264) -/

def Gikan.publishCommand (g : Gikan) (k : CmdRef) : Gikan :=
  match g.cmdReady k opPUBLISH with
  | none => g
  | some c =>
    let kw := k.kw.val
    let st := g.pubCheck kw c
    if st ≠ stOK then g.cmdRefused kw c st else
    let n := c.f 20 2
    let (h, data, bad) := if n = 0 then (g, [], false) else g.cmdRead c (c.f 8 8) n
    if bad then g.cohSettle (h.cmdDone kw c.idx stPOISONED)
    else match c.loc (c.f 0 8) with
      | .host _ _ => g.cmdRefused kw c stNOTPRES
      | .fab a =>
        -- check 7 is skipped where the region is homed here (R258)
        let ward := match g.siteAt a with | some s => s.e.ward | none => c.f 24 8
        let q : Req := ⟨ownHdr tyPUBLISH 3 kw a n 0 ward, leBytes 4 (c.f 16 4) ++ zeros 4, data⟩
        g.cohSettle ((h.cmdRun kw c.idx 1).engIssue q (.command kw c.idx))

def Gikan.scheduleCommand (g : Gikan) (k : CmdRef) : Gikan :=
  match g.cmdReady k opSCHEDULE with
  | none => g
  | some c =>
    let kw := k.kw.val
    let st := g.schedCheck kw c
    if st ≠ stOK then g.cmdRefused kw c st else
    let code := g.spanCode kw c (c.f 0 8) (c.f 8 4) false
    if code ≠ stOK then g.cmdRefused kw c code else
    let (h, b, bad) := g.cmdRead c (c.f 0 8) (c.f 8 4)
    let no := if bad then stPOISONED else if c.f 8 4 ≠ 32 + 32 * field b 4 4 then stLENGTH else h.schedRefusal b
    g.cohSettle (if no ≠ stOK then h.cmdDone kw c.idx no else (h.acceptSched kw b).cmdDone kw c.idx stOK)

/-- The request of a LEND command. -/
def lendRequest (kw : Nat) (c : Cmd) : Req :=
  let type := if c.f 2 1 = 1 then tyLEND else tyRECLAIM
  ⟨ownHdr type 6 kw (mkAddr (c.f 0 2) 0) 0 0 0, leBytes 8 (c.f 8 8) ++ leBytes 4 (c.f 16 4) ++ leBytes 2 (c.f 4 2) ++ zeros 2, []⟩

def Gikan.lendStart (g : Gikan) (k : CmdRef) (action : Nat) : Gikan :=
  match g.cmdReady k opLEND with
  | none => g
  | some c =>
    let kw := k.kw.val
    if (if action = 1 then c.f 2 1 == 2 else c.f 2 1 != 2) then g else
    let st := g.lendCheck kw c
    if st ≠ stOK then g.cmdRefused kw c st
    else ((g.cmdRun kw c.idx 1).updCmd kw c.idx (fun d => { d with sentAt := g.time })).engIssue (lendRequest kw c) (.command kw c.idx)

def Gikan.lendCommand (g : Gikan) (k : CmdRef) : Gikan := g.lendStart k 1
def Gikan.reclaimCommand (g : Gikan) (k : CmdRef) : Gikan := g.lendStart k 2

/-- The pages of a LEND command, as keys of the record of pages on loan. -/
def Gikan.lendKeys (g : Gikan) (c : Cmd) : List Nat := (List.range (c.f 16 4)).map (fun i => g.realAddr (c.f 8 8) / pageBytes + i)

/-- Whether a RECLAIM command may send its request once more at a time: up to NOTICE + 8 ticks after the first send (R263). -/
def Gikan.reclaimMore (g : Gikan) (c : Cmd) (at_ : Nat) : Bool :=
  c.op == opLEND && c.f 2 1 == 2 && decide (at_ ≤ c.sentAt + (c.f 4 2 + 8) * g.periodNs)

/-- Whether a request of a command is still outstanding, or is to be sent again. -/
def Gikan.commandOut (g : Gikan) (kw idx : Nat) : Bool :=
  let mine := fun (c : Consumer) => c == .command kw idx
  g.req.outst.any (fun o => mine o.2.consumer) || g.req.waiting.any (fun o => mine o.consumer) || g.req.again.any (fun o => mine o.consumer)

/-- The answer to a request of a PUBLISH or LEND command. After the TIMEOUT of a RECLAIM it is sent again once per tick, whether or not the
sends before have timed out too; the command ends with the last code. -/
def Gikan.commandAnswer (g : Gikan) (kw idx : Nat) (o : OutReq) (status : Nat) : Gikan :=
  match g.cmd? kw idx with
  | none => g
  | some c =>
    if c.st ≠ .running then g
    else if c.op ≠ opLEND then g.cmdDone kw idx status
    else if status = stOK then
      let keys := g.lendKeys c
      let out := g.tier.lentOut
      let out := if c.f 2 1 = 1 then keys.foldl (fun (t : Tbl Nat) k => t.put k (c.f 0 2)) out else keys.foldl (fun (t : Tbl Nat) k => t.del k) out
      ({ g with tier := { g.tier with lentOut := out } }).cmdDone kw idx stOK
    else if g.commandOut kw idx then g
    else if status = stTIMEOUT ∧ g.reclaimMore c g.time then g.sendAgain ⟨o.againAt, o.q, o.port, .command kw idx⟩
    else g.cmdDone kw idx status

/-- A repeat of a RECLAIM has gone out: the next is due one tick period later (R61, R263). -/
def Gikan.commandRepeat (g : Gikan) (kw idx : Nat) (a : Again) : Gikan :=
  match g.cmd? kw idx with
  | some c => if g.reclaimMore c (g.time + g.periodNs) then g.sendAgain { a with due := g.time + g.periodNs } else g
  | none => g

/-! FENCE (R53, R265) -/

def Cmd.fenceNodes (c : Cmd) : List Nat := (List.range (c.f 0 1)).map (fun i => c.f (8 + 2 * i) 2)

/-- Tags of the requests that this Gikan has outstanding in a compartment, to one node or to all. -/
def Gikan.fenceTags (g : Gikan) (kw : Nat) (node : Option Nat) : List Nat :=
  (g.req.outst.filter (fun o => o.2.q.hdr.cmpt == kw && (match node with | some n => g.targetNode o.2.q.hdr.addr == n | none => true))).map (fun o => o.1)

/-- A FENCE command's fences have completed: FENCE packets, or its end. -/
def Gikan.fencesMet (g : Gikan) (kw idx : Nat) (unknown : Bool) : Gikan :=
  match g.cmd? kw idx with
  | none => g
  | some c =>
    let code := if unknown then stTIMEOUT else stOK
    let nodes := if bit (c.f 1 1) 0 then c.fenceNodes else []
    if nodes.isEmpty then g.cmdDone kw idx code
    else
      let g := g.updCmd kw idx (fun d => { d with left := nodes.length, codes := if code = stOK then d.codes else d.codes.put 0 code })
      nodes.zipIdx.foldl (fun h n => h.engIssue ⟨ownHdr tyFENCE 2 kw (mkAddr n.1 0) 0 0 0, [], []⟩ (.fence kw idx (n.2 + 1))) g

/-- FENCE_COMPLETE: fences whose requests have all been acknowledged. -/
def Gikan.fencesSettle (g : Gikan) : Gikan :=
  let keys := (g.req.fences.map (fun f => (f.kw, f.idx))).dedup
  keys.foldl (fun h k =>
    let fs := h.req.fences.filter (fun f => f.kw == k.1 && f.idx == k.2)
    if fs.any (fun f => !f.tags.isEmpty) then h
    else
      let h := { h with req := { h.req with fences := h.req.fences.filter (fun f => !(f.kw == k.1 && f.idx == k.2)) } }
      h.fencesMet k.1 k.2 (fs.any (fun f => f.unknown))) g

/-- FENCE_COMMAND: it waits for the commands before it, then fences. -/
def Gikan.fenceCommand (g : Gikan) (k : CmdRef) : Gikan :=
  match g.cmdReady k opFENCE with
  | none => g
  | some c =>
    let kw := k.kw.val
    let st := fenceCheck c
    if st ≠ stOK then g.cmdRefused kw c st
    else if !g.earlierDone kw c.idx then g
    else
      let targets := if g.on F.MAP_CTRL_REACH then c.fenceNodes.map some else [none]
      let g := g.cmdRun kw c.idx 0
      if targets.isEmpty then g.fencesMet kw c.idx false
      else
        let fs : List FenceSt := targets.map (fun t => ⟨kw, c.idx, g.fenceTags kw t, false⟩)
        ({ g with req := { g.req with fences := g.req.fences ++ fs } }).fencesSettle

/-- The answer to a FENCE packet of a FENCE command. -/
def Gikan.fenceAnswer (g : Gikan) (kw idx i status : Nat) : Gikan :=
  let g := g.updCmd kw idx (fun d => { d with left := d.left - 1, codes := if status = stOK then d.codes else d.codes.put i status })
  match g.cmd? kw idx with
  | none => g
  | some c =>
    if c.left ≠ 0 ∨ c.st ≠ .running then g else
    match c.codes with
    | [] => g.cmdDone kw idx stOK
    | (_, st) :: _ => g.cmdDone kw idx st

/-! Registers of the block -/

def subCounters : List Fld :=
  [F.SUB_KW_EVENTS_BAD_LENGTH, F.SUB_KW_EVENTS_OVERWRITES, F.SUB_KW_EVENTS_ABANDONED, F.SUB_KW_EVENTS_NO_CQ, F.SUB_CMD_ACCEPTED, F.SUB_CMD_NOT_OK,
   F.SUB_XLATE_EVENTS_WALKS, F.SUB_XLATE_EVENTS_FAULTS, F.SUB_XLATE_EVENTS_INVALS, F.SUB_HOSTWIN_FILLS, F.SUB_HOSTWIN_DRAINS, F.SUB_PIN_FETCHES]

/-- A write of SUB_CTRL that sets CLR_CNT; its other fields are written with it. -/
def Gikan.wrSubCtrl (g : Gikan) (w : RegW) : Gikan :=
  let g := g.putFields w (offOf F.SUB_CTRL_CLR_CNT) [F.SUB_CTRL_ZONE_TIMEOUT_US, F.SUB_CTRL_PT_CMPT]
  if wrOne w F.SUB_CTRL_CLR_CNT then g.clear subCounters else g

/-- Writes of the indexed registers of queues and address spaces. -/
def Gikan.wrCqCfg (g : Gikan) (w : RegW) : Gikan :=
  let n := g.get (F.SUB_Q_INDEX_QUEUE 0)
  if 256 ≤ n then g else
  let r := g.cq n
  let m := halfMask w.half
  g.setCq n (r.writeCfg ((w.data.toNat &&& m) ||| (r.cfg - (r.cfg &&& m))))

def Gikan.wrMqCfg (g : Gikan) (w : RegW) : Gikan :=
  let n := g.get (F.SUB_Q_INDEX_QUEUE 1)
  let r := g.mq n
  let m := halfMask w.half
  g.setMq n (r.writeCfg ((w.data.toNat &&& m) ||| (r.cfg - (r.cfg &&& m))))

def newBase (w : RegW) (old : Nat) : Nat :=
  let m := halfMask w.half
  ((w.data.toNat &&& m) ||| (old - (old &&& m))) / 4096 * 4096

def Gikan.wrCqBase (g : Gikan) (w : RegW) : Gikan :=
  let n := g.get (F.SUB_Q_INDEX_QUEUE 0)
  if 256 ≤ n then g else
  let r := g.cq n
  g.setCq n { r with base := newBase w r.base }

def Gikan.wrMqBase (g : Gikan) (w : RegW) : Gikan :=
  let n := g.get (F.SUB_Q_INDEX_QUEUE 1)
  let r := g.mq n
  g.setMq n { r with base := newBase w r.base }

def Gikan.wrAsidRoot (g : Gikan) (w : RegW) : Gikan :=
  let n := g.get F.SUB_ASID_INDEX_ASID
  let old := g.asidWord n
  let m := halfMask w.half
  let v := (w.data.toNat &&& m) ||| (old - (old &&& m))
  let v := bits v 0 5 + v / 65536 * 65536
  { g with sub := { g.sub with asids := g.sub.asids.setD n 0 v } }

/-- Words of the indexed registers, and the counts that SUB registers show. -/
def Gikan.cqWord (g : Gikan) (off : Nat) : Nat :=
  let n := g.get (F.SUB_Q_INDEX_QUEUE 0)
  if 256 ≤ n then 0 else
  let r := g.cq n
  match off with
  | 0 => r.cfg
  | 1 => r.base
  | _ => r.head + r.tail * 2 ^ 32

def Gikan.mqWord (g : Gikan) (off : Nat) : Nat :=
  let r := g.mq (g.get (F.SUB_Q_INDEX_QUEUE 1))
  match off with
  | 0 => r.cfg
  | 1 => r.base
  | _ => r.head + r.tail * 2 ^ 32

def Gikan.faultedCmds (g : Gikan) : Nat := g.sub.kws.foldl (fun n k => n + (k.2.cmds.filter (fun c => c.st == .faulted)).length) 0

end Sys2Proof.Machine
end

