-- ==== Sys2Proof/Machine/Movers.lean ====
section
/-!
DEFINITION. MOVE and FILL (R199, R200, R259 to R261): items, local copies, and the requests to a remote end with their answers.
-/

namespace Sys2Proof.Machine

/-! Items (R261) -/

/-- Bytes at the destination. -/
def Cmd.moveBytes (c : Cmd) : Nat := if c.op = opMOVE then c.f 16 8 else c.f 8 8
def Cmd.moveDst (c : Cmd) : Nat := if c.op = opMOVE then c.f 8 8 else c.f 0 8
def Cmd.dstWard (c : Cmd) : Nat := if c.op = opMOVE then c.f 32 8 else c.f 24 8

/-- Items of a MOVE or FILL: one for each aligned 64 KiB of DST, or each 16,384 elements. -/
def Cmd.itemCount (c : Cmd) : Nat :=
  if c.expands then ceilDiv (c.f 56 8) 16384 else (c.moveDst % 65536 + c.moveBytes + 65535) / 65536

/-- Offset in the command, and bytes, of item j. -/
def Cmd.itemSpan (c : Cmd) (j : Nat) : Nat × Nat :=
  if c.expands then
    let w := outElem (c.f 41 1)
    (j * 16384 * w, (min 16384 (c.f 56 8 - j * 16384)) * w)
  else
    let o := j * 65536 - c.moveDst % 65536
    (o, (j + 1) * 65536 - c.moveDst % 65536 - o |> min (c.moveBytes - o))

/-- Whether both ends of an item are at this Gikan. -/
def Gikan.itemLocal (g : Gikan) (c : Cmd) (off len : Nat) : Bool :=
  (g.cutPieces c (c.moveDst + off) len).all (fun p => g.isLocal c p.1) &&
  (c.op != opMOVE || c.expands || (g.cutPieces c (c.f 0 8 + off) len).all (fun p => g.isLocal c p.1))

/-- The code that a span at this Gikan comes to (R258), its compartment mismatch counted. -/
def Gikan.localTest (g : Gikan) (kw : Nat) (c : Cmd) (va n : Nat) (write : Bool) : Gikan × Nat :=
  (g.cutPieces c va n).foldl (fun (r : Gikan × Nat) p =>
    if r.2 ≠ stOK then r else
    match c.loc p.1 with
    | .host _ _ => r
    | .fab a =>
      let st := r.1.localCode kw a p.2 write
      if st = stWARD then (r.1.wardFault r.1.node kw 2 (match r.1.siteAt a with | some s => s.entry | none => 0), st) else (r.1, st)) (g, stOK)

/-- A code other than OK met at an offset of the destination; POISONED gives way to any other. -/
def Gikan.noteCode (g : Gikan) (kw idx off st : Nat) : Gikan :=
  if st = stOK then g else
  g.updCmd kw idx (fun c => { c with codes :=
    match (c.codes.get? off) with
    | none => c.codes.put off st
    | some old => if old = stPOISONED then c.codes.put off st else c.codes })

/-- Poisoned spans of a source just read, as offsets and bytes: its units without a clean word (R94, R99). -/
def Gikan.badSpans (g : Gikan) (c : Cmd) (va n : Nat) : List (Nat × Nat) :=
  (g.cutPieces c va n).flatMap (fun p =>
    match c.loc p.1 with
    | .host _ _ => []
    | .fab a => match g.siteAt a with
      | none => []
      | some s =>
        let ra := g.realAddr a
        ((s.units ra p.2).filter (fun u => !g.clean.contains u)).map (fun u =>
          let lo := max u ra
          (p.1 - va + (lo - ra), min (u + s.unit) (ra + p.2) - lo)))

/-- Write bytes at an offset of the destination at this Gikan, with poison where the source had it. -/
def Gikan.putLocal (g : Gikan) (kw : Nat) (c : Cmd) (off : Nat) (data : List Byte) (bad : List (Nat × Nat)) : Gikan :=
  let va := c.moveDst + off
  let (g, st) := g.localTest kw c va data.length true
  if st ≠ stOK then g.noteCode kw c.idx off st
  else
    let g := g.cmdWrite kw c va data
    let g := bad.foldl (fun h b => h.cmdPoison kw c (va + b.1) b.2) g
    if bad.isEmpty then g else g.noteCode kw c.idx off stPOISONED

/-! Expansion (R200) -/

/-- The elements of an item in its OUT code: the bytes, and the poisoned spans; a wait for them is counted (R210). -/
def Gikan.expandItem (g : Gikan) (c : Cmd) (s : Site) (t : Tensor) (off len : Nat) : Gikan × List Byte × List (Nat × Nat) :=
  let out := c.f 41 1
  let w := outElem out
  let slow := g.get F.CMP_AXC1_SLOW
  let (g, es, _) := g.expand s t (c.f 48 8 + off / w) (len / w)
  let (g, _) := g.expandWait (s.e.comp == 2) (decide (slow < g.get F.CMP_AXC1_SLOW))
  let data := es.flatMap (fun e => match e with | some x => fpBytes out [x.v] (fun _ => none) | none => zeros w)
  let bad := es.zipIdx.filterMap (fun e => if e.1.isNone then some (e.2 * w, w) else none)
  (g, data, bad)

/-- The blocks that an item with both ends here reads, by the table slots they name (R220). -/
def Gikan.moveRefs (g : Gikan) (c : Cmd) (off len : Nat) : Tbl Nat :=
  match c.tensor, g.siteAt (c.f 0 8) with
  | some t, some s => (g.expand s t (c.f 48 8 + off / outElem (c.f 41 1)) (len / outElem (c.f 41 1))).2.2
  | _, _ => []

/-! Requests to a remote end -/

/-- A span cut where the remote address, or either one, crosses 4 KiB. -/
def cutBoth (src dst : Nat) : Nat → Nat → Nat → List (Nat × Nat)
  | 0, _, _ => []
  | f + 1, o, n =>
    if n = 0 then [] else
    let k := min n (min (4096 - (src + o) % 4096) (4096 - (dst + o) % 4096))
    (o, k) :: cutBoth src dst f (o + k) (n - k)

/-- A READ or WRITE of a mover: MOV set, TC3 (R39). -/
def moverReq (type kw addr n ward : Nat) (data : List Byte) : Req :=
  ⟨{ ownHdr type 3 kw addr n 0 ward with mov := 1 }, [], data⟩

/-- Bytes for an offset of the destination: written here, or sent by a WRITE (poisoned bytes go as zeros). -/
def Gikan.putPiece (g : Gikan) (kw : Nat) (c : Cmd) (off : Nat) (data : List Byte) (bad : List (Nat × Nat)) : Gikan :=
  if g.isLocal c (c.moveDst + off) then g.putLocal kw c off data bad
  else match c.loc (c.moveDst + off) with
    | .host _ _ => g
    | .fab a =>
      let g := if bad.isEmpty then g else g.noteCode kw c.idx off stPOISONED
      g.engIssue (moverReq tyWRITE kw a data.length c.dstWard data) (.mover kw c.idx off data.length true 0 false)

/-- A piece of an item with a remote end: read here or by a READ, and passed to the destination. -/
def Gikan.movePiece (g : Gikan) (kw : Nat) (c : Cmd) (off n : Nat) : Gikan :=
  let va := c.f 0 8 + off
  if g.isLocal c va then
    let (g, st) := g.localTest kw c va n false
    if st ≠ stOK then g.noteCode kw c.idx off st
    else
      let (g, data, bad) := g.cmdRead c va n
      g.putPiece kw c off data (if bad then g.badSpans c va n else [])
  else match c.loc va with
    | .host _ _ => g
    | .fab a => g.engIssue (moverReq tyREAD kw a n (c.f 24 8) []) (.mover kw c.idx off n false 0 false)

/-- PATTERN over a span of the destination: the byte at fabric offset a is PATTERN byte a mod 8 (R260). -/
def Cmd.pattern (c : Cmd) (off n : Nat) : List Byte :=
  let p := leBytes 8 (c.f 16 8)
  (List.range n).map (fun i => p.getD ((c.moveDst + off + i) % 8) 0)

/-- An item has been admitted: the requests of one with a remote end go out, and the blocks that one without reads count on their slots. -/
def Gikan.moverIssue (g : Gikan) (kw idx j : Nat) : Gikan :=
  match g.cmd? kw idx with
  | none => g
  | some c =>
    let (off, len) := c.itemSpan j
    if g.itemLocal c off len then (if c.expands then g.blocksRead (.job kw idx j) (g.moveRefs c off len) else g)
    else if c.op = opFILL then
      (cutBoth c.moveDst c.moveDst 17 off len).foldl (fun h p => h.putPiece kw c p.1 (c.pattern p.1 p.2) []) g
    else if c.expands then
      match c.tensor, g.siteAt (c.f 0 8) with
      | some t, some s =>
        let (g, st) := g.localTest kw c (c.f 0 8) 1 false
        if st ≠ stOK then g.noteCode kw idx off st
        else
          let (g, data, bad) := g.expandItem c s t off len
          let w := outElem (c.f 41 1)
          (cutBoth c.moveDst c.moveDst 66 off len).foldl (fun h p =>
            let b := bad.filter (fun x => decide (x.1 < p.1 - off + p.2) && decide (p.1 - off < x.1 + w))
            h.putPiece kw c p.1 (slice data (p.1 - off) p.2) (if b.isEmpty then [] else [(0, p.2)])) g
      | _, _ => g.noteCode kw idx off stNOTPRES
    else (cutBoth (c.f 0 8) c.moveDst 34 off len).foldl (fun h p => h.movePiece kw c p.1 p.2) g

/-- Whether requests of an item are still out. -/
def Gikan.moverBusy (g : Gikan) (kw idx off len : Nat) : Bool :=
  let mine := fun (c : Consumer) => match c with
    | .mover k i o _ _ _ _ => k == kw && i == idx && decide (off ≤ o) && decide (o < off + len)
    | _ => false
  g.req.outst.any (fun o => mine o.2.consumer) || g.req.waiting.any (fun o => mine o.consumer) || g.req.again.any (fun o => mine o.consumer)

/-! The end of an item -/

/-- An item with both ends here moves its bytes (R199, R200, R260). -/
def Gikan.moverLocal (g : Gikan) (kw : Nat) (c : Cmd) (off len : Nat) : Gikan :=
  if c.op = opFILL then g.putLocal kw c off (c.pattern off len) []
  else if c.expands then
    match c.tensor, g.siteAt (c.f 0 8) with
    | some t, some s =>
      let (g, st) := g.localTest kw c (c.f 0 8) 1 false
      if st ≠ stOK then g.noteCode kw c.idx off st
      else
        let (g, data, bad) := g.expandItem c s t off len
        g.putLocal kw c off data bad
    | _, _ => g.noteCode kw c.idx off stNOTPRES
  else
    let va := c.f 0 8 + off
    let (g, st) := g.localTest kw c va len false
    if st ≠ stOK then g.noteCode kw c.idx off st
    else
      let (g, data, bad) := g.cmdRead c va len
      g.putLocal kw c off data (if bad then g.badSpans c va len else [])

/-- Whether an item met a code other than OK and POISONED. -/
def Cmd.itemFailed (c : Cmd) (off len : Nat) : Bool :=
  c.codes.any (fun k => decide (off ≤ k.1) && decide (k.1 < off + len) && k.2 != stPOISONED)

/-- Queued items of a command. -/
def Gikan.queuedOf (g : Gikan) (kw idx : Nat) : Nat :=
  let mine := fun (i : Item) => match i.work with | .job k x _ => k == kw && x == idx | _ => false
  g.eng.units.foldl (fun n u => n + (u.2.queue.filter mine).length) 0

/-- Discard a command's items that have not been admitted. -/
def Gikan.discardItems (g : Gikan) (kw idx : Nat) : Gikan :=
  let n := g.queuedOf kw idx
  let g := g.mapQueued (fun i => match i.work with | .job k x _ => if k = kw ∧ x = idx then none else some i | _ => some i)
  g.updCmd kw idx (fun c => { c with left := c.left - n })

/-- The code of a MOVE or FILL: the first other than OK and POISONED in destination order, else POISONED if any. -/
def Cmd.moveCode (c : Cmd) : Nat :=
  match c.codes.find? (fun k => k.2 != stPOISONED) with
  | some k => k.2
  | none => if c.codes.isEmpty then stOK else stPOISONED

/-- An item of a MOVE or FILL ends. -/
def Gikan.moverEnd (g : Gikan) (kw idx j : Nat) : Gikan :=
  let g := g.blocksDone (.job kw idx j)
  match g.cmd? kw idx with
  | none => g
  | some c =>
    let (off, len) := c.itemSpan j
    let g := if g.itemLocal c off len then g.moverLocal kw c off len else g
    match g.cmd? kw idx with
    | none => g
    | some c =>
      let bad := c.itemFailed off len
      let g := g.updCmd kw idx (fun d => { d with left := d.left - 1, written := if bad then d.written else d.written + len })
      let g := if bad then g.discardItems kw idx else g
      match g.cmd? kw idx with
      | none => g
      | some c => if c.left = 0 then g.cmdEnd kw idx c.moveCode c.written else g

/-- Whether an item of a mover may end now: nothing it has sent is unanswered. -/
def Gikan.moverMayEnd (g : Gikan) (kw idx j : Nat) : Bool :=
  match g.cmd? kw idx with
  | none => true
  | some c => !g.moverBusy kw idx (c.itemSpan j).1 (c.itemSpan j).2

/-! Starting (R261) -/

/-- MOVE or FILL: its items are dealt over the movers. -/
def Gikan.moverStart (g0 : Gikan) (k : CmdRef) (op : Nat) : Gikan :=
  match g0.cmdReady k op with
  | none => g0
  | some c =>
    let kw := k.kw.val
    let st := if op = opMOVE then g0.moveCheck c else fillCheck c
    if st ≠ stOK then g0.cmdRefused kw c st
    else
      let (g, t) := if c.expands then
          (match g0.siteAt (c.f 0 8) with
           | some s => let (h, t) := g0.openTensor s (g0.realAddr (c.f 0 8)); (h, some t)
           | none => (g0, none))
        else (g0, none)
      let n := c.itemCount
      let ms := g.engines .mov
      let g := (g.cmdRun kw c.idx n).updCmd kw c.idx (fun d => { d with tensor := t })
      g0.cohSettle ((List.range n).foldl (fun h j =>
        let (off, len) := c.itemSpan j
        let cost := ceilDiv len 256 + (if h.itemLocal c off len then 32 else h.get F.SUB_MOVER_REMOTE_CYCLES)
        h.queueItem ⟨.mov, ms.getD (j % ms.length) 0⟩ ⟨cost, .job kw c.idx j, kw, none⟩) g)

/-! Answers (R99, R261) -/

/-- The answer to request `o` of a mover; `resent` says that it answers a resend. -/
def Gikan.moverAnswer (g : Gikan) (kw idx off n : Nat) (writeLeg : Bool) (busy : Nat) (again : Bool) (o : OutReq) (status : Nat)
    (data : List Byte) (resent : Bool) : Gikan :=
  match g.cmd? kw idx with
  | none => g
  | some c =>
    if status = stBUSY ∧ busy < g.get F.SUB_MOVER_BUSY_RETRIES then
      g.sendAgain ⟨o.againAt, o.q, o.port, .mover kw idx off n writeLeg (busy + 1) again⟩
    else if status = stSTALE ∧ !resent ∧ !again then g.engIssue o.q (.mover kw idx off n writeLeg busy true)
    else if writeLeg then g.noteCode kw idx off status
    else if status = stOK then g.putPiece kw c off (fit data n) []
    else if status = stPOISONED then g.putPiece kw c off (zeros n) [(0, n)]
    else g.noteCode kw idx off status

end Sys2Proof.Machine
end

