-- ==== Sys2Proof/Machine/Response.lean ====
section
/-!
DEFINITION. What becomes of the Gikan's own requests: the responses that reach it (R63), resends and TIMEOUT (R60, R61), requests sent again
after BUSY_RETRY (R168, R246, R261), those that waited for a tag (R56), and the answers of the BAR4 windows (R384).
-/

namespace Sys2Proof.Machine

/-! Windows -/

/-- A code other than OK at a window (MGT_WIN_STATUS). -/
def Gikan.winError (g : Gikan) (s : Side) (st : Nat) : Gikan :=
  let i := match s with | .a => 0 | .b => 1
  ((g.set (F.MGT_WIN_STATUS_LAST_STATUS i) st).set (F.MGT_WIN_STATUS_ERROR i) 1).inc (F.MGT_WIN_STATUS_ERRORS i) 1

/-- The answer to a BAR4 access (R384). -/
def Gikan.bar4Answer (g : Gikan) (s : Side) (len : Nat) (isRead : Bool) (st : Nat) (data : List Byte) : Gikan :=
  let g := if st = stOK then g else g.winError s st
  if !isRead || !(g.port s).up then g
  else if st = stOK then g.emit (.bar4 s (fit data len) false)
  else if st = stPOISONED then g.emit (.bar4 s (fit data len) true)
  else g.emit (.bar4 s (List.replicate len 0xFF) false)

/-! Delivery -/

/-- Hand the answer to a request to the consumer that it was sent for; `resent` says that it answers a resend. -/
def Gikan.toConsumer (g : Gikan) (o : OutReq) (st : Nat) (data : List Byte) (resent : Bool) : Gikan :=
  match o.consumer with
  | .mover kw idx off n w busy again => g.moverAnswer kw idx off n w busy again o st data resent
  | .partialUp n r c => g.partialAnswer o n r c st
  | .down n r c _ => g.downAnswer n r c st
  | .pin core t id => g.pinAnswer core t id o st data resent
  | .bar4 s len isRead => g.bar4Answer s len isRead st data
  | .fence kw idx i => g.fenceAnswer kw idx i st
  | .command kw idx => g.commandAnswer kw idx o st
  | .lent e p n isWrite => g.lentAnswer e p n isWrite st data
  | .pull e off len => g.pullAnswer e off len st data
  | .control e line => g.copyAnswer o.q.hdr.type e line st

/-- An outstanding request ends with a code: its tag frees, its fences learn of it, its consumer takes it. -/
def Gikan.endRequest (g : Gikan) (tag : Nat) (o : OutReq) (st : Nat) (data : List Byte) (resent : Bool) : Gikan :=
  (((g.closeTag tag (st == stTIMEOUT)).toConsumer o st data resent).reclaimsForced).fencesSettle

/-- The code that a response brings: STALE_EPOCH to a resend of a non-idempotent request counts as TIMEOUT (R60), and a code of 0x10 to 0xFF
as UNSUPPORTED (R8). -/
def respCode (o : OutReq) (r : Resp) : Nat :=
  if 16 ≤ r.status then stUNSUP
  else if r.status = stSTALE ∧ nonIdem o.q.hdr.type ∧ r.retry = 1 then stTIMEOUT else r.status

/-- The outstanding request that a response answers: by TAG and SENT_TICK (R63). -/
def Gikan.answered (g : Gikan) (r : Resp) : Option OutReq :=
  match g.req.outst.get? r.tag with
  | some o => if o.q.hdr.sentTick = r.sentTick then some o else none
  | none => none

/-- A response to this Gikan: delivered, or dropped and counted when it matches no outstanding request. -/
def Gikan.takeResp (g : Gikan) (r : Resp) : Gikan :=
  match g.answered r with
  | none => g.inc F.MAP_EVENTS2_LATE_DROPS 1
  | some o =>
    let g := if 40 ≤ o.port ∧ o.port ≤ 45 then g.monitor 3 (some (o.port - 40)) (some o.q.hdr.tc) (g.time - o.firstAt) else g
    g.endRequest r.tag o (respCode o r) r.payload (r.retry == 1)

/-- Whether a response that arrives by crossbar input `x` comes from an endpoint with a code of 0x10 to 0xFF (R8). -/
def Gikan.codeBad (g : Gikan) (x : Nat) (r : Resp) : Bool := g.endpointPort x && decide (16 ≤ r.status)

/-- RESPONSE: a response arrives by crossbar input `x`. One for another node goes on toward it; HANDOVER_ACK has a command of its own. An
endpoint's code of 0x10 to 0xFF reaches the requester as UNSUPPORTED, wherever it is, and a contained fault is logged against the port
it came by (R8). -/
def Gikan.response (g0 : Gikan) (x : Nat) (r0 : Resp) : Gikan :=
  if r0.type = 0xC0 ∧ g0.isSelf r0.dst then g0 else
  let (src, g) := g0.takePkt x (.resp r0)
  let gone := g.consumed src x (.resp r0)
  if g.hasp then (if g.isSelf r0.dst then gone else gone.inc F.FLT_HASP0_TRANSIT_DROPS 1)
  else if decide (x < 32) && g.lnkState x == 6 && r0.tc != 0 then gone.inc (F.LNK_COUNT2_FRAME_ERRORS x) 1
  else
    let r := if g.codeBad x r0 then { r0 with status := stUNSUP } else r0
    let flag := fun (h : Gikan) => if g.codeBad x r0 then h.contained (grpPort x) 0xFF (offOf (F.LNK_STATUS_STATE x)) else h
    if g.isSelf r.dst then g0.cohSettle (flag (gone.takeResp r))
    else
      match g.exitPort (routePorts (g.map.cur.routeOf r.dst)) r.tc r.dst r.tag with
      | .inl p => flag (g.passOn src x p (.resp r))
      | .inr _ => flag (gone.inc F.MAP_EVENTS2_LATE_DROPS 1)

/-! Resends and TIMEOUT (R61) -/

/-- Ticks at which a request of a type is resent, and the tick of its TIMEOUT; the control types have none. -/
def resendTicks (type : Nat) : List Nat :=
  if type = tyREAD ∨ type = tyWRITE ∨ type = tyLEND ∨ type = tyRECLAIM then [1, 2]
  else if nonIdem type then [1, 2, 3]
  else if type = tyGATHER ∨ type = tyFILTER ∨ type = tySCORE ∨ type = tyFENCE then [1, 2, 4, 8, 16, 32, 64]
  else []

def timeoutTick (type : Nat) : Nat :=
  if type = tyTRIGGER ∨ type = tyGATHER ∨ type = tyFILTER ∨ type = tySCORE ∨ type = tyFENCE then 128 else 4

/-- Ticks since the first send of a request, by this Gikan's count. -/
def Gikan.sentAge (g : Gikan) (q : Req) : Nat := (g.tickNo % 65536 + 65536 - q.hdr.sentTick) % 65536

/-- The next resend of an outstanding request, once its tick has come. -/
def Gikan.requestResend (g : Gikan) (tag : Nat) : Gikan :=
  match g.req.outst.get? tag with
  | none => g
  | some o =>
    let t := o.q.hdr.type
    match (resendTicks t)[o.resends]? with
    | some n =>
      if !g.hasp && decide (n ≤ g.ticksOut o ∧ g.ticksOut o < timeoutTick t) && !(nonIdem t && decide (3 < g.sentAge o.q)) then g.resend tag
      else g
    | none => g

/-- TIMEOUT is committed on an outstanding request once its tick has come. -/
def Gikan.requestTimeout (g : Gikan) (tag : Nat) : Gikan :=
  match g.req.outst.get? tag with
  | none => g
  | some o =>
    if !g.hasp && !isCtlType o.q.hdr.type && decide (timeoutTick o.q.hdr.type ≤ g.ticksOut o) then
      g.cohSettle (g.endRequest tag o stTIMEOUT [] false)
    else g

/-! Sent again -/

/-- Whether what a request is to be sent again for still wants it. -/
def Gikan.stillWanted (g : Gikan) (c : Consumer) : Bool :=
  match c with
  | .mover kw idx _ _ _ _ _ => (match g.cmd? kw idx with | some d => d.st == .running | none => false)
  | .command kw idx => (match g.cmd? kw idx with | some d => d.st == .running | none => false)
  | .partialUp n r c => (match g.chunkAt n r c with | some (_, _, k) => k.st == .sent | none => false)
  | _ => true

/-- The n-th request that waits after BUSY_RETRY is sent again, as a new request, once its tick has passed. -/
def Gikan.busyResend (g : Gikan) (n : Nat) : Gikan :=
  match g.req.again[n]? with
  | none => g
  | some a =>
    if g.time < a.due ∨ g.hasp then g else
    let h := { g with req := { g.req with again := g.req.again.eraseIdx n } }
    if !h.stillWanted a.consumer then h
    else
      match a.consumer with
      | .pin core t id => g.cohSettle (h.pinAgain core t id a.q)
      | .command kw idx => (h.issue a.port a.q a.consumer).commandRepeat kw idx a
      | c => h.issue a.port a.q c

/-- A request that waited for a tag goes out (R56). -/
def Gikan.tagWaitIssue (g : Gikan) : Gikan := if g.hasp then g else g.issueWaiting

end Sys2Proof.Machine
end

