-- ==== Sys2Proof/Machine/Links.lean ====
section
/-!
DEFINITION. The fabric ports: flits, sequence, replay and credits (R280 to R287), bring-up and the configuration check (R290 to R293),
retraining (R297), the lane and laser loops (R298 to R301), narrowing (R361), and their faults (R303, R304).
-/

namespace Sys2Proof.Machine

/-! States (R290) -/

/-- Put a port into a state of R290. -/
def Gikan.lnkEnter (g : Gikan) (p st : Nat) : Gikan := (g.set (F.LNK_STATUS_STATE p) st).setLink p { g.link p with since := g.now }

/-- A port starts, or starts again, at SIGNAL. -/
def Gikan.lnkSignal (g : Gikan) (p : Nat) : Gikan :=
  if g.on F.SEC_STATUS_FACTORY_TEST then g else
  (g.lnkEnter p 1).setLink p { (g.lnkEnter p 1).link p with got := none, seenIn := false, sentSeen := false, paramAt := none }

/-- A bring-up that fails goes to BACKOFF with its cause. -/
def Gikan.lnkFail (g : Gikan) (p cause : Nat) : Gikan :=
  let g := (g.set (F.LNK_STATUS_DOWN_CAUSE p) cause).lnkEnter p 7
  g.setLink p { g.link p with fails := (g.link p).fails + 1 }

/-- Length of a BACKOFF in ns: 10 ms, doubled after each failure in a row, at most 1,280 ms. -/
def PortLnk.backoffNs (l : PortLnk) : Nat := 1000000 * min 1280 (10 * 2 ^ min 7 (l.fails - 1))

/-- Whether a port carries flits. -/
def Gikan.lnkUp (g : Gikan) (p : Nat) : Bool := g.lnkState p == 5 || g.lnkState p == 6

/-- Packets that a sender had begun and the partner has not acknowledged whole. -/
def PortLnk.lostTx (l : PortLnk) : Nat :=
  match l.held with
  | [] => if l.rest.isEmpty then 0 else 1
  | f :: _ => l.held.foldl (fun n x => n + popCount x.1.start 15) (if f.2 then 1 else 0)

/-- A port without its session: nothing held, nothing partly received. -/
def PortLnk.cleared (l : PortLnk) : PortLnk :=
  { l with part := [], cut := none, held := [], replay := none, replayFrom := none, inRow := 0, rest := [], nak := none, nakDue := false,
           txNarrow := false, rxNarrow := false, txSched := none, rxSched := none }

/-- What a retrain loses on one port, and the outputs that it makes retrain (R297, R312). -/
def Gikan.lnkDrop (g : Gikan) (p : Nat) : Gikan × List Nat :=
  let l := g.link p
  let part := if l.part.isEmpty then 0 else 1
  let g := (g.inc (F.LNK_COUNT2_LOST_PACKETS p) (l.lostTx + part)).setLink p l.cleared
  let g := if part = 1 ∧ l.cut.isNone then g.inc F.XBAR_EVENTS_CT_ENDED 1 else g
  let (g, outs) := g.endPartial p
  ((g.inc (F.LNK_COUNT1_RETRAINS p) 1).contained (grpPort p) 0xFF (offOf (F.LNK_COUNT1_RETRAINS p)), outs)

/-- One port leaves ACTIVE or QUARANTINE for BACKOFF. -/
def Gikan.retrainOne (g : Gikan) (p cause : Nat) : Gikan × List Nat :=
  if !g.lnkUp p then (g, []) else
  let (g, outs) := g.lnkDrop p
  let g := (g.set (F.LNK_STATUS_DOWN_CAUSE p) cause).lnkEnter p 7
  (g.setLink p { g.link p with fails := 1 }, outs)

/-- Outputs that had begun a packet cut through from a port that lost it retrain with cause 6, and so on; `fuel` bounds the ports. -/
def Gikan.retrainOuts : Nat → Gikan → List Nat → Gikan
  | 0, g, _ => g
  | _ + 1, g, [] => g
  | n + 1, g, o :: os =>
    let (g, more) := g.retrainOne o 6
    Gikan.retrainOuts n g (os ++ more)

/-- A port retrains (R297). -/
def Gikan.retrain (g : Gikan) (p cause : Nat) : Gikan :=
  let (g, outs) := g.retrainOne p cause
  Gikan.retrainOuts 64 g outs

/-! FEC and bad flits (R279, R283, R303) -/

/-- Symbols corrected on a lane, counted in its window: an alarm once in a window (R303). -/
def Gikan.fecCount (g : Gikan) (p lane n : Nat) : Gikan :=
  let l := g.link p
  let w := g.now / 1000000
  let l := if l.fecAt = w then l else { l with fecAt := w, fecWin := [] }
  let old := l.fecWin.getD lane 0
  let lim := max 1 (g.get (F.LNK_FEC_ALARM_THRESH p))
  let g := (g.setLink p { l with fecWin := l.fecWin.setD lane 0 (old + n) }).inc (F.LNK_LANE_FEC_CORR_SYMBOLS p lane) n
  let k := 8 * p + lane
  let g := { g with flt := { g.flt with fecTick := g.flt.fecTick.setD k 0 (g.flt.fecTick.getD k 0 + n) } }
  if old ≤ lim ∧ lim < old + n then (g.inc (F.LNK_FEC_ALARM_ALARMS p) 1).corrected (grpPort p) lane (offOf (F.LNK_FEC_ALARM_ALARMS p)) else g

/-- What FEC corrected with a flit: on each lane, whether a codeword ended and how many of its symbols were corrected, are free. -/
def Gikan.fecFlit (g : Gikan) (p : Nat) : Gikan :=
  let (d, g) := g.next
  (List.range (g.rxLanes p)).foldl (fun h i =>
    if !(Config.openValue d).testBit i then h else
    let n := Config.fecCorrected d i % 16
    let l := h.link p
    let k := 16 * i + n
    (h.setLink p { l with hist := l.hist.setD k 0 (min (2 ^ 48 - 1) (l.hist.getD k 0 + 1)) }).fecCount p i n) g

/-- A bad flit is counted; whether an uncorrectable codeword of a lane made it bad is free (R283). -/
def Gikan.badFlit (g : Gikan) (p : Nat) : Gikan :=
  let (d, g) := g.next
  let v := Config.openValue d
  let g := if v.testBit 0 then g.inc (F.LNK_LANE_FEC_UNCORR_CW p (v / 2 % g.rxLanes p)) 1 else g
  (g.inc (F.LNK_COUNT0_CRC_ERRORS p) 1).corrected (grpPort p) 0xFF (offOf (F.LNK_COUNT0_CRC_ERRORS p))

/-! Replay (R284, R286) -/

/-- A replay starts at the first held flit. -/
def Gikan.startReplay (g : Gikan) (p : Nat) : Gikan :=
  let l := g.link p
  match l.held with
  | [] => g
  | f :: _ =>
    let n := l.inRow + 1
    let g := (g.inc (F.LNK_COUNT0_REPLAYS p) 1).setLink p
      { l with replay := some 0, replayFrom := some (f.1.seq, g.now), inRow := n, waitFrom := g.now }
    if max 1 (g.get (F.LNK_RETRY_RETRY_MAX p)) ≤ n then g.retrain p 5 else g

def Gikan.replayNs (g : Gikan) (p : Nat) : Nat := max 1000 (g.get (F.LNK_RETRY_REPLAY_NS p))

/-- The oldest held flit has waited REPLAY_NS without an acknowledgement advancing. -/
def Gikan.replayTimeout (g : Gikan) (p : Nat) : Gikan :=
  let l := g.link p
  if g.lnkUp p && !l.held.isEmpty && decide (l.waitFrom + g.replayNs p ≤ g.now) then g.startReplay p else g

/-- Take an acknowledgement: the flits it covers are held no more. -/
def PortLnk.ackTo (l : PortLnk) (seq now : Nat) : PortLnk :=
  match findIdx (fun x : Flit × Bool => x.1.seq == seq) l.held with
  | none => l
  | some (i, _) =>
    { l with held := l.held.drop (i + 1), inRow := 0, waitFrom := now
             replay := match l.replay with
               | some r => if i + 1 < r then some (r - (i + 1)) else if l.held.length = i + 1 then none else some 0
               | none => none }

/-- The header fields that every good flit carries: acknowledgement, credits, NAK (R281, R286). -/
def Gikan.takeHeader (g : Gikan) (p : Nat) (f : Flit) : Gikan :=
  let l := g.link p
  let l := if f.ackValid = 1 then l.ackTo f.ackSeq g.now else l
  let g := g.setLink p { l with cumIn := (l.cumIn.set f.crTcA f.cumA).set f.crTcB f.cumB }
  if f.nak = 1 then
    let l := g.link p
    let point := (f.ackSeq + 1) % 4096
    let under := match l.replayFrom with
      | some (s, t) => l.replay.isSome && s == point && decide (g.now < t + g.replayNs p)
      | none => false
    if under then g else g.startReplay p
  else g

/-- An IDLE flit, or the header of a TSYNC or LCTL flit whose message has a command of its own. -/
def Gikan.idleFlit (g : Gikan) (p : Nat) (f : Flit) : Gikan :=
  if !(g.lnkUp p) then g else
  let g := g.fecFlit p
  if flitBad f then g.badFlit p else g.takeHeader p f

/-! Packets in slots (R282) -/

/-- Payload bytes of a request: those types whose LENGTH is not that of a payload have none (R42, R43, R47, R49); none exceeds 4,096 B (R40). -/
def reqPayload (type length : Nat) : Nat :=
  if type = tyREAD ∨ type = tyATOMIC ∨ type = tyFENCE ∨ type = tyLEND ∨ type = tyRECLAIM then 0 else min 4096 length

/-- What the first bytes of a packet say of its size. -/
inductive PktSize where
  | bad | more | size (n : Nat)
  deriving DecidableEq, Repr

/-- The size of a packet from its TYPE and LENGTH (R282). -/
def sizeOfPkt (b : List Byte) : PktSize :=
  let t := field b 0 1
  if 128 ≤ t then (if b.length < 16 then .more else .size (16 + min 4096 (field b 14 2)))
  else if !(decide (1 ≤ t ∧ t ≤ 0x0D) || isCohType t || isCtlType t) then .bad
  else if b.length < 32 then .more
  else .size (32 + bodySize t + reqPayload t (field b 20 3))

/-- A packet that has wholly arrived: kept in the input buffer, or dropped beyond its class's credits (R287). -/
def Gikan.packetIn (g : Gikan) (p : Nat) (pk : Packet) : Gikan :=
  let l := g.link p
  let c := packetTc pk
  let used := (l.rxIn.getD c 0 + 65536 - l.cumOut.getD c 0) % 65536
  if g.get (F.LNK_CREDIT_TC p c) < used + bufUnits pk then
    (g.inc (F.LNK_COUNT2_CREDIT_DROPS p) 1).contained (grpPort p) 0xFF (offOf (F.LNK_COUNT2_CREDIT_DROPS p))
  else ((g.arrived p pk).addUsed p (bufUnits pk)).keepPkt p pk

/-- The fabric output to which a packet in transit may be cut through, admission and routing passed on its header (R311). -/
def Gikan.cutOutput (g : Gikan) (p : Nat) (pk : Packet) : Option Nat :=
  let c := packetTc pk
  let ok := fun (o : Nat) => (g.get (F.XBAR_CT_TO_FABRIC c)).testBit p && decide (g.txLanes o ≤ g.rxLanes p)
  match pk with
  | .req q =>
    if !g.srcOk p q || g.hasp || g.quarBad p q || g.unsup p q false || (nonIdem q.hdr.type && g.req.dups.any (fun r => r.is q)) then none else
    match g.awayNode q with
    | none => none
    | some n =>
      (match g.exitPort (routePorts (g.map.cur.routeOf n)) c q.hdr.src q.hdr.tag with
       | .inl o => if ok o then some o else none
       | .inr _ => none)
  | .resp r =>
    if g.isSelf r.dst || g.hasp || (g.endpointPort p && decide (16 ≤ r.status)) then none else
    match g.exitPort (routePorts (g.map.cur.routeOf r.dst)) c r.dst r.tag with
    | .inl o => if ok o then some o else none
    | .inr _ => none

/-- More cells of a packet being cut through are in the buffer; `whole` is the packet once it has arrived. -/
def Gikan.growCut (g : Gikan) (p o cells : Nat) (pk : Packet) (whole : Bool) : Gikan :=
  let k := voqKey p o (packetTc pk)
  let q := g.xbar.voq.getD k []
  let q := q.map (fun v => if v.inBuf < v.cells then
    (if whole then { v with pkt := pk, inBuf := v.cells } else { v with inBuf := min (v.cells - 1) cells }) else v)
  { g with xbar := { g.xbar with voq := if q.isEmpty then g.xbar.voq else g.xbar.voq.put k q } }

/-- A packet's bytes so far, with its size known: it goes on arriving, is cut through, or is whole. -/
def Gikan.takePart (g : Gikan) (p n : Nat) (part : List Byte) : Gikan :=
  let l := g.link p
  match parsePacket (fit part n) with
  | none => g
  | some pk =>
    if n ≤ part.length then
      let g := g.setLink p { l with part := [], cut := none }
      match l.cut with
      | some o => g.growCut p o 0 pk true
      | none => g.packetIn p pk
    else
      let g := g.setLink p { l with part := part }
      match l.cut with
      | some o => g.growCut p o (part.length / 256) pk false
      | none =>
        if part.length < 256 then g else
        match g.cutOutput p pk with
        | none => g
        | some o =>
          let g := (g.arrived p pk).addUsed p (bufUnits pk)
          (g.setLink p { g.link p with cut := some o }).enqueueCells p o pk (part.length / 256)

/-- One slot: false when it is a framing error. -/
def Gikan.takeSlot16 (g : Gikan) (p : Nat) (start : Bool) (b : List Byte) : Gikan × Bool :=
  let l := g.link p
  if start && !l.part.isEmpty then (g, false)
  else if !start && l.part.isEmpty then (g, b.all (fun x => x == 0))
  else
    let part := l.part ++ b
    match sizeOfPkt part with
    | .bad => (g, false)
    | .more => (g.setLink p { l with part := part }, true)
    | .size n => (g.takePart p n part, true)

/-- The slots of a DATA flit, in order, up to a framing error. -/
def Gikan.takeSlots (g : Gikan) (p : Nat) (f : Flit) : List Nat → Gikan × Bool
  | [] => (g, true)
  | i :: is =>
    let (g, ok) := g.takeSlot16 p (f.start.testBit i) (slice f.slots (16 * i) 16)
    if ok then g.takeSlots p f is else (g, false)

/-- A flit is discarded (R285): counted, and a NAK is raised unless one is outstanding. -/
def Gikan.discardFlit (g : Gikan) (p : Nat) : Gikan :=
  let g := g.inc (F.LNK_COUNT1_SEQ_DISCARDS p) 1
  let l := g.link p
  if l.nak.isSome then g else g.setLink p { l with nak := some g.now, nakDue := true }

/-- Slots of a flit that hold packet bytes. -/
def occupied (f : Flit) : Nat := ((List.range 15).filter (fun i => f.start.testBit i || (slice f.slots (16 * i) 16).any (fun x => x != 0))).length

/-- DATA_FLIT (R283, R285). -/
def Gikan.dataFlit (g : Gikan) (p : Nat) (f : Flit) : Gikan :=
  if !(g.lnkUp p) then g else
  let g := g.fecFlit p
  if flitBad f then (g.badFlit p).discardFlit p else
  let g := g.takeHeader p f
  let l := g.link p
  if !g.lnkUp p then g
  else if f.seq ≠ l.expect then g.discardFlit p
  else
    let g := g.setLink p { l with expect := (l.expect + 1) % 4096, accepted := true, nak := none, nakDue := false, rxBytes := l.rxBytes + 16 * occupied f }
    let (g, ok) := g.takeSlots p f (List.range 15)
    if ok then g else (g.inc (F.LNK_COUNT2_FRAME_ERRORS p) 1).retrain p 6

/-- No flit with the expected number came within NAK_NS: the NAK is sent again. -/
def Gikan.nakTimeout (g : Gikan) (p : Nat) : Gikan :=
  let l := g.link p
  match l.nak with
  | some t =>
    if g.lnkUp p && decide (t + max 1000 (g.get (F.LNK_RETRY_NAK_NS p)) ≤ g.now) then g.setLink p { l with nak := some g.now, nakDue := true } else g
  | none => g

/-! Sending (R281, R284, R287) -/

/-- Whether the credits of its class let a packet go. -/
def PortLnk.creditOk (l : PortLnk) (pk : Packet) : Bool :=
  let c := packetTc pk
  decide ((l.taken.getD c 0 + 65536 - l.cumIn.getD c 0) % 65536 + bufUnits pk ≤ l.initial.getD c 0)

/-- The next packet that a port may begin: the oldest of a class whose credits allow its oldest packet; in QUARANTINE of TC0 alone, in the
Hasp state an answer of R345. -/
def Gikan.nextPkt (g : Gikan) (p : Nat) : Option Packet :=
  let q := g.xbar.tx.getD p []
  let l := g.link p
  q.find? (fun pk => l.creditOk pk && (g.lnkState p == 5 || packetTc pk == 0) && (!g.hasp || haspAnswer pk) &&
    (match q.find? (fun x => packetTc x == packetTc pk && (!g.hasp || haspAnswer x)) with | some x => x == pk | none => false))

/-- Take a packet out of a port's queue to send it: it takes its credits. -/
def Gikan.beginPkt (g : Gikan) (p : Nat) (pk : Packet) : Gikan :=
  let l := g.link p
  let c := packetTc pk
  let g := { g with xbar := { g.xbar with tx := g.xbar.tx.put p ((g.xbar.tx.getD p []).erase pk) } }
  g.setLink p { l with taken := l.taken.set c ((l.taken.getD c 0 + bufUnits pk) % 65536), rest := fit (encodePacket pk) (padded pk) }

/-- Fill the slots of a DATA flit from slot `i` on: the bytes, and the START bits. -/
def Gikan.fillSlots : Nat → Nat → Gikan → Nat → List Byte → Nat → Gikan × List Byte × Nat
  | 0, _, g, _, acc, start => (g, acc, start)
  | n + 1, i, g, p, acc, start =>
    let l := g.link p
    if l.rest.isEmpty then
      match g.nextPkt p with
      | none => (g, acc, start)
      | some pk =>
        let g := g.beginPkt p pk
        let l := g.link p
        Gikan.fillSlots n (i + 1) (g.setLink p { l with rest := l.rest.drop 16 }) p (acc ++ l.rest.take 16) (setBit start i)
    else Gikan.fillSlots n (i + 1) (g.setLink p { l with rest := l.rest.drop 16 }) p (acc ++ l.rest.take 16) start

/-- FLIT_SEND: the flit of one flit time: a control message that is due, a replayed flit, a new DATA flit, or IDLE. -/
def Gikan.flitSend (g : Gikan) (p : Nat) : Gikan :=
  let l := g.link p
  if g.lnkState p == 4 then g.sendFlit p idle0
  else if !(g.lnkUp p) then g
  else if (match l.txSched with | some s => decide (g.txFlits p < s.at_ ∧ s.sent + 256 ≤ g.txFlits p) | none => false) then g.sendNarrowing p
  else
    match l.replay with
    | some i =>
      (match l.held[i]? with
       | some f => (g.setLink p { l with replay := if i + 1 < l.held.length then some (i + 1) else none }).sendFlit p f.1
       | none => (g.setLink p { l with replay := none }).sendFlit p idle0)
    | none =>
      if 3072 ≤ l.held.length then g.sendFlit p idle0 else
      let mid := !l.rest.isEmpty
      let (g, bytes, start) := Gikan.fillSlots 15 0 g p [] 0
      if bytes.isEmpty then g.sendFlit p idle0
      else
        let l := g.link p
        let f := { idle0 with kind := 1, seq := l.nextSeq, start := start, slots := fit bytes 240 }
        let l' := { l with nextSeq := (l.nextSeq + 1) % 4096, held := l.held ++ [(f, mid)]
                           waitFrom := (if l.held.isEmpty then g.now else l.waitFrom), txBytes := l.txBytes + bytes.length }
        (g.setLink p l').sendFlit p f

/-! Bring-up (R290 to R293) -/

/-- Light on L0 and L1: SIGNAL ends, unless the port's own feed is lost (R300). -/
def Gikan.linkLight (g : Gikan) (p : Nat) : Gikan := if g.lnkState p == 1 && !(g.link p).feedLost then g.lnkEnter p 2 else g

def Gikan.codewordLock (g : Gikan) (p : Nat) : Gikan := if g.lnkState p == 2 then g.lnkEnter p 3 else g

/-- Whether the receiver loop, or the modulator bias, of a port is held (R299, R351). -/
def Gikan.eqFrozen (g : Gikan) (p : Nat) : Bool := g.on (F.LNK_CTRL_EQ_FREEZE p) || g.bitOf F.FLT_FREEZE_LOOPS 1
def Gikan.biasFrozen (g : Gikan) (p : Nat) : Bool := g.on (F.LNK_CTRL_BIAS_FREEZE p) || g.bitOf F.FLT_FREEZE_LOOPS 2

/-- The receiver loop, what it measures, and the bias loop settle where the line has them: free values (R298). -/
def Gikan.laneLoops (g : Gikan) (p : Nat) : Gikan :=
  (List.range 8).foldl (fun h i =>
    let (d, h) := h.next
    let v := Config.openValue d
    let h := h.set (F.LNK_LANE_OPT_RX_OMA p i) v
    let h := if h.eqFrozen p then h else
      (((h.set (F.LNK_LANE_EQ_CTLE p i) (v / 2 ^ 8)).set (F.LNK_LANE_EQ_DFE1 p i) (v / 2 ^ 12)).set (F.LNK_LANE_EQ_DFE2 p i) (v / 2 ^ 20)).set
        (F.LNK_LANE_EQ_DFE3 p i) (v / 2 ^ 28)
    if h.biasFrozen p then h else h.set (F.LNK_LANE_OPT_MOD_BIAS p i) (v / 2 ^ 36)) g

/-- The transmitter's FFE as training leaves it: free values. -/
def Gikan.trainFfe (g : Gikan) (p : Nat) : Gikan :=
  if g.eqFrozen p then g else
  (List.range 8).foldl (fun h i =>
    let (d, h) := h.next
    let v := Config.openValue d
    ((h.set (F.LNK_LANE_EQ_FFE_PRE p i) v).set (F.LNK_LANE_EQ_FFE_MAIN p i) (v / 64)).set (F.LNK_LANE_EQ_FFE_POST p i) (v / 4096)) g

/-- The width code that two reports of good lanes allow, under WIDTH_MAX (R291). -/
def widthOf (maxCode own partner : Nat) : Option Nat :=
  let first := if maxCode = 3 then 0 else maxCode
  [0, 1, 2].find? (fun c => decide (first ≤ c) && (List.range (8 / 2 ^ c)).all (fun i => own.testBit i && partner.testBit i))

/-- TRAIN_DONE: training has ended with the good lanes of the two sides. -/
def Gikan.trainDone (g : Gikan) (p own partner : Nat) : Gikan :=
  if g.lnkState p != 3 then g else
  let g := (g.laneLoops p).trainFfe p
  match widthOf (g.get (F.LNK_CTRL_WIDTH_MAX p)) own partner with
  | none => g.lnkFail p 3
  | some c => (g.set (F.LNK_STATUS_WIDTH p) c).lnkEnter p 4

/-- The limits of SIGNAL, LOCK, TRAIN and PARAM, in ns. -/
def lnkLimit (st : Nat) : Nat := [0, 10000000, 1000000, 50000000, 2000000].getD st 0

/-- A state that passes its limit goes to BACKOFF, the state's number its cause. -/
def Gikan.linkStateTimeout (g : Gikan) (p : Nat) : Gikan :=
  let st := g.lnkState p
  if decide (1 ≤ st ∧ st ≤ 4) && decide ((g.link p).since + lnkLimit st ≤ g.now) then g.lnkFail p st else g

def Gikan.backoffEnd (g : Gikan) (p : Nat) : Gikan :=
  if g.lnkState p == 7 && decide ((g.link p).since + (g.link p).backoffNs ≤ g.now) then g.lnkSignal p else g

/-- The 48-byte configuration digest as a number. -/
def Gikan.cfgDigest (g : Gikan) : Nat := (List.range 6).foldl (fun n i => n + g.get (F.MGT_DIGEST_WORD i) * 2 ^ (64 * i)) 0

/-- This side's PARAM message (R292). -/
def Gikan.ownParam (g : Gikan) (p : Nat) : ParamMsg :=
  ⟨0, g.get F.MAP_CTRL_REACH, if (g.link p).got.isSome then 1 else 0, 0x0200, g.node, g.get F.GLB_FW_FW_VERSION, g.get F.GLB_COMPAT_FW_MIN,
   g.get F.GLB_COMPAT_FW_MAX, (List.range 8).map (fun c => g.get (F.LNK_CREDIT_TC p c)), g.cfgDigest, false⟩

/-- The outcome of R293: state, DOWN_CAUSE, QCAUSE. -/
def Gikan.paramOutcome (g : Gikan) (p : Nat) (m : ParamMsg) : Nat × Nat × Nat :=
  let sum := fun (l : List Nat) => l.foldl (fun a b => a + b) 0
  let own := (List.range 8).map (fun c => g.get (F.LNK_CREDIT_TC p c))
  let fw := g.get F.GLB_FW_FW_VERSION
  if m.afpVersion / 256 ≠ 2 then (8, 4, 0)
  else if m.reservedNonzero then (7, 4, 0)
  else if m.credits.getD 0 0 = 0 ∨ (m.role = 0 ∧ 32768 < sum m.credits) ∨ 32768 < sum own then (7, 6, 0)
  else if g.on (F.LNK_CTRL_QUARANTINE p) then (6, 0, 4)
  else if !(decide (g.get F.GLB_COMPAT_FW_MIN ≤ m.fwVersion ∧ m.fwVersion ≤ g.get F.GLB_COMPAT_FW_MAX) && decide (m.fwMin ≤ fw ∧ fw ≤ m.fwMax)) then (6, 0, 2)
  else if m.reach ≠ g.get F.MAP_CTRL_REACH then (6, 0, 3)
  else if (m.role = 0 ∧ m.digest ≠ g.cfgDigest) ∨ (m.role = 1 ∧ m.digest ≠ 0 ∧ m.digest ≠ g.cfgDigest) then (6, 0, 1)
  else (5, 0, 0)

/-- Units that packets of earlier bring-ups still hold in the input buffer, by class. -/
def Gikan.heldUnits (g : Gikan) (p c : Nat) : Nat :=
  ((g.link p).buf.filter (fun k => packetTc k == c)).foldl (fun n k => n + bufUnits k) 0 +
  g.xbar.voq.foldl (fun n e => if e.1 / 8 / 48 = p ∧ e.1 % 8 = c then n + e.2.foldl (fun m v => m + bufUnits v.pkt) 0 else n) 0

/-- A port becomes ACTIVE or QUARANTINE: sequence numbers and credits start (R284, R287, R297). -/
def Gikan.lnkOpen (g : Gikan) (p st : Nat) (m : ParamMsg) : Gikan :=
  let g := g.lnkEnter p st
  let l := (g.link p).cleared
  g.setLink p { l with fails := 0, expect := 0, accepted := false, nextSeq := 0, rxIn := noClasses, cumOut := noClasses
                       stale := (List.range 8).map (fun c => g.heldUnits p c), cumIn := noClasses, taken := noClasses, initial := m.credits
                       waitFrom := g.now, crNext := 0, txAt := (0, g.now), rxAt := (0, g.now), laneAt := none }

/-- Once each side has sent and received SEEN, the port leaves PARAM. -/
def Gikan.paramSettle (g : Gikan) (p : Nat) : Gikan :=
  let l := g.link p
  match l.got with
  | none => g
  | some m =>
    if !(l.seenIn && l.sentSeen) then g else
    let (st, down, q) := g.paramOutcome p m
    let g := g.set (F.LNK_STATUS_QCAUSE p) q
    if st = 8 then (g.set (F.LNK_STATUS_DOWN_CAUSE p) down).lnkEnter p 8
    else if st = 7 then g.lnkFail p down
    else
      let g := g.lnkOpen p st m
      if st = 6 then g.contained (grpPort p) 0xFF (offOf (F.LNK_STATUS_QCAUSE p)) else g

/-- PARAM_SEND: every 100 µs in PARAM. -/
def Gikan.paramSend (g : Gikan) (p : Nat) : Gikan :=
  let l := g.link p
  let due := match l.paramAt with | some t => decide (t + 100000 ≤ g.now) | none => true
  if g.lnkState p == 4 && due then
    let m := g.ownParam p
    ((g.setLink p { l with paramAt := some g.now, sentSeen := l.sentSeen || m.seen == 1 }).sendFlit p (msgFlit 3 (paramSlots m))).paramSettle p
  else g

/-- PARAM: the partner's message. -/
def Gikan.paramIn (g : Gikan) (p : Nat) (m : ParamMsg) : Gikan :=
  if g.lnkState p != 4 then g else
  let g := ((g.set (F.LNK_STATUS_PARTNER_ROLE p) m.role).set (F.LNK_STATUS_PARTNER_REACH p) m.reach).set (F.LNK_STATUS_PARTNER_NODE p) m.node
  let g := (g.set (F.LNK_STATUS_PARTNER_AFP p) m.afpVersion).set (F.LNK_PARTNER_FW_VERSION p) m.fwVersion
  let g := (List.range 6).foldl (fun h i => h.set (F.LNK_PARTNER_DIGEST_WORD p i) (m.digest / 2 ^ (64 * i))) g
  let l := g.link p
  (g.setLink p { l with got := some m, seenIn := l.seenIn || m.seen == 1 }).paramSettle p

/-- The ports at the seal: each with ENABLE set starts (R290). -/
def Gikan.portsStart (g : Gikan) : Gikan :=
  (List.range 32).foldl (fun h p => if h.on (F.LNK_CTRL_ENABLE p) && h.lnkState p == 0 then h.lnkSignal p else h) g

/-! LNK_CTRL (R290, R297) -/

/-- Counters that CLR_CNT clears. -/
def lnkCounters (p : Nat) : List Fld :=
  [F.LNK_COUNT0_CRC_ERRORS p, F.LNK_COUNT0_REPLAYS p, F.LNK_COUNT1_SEQ_DISCARDS p, F.LNK_COUNT1_NAKS_SENT p, F.LNK_COUNT1_RETRAINS p,
   F.LNK_COUNT2_SRC_DROPS p, F.LNK_COUNT2_CREDIT_DROPS p, F.LNK_COUNT2_FRAME_ERRORS p, F.LNK_COUNT2_LOST_PACKETS p, F.LNK_FEC_ALARM_ALARMS p] ++
  (List.range 8).flatMap (fun i => [F.LNK_LANE_FEC_CORR_SYMBOLS p i, F.LNK_LANE_FEC_UNCORR_CW p i, F.LNK_LANE_FEC_LOCK_LOSSES p i])

/-- What ACTIVE or QUARANTINE loses when software takes a port out of it. -/
def Gikan.lnkLeave (g : Gikan) (p : Nat) : Gikan :=
  if !g.lnkUp p then g.setLink p (g.link p).cleared else
  let (g, outs) := g.lnkDrop p
  Gikan.retrainOuts 64 (g.set (F.LNK_STATUS_STATE p) 7) outs

/-- A write of LNK_CTRL: RETRAIN restarts at SIGNAL, ENABLE clear disables with cause 8, ENABLE set starts a DISABLED or DOWN port. -/
def Gikan.wrLnkCtrl (g : Gikan) (w : RegW) (p : Nat) : Gikan :=
  let g := g.putFields w (offOf (F.LNK_CTRL_ENABLE p))
    [F.LNK_CTRL_ENABLE p, F.LNK_CTRL_QUARANTINE p, F.LNK_CTRL_EQ_FREEZE p, F.LNK_CTRL_BIAS_FREEZE p, F.LNK_CTRL_WIDTH_MAX p]
  let g := if wrOne w (F.LNK_CTRL_CLR_CNT p) then
      let h := g.clear (lnkCounters p)
      h.setLink p { h.link p with hist := [] }
    else g
  let st := g.lnkState p
  if !g.sealed then g
  else if !g.on (F.LNK_CTRL_ENABLE p) then
    if st == 0 then g else ((g.lnkLeave p).set (F.LNK_STATUS_DOWN_CAUSE p) 8).lnkEnter p 0
  else if wrOne w (F.LNK_CTRL_RETRAIN p) then (g.lnkLeave p).lnkSignal p
  else if wrCovers w (F.LNK_CTRL_ENABLE p) && (st == 0 || st == 8) then g.lnkSignal p
  else g

/-! Lanes, feeds and loops (R298 to R301) -/

/-- A lane loses lock or light; the lanes that a narrowed partner darkened do not count (R297, R361). -/
def Gikan.laneLoss (g : Gikan) (p lane : Nat) : Gikan :=
  if !g.lnkUp p || decide (g.rxLanes p ≤ lane) then g
  else (g.inc (F.LNK_LANE_FEC_LOCK_LOSSES p lane) 1).retrain p 1

/-- LANE_STATUS_SEND: every 1 ms each receiver reports its lanes; a frozen loop asks for nothing. -/
def Gikan.laneStatusSend (g : Gikan) (p : Nat) : Gikan :=
  let due := match (g.link p).laneAt with | some t => decide (t + 1000000 ≤ g.now) | none => true
  if !(g.lnkUp p && due) then g else
  let g := g.laneLoops p
  let (d, g) := g.next
  let frozen := g.eqFrozen p
  let req := (List.range 8).map (fun i => if frozen then 0 else
    let v := Config.openValue d / 64 ^ i
    v % 3 + v / 4 % 3 * 4 + v / 16 % 3 * 16)
  let oma := (List.range 8).map (fun i => sext (g.get (F.LNK_LANE_OPT_RX_OMA p i)) 8)
  (g.setLink p { g.link p with laneAt := some g.now }).sendFlit p (msgFlit 3 (laneSlots ⟨oma, req⟩))

/-- One step of an FFE setting. -/
def ffeStep (v r : Nat) : Nat := if r = 1 then min 63 (v + 1) else if r = 2 then v - 1 else v

/-- LANE_STATUS: the partner's report of each lane, and its requests. -/
def Gikan.laneStatusIn (g : Gikan) (p : Nat) (m : LaneStatusMsg) : Gikan :=
  if !g.lnkUp p then g else
  let frozen := g.eqFrozen p
  (List.range 8).foldl (fun h i =>
    let h := h.set (F.LNK_LANE_OPT_PARTNER_RX_OMA p i) (toBits (m.rxOma.getD i 0) 8)
    let r := m.ffeReq.getD i 0
    if frozen then h else
    let h := h.set (F.LNK_LANE_EQ_FFE_PRE p i) (ffeStep (h.get (F.LNK_LANE_EQ_FFE_PRE p i)) (bits r 0 2))
    let h := h.set (F.LNK_LANE_EQ_FFE_MAIN p i) (ffeStep (h.get (F.LNK_LANE_EQ_FFE_MAIN p i)) (bits r 2 2))
    h.set (F.LNK_LANE_EQ_FFE_POST p i) (ffeStep (h.get (F.LNK_LANE_EQ_FFE_POST p i)) (bits r 4 2))) g

/-- The two ports of a feed. -/
def feedPorts (t f : Nat) : List Nat := [8 * t + 2 * f, 8 * t + 2 * f + 1]

/-- A feed is lost (R300, R304): its ports retrain, or go to BACKOFF, with cause 7. -/
def Gikan.laserFeedLoss (g : Gikan) (t f : Nat) : Gikan :=
  let g := (g.set (F.LNK_TILE_FEED_LOSS t f) 1).contained (grpTile t) f (offOf (F.LNK_TILE_FEED_LOSS t f))
  (feedPorts t f).foldl (fun h p =>
    let h := (h.setLink p { h.link p with feedLost := true }).contained (grpPort p) 0xFF (offOf (F.LNK_TILE_FEED_LOSS t f))
    let st := h.lnkState p
    if h.lnkUp p then h.retrain p 7 else if st == 2 || st == 3 || st == 4 then h.lnkFail p 7 else h) g

/-- The feed is back: its ports may leave SIGNAL. -/
def Gikan.laserFeedReturn (g : Gikan) (t f : Nat) : Gikan :=
  (feedPorts t f).foldl (fun h p => h.setLink p { h.link p with feedLost := false }) g

/-- The lowest report of the partners over a feed's lanes that are not frozen, in 0.1 dBm. -/
def Gikan.feedOma (g : Gikan) (t f : Nat) : Option Int :=
  let vs := (feedPorts t f).flatMap (fun p => if g.lnkUp p && !g.biasFrozen p then
      (List.range (g.txLanes p)).map (fun i => sext (g.get (F.LNK_LANE_OPT_PARTNER_RX_OMA p i)) 8) else [])
  match vs with
  | [] => none
  | v :: rest => some (rest.foldl min v)

/-- LASER_LOOP: every 10 ms the setpoint of a feed follows the lowest report (R301), and a change raises the interrupt of R390; the measured power is a free value. -/
def Gikan.laserLoop (g : Gikan) (t f : Nat) : Gikan :=
  let p := 8 * t + 2 * f
  let due := match (g.link p).loopAt with | some x => decide (x + 10000000 ≤ g.now) | none => true
  if !due then g else
  let (d, g) := g.next
  let g := (g.setLink p { g.link p with loopAt := some g.now }).set (F.LNK_TILE_FEED_POWER t f) (Config.openValue d)
  match g.feedOma t f with
  | none => g
  | some v =>
    let s := g.get (F.LNK_LASER_REQ_SETPOINT t f)
    let n := if v < -26 then min 200 (s + 5) else if -6 < v then max 160 (s - 5) else s
    if n = s then g else ((g.set (F.LNK_LASER_REQ_SETPOINT t f) n).set (F.LNK_LASER_REQ_CHANGED t f) 1).ibi 2

/-! Narrowing (R361) -/

/-- The flit time that AT, a count modulo 2³², names: the one nearest to a count `n`. -/
def flitTimeOf (n at_ : Nat) : Nat :=
  let t := n / 2 ^ 32 * 2 ^ 32 + at_
  if t + 2 ^ 31 < n then t + 2 ^ 32 else t

/-- SLEEP and WAKE as received: decoding changes at flit time AT. -/
def Gikan.sleepIn (g : Gikan) (p at_ : Nat) (wake : Bool) : Gikan :=
  if !g.lnkUp p then g else g.setLink p { g.link p with rxSched := some ⟨wake, flitTimeOf (g.rxFlits p) at_, 0⟩ }

/-- NARROW_AT: at flit time AT a direction changes width; a receiver whose lanes are not ready to widen retrains with cause 2. -/
def Gikan.narrowAt (g : Gikan) (p : Nat) (tx ready : Bool) : Gikan :=
  let l := g.link p
  if tx then
    match l.txSched with
    | some s =>
      if g.lnkUp p && decide (s.at_ ≤ g.txFlits p) then
        g.setLink p { l with txNarrow := !s.wake, txSched := none, txAt := (g.txFlits p, g.now) }
      else g
    | none => g
  else
    match l.rxSched with
    | some s =>
      if !(g.lnkUp p && decide (s.at_ ≤ g.rxFlits p)) then g
      else if s.wake && !ready then g.retrain p 2
      else g.setLink p { l with rxNarrow := !s.wake, rxSched := none, rxAt := (g.rxFlits p, g.now) }
    | none => g

end Sys2Proof.Machine
end

