-- ==== Sys2Proof/Machine/Handover.lean ====
section
/-!
DEFINITION. The control requests as they arrive: handover of a home between two members of a domain (R81, R82), and home copies (R127 to
R129).
-/

namespace Sys2Proof.Machine

/-! Held requests (R82) -/

/-- Run a request that was held for a token, under the map of its epoch: the record cache is looked up first, since a copy of it may have run
meanwhile (R59). -/
def Gikan.runHeld (g0 : Gikan) (h : Held) : Gikan :=
  let q := h.q
  match g0.liveMap q.hdr.epoch with
  | none => g0.refuse h.x q stSTALE
  | some m =>
    let (g, ok) := g0.dupLookup h.x q true
    if !ok then g else
    let e := m.entry h.entry
    let t := q.hdr.type
    if isCohType t then g.cohAdmit h.x q h.entry e (cohKindOf t) else
    if t = tyGATHER then g.gatherHere h.x q h.entry e
    else if t = tyFILTER then g.filterHere h.x q h.entry e
    else if t = tySCORE then g.scoreHere h.x q h.entry e
    else if t = tyTRIGGER then g.triggerHere h.x q h.entry e
    else g.memRequest h.x q h.entry e

/-- The requests held for the token of an extent, in order of arrival. -/
def Gikan.heldFor (g : Gikan) (entry : Nat) : List Held := g.req.held.filter (fun h => h.why == .token entry)

/-- Take the requests held for a token out, and deal with each. -/
def Gikan.freeHeld (g : Gikan) (entry : Nat) (f : Gikan → Held → Gikan) : Gikan :=
  (g.heldFor entry).foldl f { g with req := { g.req with held := g.req.held.filter (fun h => h.why != .token entry) } }

/-- Send a held request on to a node, unchanged; one to the alias 0xFFFF is never sent on (R35). -/
def Gikan.sendHeld (g : Gikan) (node : Nat) (h : Held) : Gikan :=
  if addrNode h.q.hdr.addr = 0xFFFF then g.refuse h.x h.q stNOTPRES else
  match g.exitPort (routePorts (g.map.cur.routeOf node)) h.q.hdr.tc h.q.hdr.src h.q.hdr.tag with
  | .inl p => g.enqueue 47 p (.req h.q)
  | .inr st => g.refuse h.x h.q st

/-! Receipt of control requests -/

/-- Check 3 of HANDOVER and HOME_REVERT, and of the requests of R127: LENGTH, SUBOP, reserved bytes. -/
def ctlBad (q : Req) : Bool :=
  let t := q.hdr.type
  let len := if t = tyHOMELINE then 128 else 0
  q.hdr.length != len || q.hdr.subop != 0 ||
  (if t = tyHOMELINE then bodyField q 34 2 != 0 || bodyField q 36 8 % 128 != 0 || bodyField q 44 4 != 0
   else if t = tyDOMAIN then bodyField q 34 2 != 0 || bodyField q 40 8 != 0
   else bodyField q 36 12 != 0)

/-- Receive a control request of a type; `f` gives its answer and its effect. -/
def Gikan.ctlArrive (g : Gikan) (x : Nat) (q : Req) (type : Nat) (f : Gikan → Nat → Nat × Gikan) : Gikan :=
  match g.receive x q type (ctlBad q) with
  | .done g => g
  | .go g _ _ =>
    let (st, g) := f g (bodyField q 32 2)
    g.answer 47 x q st []

/-- B takes the token of an extent (R82). -/
def Gikan.takeToken (g : Gikan) (entry : Nat) (h : Handover) : Gikan :=
  ((g.setHand entry { h with step := .bHolds }).adoptCopy entry).freeHeld entry (fun k r => k.runHeld r)

/-- A keeps the token and resumes execution (R82). -/
def Gikan.keepToken (g : Gikan) (entry : Nat) (h : Handover) : Gikan :=
  let g := (g.closeControl tyHANDOVER entry).setHand entry { h with step := .aKept }
  let g := { g with tier := { g.tier with copyA := g.tier.copyA.del entry } }
  ((g.countRevert).postHomeReq entry h.peer).freeHeld entry (fun k r => k.runHeld r)

/-- HANDOVER at B: its answer, and the token. -/
def Gikan.handoverHere (g : Gikan) (epoch entry : Nat) : Nat × Gikan :=
  match g.map.hand.get? entry with
  | some h =>
    if h.epoch ≠ epoch then (stTIMEOUT, g)
    else if h.step = .bWaiting then (stOK, g.takeToken entry h)
    else if h.step = .bHolds then (stOK, g)
    else (stTIMEOUT, g)
  | none => (if (g.map.cur.entry entry).valid && (g.map.cur.entry entry).home == g.node then stOK else stTIMEOUT, g)

def Gikan.handover (g : Gikan) (x : Nat) (q : Req) : Gikan := g.ctlArrive x q tyHANDOVER (fun h entry => let (st, k) := h.handoverHere q.hdr.epoch entry; (st, h.cohSettle k))

/-- A gives up the token: the requests it holds go to B unchanged; its pages go with the previous map. -/
def Gikan.giveToken (g : Gikan) (entry : Nat) (h : Handover) : Gikan :=
  let g := g.setHand entry { h with step := .aDone }
  let g := { g with tier := { g.tier with copyA := g.tier.copyA.del entry } }
  let g := g.freeHeld entry (fun k r => k.sendHeld h.peer r)
  if g.on F.MAP_EPOCH_HINGE then g else g.releaseMoved entry (g.map.cur.entry entry)

/-- HANDOVER_ACK, and the other answers to HANDOVER: TIMEOUT counts as the HOME_REVERT it answers; any other code leaves A resending. -/
def Gikan.handoverAck (g0 : Gikan) (x : Nat) (r : Resp) : Gikan :=
  if r.type ≠ 0xC0 ∨ !g0.isSelf r.dst then g0 else
  let (src, g) := g0.takePkt x (.resp r)
  let g := g.consumed src x (.resp r)
  if g.hasp then g else
  match g.answered r with
  | none => g.inc F.MAP_EVENTS2_LATE_DROPS 1
  | some o =>
    match o.consumer with
    | .control entry _ =>
      (match g.map.hand.get? entry with
       | some h =>
         if h.step ≠ .aStopped then g.closeTag r.tag false
         else if r.status = stOK then g.cohSettle ((g.closeTag r.tag false).giveToken entry h)
         else if r.status = stTIMEOUT then g.cohSettle ((g.closeTag r.tag false).keepToken entry h)
         else g
       | none => g.closeTag r.tag false)
    | _ => g

/-- B has passed the deadline without HANDOVER (R82). -/
def Gikan.handoverDeadline (g : Gikan) (entry : Nat) : Gikan :=
  match g.map.hand.get? entry with
  | none => g
  | some h =>
    if h.step ≠ .bWaiting ∨ g.time < h.deadline then g else
    let g := g.setHand entry { h with step := .bReverted, sentAt := g.time }
    let g := (g.freeHeld entry (fun k r => k.refuse r.x r.q stBUSY)).releaseCopyB entry
    (g.countRevert).sendControl tyREVERT h.peer entry 0 (handBody entry g.node) []

/-- HOME_REVERT at A; a repeat has the effect of one copy. -/
def Gikan.revertHere (g : Gikan) (epoch entry : Nat) : Nat × Gikan :=
  match g.map.hand.get? entry with
  | some h => (stOK, if h.epoch = epoch ∧ (h.step = .aRunning ∨ h.step = .aStopped) then g.keepToken entry h else g)
  | none => (stOK, g)

def Gikan.homeRevert (g : Gikan) (x : Nat) (q : Req) : Gikan := g.ctlArrive x q tyREVERT (fun h entry => let (st, k) := h.revertHere q.hdr.epoch entry; (st, h.cohSettle k))

/-! Home copies (R127 to R129) -/

/-- HOME_COPY at B. -/
def Gikan.homeCopy (g : Gikan) (x : Nat) (q : Req) : Gikan := g.ctlArrive x q tyHOMECOPY (fun h entry => h.copyBegin entry (bodyField q 34 2))

/-- HOME_LINE at B. -/
def Gikan.homeLine (g : Gikan) (x : Nat) (q : Req) : Gikan :=
  g.ctlArrive x q tyHOMELINE (fun h entry => (stOK, h.copyLine entry (bodyField q 36 8) (fit q.payload 128)))

/-- COPY_DONE at A. -/
def Gikan.copyDoneArrive (g : Gikan) (x : Nat) (q : Req) : Gikan := g.ctlArrive x q tyCOPYDONE (fun h entry => (stOK, h.copyDone entry))

/-- COPY_CANCEL, on either side. -/
def Gikan.copyCancel (g : Gikan) (x : Nat) (q : Req) : Gikan := g.ctlArrive x q tyCOPYCANCEL (fun h entry => (stOK, h.dropCopy entry))

/-- DOMAIN_STATUS from a member. -/
def Gikan.domainStatus (g : Gikan) (x : Nat) (q : Req) : Gikan :=
  g.ctlArrive x q tyDOMAIN (fun h _ => (stOK, { h with tier := { h.tier with domFree := h.tier.domFree.put q.hdr.src (bodyField q 36 4) } }))

end Sys2Proof.Machine
end

