-- ==== Sys2Proof/Machine/Lines.lean ====
section
/-!
DEFINITION. The coherence commands: agents' messages as they arrive (R139 to R141, R145, R147, R153), and the requests on coherent extents that
wait for their lines (R150).
-/

namespace Sys2Proof.Machine

/-! Requests whose lines are ready (R150) -/

/-- The transactions that a held request waits for. -/
def Gikan.linesFor (g : Gikan) (id : Nat) : List Txn := g.coh.txns.filter (fun t => (t.kind == .homeRead || t.kind == .homeWrite) && t.held == id)

/-- Perform a held request whose lines are all ready, and close its transactions. -/
def Gikan.drainHeld (g : Gikan) (h : Held) : Gikan :=
  let ts := g.linesFor h.id
  if ts.isEmpty || ts.any (fun t => !(t.opened && t.ready)) then g
  else ts.foldl (fun k t => k.closeTxn t) ((g.release h.id).runMem h.x h.q (g.siteOf h.entry))

/-- Whether a work item has not ended. -/
def Gikan.itemLives (g : Gikan) (who : List Nat) : Bool :=
  g.eng.units.any (fun e => e.2.run.any (fun r => itemKey (unitOfKey e.1) r.item.work == who)) ||
    g.pin.cores.any (fun c => c.2.threads.any (fun t => threadKey c.1 t.1 t.2.item.id == who))

/-- Perform what has become ready; a transaction whose request or work item is gone closes. -/
def Gikan.cohDrain (g : Gikan) : Gikan :=
  let hs := g.req.held.filter (fun h => match h.why with | .coherent _ => true | _ => false)
  let g := hs.foldl (fun k h => k.drainHeld h) g
  let gone := g.coh.txns.filter (fun t => (t.kind == .homeRead || t.kind == .homeWrite) && t.ready && (g.heldById t.held).isNone)
  let g := gone.foldl (fun k t => k.closeTxn t) g
  let left := (g.coh.txns.filter (fun t => t.opened && t.ready && !t.who.isEmpty && !g.itemLives t.who)).map (fun t => t.who)
  left.foldl (fun k w => k.wentOn w) g

/-! Messages as they arrive -/

/-- A body of R140 that its type does not allow. -/
def cohBodyBad (q : Req) : Bool :=
  let t := q.hdr.type
  let st := bodyField q 44 1
  let fl := bodyField q 45 1
  let data := bit fl 0
  q.hdr.subop != 0 || q.hdr.addr != bodyField q 32 8 || q.hdr.addr % 128 != 0 || st != 0 || decide (7 < fl) || bodyField q 46 2 != 0 ||
  (t != tySNPRSP && (bodyField q 40 2 != q.hdr.src || decide (1 < fl) || data != (t == tyWBDIRTY))) ||
  (t == tySNPRSP && (bit fl 2 && !data)) || ((t == tyCOMPLETE || t == tySNPRSP) && q.hdr.ward != 0)

def Gikan.isAgent (g : Gikan) (n : Nat) : Bool := g.coh.agents.contains n

/-- A message of a dead agent is dropped and counted (R153). -/
def Gikan.deadSrc (g : Gikan) (q : Req) : Bool := g.coh.dead.contains q.hdr.src

/-- RD_SHARED, RD_OWN, UPGRADE, WB_DIRTY. -/
def Gikan.cohArrive (g0 : Gikan) (x : Nat) (q : Req) (type : Nat) (kind : CohKind) : Gikan :=
  if q.hdr.type = type ∧ g0.forSelf q ∧ g0.srcOk x q ∧ !g0.hasp ∧ g0.deadSrc q then
    let (src, g) := g0.takePkt x (.req q)
    (g.consumed src x (.req q)).inc F.COH_EVENTS_LATE_DROPS 1
  else
    match g0.receive x q type (cohBodyBad q || (g0.forSelf q && !g0.isAgent q.hdr.src)) with
    | .done g => g
    | .go g i e => g.cohAdmit x q i e kind

/-- COMPLETE and SNP_RSP pass checks 1 to 3 only; `f` is their effect at the home. -/
def Gikan.cohClosing (g0 : Gikan) (x : Nat) (q : Req) (type : Nat) (f : Gikan → Gikan) : Gikan :=
  if q.hdr.type ≠ type then g0 else
  let (src, g) := g0.takePkt x (.req q)
  let gone := g.consumed src x (.req q)
  if !g.srcOk x q then (gone.inc (F.LNK_COUNT2_SRC_DROPS x) 1).contained (grpPort x) 0xFF (offOf (F.LNK_COUNT2_SRC_DROPS x))
  else
    let away := match g.resolve ((g.liveMap q.hdr.epoch).getD g.map.cur) q.hdr.addr with | .send _ ports => some ports | _ => none
    if g.hasp then (if away.isSome then gone.inc F.FLT_HASP0_TRANSIT_DROPS 1 else gone)
    else if g.quarBad x q || g.unsup x q (cohBodyBad q) then gone
    else match away with
      | some ports => g.sendOn src x q ports
      | none =>
        if g.deadSrc q then gone.inc F.COH_EVENTS_LATE_DROPS 1
        else if !g.isAgent q.hdr.src || !cohLength q then gone
        else (f gone).cohDrain

def Gikan.rdSharedArrive (g : Gikan) (x : Nat) (q : Req) : Gikan := g.cohArrive x q tyRDSHARED .rdShared
def Gikan.rdOwnArrive (g : Gikan) (x : Nat) (q : Req) : Gikan := g.cohArrive x q tyRDOWN .rdOwn
def Gikan.upgradeArrive (g : Gikan) (x : Nat) (q : Req) : Gikan := g.cohArrive x q tyUPGRADE .upgrade
def Gikan.wbDirtyArrive (g : Gikan) (x : Nat) (q : Req) : Gikan := g.cohArrive x q tyWBDIRTY .writeBack

def Gikan.completeArrive (g : Gikan) (x : Nat) (q : Req) : Gikan :=
  g.cohClosing x q tyCOMPLETE (fun h => h.cohComplete q.hdr.src q.hdr.tag (h.realAddr q.hdr.addr))

def Gikan.snpRspArrive (g : Gikan) (x : Nat) (q : Req) : Gikan :=
  let fl := bodyField q 45 1
  g.cohClosing x q tySNPRSP (fun h => h.snpRsp q.hdr.src q.hdr.tag (h.realAddr q.hdr.addr) (bit fl 1) (bit fl 2) (fit q.payload 128))

/-! Events at the home -/

/-- The next queued transaction of a line opens; in the Hasp state none does. -/
def Gikan.transactionOpen (g : Gikan) (line : Nat) (dirOk : Bool) : Gikan := if g.hasp then g else (g.openTxn line dirOk).cohDrain

def Gikan.snoopTimer (g : Gikan) (line node : Nat) : Gikan := if g.hasp then g else (g.snoopTimeout line node).cohDrain
def Gikan.completeTimer (g : Gikan) (line : Nat) : Gikan := if g.hasp then g else (g.completeTimeout line).cohDrain
def Gikan.recallEnd (g : Gikan) : Gikan := if g.hasp then g else g.recallDone
def Gikan.deadSweepEnd (g : Gikan) : Gikan := if g.hasp then g else g.sweepEnd
def Gikan.wrDeadGo (g : Gikan) (w : RegW) : Gikan := (g.wrDead w).cohDrain

end Sys2Proof.Machine
end

