-- ==== Sys2Proof/Machine/Security.lean ====
section
/-!
DEFINITION. Compartments and trust (chapter 15): masks, the scrub of a compartment, view records, anti-rollback commits, the checks of signed
images, SPDM and LMS signatures.
-/

namespace Sys2Proof.Machine

/-! Masks and plain registers (R320, R328) -/

/-- SEC_MEMBER_DATA: the mask of the node shown. -/
def Gikan.memberWord (g : Gikan) : Nat := g.sec.masks.getD (g.get F.SEC_MEMBER_INDEX_NODE) 0

def Gikan.wrMemberData (g : Gikan) (w : RegW) : Gikan :=
  let n := g.get F.SEC_MEMBER_INDEX_NODE
  let (v, m) := wrField w F.SEC_MEMBER_DATA_MASK
  let old := g.memberWord
  { g with sec := { g.sec with masks := g.sec.masks.setD n 0 ((v &&& m) ||| (old - (old &&& m))) } }

/-- SEC_VIEW_BASE of the compartment shown. -/
def Gikan.viewBaseWord (g : Gikan) (c : Nat) : Nat := g.sec.viewBase.getD c 0

def Gikan.wrViewBase (g : Gikan) (w : RegW) : Gikan :=
  let c := g.get F.SEC_VIEW_INDEX_CMPT
  let m := halfMask w.half
  let old := g.viewBaseWord c
  let new := (w.data.toNat &&& m) ||| (old - (old &&& m))
  { g with sec := { g.sec with viewBase := g.sec.viewBase.setD c 0 (new / 64 * 64 + new % 2) } }

/-- The word a register holds by its own fields. -/
def Gikan.fieldWord (g : Gikan) (off : Nat) : Nat :=
  match regAt regTable off with
  | some fs => fs.foldl (fun n f => if f.acc == .wo then n else n + g.get f * 2 ^ (f.key % 64)) 0
  | none => 0

/-! The scrub (R325 to R327) -/

/-- Running items of a compartment stop and its queued items go, on every framed unit. -/
def Gikan.stopUnits (g : Gikan) (c : Nat) : Gikan :=
  g.eng.units.foldl (fun h e =>
    let u := unitOfKey e.1
    let x := h.unit u
    let run := x.run.filter (fun r => r.item.cmpt != c)
    let n := x.run.length - run.length
    let h := (x.run.filter (fun r => r.item.cmpt == c)).foldl (fun h r => h.blocksDone r.item.work) h
    let y : UnitSt := { x with queue := x.queue.filter (fun i => i.cmpt != c), run := run }
    let y : UnitSt := if n ≠ 0 ∧ x.carried then { y with hold := if run.isEmpty then none else y.hold, busy := h.cycleNow } else y
    (h.setUnit u y).inc F.SEC_SCRUB_COUNTS_ITEMS_STOPPED n) g

/-- Items of a compartment on pin cores: queued, admitted, running, and outside a full queue. -/
def Gikan.pinItemsOf (g : Gikan) (c : Nat) : List PinItem :=
  let of := fun (i : PinItem) => i.cmpt == c
  (g.pin.cores.flatMap (fun p => (p.2.threads.map (fun t => t.2.item) ++ p.2.ready.flatMap (fun r => r.2.map (fun i => i.1)) ++ p.2.queue).filter of)) ++
    (g.pin.outside.map (fun o => o.2)).filter of

/-- Pin-core items of a compartment stop without waiting for their stores, of which none that waits for a tag leaves; an entry-point TRIGGER is answered REVOKED. -/
def Gikan.stopPins (g : Gikan) (c : Nat) : Gikan :=
  let items := g.pinItemsOf c
  let drop := fun (p : PinCore) => { p with
    queue := p.queue.filter (fun i => i.cmpt != c)
    threads := p.threads.filter (fun t => t.2.item.cmpt != c)
    ready := p.ready.map (fun r => (r.1, r.2.filter (fun i => i.1.cmpt != c))) }
  let stopped := fun (c' : Consumer) => match c' with
    | .pin core t _ => (g.thread core t).any (fun h => h.item.cmpt == c)
    | _ => false
  let g := { g with req := { g.req with waiting := g.req.waiting.filter (fun a => !stopped a.consumer) } }
  let g := { g with pin := { g.pin with
    cores := g.pin.cores.map (fun p => (p.1, drop p.2))
    outside := g.pin.outside.filter (fun o => o.2.cmpt != c) } }
  items.foldl (fun h i => match i.by_ with
    | .trigger _ _ _ _ _ _ => h.pinRoute i false stREVOKED 0 []
    | _ => h) g

/-- Gather, filter and score work of a compartment stops; a request so stopped is answered REVOKED. -/
def Gikan.stopJobs (g : Gikan) (c : Nat) : Gikan :=
  (g.gfs.jobs.filter (fun j => j.cmpt == c)).foldl (fun h j =>
    let h := h.dropJob j.owner
    match j.owner with
    | .request id =>
      (match h.heldById id with
       | some q => let (p, h) := h.engPort; (h.release id).answer p q.x q.q stREVOKED []
       | none => h)
    | .cmd _ _ => h) g

/-- A command that the scrub ended completes: its record is written if its ring takes it at once, and dropped otherwise. -/
def Gikan.scrubRecord (g : Gikan) (kw : Fin 16) (idx : Nat) : Gikan :=
  let g := g.commandComplete ⟨kw, idx⟩
  if (g.cmd? kw.val idx).isNone then g
  else
    let g := { g with sub := { g.sub with waiting := g.sub.waiting.filter (fun w => !(w.2.1 == kw.val && w.2.2 == idx)) } }
    (g.cmdGone kw.val idx).inc F.SEC_SCRUB_COUNTS_RECORDS_DROPPED 1

/-- Whether an own request serves a command of a Keyway. -/
def Consumer.ofKw (c : Consumer) (kw : Nat) : Bool :=
  match c with
  | .mover k _ _ _ _ _ _ => k == kw
  | .command k _ => k == kw
  | .fence k _ _ => k == kw
  | _ => false

/-- Every command of a compartment that has not ended completes with REVOKED; its requests that still wait for a tag never leave. -/
def Gikan.stopCommands (g : Gikan) (kw : Fin 16) : Gikan :=
  let idxs := ((g.kway kw.val).cmds.filter (fun c => c.st != .done)).map (fun c => c.idx)
  let g := { g with req := { g.req with
    fences := g.req.fences.filter (fun f => f.kw != kw.val), waiting := g.req.waiting.filter (fun a => !a.consumer.ofKw kw.val) } }
  idxs.foldl (fun h i => (h.scrubCmd kw.val i).scrubRecord kw i) g

/-- Streams of a compartment are destroyed; those already being destroyed have no item left. -/
def Gikan.stopStreams (g : Gikan) (c : Nat) : Gikan :=
  (g.red.streams.filter (fun s => s.2.cmpt == c)).foldl (fun h s => h.destroyStream s.1 none) g

/-- Kernel images of a compartment are unloaded at once. -/
def Gikan.stopImages (g : Gikan) (c : Nat) : Gikan :=
  (g.pin.images.filter (fun i => i.2.cmpt == c)).foldl (fun h i => (if i.2.unloading then h else h.unloadSlot i.1).dropImage i.1) g

/-- A write of SEC_SCRUB with GO: the compartment is SCRUBBING and its work stops. -/
def Gikan.wrScrub (g : Gikan) (w : RegW) : Gikan :=
  let (v, m) := wrField w F.SEC_SCRUB_CMPT
  let c := v &&& m
  if !wrOne w F.SEC_SCRUB_GO then g
  else if g.on F.SEC_SCRUB_STATUS_BUSY then g.inc F.SEC_SCRUB_COUNTS_REFUSED 1
  else
    let g := (((g.setBitOf F.SEC_CMPT_STATE_SCRUBBING c).set F.SEC_SCRUB_STATUS_BUSY 1).set F.SEC_SCRUB_STATUS_CMPT c)
    let units := (g.eng.units.filter (fun e => e.2.run.any (fun r => r.item.cmpt == c) || e.2.queue.any (fun i => i.cmpt == c))).map (fun e => e.1)
    let g := { g with sec := { g.sec with scrub := some (c, g.now, none), cleared := units } }
    let g := g.stopCommands ⟨c % 16, Nat.mod_lt _ (by decide)⟩
    g.cohSettle (((((g.stopUnits c).stopJobs c).stopPins c).stopStreams c).stopImages c)

/-- The last item of the compartment has stopped. -/
def Gikan.stopPhaseEnd (g : Gikan) : Gikan :=
  match g.sec.scrub with
  | some (c, t, none) =>
    if g.hasp then g else
    { g.set F.SEC_SCRUB_STATUS_STOP_NS (min 65535 (g.now - t)) with sec := { g.sec with scrub := some (c, t, some g.now) } }
  | _ => g

/-- What the clear phase clears (R326). -/
def Gikan.scrubClear (g : Gikan) (c : Nat) : Gikan :=
  let core := fun (p : PinCore) => if p.cmpt = some c then PinCore.idle else p
  let load := match g.cmp.load with | some l => if l.cmpt = c then none else some l | none => none
  let asid := fun (n : Nat) => bits (g.asidWord n) 1 4 == c
  let ofC := fun (a : Nat) => match g.map.cur.extentAt a with | some (_, e) => e.cmpt == c | none => false
  let g := if g.cmp.load.isSome && load.isNone then (g.set F.CMP_TABLE_STATUS_BUSY 0).set F.CMP_TABLE_STATUS_PENDING 0 else g
  let pinLoad := match g.pin.load with | some l => if l.cmpt = c then none else some l | none => none
  let g := if g.pin.load.isSome && pinLoad.isNone then g.set F.PIN_IMAGE_STATUS_BUSY 0 else g
  let empty := fun (r : DupRec) => if r.cmpt = c then { r with done := r.done.map (fun d => ({ d.1 with payload := [] }, d.2)) } else r
  { g with
    pin := { g.pin with cores := g.pin.cores.map (fun p => (p.1, core p.2)), load := pinLoad }
    cmp := { g.cmp with slots := g.cmp.slots.filter (fun s => s.2.cmpt != c), load := load }
    sub := { g.sub with walks := g.sub.walks.filter (fun w => !asid w.1) }
    req := { g.req with dups := g.req.dups.map empty }
    coh := { g.coh with cache := g.coh.cache.map (fun s => (s.1, s.2.filter (fun a => !ofC a))) } }

/-- The clear phase has ended: DONE, the times, LATE beyond 60 µs; loads that waited go on. -/
def Gikan.scrubDone (g : Gikan) : Gikan :=
  match g.sec.scrub with
  | some (c, t, some _) =>
    if g.hasp then g else
    let total := g.now - t
    let h := g.scrubClear c
    let h := ((h.putBitOf F.SEC_CMPT_STATE_SCRUBBING c false).set F.SEC_SCRUB_STATUS_BUSY 0).set F.SEC_SCRUB_STATUS_DONE 1
    let h := { h.set F.SEC_SCRUB_STATUS_TOTAL_NS (min (2 ^ 32 - 1) total) with sec := { h.sec with scrub := none, cleared := [] } }
    let h := if 60000 < total then (h.set F.SEC_SCRUB_STATUS_LATE 1).contained 59 c (offOf F.SEC_SCRUB_STATUS_LATE) else h
    g.cohSettle (h.tableWaited.imageWaited)
  | _ => g

/-! View records (R328, R329) -/

/-- The record of a compartment at the boundary just passed; the package power is measured, not modelled. -/
def Gikan.viewBytes (g : Gikan) (c watts : Nat) : List Byte :=
  let v := g.sec.view.getD c View.zero
  let n := fun (k : Nat) => leBytes 4 (k / 4096 % 2 ^ 32)
  leBytes 8 g.tickNo ++ n v.commands ++ n v.items ++ n v.requests ++ n v.wards ++ n v.stalls ++ n v.overruns ++
    leBytes 2 (watts / 5 * 5) ++ zeros 30

/-- A compartment's record is written once per tick, or its miss is counted. -/
def Gikan.viewRecord (g : Gikan) (c : Nat) : Gikan :=
  let b := g.viewBaseWord c
  if !g.on F.SEC_CTRL_VIEW_EN || b % 2 == 0 || !g.running || g.hasp || g.sec.viewed.contains c then g else
  let (d, h) := g.next
  let g1 := { h with sec := { h.sec with viewed := h.sec.viewed ++ [c] } }
  let a := b / 64 * 64
  match g1.siteAt a with
  | some s =>
    if s.e.cmpt = c && s.e.comp == 0 && s.e.covers (g1.realAddr a) 64 then g.cohSettle (g1.engWrite s (g1.realAddr a) (g1.viewBytes c (Config.openValue d % 65536)))
    else g1.inc F.SEC_CTRL_VIEW_MISSES 1
  | none => g1.inc F.SEC_CTRL_VIEW_MISSES 1

/-! Signed images (R330, R331) -/

/-- Whether a key slot is revoked: ECDSA 0, LMS 1. -/
def Gikan.keyRevoked (g : Gikan) (kind slot : Nat) : Bool := (g.get (if kind = 0 then F.SEC_KEYS_ECDSA_REVOKED else F.SEC_KEYS_LMS_REVOKED)).testBit slot

/-- The types that an LMS public key and signature name: LMS_SHA256_M32_H20 and LMOTS_SHA256_N32_W8, with their numbers in RFC 8554. -/
def lmsTypes (pub sig : List Byte) : Bool :=
  slice pub 0 8 == [0, 0, 0, 8, 0, 0, 0, 4] && slice sig 4 4 == [0, 0, 0, 4] && slice sig 1128 4 == [0, 0, 0, 8]

/-- The cause for which an image is refused, 0 when it is accepted: the first that fails, for an area of `space` bytes. `kinds` are the kinds
that the area takes. -/
def Gikan.imageCause (g : Gikan) (im : Image) (kinds : List Nat) (space : Nat) : Nat :=
  if im.magic != 0x4B4C5347 || im.format != 1 || !kinds.contains im.kind || im.reservedNonzero ||
      (im.kind == 2 && (im.revokeEcdsa != 0 || im.revokeLms != 0)) then 1
  else if im.contentBytes = 0 || decide (67104768 < im.contentBytes) || decide (space < 4096 + im.contentBytes) ||
      decide (im.content.length < im.contentBytes) then 2
  else if g.keyRevoked 0 im.ecdsaKey || g.keyRevoked 1 im.lmsKey then 3
  else if Config.sha384 im.ecdsaPub != Config.fusedKeyHash 0 im.ecdsaKey || Config.sha384 im.lmsPub != Config.fusedKeyHash 1 im.lmsKey then 4
  else if decide (64 < im.svn) || decide (im.svn < g.get F.SEC_SVN_FUSED) then 5
  else if im.digest != Config.sha384 (im.content.take im.contentBytes) then 6
  else if !Config.ecdsaVerify im.ecdsaPub (Config.sha384 im.signed) im.ecdsaSig then 7
  else if !lmsTypes im.lmsPub im.lmsSig || !Config.lmsVerify im.lmsPub im.signed im.lmsSig then 8
  else 0

/-- A refusal is recorded (R331). -/
def Gikan.imageRefusal (g : Gikan) (im : Image) (cause : Nat) : Gikan := (g.set F.SEC_STATUS_LAST_REFUSAL cause).set F.SEC_STATUS_LAST_KIND im.kind

/-- The running firmware's image. -/
def Gikan.firmware (g : Gikan) : Option Image := if !g.on F.SEC_STATUS_BOOTED then none else if g.on F.MGT_STATUS_SLOT then g.mgt.slot1 else g.mgt.slot0

/-! Anti-rollback commits (R333) -/

/-- Slots that the running firmware's REVOKE fields name: ECDSA, LMS. -/
def Gikan.revokes (g : Gikan) : Nat × Nat := match g.firmware with | some im => (im.revokeEcdsa, im.revokeLms) | none => (0, 0)

/-- Steps to which a commit raises FUSED. -/
def Gikan.svnTarget (g : Gikan) : Nat := max (g.get F.SEC_SVN_FUSED) (min (g.get F.SEC_STATUS_FW_SVN) (g.get F.SEC_STATUS_CFG_SVN))

def Gikan.svnRefused (g : Gikan) (cause : Nat) : Gikan := (g.set F.SEC_SVN_REFUSED 1).set F.SEC_SVN_CAUSE cause

/-- A write of SEC_SVN.COMMIT. -/
def Gikan.wrSvn (g : Gikan) (w : RegW) : Gikan :=
  let g := g.putFields w (offOf F.SEC_SVN_FUSED) [F.SEC_SVN_DONE, F.SEC_SVN_REFUSED]
  let (re, rl) := g.revokes
  if !wrOne w F.SEC_SVN_COMMIT then g
  else if g.on F.SEC_SVN_BUSY then g.svnRefused 4
  else if g.on F.PWR_SAG_WARN then g.svnRefused 1
  else if g.on F.SEC_STATUS_FACTORY_TEST then g.svnRefused 2
  else if re.testBit (g.get F.SEC_STATUS_ECDSA_KEY) || rl.testBit (g.get F.SEC_STATUS_LMS_KEY) then g.svnRefused 3
  else if g.svnTarget = g.get F.SEC_SVN_FUSED ∧ (re ||| g.get F.SEC_KEYS_ECDSA_REVOKED) = g.get F.SEC_KEYS_ECDSA_REVOKED ∧
      (rl ||| g.get F.SEC_KEYS_LMS_REVOKED) = g.get F.SEC_KEYS_LMS_REVOKED then g.set F.SEC_SVN_DONE 1
  else g.set F.SEC_SVN_BUSY 1

/-- Fuses blown when a commit stops early: how many steps, and which revocation bits, is open. -/
def Gikan.svnPart (g : Gikan) : Gikan :=
  let (re, rl) := g.revokes
  let (d, h) := g.next
  let v := Config.openValue d
  let old := g.get F.SEC_SVN_FUSED
  let h := h.set F.SEC_SVN_FUSED (old + v % (g.svnTarget - old + 1))
  (h.set F.SEC_KEYS_ECDSA_REVOKED (g.get F.SEC_KEYS_ECDSA_REVOKED ||| (re &&& v / 128))).set F.SEC_KEYS_LMS_REVOKED
    (g.get F.SEC_KEYS_LMS_REVOKED ||| (rl &&& v / 2048))

/-- The fuse writes of a commit have ended, or a fuse failed to program. -/
def Gikan.svnCommitEnd (g : Gikan) (fuseOk : Bool) : Gikan :=
  let (re, rl) := g.revokes
  if !g.on F.SEC_SVN_BUSY || g.hasp then g
  else if fuseOk then
    let g := (g.set F.SEC_SVN_BUSY 0).set F.SEC_SVN_FUSED g.svnTarget
    let g := g.set F.SEC_KEYS_ECDSA_REVOKED (g.get F.SEC_KEYS_ECDSA_REVOKED ||| re)
    (g.set F.SEC_KEYS_LMS_REVOKED (g.get F.SEC_KEYS_LMS_REVOKED ||| rl)).set F.SEC_SVN_DONE 1
  else ((g.svnPart.set F.SEC_SVN_BUSY 0).svnRefused 5).contained 59 0 (offOf F.SEC_SVN_FUSED)

/-- SAG warning stops a commit under way with cause 1 (R370). -/
def Gikan.svnSag (g : Gikan) : Gikan := if g.on F.SEC_SVN_BUSY then (g.svnPart.set F.SEC_SVN_BUSY 0).svnRefused 1 else g

/-! SPDM (R335 to R337) -/

def Gikan.spdm (g : Gikan) : Side → SpdmSt
  | .a => g.sec.spdmA
  | .b => g.sec.spdmB

def Gikan.setSpdm (g : Gikan) (s : Side) (x : SpdmSt) : Gikan :=
  match s with
  | .a => { g with sec := { g.sec with spdmA := x } }
  | .b => { g with sec := { g.sec with spdmB := x } }

def sideNo : Side → Nat
  | .a => 0
  | .b => 1

/-- An SPDM request on a port: counted, and the signed response before it is no longer the last. A mailbox needs its link. -/
def Gikan.spdmReq (g : Gikan) (s : Side) (f : Gikan → SpdmSt → Gikan) : Gikan :=
  if !(g.port s).up then g else
  let x := g.spdm s
  f ((g.inc (F.SEC_SPDM_REQUESTS (sideNo s)) 1).setSpdm s { x with signed := none }) x

/-- An SPDM response whose bytes the standard gives: they are open here. -/
def Gikan.spdmSend (g : Gikan) (s : Side) (code : Nat) (tail : List Byte) : Gikan :=
  let (d, g) := g.next
  g.emit (.spdm s (Config.spdmBytes code d ++ tail))

/-- An ERROR response. -/
def Gikan.spdmError (g : Gikan) (s : Side) : Gikan := (g.inc (F.SEC_SPDM_ERRORS (sideNo s)) 1).spdmSend s 0x7F []

/-- A signed response: the hash it signs is over the standard's transcript, and open here. -/
def Gikan.spdmSigned (g : Gikan) (s : Side) (code : Nat) (body : List Byte) : Gikan :=
  let (d, g) := g.next
  let h := Config.openValue d % 2 ^ 384
  (g.spdmSend s code (body ++ fit (Config.aliasSign d h) 96)).setSpdm s { g.spdm s with signed := some h }

def Gikan.getVersion (g : Gikan) (s : Side) : Gikan :=
  g.spdmReq s (fun g _ =>
    let (d, g) := g.next
    let v := 2 + Config.openValue d % 2
    (((g.setSpdm s ⟨v, false, false, none⟩).set (F.SEC_SPDM_VERSION (sideNo s)) v)).spdmSend s 0x04 [])

/-- Versions 1.2 and 1.3, as 0x12 and 0x13. -/
def Gikan.getCapabilities (g : Gikan) (s : Side) (version : Nat) : Gikan :=
  g.spdmReq s (fun g x =>
    if x.version = 0 ∨ !(version = 0x12 ∨ version = 0x13) then g.spdmError s
    else ((g.setSpdm s ⟨version % 16, true, false, none⟩).set (F.SEC_SPDM_VERSION (sideNo s)) (version % 16)).spdmSend s 0x61 [])

def Gikan.negotiateAlgorithms (g : Gikan) (s : Side) : Gikan :=
  g.spdmReq s (fun g x => if !x.caps then g.spdmError s else (g.setSpdm s { x with algs := true, signed := none }).spdmSend s 0x63 [])

def Gikan.getDigests (g : Gikan) (s : Side) : Gikan := g.spdmReq s (fun g x => if !x.algs then g.spdmError s else g.spdmSend s 0x01 [])

def Gikan.getCertificate (g : Gikan) (s : Side) (slot _offset _length : Nat) : Gikan :=
  g.spdmReq s (fun g x => if !x.algs ∨ slot ≠ 0 then g.spdmError s else g.spdmSend s 0x02 [])

def Gikan.challenge (g : Gikan) (s : Side) (slot : Nat) (_nonce : List Byte) : Gikan :=
  g.spdmReq s (fun g x => if !x.algs ∨ slot ≠ 0 then g.spdmError s else g.spdmSigned s 0x03 [])

/-- A measurement block in DMTF form (R336): index, specification 1, size, value type (open but for the raw bit), value. -/
def Gikan.measurement (g : Gikan) (i : Nat) : List Byte :=
  let dig := fun (o : Option Image) => match o with | some im => leBytes 48 im.digest | none => zeros 48
  let value := match i with
    | 1 => dig g.firmware
    | 2 => leBytes 48 (g.mgt.applied.getD 0)
    | 3 => leBytes 8 (g.fieldWord (offOf F.SEC_STATUS_BOOTED)) ++ leBytes 8 (g.fieldWord (offOf F.SEC_KEYS_ECDSA_REVOKED))
    | _ => leBytes 48 g.cfgDigest
  leBytes 1 i ++ leBytes 1 1 ++ leBytes 2 (3 + value.length) ++
    leBytes 1 (Config.openValue (g.draw + i) % 128 + (if i = 3 then 128 else 0)) ++ leBytes 2 value.length ++ value

/-- GET_MEASUREMENTS: index 0 asks how many there are, 0xFF for all. -/
def Gikan.getMeasurements (g : Gikan) (s : Side) (index : Nat) (_nonce : List Byte) : Gikan :=
  g.spdmReq s (fun g x =>
    let is := if index = 0xFF then [1, 2, 3, 4] else if 1 ≤ index ∧ index ≤ 4 then [index] else []
    if !x.algs ∨ (is = [] ∧ index ≠ 0) then g.spdmError s else g.spdmSigned s 0x60 (is.flatMap g.measurement))

/-- Any other request. -/
def Gikan.spdmUnsupported (g : Gikan) (s : Side) : Gikan := g.spdmReq s (fun g _ => g.spdmError s)

/-! LMS signatures (R337, R338) -/

abbrev lmsIndices : Nat := 1048576

/-- SEC_LMS: the first unreserved index and those reserved and not used. -/
def Gikan.lmsLeft (g : Gikan) : Nat := g.sec.lmsNext - g.sec.lmsUse

/-- A block of indices is written to the other copy and verified. -/
def Gikan.lmsReserve (g : Gikan) : Gikan :=
  { g.inc F.SEC_LMS_COUNT_RESERVATIONS 1 with
    sec := { g.sec with lmsSeq := g.sec.lmsSeq + 1, lmsUse := g.sec.lmsNext, lmsNext := min lmsIndices (g.sec.lmsNext + 4096) } }

/-- The answer of R337. INDEX and HASH of an answer without a signature are open but for a hash that there is. -/
def Gikan.lmsAnswer (g : Gikan) (s : Side) (status : Nat) (hash : Option Nat) : Gikan :=
  let (d, g) := g.next
  let v := Config.openValue d
  g.emit (.spdm s (leBytes 2 1 ++ leBytes 2 status ++ leBytes 4 v ++ leBytes 48 (hash.getD (v / 2 ^ 32))))

def Gikan.lmsExhausted (g : Gikan) : Gikan :=
  if g.on F.SEC_LMS_EXHAUSTED then g else (g.set F.SEC_LMS_EXHAUSTED 1).contained 59 0 (offOf F.SEC_LMS_NEXT)

/-- VENDOR_DEFINED_REQUEST: any but Omurn's request 0x0001 is not supported. -/
def Gikan.vendorRequest (g : Gikan) (s : Side) (vendor code : Nat) : Gikan :=
  g.spdmReq s (fun g x =>
    if vendor ≠ g.get F.GLB_ID_PCI_VENDOR ∨ code ≠ 1 then g.spdmError s else
    match x.signed with
    | none => g.lmsAnswer s 1 none
    | some h =>
      if g.lmsLeft = 0 ∧ lmsIndices ≤ g.sec.lmsNext then (g.lmsExhausted).lmsAnswer s 2 (some h)
      else if g.lmsLeft = 0 ∧ (g.on F.PWR_SAG_WARN ∨ g.hasp) then (g.inc F.SEC_LMS_COUNT_BUSY_ANSWERS 1).lmsAnswer s 3 (some h)
      else
        let g := if g.lmsLeft = 0 then g.lmsReserve else g
        let i := g.sec.lmsUse
        let g := { g.inc F.SEC_LMS_COUNT_SIGNATURES 1 with sec := { g.sec with lmsUse := i + 1 } }
        (g.emit (.signed i)).emit (.spdm s (leBytes 2 1 ++ leBytes 2 0 ++ leBytes 4 i ++ leBytes 48 h ++ fit (Config.lmsSign i h) 1772)))

/-! Counters -/

def secCounters : List Fld :=
  [F.SEC_CTRL_VIEW_MISSES, F.SEC_WARD_COUNT, F.SEC_WARD_ALARMS, F.SEC_SCRUB_COUNTS_COMMANDS_ENDED, F.SEC_SCRUB_COUNTS_ITEMS_STOPPED,
   F.SEC_SCRUB_COUNTS_RECORDS_DROPPED, F.SEC_SCRUB_COUNTS_WRITES_DROPPED, F.SEC_SCRUB_COUNTS_REFUSED, F.SEC_LMS_COUNT_SIGNATURES,
   F.SEC_LMS_COUNT_RESERVATIONS, F.SEC_LMS_COUNT_BUSY_ANSWERS, F.SEC_SPDM_REQUESTS 0, F.SEC_SPDM_REQUESTS 1, F.SEC_SPDM_ERRORS 0,
   F.SEC_SPDM_ERRORS 1]

/-- A write of SEC_CTRL. -/
def Gikan.wrSecCtrl (g : Gikan) (w : RegW) : Gikan :=
  let g := g.putField w F.SEC_CTRL_VIEW_EN
  if wrOne w F.SEC_CTRL_CLR_CNT then g.clear secCounters else g

end Sys2Proof.Machine
end

