-- ==== Sys2Proof/Machine/Faults.lean ====
section
/-!
DEFINITION. Faults and health (chapter 16): what an error line brings, fencing, checked lanes, factory test mode and injection.
-/

namespace Sys2Proof.Machine

/-! Fencing (R346) -/

/-- The fence bit of a unit; none where KIND or UNIT lies outside the table. -/
def fenceBit (kind unit : Nat) : Option (Fld × Nat) :=
  match kind with
  | 1 => if unit < 2048 then some (F.PIN_FENCED_FENCED (unit / 64), unit % 64) else none
  | 2 => if unit < 32 then some (F.FLT_FENCED_ENG_MATRIX_or_FILTER 0, unit) else none
  | 3 => if unit < 128 then some (F.FLT_FENCED_RED_LANES (unit / 64), unit % 64) else none
  | 4 => if unit < 32 then some (F.FLT_FENCED_ENG_GATHER_or_MOVER 0, unit) else none
  | 5 => if unit < 32 then some (F.FLT_FENCED_ENG_MATRIX_or_FILTER 1, unit) else none
  | 6 => if unit < 32 then some (F.FLT_FENCED_ENG_GATHER_or_MOVER 1, unit) else none
  | _ => none

/-- Whether what a fence leaves in service is enough. -/
def Gikan.fenceLeaves (g : Gikan) (kind unit : Nat) : Bool :=
  let some_ := fun (c : UClass) => (List.range 32).any (fun n => !g.fenced ⟨c, n⟩)
  let pair := (List.range 32).any (fun n => !g.fenced ⟨.mtx, n⟩ && !g.fenced ⟨.flt, n⟩)
  match kind with
  | 2 => some_ .mtx && pair
  | 3 => (List.range 64).any (fun k => !g.fenced ⟨.red, unit / 64 * 64 + k⟩)
  | 4 => some_ .gth
  | 5 => some_ .flt && pair
  | 6 => some_ .mov
  | _ => true

/-- Take a unit's queued items, to be dealt elsewhere. -/
def Gikan.takeQueue (g : Gikan) (u : UnitId) : List Item × Gikan := ((g.unit u).queue, g.setUnit u { g.unit u with queue := [] })

/-- Deal items over units in order. -/
def Gikan.dealOver (g : Gikan) (cls : UClass) (es : List Nat) (is : List Item) : Gikan :=
  is.zipIdx.foldl (fun h i => h.queueItem ⟨cls, es.getD (i.2 % es.length) 0⟩ i.1) g

/-- Whether an item of a filter engine is a merge of a score (R191). -/
def isMerge (w : Work) : Bool :=
  match w with
  | .job _ _ i => decide (mergeItem ≤ i)
  | .request _ i => decide (mergeItem ≤ i)
  | _ => false

/-- A filter item that moves takes its selection entries with it. -/
def Gikan.moveSelect (g : Gikan) (w : Work) (e : Nat) : Gikan :=
  let o := match w with
    | .job kw idx _ => some (Owner.cmd kw idx)
    | .request id _ => some (Owner.request id)
    | _ => none
  match o with
  | none => g
  | some o => match g.jobOf o with
    | some j => if j.engine.isSome then g.putJob { j with engine := some e } else g
    | none => g

/-- A queued scan item goes with its job to the engine that would start it earliest; the job's further items follow it (R177, R198). -/
def Gikan.moveScan (g : Gikan) (i : Item) (unit : Nat) : Gikan :=
  let o := match i.work with
    | .job kw idx _ => g.jobOf (.cmd kw idx)
    | .request id _ => g.jobOf (.request id)
    | _ => none
  let e := match o with
    | some j => if j.engine.isSome && j.engine != some unit then j.engine.getD unit else g.pickFilter i.cost
    | none => g.pickFilter i.cost
  (g.queueItem ⟨.flt, e⟩ i).moveSelect i.work e

/-- The queued items of a unit just fenced move (R198, R229, R346). -/
def Gikan.moveQueued (g : Gikan) (kind unit : Nat) : Gikan :=
  match kind with
  | 1 => g.coreFenceMove unit
  | 2 => let (is, g) := g.takeQueue ⟨.mtx, unit⟩; g.dealOver .mtx g.scoreEngines is
  | 3 =>
    let (is, g) := g.takeQueue ⟨.red, unit⟩
    let die := unit / 64
    let to_ := (((List.range 64).map (fun i => (unit % 64 + i) % 64)).find? (fun k => !g.fenced ⟨.red, 64 * die + k⟩)).getD (unit % 64)
    is.foldl (fun h i => h.queueItem ⟨.red, 64 * die + to_⟩ i) g
  | 4 => let (is, g) := g.takeQueue ⟨.gth, unit⟩; g.dealOver .gth (g.engines .gth) is
  | 5 =>
    let (is, g) := g.takeQueue ⟨.flt, unit⟩
    let (ts, g) := g.takeQueue ⟨.mtx, unit⟩
    let g := (is.filter (fun i => isMerge i.work)).foldl (fun h i => h.queueItem ⟨.flt, h.mergeEngine unit⟩ i) g
    let g := (is.filter (fun i => !isMerge i.work)).foldl (fun h i => h.moveScan i unit) g
    g.dealOver .mtx g.scoreEngines ts
  | 6 => let (is, g) := g.takeQueue ⟨.mov, unit⟩; g.dealOver .mov (g.engines .mov) is
  | _ => g

/-- Fence a unit; none when the fence is refused. -/
def Gikan.fence (g : Gikan) (kind unit : Nat) : Option Gikan :=
  match fenceBit kind unit with
  | none => none
  | some (f, b) =>
    let h := g.setBitOf f b
    if !h.fenceLeaves kind unit then none else some (h.moveQueued kind unit)

/-- The key of a unit's mismatch count. -/
def mismatchKey (kind unit : Nat) : Nat := kind * 4096 + unit

/-- Return a unit to service. -/
def Gikan.unfence (g : Gikan) (kind unit : Nat) : Gikan :=
  match fenceBit kind unit with
  | none => g
  | some (f, b) =>
    let h := g.putBitOf f b false
    { h with flt := { h.flt with mismatch := h.flt.mismatch.del (mismatchKey kind unit) } }

/-- A write of FLT_FENCE. -/
def Gikan.wrFence (g : Gikan) (w : RegW) : Gikan :=
  let v := fun (f : Fld) => let (x, m) := wrField w f; x &&& m
  let g := g.putFields w (offOf F.FLT_FENCE_REFUSED) [F.FLT_FENCE_REFUSED]
  let kind := v F.FLT_FENCE_KIND
  let unit := v F.FLT_FENCE_UNIT
  if !wrOne w F.FLT_FENCE_GO then g
  else if wrOne w F.FLT_FENCE_UNFENCE then g.unfence kind unit
  else g.cohSettle ((g.fence kind unit).getD (g.set F.FLT_FENCE_REFUSED 1))

/-! Checked lanes (R347 to R350) -/

/-- Group of a unit's kind in the Fault Word. -/
def kindGroup (kind : Nat) : Nat := if kind = 1 then 52 else if kind = 2 then 50 else 48

/-- A unit is outvoted, or a pin core raises an ECC exception: its mismatch count grows, and at THRESH it is fenced (R350). -/
def Gikan.outvoted (g : Gikan) (kind unit : Nat) : Gikan :=
  let k := mismatchKey kind unit
  let n := g.flt.mismatch.getD k 0 + 1
  let g := { g with flt := { g.flt with mismatch := g.flt.mismatch.put k n } }
  let already := match fenceBit kind unit with | some (f, b) => g.bitOf f b | none => true
  if decide (n < max 1 (g.get F.FLT_CHECK_THRESH)) || !g.on F.FLT_CHECK_AUTO_FENCE || already then g
  else match g.fence kind unit with
    | none => g.set F.FLT_FENCE_REFUSED 1
    | some h => (h.inc F.FLT_CHECK_STATS_AUTO_FENCES 1).contained (kindGroup kind) unit (offOf F.FLT_CHECK_STATS_CHECKED)

/-- KIND of a checked unit. -/
def kindOf (u : UnitId) : Nat := if u.cls = .mtx then 2 else 3

/-- The next unit of the same kind above unit `n`, on the same die for reduce lanes, that is neither fenced nor one of `but`. -/
def Gikan.nextUnit (g : Gikan) (u : UnitId) (n : Nat) (but : List Nat) : Option Nat :=
  let c := if u.cls = .mtx then (List.range 32).map (fun i => (n + i) % 32) else (List.range 64).map (fun i => n / 64 * 64 + (n + i) % 64)
  c.find? (fun k => !g.fenced ⟨u.cls, k⟩ && !but.contains k)

/-- Frames that a check may wait. -/
def Gikan.waitFrames (g : Gikan) : Nat := max 1 (g.get F.FLT_CHECK_WAIT_FRAMES)

/-- The oldest unchecked sample of a unit. -/
def Gikan.sampleOf (g : Gikan) (u : UnitId) : Option Sample := g.flt.samples.find? (fun s => s.unit == u)

/-- A unit's oldest sample leaves the check buffer. -/
def Gikan.dropSample (g : Gikan) (u : UnitId) : Gikan :=
  match findIdx (fun s : Sample => s.unit == u) g.flt.samples with
  | some (i, _) => { g with flt := { g.flt with samples := g.flt.samples.eraseIdx i } }
  | none => g

/-- The hottest sensor of a C-die. -/
def Gikan.hottestOf (g : Gikan) (die : Nat) : Nat := (List.range 8).foldl (fun m i => max m (g.tempQ (8 * die + i))) 0

/-- Post an entry to FLT_CHECK_LOG (R349); the voltage is measured, not modelled. -/
def Gikan.postCheck (g : Gikan) (s : Sample) (checker third verdict : Nat) : Gikan :=
  if 64 ≤ g.flt.checkLog.length then g.inc F.FLT_CHECK_STATS_LOG_DROPS 1 else
  let (d, g) := g.next
  let w0 := kindOf s.unit + s.unit.n * 2 ^ 3 + checker * 2 ^ 10 + third * 2 ^ 17 + verdict * 2 ^ 24 + g.hottestOf (unitDie s.unit) % 2 ^ 16 * 2 ^ 26 +
    Config.openValue d % 2 ^ 16 * 2 ^ 42 + 2 ^ 63
  let w1 := s.tick % 2 ^ 40 + g.get F.PWR_STATE_ACLK_MHZ % 2 ^ 10 * 2 ^ 40 + s.activity * 2 ^ 50
  { g with flt := { g.flt with checkLog := g.flt.checkLog ++ [(⟨w0, w1, s.work⟩ : CheckLog)] } }

/-- A mismatch, voted on by a third unit: each unit that is outvoted counts. Where the checker is outvoted, VERDICT is open. -/
def Gikan.checkVote (g : Gikan) (s : Sample) (checker third : Nat) (withUnit withChecker : Bool) : Gikan :=
  let u := s.unit
  let kind := kindOf u
  let (d, g) := g.next
  let (verdict, out) :=
    if withChecker then (0, [u.n]) else if withUnit then (Config.openValue d % 2, [checker]) else (1, [u.n, checker, third])
  let g := (g.inc F.FLT_CHECK_STATS_MISMATCHES 1).contained (kindGroup kind) u.n (offOf F.FLT_CHECK_STATS_CHECKED)
  out.foldl (fun h n => h.outvoted kind n) (g.postCheck s checker third verdict)

/-- CHECK_RUN. A sample armed by FLT_INJECT compares as a mismatch with its unit outvoted (R354). -/
def Gikan.checkRun (g0 : Gikan) (u : UnitId) (agrees withUnit withChecker : Bool) : Gikan :=
  let g := g0
  match g.sampleOf u with
  | none => g
  | some s =>
    if g.hasp || decide (s.boundary + g.waitFrames < g.req.boundaries) then g else
    match g.nextUnit u u.n [u.n] with
    | none => g
    | some c =>
      let key := kindGroup (kindOf u) * 65536 + u.n
      let armed := g.flt.miscompare.contains key
      let g := (g.dropSample u).inc F.FLT_CHECK_STATS_CHECKED 1
      let g := { g with flt := { g.flt with miscompare := g.flt.miscompare.filter (fun k => k != key) } }
      if agrees && !armed then g
      else match g.nextUnit u c [u.n, c] with
        | none => g.inc F.FLT_CHECK_STATS_SKIPPED 1
        | some t => g0.cohSettle (g.checkVote s c t (withUnit && !armed) (withChecker || armed))

/-- CHECK_DROP: a check that has not started within WAIT_FRAMES frames. -/
def Gikan.checkDrop (g : Gikan) (u : UnitId) : Gikan :=
  match g.sampleOf u with
  | some s => if g.hasp || decide (g.req.boundaries ≤ s.boundary + g.waitFrames) then g else (g.dropSample u).inc F.FLT_CHECK_STATS_SKIPPED 1
  | none => g

/-! Events on the error lines (R339, R340) -/

/-- A packet queued in a crossbar input buffer is lost; cells of it that have crossed to a fabric output make that output retrain (R312). -/
def Gikan.queuedLoss (g : Gikan) (x k i : Nat) (v : VPkt) : Gikan :=
  let q := (g.xbar.voq.getD k []).eraseIdx i
  let g := { g with xbar := { g.xbar with voq := if q = [] then g.xbar.voq.del k else g.xbar.voq.put k q } }
  let g := (g.freeInput x v.pkt).inc F.XBAR_EVENTS_CT_ENDED 1
  let o := k / 8 % 48
  if decide (0 < v.sent) && decide (o < 32) then g.retrain o 6 else g

/-- A packet that waits in a fabric input's buffer for its command is lost. -/
def Gikan.waitingLoss (g : Gikan) (x i : Nat) : Gikan :=
  match (g.link x).buf[i]? with
  | some pk => ((g.setLink x { g.link x with buf := (g.link x).buf.eraseIdx i }).freeInput x pk).inc F.XBAR_EVENTS_CT_ENDED 1
  | none => g

/-- A packet in a crossbar input buffer is lost (R312, R340): which one is open. -/
def Gikan.bufferLoss (g : Gikan) (x : Nat) : Gikan :=
  let all := g.xbar.voq.flatMap (fun e => if e.1 / 8 / 48 = x then e.2.zipIdx.map (fun v => (e.1, v.2, v.1)) else [])
  let n := if x < 32 then (g.link x).buf.length else 0
  if all.length + n = 0 then g else
  let (d, g) := g.next
  let k := Config.openValue d % (all.length + n)
  match all[k]? with
  | some (key, i, v) => g.queuedLoss x key i v
  | none => g.waitingLoss x (k - all.length)

/-- A duplicate-suppression record is lost: which one is open. -/
def Gikan.recordLoss (g : Gikan) : Gikan :=
  if g.req.dups.isEmpty then g else
  let (d, g) := g.next
  { g with req := { g.req with dups := g.req.dups.eraseIdx (Config.openValue d % g.req.dups.length) } }

/-- An uncorrectable error in a pin core raises the ECC exception in the thread that read it (R225, R236): which one is open. -/
def Gikan.coreEcc (g : Gikan) (core : Nat) : Gikan :=
  let ts := (g.pinCore core).threads.filter (fun t => match t.2.wait with | .ending _ _ _ _ => false | _ => true)
  if ts.isEmpty then g else
  let (d, g) := g.next
  match ts[Config.openValue d % ts.length]? with
  | none => g
  | some (t, _) => (g.pinExc core t 10 stPOISONED).outvoted 1 core

/-- What the block that presents a corrected or contained event does, told by the register that holds the detail. On a port's line, whose other
contained events arise in the model, the event is an uncorrectable error in the replay buffer (R303). -/
def Gikan.blockEffect (g : Gikan) (group : Nat) (c : FClass) (unit reg n : Nat) : Gikan :=
  let check := reg == offOf F.FLT_CHECK_STATS_CHECKED
  match c with
  | .corrected =>
    if group = 48 ∧ reg = offOf F.RED_STORE_ECC_CORRECTED then g.inc F.RED_STORE_ECC_CORRECTED n
    else if group = 52 then g.inc F.PIN_SCRATCH_ECC_CORRECTED n
    else g
  | .contained =>
    if (group = 48 ∨ group = 50) ∧ check then
      let u : UnitId := if group = 48 then ⟨.red, unit⟩ else ⟨.mtx, unit⟩
      if (g.sampleOf u).isSome then (g.dropSample u).inc F.FLT_CHECK_STATS_SKIPPED 1 else g
    else if group = 48 then (g.inc F.RED_STORE_ECC_UNCORRECTED n).redPoison unit
    else if group = 49 then g.engineEcc ⟨if reg % 2 = 1 then .gth else .flt, unit⟩
    else if group = 50 then g.engineEcc ⟨.mtx, unit⟩
    else if group = 52 then (g.inc F.PIN_SCRATCH_ECC_UNCORRECTED n).coreEcc unit
    else if group = 53 then (if reg = offOf F.MAP_DUP_CACHE_FULL then g.recordLoss else g.bufferLoss unit)
    else if group < 32 then g.retrain group 6
    else g
  | .fatal => g

/-- FAULT_EVENT. -/
def Gikan.faultEvent (g : Gikan) (group : Nat) (c : FClass) (unit reg others : Nat) : Gikan :=
  let g1 := if g.hasp then g else g.blockEffect group c unit reg (1 + others)
  g.cohSettle (g1.fault c group unit reg others)

/-- COLLECTOR_FAULT: the Hasp state at once, with no syndrome; after entry only FLT_WORD is set (R343). -/
def Gikan.collectorFault (g : Gikan) : Gikan := if g.hasp then g.setBitOf (F.FLT_WORDS_GROUPS 0) 63 else g.enterHasp 2 63

/-! Factory test mode (R353, R354) -/

/-- Bytes of the test token as written. -/
def Gikan.token4k (g : Gikan) : List Byte := (List.range 512).flatMap (fun i => leBytes 8 (g.flt.token.getD i 0))

/-- The first cause that refuses entry; 0 when none does. -/
def Gikan.testCause (g : Gikan) : Nat :=
  let b := g.token4k
  let ek := field b 8 1
  let lk := field b 9 1
  let zero := fun (o n : Nat) => (slice b o n).all (fun x => x == 0)
  let device := (List.range 6).foldl (fun n i => n + g.get (F.SEC_DEVICE_ID_WORD i) * 2 ^ (64 * i)) 0
  let ePub := slice b 112 96
  let lPub := slice b 208 56
  if !g.on F.FLT_TEST_STRAP then 1
  else if g.sealed then 2
  else if field b 0 4 != 0x54534654 || field b 4 2 != 1 || !zero 6 2 || decide (3 < ek) || decide (3 < lk) || !zero 10 6 || !zero 64 48 ||
      !zero 2132 1964 then 3
  else if field b 16 48 != device then 4
  else if g.keyRevoked 0 ek || g.keyRevoked 1 lk || Config.sha384 ePub != Config.fusedKeyHash 0 ek || Config.sha384 lPub != Config.fusedKeyHash 1 lk then 5
  else if !Config.ecdsaVerify ePub (Config.sha384 (b.take 264)) (slice b 264 96) then 6
  else if !lmsTypes lPub (slice b 360 1772) || !Config.lmsVerify lPub (b.take 264) (slice b 360 1772) then 7
  else 0

/-- A write of FLT_TEST. -/
def Gikan.wrFltTest (g : Gikan) (w : RegW) : Gikan :=
  let g := g.putFields w (offOf F.FLT_TEST_REFUSED) [F.FLT_TEST_REFUSED]
  if !wrOne w F.FLT_TEST_ENTER then g else
  let c := g.testCause
  if c = 0 then (g.set F.FLT_TEST_ACTIVE 1).set F.SEC_STATUS_FACTORY_TEST 1
  else (g.set F.FLT_TEST_REFUSED 1).set F.FLT_TEST_CAUSE c

/-- A write of FLT_TOKEN. -/
def Gikan.wrToken (g : Gikan) (w : RegW) (i : Nat) : Gikan :=
  let m := halfMask w.half
  let old := g.flt.token.getD i 0
  { g with flt := { g.flt with token := g.flt.token.setD i 0 ((w.data.toNat &&& m) ||| (old - (old &&& m))) } }

/-- A write of FLT_INJECT: nothing outside factory test mode. The register of an injected event is open. -/
def Gikan.wrInject (g : Gikan) (w : RegW) : Gikan :=
  let v := fun (f : Fld) => let (x, m) := wrField w f; x &&& m
  if !g.on F.FLT_TEST_ACTIVE then g else
  let group := v F.FLT_INJECT_GROUP
  let unit := v F.FLT_INJECT_UNIT
  let g := if wrOne w F.FLT_INJECT_MISCOMPARE && (group == 48 || group == 50) then
      { g with flt := { g.flt with miscompare := insNat g.flt.miscompare (group * 65536 + unit) } }
    else g
  if !wrOne w F.FLT_INJECT_GO then g else
  let (d, h) := g.next
  let reg := Config.openValue d % 2 ^ 26
  match v F.FLT_INJECT_CLASS with
  | 1 => h.fault .corrected group unit reg 0
  | 2 => h.fault .contained group unit reg 0
  | 3 => h.fault .fatal group unit reg 0
  | _ => g

/-! Registers -/

/-- A write of FLT_CTRL. -/
def Gikan.wrFltCtrl (g : Gikan) (w : RegW) : Gikan :=
  if !wrOne w F.FLT_CTRL_CLR_CNT then g else
  { g.clear [F.FLT_CHECK_STATS_CHECKED, F.FLT_CHECK_STATS_MISMATCHES, F.FLT_CHECK_STATS_SKIPPED, F.FLT_CHECK_STATS_AUTO_FENCES,
      F.FLT_CHECK_STATS_LOG_DROPS] with
    flt := { g.flt with corrected := [], contained := [], fatal := [] } }

/-- A write of FLT_SYN_DATA0: clearing VALID frees the syndrome of the group shown. -/
def Gikan.wrSyn (g : Gikan) (w : RegW) : Gikan :=
  let n := g.get F.FLT_SYN_INDEX_GROUP
  let s := g.syn n
  let s := if wrOne w F.FLT_SYN_DATA0_OVERFLOW then { s with overflow := false } else s
  let s := if wrOne w F.FLT_SYN_DATA0_VALID then { s with valid := false } else s
  { g with flt := { g.flt with syn := g.flt.syn.setD n Syn.none s } }

/-- Words of the registers of the group shown. -/
def Gikan.synTime (g : Gikan) : Nat := (g.syn (g.get F.FLT_SYN_INDEX_GROUP)).time
def Gikan.countWord (g : Gikan) : Nat :=
  let n := g.get F.FLT_SYN_INDEX_GROUP
  g.flt.corrected.getD n 0 + g.flt.contained.getD n 0 * 2 ^ 32 + g.flt.fatal.getD n 0 * 2 ^ 48

end Sys2Proof.Machine
end

