-- ==== Sys2Proof/Machine/Drains.lean ====
section
/-!
DEFINITION. The drains of chapter 4: what is in progress on an extent or on the seated extents of masked compartments (R78, R79, R196), when
a drain is done, and what its timeout aborts (R80).
-/

namespace Sys2Proof.Machine

/-! What is in progress -/

/-- The extent entry of a held request, from whichever live map it came under. -/
def Gikan.heldEntry (g : Gikan) (h : Held) : ExtW :=
  match g.liveMap h.q.hdr.epoch with
  | some m => m.entry h.entry
  | none => g.map.cur.entry h.entry

/-- A held request that was admitted on its extent: one that waits for a token has not been, and a FENCE names none. -/
def Held.admittedOn (h : Held) : Bool :=
  match h.why with
  | .token _ => false
  | .fenceCmds _ => false
  | _ => true

/-- Requests admitted and still in progress on an extent (R78, R79). -/
def Gikan.pendingOn (g : Gikan) (entry : Nat) : List Held := g.req.held.filter (fun h => h.entry == entry && h.admittedOn)

/-- A transaction that serves a request of an agent. -/
def CohKind.ofAgent (k : CohKind) : Bool := k == .rdShared || k == .rdOwn || k == .upgrade || k == .writeBack

/-- Agents' transactions on an extent (R145). -/
def Gikan.pendingTxns (g : Gikan) (entry : Nat) : List Txn := g.coh.txns.filter (fun t => t.entry == entry && t.kind.ofAgent)

/-- Whether a job names an extent with an address of its descriptor (R196). -/
def Gikan.jobNames (g : Gikan) (c : Cmd) (entry : Nat) : Bool :=
  (c.jobSpans 1).any (fun s => (g.cutPieces c s.1 (max 1 s.2.1)).any (fun p => match g.cmdSite c p.1 with
    | some t => t.entry == entry
    | none => false))

/-- GATHER, FILTER and SCORE commands that run and name an extent: their accesses were admitted when they started (R196). -/
def Gikan.pendingJobs (g : Gikan) (entry : Nat) : List (Nat × Nat) :=
  g.gfs.jobs.filterMap (fun j => match j.owner with
    | .cmd kw idx => match g.cmd? kw idx with
      | some c => if g.jobNames c entry then some (kw, idx) else none
      | none => none
    | .request _ => none)

/-- How much is pending on an extent (MAP_REVOKE_STATUS.PENDING). -/
def Gikan.pendingCount (g : Gikan) (entry : Nat) : Nat :=
  (g.pendingOn entry).length + (g.pendingTxns entry).length + (g.pendingJobs entry).length

/-! Quiesce (R78) -/

/-- Whether a request on a seated extent of a masked compartment remains. -/
def Gikan.quiesceBusy (g : Gikan) : Bool :=
  let masked := fun (e : ExtW) => e.valid && e.seated && (g.get F.MAP_QUIESCE_CMPT_MASK).testBit e.cmpt
  g.req.held.any (fun h => h.admittedOn && masked (g.heldEntry h)) ||
  g.coh.txns.any (fun t => t.kind.ofAgent && masked (g.map.cur.entry t.entry)) ||
  g.map.cur.ext.any (fun x => masked x.2 && !(g.pendingJobs x.1).isEmpty)

/-- DONE once nothing remains. -/
def Gikan.quiesceDone (g : Gikan) : Gikan :=
  if g.get F.MAP_QUIESCE_CMPT_MASK ≠ 0 ∧ !g.quiesceBusy then g.set F.MAP_QUIESCE_DONE 1 else g

/-! Revoke (R79, R80) -/

/-- The end of a drain. -/
def Gikan.revokeEnd (g : Gikan) (i : Nat) : Gikan :=
  { (g.set F.MAP_REVOKE_STATUS_DRAINING 0).set F.MAP_REVOKE_STATUS_DONE 1 with
    map := { g.map with revoked := g.map.revoked.put i true, revokeAt := none } }

/-- PENDING reaches zero (R80). -/
def Gikan.revokeDone (g : Gikan) : Gikan :=
  match g.map.revokeAt with
  | some (i, _) => if g.pendingCount i = 0 then g.revokeEnd i else g
  | none => g

/-- The work that a held request has queued: its engine items, its kernel's queued item, its contribution not yet in an add item. -/
def Gikan.dropWorkOf (g : Gikan) (id : Nat) : Gikan :=
  let mine := fun (i : PinItem) => match i.by_ with | .trigger held _ _ _ _ _ => held == id | _ => false
  let g := (g.dropJob (.request id)).mapQueued (fun i => match i.work with | .request k _ => if k = id then none else some i | _ => some i)
  let cores : Tbl PinCore := g.pin.cores.map (fun (c : Nat × PinCore) => (c.1, { c.2 with queue := c.2.queue.filter (fun i => !mine i) }))
  let g := { g with pin := { g.pin with cores := cores } }
  g.red.streams.foldl (fun h s => s.2.rounds.foldl (fun h r => r.chunks.foldl (fun h c =>
    match c.2.queued.find? (fun k => k.held == id) with
    | none => h
    | some k => (h.updChunk s.1 r.num c.1 (fun y => { y with queued := y.queued.erase k, bits := delNat y.bits k.contributor })).syncAdd s.1 r.num c.1) h) h) g

/-- A kernel that runs for a held request: its core and thread. -/
def Gikan.threadOf (g : Gikan) (id : Nat) : Option (Nat × Nat) :=
  g.pin.cores.findSome? (fun c => (c.2.threads.find? (fun t => match t.2.item.by_ with | .trigger held _ _ _ _ _ => held == id | _ => false)).map
    (fun t => (c.1, t.1)))

/-- Abort a pending request: it is answered REVOKED, its record completes, and its work stops. -/
def Gikan.abortHeld (g : Gikan) (h : Held) : Gikan :=
  match g.threadOf h.id with
  | some (core, t) => g.pinFinish core t stREVOKED 0 []
  | none =>
    let ts := g.coh.txns.filter (fun t => t.held == h.id && (t.kind == .homeRead || t.kind == .homeWrite))
    let g := ts.foldl (fun h t => if t.opened then h.closeTxn { t with final := h.dir t.line } else h) g
    let g := g.setTxns (g.coh.txns.filter (fun t => !(t.held == h.id && (t.kind == .homeRead || t.kind == .homeWrite))))
    ((g.dropWorkOf h.id).release h.id).answer 47 h.x h.q stREVOKED []

/-- Abort an agent's transaction: the agent is answered REVOKED, and the entry stays as it was. -/
def Gikan.abortTxn (g : Gikan) (t : Txn) : Gikan :=
  let g := if t.kind = .writeBack then g.wbAck t stREVOKED else g.grant t 0 stREVOKED []
  if t.opened then g.closeTxn { t with final := g.dir t.line } else g.setTxns (g.coh.txns.filter (fun x => x != t))

/-- End a job with REVOKED: what it has written stays as written (R196). -/
def Gikan.abortJob (g : Gikan) (j : Nat × Nat) : Gikan :=
  let g := (g.dropJob (.cmd j.1 j.2)).mapQueued (fun i => match i.work with | .job k x _ => if k = j.1 ∧ x = j.2 then none else some i | _ => some i)
  g.cmdDone j.1 j.2 stREVOKED

/-- DRAIN_US passes: what is still pending is aborted and answered REVOKED (R80); with nothing pending the drain ends as PENDING at zero ends it. -/
def Gikan.revokeTimeout (g : Gikan) : Gikan :=
  match g.map.revokeAt with
  | none => g
  | some (i, t) =>
    if g.time < t + 1000 * max 10 (g.get F.MAP_REVOKE_DRAIN_DRAIN_US) then g
    else if g.pendingCount i = 0 then g.revokeEnd i
    else
      let n := g.pendingCount i
      let g := (g.pendingOn i).foldl (fun h r => h.abortHeld r) g
      let g := (g.pendingTxns i).foldl (fun h t => h.abortTxn t) g
      let g := (g.pendingJobs i).foldl (fun h j => h.abortJob j) g
      let g := (g.inc F.MAP_EVENTS2_REVOKE_ABORTS n).set F.MAP_REVOKE_STATUS_ABORTED 1
      (g.contained 62 0 (offOf F.MAP_EVENTS2_REVOKE_ABORTS)).revokeEnd i

end Sys2Proof.Machine
end

