-- ==== Sys2Proof/Machine/Power.lean ====
section
/-!
DEFINITION. Power states and supply (chapter 17): states and exits, the throttle factor, the voltage loop, temperature, and sag.
-/

namespace Sys2Proof.Machine

/-! The throttle factor (R364, R365, R368, R370) -/

/-- TMIN and CAP_W as they act. -/
def Gikan.tMin (g : Gikan) : Nat := let t := g.get F.PWR_LIMIT_TMIN; if 8 ≤ t ∧ t ≤ 64 then t else 16
def Gikan.capW (g : Gikan) : Nat := max 300 (min 1200 (g.get F.PWR_LIMIT_CAP_W))

/-- T in force: the lower of the two factors; TMIN while a margin is lost (R366). -/
def Gikan.tInForce (g : Gikan) : Nat := if g.pwr.margin = [] then min g.pwr.tPower g.pwr.tTherm else g.tMin

/-- T follows its parts. The time since which it has stood at TMIN goes with it. -/
def Gikan.setT (g : Gikan) : Gikan :=
  let old := g.get F.PWR_STATE_THROTTLE
  let t := g.tInForce
  let since := if t ≠ g.tMin then none else if old = t then g.pwr.minSince else some g.now
  let g := { g.set F.PWR_STATE_THROTTLE t with pwr := { g.pwr with minSince := since } }
  (g.setB F.PWR_STATE_POWER_THROTTLE (decide (g.pwr.tPower < 64))).setB F.PWR_STATE_THERM_THROTTLE (decide (g.pwr.tTherm < 64))

/-- THROTTLE_LOWER. -/
def Gikan.throttleLower (g : Gikan) (avgW : Nat) : Gikan :=
  if g.hasp || decide (g.now < g.pwr.lowerAt + 100000) then g else
  let down := fun (t : Nat) => if g.tMin < t then t - 1 else t
  let p := g.pwr
  let p := { p with lowerAt := g.now, tPower := if g.capW < avgW then down p.tPower else p.tPower,
                    tTherm := if p.hot = [] then p.tTherm else down p.tTherm }
  ({ g with pwr := p }).setT

/-- THROTTLE_RAISE: not while a warning of R370 sheds load. -/
def Gikan.throttleRaise (g : Gikan) (avgW : Nat) : Gikan :=
  if g.hasp || decide (g.now < g.pwr.raiseAt + 1000000) then g else
  let shed := g.on F.PWR_SAG_WARN && g.on F.PWR_LIMIT_SHED_ON_SAG
  let p := g.pwr
  let p := { p with raiseAt := g.now,
                    tPower := if avgW + g.get F.PWR_LIMIT_HYST_W < g.capW ∧ !shed then min 64 (p.tPower + 1) else p.tPower,
                    tTherm := if p.hot = [] then min 64 (p.tTherm + 1) else p.tTherm }
  ({ g with pwr := p }).setT

/-- THROTTLE_FAULT: once in a stay at TMIN. The rail of the fault is open. -/
def Gikan.throttleFault (g : Gikan) (avgW : Nat) : Gikan :=
  match g.pwr.minSince with
  | none => g
  | some t =>
    if g.hasp || decide (g.now < t + 100000000) || decide (avgW ≤ g.capW) then g
    else ({ g with pwr := { g.pwr with minSince := none } }).faultOpen .contained 60 10 (offOf F.PWR_STATE_THROTTLE)

/-- FAST_TRIP: T falls to TMIN from the next boundary. -/
def Gikan.fastTrip (g : Gikan) (avgW : Nat) : Gikan :=
  if g.hasp || decide (avgW * 100 ≤ g.capW * 105) then g
  else ({ g with pwr := { g.pwr with shed := true } }).inc F.PWR_EVENTS_FAST_TRIPS 1

/-- What was shed takes effect at a boundary, before its frame takes its budgets. -/
def Gikan.shedBoundary (g : Gikan) : Gikan :=
  if !g.pwr.shed then g
  else ({ g with pwr := { g.pwr with shed := false, tPower := min g.pwr.tPower g.tMin } }).setT

/-! Power states (R356 to R362) -/

/-- Exit latency of a state, in ns. -/
def latencyNs (n : Nat) : Nat :=
  match n with
  | 0 => 0
  | 1 => 2000
  | 2 => 60000
  | _ => 3000000

/-- ACLK of a state, in MHz. -/
def aclkOf (n : Nat) : Nat := if n = 0 then 850 else if n = 1 then 425 else 0

/-- The budget of a wake domain. -/
def Gikan.wakeBudget (g : Gikan) (d : Nat) : Nat :=
  g.get (if d = 0 then F.PWR_BUDGET0_ENGINE_NS else if d = 1 then F.PWR_BUDGET0_MEMORY_NS else F.PWR_BUDGET1_FORWARD_NS)

/-- Whether the latency of a state is within the budget of every domain that it delays (R358). -/
def Gikan.stateFits (g : Gikan) (n : Nat) : Bool := (List.range n).all (fun d => decide (latencyNs n ≤ g.wakeBudget d))

/-- Whether a pin core holds anything. -/
def coreBusy (c : PinCore) : Bool := !c.queue.isEmpty || c.ready.any (fun r => !r.2.isEmpty) || !c.threads.isEmpty

/-- Whether the Placer has staging, a fetch, a demotion, a lent copy or a home copy due or running. -/
def Gikan.placerBusy (g : Gikan) : Bool :=
  !g.tier.want.isEmpty || g.tier.pages.any (fun r => r.2.moving != .none) || g.tier.copyA.any (fun c => c.2.posted.isNone) ||
  g.tier.copyB.any (fun c => !c.2.done) ||
  g.tier.sched.any (fun s => s.2.tiles.any (fun t => !t.skipped && !t.done && decide (t.start ≤ g.tickNo)))

/-- The condition of R359 on the engines, the Keyways, the Placer and the loads. -/
def Gikan.idleNow (g : Gikan) : Bool :=
  g.eng.units.all (fun u => u.2.queue.isEmpty && u.2.isIdle) && g.pin.cores.all (fun c => !coreBusy c.2) && g.pin.outside.isEmpty &&
  g.sub.kws.all (fun k => k.2.cmds.isEmpty) && g.red.streams.all (fun s => s.2.rounds.all (fun r => r.st != .open)) &&
  !g.placerBusy && g.cmp.load.isNone && g.cmp.wait.isNone && g.pin.load.isNone && g.pin.wait.isNone

/-- Whether a port has carried more payload than Q3_PORT_GBPS in this tick. -/
def Gikan.portsBusy (g : Gikan) : Bool :=
  let r := g.get F.PWR_IDLE_Q3_PORT_GBPS
  let most := (if 1 ≤ r ∧ r ≤ 120 then r else 20) * g.periodNs
  g.lnk.any (fun l => decide (most < l.2.rxBytes) || decide (most < l.2.txBytes))

/-- The counts of R359 at a boundary, over the tick that ends; in Q3 a tick above the port rate starts an exit (R362). -/
def Gikan.powerBoundary (g : Gikan) : Gikan :=
  let i := g.idleNow
  let c1 := i && g.pwr.wasIdle && !g.pwr.work.contains 0
  let c2 := c1 && !g.pwr.work.contains 1
  let c3 := c2 && !g.portsBusy
  let n := fun (k : Nat) (c : Bool) => if c then g.pwr.idle.getD k 0 + 1 else 0
  let h := if g.get F.PWR_STATE_STATE == 3 && g.portsBusy && !g.hasp then g.beginExit 0 else g
  { h with
    pwr := { h.pwr with idle := [n 0 c1, n 1 c2, n 2 c3], wasIdle := i, work := [] }
    lnk := h.lnk.mapV (fun _ (l : PortLnk) => { l with rxBytes := 0, txBytes := 0 }) }

/-- Whether the conditions of a state have held long enough, and hold. -/
def Gikan.idleFor (g : Gikan) (n : Nat) : Bool :=
  decide (max 1 (g.get F.PWR_IDLE_IDLE_TICKS) ≤ g.pwr.idle.getD (n - 1) 0) && g.idleNow && !g.pwr.work.contains 0 &&
  (n == 1 || !g.pwr.work.contains 1)

/-- The deepest state that fits the budgets and meets a further condition. -/
def Gikan.deepest (g : Gikan) (p : Nat → Bool) : Nat := ([3, 2, 1].find? (fun n => g.stateFits n && p n)).getD 0

/-- Enter a state. -/
def Gikan.enterState (g : Gikan) (n : Nat) : Gikan :=
  let g := (g.set F.PWR_STATE_STATE n).set F.PWR_STATE_ACLK_MHZ (aclkOf n)
  match n with
  | 1 => g.inc F.PWR_EVENTS_Q1_ENTRIES 1
  | 2 => g.inc F.PWR_EVENTS_Q2_ENTRIES 1
  | 3 =>
    let g := g.inc F.PWR_EVENTS_Q3_ENTRIES 1
    if !g.on F.PWR_IDLE_NARROW then g else
    (List.range 32).foldl (fun h p =>
      if h.get (F.LNK_STATUS_STATE p) == 5 && decide (h.get (F.LNK_STATUS_WIDTH p) ≤ 1) && h.get (F.LNK_STATUS_PARTNER_ROLE p) == 0 &&
          !(h.link p).txNarrow then h.narrowTx p false else h) g
  | _ => g

/-- POWER_STATE_MOVE. -/
def Gikan.powerStateMove (g : Gikan) : Gikan :=
  if !g.running || g.hasp || g.on F.PWR_STATE_EXITING then g else
  let s := g.get F.PWR_STATE_STATE
  let t := g.deepest g.idleFor
  if s < t then g.enterState t else if t < s then g.beginExit t else g

/-- POWER_EXIT_END. -/
def Gikan.powerExitEnd (g : Gikan) : Gikan :=
  if g.hasp || !g.on F.PWR_STATE_EXITING || (g.get F.PWR_STATE_STATE == 3 && !g.narrowed.isEmpty) then g else
  let n := g.pwr.exitTo
  (((g.set F.PWR_STATE_EXITING 0).set F.PWR_STATE_STATE n).set F.PWR_STATE_ACLK_MHZ (aclkOf n))

/-- A budget has changed: a state that no longer fits is left at once (R362). -/
def Gikan.budgetChanged (g : Gikan) : Gikan :=
  let s := g.get F.PWR_STATE_STATE
  if g.stateFits s then g else g.beginExit (g.deepest (fun n => decide (n < s)))

/-- A write of PWR_BUDGET0 or PWR_BUDGET1. -/
def Gikan.wrBudget (g : Gikan) (w : RegW) (n : Nat) : Gikan :=
  (if n = 0 then g.putFields w (offOf F.PWR_BUDGET0_ENGINE_NS) [F.PWR_BUDGET0_ENGINE_NS, F.PWR_BUDGET0_MEMORY_NS]
   else g.putFields w (offOf F.PWR_BUDGET1_FORWARD_NS) [F.PWR_BUDGET1_FORWARD_NS]).budgetChanged

/-! The voltage loop (R366, R401) -/

/-- Voltage in force of VDD_C0 or VDD_C1, in 0.1 mV: 750 mV until the boot ROM's write. -/
def Gikan.avsOf (g : Gikan) (rail : Nat) : Nat := g.pwr.avs.getD rail 7500

/-- PWR_AVS.SET of a rail. -/
def setMv (rail : Nat) : Fld := if rail = 0 then F.PWR_AVS_SET_C0_MV else F.PWR_AVS_SET_C1_MV

/-- A write of a rail's voltage that its regulator acknowledges. -/
def Gikan.avsWrite (g : Gikan) (rail v : Nat) : Gikan :=
  let g := (g.emit (.avs rail v)).set (setMv rail) (v / 10)
  { g with pwr := { g.pwr with avs := g.pwr.avs.put rail v, avsAt := g.pwr.avsAt.put rail g.now } }

/-- Whether a rail holds: PWR_AVS.FREEZE, bit 0 of FLT_FREEZE, or an unanswered write. -/
def Gikan.avsFrozen (g : Gikan) (rail : Nat) : Bool :=
  g.on F.PWR_AVS_FREEZE || g.bitOf F.FLT_FREEZE_LOOPS 0 || g.pwr.avsHeld.contains rail

/-- The margin rule: lost at 0.850 V with the margin below its floor, until the margin returns. -/
def Gikan.avsMargin (g : Gikan) (rail : Nat) (low : Bool) : Gikan :=
  if !low then ({ g with pwr := { g.pwr with margin := delNat g.pwr.margin rail } }).setT
  else if g.avsOf rail < 8500 || g.pwr.margin.contains rail then g
  else
    let g := ({ g with pwr := { g.pwr with margin := insNat g.pwr.margin rail } }).setT
    (g.inc F.PWR_AVS_MARGIN_FAULTS 1).contained 60 rail (offOf F.PWR_AVS_MARGIN_FAULTS)

/-- AVS_STEP: the margin of the rail's die, its target and its floor, as the timing monitors and the loop give them. -/
def Gikan.avsStep (g : Gikan) (rail : Nat) (margin target floorM : Int) : Gikan :=
  if g.hasp || g.phase == 0 || decide (g.now < g.pwr.avsAt.getD rail 0 + 10000) then g else
  let v := g.avsOf rail
  let to_ := if margin < target then min 8500 (v + 25) else if target < margin then max 6500 (v - 25) else v
  let g := if to_ = v || g.avsFrozen rail then { g with pwr := { g.pwr with avsAt := g.pwr.avsAt.put rail g.now } }
    else (g.avsWrite rail to_).inc F.PWR_AVS_STEPS 1
  g.avsMargin rail (decide (margin < floorM))

/-- AVS_NO_ANSWER. -/
def Gikan.avsNoAnswer (g : Gikan) (rail : Nat) : Gikan :=
  if g.pwr.avsHeld.contains rail then g else
  ({ g with pwr := { g.pwr with avsHeld := insNat g.pwr.avsHeld rail } }).contained 60 rail (offOf F.PWR_AVS_MARGIN_FAULTS)

/-! Temperature (R367, R368) -/

/-- Throttle point and trip point of a sensor, in 0.25 °C. -/
def Gikan.throttleQ (g : Gikan) (s : Nat) : Nat :=
  let d := g.get F.PWR_THERM_DIE_THROTTLE_C
  let k := g.get F.PWR_THERM_STACK_THROTTLE_C
  4 * (if s < 30 then (if 85 ≤ d ∧ d ≤ 105 then d else 102) else (if 80 ≤ k ∧ k ≤ 95 then k else 92))
def tripQ (s : Nat) : Nat := if s < 30 then 460 else 420

/-- A reading is kept: the sensor's last and greatest, and the hottest sensor. -/
def Gikan.keepTemp (g : Gikan) (s q : Nat) : Gikan :=
  let q := min q 65535
  let ts := g.pwr.temps.put s (q, max q (g.pwr.temps.getD s (0, 0)).2)
  let hot := ts.foldl (fun (b : Nat × Nat) e => if b.2 < e.2.1 then (e.1, e.2.1) else b) (0, 0)
  ({ g with pwr := { g.pwr with temps := ts } }.set F.PWR_THERM_HOTTEST hot.1).set F.PWR_THERM_HOTTEST_Q hot.2

/-- THERMAL_READING. -/
def Gikan.thermalReading (g : Gikan) (s q : Nat) : Gikan :=
  let was := g.tempQ s
  let g := g.keepTemp s q
  let reg := offOf F.PWR_THERM_HOTTEST
  let g :=
    if g.throttleQ s ≤ q then
      if g.pwr.hot.contains s then g
      else ({ g with pwr := { g.pwr with hot := insNat g.pwr.hot s } }).corrected 61 s reg
    else if q + 12 ≤ g.throttleQ s then { g with pwr := { g.pwr with hot := delNat g.pwr.hot s } }
    else g
  if tripQ s ≤ q then
    let g := { g with pins := { g.pins with thermtrip := true } }
    if was < tripQ s || !g.hasp then g.fatal 61 s reg else g
  else g

/-! Sag (R369 to R371) -/

/-- An update under way stops: the page program under way finishes and nothing more is written (R382 cause 4). -/
def Gikan.updSag (g : Gikan) : Gikan :=
  match g.mgt.upd with
  | none => g
  | some u =>
    let m := { g.mgt with upd := none }
    let m := match u.target with
      | 0 => { m with slot0 := none }
      | 1 => { m with slot1 := none }
      | _ => { m with cfg := none }
    (((({ g with mgt := m }).set F.MGT_UPD_BUSY 0).set F.MGT_UPD_REFUSED 1).set F.MGT_UPD_CAUSE 4)

/-- Flash writes are held (R137); demotions to flash under way pause. -/
def Gikan.holdFlash (g : Gikan) : Gikan :=
  let n := (g.tier.pages.filter (fun r => match r.2.moving with | .demote _ => (match r.2.lowerAt with | .flash _ => true | _ => false) | _ => false)).length
  (g.set F.TIER_STATUS_SAG_HOLD 1).inc F.TIER_SAG_DEMOTIONS_PAUSED n

/-- SAG_WARNING: the rail, or 15 for SAG_N. -/
def Gikan.sagWarning (g : Gikan) (rail : Nat) : Gikan :=
  if g.on F.PWR_SAG_WARN then (if rail = 15 then g.set F.PWR_SAG_SAG_N 1 else g) else
  let g := (((g.set F.PWR_SAG_WARN 1).set F.PWR_SAG_SEEN 1).set F.PWR_SAG_LAST_RAIL rail).inc F.PWR_SAG_WARNINGS 1
  let g := if rail = 15 then g.set F.PWR_SAG_SAG_N 1 else g
  let g := if g.on F.PWR_LIMIT_SHED_ON_SAG then { g with pwr := { g.pwr with shed := true } } else g
  ((g.svnSag).updSag).holdFlash.corrected 60 rail (offOf F.PWR_SAG_WARN)

/-- SAG_WARNING_CLEAR. -/
def Gikan.sagWarningClear (g : Gikan) : Gikan := ((g.set F.PWR_SAG_WARN 0).set F.PWR_SAG_SAG_N 0).set F.TIER_STATUS_SAG_HOLD 0

/-- SAG_CRITICAL: the Hasp state with CAUSE 3; in the Hasp state the event is only counted (R343, R371). -/
def Gikan.sagCritical (g : Gikan) (rail : Nat) : Gikan :=
  if g.hasp then g.fatal 60 rail (offOf F.PWR_SAG_WARN) else
  let g := ((g.setBitOf (F.FLT_WORDS_GROUPS 0) 60).setBitOf (F.FLT_WORDS_GROUPS 1) 60).setBitOf F.FLT_FATAL_GROUPS 60
  ((g.countFault .fatal 60 1).recordSyn 60 3 (offOf F.PWR_SAG_WARN) rail).enterHasp 3 60

/-! Registers -/

/-- A write of PWR_CTRL. -/
def Gikan.wrPwrCtrl (g : Gikan) (w : RegW) : Gikan :=
  if !wrOne w F.PWR_CTRL_CLR_CNT then g else
  let g := g.clear [F.PWR_EVENTS_Q1_ENTRIES, F.PWR_EVENTS_Q2_ENTRIES, F.PWR_EVENTS_Q3_ENTRIES, F.PWR_EVENTS_FAST_TRIPS, F.PWR_AVS_STEPS,
    F.PWR_AVS_MARGIN_FAULTS, F.PWR_SAG_WARNINGS]
  { g with pwr := { g.pwr with throttleNs := 0, temps := g.pwr.temps.mapV (fun _ t => (t.1, 0)) } }

/-- Nominal voltage of a rail, in mV (R363). -/
def Gikan.nominalMv (g : Gikan) (rail : Nat) : Nat :=
  match rail with
  | 0 => g.get F.PWR_AVS_SET_C0_MV
  | 1 => g.get F.PWR_AVS_SET_C1_MV
  | 2 => 750
  | 3 => 750
  | 4 => 900
  | 5 => 700
  | 6 => 1050
  | 7 => 1800
  | 8 => 1200
  | 9 => 1800
  | _ => 0

/-- PWR_RAIL_DATA of the rail shown; the measurements are open. -/
def Gikan.railWord (g : Gikan) : Nat × Gikan :=
  let r := g.get F.PWR_RAIL_INDEX_RAIL
  if 9 < r then (0, g) else
  let (d, g) := g.next
  let m := Config.openValue d
  (m % 2 ^ 16 + g.nominalMv r * 2 ^ 16 + m / 2 ^ 16 % 2 ^ 16 * 2 ^ 32 + m / 2 ^ 32 % 2 ^ 16 * 2 ^ 48, g)

/-- PWR_POWER: the averages are measurements, and open. -/
def Gikan.powerWord (g : Gikan) : Nat × Gikan :=
  let (d, g) := g.next
  (Config.openValue d % 2 ^ 32 + min (g.pwr.throttleNs / 1000000) (2 ^ 32 - 1) * 2 ^ 32, g)

/-- PWR_SENSOR_DATA of the sensor shown. -/
def Gikan.sensorWord (g : Gikan) : Nat :=
  match g.pwr.temps.get? (g.get F.PWR_SENSOR_INDEX_SENSOR) with
  | some (t, m) => t + m * 2 ^ 16 + 2 ^ 32
  | none => 0

/-- PWR_STATE with NARROWED. -/
def Gikan.narrowedWord (g : Gikan) : Nat := (List.range 32).foldl (fun n p => if (g.link p).txNarrow then n + 2 ^ p else n) 0

end Sys2Proof.Machine
end

