-- ==== Sys2Proof/Machine/Management.lean ====
section
/-!
DEFINITION. Start and management (R372 to R375, R381 to R390): resets, the boot ROM's end, the seal, updates of the boot flash, the boot record,
ownership, the BAR4 windows, the PCIe ports, the node number, and I3C.
-/

namespace Sys2Proof.Machine

/-! Resets (R372) -/

/-- Fields that hold fuses, the boot record and a pin: no reset changes them. -/
def fixedFlds : List Fld :=
  [F.GLB_ID_PCI_VENDOR, F.SEC_STATUS_ENGINEERING, F.SEC_SVN_FUSED, F.SEC_KEYS_ECDSA_REVOKED, F.SEC_KEYS_LMS_REVOKED, F.MGT_BOOT_ACTIVE,
   F.MGT_BOOT_TRIAL_VALID, F.MGT_BOOT_TRIAL_SLOT, F.MGT_BOOT_ATTEMPTS, F.MGT_BOOT_SEQ, F.MGT_I3C_SEQ_IN] ++
  (List.range 32).flatMap (fun p => [F.LNK_TS_CAL_TX_PS p, F.LNK_TS_CAL_RX_PS p])

/-- The straps, and the voltages in force, which only a power-on reset takes anew. -/
def warmFlds : List Fld := [F.GLB_STRAPS_TRAY_ID, F.GLB_STRAPS_FACTORY_TEST, F.FLT_TEST_STRAP, F.PWR_AVS_SET_C0_MV, F.PWR_AVS_SET_C1_MV]

/-- The Hasp record (R345). -/
def haspFlds : List Fld :=
  [F.FLT_HASP0_VALID, F.FLT_HASP0_CAUSE, F.FLT_HASP0_GROUP, F.FLT_HASP0_TRANSIT_DROPS, F.FLT_HASPN_WORD 0, F.FLT_HASPN_WORD 1, F.FLT_HASPN_WORD 2]

/-- Carry fields over from the state before a reset. -/
def Gikan.carry (new old : Gikan) (fs : List Fld) : Gikan := fs.foldl (fun h f => h.set f (old.get f)) new

/-- The area that an update was writing is left incomplete. -/
def cutUpdate (m : MgtSt) : MgtSt :=
  match m.upd with
  | none => m
  | some u => match u.target with
    | 0 => { m with slot0 := none, upd := none }
    | 1 => { m with slot1 := none, upd := none }
    | _ => { m with cfg := none, upd := none }

/-- A reset of the whole part: everything at its reset value but for fuses, boot flash, the flash layer's own records and, unless it is the
power-on reset, the straps and the voltages; the Hasp record where it is kept. -/
def Gikan.restart (g : Gikan) (cause : Nat) (keep : Bool) : Gikan :=
  let m := cutUpdate g.mgt
  let warm := cause != 1
  let r := Gikan.reset
  let h : Gikan := { r with
    now := if warm then g.now else 0
    draw := g.draw
    out := g.out
    pins := ⟨false, warm && g.pins.thermtrip⟩
    mgt := { r.mgt with slot0 := m.slot0, slot1 := m.slot1, cfg := m.cfg }
    tier := { r.tier with badBlocks := g.tier.badBlocks, erases := g.tier.erases, reads := g.tier.reads, openBlocks := g.tier.openBlocks }
    sec := { r.sec with lmsSeq := g.sec.lmsSeq, lmsNext := g.sec.lmsNext, lmsUse := g.sec.lmsNext }
    pwr := { r.pwr with avs := if warm then g.pwr.avs else [] } }
  let h := h.carry g fixedFlds
  let h := (List.range 32).foldl (fun h p =>
    (h.set (F.LNK_TS_DELAY_TX_PS p) (g.get (F.LNK_TS_CAL_TX_PS p))).set (F.LNK_TS_DELAY_RX_PS p) (g.get (F.LNK_TS_CAL_RX_PS p))) h
  let h := if warm then h.carry g warmFlds else h
  let h := if keep then h.carry g haspFlds else h
  (h.set F.GLB_RESET_CAUSE_CAUSE cause).setB F.GLB_RESET_CAUSE_HASP_KEPT (keep && g.on F.FLT_HASP0_VALID)

/-- The straps are sampled (R403). -/
def Gikan.strap (g : Gikan) (trayId : Nat) (factoryTest : Bool) : Gikan :=
  ((g.set F.GLB_STRAPS_TRAY_ID trayId).setB F.GLB_STRAPS_FACTORY_TEST factoryTest).setB F.FLT_TEST_STRAP factoryTest

def Gikan.powerOnReset (g : Gikan) (trayId : Nat) (factoryTest : Bool) : Gikan := (g.restart 1 false).strap trayId factoryTest
def Gikan.resetN (g : Gikan) (trayId : Nat) (factoryTest held : Bool) : Gikan := (g.restart 2 held).strap trayId factoryTest
def Gikan.i3cTargetReset (g : Gikan) : Gikan := g.restart 3 true

/-- A write of MGT_RESET. -/
def Gikan.wrReset (g : Gikan) (w : RegW) : Gikan :=
  let (v, m) := wrField w F.MGT_RESET_KEY
  if wrOne w F.MGT_RESET_GO && (v &&& m) == 0xA5 then g.restart 4 true else g

/-! The boot ROM (R373, R375) -/

abbrev slotSpace : Nat := 28 * 2 ^ 20
abbrev cfgSpace : Nat := 7 * 2 ^ 20

/-- What an area that holds no image reads as, for the checks: its MAGIC is wrong. -/
def blankImage (kind : Nat) : Image := ⟨0, 0, kind, 0, 0, 0, 0, 0, false, 0, 0, [], [], [], [], [], []⟩

def Gikan.slotImage (g : Gikan) (slot : Nat) : Image := (if slot = 0 then g.mgt.slot0 else g.mgt.slot1).getD (blankImage 1)

/-- A boot record is written to the other copy, with SEQ + 1. -/
def Gikan.bootRecord (g : Gikan) (active : Nat) (valid : Bool) (slot attempts : Nat) : Gikan :=
  ((((g.set F.MGT_BOOT_ACTIVE active).setB F.MGT_BOOT_TRIAL_VALID valid).set F.MGT_BOOT_TRIAL_SLOT slot).set F.MGT_BOOT_ATTEMPTS attempts).set
    F.MGT_BOOT_SEQ (g.get F.MGT_BOOT_SEQ + 1)

/-- Try a firmware slot: none when it is refused, with the refusal recorded. -/
def Gikan.trySlot (g : Gikan) (slot : Nat) (trial : Bool) : Bool × Gikan :=
  let im := g.slotImage slot
  let c := g.imageCause im [1] slotSpace
  if c ≠ 0 then (false, g.imageRefusal im c)
  else
    let g := ((g.set F.MGT_STATUS_SLOT slot).setB F.MGT_STATUS_TRIAL trial).set F.SEC_STATUS_BOOTED 1
    let g := ((g.set F.SEC_STATUS_ECDSA_KEY im.ecdsaKey).set F.SEC_STATUS_LMS_KEY im.lmsKey).set F.SEC_STATUS_FW_SVN im.svn
    let g := (g.set F.GLB_FW_FW_VERSION (Config.fwVersion im.digest)).set F.GLB_COMPAT_FW_MIN (Config.fwMin im.digest)
    (true, (g.set F.GLB_COMPAT_FW_MAX (Config.fwMax im.digest)).set F.SEC_STATUS_UDS_LOCKED 1)

/-- ACTIVE, then the other slot. -/
def Gikan.tryActive (g : Gikan) : Bool × Gikan :=
  let a := g.get F.MGT_BOOT_ACTIVE
  let (ok, g) := g.trySlot a false
  if ok then (true, g) else g.trySlot (1 - a) false

/-- The slot choice of R375. -/
def Gikan.chooseSlot (g : Gikan) : Bool × Gikan :=
  let a := g.get F.MGT_BOOT_ACTIVE
  let s := g.get F.MGT_BOOT_TRIAL_SLOT
  let n := g.get F.MGT_BOOT_ATTEMPTS
  if g.on F.MGT_BOOT_TRIAL_VALID && decide (0 < n) && !g.on F.PWR_SAG_WARN then
    let (ok, g) := (g.bootRecord a true s (n - 1)).trySlot s true
    if ok then (true, g) else (g.bootRecord a false s (n - 1)).tryActive
  else g.tryActive

/-- The boot ROM's voltage writes (R363, R401): each rail to its fused setpoint. -/
def Gikan.avsBoot (g : Gikan) : Gikan :=
  [0, 1].foldl (fun h r => h.avsWrite r (10 * max 650 (min 850 (Config.fusedSetpoint r)))) g

/-- BOOT_ROM_END. -/
def Gikan.bootRomEnd (g : Gikan) (fusesOk : Bool) : Gikan :=
  if g.phase ≠ 0 then g
  else if !fusesOk then g.faultOpen .fatal 62 65536 (offOf F.MGT_STATUS_PHASE)
  else
    let g := (List.range 6).foldl (fun h i => h.set (F.SEC_DEVICE_ID_WORD i) (Config.deviceIdHash 0 / 2 ^ (64 * i) % 2 ^ 64)) g.avsBoot
    let (ok, g) := g.chooseSlot
    if ok then g.set F.MGT_STATUS_PHASE 2
    else (g.set F.MGT_STATUS_PHASE 1).contained 62 0 (offOf F.SEC_STATUS_LAST_REFUSAL)

/-! The seal (R381) -/

/-- Host-window frames are reserved at the seal (R276). -/
def Gikan.reserveWindow (g : Gikan) : Gikan :=
  (List.range (min 1024 (g.get F.SUB_HOSTWIN_FRAMES))).foldl (fun h _ => match h.allocFrames 1 .window with | some (_, h1) => h1 | none => h) g

/-- The seal. -/
def Gikan.seal (g : Gikan) : Gikan :=
  if g.sealed then g else
  let g := ((g.set F.MGT_SEAL_SEALED 1).set F.MGT_SEAL_PENDING 0).set F.MGT_STATUS_PHASE 6
  ((g.reserveWindow).ibi 3).portsStart

/-- A write of MGT_SEAL. -/
def Gikan.wrSeal (g : Gikan) (w : RegW) : Gikan :=
  if !wrOne w F.MGT_SEAL_GO || g.sealed || g.phase == 3 || g.phase == 1 || g.on F.FLT_TEST_ACTIVE then g
  else if g.stamped then g.seal
  else g.set F.MGT_SEAL_PENDING 1

/-- What STAMPED brings: the seal, or HOLD. In factory test mode only HOLD_MS seals. -/
def Gikan.afterStamped (g : Gikan) : Gikan :=
  if !g.stamped || g.phase != 4 then g
  else if g.mgt.holdMs = 0 || (g.on F.MGT_SEAL_PENDING && !g.on F.FLT_TEST_ACTIVE) then g.seal
  else g.set F.MGT_STATUS_PHASE 5

/-- STAMPING_END: the stacks, the Placer's record frames, and the seal. -/
def Gikan.stampEnd (g : Gikan) : Gikan :=
  let h := g.stampingEnd
  if g.stamped || !h.stamped then h else (h.fitRecords).afterStamped

/-- SEAL_HOLD_EXPIRY. -/
def Gikan.sealHoldExpiry (g : Gikan) : Gikan :=
  match g.mgt.stampedAt with
  | some t => if g.phase == 5 && decide (t + 1000000 * g.mgt.holdMs ≤ g.now) then g.seal else g
  | none => g

/-! Updates (R382) -/

/-- Bytes of an update's area. -/
def areaSpace (target : Nat) : Nat := if target = 2 then cfgSpace else slotSpace

/-- The first cause that refuses an update, 0 when none does. -/
def Gikan.updCause (g : Gikan) (target : Nat) (image : Option Image) : Nat :=
  let bad := match image with | some im => g.imageCause im [1, 2] (areaSpace target) | none => 0
  let kind := match image with | some im => (if im.kind = 1 then target == 2 else target != 2) | none => false
  if bad ≠ 0 then 1
  else if target == 3 || kind then 2
  else if g.on F.SEC_STATUS_BOOTED ∧ target = g.get F.MGT_STATUS_SLOT then 3
  else if g.on F.PWR_SAG_WARN then 4
  else if g.on F.MGT_UPD_BUSY then 5
  else if image.isNone then 6
  else 0

/-- A write of MGT_UPD by a port; `image` is what lies at MGT_UPD_SRC, none when a read fails. -/
def Gikan.wrUpd (g : Gikan) (w : RegW) (image : Option Image) : Gikan :=
  let g := g.putFields w (offOf F.MGT_UPD_GO) [F.MGT_UPD_DONE, F.MGT_UPD_REFUSED]
  if !wrOne w F.MGT_UPD_GO || g.phase == 0 || g.hasp then g else
  let (v, m) := wrField w F.MGT_UPD_TARGET
  let target := v &&& m
  let s := if w.bus = .pcieB then Side.b else Side.a
  let g := g.set F.MGT_UPD_PORT (sideNo s)
  let c := g.updCause target image
  match image with
  | some im =>
    let g := if c = 1 then g.imageRefusal im (g.imageCause im [1, 2] (areaSpace target)) else g
    if c ≠ 0 then (g.set F.MGT_UPD_REFUSED 1).set F.MGT_UPD_CAUSE c
    else
      let g := (g.set F.MGT_UPD_BUSY 1).set F.MGT_UPD_PROGRESS_KIB 0
      ({ g with mgt := { g.mgt with upd := some ⟨s, target, im⟩ } }).emit (.hostRead s (g.get F.MGT_UPD_SRC_ADDR) (4096 + im.contentBytes))
  | none => (g.set F.MGT_UPD_REFUSED 1).set F.MGT_UPD_CAUSE c

/-- UPDATE_END: the area is erased, programmed, read back and compared, or one of these failed. -/
def Gikan.flashUpdateEnd (g : Gikan) (flashOk : Bool) : Gikan :=
  match g.mgt.upd with
  | none => g
  | some u =>
    if g.hasp then g else
    let im := if flashOk then some u.image else none
    let m := { g.mgt with upd := none }
    let m := match u.target with
      | 0 => { m with slot0 := im }
      | 1 => { m with slot1 := im }
      | _ => { m with cfg := im }
    let g := ({ g with mgt := m }).set F.MGT_UPD_BUSY 0
    let kib := ceilDiv (4096 + u.image.contentBytes) 1024
    if flashOk then (g.set F.MGT_UPD_DONE 1).set F.MGT_UPD_PROGRESS_KIB kib
    else
      let (d, g) := g.next
      let g := ((g.set F.MGT_UPD_REFUSED 1).set F.MGT_UPD_CAUSE 7).set F.MGT_UPD_PROGRESS_KIB (Config.openValue d % (kib + 1))
      g.contained 62 1 (offOf F.MGT_UPD_GO)

/-! The boot record (R375) -/

/-- MGT_BOOT.CONFIRM: only while a trial runs and is not yet confirmed; refused while no boot-flash write may be made (R370). -/
def Gikan.bootConfirm (g : Gikan) : Gikan :=
  if !g.on F.MGT_STATUS_TRIAL || !g.on F.MGT_BOOT_TRIAL_VALID then g
  else if g.on F.PWR_SAG_WARN then g.set F.MGT_BOOT_REFUSED 1
  else g.bootRecord (g.get F.MGT_BOOT_TRIAL_SLOT) false (g.get F.MGT_BOOT_TRIAL_SLOT) (g.get F.MGT_BOOT_ATTEMPTS)

/-- MGT_BOOT.SET_TRIAL. -/
def Gikan.bootTrial (g : Gikan) (target : Nat) : Gikan :=
  if g.on F.PWR_SAG_WARN || target == g.get F.MGT_STATUS_SLOT then g.set F.MGT_BOOT_REFUSED 1
  else g.bootRecord (g.get F.MGT_BOOT_ACTIVE) true target 3

/-- A write of MGT_BOOT; the boot ROM itself serves none (R373). -/
def Gikan.wrBoot (g : Gikan) (w : RegW) : Gikan :=
  let g := g.putFields w (offOf F.MGT_BOOT_REFUSED) [F.MGT_BOOT_REFUSED]
  if g.phase ≤ 1 then g else
  let g := if wrOne w F.MGT_BOOT_CONFIRM then g.bootConfirm else g
  if wrOne w F.MGT_BOOT_SET_TRIAL then g.bootTrial (if wrOne w F.MGT_BOOT_TARGET then 1 else 0) else g

/-! Ownership (R385) -/

/-- The holder's number of a bus; I3C holds nothing. -/
def holderNo : Bus → Nat
  | .pcieA => 1
  | .pcieB => 2
  | .i3c => 0

/-- CLAIM from a port. -/
def Gikan.claim (g : Gikan) (b : Bus) : Gikan :=
  let n := holderNo b
  let h := g.get F.MGT_OWNER_HOLDER
  if n ≠ 0 ∧ (h = 0 ∨ h = n ∨ g.mgt.lapsed ∨ g.mgt.leaseAt ≤ g.now) then
    let g := g.set F.MGT_OWNER_HOLDER n
    { g with mgt := { g.mgt with leaseAt := g.now + 1000000 * max 10 (g.get F.MGT_OWNER_LEASE_MS), lapsed := false } }
  else g

/-- RELEASE from the holder. -/
def Gikan.release_ (g : Gikan) (b : Bus) : Gikan :=
  if holderNo b ≠ 0 ∧ g.get F.MGT_OWNER_HOLDER = holderNo b then g.set F.MGT_OWNER_HOLDER 0 else g

/-- A write of MGT_OWNER. -/
def Gikan.wrOwner (g : Gikan) (w : RegW) : Gikan :=
  let g := g.putFields w (offOf F.MGT_OWNER_CLAIM) [F.MGT_OWNER_ENFORCE, F.MGT_OWNER_LEASE_MS]
  let g := if wrOne w F.MGT_OWNER_CLAIM then g.claim w.bus else g
  if wrOne w F.MGT_OWNER_RELEASE then g.release_ w.bus else g

/-- LEASE_LAPSE. -/
def Gikan.leaseLapse (g : Gikan) : Gikan :=
  if g.get F.MGT_OWNER_HOLDER ≠ 0 ∧ g.mgt.leaseAt ≤ g.now then { g with mgt := { g.mgt with lapsed := true } } else g

/-! The BAR4 windows (R384) -/

/-- The request of a window access. -/
def Gikan.winReq (g : Gikan) (s : Side) (type off len : Nat) (data : List Byte) : Req :=
  let i := sideNo s
  ⟨ownHdr type 2 (g.get (F.MGT_WIN_CMPT i)) (g.get (F.MGT_WIN_BASE i) * 2 ^ 36 + off) len 0 (g.get (F.MGT_WIN_WARD_WARD i)), [], data⟩

/-- An access with EN clear. -/
def Gikan.winShut (g : Gikan) (s : Side) : Gikan := g.set (F.MGT_WIN_STATUS_ERROR (sideNo s)) 1

/-- Whether BAR4 answers with zeros and takes nothing (R345, R373). -/
def Gikan.bar4Dead (g : Gikan) : Bool := g.hasp || decide (g.phase ≤ 1)

/-- BAR4_READ. -/
def Gikan.bar4Read (g : Gikan) (s : Side) (off len : Nat) : Gikan :=
  if !(g.port s).up then g
  else if g.bar4Dead then g.emit (.bar4 s (zeros len) false)
  else if !g.on (F.MGT_WIN_EN (sideNo s)) then (g.winShut s).emit (.bar4 s (List.replicate len 0xFF) false)
  else g.issue 46 (g.winReq s tyREAD off len []) (.bar4 s len true)

/-- BAR4_WRITE. -/
def Gikan.bar4Write (g : Gikan) (s : Side) (off : Nat) (data : List Byte) : Gikan :=
  if !(g.port s).up || g.bar4Dead then g
  else if !g.on (F.MGT_WIN_EN (sideNo s)) then g.winShut s
  else g.issue 46 (g.winReq s tyWRITE off data.length data) (.bar4 s data.length false)

/-! The PCIe ports (R383) -/

/-- Commands that wait for a host page behind a port that is down end (R276). -/
def Gikan.hostLost (g : Gikan) : Gikan :=
  g.sub.kws.foldl (fun h k => k.2.cmds.foldl (fun h c => if c.st = .faulted ∧ h.hostDown c then h.cmdSettle k.1 c.idx else h) h) g

/-- PCIE_LINK_DOWN: the link goes down, or PERST is asserted, which also resets the port's function state. -/
def Gikan.pcieLinkDown (g : Gikan) (s : Side) (perst : Bool) : Gikan :=
  let p := g.port s
  if !p.up && !(perst && !p.perst) then g else
  let g := g.setPort s (if perst then { PciePort.reset with perst := true } else { p with up := false, pend := [] })
  let g := g.contained (56 + sideNo s) 0 (offOf F.MGT_STATUS_PHASE)
  if g.hasp then g else g.cohSettle ((g.poolLost s).hostLost)

/-- PERST_DEASSERT: the port retrains. -/
def Gikan.perstDeassert (g : Gikan) (s : Side) : Gikan := g.setPort s { g.port s with perst := false }

/-- PCIE_LINK_UP. -/
def Gikan.pcieLinkUp (g : Gikan) (s : Side) : Gikan :=
  let p := g.port s
  if p.perst then g else g.setPort s { p with up := true }

/-- PCIE_CONFIG_WRITE: a mask or the power state changes; messages that nothing holds back any more go out. -/
def Gikan.pcieConfigWrite (g : Gikan) (s : Side) (c : CfgWrite) : Gikan :=
  let p := g.port s
  if !p.up then g else
  let q := match c with
    | .functionMask on => { p with fmask := on }
    | .vectorMask v on => if v < 2048 then { p with table := p.table.put (2 * v + 1) (putBit (msixWord p (2 * v + 1)) 32 on) } else p
    | .powerState d3 => { p with d3 := d3 }
  (g.setPort s q).msixRelease s

/-! The node number (R388) -/

/-- The number in force: the assigned one, or the provisional one where NODE is 0xFFFE. -/
def Gikan.nodeSettle (g : Gikan) : Gikan :=
  let n := g.get F.GLB_NODE_NODE
  g.set F.GLB_NODE_CURRENT (if n = 0xFFFE then g.get F.GLB_NODE_PROVISIONAL else n)

/-- At once while ticks do not run; at the next boundary otherwise. -/
def Gikan.nodeSoon (g : Gikan) : Gikan := if g.running then g else g.nodeSettle

/-- A write of GLB_NODE. -/
def Gikan.wrNode (g : Gikan) (w : RegW) : Gikan :=
  let n := g.wrValue w F.GLB_NODE_NODE
  if !wrCovers w F.GLB_NODE_NODE || !(decide (n ≤ 0x3FFF) || n == 0xFFFE) then g
  else (g.set F.GLB_NODE_NODE n).nodeSoon

/-! I3C (R386 to R390) -/

/-- ENTDAA. -/
def Gikan.entdaa (g : Gikan) (da : Nat) : Gikan :=
  if !g.on F.MGT_I3C_SEQ_IN || g.on F.MGT_I3C_DA_VALID || decide (da < 8) || decide (0x7D < da) then g else
  let g := ((g.set F.MGT_I3C_DA da).set F.MGT_I3C_DA_VALID 1).set F.MGT_I3C_SEQ_OUT 1
  let g := { g with pins := { g.pins with seqOut := true } }
  (g.set F.GLB_NODE_PROVISIONAL (0x2000 + 128 * g.get F.GLB_STRAPS_TRAY_ID + da)).nodeSoon

/-- RSTDAA. -/
def Gikan.rstdaa (g : Gikan) : Gikan :=
  let g := ((g.set F.MGT_I3C_DA 0).set F.MGT_I3C_DA_VALID 0).set F.MGT_I3C_SEQ_OUT 0
  let g := { g with pins := { g.pins with seqOut := false } }
  (g.set F.GLB_NODE_PROVISIONAL 0xFFFE).nodeSoon

def Gikan.enec (g : Gikan) : Gikan := g.set F.MGT_I3C_IBI_ENABLED 1
def Gikan.disec (g : Gikan) : Gikan := g.set F.MGT_I3C_IBI_ENABLED 0

/-- Bytes returned to the controller, once the Gikan holds an address. -/
def Gikan.i3cSend (g : Gikan) (b : List Byte) : Gikan := if g.on F.MGT_I3C_DA_VALID then g.emit (.i3c b) else g

def Gikan.getpid (g : Gikan) : Gikan := g.i3cSend (leBytes 6 Config.i3cPid)
def Gikan.getbcr (g : Gikan) : Gikan := g.i3cSend (leBytes 1 Config.i3cBcr)
def Gikan.getdcr (g : Gikan) : Gikan := g.i3cSend (leBytes 1 Config.i3cDcr)
def Gikan.getstatus (g : Gikan) : Gikan := let (d, g) := g.next; g.i3cSend (leBytes 2 (Config.i3cStatus d))

end Sys2Proof.Machine
end

