-- ==== Sys2Proof/Machine/RegRead.lean ====
section
/-!
DEFINITION. Reads of BAR0 (R3, R4, R345, R373, R389, R408): the word that a register shows, also where it follows from other state or from an
index register, the four queues that a read drains, and the MSI-X tables (R383).
-/

namespace Sys2Proof.Machine

/-! Words -/

/-- The word at an offset with some of its fields following from other state. -/
def Gikan.shown (g : Gikan) (off : Nat) (l : List (Fld × Nat)) : Nat := (l.foldl (fun h x => h.set x.1 (min x.2 (2 ^ x.1.wid - 1))) g).fieldWord off

/-- Put a word into the fields of the register at an offset. -/
def Gikan.setWord (g : Gikan) (off v : Nat) : Gikan :=
  match regAt regTable off with
  | some fs => fs.foldl (fun h f => h.set f (bits v (f.key % 64) f.wid)) g
  | none => g

/-- MAP_STAGE_DATA n: the entry at INDEX of the staging tables, or of the current map with VIEW. -/
def Gikan.stageWord (g : Gikan) (n : Nat) : Nat :=
  let t := if g.on F.MAP_STAGE_INDEX_VIEW then g.map.cur else g.map.stage
  let i := g.get F.MAP_STAGE_INDEX_INDEX
  if g.on F.MAP_STAGE_INDEX_ROUTE then (if n = 0 then t.route.getD i 0 else 0)
  else
    let e := t.ext.getD i ExtW.none
    match n with
    | 0 => e.w0
    | 1 => e.w1
    | 2 => e.w2
    | _ => e.w3

/-- MAP_HOME_REQ: the request at the head. -/
def Gikan.homeReqWord (g : Gikan) : Nat :=
  match g.map.homeReq with
  | (e, n, ep) :: _ => e % 2 ^ 16 + n % 2 ^ 16 * 2 ^ 16 + ep % 2 ^ 16 * 2 ^ 32 + 2 ^ 48
  | [] => 0

/-- MEM_REPAIR_CAND: the row at the head. -/
def Gikan.candWord (g : Gikan) : Nat :=
  match g.stk.cand with
  | c :: _ => c.stack % 16 + c.channel % 32 * 2 ^ 4 + c.granule % 2 ^ 20 * 2 ^ 9 + c.pc % 2 * 2 ^ 29 + c.count % 256 * 2 ^ 30 + 2 ^ 63
  | [] => 0

/-- FLT_CHECK_LOG0: the entry at the head. -/
def Gikan.checkWord (g : Gikan) : Nat :=
  match g.flt.checkLog with
  | c :: _ => c.w0
  | [] => 0

/-- Jobs, and requests, that the gather, filter and score engines hold. -/
def Gikan.gfsActive (g : Gikan) : Nat × Nat :=
  let n := (g.gfs.jobs.filter (fun j => match j.owner with | .cmd _ _ => true | _ => false)).length
  let queued := g.sub.kws.foldl (fun k e => k + (e.2.cmds.filter (fun c =>
    (c.op == opGATHER || c.op == opFILTER || c.op == opSCORE) && c.st != .done && (g.jobOf (.cmd e.1 c.idx)).isNone)).length) 0
  (n + queued, g.gfs.jobs.length - n)

/-- Items queued or running that name the entries of a kernel image's slot. -/
def Gikan.imageRefs (g : Gikan) (slot : Nat) : Nat :=
  let of := fun (i : PinItem) => i.e.slot == slot
  (g.pin.cores.flatMap (fun p => (p.2.threads.map (fun t => t.2.item) ++ p.2.ready.flatMap (fun r => r.2.map (fun i => i.1)) ++ p.2.queue).filter of)).length +
    (g.pin.outside.filter (fun o => of o.2)).length

/-- Words of the MAP, MEM, TIER and COH blocks that follow from other state; none for the rest. -/
def Gikan.memoryWord (g : Gikan) (off : Nat) : Option Nat :=
  match off with
  | 0x300018 => some (g.shown off [(F.MAP_STATUS_PREV_INFLIGHT, g.prevInflight)])
  | 0x300030 => some (g.stageWord 0)
  | 0x300038 => some (g.stageWord 1)
  | 0x300040 => some (g.stageWord 2)
  | 0x300048 => some (g.stageWord 3)
  | 0x300058 =>
    let n := match g.map.revokeAt with | some (i, _) => g.pendingCount i | none => 0
    some (g.shown off [(F.MAP_REVOKE_STATUS_PENDING, n)])
  | 0x300090 => some g.homeReqWord
  | 0x600008 =>
    some (g.shown off [(F.MEM_STATUS_STAMP_BUSY, if g.framesToStamp = 0 then 0 else 1), (F.MEM_STATUS_FRAMES_WAITING, g.framesToStamp)])
  | 0x600028 =>
    some (g.shown off [(F.MEM_FRAMES_FREE, g.freeFrames), (F.MEM_FRAMES_DIRECTORY, g.framesIn (fun x => x == .dir)), (F.MEM_FRAMES_RETIRED, g.retired)])
  | 0x6000B0 => some g.candWord
  | 0x700010 =>
    let (a, b, c, d) := g.occupancy
    some (g.shown off [(F.TIER_OCCUPANCY_RESERVED, a), (F.TIER_OCCUPANCY_TIERED, b), (F.TIER_OCCUPANCY_COPIES, c), (F.TIER_OCCUPANCY_SLACK, d)])
  | 0x700070 =>
    let (n, k) := g.tier.xstall.getD (g.get F.TIER_XSTALL_INDEX_EXTENT) (0, 0)
    some (g.shown off [(F.TIER_XSTALL_DATA_EVENTS, n), (F.TIER_XSTALL_DATA_CYCLES_K, k)])
  | 0x700078 => some (g.shown off [(F.TIER_LEND_LOANS, g.tier.loans.length), (F.TIER_LEND_PAGES, g.loanPages)])
  | 0x7000A0 => some (g.shown off [(F.TIER_FLASH_HEALTH_ERASE_MAX, g.eraseMax), (F.TIER_FLASH_HEALTH_ERASE_MIN, g.eraseMin)])
  | 0x800008 =>
    some (g.shown off [(F.COH_USAGE_USED_4K, g.cohTotal g.map.cur.ext / 4096), (F.COH_USAGE_DIR_FRAMES, g.framesIn (fun x => x == .dir))])
  | 0x800018 => some g.agentWord
  | _ => none

/-- Words of the RED, GFS, CMP, PIN and SUB blocks that follow from other state. -/
def Gikan.engineWord (g : Gikan) (off : Nat) : Option Nat :=
  match off with
  | 0x900010 => some (g.shown off [(F.RED_STORE_FREE_C0, g.storeFree), (F.RED_STORE_FREE_C1, g.storeFree)])
  | 0x900020 => some g.streamStateWord
  | 0x900028 => some g.streamSlotsWord
  | 0x900030 => some g.parentWardWord
  | 0x900068 => some g.stragglerWord
  | 0xA00010 =>
    some (g.shown off [(F.GFS_ACTIVE_JOBS, g.gfsActive.1), (F.GFS_ACTIVE_REQUESTS, g.gfsActive.2), (F.GFS_ACTIVE_SELECT_FREE, g.selectLeast)])
  | 0xB00030 => some g.slotWord
  | 0xC00038 => some g.pinSlotWord
  | 0xC00040 => some (min (g.imageRefs (g.get F.PIN_SLOT_INDEX_SLOT)) (2 ^ 32 - 1))
  | 0xC00050 => some g.pinEntryWord
  | 0xD00028 => some (g.cqWord 0)
  | 0xD00030 => some (g.cqWord 1)
  | 0xD00038 => some (g.cqWord 2)
  | 0xD00048 => some (g.mqWord 0)
  | 0xD00050 => some (g.mqWord 1)
  | 0xD00058 => some (g.mqWord 2)
  | 0xD00068 => some (g.asidWord (g.get F.SUB_ASID_INDEX_ASID))
  | 0xD00080 => some (g.shown off [(F.SUB_HOSTWIN_IN_USE, g.sub.frames.length)])
  | 0xD00088 => some (g.shown off [(F.SUB_PIN_PINNED, g.pinnedPages.length), (F.SUB_PIN_FAULTED, g.faultedCmds)])
  | _ => none

/-- Words of the LNK, XBAR, SEC, FLT, MON and PWR blocks that follow from other state. -/
def Gikan.systemWord (g : Gikan) (off : Nat) : Option Nat :=
  if 0x401000 ≤ off ∧ off < 0x401C00 then
    let k := (off - 0x401000) / 8
    some (g.shown off [(F.XBAR_SHAPER_TOKENS (k / 8) (k % 8), toBits (g.tokensOf (k / 8) (k % 8) / 65536) 24)])
  else if 0x500000 ≤ off ∧ off < 0x600000 ∧ (off - 0x500000) % 0x8000 = 0x1D0 then
    let p := (off - 0x500000) / 0x8000
    some ((g.link p).hist.getD (16 * g.get (F.LNK_HIST_SEL_LANE p) + g.get (F.LNK_HIST_SEL_BIN p)) 0)
  else match off with
  | 0x403000 =>
    let e := g.xbar.gates.getD (gateKey (g.get F.XBAR_GATE_ENTRY_PORT) (g.get F.XBAR_GATE_ENTRY_LIST) (g.get F.XBAR_GATE_ENTRY_INDEX)) (8000, 0xFF)
    some (g.shown off [(F.XBAR_GATE_ENTRY_DUR_NS, e.1), (F.XBAR_GATE_ENTRY_MASK, e.2)])
  | 0xE00018 => some g.memberWord
  | 0xE00058 => some (g.viewBaseWord (g.get F.SEC_VIEW_INDEX_CMPT))
  | 0xE00070 => some (g.shown off [(F.SEC_LMS_NEXT, g.sec.lmsNext), (F.SEC_LMS_RESERVED_LEFT, g.lmsLeft)])
  | 0x100038 => some (synWord (g.syn (g.get F.FLT_SYN_INDEX_GROUP)))
  | 0x100040 => some g.synTime
  | 0x100048 => some g.countWord
  | 0x1000A8 => some g.checkWord
  | 0x1000010 => some g.monBinData
  | 0xF00008 => some (g.shown off [(F.PWR_STATE_NARROWED, g.narrowedWord)])
  | 0xF00060 => some g.sensorWord
  | _ => none

/-! The MSI-X tables and pending bits (R383) -/

abbrev msixBase : Nat := 0x2000000

/-- A word of a port's table or of its pending-bit array. -/
def Gikan.msixRead (g : Gikan) (s : Side) (off : Nat) : Nat :=
  let p := g.port s
  let k := (off - msixBase) / 8
  if off < msixBase + 0x8000 then msixWord p k
  else if off < msixBase + 0x8100 then (List.range 64).foldl (fun n b => if p.pend.contains (64 * (k - 4096) + b) then n + 2 ^ b else n) 0
  else 0

/-- The port whose table a bus reaches. -/
def busSide : Bus → Side
  | .pcieA => .a
  | .pcieB => .b
  | .i3c => .a

/-! Reads -/

/-- The 64-bit word at an aligned offset. The measured averages and voltages are open. -/
def Gikan.regWord (g : Gikan) (b : Bus) (off : Nat) : Nat × Gikan :=
  if off = 0xF00030 then g.powerWord
  else if off = 0xF00040 then g.railWord
  else if msixBase ≤ off then (g.msixRead (busSide b) off, g)
  else
    match g.memoryWord off with
    | some v => (v, g)
    | none =>
      match g.engineWord off with
      | some v => (v, g)
      | none => ((g.systemWord off).getD (g.fieldWord off), g)

/-- Whether a bus reads an offset as it stands; otherwise it reads zero (R345, R373, R389). -/
def Gikan.readable (g : Gikan) (b : Bus) (off : Nat) : Bool :=
  match b with
  | .i3c => !(g.hasp || g.phase == 1) || mgmtBlock off || blockOf off == 0xF
  | _ => !(g.hasp || decide (g.phase ≤ 1)) || mgmtBlock off

/-- A 64-bit read of a queue's register removes the head (R408). -/
def Gikan.readHead (g : Gikan) (off : Nat) : Gikan :=
  match off with
  | 0x300090 => { g with map := { g.map with homeReq := g.map.homeReq.drop 1 } }
  | 0x6000B0 => { g with stk := { g.stk with cand := g.stk.cand.drop 1 } }
  | 0x900068 => g.takePost
  | 0x1000A8 =>
    match g.flt.checkLog with
    | [] => g
    | c :: rest => (({ g with flt := { g.flt with checkLog := rest } }).setWord 0x1000B0 c.w1).setWord 0x1000B8 c.w2
  | _ => g

/-- A 64-bit read: the word, and what the read leaves. -/
def Gikan.read64 (g : Gikan) (b : Bus) (off : Nat) : Nat × Gikan :=
  if !g.readable b off then (0, g) else
  let (v, h) := g.regWord b off
  (v, h.readHead off)

/-- A PCIe read of `len` bytes at any BAR0 offset (R3, R408): what it returns, as a number of `len` bytes, and what it leaves. A 32-bit
read shows half of the register and removes nothing; any other width, or a misaligned one, returns all ones in every byte; an unassigned
offset reads zero. -/
def Gikan.pcieRead (g : Gikan) (b : Bus) (off len : Nat) : Nat × Gikan :=
  if len = 8 ∧ off % 8 = 0 then g.read64 b off
  else if len = 4 ∧ off % 4 = 0 then
    let (v, h) := if g.readable b off then g.regWord b (off / 8 * 8) else (0, g)
    (v / 2 ^ (off % 8 * 8) % 2 ^ 32, h)
  else (2 ^ (8 * len) - 1, g)

/-- A read over a bus of a queue's register, whole or by half. -/
def Gikan.busRead (g : Gikan) (b : Bus) (half : Half) (off : Nat) : Gikan :=
  let (o, len) := match half with | .full => (off, 8) | .low => (off, 4) | .high => (off + 4, 4)
  let (v, h) := g.pcieRead b o len
  h.emit (.busRead b o v)

/-! BAR2 (R253) -/

/-- The 64-bit word at an aligned BAR2 offset: the state of the Keyway whose aperture it is; the landing zones and unlisted offsets read
zero, and so does all of BAR2 in the Hasp state and before CONFIG (R345, R373). -/
def Gikan.keywayWord (g : Gikan) (off : Nat) : Nat :=
  let k := g.kway (off / 0x10000)
  if g.hasp || decide (g.phase ≤ 1) || decide (0x100000 ≤ off) then 0
  else match off % 0x10000 with
    | 0x8000 => k.next % 2 ^ 32
    | 0x8008 => 256 - k.cmds.length
    | 0x8010 => (List.range 8).foldl (fun n z =>
        n + (match k.zones.get? z with | some x => if x.held then 2 else 1 | none => 0) * 4 ^ z) 0
    | 0x8018 => k.cmds.length
    | _ => 0

/-- A PCIe read of `len` bytes at any BAR2 offset (R3, R253): it leaves the Gikan as it was. -/
def Gikan.keywayRead (g : Gikan) (off len : Nat) : Nat :=
  if len = 8 ∧ off % 8 = 0 then g.keywayWord off
  else if len = 4 ∧ off % 4 = 0 then g.keywayWord (off / 8 * 8) / 2 ^ (off % 8 * 8) % 2 ^ 32
  else 2 ^ (8 * len) - 1

/-- I3C_PRIVATE_READ: the 8 bytes of a register; a misaligned offset reads all ones (R3). -/
def Gikan.i3cRead (g : Gikan) (off : Nat) : Gikan :=
  if !g.on F.MGT_I3C_DA_VALID then g
  else
    let g := { g with mgt := { g.mgt with i3cOff := off } }
    if off % 8 ≠ 0 then g.emit (.i3c (List.replicate 8 0xFF))
    else let (v, h) := g.read64 .i3c off; h.emit (.i3c (leBytes 8 v))

end Sys2Proof.Machine
end

