-- ==== Sys2Proof/Machine/RegWrite.lean ====
section
/-!
DEFINITION. Writes of BAR0 (R3, R4, R345, R373, R381, R385, R389, R408): each register by what its own rule says, and every other by the
access types of its fields; and the check and application of the configuration image (R376 to R380), whose records are such writes.
-/

namespace Sys2Proof.Machine

/-! Registers whose rule is short -/

/-- A register by the access types of its fields. -/
def Gikan.wrPlain (g : Gikan) (off : Nat) (w : RegW) : Gikan :=
  match regAt regTable off with
  | some fs => g.putFields w off fs
  | none => g

/-- MAP_CTRL. -/
def Gikan.wrMapCtrl (g : Gikan) (w : RegW) : Gikan :=
  let g := g.putFields w (offOf F.MAP_CTRL_REACH) [F.MAP_CTRL_REACH, F.MAP_CTRL_HOME_REQ_EN]
  if wrOne w F.MAP_CTRL_CLR_CNT then g.clear mapCounters else g

/-- MAP_DOMAIN and MAP_JOIN, locked while a commit is armed (R72). -/
def Gikan.wrLocked (g : Gikan) (off : Nat) (w : RegW) : Gikan := if g.armed then g.locked else g.wrPlain off w

/-- TIER_POLICY_i: entry 0 is fixed, and a write of BACKING 3 leaves that field (R109). -/
def Gikan.wrPolicy (g : Gikan) (w : RegW) (i : Nat) : Gikan :=
  let rest := [F.TIER_POLICY_LENT i, F.TIER_POLICY_COLD i, F.TIER_POLICY_LENT_THRESH i, F.TIER_POLICY_MIN_TICKS i]
  let fs := if g.wrValue w (F.TIER_POLICY_BACKING i) = 3 then rest else F.TIER_POLICY_BACKING i :: rest
  if i = 0 then g else g.putFields w (offOf (F.TIER_POLICY_ENABLED i)) (F.TIER_POLICY_ENABLED i :: fs)

/-- XBAR_CTRL. -/
def Gikan.wrXbarCtrl (g : Gikan) (w : RegW) : Gikan :=
  let g := g.putField w F.XBAR_CTRL_ITER
  if wrOne w F.XBAR_CTRL_CLR_CNT then g.clear xbarCounters else g

/-- XBAR_TC_ARB: bit 0 of STRICT reads 1. -/
def Gikan.wrTcArb (g : Gikan) (w : RegW) : Gikan := (g.wrPlain (offOf F.XBAR_TC_ARB_STRICT) w).setBitOf F.XBAR_TC_ARB_STRICT 0

/-- XBAR_QSAMPLE_SEL: a new window starts at the next boundary (R318). -/
def Gikan.wrQsample (g : Gikan) (w : RegW) : Gikan :=
  let g := g.wrPlain (offOf F.XBAR_QSAMPLE_SEL_EN) w
  { g with xbar := { g.xbar with qwin := [], qwait := true } }

/-- MON_SEL and MON_SCALE: the window starts anew (R352). -/
def Gikan.wrMonitor (g : Gikan) (off : Nat) (w : RegW) (m : Nat) : Gikan := (g.wrPlain off w).monRestart m

/-- SEC_MEMBER_DATA, SEC_VIEW_BASE and the rest of the security block's registers with a rule of their own. -/
def Gikan.writeSec (g : Gikan) (off : Nat) (w : RegW) : Gikan :=
  match off with
  | 0xE00000 => g.wrSecCtrl w
  | 0xE00018 => g.wrMemberData w
  | 0xE00030 => g.wrScrub w
  | 0xE00058 => g.wrViewBase w
  | 0xE00060 => g.wrSvn w
  | _ => g.wrPlain off w

/-- FLT and the monitors. -/
def Gikan.writeFlt (g : Gikan) (off : Nat) (w : RegW) : Gikan :=
  match off with
  | 0x100038 => g.wrSyn w
  | 0x100070 => g.wrFence w
  | 0x1000C8 => g.wrFltTest w
  | 0x1000D0 => g.wrInject w
  | 0x1000D8 => g.wrFltCtrl w
  | _ =>
    if 0x101000 ≤ off ∧ off < 0x102000 then g.wrToken w ((off - 0x101000) / 8)
    else
      match (List.range 16).find? (fun m => offOf (F.MON_SEL_SRC m) == off || offOf (F.MON_SCALE_BASE m) == off) with
      | some m => g.wrMonitor off w m
      | none => g.wrPlain off w

/-- TICK and MAP. -/
def Gikan.writeMap (g : Gikan) (off : Nat) (w : RegW) : Gikan :=
  match off with
  | 0x200000 => g.wrTickCtrl w
  | 0x200020 => g.wrTickPeriod w
  | 0x200028 => g.wrSwitchAt w
  | 0x200030 => g.wrTimeSet w
  | 0x300000 => g.wrMapCtrl w
  | 0x300010 => g.wrMapArm w
  | 0x300030 => g.wrStageData w 0
  | 0x300038 => g.wrStageData w 1
  | 0x300040 => g.wrStageData w 2
  | 0x300048 => g.wrStageData w 3
  | 0x300050 => g.wrRevoke w
  | 0x300068 => g.wrQuiesce w
  | 0x300070 => g.wrLocked off w
  | 0x300078 => g.wrLocked off w
  | 0x300080 => g.wrLocked off w
  | 0x300088 => g.wrLocked off w
  | 0x3000B0 => g.wrLocked off w
  | _ => g.wrPlain off w

/-- MEM, TIER and COH. -/
def Gikan.writeStack (g : Gikan) (off : Nat) (w : RegW) : Gikan :=
  match off with
  | 0x600000 => g.wrMemCtrl w
  | 0x600030 => g.wrRetire w
  | 0x6000B8 => g.wrMemFlip w
  | 0x700000 => g.wrTierCtrl w
  | 0x700040 => g.wrHint1 w
  | 0x800000 => g.wrCohCtrl w
  | 0x800018 => g.wrAgentData w
  | 0x800028 => g.wrRecall w
  | 0x800038 => g.wrDeadGo w
  | 0x800050 => g.wrPeek w
  | _ => if 0x700100 ≤ off ∧ off < 0x700180 then g.wrPolicy w ((off - 0x700100) / 8) else g.wrPlain off w

/-- RED, GFS, CMP, PIN and SUB. -/
def Gikan.writeEngine (g : Gikan) (off : Nat) (w : RegW) : Gikan :=
  match off with
  | 0x900000 => g.wrRedCtrl w
  | 0x900038 => g.wrRedAbort w
  | 0xA00000 => g.wrGfsCtrl w
  | 0xB00000 => g.wrCmpCtrl w
  | 0xB00018 => g.wrTableLoad w
  | 0xC00000 => g.wrPinCtrl w
  | 0xC00020 => g.wrImageLoad w
  | 0xD00000 => g.wrSubCtrl w
  | 0xD00028 => g.wrCqCfg w
  | 0xD00030 => g.wrCqBase w
  | 0xD00038 => g.wrCqHead w
  | 0xD00048 => g.wrMqCfg w
  | 0xD00050 => g.wrMqBase w
  | 0xD00058 => g.wrMqHead w
  | 0xD00068 => g.wrAsidRoot w
  | 0xD00070 => g.wrXlateInval w
  | _ => g.wrPlain off w

/-- XBAR and LNK. -/
def Gikan.writeLink (g : Gikan) (off : Nat) (w : RegW) : Gikan :=
  match off with
  | 0x400000 => g.wrXbarCtrl w
  | 0x400008 => g.wrTcArb w
  | 0x400058 => g.wrQsample w
  | 0x403000 => g.wrGateEntry w
  | _ =>
    if 0x401000 ≤ off ∧ off < 0x401C00 then let k := (off - 0x401000) / 8; g.wrShaper w (k / 8) (k % 8)
    else
      match (List.range 32).find? (fun p => offOf (F.XBAR_GATE_CTRL_EN p) == off || offOf (F.XBAR_GATE_SWAP_AT_SWAP_AT p) == off ||
          offOf (F.LNK_CTRL_ENABLE p) == off) with
      | some p =>
        if offOf (F.LNK_CTRL_ENABLE p) = off then g.wrLnkCtrl w p
        else if offOf (F.XBAR_GATE_CTRL_EN p) = off then g.wrGateCtrl w p
        else g.wrGateSwapAt w p
      | none => g.wrPlain off w

/-- PWR, GLB and MGT. The image that an update reads is not a part of the write: only MGT_UPD_GO carries it. -/
def Gikan.writeMgmt (g : Gikan) (off : Nat) (w : RegW) : Gikan :=
  match off with
  | 0x20 => g.wrNode w
  | 0xF00000 => g.wrPwrCtrl w
  | 0xF00010 => g.wrBudget w 0
  | 0xF00018 => g.wrBudget w 1
  | 0x1100008 => g.wrSeal w
  | 0x1100040 => g.wrBoot w
  | 0x1100058 => g.wrOwner w
  | 0x1100098 => g.wrReset w
  | _ => g.wrPlain off w

/-! The whole space -/

/-- A word of a port's MSI-X table; messages that nothing masks any more go out (R383). Only bit 0 of Vector Control is kept. -/
def Gikan.wrMsix (g : Gikan) (off : Nat) (w : RegW) : Gikan :=
  if msixBase + 0x8000 ≤ off then g else
  let s := busSide w.bus
  let p := g.port s
  let k := (off - msixBase) / 8
  let m := halfMask w.half
  let old := msixWord p k
  let v := (w.data.toNat &&& m) ||| (old - (old &&& m))
  let v := if k % 2 = 1 then bits v 0 33 else v
  (g.setPort s { p with table := p.table.put k v }).msixRelease s

/-- A write that has passed the gate. -/
def Gikan.writeReg (g : Gikan) (off : Nat) (w : RegW) : Gikan :=
  if msixBase ≤ off then g.wrMsix off w
  else
    match blockOf off with
    | 0x0 => g.writeMgmt off w
    | 0x1 => g.writeFlt off w
    | 0x2 => g.writeMap off w
    | 0x3 => g.writeMap off w
    | 0x4 => g.writeLink off w
    | 0x5 => g.writeLink off w
    | 0x6 => g.writeStack off w
    | 0x7 => g.writeStack off w
    | 0x8 => g.writeStack off w
    | 0x9 => g.writeEngine off w
    | 0xA => g.writeEngine off w
    | 0xB => g.writeEngine off w
    | 0xC => g.writeEngine off w
    | 0xD => g.writeEngine off w
    | 0xE => g.writeSec off w
    | 0xF => g.writeMgmt off w
    | 0x10 => g.writeFlt off w
    | 0x11 => g.writeMgmt off w
    | _ => g

/-- Where a write may reach the W1C bits of FLT alone, only those. -/
def Gikan.writeW1c (g : Gikan) (off : Nat) (w : RegW) : Gikan :=
  if off = offOf F.FLT_SYN_DATA0_VALID then g.wrSyn w
  else
    match regAt regTable off with
    | some fs => g.putFields w off (fs.filter (fun f => f.acc == .w1c))
    | none => g

/-- A write of a register over a bus. -/
def Gikan.regWrite (g : Gikan) (off : Nat) (w : RegW) : Gikan :=
  g.gated w.bus off (fun h => if w1cOnly h w.bus off then h.writeW1c off w else h.writeReg off w)

/-- REGISTER_WRITE: naturally aligned, 4 or 8 bytes; anything else has no effect (R3). -/
def Gikan.registerWrite (g : Gikan) (bus : Bus) (off width : Nat) (data : Word) : Gikan :=
  if width = 8 ∧ off % 8 = 0 then g.regWrite off ⟨bus, .full, data⟩
  else if width = 4 ∧ off % 8 = 0 then g.regWrite off ⟨bus, .low, data⟩
  else if width = 4 ∧ off % 8 = 4 then g.regWrite (off - 4) ⟨bus, .high, data <<< 32⟩
  else g

/-- I3C_PRIVATE_WRITE: 8 bytes to an aligned offset, from a controller that the Gikan has an address on (R389). -/
def Gikan.i3cWrite (g : Gikan) (off : Nat) (data : Word) : Gikan :=
  if !g.on F.MGT_I3C_DA_VALID then g
  else if off % 8 ≠ 0 then g.inc F.MGT_I3C_REFUSED 1
  else g.regWrite off ⟨.i3c, .full, data⟩

/-! The configuration image (R376 to R380) -/

/-- A section: the offset of its header, its TYPE and its LENGTH. -/
structure CfgSection where
  off : Nat
  type : Nat
  len : Nat
  deriving DecidableEq, Repr

/-- The sections up to END, and the offset of the header at which the walk fails, if it does. -/
def cfgWalk : Nat → List Byte → Nat → List CfgSection × Option Nat
  | 0, _, off => ([], some off)
  | n + 1, b, off =>
    if b.length < off + 8 then ([], some off) else
    let t := field b off 2
    let len := field b (off + 4) 4
    if t = 0xFFFF then (if len = 0 then ([⟨off, t, 0⟩], none) else ([], some off))
    else if (t ≠ 1 ∧ t ≠ 2) ∨ len % 8 ≠ 0 ∨ b.length < off + 8 + len then ([], some off)
    else let (l, e) := cfgWalk n b (off + 8 + len); (⟨off, t, len⟩ :: l, e)

/-- Offsets of the records of a REGISTERS section. -/
def cfgRecords (s : CfgSection) : List Nat := if s.type = 2 then (List.range (s.len / 24)).map (fun i => s.off + 8 + 24 * i) else []

/-- Whether a policy word breaks its register's fields. -/
def policyBad (v : Nat) : Bool := bits v 1 2 == 3 || bits v 4 4 != 0 || v / 2 ^ 32 != 0

/-- Cause 4 over a FABRIC body. -/
def fabricBad (b : List Byte) (off : Nat) : Bool :=
  let p := field b (off + 9) 1
  decide (p < 2) || decide (64 < p) || (List.range 15).any (fun i => policyBad (field b (off + 16 + 8 * i) 8))

/-- Registers that a record may not name, and places with no register. -/
def cfgDenied (off : Nat) : Bool :=
  off % 8 != 0 || blockOf off == 0 || blockOf off == 0x11 || off == offOf F.FLT_TEST_ENTER || off == offOf F.FLT_INJECT_GO ||
  (decide (0x101000 ≤ off) && decide (off < 0x102000)) || off == offOf F.MEM_FLIP_ARM || off == offOf F.SEC_SVN_COMMIT ||
  off == offOf F.SEC_SCRUB_GO || ((regAt regTable off).isNone && !(decide (msixBase ≤ off) && decide (off < msixBase + 0x8100)))

/-- The first failing cause of R380 and the content offset of the failing header or record; none when the content is good. -/
def cfgCause (b : List Byte) : Option (Nat × Nat) :=
  let nz := fun (o n : Nat) => field b o n != 0
  if field b 0 4 ≠ 0x47494643 ∨ field b 4 2 ≠ 1 ∨ field b 6 2 ≠ 0x9632 ∨ nz 16 48 ∨ 600000 < field b 12 4 then some (1, 0)
  else
    let (ss, e) := cfgWalk (b.length / 8 + 1) b 64
    let fab := ss.filter (fun s => s.type == 1)
    let recs := ss.flatMap cfgRecords
    match ss.find? (fun s => nz (s.off + 2) 2 || (s.type == 1 && s.len == 136 && (bits (field b (s.off + 16) 1) 1 7 != 0 || nz (s.off + 18) 6))),
        recs.find? (fun r => nz (r + 4) 4) with
    | some s, some r => some (1, min s.off r)
    | some s, none => some (1, s.off)
    | none, some r => some (1, r)
    | none, none =>
      match e with
      | some o => some (2, o)
      | none =>
        match fab with
        | [] => some (3, (ss.getLast?.map (fun s => s.off)).getD 64)
        | s :: _ :: _ => some (3, ((fab[1]?).getD s).off)
        | [s] =>
          if s.len ≠ 136 then some (3, s.off)
          else if fabricBad b (s.off + 8) then some (4, s.off)
          else
            match recs.find? (fun r => cfgDenied (field b r 4)) with
            | some r => some (5, r)
            | none => (recs[65536]?).map (fun r => (6, r))

/-- A record: a 64-bit write from port A of (current AND NOT MASK) OR (VALUE AND MASK) (R379). -/
def Gikan.cfgRecord (g : Gikan) (b : List Byte) (r : Nat) : Gikan :=
  let off := field b r 4
  let mask := field b (r + 8) 8
  let (v, h) := g.regWord .pcieA off
  h.writeReg off ⟨.pcieA, .full, BitVec.ofNat 64 ((v - (v &&& mask)) ||| (field b (r + 16) 8 &&& mask))⟩

/-- The FABRIC section (R378). -/
def Gikan.cfgFabric (g : Gikan) (b : List Byte) (off : Nat) : Gikan :=
  let g := (g.set F.MAP_CTRL_REACH (field b (off + 8) 1 % 2)).set F.TICK_PERIOD_NEXT_US (field b (off + 9) 1)
  let g := (List.range 15).foldl (fun h i => h.setWord (offOf (F.TIER_POLICY_ENABLED (i + 1))) (field b (off + 16 + 8 * i) 8)) g
  let d := Config.sha384 (slice b off 136)
  (List.range 6).foldl (fun h i => h.set (F.MGT_DIGEST_WORD i) (d / 2 ^ (64 * i) % 2 ^ 64)) g

/-- The sections are applied in TRAINING. -/
def Gikan.cfgApply (g : Gikan) (im : Image) (b : List Byte) : Gikan :=
  let ss := (cfgWalk (b.length / 8 + 1) b 64).1
  let g := ((g.set F.MGT_STATUS_PHASE 4).set F.GLB_FW_CFG_VERSION (field b 8 4)).set F.SEC_STATUS_CFG_SVN im.svn
  let g := { g with mgt := { g.mgt with holdMs := field b 12 4, applied := some im.digest } }
  let g := (ss.filter (fun s => s.type == 1)).foldl (fun h s => h.cfgFabric b (s.off + 8)) g
  (ss.flatMap cfgRecords).foldl (fun h r => h.cfgRecord b r) g

/-- CONFIG_CHECK_END: the image is verified and checked, then applied in TRAINING or left in NO_CONFIG. -/
def Gikan.configCheckEnd (g : Gikan) : Gikan :=
  if g.phase ≠ 2 then g else
  let im := g.mgt.cfg.getD (blankImage 2)
  let c := g.imageCause im [2] cfgSpace
  let refuse := fun (h : Gikan) => (h.set F.MGT_STATUS_PHASE 3).contained 62 0 (offOf F.MGT_STATUS_PHASE)
  if c ≠ 0 then refuse (g.imageRefusal im c)
  else
    let b := im.content.take im.contentBytes
    match cfgCause b with
    | some (k, o) => refuse ((g.set F.MGT_STATUS_CFG_CAUSE k).set F.MGT_STATUS_CFG_OFFSET o)
    | none => g.cfgApply im b

end Sys2Proof.Machine
end

