-- ==== Sys2Proof/Machine/Frames.lean ====
section
/-!
DEFINITION. What every framed unit shares: admission (R29, R30, R166, R199, R230), the end of an item (R31), the tick boundary with all that
takes effect at it (R26, R113, R315, R318, R322, R328, R352, R359, R364, R388), and the samples of the crossbar queue (R318).
-/

namespace Sys2Proof.Machine

/-- What stops in the Hasp state (R344). -/
def Gikan.live (g : Gikan) (f : Gikan → Gikan) : Gikan := if g.hasp then g else f g

/-! Admission -/

/-- Admit the head item of a unit's queue at offset `t`; an add item is formed at its admission, a mover's requests go out at it. -/
def Gikan.admitAt (g : Gikan) (u : UnitId) (t : Nat) : Gikan :=
  match (g.unit u).queue with
  | [] => g
  | i :: _ =>
    let h := g.unitAdmit u t
    if (h.unit u).run.length = (g.unit u).run.length then g
    else
      match i.work with
      | .job kw idx j => if u.cls = .mov then g.itemStep (itemKey u i.work) (fun g => (g.unitAdmit u t).moverIssue kw idx j) else h.readsAdmitted i.work
      | .request id j => h.readsAdmitted (.request id j)
      | w => h.redAdmitted w

/-- ITEM_ADMIT. A pin core's head item goes to one of its threads. -/
def Gikan.itemAdmit (g : Gikan) (u : UnitId) (t : Nat) : Gikan :=
  if !unitExists u then g
  else if u.cls = .pin then g.pinAdmit (u.n / 8) (u.n % 8) t
  else g.admitAt u t

/-- Items above their budget are admitted at the boundary itself (R30). -/
def Gikan.bigAdmits (g : Gikan) : Gikan :=
  let g := g.eng.units.foldl (fun h e =>
    let u := unitOfKey e.1
    match (h.unit u).queue with
    | i :: _ => if h.budget u.cls < i.cost && u.cls != .pin then h.admitAt u 0 else h
    | [] => h) g
  g.pin.cores.foldl (fun h p =>
    match p.2.queue with
    | i :: _ => if h.budget .pin < i.e.cycles then (List.range 8).foldl (fun k t => if (k.pinCore p.1).queue.length = p.2.queue.length then k.pinAdmit p.1 t 0 else k) h else h
    | [] => h) g

/-! The end of an item -/

/-- An item of a gather, filter or matrix engine ends, once its data is there: a tile that waits for keys is counted (R191). -/
def Gikan.ownerItemEnd (g : Gikan) (u : UnitId) (t : Nat) (w : Work) (o : Owner) (i : Nat) : Gikan :=
  if !g.scanTurn o i then g else
  let h := g.asItem (itemKey u w)
  h.settleAlso ((h.unitFinish u t).gfsItemEnd o u i) (fun k => if u.cls = .mtx ∧ i < loadItem then k.keyWait else k)

def Gikan.engineItemEnd (g : Gikan) (u : UnitId) (t : Nat) : Gikan :=
  match g.runHead u with
  | none => g
  | some r =>
    match r.item.work with
    | .job kw idx i => g.ownerItemEnd u t r.item.work (.cmd kw idx) i
    | .request id i => g.ownerItemEnd u t r.item.work (.request id) i
    | _ => g

/-- An item of a mover ends, once nothing it has sent is unanswered. -/
def Gikan.moverItemEnd (g : Gikan) (u : UnitId) (t : Nat) : Gikan :=
  match g.runHead u with
  | none => g
  | some r =>
    match r.item.work with
    | .job kw idx j => if g.moverMayEnd kw idx j then g.itemStep (itemKey u r.item.work) (fun h => (h.unitFinish u t).moverEnd kw idx j) else g
    | _ => g

/-- A lane's item ends. -/
def Gikan.laneItemEnd (g : Gikan) (lane : Nat) : Gikan :=
  match g.runHead ⟨.red, lane⟩ with
  | none => g
  | some r =>
    match r.item.work with
    | .add _ _ _ => g.addItemEnd lane
    | .output _ _ _ => g.outputItemEnd lane
    | .update _ _ _ => g.updateItemEnd lane
    | .relayDown _ _ _ => g.relayDownEnd lane
    | _ => g

/-- ITEM_END at cycle `t` of the frame. A thread's item ends with its kernel, not by this command. -/
def Gikan.itemEnd (g : Gikan) (u : UnitId) (t : Nat) : Gikan :=
  if g.hasp then g else
  match u.cls with
  | .red => g.laneItemEnd u.n
  | .mov => g.moverItemEnd u t
  | .pin => g
  | _ => g.engineItemEnd u t

/-! Samples -/

/-- Temperatures and corrected symbols, once per tick (R352). -/
def Gikan.tickSamples (g : Gikan) : Gikan :=
  let g := (List.range 16).foldl (fun h m =>
    let u := h.get (F.MON_SEL_UNIT m)
    if !h.monRuns m then h
    else if h.get (F.MON_SEL_SRC m) == 8 && decide (u < 42) then h.monTake m (h.tempQ u)
    else if h.get (F.MON_SEL_SRC m) == 4 && decide (u < 256) then h.monTake m (h.flt.fecTick.getD u 0)
    else h) g
  { g with flt := { g.flt with fecTick := [] } }

/-- QUEUE_SAMPLE: while EN is set, and to the monitors of queue depth and head delay (R318, R352). -/
def Gikan.queueSampled (g : Gikan) : Gikan :=
  if g.hasp || !g.on F.XBAR_QSAMPLE_SEL_EN || !g.sampleDue then g else
  let (d, t) := g.queueValues
  ((g.queueSample).monitor 1 none none d).monitor 2 none none t

/-! The boundary -/

/-- What a tick's counts begin anew with (R322, R328). -/
def Gikan.securityTick (g : Gikan) : Gikan := { g with sec := { g.sec with wardTick := 0, wardAlarm := false, viewed := [] } }

/-- What takes effect at a boundary, in the order of the frame it begins. -/
def Gikan.boundary (g : Gikan) : Gikan :=
  let g := (g.shedBoundary).powerBoundary
  let g := (g.pinAllot g.tickFrame).bigAdmits
  let g := (g.tierTick).gateBoundary
  let g := (g.qsampleBoundary).tickSamples
  let g := (List.range 16).foldl (fun h m => h.monTick m) g
  (g.securityTick).nodeSettle

/-- TICK_BOUNDARY, once the frame has ended. In the Hasp state the count alone goes on. -/
def Gikan.tickBoundary (g : Gikan) : Gikan :=
  if !g.boundaryDue then g
  else if g.hasp then let h := g.periodChange.boundaryNumber; { h with req := { h.req with boundaries := h.req.boundaries + 1 } }
  else g.boundary

end Sys2Proof.Machine
end

