-- ==== Sys2Proof/Machine/RowsCoherence.lean ====
section
/-!
DEFINITION. Coherence (R139 to R157).
One meaning per row of the table, over the operations of the chapter.
-/

namespace Sys2Proof.Machine

/-- RD_SHARED: A RD_SHARED from an agent is admitted and queued to obtain a shared copy (R146). -/
def execRdShared (x : Fin 48) (q : Req) (s : State) : Host.Outcome State Fault Refusal := s.done (s.g.rdSharedArrive x.val q)

/-- RD_OWN: A RD_OWN from an agent is admitted and queued to obtain the only copy (R146). -/
def execRdOwn (x : Fin 48) (q : Req) (s : State) : Host.Outcome State Fault Refusal := s.done (s.g.rdOwnArrive x.val q)

/-- UPGRADE: An UPGRADE from an agent is admitted and queued to turn its S copy into the only copy (R146). -/
def execUpgrade (x : Fin 48) (q : Req) (s : State) : Host.Outcome State Fault Refusal := s.done (s.g.upgradeArrive x.val q)

/-- WB_DIRTY: A WB_DIRTY writes back or discards a modified line and is answered with WB_ACK (R146). -/
def execWbDirty (x : Fin 48) (q : Req) (s : State) : Host.Outcome State Fault Refusal := s.done (s.g.wbDirtyArrive x.val q)

/-- COMPLETE: A COMPLETE from the requester closes the transaction once every awaited SNP_RSP has arrived (R146). -/
def execComplete (x : Fin 48) (q : Req) (s : State) : Host.Outcome State Fault Refusal := s.done (s.g.completeArrive x.val q)

/-- SNP_RSP: An SNP_RSP is taken, and any dirty line it carries is written before any GRANT from memory (R147). -/
def execSnpRsp (x : Fin 48) (q : Req) (s : State) : Host.Outcome State Fault Refusal := s.done (s.g.snpRspArrive x.val q)

/-- TRANSACTION_OPEN: The home opens the next queued transaction on a line from the directory entry it then finds (R145). -/
def execTransactionOpen (line : Nat) (dirOk : Bool) (s : State) : Host.Outcome State Fault Refusal := s.done (s.g.transactionOpen line dirOk)

/-- SNOOP_TIMEOUT: When no SNP_RSP arrives by SNOOP_US, the agent is declared dead and the open transaction finishes (R151). -/
def execSnoopTimeout (line node : Nat) (s : State) : Host.Outcome State Fault Refusal := s.done (s.g.snoopTimer line node)

/-- COMPLETE_TIMEOUT: When no COMPLETE arrives by COMPLETE_US, the transaction is closed as if it had (R151). -/
def execCompleteTimeout (line : Nat) (s : State) : Host.Outcome State Fault Refusal := s.done (s.g.completeTimer line)

/-- COH_RECALL_GO: A write of COH_RECALL with GO starts walking the extent's lines that are not in U (R152). -/
def execCohRecallGo (w : RegW) (s : State) : Host.Outcome State Fault Refusal :=
  s.done (s.g.regWrite (offOf F.COH_RECALL_GO) (trig w F.COH_RECALL_GO))

/-- RECALL_DONE: When every line of the recalled extent is U, COH_RECALL_STATUS.DONE is set (R152). -/
def execRecallDone (s : State) : Host.Outcome State Fault Refusal := s.done (s.g.recallEnd)

/-- COH_DEAD_GO: A write of COH_DEAD with GO declares an agent dead and starts the directory sweep (R153). -/
def execCohDeadGo (w : RegW) (s : State) : Host.Outcome State Fault Refusal := s.done (s.g.regWrite (offOf F.COH_DEAD_GO) (trig w F.COH_DEAD_GO))

/-- DEAD_SWEEP_END: The dead-agent sweep ends, DONE is set, the poisoned lines are counted and bit 54 is logged (R153). -/
def execDeadSweepEnd (s : State) : Host.Outcome State Fault Refusal := s.done (s.g.deadSweepEnd)

/-- COH_PEEK_GO: A write of COH_PEEK with GO copies the directory entry of a line into COH_PEEK_DATA0 and COH_PEEK_DATA1 (R142). -/
def execCohPeekGo (w : RegW) (s : State) : Host.Outcome State Fault Refusal := s.done (s.g.regWrite (offOf F.COH_PEEK_GO) (trig w F.COH_PEEK_GO))

/-- COH_AGENT_DATA_WRITE: A write of COH_AGENT_DATA registers nodes as agents, except where a sweep has not reached DONE (R153). -/
def execCohAgentDataWrite (w : RegW) (s : State) : Host.Outcome State Fault Refusal := s.done (s.g.regWrite (offOf F.COH_AGENT_DATA_REGISTERED) w)

/-- COH_CLR_CNT: A write of COH_CTRL.CLR_CNT clears the counters of the COH block (R4). -/
def execCohClrCnt (w : RegW) (s : State) : Host.Outcome State Fault Refusal :=
  s.done (s.g.regWrite (offOf F.COH_CTRL_CLR_CNT) (trig w F.COH_CTRL_CLR_CNT))

end Sys2Proof.Machine
end

