-- ==== Sys2Proof/Machine/RowsEngines.lean ====
section
/-!
DEFINITION. Gather, filter, score, and the expander tables (R182 to R224).
One meaning per row of the table, over the operations of the
chapter.
-/

namespace Sys2Proof.Machine

/-- GATHER: A GATHER command checks its job and pools rows to OUT (R192). -/
def execGather (k : CmdRef) (s : State) : Host.Outcome State Fault Refusal := s.done (s.g.gatherJob k)

/-- FILTER: A FILTER command scans records and writes a compaction or a top-k list to OUT (R193). -/
def execFilter (k : CmdRef) (s : State) : Host.Outcome State Fault Refusal := s.done (s.g.filterJob k)

/-- SCORE: A SCORE command scores its queries against the keys and writes the top-k entries to OUT (R194). -/
def execScore (k : CmdRef) (s : State) : Host.Outcome State Fault Refusal := s.done (s.g.scoreJob k)

/-- SELECTION_ENTRIES_FREE: A waiting SCORE job starts once enough selection entries are free (R191). -/
def execSelectionEntriesFree (k : CmdRef) (s : State) : Host.Outcome State Fault Refusal := s.done (s.g.live (fun g => g.scoreJob k))

/-- MERGE_START: When every tile item has ended, the merge items are formed on the filter engines (R191). -/
def execMergeStart (k : CmdRef) (s : State) : Host.Outcome State Fault Refusal := s.done (s.g.live (fun g => g.mergeStart k))

/-- GFS_CLR_CNT: A write of GFS_CTRL.CLR_CNT clears the counters of the GFS block (R4). -/
def execGfsClrCnt (w : RegW) (s : State) : Host.Outcome State Fault Refusal :=
  s.done (s.g.regWrite (offOf F.GFS_CTRL_CLR_CNT) (trig w F.GFS_CTRL_CLR_CNT))

/-- CMP_TABLE_LOAD_GO: A write of CMP_TABLE_LOAD with GO reads and checks a table image, then loads it or refuses it (R219). -/
def execCmpTableLoadGo (w : RegW) (s : State) : Host.Outcome State Fault Refusal :=
  s.done (s.g.regWrite (offOf F.CMP_TABLE_LOAD_GO) (trig w F.CMP_TABLE_LOAD_GO))

/-- TABLE_SLOT_TAKE: A pending table load takes a slot once the RETIRING slot becomes EMPTY (R220). -/
def execTableSlotTake (s : State) : Host.Outcome State Fault Refusal := s.done (s.g.live (fun g => g.tableSlotTake))

/-- TABLE_LOAD_END: The table is written on every expander, its slot becomes CURRENT, the old slot turns RETIRING, and DONE is set (R219).
-/
def execTableLoadEnd (s : State) : Host.Outcome State Fault Refusal := s.done (s.g.live (fun g => g.tableLoadEnd))

/-- SLOT_EMPTY: A RETIRING slot becomes EMPTY when its count is zero and its queued blocks have been expanded (R220). -/
def execSlotEmpty (table slot : Nat) (s : State) : Host.Outcome State Fault Refusal := s.done (s.g.live (fun g => g.slotEmpty table slot))

/-- TABLE_ECC_ERROR: An uncorrectable error in table memory turns the slot EMPTY on every expander and logs bit 51 (R221). -/
def execTableEccError (table slot : Nat) (s : State) : Host.Outcome State Fault Refusal := s.done (s.g.tableEcc table slot)

/-- CMP_CLR_CNT: A write of CMP_CTRL.CLR_CNT clears the counters of the CMP block (R4). -/
def execCmpClrCnt (w : RegW) (s : State) : Host.Outcome State Fault Refusal :=
  s.done (s.g.regWrite (offOf F.CMP_CTRL_CLR_CNT) (trig w F.CMP_CTRL_CLR_CNT))

end Sys2Proof.Machine
end

