-- ==== Sys2Proof/Machine/RowsFaults.lean ====
section
/-!
DEFINITION. Faults, fencing, checked units and monitors (R339 to R355).
One meaning per row of the table, over the operations of the
chapter.
-/

namespace Sys2Proof.Machine

/-- FAULT_EVENT: An error-line event sets Fault Word bits, is counted and records a syndrome by class (R339). -/
def execFaultEvent (group : Fin 64) (cls : FClass) (unit reg others : Nat) (s : State) : Host.Outcome State Fault Refusal :=
  s.done (s.g.faultEvent group.val cls unit reg others)

/-- COLLECTOR_FAULT: An error in the collector's own state enters the Hasp state at once with CAUSE 2 (R342). -/
def execCollectorFault (s : State) : Host.Outcome State Fault Refusal := s.done (s.g.collectorFault)

/-- FLT_FENCE_GO: A write of FLT_FENCE with GO fences a unit and moves its queued work, or is refused (R346). -/
def execFltFenceGo (w : RegW) (s : State) : Host.Outcome State Fault Refusal := s.done (s.g.regWrite (offOf F.FLT_FENCE_GO) (trig w F.FLT_FENCE_GO))

/-- FLT_UNFENCE: A write of FLT_FENCE with UNFENCE and GO returns a unit to service and zeroes its mismatch count (R346). -/
def execFltUnfence (w : RegW) (s : State) : Host.Outcome State Fault Refusal :=
  s.done (s.g.regWrite (offOf F.FLT_FENCE_GO) (trig (trig w F.FLT_FENCE_UNFENCE) F.FLT_FENCE_GO))

/-- CHECK_RUN: The checker re-executes a sampled item in guard or idle cycles and compares the results bit for bit (R348). -/
def execCheckRun (u : UnitId) (checkerAgrees thirdWithUnit thirdWithChecker : Bool) (s : State) : Host.Outcome State Fault Refusal :=
  s.done (s.g.checkRun u checkerAgrees thirdWithUnit thirdWithChecker)

/-- CHECK_DROP: A check not started within WAIT_FRAMES is dropped and counted as skipped (R348). -/
def execCheckDrop (u : UnitId) (s : State) : Host.Outcome State Fault Refusal := s.done (s.g.checkDrop u)

/-- FLT_TEST_ENTER: A write of FLT_TEST.ENTER checks the test token and enters factory test mode, or is refused (R353). -/
def execFltTestEnter (w : RegW) (s : State) : Host.Outcome State Fault Refusal :=
  s.done (s.g.regWrite (offOf F.FLT_TEST_ENTER) (trig w F.FLT_TEST_ENTER))

/-- FLT_INJECT_GO: In factory test mode, FLT_INJECT with GO raises an event on the named group, class and unit (R354). -/
def execFltInjectGo (w : RegW) (s : State) : Host.Outcome State Fault Refusal :=
  s.done (s.g.regWrite (offOf F.FLT_INJECT_GO) (trig w F.FLT_INJECT_GO))

/-- FLT_INJECT_MISCOMPARE: In factory test mode, FLT_INJECT with MISCOMPARE makes the next sampled item of the unit mismatch (R354). -/
def execFltInjectMiscompare (w : RegW) (s : State) : Host.Outcome State Fault Refusal :=
  s.done (s.g.regWrite (offOf F.FLT_INJECT_MISCOMPARE) (trig w F.FLT_INJECT_MISCOMPARE))

/-- MONITOR_WINDOW_END: After WINDOW_TICKS, a monitor latches its histogram, minimum, maximum and count, and restarts (R352). -/
def execMonitorWindowEnd (m : Fin 16) (s : State) : Host.Outcome State Fault Refusal := s.done (s.g.monEnd m.val)

/-- FLT_CLR_CNT: A write of FLT_CTRL.CLR_CNT clears the FLT counters (R4). -/
def execFltClrCnt (w : RegW) (s : State) : Host.Outcome State Fault Refusal :=
  s.done (s.g.regWrite (offOf F.FLT_CTRL_CLR_CNT) (trig w F.FLT_CTRL_CLR_CNT))

end Sys2Proof.Machine
end

