-- ==== Sys2Proof/Machine/RowsKeyways.lean ====
section
/-!
DEFINITION. Keyways and their commands (R252 to R277).
One meaning per row of the table, over the operations of the chapter.
-/

namespace Sys2Proof.Machine

/-- KEYWAY_WRITE: A write into a landing zone of a Keyway aperture marks words and fills the zone (R254). -/
def execKeywayWrite (bus : Bus) (off width : Nat) (data : Word) (s : State) : Host.Outcome State Fault Refusal :=
  s.done (s.g.keywayWrite bus off width data.toNat)

/-- HELD_ZONE_ACCEPT: A HELD zone's packet is accepted when a Keyway entry frees (R254). -/
def execHeldZoneAccept (c : Fin 16) (z : Fin 8) (s : State) : Host.Outcome State Fault Refusal := s.done (s.g.heldZone c.val z.val)

/-- ZONE_TIMEOUT: A zone still FILLING after ZONE_TIMEOUT_US is emptied and counted in ABANDONED (R254). -/
def execZoneTimeout (c : Fin 16) (z : Fin 8) (s : State) : Host.Outcome State Fault Refusal := s.done (s.g.live (fun g => g.zoneTimeout c.val z.val))

/-- MOVE: A MOVE command copies, or expands, bytes from SRC to DST in mover items (R261). -/
def execMove (k : CmdRef) (s : State) : Host.Outcome State Fault Refusal := s.done (s.g.moverStart k opMOVE)

/-- FILL: A FILL command writes a repeating 8-byte pattern over DST (R260). -/
def execFill (k : CmdRef) (s : State) : Host.Outcome State Fault Refusal := s.done (s.g.moverStart k opFILL)

/-- PUBLISH_COMMAND: A PUBLISH command reads its payload and sends one PUBLISH request (R262). -/
def execPublishCommand (k : CmdRef) (s : State) : Host.Outcome State Fault Refusal := s.done (s.g.publishCommand k)

/-- SCHEDULE: A SCHEDULE command reads a schedule body and takes it or refuses it (R264). -/
def execSchedule (k : CmdRef) (s : State) : Host.Outcome State Fault Refusal := s.done (s.g.scheduleCommand k)

/-- LEND_COMMAND: A LEND command with ACTION LEND sends LEND for a range of this Gikan's stacks (R263). -/
def execLendCommand (k : CmdRef) (s : State) : Host.Outcome State Fault Refusal := s.done (s.g.lendCommand k)

/-- RECLAIM_COMMAND: A LEND command with ACTION RECLAIM sends RECLAIM, resending on TIMEOUT (R263). -/
def execReclaimCommand (k : CmdRef) (s : State) : Host.Outcome State Fault Refusal := s.done (s.g.reclaimCommand k)

/-- FENCE_COMMAND: A FENCE command waits for earlier commands, fences per R53, and optionally sends FENCE packets (R265). -/
def execFenceCommand (k : CmdRef) (s : State) : Host.Outcome State Fault Refusal := s.done (s.g.fenceCommand k)

/-- TRANSLATION_END: A VA command's page walks end, and its pages are written into the descriptor or the command faults (R273). -/
def execTranslationEnd (k : CmdRef) (s : State) : Host.Outcome State Fault Refusal := s.done (s.g.translationEnd k)

/-- PAGES_RESIDENT: A FAULTED command leaves FAULTED once every pinned page is resident and the pin room fits (R275). -/
def execPagesResident (k : CmdRef) (s : State) : Host.Outcome State Fault Refusal := s.done (s.g.pagesResident k)

/-- HOST_FILL_END: A host-window frame's granules for the command have arrived, and the command becomes READY (R276). -/
def execHostFillEnd (k : CmdRef) (granules : List (Nat × List Byte)) (s : State) : Host.Outcome State Fault Refusal :=
  s.done (s.g.hostFillEnd k granules)

/-- AFTER_RELEASE: A command with AFTER leaves READY once every earlier command in its Keyway is COMPLETE (R256). -/
def execAfterRelease (k : CmdRef) (s : State) : Host.Outcome State Fault Refusal := s.done (s.g.live (fun g => g.afterRelease k))

/-- COMMAND_COMPLETE: Once its writes have taken effect and its requests are answered, a command writes its record and frees its entry
(R255). -/
def execCommandComplete (k : CmdRef) (s : State) : Host.Outcome State Fault Refusal := s.done (s.g.commandComplete k)

/-- SUB_CQ_HEAD_WRITE: A write of a completion queue's HEAD frees ring room, re-arms the queue and may send a message at once (R269). -/
def execSubCqHeadWrite (w : RegW) (s : State) : Host.Outcome State Fault Refusal := s.done (s.g.regWrite (offOf (F.SUB_Q_HEAD_HEAD 0)) w)

/-- SUB_MQ_HEAD_WRITE: A write of a message queue's HEAD frees slots and re-arms the queue (R270). -/
def execSubMqHeadWrite (w : RegW) (s : State) : Host.Outcome State Fault Refusal := s.done (s.g.regWrite (offOf (F.SUB_Q_HEAD_HEAD 1)) w)

/-- SUB_XLATE_INVAL_GO: A write of SUB_XLATE_INVAL with GO drops the matching walk-cache entries (R277). -/
def execSubXlateInvalGo (w : RegW) (s : State) : Host.Outcome State Fault Refusal :=
  s.done (s.g.regWrite (offOf F.SUB_XLATE_INVAL_GO) (trig w F.SUB_XLATE_INVAL_GO))

/-- XLATE_INVAL_DONE: Once the walks in progress at the write have ended, DONE is set (R277). -/
def execXlateInvalDone (s : State) : Host.Outcome State Fault Refusal := s.done (s.g.live (fun g => g.xlateInvalDone))

/-- SUB_CLR_CNT: A write of SUB_CTRL.CLR_CNT clears the counters of the SUB block (R4). -/
def execSubClrCnt (w : RegW) (s : State) : Host.Outcome State Fault Refusal :=
  s.done (s.g.regWrite (offOf F.SUB_CTRL_CLR_CNT) (trig w F.SUB_CTRL_CLR_CNT))

end Sys2Proof.Machine
end

