-- ==== Sys2Proof/Machine/RowsLinks.lean ====
section
/-!
DEFINITION. Links and optics (R278 to R304).
One meaning per row of the table, over the operations of the chapter.
-/

namespace Sys2Proof.Machine

/-- DATA_FLIT: A received DATA flit is accepted in sequence and its slots are passed on, or it is discarded and a NAK is raised (R285). -/
def execDataFlit (p : Fin 32) (f : Flit) (s : State) : Host.Outcome State Fault Refusal := s.done (s.g.dataFlit p.val f)

/-- IDLE_FLIT: A received IDLE flit updates the acknowledgement and credit fields only (R281). -/
def execIdleFlit (p : Fin 32) (f : Flit) (s : State) : Host.Outcome State Fault Refusal := s.done (s.g.idleFlit p.val f)

/-- REPLAY_TIMEOUT: When the oldest held flit has waited REPLAY_NS without an acknowledgement advancing, the sender replays (R286). -/
def execReplayTimeout (p : Fin 32) (s : State) : Host.Outcome State Fault Refusal := s.done (s.g.replayTimeout p.val)

/-- NAK_TIMEOUT: When no flit with the expected SEQ arrives within NAK_NS, the receiver sends NAK again (R285). -/
def execNakTimeout (p : Fin 32) (s : State) : Host.Outcome State Fault Refusal := s.done (s.g.nakTimeout p.val)

/-- PARAM_SEND: Every 100 µs in PARAM, each side sends a PARAM LCTL flit (R292). -/
def execParamSend (p : Fin 32) (s : State) : Host.Outcome State Fault Refusal := s.done (s.g.paramSend p.val)

/-- PARAM: A received PARAM is checked, and the port leaves for ACTIVE, QUARANTINE, BACKOFF or DOWN once both sides have SEEN set (R293). -/
def execParam (p : Fin 32) (m : ParamMsg) (s : State) : Host.Outcome State Fault Refusal := s.done (s.g.paramIn p.val m)

/-- LANE_STATUS_SEND: Every 1 ms the receiver sends a LANE_STATUS flit with OMA and FFE requests (R298). -/
def execLaneStatusSend (p : Fin 32) (s : State) : Host.Outcome State Fault Refusal := s.done (s.g.laneStatusSend p.val)

/-- LANE_STATUS: A received LANE_STATUS steps the transmitter FFE and records the partner's RX_OMA (R298). -/
def execLaneStatus (p : Fin 32) (m : LaneStatusMsg) (s : State) : Host.Outcome State Fault Refusal := s.done (s.g.laneStatusIn p.val m)

/-- LINK_LIGHT: Light above −12 dBm for 10 µs on L0–L1 moves a port from SIGNAL to LOCK (R290). -/
def execLinkLight (p : Fin 32) (s : State) : Host.Outcome State Fault Refusal := s.done (s.g.linkLight p.val)

/-- CODEWORD_LOCK: Codeword lock on the lit lanes moves the port from LOCK to TRAIN (R290). -/
def execCodewordLock (p : Fin 32) (s : State) : Host.Outcome State Fault Refusal := s.done (s.g.codewordLock p.val)

/-- TRAIN_DONE: Training ends, the width is agreed, and the port moves to PARAM (R291). -/
def execTrainDone (p : Fin 32) (own partner : BitVec 8) (s : State) : Host.Outcome State Fault Refusal :=
  s.done (s.g.trainDone p.val own.toNat partner.toNat)

/-- LINK_STATE_TIMEOUT: A bring-up state that passes its limit goes to BACKOFF and records DOWN_CAUSE (R290). -/
def execLinkStateTimeout (p : Fin 32) (s : State) : Host.Outcome State Fault Refusal := s.done (s.g.linkStateTimeout p.val)

/-- BACKOFF_END: At the end of the backoff interval the port returns to SIGNAL (R290). -/
def execBackoffEnd (p : Fin 32) (s : State) : Host.Outcome State Fault Refusal := s.done (s.g.backoffEnd p.val)

/-- LANE_LOSS: A lane loses lock or light, and the port retrains with cause 1 (R297). -/
def execLaneLoss (p : Fin 32) (lane : Fin 8) (s : State) : Host.Outcome State Fault Refusal := s.done (s.g.laneLoss p.val lane.val)

/-- LASER_FEED_LOSS: A feed below +14 dBm for 100 µs is lost, and its two ports retrain with cause 7 (R300). -/
def execLaserFeedLoss (t : Fin 4) (f : Fin 4) (s : State) : Host.Outcome State Fault Refusal := s.done (s.g.laserFeedLoss t.val f.val)

/-- LASER_FEED_RETURN: A lost feed regains power, and its ports may leave SIGNAL (R300). -/
def execLaserFeedReturn (t : Fin 4) (f : Fin 4) (s : State) : Host.Outcome State Fault Refusal := s.done (s.g.laserFeedReturn t.val f.val)

/-- LASER_LOOP: Every 10 ms the feed's setpoint is raised or lowered from the lowest partner OMA, and CHANGED is set (R301). -/
def execLaserLoop (t : Fin 4) (f : Fin 4) (s : State) : Host.Outcome State Fault Refusal := s.done (s.g.laserLoop t.val f.val)

/-- LNK_RETRAIN_WRITE: A write of LNK_CTRL.RETRAIN restarts the port at SIGNAL (R297). -/
def execLnkRetrainWrite (w : RegW) (p : Fin 32) (s : State) : Host.Outcome State Fault Refusal :=
  s.done (s.g.regWrite (offOf (F.LNK_CTRL_RETRAIN p.val)) (trig w (F.LNK_CTRL_RETRAIN p.val)))

/-- LNK_ENABLE_WRITE: Clearing LNK_CTRL.ENABLE leads the port to DISABLED; setting it moves a DOWN port to SIGNAL (R297). -/
def execLnkEnableWrite (w : RegW) (p : Fin 32) (s : State) : Host.Outcome State Fault Refusal :=
  s.done (s.g.regWrite (offOf (F.LNK_CTRL_ENABLE p.val)) w)

/-- LNK_CLR_CNT: A write of LNK_CTRL.CLR_CNT clears the counters of the port (R4). -/
def execLnkClrCnt (w : RegW) (p : Fin 32) (s : State) : Host.Outcome State Fault Refusal :=
  s.done (s.g.regWrite (offOf (F.LNK_CTRL_CLR_CNT p.val)) (trig w (F.LNK_CTRL_CLR_CNT p.val)))

/-- FLIT_SEND: At each flit time a port sends one flit, a new or replayed DATA flit, a TSYNC, LCTL or IDLE flit, carrying its current
ACK_SEQ and rotating credit fields and holding DATA flits in the replay buffer (R281). -/
def execFlitSend (p : Fin 32) (s : State) : Host.Outcome State Fault Refusal := s.done (s.g.flitSend p.val)

end Sys2Proof.Machine
end

