-- ==== Sys2Proof/Machine/RowsManagement.lean ====
section
/-!
DEFINITION. Start, configuration, the seal, updates, ownership, windows, PCIe and I3C (R372 to R390).
One meaning per row of the table, over
the operations of the chapter.
-/

namespace Sys2Proof.Machine

/-- POWER_ON_RESET: Supplies applied restart the part at the boot ROM, and the Hasp record is lost (R372). -/
def execPowerOnReset (trayId : BitVec 6) (factoryTest : Bool) (s : State) : Host.Outcome State Fault Refusal :=
  s.done (s.g.powerOnReset trayId.toNat factoryTest)

/-- RESET_N: Deassertion of RESET_N after it was held restarts the part at the boot ROM and latches the straps (R372). -/
def execResetN (trayId : BitVec 6) (factoryTest : Bool) (vddIoHeld : Bool) (s : State) : Host.Outcome State Fault Refusal :=
  s.done (s.g.resetN trayId.toNat factoryTest vddIoHeld)

/-- I3C_TARGET_RESET: An I3C target reset pattern with RSTACT 0x01 restarts the part (R372). -/
def execI3cTargetReset (s : State) : Host.Outcome State Fault Refusal := s.done (s.g.i3cTargetReset)

/-- MGT_RESET_GO: A write of MGT_RESET with KEY 0xA5 and GO resets the Gikan (R372). -/
def execMgtResetGo (w : RegW) (s : State) : Host.Outcome State Fault Refusal := s.done (s.g.regWrite (offOf F.MGT_RESET_GO) (trig w F.MGT_RESET_GO))

/-- BOOT_ROM_END: The boot ROM finishes firmware verification and DICE layer 0, and enters CONFIG or RECOVERY (R373). -/
def execBootRomEnd (fusesOk : Bool) (s : State) : Host.Outcome State Fault Refusal := s.done (s.g.bootRomEnd fusesOk)

/-- CONFIG_CHECK_END: The configuration image is verified and checked, then applied in TRAINING or left in NO_CONFIG (R380). -/
def execConfigCheckEnd (s : State) : Host.Outcome State Fault Refusal := s.done (s.g.configCheckEnd)

/-- MGT_SEAL_GO: A write of MGT_SEAL.GO seals, or sets PENDING before STAMPED (R381). -/
def execMgtSealGo (w : RegW) (s : State) : Host.Outcome State Fault Refusal := s.done (s.g.regWrite (offOf F.MGT_SEAL_GO) (trig w F.MGT_SEAL_GO))

/-- SEAL_HOLD_EXPIRY: HOLD_MS after STAMPED, the Gikan seals (R381). -/
def execSealHoldExpiry (s : State) : Host.Outcome State Fault Refusal := s.done (s.g.sealHoldExpiry)

/-- MGT_UPD_GO: A write of MGT_UPD with GO reads and verifies an image from host memory, or refuses it (R382). -/
def execMgtUpdGo (w : RegW) (image : Option Image) (s : State) : Host.Outcome State Fault Refusal :=
  s.done (s.g.gated w.bus (offOf F.MGT_UPD_GO) (fun g => g.wrUpd (trig w F.MGT_UPD_GO) image))

/-- UPDATE_END: The boot-flash area is erased, programmed and compared, and DONE is set (R382). -/
def execUpdateEnd (flashOk : Bool) (s : State) : Host.Outcome State Fault Refusal := s.done (s.g.flashUpdateEnd flashOk)

/-- MGT_BOOT_CONFIRM: A write of MGT_BOOT.CONFIRM makes the trial slot ACTIVE in a new boot record (R375). -/
def execMgtBootConfirm (w : RegW) (s : State) : Host.Outcome State Fault Refusal :=
  s.done (s.g.regWrite (offOf F.MGT_BOOT_CONFIRM) (trig w F.MGT_BOOT_CONFIRM))

/-- MGT_BOOT_SET_TRIAL: A write of MGT_BOOT.SET_TRIAL writes a record with a trial of TARGET and ATTEMPTS 3, or is refused (R375). -/
def execMgtBootSetTrial (w : RegW) (s : State) : Host.Outcome State Fault Refusal :=
  s.done (s.g.regWrite (offOf F.MGT_BOOT_SET_TRIAL) (trig w F.MGT_BOOT_SET_TRIAL))

/-- MGT_OWNER_CLAIM: A CLAIM takes ownership for the writing port, or renews its lease (R385). -/
def execMgtOwnerClaim (w : RegW) (s : State) : Host.Outcome State Fault Refusal :=
  s.done (s.g.regWrite (offOf F.MGT_OWNER_CLAIM) (trig w F.MGT_OWNER_CLAIM))

/-- MGT_OWNER_RELEASE: A RELEASE from the holder ends ownership (R385). -/
def execMgtOwnerRelease (w : RegW) (s : State) : Host.Outcome State Fault Refusal :=
  s.done (s.g.regWrite (offOf F.MGT_OWNER_RELEASE) (trig w F.MGT_OWNER_RELEASE))

/-- LEASE_LAPSE: The holder's lease of LEASE_MS lapses (R385). -/
def execLeaseLapse (s : State) : Host.Outcome State Fault Refusal := s.done (s.g.leaseLapse)

/-- BAR4_READ: A BAR4 memory read TLP becomes a window READ, and its completion returns the data or all ones (R384). -/
def execBar4Read (side : Side) (off length : Nat) (s : State) : Host.Outcome State Fault Refusal := s.done (s.g.bar4Read side off length)

/-- BAR4_WRITE: A BAR4 memory write TLP becomes a window WRITE (R384). -/
def execBar4Write (side : Side) (off : Nat) (data : List Byte) (s : State) : Host.Outcome State Fault Refusal := s.done (s.g.bar4Write side off data)

/-- PCIE_LINK_DOWN: A PCIe port's link going down, or PERST asserted, logs bit 56 or 57 and ends its host-tier work (R383). -/
def execPcieLinkDown (side : Side) (perst : Bool) (s : State) : Host.Outcome State Fault Refusal := s.done (s.g.pcieLinkDown side perst)

/-- PERST_DEASSERT: When PERST deasserts, the PCIe port retrains (R383). -/
def execPerstDeassert (side : Side) (s : State) : Host.Outcome State Fault Refusal := s.done (s.g.perstDeassert side)

/-- ENTDAA: While SEQ_IN is high, the Gikan takes a dynamic address, drives SEQ_OUT high and takes a provisional node number (R387). -/
def execEntdaa (da : BitVec 7) (s : State) : Host.Outcome State Fault Refusal := s.done (s.g.entdaa da.toNat)

/-- RSTDAA: RSTDAA drops the dynamic address and drives SEQ_OUT low (R387). -/
def execRstdaa (s : State) : Host.Outcome State Fault Refusal := s.done (s.g.rstdaa)

/-- ENEC: ENEC enables in-band interrupts (R390). -/
def execEnec (s : State) : Host.Outcome State Fault Refusal := s.done (s.g.enec)

/-- DISEC: DISEC disables in-band interrupts (R386). -/
def execDisec (s : State) : Host.Outcome State Fault Refusal := s.done (s.g.disec)

/-- GETPID: GETPID returns the provisional ID (R386). -/
def execGetpid (s : State) : Host.Outcome State Fault Refusal := s.done (s.g.getpid)

/-- GETBCR: GETBCR returns the bus characteristics register (R386). -/
def execGetbcr (s : State) : Host.Outcome State Fault Refusal := s.done (s.g.getbcr)

/-- GETDCR: GETDCR returns the device characteristics register (R386). -/
def execGetdcr (s : State) : Host.Outcome State Fault Refusal := s.done (s.g.getdcr)

/-- GETSTATUS: GETSTATUS returns the target status (R386). -/
def execGetstatus (s : State) : Host.Outcome State Fault Refusal := s.done (s.g.getstatus)

/-- I3C_PRIVATE_READ: A private read with command 0x01 returns the 8 bytes of a BAR0 register (R389). -/
def execI3cPrivateRead (off : Nat) (s : State) : Host.Outcome State Fault Refusal := s.done (s.g.i3cRead off)

/-- I3C_PRIVATE_WRITE: A private write with command 0x02 writes a permitted register, or is ignored and counted (R389). -/
def execI3cPrivateWrite (off : Nat) (data : Word) (s : State) : Host.Outcome State Fault Refusal := s.done (s.g.i3cWrite off data)

/-- GLB_NODE_WRITE: A write of GLB_NODE.NODE assigns the node number, taking effect at the next tick boundary (R388). -/
def execGlbNodeWrite (w : RegW) (s : State) : Host.Outcome State Fault Refusal := s.done (s.g.regWrite (offOf F.GLB_NODE_NODE) w)

/-- PCIE_LINK_UP: A PCIe port finishes link training after PERST deasserts or after a link loss, and its function, window and message
traffic resume (R383). -/
def execPcieLinkUp (side : Side) (s : State) : Host.Outcome State Fault Refusal := s.done (s.g.pcieLinkUp side)

/-- PCIE_CONFIG_WRITE: A PCIe configuration write changes function state, such as the MSI-X function mask or the D0 or D3hot power state,
and clearing a mask releases pending messages (R383). -/
def execPcieConfigWrite (side : Side) (c : CfgWrite) (s : State) : Host.Outcome State Fault Refusal := s.done (s.g.pcieConfigWrite side c)

end Sys2Proof.Machine
end

