-- ==== Sys2Proof/Machine/RowsMaps.lean ====
section
/-!
DEFINITION. Extent maps, epochs, revocation and handover (R66 to R85).
One meaning per row of the table, over the operations of the chapter.
-/

namespace Sys2Proof.Machine

/-- MAP_STAGE_STORE: A write of MAP_STAGE_DATA3, or of DATA0 with ROUTE set, stores a staging entry and advances INDEX, unless a commit is
armed (R71). -/
def execMapStageStore (w : RegW) (n : Fin 4) (s : State) : Host.Outcome State Fault Refusal := s.done (s.g.regWrite (0x300030 + 8 * n.val) w)

/-- MAP_ARM_WRITE: A write of MAP_ARM disarms any armed commit, then validates the staging tables and arms or refuses the new commit (R72).
-/
def execMapArmWrite (w : RegW) (s : State) : Host.Outcome State Fault Refusal := s.done (s.g.regWrite (offOf F.MAP_ARM_COMMIT_AT) w)

/-- MAP_COMMIT: At the COMMIT_AT boundary the staged tables become the current map and the Hinge opens (R74). -/
def execMapCommit (s : State) : Host.Outcome State Fault Refusal := s.done (s.g.live (fun g => g.mapCommit))

/-- JOIN_COMMIT: At the COMMIT_AT boundary of a join commit, the staged map replaces the current map at the fabric's epoch with no Hinge
(R76). -/
def execJoinCommit (s : State) : Host.Outcome State Fault Refusal := s.done (s.g.live (fun g => g.joinCommit))

/-- HINGE_RETIRE: After the minimum hold, in the first cycle with a zero previous-epoch count, the previous map retires (R75). -/
def execHingeRetire (s : State) : Host.Outcome State Fault Refusal := s.done (s.g.live (fun g => g.hingeRetire))

/-- HINGE_TIMEOUT: At the Hinge timeout, the previous-epoch requests still counted are answered STALE_EPOCH and the previous map retires
(R75). -/
def execHingeTimeout (s : State) : Host.Outcome State Fault Refusal := s.done (s.g.live (fun g => g.hingeTimeout))

/-- MAP_QUIESCE_WRITE: A write of MAP_QUIESCE.CMPT_MASK starts refusing requests to seated extents of the masked compartments (R78). -/
def execMapQuiesceWrite (w : RegW) (s : State) : Host.Outcome State Fault Refusal := s.done (s.g.regWrite (offOf F.MAP_QUIESCE_CMPT_MASK) w)

/-- QUIESCE_DONE: When no request remains on a masked seated extent, the Gikan sets MAP_QUIESCE.DONE (R78). -/
def execQuiesceDone (s : State) : Host.Outcome State Fault Refusal := s.done (s.g.live (fun g => g.quiesceDone))

/-- MAP_REVOKE_GO: A write of MAP_REVOKE with GO commits a revoke and begins draining the extent's admitted requests (R79). -/
def execMapRevokeGo (w : RegW) (s : State) : Host.Outcome State Fault Refusal :=
  s.done (s.g.regWrite (offOf F.MAP_REVOKE_GO) (trig w F.MAP_REVOKE_GO))

/-- REVOKE_DONE: When the revoke's PENDING count reaches zero, the Gikan sets DONE (R80). -/
def execRevokeDone (s : State) : Host.Outcome State Fault Refusal := s.done (s.g.live (fun g => g.revokeDone))

/-- REVOKE_DRAIN_TIMEOUT: At DRAIN_US, the pending requests are aborted REVOKED, DONE and ABORTED are set, and bit 62 is logged (R80). -/
def execRevokeDrainTimeout (s : State) : Host.Outcome State Fault Refusal := s.done (s.g.live (fun g => g.revokeTimeout))

/-- HANDOVER_SEND: Once no previous-epoch request on the extent remains at A, A stops executing on it, resends the copied lines and sends
HANDOVER (R82). -/
def execHandoverSend (entry : Nat) (s : State) : Host.Outcome State Fault Refusal := s.done (s.g.live (fun g => g.handoverSend entry))

/-- HANDOVER: B receives HANDOVER, takes the token, answers HANDOVER_ACK and executes its held requests, or answers TIMEOUT after the
deadline (R82). -/
def execHandover (x : Fin 48) (q : Req) (s : State) : Host.Outcome State Fault Refusal := s.done (s.g.handover x.val q)

/-- HANDOVER_ACK: A receives HANDOVER_ACK, gives up the token and sends its held requests to B (R82). -/
def execHandoverAck (x : Fin 48) (r : Resp) (s : State) : Host.Outcome State Fault Refusal := s.done (s.g.handoverAck x.val r)

/-- HANDOVER_RESEND: A resends HANDOVER once per tick until the ACK or a HOME_REVERT arrives (R82). -/
def execHandoverResend (entry : Nat) (s : State) : Host.Outcome State Fault Refusal := s.done (s.g.live (fun g => g.handResend tyHANDOVER entry))

/-- HANDOVER_DEADLINE: When the deadline passes without HANDOVER, B answers its held requests BUSY_RETRY and sends HOME_REVERT (R82). -/
def execHandoverDeadline (entry : Nat) (s : State) : Host.Outcome State Fault Refusal := s.done (s.g.live (fun g => g.handoverDeadline entry))

/-- HOME_REVERT: A receives HOME_REVERT, keeps the token, resumes execution and counts the reversion (R82). -/
def execHomeRevert (x : Fin 48) (q : Req) (s : State) : Host.Outcome State Fault Refusal := s.done (s.g.homeRevert x.val q)

/-- HOME_REVERT_RESEND: B resends HOME_REVERT once per tick until the 0xC1 response arrives (R82). -/
def execHomeRevertResend (entry : Nat) (s : State) : Host.Outcome State Fault Refusal := s.done (s.g.live (fun g => g.handResend tyREVERT entry))

/-- MAP_CLR_CNT: A write of MAP_CTRL.CLR_CNT clears MAP_EVENTS, MAP_EVENTS2 and MAP_DUP (R4). -/
def execMapClrCnt (w : RegW) (s : State) : Host.Outcome State Fault Refusal :=
  s.done (s.g.regWrite (offOf F.MAP_CTRL_CLR_CNT) (trig w F.MAP_CTRL_CLR_CNT))

end Sys2Proof.Machine
end

