-- ==== Sys2Proof/Machine/RowsPin.lean ====
section
/-!
DEFINITION. Pin cores and kernel images (R225 to R251).
One meaning per row of the table, over the operations of the chapter.
-/

namespace Sys2Proof.Machine

/-- COMPARTMENT_SWITCH: Once all threads are idle, a core clears scratch and registers and takes the compartment of the head item (R231). -/
def execCompartmentSwitch (core : Fin 2048) (s : State) : Host.Outcome State Fault Refusal := s.done (s.g.compartmentSwitch core.val)

/-- KILL: A kernel still running KILL_FRAMES after its last frame is stopped with the KILL exception (R237). -/
def execKill (core : Fin 2048) (t : Fin 8) (s : State) : Host.Outcome State Fault Refusal := s.done (s.g.kill core.val t.val)

/-- PIN_IMAGE_LOAD_GO: A write of PIN_IMAGE_LOAD with GO checks a kernel image and starts loading it (R249). -/
def execPinImageLoadGo (w : RegW) (s : State) : Host.Outcome State Fault Refusal :=
  s.done (s.g.regWrite (offOf F.PIN_IMAGE_LOAD_GO) (trig w F.PIN_IMAGE_LOAD_GO))

/-- IMAGE_LOAD_END: Code words are written to every code store, the entries are registered, the slot becomes VALID, and DONE is set (R249).
-/
def execImageLoadEnd (s : State) : Host.Outcome State Fault Refusal := s.done (s.g.live (fun g => g.imageLoadEnd))

/-- PIN_IMAGE_UNLOAD: A write of PIN_IMAGE_LOAD with UNLOAD unregisters the slot's entries and makes the slot UNLOADING (R250). -/
def execPinImageUnload (w : RegW) (s : State) : Host.Outcome State Fault Refusal :=
  s.done (s.g.regWrite (offOf F.PIN_IMAGE_LOAD_UNLOAD) (trig w F.PIN_IMAGE_LOAD_UNLOAD))

/-- UNLOAD_END: When PIN_SLOT_REFS reaches zero, the code range is freed, VALID clears, and DONE is set (R250). -/
def execUnloadEnd (s : State) : Host.Outcome State Fault Refusal := s.done (s.g.live (fun g => g.unloadEnd))

/-- RUN: A RUN command checks its descriptor and queues COUNT kernel instances (R252). -/
def execRun (k : CmdRef) (s : State) : Host.Outcome State Fault Refusal := s.done (s.g.runCommand k)

/-- PIN_CLR_CNT: A write of PIN_CTRL.CLR_CNT clears the counters of the PIN block (R4). -/
def execPinClrCnt (w : RegW) (s : State) : Host.Outcome State Fault Refusal :=
  s.done (s.g.regWrite (offOf F.PIN_CTRL_CLR_CNT) (trig w F.PIN_CTRL_CLR_CNT))

end Sys2Proof.Machine
end

