-- ==== Sys2Proof/Machine/RowsPower.lean ====
section
/-!
DEFINITION. Power states, budgets, supply and temperature (R356 to R371).
One meaning per row of the table, over the operations of the
chapter.
-/

namespace Sys2Proof.Machine

/-- POWER_STATE_MOVE: At a tick boundary the Gikan moves to the target power state that budgets and idle conditions allow (R358). -/
def execPowerStateMove (s : State) : Host.Outcome State Fault Refusal := s.done (s.g.powerStateMove)

/-- POWER_EXIT_END: The exit to Q0 ends and the held work proceeds (R360). -/
def execPowerExitEnd (s : State) : Host.Outcome State Fault Refusal := s.done (s.g.powerExitEnd)

/-- SLEEP: A received SLEEP message schedules decoding at width 2 from flit time AT (R361). -/
def execSleep (p : Fin 32) (flitTime : Nat) (s : State) : Host.Outcome State Fault Refusal := s.done (s.g.sleepIn p.val flitTime false)

/-- WAKE: A received WAKE message schedules decoding at the agreed width from AT (R361). -/
def execWake (p : Fin 32) (flitTime : Nat) (s : State) : Host.Outcome State Fault Refusal := s.done (s.g.sleepIn p.val flitTime true)

/-- NARROW_AT: At flit time AT, the port's direction changes width, or retrains when the lanes are not ready (R361). -/
def execNarrowAt (p : Fin 32) (tx : Bool) (lanesReady : Bool) (s : State) : Host.Outcome State Fault Refusal :=
  s.done (s.g.narrowAt p.val tx lanesReady)

/-- THROTTLE_LOWER: Every 100 µs with the 1 ms average above CAP_W or over temperature, T falls by 1 (R364). -/
def execThrottleLower (avgW : Nat) (s : State) : Host.Outcome State Fault Refusal := s.done (s.g.throttleLower avgW)

/-- THROTTLE_RAISE: Every 1 ms with the average below CAP_W − HYST_W, T rises by 1 (R364). -/
def execThrottleRaise (avgW : Nat) (s : State) : Host.Outcome State Fault Refusal := s.done (s.g.throttleRaise avgW)

/-- THROTTLE_FAULT: After 100 ms at TMIN with power still above CAP_W, a contained fault is logged on bit 60 (R364). -/
def execThrottleFault (avgW : Nat) (s : State) : Host.Outcome State Fault Refusal := s.done (s.g.throttleFault avgW)

/-- FAST_TRIP: A 100 µs average above 1.05 × CAP_W drops T to TMIN at the next boundary (R365). -/
def execFastTrip (avgW : Nat) (s : State) : Host.Outcome State Fault Refusal := s.done (s.g.fastTrip avgW)

/-- AVS_STEP: Every 10 µs the voltage loop moves VDD_C0 or VDD_C1 by 2.5 mV toward its margin target (R366). -/
def execAvsStep (rail : Fin 2) (margin target floorM : Int) (s : State) : Host.Outcome State Fault Refusal :=
  s.done (s.g.avsStep rail.val margin target floorM)

/-- AVS_NO_ANSWER: An AVSBus write unanswered after three tries logs bit 60, and the loop holds (R401). -/
def execAvsNoAnswer (rail : Fin 2) (s : State) : Host.Outcome State Fault Refusal := s.done (s.g.avsNoAnswer rail.val)

/-- THERMAL_READING: A sensor reading drives throttling, or the Hasp state and THERMTRIP_N at the trip points (R368). -/
def execThermalReading (sensor : Fin 42) (quarterC : Nat) (s : State) : Host.Outcome State Fault Refusal :=
  s.done (s.g.thermalReading sensor.val quarterC)

/-- SAG_WARNING: SAG warning begins, flash, boot-flash and fuse writes stop, load may be shed, and bit 60 is logged (R369). -/
def execSagWarning (rail : Nat) (s : State) : Host.Outcome State Fault Refusal := s.done (s.g.sagWarning rail)

/-- SAG_WARNING_CLEAR: After 1 ms with every rail at or above 98 % and SAG_N deasserted, warning clears and held work resumes (R369). -/
def execSagWarningClear (s : State) : Host.Outcome State Fault Refusal := s.done (s.g.sagWarningClear)

/-- SAG_CRITICAL: A rail below 92 % for 200 ns enters the Hasp state as a fatal event of group 60 (R371). -/
def execSagCritical (rail : Nat) (s : State) : Host.Outcome State Fault Refusal := s.done (s.g.sagCritical rail)

/-- PWR_BUDGET_WRITE: A budget write that falls below the current state's exit latency exits at once to a state that fits (R362). -/
def execPwrBudgetWrite (w : RegW) (n : Fin 2) (s : State) : Host.Outcome State Fault Refusal := s.done (s.g.regWrite (0xF00010 + 8 * n.val) w)

/-- PWR_CLR_CNT: A write of PWR_CTRL.CLR_CNT clears the PWR counters and maxima (R4). -/
def execPwrClrCnt (w : RegW) (s : State) : Host.Outcome State Fault Refusal :=
  s.done (s.g.regWrite (offOf F.PWR_CTRL_CLR_CNT) (trig w F.PWR_CTRL_CLR_CNT))

end Sys2Proof.Machine
end

