-- ==== Sys2Proof/Machine/RowsReduce.lean ====
section
/-!
DEFINITION. Reduce streams (R158 to R181).
One meaning per row of the table, over the operations of the chapter.
-/

namespace Sys2Proof.Machine

/-- REDUCE_SETUP_CREATE: A REDUCE_SETUP create checks the descriptor and creates a stream with its store reservation (R156). -/
def execReduceSetupCreate (k : CmdRef) (s : State) : Host.Outcome State Fault Refusal := s.done (s.g.setupCreate k)

/-- REDUCE_SETUP_DESTROY: A REDUCE_SETUP destroy aborts the stream's rounds, discards its work and releases its reservation (R156). -/
def execReduceSetupDestroy (k : CmdRef) (s : State) : Host.Outcome State Fault Refusal := s.done (s.g.setupDestroy k)

/-- REDUCE_SETUP_REKEY: A REDUCE_SETUP rekey sets a new PARENT_WARD on a live relay stream (R156). -/
def execReduceSetupRekey (k : CmdRef) (s : State) : Host.Outcome State Fault Refusal := s.done (s.g.setupRekey k)

/-- ADD_ITEM_END: A lane's add item ends, and the chunk completes when its bitmap is full and all its contributions are added (R165). -/
def execAddItemEnd (lane : Fin 128) (s : State) : Host.Outcome State Fault Refusal := s.done (s.g.addItemEnd lane.val)

/-- OUTPUT_ITEM_END: A chunk's output item ends, and the partial is sent up or the result is written and sent down (R168). -/
def execOutputItemEnd (lane : Fin 128) (s : State) : Host.Outcome State Fault Refusal := s.done (s.g.outputItemEnd lane.val)

/-- UPDATE_ITEM_END: An update item writes master, state and working weights for its chunk and sends the weights down (R175). -/
def execUpdateItemEnd (lane : Fin 128) (s : State) : Host.Outcome State Fault Refusal := s.done (s.g.updateItemEnd lane.val)

/-- RELAY_DOWN_END: A relay-down item ends, having sent a received result to each down entry (R169). -/
def execRelayDownEnd (lane : Fin 128) (s : State) : Host.Outcome State Fault Refusal := s.done (s.g.relayDownEnd lane.val)

/-- ROUND_DEADLINE: At OPEN_TICK + DEADLINE_TICKS, an uncommitted round is aborted with cause DEADLINE (R171). -/
def execRoundDeadline (stream round : Nat) (s : State) : Host.Outcome State Fault Refusal := s.done (s.g.roundDeadline stream round)

/-- RED_ABORT_GO: A write of RED_ABORT with GO aborts the named round, or is ignored and counted (R171). -/
def execRedAbortGo (w : RegW) (s : State) : Host.Outcome State Fault Refusal := s.done (s.g.regWrite (offOf F.RED_ABORT_GO) (trig w F.RED_ABORT_GO))

/-- RED_CLR_CNT: A write of RED_CTRL.CLR_CNT clears the counters of the RED block (R4). -/
def execRedClrCnt (w : RegW) (s : State) : Host.Outcome State Fault Refusal :=
  s.done (s.g.regWrite (offOf F.RED_CTRL_CLR_CNT) (trig w F.RED_CTRL_CLR_CNT))

end Sys2Proof.Machine
end

