-- ==== Sys2Proof/Machine/RowsRegisters.lean ====
section
/-!
DEFINITION. Register access: writes with no row of their own, and the four reads that take the head of a queue (R3, R4, R408).
One meaning
per row of the table, over the operations of the chapter.
-/

namespace Sys2Proof.Machine

/-- REGISTER_WRITE: A BAR0 write to a register with no row of its own updates each field according to its access type (R4). -/
def execRegisterWrite (bus : Bus) (off width : Nat) (data : Word) (s : State) : Host.Outcome State Fault Refusal :=
  s.done (s.g.registerWrite bus off width data)

/-- MAP_HOME_REQ_READ: A 64-bit read of MAP_HOME_REQ that returns VALID 1 removes the head home request from its queue (R408). -/
def execMapHomeReqRead (bus : Bus) (half : Half) (s : State) : Host.Outcome State Fault Refusal := s.done (s.g.busRead bus half 0x300090)

/-- MEM_REPAIR_CAND_READ: A 64-bit read of MEM_REPAIR_CAND that returns VALID 1 removes the head repair candidate (R408). -/
def execMemRepairCandRead (bus : Bus) (half : Half) (s : State) : Host.Outcome State Fault Refusal := s.done (s.g.busRead bus half 0x6000B0)

/-- RED_STRAGGLER0_READ: A 64-bit read of RED_STRAGGLER0 that returns VALID 1 removes the head straggler post and latches RED_STRAGGLER1
(R408). -/
def execRedStraggler0Read (bus : Bus) (half : Half) (s : State) : Host.Outcome State Fault Refusal := s.done (s.g.busRead bus half 0x900068)

/-- FLT_CHECK_LOG0_READ: A 64-bit read of FLT_CHECK_LOG0 that returns VALID 1 removes the head check-log entry and latches LOG1 and LOG2
(R408). -/
def execFltCheckLog0Read (bus : Bus) (half : Half) (s : State) : Host.Outcome State Fault Refusal := s.done (s.g.busRead bus half 0x1000A8)

end Sys2Proof.Machine
end

