-- ==== Sys2Proof/Machine/RowsRequests.lean ====
section
/-!
DEFINITION. Requests, responses and the requester (R34 to R65).
One meaning per row of the table, over the operations of the chapter.
-/

namespace Sys2Proof.Machine

/-- READ: A READ request is admitted and returns LENGTH bytes from ADDR with line atomicity (R42). -/
def execRead (x : Fin 48) (q : Req) (s : State) : Host.Outcome State Fault Refusal := s.done (s.g.memArrive x.val q tyREAD)

/-- WRITE: A WRITE request stores its payload at ADDR and is answered OK once all bytes have taken effect (R42). -/
def execWrite (x : Fin 48) (q : Req) (s : State) : Host.Outcome State Fault Refusal := s.done (s.g.memArrive x.val q tyWRITE)

/-- ATOMIC: An ATOMIC request is performed at the home on the target word, and the old value is returned (R43). -/
def execAtomic (x : Fin 48) (q : Req) (s : State) : Host.Outcome State Fault Refusal := s.done (s.g.memArrive x.val q tyATOMIC)

/-- TRIGGER_ENTRY: An entry-point TRIGGER queues a kernel item on the pin core that owns the sliver of ADDR (R44). -/
def execTriggerEntry (x : Fin 48) (q : Req) (s : State) : Host.Outcome State Fault Refusal := s.done (s.g.triggerArrive x.val q)

/-- TRIGGER_COMMAND: A command-carrying TRIGGER is accepted whole into its Keyway and answered with the submission index (R44). -/
def execTriggerCommand (x : Fin 48) (q : Req) (s : State) : Host.Outcome State Fault Refusal := s.done (s.g.triggerCommand x.val q)

/-- CONTRIB: A CONTRIB is admitted against its stream, sets its bitmap bit, opens rounds as needed and queues its payload to a lane (R164).
-/
def execContrib (x : Fin 48) (q : Req) (s : State) : Host.Outcome State Fault Refusal := s.done (s.g.contribArrive x.val q)

/-- GATHER_REQ: A GATHER_REQ checks its indices and reads and pools rows into a response (R179). -/
def execGatherReq (x : Fin 48) (q : Req) (s : State) : Host.Outcome State Fault Refusal := s.done (s.g.gatherArrive x.val q)

/-- FILTER_REQ: A FILTER_REQ scans records against its predicates and returns either a compaction or a top-k list (R186). -/
def execFilterReq (x : Fin 48) (q : Req) (s : State) : Host.Outcome State Fault Refusal := s.done (s.g.filterArrive x.val q)

/-- SCORE_REQ: A SCORE_REQ scores its queries against the stored keys and returns the top K of each query (R190). -/
def execScoreReq (x : Fin 48) (q : Req) (s : State) : Host.Outcome State Fault Refusal := s.done (s.g.scoreArrive x.val q)

/-- FENCE: A FENCE request is answered once every command that SRC submitted earlier in the compartment has written its record (R47). -/
def execFence (x : Fin 48) (q : Req) (s : State) : Host.Outcome State Fault Refusal := s.done (s.g.fenceArrive x.val q)

/-- MSG: A MSG is written into a message-queue slot, or is refused when the queue is full or belongs to another compartment (R270). -/
def execMsg (x : Fin 48) (q : Req) (s : State) : Host.Outcome State Fault Refusal := s.done (s.g.msgArrive x.val q)

/-- LEND: A LEND request is accepted as a loan bound to its compartment, or is declined with BUSY_RETRY (R122). -/
def execLend (x : Fin 48) (q : Req) (s : State) : Host.Outcome State Fault Refusal := s.done (s.g.lendArrive x.val q)

/-- RECLAIM: A RECLAIM withdraws loaned pages, either with notice or forced (R124). -/
def execReclaim (x : Fin 48) (q : Req) (s : State) : Host.Outcome State Fault Refusal := s.done (s.g.reclaimArrive x.val q)

/-- PUBLISH: A PUBLISH is decided against the region's header, and on acceptance writes its payload and raises VERSION atomically (R84). -/
def execPublish (x : Fin 48) (q : Req) (s : State) : Host.Outcome State Fault Refusal := s.done (s.g.memArrive x.val q tyPUBLISH)

/-- RESPONSE: A response reaching the Gikan is matched by TAG and SENT_TICK to an outstanding request and delivered to its consumer (R63).
-/
def execResponse (x : Fin 48) (r : Resp) (s : State) : Host.Outcome State Fault Refusal := s.done (s.g.response x.val r)

/-- REQUEST_RESEND: At each scheduled tick without a response, an engine port resends the request byte-identical (R61). -/
def execRequestResend (tag : Nat) (s : State) : Host.Outcome State Fault Refusal := s.done (s.g.requestResend tag)

/-- REQUEST_TIMEOUT: At the timeout tick an engine port commits TIMEOUT on a request that has had no response (R61). -/
def execRequestTimeout (tag : Nat) (s : State) : Host.Outcome State Fault Refusal := s.done (s.g.requestTimeout tag)

/-- BUSY_RESEND: A request answered BUSY_RETRY is sent again as a new request once per tick, up to its limit (R246). -/
def execBusyResend (n : Nat) (s : State) : Host.Outcome State Fault Refusal := s.done (s.g.busyResend n)

/-- TAG_WAIT_ISSUE: A request that waited for a free tag is issued when a tag frees (R56). -/
def execTagWaitIssue (s : State) : Host.Outcome State Fault Refusal := s.done (s.g.tagWaitIssue)

end Sys2Proof.Machine
end

