-- ==== Sys2Proof/Machine/RowsSecurity.lean ====
section
/-!
DEFINITION. Compartments, scrubbing, SVN and SPDM (R319 to R338).
One meaning per row of the table, over the operations of the chapter.
-/

namespace Sys2Proof.Machine

/-- SEC_MEMBER_DATA_WRITE: A write of SEC_MEMBER_DATA sets a node's compartment mask from the next ACLK cycle (R320). -/
def execSecMemberDataWrite (w : RegW) (s : State) : Host.Outcome State Fault Refusal := s.done (s.g.regWrite (offOf F.SEC_MEMBER_DATA_MASK) w)

/-- SEC_SCRUB_GO: A write of SEC_SCRUB with GO makes the compartment SCRUBBING and starts the stop phase (R325). -/
def execSecScrubGo (w : RegW) (s : State) : Host.Outcome State Fault Refusal := s.done (s.g.regWrite (offOf F.SEC_SCRUB_GO) (trig w F.SEC_SCRUB_GO))

/-- STOP_PHASE_END: When the last item of the compartment has stopped, the clear phase begins (R325). -/
def execStopPhaseEnd (s : State) : Host.Outcome State Fault Refusal := s.done (s.g.stopPhaseEnd)

/-- SCRUB_DONE: When every resource of the compartment is cleared, DONE is set, and LATE is set beyond 60 µs (R326). -/
def execScrubDone (s : State) : Host.Outcome State Fault Refusal := s.done (s.g.scrubDone)

/-- VIEW_RECORD: At each boundary, a compartment's 64-byte view record is written, or the miss is counted (R328). -/
def execViewRecord (c : Fin 16) (s : State) : Host.Outcome State Fault Refusal := s.done (s.g.viewRecord c.val)

/-- SEC_SVN_COMMIT: A write of SEC_SVN.COMMIT starts blowing anti-rollback steps and revocation bits, or is refused (R333). -/
def execSecSvnCommit (w : RegW) (s : State) : Host.Outcome State Fault Refusal :=
  s.done (s.g.regWrite (offOf F.SEC_SVN_COMMIT) (trig w F.SEC_SVN_COMMIT))

/-- SVN_COMMIT_END: The fuse steps are blown and DONE is set, or the commit ends REFUSED (R333). -/
def execSvnCommitEnd (fuseOk : Bool) (s : State) : Host.Outcome State Fault Refusal := s.done (s.g.svnCommitEnd fuseOk)

/-- GET_VERSION: An SPDM GET_VERSION is answered on its port (R335). -/
def execGetVersion (side : Side) (s : State) : Host.Outcome State Fault Refusal := s.done (s.g.getVersion side)

/-- GET_CAPABILITIES: An SPDM GET_CAPABILITIES is answered with the capabilities CERT, CHAL and MEAS (R335). -/
def execGetCapabilities (side : Side) (version : Nat) (s : State) : Host.Outcome State Fault Refusal := s.done (s.g.getCapabilities side version)

/-- NEGOTIATE_ALGORITHMS: An SPDM NEGOTIATE_ALGORITHMS selects ECDSA P-384 and SHA-384 (R335). -/
def execNegotiateAlgorithms (side : Side) (s : State) : Host.Outcome State Fault Refusal := s.done (s.g.negotiateAlgorithms side)

/-- GET_DIGESTS: An SPDM GET_DIGESTS returns the certificate-chain digest of slot 0 (R335). -/
def execGetDigests (side : Side) (s : State) : Host.Outcome State Fault Refusal := s.done (s.g.getDigests side)

/-- GET_CERTIFICATE: An SPDM GET_CERTIFICATE returns the slot 0 chain (R335). -/
def execGetCertificate (side : Side) (slot offset length : Nat) (s : State) : Host.Outcome State Fault Refusal :=
  s.done (s.g.getCertificate side slot offset length)

/-- CHALLENGE: An SPDM CHALLENGE is answered with an Alias-signed CHALLENGE_AUTH (R335). -/
def execChallenge (side : Side) (slot : Nat) (nonce : List Byte) (s : State) : Host.Outcome State Fault Refusal :=
  s.done (s.g.challenge side slot nonce)

/-- GET_MEASUREMENTS: An SPDM GET_MEASUREMENTS returns the four signed measurement blocks (R336). -/
def execGetMeasurements (side : Side) (index : Nat) (nonce : List Byte) (s : State) : Host.Outcome State Fault Refusal :=
  s.done (s.g.getMeasurements side index nonce)

/-- VENDOR_DEFINED_REQUEST: A vendor-defined request returns the LMS signature over the previous signed hash (R337). -/
def execVendorDefinedRequest (side : Side) (vendor code : Nat) (s : State) : Host.Outcome State Fault Refusal :=
  s.done (s.g.vendorRequest side vendor code)

/-- SPDM_UNSUPPORTED: Any other SPDM request is answered ERROR UnsupportedRequest (R335). -/
def execSpdmUnsupported (side : Side) (_code : Nat) (s : State) : Host.Outcome State Fault Refusal := s.done (s.g.spdmUnsupported side)

/-- SEC_CLR_CNT: A write of SEC_CTRL.CLR_CNT clears the counters of the SEC block (R4). -/
def execSecClrCnt (w : RegW) (s : State) : Host.Outcome State Fault Refusal :=
  s.done (s.g.regWrite (offOf F.SEC_CTRL_CLR_CNT) (trig w F.SEC_CTRL_CLR_CNT))

end Sys2Proof.Machine
end

