-- ==== Sys2Proof/Machine/RowsStacks.lean ====
section
/-!
DEFINITION. The stacks: training, stamping, scrub, retirement (R86 to R108).
One meaning per row of the table, over the operations of the
chapter.
-/

namespace Sys2Proof.Machine

/-- STACK_TRAINING_END: Stack training at start ends after row remapping; a stack that fails raises a fatal fault on bit 36 + h (R103). -/
def execStackTrainingEnd (h : Fin 12) (ok : Bool) (repairs : Nat) (s : State) : Host.Outcome State Fault Refusal :=
  s.done (s.g.stackTrained h.val ok repairs)

/-- STAMPING_END: Stamping of all frames at start ends, and MEM_STATUS.STAMPED is set (R96). -/
def execStampingEnd (s : State) : Host.Outcome State Fault Refusal := s.done (s.g.stampEnd)

/-- RELEASE_STAMP_END: A released frame finishes release stamping and becomes free for allocation (R97). -/
def execReleaseStampEnd (frame : Nat) (s : State) : Host.Outcome State Fault Refusal := s.done (s.g.live (fun g => g.releaseStampEnd frame))

/-- PATROL_SCRUB: Patrol scrub reads a codeword in an idle slot and handles each finding as a demand read does (R101). -/
def execPatrolScrub (cell : Nat) (newSyms : Nat) (s : State) : Host.Outcome State Fault Refusal := s.done (s.g.live (fun g => g.patrol cell newSyms))

/-- MEM_RETIRE_WRITE: A write of MEM_RETIRE with GO retires a frame, up to 64 frames (R103). -/
def execMemRetireWrite (w : RegW) (s : State) : Host.Outcome State Fault Refusal :=
  s.done (s.g.regWrite (offOf F.MEM_RETIRE_GO) (trig w F.MEM_RETIRE_GO))

/-- MEM_FLIP_ARM: In factory test mode, setting MEM_FLIP.ARM corrupts the named symbols of the next codeword written on the stack (R104). -/
def execMemFlipArm (w : RegW) (s : State) : Host.Outcome State Fault Refusal := s.done (s.g.regWrite (offOf F.MEM_FLIP_ARM) (trig w F.MEM_FLIP_ARM))

/-- MEM_CLR_CNT: A write of MEM_CTRL.CLR_CNT clears the MEM counters except REPAIRS and PASSES (R4). -/
def execMemClrCnt (w : RegW) (s : State) : Host.Outcome State Fault Refusal :=
  s.done (s.g.regWrite (offOf F.MEM_CTRL_CLR_CNT) (trig w F.MEM_CTRL_CLR_CNT))

end Sys2Proof.Machine
end

