-- ==== Sys2Proof/Machine/RowsSwitch.lean ====
section
/-!
DEFINITION. The switch core (R305 to R318).
One meaning per row of the table, over the operations of the chapter.
-/

namespace Sys2Proof.Machine

/-- XBAR_SHAPER_WRITE: A write of XBAR_SHAPER changes the shaper together and resets its token count to full or to zero (R314). -/
def execXbarShaperWrite (w : RegW) (o : Fin 48) (c : Fin 8) (s : State) : Host.Outcome State Fault Refusal :=
  s.done (s.g.regWrite (offOf (F.XBAR_SHAPER_EN o.val c.val)) w)

/-- XBAR_GATE_ENTRY_GO: A write of XBAR_GATE_ENTRY with GO stores an entry of a standby gate list, or is refused for the active list (R316).
-/
def execXbarGateEntryGo (w : RegW) (s : State) : Host.Outcome State Fault Refusal :=
  s.done (s.g.regWrite (offOf F.XBAR_GATE_ENTRY_GO) (trig w F.XBAR_GATE_ENTRY_GO))

/-- XBAR_GATE_SWAP_AT_WRITE: A write of XBAR_GATE_SWAP_AT arms, replaces or disarms a list swap, or is refused (R316). -/
def execXbarGateSwapAtWrite (w : RegW) (p : Fin 32) (s : State) : Host.Outcome State Fault Refusal :=
  s.done (s.g.regWrite (offOf (F.XBAR_GATE_SWAP_AT_SWAP_AT p.val)) w)

/-- GATE_SWAP: At the armed boundary the standby gate list becomes active (R316). -/
def execGateSwap (p : Fin 32) (s : State) : Host.Outcome State Fault Refusal := s.done (s.g.live (fun g => g.gateSwap p.val))

/-- GATE_ENTRY_END: A gate entry's DUR_NS ends and the next entry's mask applies (R315). -/
def execGateEntryEnd (p : Fin 32) (s : State) : Host.Outcome State Fault Refusal := s.done (s.g.live (fun g => g.gateEntryEnd p.val))

/-- QUEUE_SAMPLE: Every 64 × PERIOD SCLK cycles, the selected queue's depth and head delay are sampled (R318). -/
def execQueueSample (s : State) : Host.Outcome State Fault Refusal := s.done (s.g.queueSampled)

/-- XBAR_CLR_CNT: A write of XBAR_CTRL.CLR_CNT clears the XBAR counters and every PEAK (R4). -/
def execXbarClrCnt (w : RegW) (s : State) : Host.Outcome State Fault Refusal :=
  s.done (s.g.regWrite (offOf F.XBAR_CTRL_CLR_CNT) (trig w F.XBAR_CTRL_CLR_CNT))

/-- SCHEDULER_SLOT: In every slot of two SCLK cycles the central scheduler runs its request, grant and accept iterations, moves one cell per
match, accrues shaper tokens and frees input-buffer space and credits as packets finish crossing (R308). -/
def execSchedulerSlot (s : State) : Host.Outcome State Fault Refusal := s.done (s.g.slot)

end Sys2Proof.Machine
end

