-- ==== Sys2Proof/Machine/RowsTick.lean ====
section
/-!
DEFINITION. Fabric time, ticks, admission and item ends (R17 to R33).
One meaning per row of the table, over the operations of the chapter.
-/

namespace Sys2Proof.Machine

/-- TICK_RUN: A write of TICK_CTRL.RUN commits the start of ticks, and RUN then reads 1 until reset (R20). -/
def execTickRun (w : RegW) (s : State) : Host.Outcome State Fault Refusal := s.done (s.g.regWrite (offOf F.TICK_CTRL_RUN) (trig w F.TICK_CTRL_RUN))

/-- MASTER_TICK_START: At the first REFCLK_SYS edge after RUN, the time master starts ticks from TICK_TIME_SET (R20). -/
def execMasterTickStart (s : State) : Host.Outcome State Fault Refusal := s.done (s.g.masterTickStart)

/-- TICK_START: After three exchanges within 25 ns, a non-master starts ticks at its parent's next tick boundary with the parent's tick
number (R20). -/
def execTickStart (s : State) : Host.Outcome State Fault Refusal := s.done (s.g.tickStart)

/-- SYNC_REQ_SEND: Every 4 µs the child sends a SYNC_REQ time-sync flit on its parent port, carrying t1 (R288). -/
def execSyncReqSend (lead : Nat) (s : State) : Host.Outcome State Fault Refusal := s.done (s.g.syncReqSend lead)

/-- SYNC_REQ: The parent receives a SYNC_REQ, takes t2 and answers with a SYNC_RESP carrying t2, t3 and its tick and period values (R288).
-/
def execSyncReq (p : Fin 32) (m : TSync) (since wait : Nat) (s : State) : Host.Outcome State Fault Refusal :=
  s.done (s.g.syncReq p.val m since wait)

/-- SYNC_RESP: The child receives a SYNC_RESP, computes offset and delay, filters the offset, slews fabric time and takes the parent's tick
and period values (R18). -/
def execSyncResp (p : Fin 32) (m : TSync) (since : Nat) (s : State) : Host.Outcome State Fault Refusal := s.done (s.g.syncResp p.val m since)

/-- HOLDOVER: When no valid exchange has arrived for 12 µs, the Gikan enters holdover and keeps its last slew correction (R23). -/
def execHoldover (s : State) : Host.Outcome State Fault Refusal := s.done (s.g.holdover)

/-- HOLDOVER_ERROR_LIMIT: When the estimated holdover error passes 200 ns, the Gikan enters the time-split state (R22). -/
def execHoldoverErrorLimit (s : State) : Host.Outcome State Fault Refusal := s.done (s.g.holdoverErrorLimit)

/-- TICK_BOUNDARY: At a tick boundary a new frame begins, TICK_COUNT advances, and busy_until is reset on idle units (R26). -/
def execTickBoundary (s : State) : Host.Outcome State Fault Refusal := s.done (s.g.tickBoundary)

/-- PERIOD_CHANGE: At the armed SWITCH_AT boundary the armed period takes effect and T_base is reset (R27). -/
def execPeriodChange (s : State) : Host.Outcome State Fault Refusal := s.done (s.g.periodChange)

/-- TICK_PERIOD_WRITE: A write of TICK_PERIOD.NEXT_US stores a period from 2 to 64, or is refused and counted (R27). -/
def execTickPeriodWrite (w : RegW) (s : State) : Host.Outcome State Fault Refusal := s.done (s.g.regWrite (offOf F.TICK_PERIOD_NEXT_US) w)

/-- SWITCH_AT_WRITE: A write of TICK_SWITCH arms, replaces or disarms a period change, or is refused on a non-master or with too little lead
(R27). -/
def execSwitchAtWrite (w : RegW) (s : State) : Host.Outcome State Fault Refusal := s.done (s.g.regWrite (offOf F.TICK_SWITCH_SWITCH_AT) w)

/-- TICK_REF_EDGE: A rising TICK_REF edge on the master sets fabric time before RUN, or steers the slew after ticks start (R33). -/
def execTickRefEdge (s : State) : Host.Outcome State Fault Refusal := s.done (s.g.tickRefEdge)

/-- TICK_REF_MISSING: When no TICK_REF edge arrives within the period plus 1 µs, the Gikan sets REF_MISSING, counts the miss and logs bit 58
(R33). -/
def execTickRefMissing (s : State) : Host.Outcome State Fault Refusal := s.done (s.g.tickRefMissing)

/-- ITEM_ADMIT: The head item of a unit's queue is admitted when start + C fits the budget (R29). -/
def execItemAdmit (u : UnitId) (t : Nat) (s : State) : Host.Outcome State Fault Refusal := s.done (s.g.itemAdmit u t)

/-- ITEM_END: A work item finishes on its unit, and admission resumes from the finishing cycle (R31). -/
def execItemEnd (u : UnitId) (t : Nat) (s : State) : Host.Outcome State Fault Refusal := s.done (s.g.itemEnd u t)

/-- TICK_CLR_CNT: A write of TICK_CTRL.CLR_CNT clears TICK_EVENTS and every TICK_OVR register (R4). -/
def execTickClrCnt (w : RegW) (s : State) : Host.Outcome State Fault Refusal :=
  s.done (s.g.regWrite (offOf F.TICK_CTRL_CLR_CNT) (trig w F.TICK_CTRL_CLR_CNT))

end Sys2Proof.Machine
end

