-- ==== Sys2Proof/Machine/RowsTiers.lean ====
section
/-!
DEFINITION. The Placer: fetches, demotions, hints, schedules, loans, home copies, flash (R109 to R138).
One meaning per row of the table,
over the operations of the chapter.
-/

namespace Sys2Proof.Machine

/-- FETCH_GRANULE_ARRIVE: A fetched granule is written to its frame and admitted from the next cycle (R110). -/
def execFetchGranuleArrive (entry page granule : Nat) (how : FlashDecode) (s : State) : Host.Outcome State Fault Refusal :=
  s.done (s.g.live (fun g => g.fetchArrive entry page granule how))

/-- HEAT_DECAY: At every tick that is a multiple of 16 × DECAY, every page's heat count is halved (R112). -/
def execHeatDecay (s : State) : Host.Outcome State Fault Refusal := s.done (s.g.live (fun g => g.heatDecay))

/-- EVICT: At a tick boundary, or when an allocation waits, the Placer drops clean copies and demotes pages until FREE_TARGET is reached
(R114). -/
def execEvict (s : State) : Host.Outcome State Fault Refusal := s.done (s.g.live (fun g => g.placerStep))

/-- DEMOTION_END: A demoted page becomes LOWER once its data and journal record are stored (R114). -/
def execDemotionEnd (entry page : Nat) (s : State) : Host.Outcome State Fault Refusal := s.done (s.g.live (fun g => g.demotionEnd entry page))

/-- HINT_PREFETCH: A PREFETCH hint starts demand fetches of the LOWER pages it names (R116). -/
def execHintPrefetch (w : RegW) (s : State) : Host.Outcome State Fault Refusal :=
  s.done (s.g.regWrite (offOf F.TIER_HINT1_GO) (trig (withOp w 1) F.TIER_HINT1_GO))

/-- HINT_COLD: A COLD hint sets the heat of the named pages to 0 (R116). -/
def execHintCold (w : RegW) (s : State) : Host.Outcome State Fault Refusal :=
  s.done (s.g.regWrite (offOf F.TIER_HINT1_GO) (trig (withOp w 2) F.TIER_HINT1_GO))

/-- HINT_KEEP: A KEEP hint makes the named pages not evictable, within the 4,096-page limit (R116). -/
def execHintKeep (w : RegW) (s : State) : Host.Outcome State Fault Refusal :=
  s.done (s.g.regWrite (offOf F.TIER_HINT1_GO) (trig (withOp w 3) F.TIER_HINT1_GO))

/-- HINT_UNKEEP: An UNKEEP hint ends KEEP on the named pages (R116). -/
def execHintUnkeep (w : RegW) (s : State) : Host.Outcome State Fault Refusal :=
  s.done (s.g.regWrite (offOf F.TIER_HINT1_GO) (trig (withOp w 4) F.TIER_HINT1_GO))

/-- HINT_DROP: A DROP hint makes the named pages UNBACKED and releases their frames and lower copies (R116). -/
def execHintDrop (w : RegW) (s : State) : Host.Outcome State Fault Refusal :=
  s.done (s.g.regWrite (offOf F.TIER_HINT1_GO) (trig (withOp w 5) F.TIER_HINT1_GO))

/-- SCHEDULE_REPLACE: At BASE_TICK, a schedule replaces its compartment's previous schedule, whose tiles are released (R119). -/
def execScheduleReplace (c : Fin 16) (s : State) : Host.Outcome State Fault Refusal := s.done (s.g.live (fun g => g.schedReplace c.val))

/-- STAGING_START: At a tile's planned start tick, the Placer begins staging the tile's pages into the stacks (R120). -/
def execStagingStart (c : Fin 16) (tile : Nat) (s : State) : Host.Outcome State Fault Refusal :=
  s.done (s.g.live (fun g => g.stagingStart c.val tile))

/-- TILE_LATE: A tile not wholly resident at its deadline boundary is counted as late and recorded in LAST_LATE (R121). -/
def execTileLate (c : Fin 16) (tile : Nat) (s : State) : Host.Outcome State Fault Refusal := s.done (s.g.live (fun g => g.tileLate c.val tile))

/-- TILE_RELEASE: At RELEASE, a tile's KEEP ends and, with DROP set, its clean copies are dropped (R118). -/
def execTileRelease (c : Fin 16) (tile : Nat) (s : State) : Host.Outcome State Fault Refusal := s.done (s.g.live (fun g => g.tileRelease c.val tile))

/-- RECLAIM_NOTICE_END: A RECLAIM with notice is answered OK once no read of its pages is outstanding, at most n + 4 ticks after acceptance
(R124). -/
def execReclaimNoticeEnd (n : Nat) (s : State) : Host.Outcome State Fault Refusal := s.done (s.g.live (fun g => g.reclaimEnd n))

/-- HOME_COPY: B receives HOME_COPY, reserves frames and begins pulling the extent within its PEER budget (R128). -/
def execHomeCopy (x : Fin 48) (q : Req) (s : State) : Host.Outcome State Fault Refusal := s.done (s.g.homeCopy x.val q)

/-- HOME_LINE: B receives a HOME_LINE and stores or ignores the line according to the pull's progress (R128). -/
def execHomeLine (x : Fin 48) (q : Req) (s : State) : Host.Outcome State Fault Refusal := s.done (s.g.homeLine x.val q)

/-- PULL_END: When every page has been pulled, B sends COPY_DONE (R128). -/
def execPullEnd (entry : Nat) (s : State) : Host.Outcome State Fault Refusal := s.done (s.g.live (fun g => g.pullEnd entry))

/-- COPY_DONE: A receives COPY_DONE and posts the change in MAP_HOME_REQ (R129). -/
def execCopyDone (x : Fin 48) (q : Req) (s : State) : Host.Outcome State Fault Refusal := s.done (s.g.copyDoneArrive x.val q)

/-- COPY_CANCEL: A COPY_CANCEL is received and the copy's frames at B are released (R127). -/
def execCopyCancel (x : Fin 48) (q : Req) (s : State) : Host.Outcome State Fault Refusal := s.done (s.g.copyCancel x.val q)

/-- DOMAIN_STATUS: A DOMAIN_STATUS from a domain member records its count of free stamped frames (R127). -/
def execDomainStatus (x : Fin 48) (q : Req) (s : State) : Host.Outcome State Fault Refusal := s.done (s.g.domainStatus x.val q)

/-- DOMAIN_STATUS_SEND: Every 128 ticks each member sends DOMAIN_STATUS to every other member (R127). -/
def execDomainStatusSend (s : State) : Host.Outcome State Fault Refusal := s.done (s.g.live (fun g => g.domainStatusSend))

/-- CONTROL_RESEND: An unanswered HOME_COPY, HOME_LINE, COPY_DONE or COPY_CANCEL is resent once per tick (R127). -/
def execControlResend (n : Nat) (s : State) : Host.Outcome State Fault Refusal := s.done (s.g.live (fun g => g.controlResend n))

/-- COPY_CANCEL_TIMEOUT: After 128 ticks unanswered, or when the peer becomes unreachable, the copy is cancelled and COPY_CANCEL is sent
(R127). -/
def execCopyCancelTimeout (entry : Nat) (s : State) : Host.Outcome State Fault Refusal := s.done (s.g.live (fun g => g.copyCancelTimeout entry))

/-- COPY_HOLD_EXPIRY: When no commit makes the posted change within COPY_HOLD ticks, A sends COPY_CANCEL (R129). -/
def execCopyHoldExpiry (entry : Nat) (s : State) : Host.Outcome State Fault Refusal := s.done (s.g.live (fun g => g.copyHoldExpiry entry))

/-- HOME_COPY_START: At most once per 128 ticks, A chooses an extent by traffic or capacity and sends HOME_COPY (R130). -/
def execHomeCopyStart (entry : Nat) (s : State) : Host.Outcome State Fault Refusal := s.done (s.g.live (fun g => g.homeCopyStart entry))

/-- FRAME_MOVE_END: The page of a retired frame finishes moving to another frame, and the retired frame is stamped (R131). -/
def execFrameMoveEnd (frame : Nat) (s : State) : Host.Outcome State Fault Refusal := s.done (s.g.live (fun g => g.frameMoveEnd frame))

/-- BLOCK_RELOCATE: A flash block's valid pages are relocated within the RELOC budget for read count, error level or wear (R135). -/
def execBlockRelocate (block : Nat) (cause : RelocCause) (s : State) : Host.Outcome State Fault Refusal :=
  s.done (s.g.live (fun g => g.blockRelocate block cause))

/-- PROGRAM_FAIL: A failed flash program or erase retires the block (R135). -/
def execProgramFail (block : Nat) (s : State) : Host.Outcome State Fault Refusal := s.done (s.g.live (fun g => g.programFail block))

/-- FTL_READY: The flash translation layer finishes its journal rebuild and suspect-block erase, and FTL_READY is set (R136). -/
def execFtlReady (journalOk : Bool) (suspects failed : List Nat) (s : State) : Host.Outcome State Fault Refusal :=
  s.done (s.g.ftlReady journalOk suspects failed)

/-- TIER_CLR_CNT: A write of TIER_CTRL.CLR_CNT clears the counters of the TIER block (R4). -/
def execTierClrCnt (w : RegW) (s : State) : Host.Outcome State Fault Refusal :=
  s.done (s.g.regWrite (offOf F.TIER_CTRL_CLR_CNT) (trig w F.TIER_CTRL_CLR_CNT))

/-- SLACK_STAMP_END: The stamping of the reserved frame of a slack page that was first written ends, the page becomes RESIDENT, and requests
to it stop being refused with BUSY_RETRY (R117). -/
def execSlackStampEnd (entry page : Nat) (s : State) : Host.Outcome State Fault Refusal := s.done (s.g.live (fun g => g.slackStampEnd entry page))

end Sys2Proof.Machine
end

