-- ==== Sys2Proof/Machine/Tumbler.lean ====
section
/-!
DEFINITION. The Tumbler instruction set (R239 to R247): one meaning for each opcode, over one shared operation that fetches the word at a thread's
PC, tests its guard and its fields, and moves the PC on. A row acts when the thread's next word carries its opcode.
-/

namespace Sys2Proof.Machine

/-! Words and operands (R239, R240) -/

/-- The fields of an instruction word. -/
structure TI where
  op : Nat
  pg : Nat
  pn : Nat
  rd : Nat
  ra : Nat
  rb : Nat
  rc : Nat
  imm : Nat
  deriving DecidableEq, Repr

def tiOf (w : Nat) : TI := ⟨bits w 56 8, bits w 53 3, bits w 52 1, bits w 47 5, bits w 42 5, bits w 37 5, bits w 32 5, bits w 0 32⟩

/-- The opcodes of the tables of R243. -/
def tumblerOp (o : Nat) : Bool :=
  o == 1 || decide (0x10 ≤ o ∧ o ≤ 0x21) || decide (0x28 ≤ o ∧ o ≤ 0x30) || decide (0x34 ≤ o ∧ o ≤ 0x3A) || decide (0x40 ≤ o ∧ o ≤ 0x42) ||
  o == 0x44 || o == 0x45 || o == 0x48 || o == 0x49 || decide (0x50 ≤ o ∧ o ≤ 0x54) || decide (0x58 ≤ o ∧ o ≤ 0x5F) || decide (0x70 ≤ o ∧ o ≤ 0x85)

/-- Fields that an opcode does not use are zero. -/
def allZero (l : List Nat) : Bool := l.all (fun n => n == 0)

/-- The guard after PN, one bit an element. -/
def Thread.guard (th : Thread) (i : TI) : Nat := if i.pn = 1 then th.pr i.pg ^^^ (2 ^ 32 - 1) else th.pr i.pg

/-- The operand written "b". -/
def Thread.b (th : Thread) (i : TI) : Nat := if i.rc = 1 then toBits (sext i.imm 32) 64 else th.xr i.rb

/-- The shared form of every instruction: a thread that waits for nothing fetches its word, and an instruction of another opcode is not this
row's. A scalar, scratch, memory or control instruction whose guard is off has no effect (R240); fields that do not fit raise UNDEF. -/
def Gikan.tIssue (g : Gikan) (core t op : Nat) (guarded : Bool) (ok : TI → Bool) (run : Gikan → Thread → TI → Gikan) : Gikan :=
  match g.thread core t with
  | none => g
  | some th =>
    if decide (th.wait ≠ .none) || g.hasp || decide (2 ≤ g.get F.PWR_STATE_STATE) then g else
    match g.pin.images.get? th.item.e.slot with
    | none => g
    | some im =>
      if th.pc < im.base ∨ im.base + im.count ≤ th.pc then g.cohSettle ((g.setThread core t { th with last := th.pc }).pinExc core t 2 stUNSUP)
      else
        let i := tiOf (g.pin.code.getD th.pc 0)
        let th1 := { th with last := th.pc, pc := th.pc + 1 }
        let g1 := g.setThread core t th1
        if !tumblerOp i.op then g.cohSettle (g1.pinExc core t 1 stUNSUP)
        else if i.op ≠ op then g
        else if guarded && !bit (th.guard i) 0 then g1
        else if !ok i then g.cohSettle (g1.pinExc core t 1 stUNSUP)
        else run g th1 i

/-- An instruction whose effect may wait for a line of an agent or a granule: the effect is a step of the thread's work item. -/
def Gikan.tumble (g : Gikan) (core t op : Nat) (guarded : Bool) (ok : TI → Bool) (eff : Gikan → Thread → TI → Gikan) : Gikan :=
  g.tIssue core t op guarded ok (fun g th i => g.itemStep (threadKey core t th.item.id) (fun h => eff (h.setThread core t th) th i))

/-- An instruction that stays within its core: an effect, or an exception's cause and status. -/
def Gikan.tumbleOr (g : Gikan) (core t op : Nat) (guarded : Bool) (ok : TI → Bool) (f : Gikan → Thread → TI → Gikan ⊕ (Nat × Nat)) : Gikan :=
  g.tIssue core t op guarded ok (fun g th i =>
    match f (g.setThread core t th) th i with
    | .inl h => h
    | .inr c => g.cohSettle ((g.setThread core t th).pinExc core t c.1 c.2))

/-- An instruction that only changes the thread. -/
def Gikan.tumbleReg (g : Gikan) (core t op : Nat) (guarded : Bool) (ok : TI → Bool) (f : Thread → TI → Thread) : Gikan :=
  g.tIssue core t op guarded ok (fun g th i => g.setThread core t (f th i))

/-! Scalar integers -/

/-- Field test of the two-operand scalar instructions. -/
def okAlu (i : TI) : Bool := (i.rc == 0 && i.imm == 0) || (i.rc == 1 && i.rb == 0)

def Gikan.tAlu (g : Gikan) (core t op : Nat) (f : Nat → Nat → Nat) : Gikan :=
  g.tumbleReg core t op true okAlu (fun th i => th.setX i.rd (f (th.xr i.ra) (th.b i)))

def wrap64 (n : Nat) : Nat := n % 2 ^ 64
def sub64 (a b : Nat) : Nat := (a + 2 ^ 64 - b % 2 ^ 64) % 2 ^ 64
def sra64 (a n : Nat) : Nat := toBits (sext a 64 / (2 ^ (n % 64) : Nat)) 64
def divU64 (a b : Nat) : Nat := if b = 0 then 2 ^ 64 - 1 else a / b
def remU64 (a b : Nat) : Nat := if b = 0 then a else a % b
def divS64 (a b : Nat) : Nat := if b = 0 then 2 ^ 64 - 1 else toBits ((sext a 64).tdiv (sext b 64)) 64
def remS64 (a b : Nat) : Nat := if b = 0 then a else toBits ((sext a 64).tmod (sext b 64)) 64
def clz64 (a : Nat) : Nat := if a = 0 then 64 else 63 - Nat.log2 a

/-! Scalar floating point -/

/-- The width that D selects. -/
def dFmt (d : Bool) : FFmt := if d then .fp64 else .fp32

/-- An operand in its width, and a result; a binary32 result leaves the upper half zero. -/
def fpArg (d : Bool) (v : Nat) : FVal := (dFmt d).decode (v % 2 ^ (dFmt d).width)
def fpRes (d : Bool) (v : FVal) : Nat := (dFmt d).encode .ieee v none

def okF2 (i : TI) : Bool := i.rc == 0 && decide (i.imm ≤ 1)

def Gikan.tFp2 (g : Gikan) (core t op : Nat) (f : FVal → FVal → FVal) : Gikan :=
  g.tumbleReg core t op true okF2 (fun th i =>
    let d := bit i.imm 0
    th.setX i.rd (fpRes d (f (fpArg d (th.xr i.ra)) (fpArg d (th.xr i.rb)))))

/-- FCVT by its mode. -/
def fcvt (imm a : Nat) : Nat :=
  let d := bit imm 0
  match bits imm 1 3 with
  | 0 => fpRes d (FVal.ofInt (sext a 64))
  | 1 => fpRes d (FVal.ofInt a)
  | 2 => toBits ((fpArg d a).toIntSat (-(2 ^ 63 : Nat)) (2 ^ 63 - 1 : Nat)) 64
  | 3 => fpRes true (fpArg false a)
  | _ => fpRes false (fpArg true a)

def okFcvt (i : TI) : Bool :=
  let m := bits i.imm 1 3
  allZero [i.rb, i.rc, i.imm / 16] && decide (m ≤ 4) && (decide (m ≤ 2) || !bit i.imm 0)

/-! Conditions (R242) -/

def condInt (w c a b : Nat) : Bool :=
  let x := sext a w
  let y := sext b w
  match c with
  | 0 => a == b
  | 1 => a != b
  | 2 => decide (x < y)
  | 3 => decide (y ≤ x)
  | 4 => decide (a < b)
  | 5 => decide (b ≤ a)
  | 6 => decide (x ≤ y)
  | _ => decide (y < x)

def condFp (c : Nat) (a b : FVal) : Bool :=
  match c with
  | 0 => a.eq b
  | 1 => !a.eq b
  | 2 => a.lt b
  | 3 => b.lt a || a.eq b
  | 6 => a.lt b || a.eq b
  | _ => b.lt a

def allOnes (b : Bool) : Nat := if b then 2 ^ 32 - 1 else 0

def okCmp (i : TI) : Bool :=
  let c := bits i.imm 0 3
  let f := bit i.imm 3
  decide (i.rd ≤ 7) && allZero [i.rc, i.imm / 32] && (if f then c != 4 && c != 5 else !bit i.imm 4)

def cmpOf (th : Thread) (i : TI) : Bool :=
  let c := bits i.imm 0 3
  let d := bit i.imm 4
  if bit i.imm 3 then condFp c (fpArg d (th.xr i.ra)) (fpArg d (th.xr i.rb)) else condInt 64 c (th.xr i.ra) (th.xr i.rb)

def okP3 (i : TI) : Bool := decide (i.rd ≤ 7) && decide (i.ra ≤ 7) && decide (i.rb ≤ 7) && allZero [i.rc, i.imm]

/-! Control -/

/-- Jump to a target; one outside the image raises PC at the branch (R236). -/
def Gikan.tJump (g : Gikan) (core t : Nat) (th : Thread) (target : Int) (link : Option Nat) : Gikan ⊕ (Nat × Nat) :=
  match g.pin.images.get? th.item.e.slot with
  | none => .inl g
  | some im =>
    if target < im.base ∨ (im.base + im.count : Nat) ≤ target then .inr (2, stUNSUP)
    else
      let th1 := match link with | some r => th.setX r (th.last + 1) | none => th
      .inl (g.setThread core t { th1 with pc := target.toNat })

/-- ACLK cycles since the item's start (CSR 7). -/
def Gikan.itemCycles (g : Gikan) (th : Thread) : Nat := (g.time - th.start) * g.get F.PWR_STATE_ACLK_MHZ / 1000

/-- The CSRs that a thread can read (R243). -/
def Gikan.csrValue (g : Gikan) (core t : Nat) (th : Thread) (n : Nat) : Option Nat :=
  match n with
  | 0 => some core
  | 1 => some t
  | 2 => some th.item.cmpt
  | 3 => some g.node
  | 4 => some g.epoch
  | 5 => some g.tickNo
  | 6 => some g.time
  | 7 => some (g.itemCycles th)
  | 8 => some (toBits ((th.item.e.cycles : Int) - g.itemCycles th) 64)
  | 9 => some th.lastStatus
  | 10 => some th.seed
  | 16 => some (th.ward.getD 0 0)
  | 17 => some (th.ward.getD 1 0)
  | 18 => some (th.ward.getD 2 0)
  | 19 => some (th.ward.getD 3 0)
  | _ => none

/-- The CSRs that take a write. -/
def Thread.csrPut (th : Thread) (n v : Nat) : Option Thread :=
  match n with
  | 9 => some { th with lastStatus := 0 }
  | 10 => some { th with seed := v }
  | 16 => some { th with ward := th.ward.setD 0 0 v }
  | 17 => some { th with ward := th.ward.setD 1 0 v }
  | 18 => some { th with ward := th.ward.setD 2 0 v }
  | 19 => some { th with ward := th.ward.setD 3 0 v }
  | _ => none

def okEnd (i : TI) : Bool := allZero [i.rd, i.rb, i.rc, i.imm / 65536] && decide (bits i.imm 0 8 ≤ 15) && decide (bits i.imm 8 8 ≤ 40)

/-- The result bytes that END offers: v8 from byte 0 on, then v9. -/
def endBytes (th : Thread) (n : Nat) : List Byte := (leBytes 32 (th.vr 8) ++ leBytes 32 (th.vr 9)).take n

/-- END once its fields are known good (R235). -/
def Gikan.endItem (g : Gikan) (core t : Nat) (th : Thread) (i : TI) : Gikan :=
  let th1 := { th with wait := .ending 0 (bits i.imm 0 8) (th.xr i.ra) (endBytes th (bits i.imm 8 8)) }
  match th.storeFault with
  | some code => if th.acc.isEmpty then g.pinExc core t 7 code else g.setThread core t th1
  | none => (g.setThread core t th1).tryEnd core t

/-! Scratch and memory -/

/-- The address ra + sext(IMM) as an integer. -/
def Thread.addr (th : Thread) (i : TI) : Int := (th.xr i.ra : Int) + sext i.imm 32

/-- A scratch instruction at an address: n bytes, naturally aligned, within the 64 KiB (R236). -/
def tScratch (n : Nat) (a : Int) (f : Nat → Gikan) : Gikan ⊕ (Nat × Nat) :=
  if a < 0 ∨ 65536 < a + n ∨ a % n ≠ 0 then .inr (3, stLENGTH) else .inl (f a.toNat)

/-- The chunk that a CUSTOM kernel updates: its accumulator and its elements (R173). -/
def Gikan.slotOf (g : Gikan) (th : Thread) : Option (List Nat × Nat) :=
  match th.item.by_ with
  | .custom n r c _ elems =>
    let acc := match g.red.streams.get? n with
      | some s => (match s.round r with
        | some x => (match x.chunks.get? c with | some k => k.acc | none => [])
        | none => [])
      | none => []
    some (acc, elems)
  | _ => none

/-- The node bits of ra and its offset plus sext(IMM): none when the offset leaves bits [47:0] (R236 RANGE). -/
def Thread.memAddr (th : Thread) (i : TI) : Option Nat :=
  let o := (addrOff (th.xr i.ra) : Int) + sext i.imm 32
  if o < 0 ∨ (2 ^ 48 : Nat) ≤ o then none else some (mkAddr (addrNode (th.xr i.ra)) o.toNat)

/-- The request of an access (R245). -/
def accReq (th : Thread) (type tc addr n subop ws : Nat) (body payload : List Byte) : Req :=
  ⟨ownHdr type tc th.item.cmpt addr n subop (th.ward.getD ws 0), body, payload⟩

/-- A memory instruction: a fault of an earlier store is met first (STORE; the instruction does not issue), a store beyond 16 outstanding waits,
then SCRATCH, ALIGN and RANGE are looked for. `align` is 1 for GET and PUT. -/
def Gikan.tMem (g : Gikan) (core t : Nat) (th : Thread) (posts : Bool) (scratchBad : Bool) (align : Nat) (rangeBad : Bool) (addr : Option Nat)
    (f : Nat → Gikan) : Gikan :=
  let back := { th with pc := th.last }
  match th.storeFault with
  | some code => (g.setThread core t back).pinExc core t 7 code
  | none =>
    if posts && decide (16 ≤ (th.acc.filter (fun a => a.kind == .store)).length) then g.setThread core t back
    else if scratchBad then g.pinExc core t 3 stLENGTH
    else match addr with
      | some a =>
        if a % align ≠ 0 then g.pinExc core t 4 stUNSUP
        else if rangeBad then g.pinExc core t 5 stLENGTH
        else f a
      | none => g.pinExc core t 5 stLENGTH

/-- ALIGN is looked for before RANGE also when the offset leaves its bits. -/
def Gikan.tAligned (g : Gikan) (core t : Nat) (th : Thread) (i : TI) (posts : Bool) (n : Nat) (f : Nat → Gikan) : Gikan :=
  if th.storeFault.isNone && !(posts && decide (16 ≤ (th.acc.filter (fun a => a.kind == .store)).length)) && th.addr i % n ≠ 0 then
    g.pinExc core t 4 stUNSUP
  else g.tMem core t th posts false n false (th.memAddr i) f

/-- Class and Q of the access controls in RB. -/
def rbTc (i : TI) : Nat := if bit i.rb 3 then 3 else 2
def rbQ (i : TI) : Bool := bit i.rb 2
def rbWs (i : TI) : Nat := bits i.rb 0 2
def okRb (i : TI) : Bool := !bit i.rb 4

/-! Vectors (R241) -/

/-- Element width in bits; the elements of a vector; a floating-point type's format. -/
def etBits (e : Nat) : Nat := match e with | 0 => 8 | 1 => 16 | 2 => 32 | 3 => 64 | 4 => 32 | 5 => 16 | 6 => 16 | _ => 8
def etCount (e : Nat) : Nat := 256 / etBits e
def etFmt (e : Nat) : Option FFmt :=
  match e with | 4 => some .fp32 | 5 => some .bf16 | 6 => some .fp16 | 7 => some .e4m3 | 8 => some .e5m2 | _ => none

def etOf (i : TI) : Nat := bits i.imm 0 4
def isInt (e : Nat) : Bool := decide (e ≤ 3)
def isFp (e : Nat) : Bool := decide (4 ≤ e) && decide (e ≤ 6)
def isEt (e : Nat) : Bool := decide (e ≤ 6)

/-- Element i of a vector of w-bit elements; a vector from its elements. -/
def velem (w v i : Nat) : Nat := bits v (w * i) w
def packV (w : Nat) (es : List Nat) : Nat := es.zipIdx.foldl (fun a e => a + (e.1 % 2 ^ w) * 2 ^ (w * e.2)) 0

/-- A destination whose active elements are new. -/
def vput (w gd old : Nat) (f : Nat → Nat) : Nat := packV w ((List.range (256 / w)).map (fun i => if bit gd i then f i else velem w old i))

def vregs (l : List Nat) : Bool := l.all (fun n => decide (n ≤ 15))

/-- Arithmetic on two elements: integers wrap, floating point is rounded once. -/
def elem2 (e : Nat) (fi : Int → Int → Int) (ff : FVal → FVal → FVal) (a b : Nat) : Nat :=
  match etFmt e with
  | some f => f.encode .ieee (ff (f.decode a) (f.decode b)) none
  | none => toBits (fi (sext a (etBits e)) (sext b (etBits e))) (etBits e)

/-- A two-source vector instruction on types that `types` accepts. -/
def Gikan.tVec2 (g : Gikan) (core t op : Nat) (types : Nat → Bool) (f : Nat → Nat → Nat → Nat) : Gikan :=
  g.tumbleReg core t op false (fun i => vregs [i.rd, i.ra, i.rb] && allZero [i.rc, i.imm / 16] && types (etOf i)) (fun th i =>
    let e := etOf i
    let w := etBits e
    th.setV i.rd (vput w (th.guard i) (th.vr i.rd) (fun k => f e (velem w (th.vr i.ra) k) (velem w (th.vr i.rb) k))))

def shlElem (w n a : Nat) : Nat := if w ≤ n then 0 else a * 2 ^ n % 2 ^ w
def shrElem (w n : Nat) (fill : Bool) (a : Nat) : Nat := if fill then toBits (sext a w / (2 ^ n : Nat)) w else a / 2 ^ n

/-- VRED over the active elements (floating point: each step rounded to binary32). -/
def vred (e mode gd v : Nat) : Nat :=
  let w := etBits e
  let es := (List.range (etCount e)).filterMap (fun k => if bit gd k then some (velem w v k) else none)
  match etFmt e with
  | some f =>
    (match es with
     | [] => 0
     | a :: rest =>
       let op := fun (x y : FVal) => match mode with | 0 => x.add y | 1 => x.min y | _ => x.max y
       rest.foldl (fun acc b => toF32 (op (f32 acc) (f.decode b))) (toF32 (f.decode a)))
  | none =>
    (match es with
     | [] => 0
     | a :: rest =>
       let op := fun (x y : Int) => match mode with | 0 => x + y | 1 => min x y | _ => max x y
       toBits (rest.foldl (fun acc b => op acc (sext b w)) (sext a w)) 64)

/-- Group size of a VDOT by its element type. -/
def dotGroup (e : Nat) : Nat := if e = 5 ∨ e = 6 then 2 else 4

/-- One destination element of VDOT. -/
def vdotElem (e acc a b k : Nat) : Nat :=
  let n := dotGroup e
  let w := etBits e
  let pairs := (List.range n).map (fun j => (velem w a (n * k + j), velem w b (n * k + j)))
  match etFmt e with
  | some f => toF32 (pairs.foldl (fun s p => s.add ((f.decode p.1).mul (f.decode p.2))) (f32 acc))
  | none => toBits (pairs.foldl (fun s p => s + sext p.1 w * sext p.2 w) (sext acc 32)) 32

/-! Conversions (R244) -/

/-- Source elements of a VCVT, the place of the first in the destination, by the counts of the two types and PART; none when PART is out of
range. -/
def cvtRange (nIn nOut part : Nat) : Option (Nat × Nat × Nat) :=
  if nOut < nIn then (if part < nIn / nOut then some (part * nOut, 0, nOut) else none)
  else if nIn < nOut then (if part < nOut / nIn then some (0, part * nIn, nIn) else none)
  else if part = 0 then some (0, 0, nIn) else none

def cvtSrc (e : Nat) : Bool := e == 0 || e == 1 || e == 2 || (decide (4 ≤ e) && decide (e ≤ 8))
def cvtDst (e : Nat) : Bool := e == 2 || (decide (4 ≤ e) && decide (e ≤ 8))

/-- One converted element; `rnd` holds the random bits of stochastic rounding. -/
def cvtElem (src dst a : Nat) (rnd : Option Nat) : Nat :=
  let v := match etFmt src with | some f => f.decode a | none => FVal.ofInt (sext a (etBits src))
  match etFmt dst with
  | some f => f.encode (if dst = 7 ∨ dst = 8 then .sat else .ieee) v rnd
  | none => toBits (v.toIntSat (-(2 ^ 31 : Nat)) (2 ^ 31 - 1 : Nat)) 32

/-- VCVT: destination elements in order, with the state of the generator. -/
def Thread.vcvt (th : Thread) (i : TI) : Thread :=
  let src := etOf i
  let dst := bits i.imm 4 4
  match cvtRange (etCount src) (etCount dst) (bits i.imm 8 2) with
  | none => th
  | some (s0, d0, n) =>
    let va := th.vr i.ra
    let step := fun (acc : List (Nat × Nat) × Nat) (k : Nat) =>
      if !bit (th.guard i) (d0 + k) then acc else
      let a := velem (etBits src) va (s0 + k)
      if bit i.imm 10 && dst != 2 then (acc.1 ++ [(d0 + k, cvtElem src dst a (some (Config.randBits acc.2)))], Config.randNext acc.2 % 2 ^ 64)
      else (acc.1 ++ [(d0 + k, cvtElem src dst a none)], acc.2)
    let (es, seed) := (List.range n).foldl step ([], th.seed)
    let w := etBits dst
    let old := th.vr i.rd
    let v := packV w ((List.range (256 / w)).map (fun k => match es.find? (fun e => e.1 == k) with | some e => e.2 | none => velem w old k))
    { th.setV i.rd v with seed := seed }

/-! The rows: scalar, predicate and control instructions -/

/-- NOP: NOP has no effect (R243). -/
def execTNop (core : Fin 2048) (t : Fin 8) (s : State) : Host.Outcome State Fault Refusal :=
  s.done (s.g.tumbleReg core t 0x01 true (fun i => allZero [i.rd, i.ra, i.rb, i.rc, i.imm]) (fun th _ => th))
/-- ADD: ADD sets rd to ra + b (R243). -/
def execTAdd (core : Fin 2048) (t : Fin 8) (s : State) : Host.Outcome State Fault Refusal :=
  s.done (s.g.tAlu core t 0x10 (fun a b => wrap64 (a + b)))
/-- SUB: SUB sets rd to ra − b (R243). -/
def execTSub (core : Fin 2048) (t : Fin 8) (s : State) : Host.Outcome State Fault Refusal :=
  s.done (s.g.tAlu core t 0x11 sub64)
/-- AND: AND sets rd to ra AND b (R243). -/
def execTAnd (core : Fin 2048) (t : Fin 8) (s : State) : Host.Outcome State Fault Refusal :=
  s.done (s.g.tAlu core t 0x12 (fun a b => a &&& b))
/-- OR: OR sets rd to ra OR b (R243). -/
def execTOr (core : Fin 2048) (t : Fin 8) (s : State) : Host.Outcome State Fault Refusal :=
  s.done (s.g.tAlu core t 0x13 (fun a b => a ||| b))
/-- XOR: XOR sets rd to ra XOR b (R243). -/
def execTXor (core : Fin 2048) (t : Fin 8) (s : State) : Host.Outcome State Fault Refusal :=
  s.done (s.g.tAlu core t 0x14 (fun a b => a ^^^ b))
/-- SLL: SLL shifts ra left by b[5:0] (R243). -/
def execTSll (core : Fin 2048) (t : Fin 8) (s : State) : Host.Outcome State Fault Refusal :=
  s.done (s.g.tAlu core t 0x15 (fun a b => wrap64 (a * 2 ^ (b % 64))))
/-- SRL: SRL shifts ra right by b[5:0] with zero fill (R243). -/
def execTSrl (core : Fin 2048) (t : Fin 8) (s : State) : Host.Outcome State Fault Refusal :=
  s.done (s.g.tAlu core t 0x16 (fun a b => a / 2 ^ (b % 64)))
/-- SRA: SRA shifts ra right by b[5:0] with sign fill (R243). -/
def execTSra (core : Fin 2048) (t : Fin 8) (s : State) : Host.Outcome State Fault Refusal :=
  s.done (s.g.tAlu core t 0x17 sra64)
/-- MUL: MUL sets rd to the low 64 bits of ra × b (R243). -/
def execTMul (core : Fin 2048) (t : Fin 8) (s : State) : Host.Outcome State Fault Refusal :=
  s.done (s.g.tAlu core t 0x18 (fun a b => wrap64 (a * b)))
/-- MULHU: MULHU sets rd to the high 64 bits of the unsigned product (R243). -/
def execTMulhu (core : Fin 2048) (t : Fin 8) (s : State) : Host.Outcome State Fault Refusal :=
  s.done (s.g.tAlu core t 0x19 (fun a b => a * b / 2 ^ 64))
/-- DIVU: DIVU sets rd to the unsigned quotient toward zero, all ones on division by zero (R240). -/
def execTDivu (core : Fin 2048) (t : Fin 8) (s : State) : Host.Outcome State Fault Refusal :=
  s.done (s.g.tAlu core t 0x1A divU64)
/-- REMU: REMU sets rd to the unsigned remainder (R240). -/
def execTRemu (core : Fin 2048) (t : Fin 8) (s : State) : Host.Outcome State Fault Refusal :=
  s.done (s.g.tAlu core t 0x1B remU64)
/-- DIVS: DIVS sets rd to the signed quotient toward zero (R240). -/
def execTDivs (core : Fin 2048) (t : Fin 8) (s : State) : Host.Outcome State Fault Refusal :=
  s.done (s.g.tAlu core t 0x1C divS64)
/-- REMS: REMS sets rd to the signed remainder with the sign of ra (R240). -/
def execTRems (core : Fin 2048) (t : Fin 8) (s : State) : Host.Outcome State Fault Refusal :=
  s.done (s.g.tAlu core t 0x1D remS64)

/-- Fields of an instruction with RD and RA alone. -/
def okUn (i : TI) : Bool := allZero [i.rb, i.rc, i.imm]

/-- CLZ: CLZ sets rd to the count of leading zeros of ra (R243). -/
def execTClz (core : Fin 2048) (t : Fin 8) (s : State) : Host.Outcome State Fault Refusal :=
  s.done (s.g.tumbleReg core t 0x1E true okUn (fun th i => th.setX i.rd (clz64 (th.xr i.ra))))
/-- POPC: POPC sets rd to the count of set bits of ra (R243). -/
def execTPopc (core : Fin 2048) (t : Fin 8) (s : State) : Host.Outcome State Fault Refusal :=
  s.done (s.g.tumbleReg core t 0x1F true okUn (fun th i => th.setX i.rd (popCount (th.xr i.ra) 64)))
/-- MOVI: MOVI sets rd to the sign-extended immediate (R243). -/
def execTMovi (core : Fin 2048) (t : Fin 8) (s : State) : Host.Outcome State Fault Refusal :=
  s.done (s.g.tumbleReg core t 0x20 true (fun i => allZero [i.ra, i.rb, i.rc]) (fun th i => th.setX i.rd (toBits (sext i.imm 32) 64)))
/-- MOVHI: MOVHI sets the high 32 bits of rd from IMM and keeps ra[31:0] (R243). -/
def execTMovhi (core : Fin 2048) (t : Fin 8) (s : State) : Host.Outcome State Fault Refusal :=
  s.done (s.g.tumbleReg core t 0x21 true (fun i => allZero [i.rb, i.rc]) (fun th i => th.setX i.rd (i.imm * 2 ^ 32 + bits (th.xr i.ra) 0 32)))
/-- FADD: FADD sets rd to the FP sum of ra and rb (R240). -/
def execTFadd (core : Fin 2048) (t : Fin 8) (s : State) : Host.Outcome State Fault Refusal := s.done (s.g.tFp2 core t 0x28 FVal.add)
/-- FSUB: FSUB sets rd to the FP difference of ra and rb (R240). -/
def execTFsub (core : Fin 2048) (t : Fin 8) (s : State) : Host.Outcome State Fault Refusal := s.done (s.g.tFp2 core t 0x29 FVal.sub)
/-- FMUL: FMUL sets rd to the FP product of ra and rb (R240). -/
def execTFmul (core : Fin 2048) (t : Fin 8) (s : State) : Host.Outcome State Fault Refusal := s.done (s.g.tFp2 core t 0x2A FVal.mul)
/-- FFMA: FFMA sets rd to ra × rb + rc with one rounding (R240). -/
def execTFfma (core : Fin 2048) (t : Fin 8) (s : State) : Host.Outcome State Fault Refusal :=
  s.done (s.g.tumbleReg core t 0x2B true (fun i => decide (i.imm ≤ 1)) (fun th i =>
    let d := bit i.imm 0
    th.setX i.rd (fpRes d (((fpArg d (th.xr i.ra)).mul (fpArg d (th.xr i.rb))).add (fpArg d (th.xr i.rc))))))
/-- FDIV: FDIV sets rd to the FP quotient of ra and rb (R240). -/
def execTFdiv (core : Fin 2048) (t : Fin 8) (s : State) : Host.Outcome State Fault Refusal := s.done (s.g.tFp2 core t 0x2C FVal.div)
/-- FSQRT: FSQRT sets rd to the FP square root of ra (R240). -/
def execTFsqrt (core : Fin 2048) (t : Fin 8) (s : State) : Host.Outcome State Fault Refusal :=
  s.done (s.g.tumbleReg core t 0x2D true (fun i => i.rb == 0 && okF2 i) (fun th i =>
    th.setX i.rd (fpRes (bit i.imm 0) (fpArg (bit i.imm 0) (th.xr i.ra)).sqrt)))
/-- FMIN: FMIN sets rd to the smaller of ra and rb, with NaN and signed-zero rules (R240). -/
def execTFmin (core : Fin 2048) (t : Fin 8) (s : State) : Host.Outcome State Fault Refusal := s.done (s.g.tFp2 core t 0x2E FVal.min)
/-- FMAX: FMAX sets rd to the larger of ra and rb, with NaN and signed-zero rules (R240). -/
def execTFmax (core : Fin 2048) (t : Fin 8) (s : State) : Host.Outcome State Fault Refusal := s.done (s.g.tFp2 core t 0x2F FVal.max)
/-- FCVT: FCVT converts between integer and FP, or between binary32 and binary64, in the mode IMM selects (R243). -/
def execTFcvt (core : Fin 2048) (t : Fin 8) (s : State) : Host.Outcome State Fault Refusal :=
  s.done (s.g.tumbleReg core t 0x30 true okFcvt (fun th i => th.setX i.rd (fcvt i.imm (th.xr i.ra))))
/-- CMP: CMP sets predicate pd to all ones if the condition holds for ra and rb, else to zero (R242). -/
def execTCmp (core : Fin 2048) (t : Fin 8) (s : State) : Host.Outcome State Fault Refusal :=
  s.done (s.g.tumbleReg core t 0x34 true okCmp (fun th i => th.setP i.rd (allOnes (cmpOf th i))))
/-- CMPI: CMPI compares ra with a sign-extended immediate into predicate pd (R242). -/
def execTCmpi (core : Fin 2048) (t : Fin 8) (s : State) : Host.Outcome State Fault Refusal :=
  s.done (s.g.tumbleReg core t 0x35 true (fun i => decide (i.rd ≤ 7) && allZero [i.rb, i.rc, bits i.imm 3 5]) (fun th i =>
    th.setP i.rd (allOnes (condInt 64 (bits i.imm 0 3) (th.xr i.ra) (toBits (sext (i.imm / 256) 24) 64)))))
/-- PAND: PAND sets pd to pa AND pb (R243). -/
def execTPand (core : Fin 2048) (t : Fin 8) (s : State) : Host.Outcome State Fault Refusal :=
  s.done (s.g.tumbleReg core t 0x36 true okP3 (fun th i => th.setP i.rd (th.pr i.ra &&& th.pr i.rb)))
/-- POR: POR sets pd to pa OR pb (R243). -/
def execTPor (core : Fin 2048) (t : Fin 8) (s : State) : Host.Outcome State Fault Refusal :=
  s.done (s.g.tumbleReg core t 0x37 true okP3 (fun th i => th.setP i.rd (th.pr i.ra ||| th.pr i.rb)))
/-- PNOT: PNOT sets pd to NOT pa (R243). -/
def execTPnot (core : Fin 2048) (t : Fin 8) (s : State) : Host.Outcome State Fault Refusal :=
  s.done (s.g.tumbleReg core t 0x38 true (fun i => i.rb == 0 && okP3 i) (fun th i => th.setP i.rd (th.pr i.ra ^^^ (2 ^ 32 - 1))))
/-- PSET: PSET sets pd to ra[31:0] (R243). -/
def execTPset (core : Fin 2048) (t : Fin 8) (s : State) : Host.Outcome State Fault Refusal :=
  s.done (s.g.tumbleReg core t 0x39 true (fun i => decide (i.rd ≤ 7) && okUn i) (fun th i => th.setP i.rd (bits (th.xr i.ra) 0 32)))
/-- PGET: PGET sets rd to pa, zero-extended (R243). -/
def execTPget (core : Fin 2048) (t : Fin 8) (s : State) : Host.Outcome State Fault Refusal :=
  s.done (s.g.tumbleReg core t 0x3A true (fun i => decide (i.ra ≤ 7) && okUn i) (fun th i => th.setX i.rd (th.pr i.ra)))
/-- BR: BR branches to PC + sext(IMM) within the image (R243). -/
def execTBr (core : Fin 2048) (t : Fin 8) (s : State) : Host.Outcome State Fault Refusal :=
  s.done (s.g.tumbleOr core t 0x40 true (fun i => allZero [i.rd, i.ra, i.rb, i.rc]) (fun g th i => g.tJump core t th (th.last + sext i.imm 32) none))
/-- JAL: JAL saves PC + 1 in rd and branches (R243). -/
def execTJal (core : Fin 2048) (t : Fin 8) (s : State) : Host.Outcome State Fault Refusal :=
  s.done (s.g.tumbleOr core t 0x41 true (fun i => allZero [i.ra, i.rb, i.rc]) (fun g th i => g.tJump core t th (th.last + sext i.imm 32) (some i.rd)))
/-- JR: JR jumps to the absolute index in ra (R243). -/
def execTJr (core : Fin 2048) (t : Fin 8) (s : State) : Host.Outcome State Fault Refusal :=
  s.done (s.g.tumbleOr core t 0x42 true (fun i => allZero [i.rd, i.rb, i.rc, i.imm]) (fun g th i => g.tJump core t th (th.xr i.ra) none))
/-- END: END waits for the thread's posted stores, then ends the item with its status and result (R235). -/
def execTEnd (core : Fin 2048) (t : Fin 8) (s : State) : Host.Outcome State Fault Refusal :=
  s.done (s.g.tIssue core t 0x44 true okEnd (fun g th i =>
    if th.acc.isEmpty then g.itemStep (threadKey core t th.item.id) (fun h => (h.setThread core t th).endItem core t th i)
    else (g.setThread core t th).endItem core t th i))
/-- TRAP: TRAP raises the TRAP exception with IMM[7:0] (R236). -/
def execTTrap (core : Fin 2048) (t : Fin 8) (s : State) : Host.Outcome State Fault Refusal :=
  s.done (s.g.tumbleOr core t 0x45 true (fun i => allZero [i.rd, i.ra, i.rb, i.rc, i.imm / 256]) (fun _ _ i =>
    .inr (9, if i.imm ≤ 15 then i.imm else stUNSUP)))
/-- CSRR: CSRR reads a CSR into rd (R243). -/
def execTCsrr (core : Fin 2048) (t : Fin 8) (s : State) : Host.Outcome State Fault Refusal :=
  s.done (s.g.tumbleOr core t 0x48 true (fun i => allZero [i.ra, i.rb, i.rc, i.imm / 256]) (fun g th i =>
    match g.csrValue core t th i.imm with
    | some v => .inl (g.setThread core t (th.setX i.rd v))
    | none => .inr (1, stUNSUP)))
/-- CSRW: CSRW writes ra to a writable CSR (R243). -/
def execTCsrw (core : Fin 2048) (t : Fin 8) (s : State) : Host.Outcome State Fault Refusal :=
  s.done (s.g.tumbleOr core t 0x49 true (fun i => allZero [i.rd, i.rb, i.rc, i.imm / 256]) (fun g th i =>
    match th.csrPut i.imm (th.xr i.ra) with
    | some th1 => .inl (g.setThread core t th1)
    | none => .inr (1, stUNSUP)))

/-! The rows: scratch and memory -/

/-- SLD: SLD loads 1, 2, 4 or 8 bytes of scratch into rd (R243). -/
def execTSld (core : Fin 2048) (t : Fin 8) (s : State) : Host.Outcome State Fault Refusal :=
  s.done (s.g.tumbleOr core t 0x50 true (fun i => allZero [i.rb, i.rc / 8]) (fun g th i =>
    let n := 2 ^ (i.rc % 4)
    tScratch n (th.addr i) (fun a =>
      let v := leNat (g.getScratch core a n)
      g.setThread core t (th.setX i.rd (if bit i.rc 2 then toBits (sext v (8 * n)) 64 else v)))))
/-- SST: SST stores the low bytes of rd into scratch (R243). -/
def execTSst (core : Fin 2048) (t : Fin 8) (s : State) : Host.Outcome State Fault Refusal :=
  s.done (s.g.tumbleOr core t 0x51 true (fun i => allZero [i.rb, i.rc / 4]) (fun g th i =>
    let n := 2 ^ (i.rc % 4)
    tScratch n (th.addr i) (fun a => g.putScratch core a (leBytes n (th.xr i.rd)))))
/-- VSLD: VSLD loads 32 B of scratch into vd (R243). -/
def execTVsld (core : Fin 2048) (t : Fin 8) (s : State) : Host.Outcome State Fault Refusal :=
  s.done (s.g.tumbleOr core t 0x52 true (fun i => vregs [i.rd] && allZero [i.rb, i.rc]) (fun g th i =>
    tScratch 32 (th.addr i) (fun a => g.setThread core t (th.setV i.rd (leNat (g.getScratch core a 32))))))
/-- VSST: VSST stores vd into 32 B of scratch (R243). -/
def execTVsst (core : Fin 2048) (t : Fin 8) (s : State) : Host.Outcome State Fault Refusal :=
  s.done (s.g.tumbleOr core t 0x53 true (fun i => vregs [i.rd] && allZero [i.rb, i.rc]) (fun g th i =>
    tScratch 32 (th.addr i) (fun a => g.putScratch core a (leBytes 32 (th.vr i.rd)))))
/-- LDSLOT: LDSLOT loads 32 B of the chunk's FP32 accumulator in a CUSTOM kernel (R243). -/
def execTLdslot (core : Fin 2048) (t : Fin 8) (s : State) : Host.Outcome State Fault Refusal :=
  s.done (s.g.tumbleOr core t 0x54 true (fun i => vregs [i.rd] && allZero [i.rb, i.rc]) (fun g th i =>
    match g.slotOf th with
    | none => .inr (1, stUNSUP)
    | some (acc, elems) =>
      let a := th.addr i
      if a < 0 ∨ (4 * elems : Nat) ≤ a ∨ a % 32 ≠ 0 then .inr (3, stLENGTH)
      else .inl (g.setThread core t (th.setV i.rd (packV 32 ((List.range 8).map (fun k => acc.getD (a.toNat / 4 + k) 0)))))))
/-- LD: LD parks the thread and reads memory into rd as a READ (R245). -/
def execTLd (core : Fin 2048) (t : Fin 8) (s : State) : Host.Outcome State Fault Refusal :=
  s.done (s.g.tumble core t 0x58 true (fun i => okRb i && i.rc / 8 == 0) (fun g th i =>
    let n := 2 ^ (i.rc % 4)
    g.tAligned core t th i false n (fun a =>
      g.pinAccess core t (.load i.rd n (bit i.rc 2)) (rbQ i) (accReq th tyREAD (rbTc i) a n 0 (rbWs i) [] []))))
/-- ST: ST posts a WRITE of rd to memory (R245). -/
def execTSt (core : Fin 2048) (t : Fin 8) (s : State) : Host.Outcome State Fault Refusal :=
  s.done (s.g.tumble core t 0x59 true (fun i => okRb i && i.rc / 4 == 0) (fun g th i =>
    let n := 2 ^ (i.rc % 4)
    g.tAligned core t th i true n (fun a =>
      g.pinAccess core t .store (rbQ i) (accReq th tyWRITE (rbTc i) a n 0 (rbWs i) [] (leBytes n (th.xr i.rd))))))
/-- VLD: VLD parks the thread and reads 32 B of memory into vd (R245). -/
def execTVld (core : Fin 2048) (t : Fin 8) (s : State) : Host.Outcome State Fault Refusal :=
  s.done (s.g.tumble core t 0x5A true (fun i => vregs [i.rd] && okRb i && i.rc == 0) (fun g th i =>
    g.tAligned core t th i false 32 (fun a => g.pinAccess core t (.vload i.rd) (rbQ i) (accReq th tyREAD (rbTc i) a 32 0 (rbWs i) [] []))))
/-- VST: VST posts a 32-byte WRITE of vd (R245). -/
def execTVst (core : Fin 2048) (t : Fin 8) (s : State) : Host.Outcome State Fault Refusal :=
  s.done (s.g.tumble core t 0x5B true (fun i => vregs [i.rd] && okRb i && i.rc == 0) (fun g th i =>
    g.tAligned core t th i true 32 (fun a =>
      g.pinAccess core t .store (rbQ i) (accReq th tyWRITE (rbTc i) a 32 0 (rbWs i) [] (leBytes 32 (th.vr i.rd))))))
/-- GET: GET parks the thread and reads rc bytes of memory into scratch (R245). -/
def execTGet (core : Fin 2048) (t : Fin 8) (s : State) : Host.Outcome State Fault Refusal :=
  s.done (s.g.tumble core t 0x5C true okRb (fun g th i =>
    let n := th.xr i.rc
    let at_ := th.xr i.rd
    g.tMem core t th false (decide (65536 < at_ + n)) 1 (n == 0 || decide (4096 < n)) (th.memAddr i) (fun a =>
      g.pinAccess core t (.get at_ n) (rbQ i) (accReq th tyREAD (rbTc i) a n 0 (rbWs i) [] []))))
/-- PUT: PUT posts a WRITE of rc bytes from scratch (R245). -/
def execTPut (core : Fin 2048) (t : Fin 8) (s : State) : Host.Outcome State Fault Refusal :=
  s.done (s.g.tumble core t 0x5D true okRb (fun g th i =>
    let n := th.xr i.rc
    let at_ := th.xr i.rd
    g.tMem core t th true (decide (65536 < at_ + n)) 1 (n == 0 || decide (4096 < n)) (th.memAddr i) (fun a =>
      g.pinAccess core t .store (rbQ i) (accReq th tyWRITE (rbTc i) a n 0 (rbWs i) [] (g.getScratch core at_ n)))))

/-- Body of an ATOM's request: OPERAND, and COMPARE for CAS (R43). -/
def atomBody (th : Thread) (i : TI) (n : Nat) : List Byte :=
  fit (leBytes n (th.xr i.rb)) 16 ++ (if bits i.imm 0 8 = 10 then fit (leBytes n (th.xr i.rd)) 16 else zeros 16)

/-- ATOM: ATOM parks the thread and issues an ATOMIC, returning the old value (R245). -/
def execTAtom (core : Fin 2048) (t : Fin 8) (s : State) : Host.Outcome State Fault Refusal :=
  s.done (s.g.tumble core t 0x5E true (fun i => (i.rc == 2 || i.rc == 3) && i.imm / 2048 == 0) (fun g th i =>
    let n := 2 ^ i.rc
    g.tMem core t th false false n false (some (th.xr i.ra)) (fun a =>
      g.pinAccess core t (.atom i.rd n) (bit i.imm 10) (accReq th tyATOMIC 2 a n (bits i.imm 0 8) (bits i.imm 8 2) (atomBody th i n) []))))
/-- TUMBLER_FENCE: FENCE parks the thread until every access it issued has been answered or has timed out (R247). -/
def execTFence (core : Fin 2048) (t : Fin 8) (s : State) : Host.Outcome State Fault Refusal :=
  s.done (s.g.tumbleOr core t 0x5F true (fun i => allZero [i.rd, i.ra, i.rb, i.rc, i.imm]) (fun g th _ =>
    if !th.acc.isEmpty then .inl (g.setThread core t { th with wait := .fence })
    else match th.storeFault with
      | some code => .inr (7, code)
      | none => .inl g))

/-! The rows: vectors -/

/-- VADD: VADD adds the active elements (R243). -/
def execTVadd (core : Fin 2048) (t : Fin 8) (s : State) : Host.Outcome State Fault Refusal :=
  s.done (s.g.tVec2 core t 0x70 isEt (fun e => elem2 e (fun a b => a + b) FVal.add))
/-- VSUB: VSUB subtracts the active elements (R243). -/
def execTVsub (core : Fin 2048) (t : Fin 8) (s : State) : Host.Outcome State Fault Refusal :=
  s.done (s.g.tVec2 core t 0x71 isEt (fun e => elem2 e (fun a b => a - b) FVal.sub))
/-- VMUL: VMUL multiplies the active elements (R243). -/
def execTVmul (core : Fin 2048) (t : Fin 8) (s : State) : Host.Outcome State Fault Refusal :=
  s.done (s.g.tVec2 core t 0x72 isEt (fun e => elem2 e (fun a b => a * b) FVal.mul))
/-- VFMA: VFMA fuses multiply and add on FP elements (R243). -/
def execTVfma (core : Fin 2048) (t : Fin 8) (s : State) : Host.Outcome State Fault Refusal :=
  s.done (s.g.tumbleReg core t 0x73 false (fun i => vregs [i.rd, i.ra, i.rb, i.rc] && i.imm / 16 == 0 && isFp (etOf i)) (fun th i =>
    let e := etOf i
    let w := etBits e
    match etFmt e with
    | none => th
    | some f => th.setV i.rd (vput w (th.guard i) (th.vr i.rd) (fun k =>
        let x := fun (r : Nat) => f.decode (velem w (th.vr r) k)
        f.encode .ieee (((x i.ra).mul (x i.rb)).add (x i.rc)) none))))
/-- VMIN: VMIN takes the smaller of each pair of elements (R243). -/
def execTVmin (core : Fin 2048) (t : Fin 8) (s : State) : Host.Outcome State Fault Refusal :=
  s.done (s.g.tVec2 core t 0x74 isEt (fun e => elem2 e min FVal.min))
/-- VMAX: VMAX takes the larger of each pair of elements (R243). -/
def execTVmax (core : Fin 2048) (t : Fin 8) (s : State) : Host.Outcome State Fault Refusal :=
  s.done (s.g.tVec2 core t 0x75 isEt (fun e => elem2 e max FVal.max))
/-- VAND: VAND takes the bitwise AND of integer elements (R243). -/
def execTVand (core : Fin 2048) (t : Fin 8) (s : State) : Host.Outcome State Fault Refusal :=
  s.done (s.g.tVec2 core t 0x76 isInt (fun _ a b => a &&& b))
/-- VOR: VOR takes the bitwise OR of integer elements (R243). -/
def execTVor (core : Fin 2048) (t : Fin 8) (s : State) : Host.Outcome State Fault Refusal :=
  s.done (s.g.tVec2 core t 0x77 isInt (fun _ a b => a ||| b))
/-- VXOR: VXOR takes the bitwise XOR of integer elements (R243). -/
def execTVxor (core : Fin 2048) (t : Fin 8) (s : State) : Host.Outcome State Fault Refusal :=
  s.done (s.g.tVec2 core t 0x78 isInt (fun _ a b => a ^^^ b))
/-- VSHL: VSHL shifts each element left by IMM[13:8] (R243). -/
def execTVshl (core : Fin 2048) (t : Fin 8) (s : State) : Host.Outcome State Fault Refusal :=
  s.done (s.g.tumbleReg core t 0x79 false
    (fun i => vregs [i.rd, i.ra] && allZero [i.rb, i.rc, bits i.imm 4 4, i.imm / 2 ^ 14] && isEt (etOf i)) (fun th i =>
    let w := etBits (etOf i)
    th.setV i.rd (vput w (th.guard i) (th.vr i.rd) (fun k => shlElem w (bits i.imm 8 6) (velem w (th.vr i.ra) k)))))
/-- VSHR: VSHR shifts each element right, with optional sign fill (R243). -/
def execTVshr (core : Fin 2048) (t : Fin 8) (s : State) : Host.Outcome State Fault Refusal :=
  s.done (s.g.tumbleReg core t 0x7A false
    (fun i => vregs [i.rd, i.ra] && allZero [i.rb, i.rc, bits i.imm 4 4, i.imm / 2 ^ 15] && isEt (etOf i)) (fun th i =>
    let w := etBits (etOf i)
    th.setV i.rd (vput w (th.guard i) (th.vr i.rd) (fun k => shrElem w (bits i.imm 8 6) (bit i.imm 14) (velem w (th.vr i.ra) k)))))
/-- VCMP: VCMP writes per-element comparison bits into pd (R243). -/
def execTVcmp (core : Fin 2048) (t : Fin 8) (s : State) : Host.Outcome State Fault Refusal :=
  s.done (s.g.tumbleReg core t 0x7B false
    (fun i => decide (i.rd ≤ 7) && vregs [i.ra, i.rb] && allZero [i.rc, i.imm / 2 ^ 7] && isEt (etOf i) &&
      (isInt (etOf i) || (bits i.imm 4 3 != 4 && bits i.imm 4 3 != 5))) (fun th i =>
    let e := etOf i
    let w := etBits e
    let c := bits i.imm 4 3
    th.setP i.rd ((List.range (etCount e)).foldl (fun p k =>
      let a := velem w (th.vr i.ra) k
      let b := velem w (th.vr i.rb) k
      let hold := match etFmt e with | some f => condFp c (f.decode a) (f.decode b) | none => condInt w c a b
      if bit (th.guard i) k && hold then p + 2 ^ k else p) 0)))
/-- VMOV: VMOV copies or selects elements (R243). -/
def execTVmov (core : Fin 2048) (t : Fin 8) (s : State) : Host.Outcome State Fault Refusal :=
  s.done (s.g.tumbleReg core t 0x7C false (fun i => vregs [i.rd, i.ra] && allZero [i.rb, i.rc, i.imm / 16] && isEt (etOf i)) (fun th i =>
    let w := etBits (etOf i)
    th.setV i.rd (vput w (th.guard i) (th.vr i.rd) (fun k => velem w (th.vr i.ra) k))))
/-- VSPLAT: VSPLAT broadcasts the low bits of ra to every active element (R243). -/
def execTVsplat (core : Fin 2048) (t : Fin 8) (s : State) : Host.Outcome State Fault Refusal :=
  s.done (s.g.tumbleReg core t 0x7D false (fun i => vregs [i.rd] && allZero [i.rb, i.rc, i.imm / 16] && isEt (etOf i)) (fun th i =>
    let w := etBits (etOf i)
    th.setV i.rd (vput w (th.guard i) (th.vr i.rd) (fun _ => th.xr i.ra))))

/-- The element that VEXT and VINS name lies in the vector; bits 4 to 7 and those above 12 are unused. -/
def okIndex (i : TI) : Bool :=
  allZero [i.rb, i.rc, bits i.imm 4 4, i.imm / 2 ^ 13] && isEt (etOf i) && decide (bits i.imm 8 5 < etCount (etOf i))

/-- VEXT: VEXT extracts one element into rd (R243). -/
def execTVext (core : Fin 2048) (t : Fin 8) (s : State) : Host.Outcome State Fault Refusal :=
  s.done (s.g.tumbleReg core t 0x7E false (fun i => vregs [i.ra] && okIndex i) (fun th i =>
    if bit (th.guard i) (bits i.imm 8 5) then th.setX i.rd (velem (etBits (etOf i)) (th.vr i.ra) (bits i.imm 8 5)) else th))
/-- VINS: VINS inserts the low bits of ra into one element (R243). -/
def execTVins (core : Fin 2048) (t : Fin 8) (s : State) : Host.Outcome State Fault Refusal :=
  s.done (s.g.tumbleReg core t 0x7F false (fun i => vregs [i.rd] && okIndex i) (fun th i =>
    let k := bits i.imm 8 5
    th.setV i.rd (vput (etBits (etOf i)) (if bit (th.guard i) k then 2 ^ k else 0) (th.vr i.rd) (fun _ => th.xr i.ra))))
/-- VRED: VRED reduces the active elements by SUM, MIN or MAX into rd (R243). -/
def execTVred (core : Fin 2048) (t : Fin 8) (s : State) : Host.Outcome State Fault Refusal :=
  s.done (s.g.tumbleReg core t 0x80 false
    (fun i => vregs [i.ra] && allZero [i.rb, i.rc, i.imm / 2 ^ 6] && isEt (etOf i) && decide (bits i.imm 4 2 ≤ 2)) (fun th i =>
    th.setX i.rd (vred (etOf i) (bits i.imm 4 2) (th.guard i) (th.vr i.ra))))
/-- VCVT: VCVT converts elements between types, with widening, narrowing, rounding and saturation (R244). -/
def execTVcvt (core : Fin 2048) (t : Fin 8) (s : State) : Host.Outcome State Fault Refusal :=
  s.done (s.g.tumbleReg core t 0x81 false
    (fun i => vregs [i.rd, i.ra] && allZero [i.rb, i.rc, i.imm / 2 ^ 11] && cvtSrc (etOf i) && cvtDst (bits i.imm 4 4) &&
      (cvtRange (etCount (etOf i)) (etCount (bits i.imm 4 4)) (bits i.imm 8 2)).isSome) (fun th i => th.vcvt i))
/-- VDOT: VDOT accumulates exact group dot products into vd with one rounding (R243). -/
def execTVdot (core : Fin 2048) (t : Fin 8) (s : State) : Host.Outcome State Fault Refusal :=
  s.done (s.g.tumbleReg core t 0x82 false
    (fun i => vregs [i.rd, i.ra, i.rb] && allZero [i.rc, i.imm / 16] && (etOf i == 0 || decide (5 ≤ etOf i ∧ etOf i ≤ 8))) (fun th i =>
    th.setV i.rd (vput 32 (th.guard i) (th.vr i.rd) (fun k => vdotElem (etOf i) (velem 32 (th.vr i.rd) k) (th.vr i.ra) (th.vr i.rb) k))))
/-- VPERM: VPERM permutes the bytes of va by vb (R243). -/
def execTVperm (core : Fin 2048) (t : Fin 8) (s : State) : Host.Outcome State Fault Refusal :=
  s.done (s.g.tumbleReg core t 0x83 false (fun i => vregs [i.rd, i.ra, i.rb] && allZero [i.rc, i.imm]) (fun th i =>
    th.setV i.rd (vput 8 (th.guard i) (th.vr i.rd) (fun k =>
      let b := velem 8 (th.vr i.rb) k
      if bit b 7 then 0 else velem 8 (th.vr i.ra) (b % 32)))))
/-- VDIV: VDIV divides FP elements (R243). -/
def execTVdiv (core : Fin 2048) (t : Fin 8) (s : State) : Host.Outcome State Fault Refusal :=
  s.done (s.g.tVec2 core t 0x84 isFp (fun e => elem2 e (fun a _ => a) FVal.div))
/-- VSQRT: VSQRT takes the square root of FP elements (R243). -/
def execTVsqrt (core : Fin 2048) (t : Fin 8) (s : State) : Host.Outcome State Fault Refusal :=
  s.done (s.g.tumbleReg core t 0x85 false (fun i => vregs [i.rd, i.ra] && allZero [i.rb, i.rc, i.imm / 16] && isFp (etOf i)) (fun th i =>
    let e := etOf i
    let w := etBits e
    match etFmt e with
    | none => th
    | some f => th.setV i.rd (vput w (th.guard i) (th.vr i.rd) (fun k => f.encode .ieee (f.decode (velem w (th.vr i.ra) k)).sqrt none))))

end Sys2Proof.Machine
end

