-- ==== Sys2Proof/Machine/Dispatch.lean ====
section
/-!
DEFINITION. The dispatch: one arm per command of the table, each one direct call of its meaning.
-/

namespace Sys2Proof.Machine

def exec (i : Instr) (s : State) : Host.Outcome State Fault Refusal :=
  match i with
  | .registerWrite bus off width data => Sys2Proof.Machine.execRegisterWrite bus off width data s
  | .mapHomeReqRead bus half => Sys2Proof.Machine.execMapHomeReqRead bus half s
  | .memRepairCandRead bus half => Sys2Proof.Machine.execMemRepairCandRead bus half s
  | .redStraggler0Read bus half => Sys2Proof.Machine.execRedStraggler0Read bus half s
  | .fltCheckLog0Read bus half => Sys2Proof.Machine.execFltCheckLog0Read bus half s
  | .tickRun w => Sys2Proof.Machine.execTickRun w s
  | .masterTickStart => Sys2Proof.Machine.execMasterTickStart s
  | .tickStart => Sys2Proof.Machine.execTickStart s
  | .syncReqSend lead => Sys2Proof.Machine.execSyncReqSend lead s
  | .syncReq p m since wait => Sys2Proof.Machine.execSyncReq p m since wait s
  | .syncResp p m since => Sys2Proof.Machine.execSyncResp p m since s
  | .holdover => Sys2Proof.Machine.execHoldover s
  | .holdoverErrorLimit => Sys2Proof.Machine.execHoldoverErrorLimit s
  | .tickBoundary => Sys2Proof.Machine.execTickBoundary s
  | .periodChange => Sys2Proof.Machine.execPeriodChange s
  | .tickPeriodWrite w => Sys2Proof.Machine.execTickPeriodWrite w s
  | .switchAtWrite w => Sys2Proof.Machine.execSwitchAtWrite w s
  | .tickRefEdge => Sys2Proof.Machine.execTickRefEdge s
  | .tickRefMissing => Sys2Proof.Machine.execTickRefMissing s
  | .itemAdmit u t => Sys2Proof.Machine.execItemAdmit u t s
  | .itemEnd u t => Sys2Proof.Machine.execItemEnd u t s
  | .tickClrCnt w => Sys2Proof.Machine.execTickClrCnt w s
  | .read x q => Sys2Proof.Machine.execRead x q s
  | .write x q => Sys2Proof.Machine.execWrite x q s
  | .atomic x q => Sys2Proof.Machine.execAtomic x q s
  | .triggerEntry x q => Sys2Proof.Machine.execTriggerEntry x q s
  | .triggerCommand x q => Sys2Proof.Machine.execTriggerCommand x q s
  | .contrib x q => Sys2Proof.Machine.execContrib x q s
  | .gatherReq x q => Sys2Proof.Machine.execGatherReq x q s
  | .filterReq x q => Sys2Proof.Machine.execFilterReq x q s
  | .scoreReq x q => Sys2Proof.Machine.execScoreReq x q s
  | .fence x q => Sys2Proof.Machine.execFence x q s
  | .msg x q => Sys2Proof.Machine.execMsg x q s
  | .lend x q => Sys2Proof.Machine.execLend x q s
  | .reclaim x q => Sys2Proof.Machine.execReclaim x q s
  | .publish x q => Sys2Proof.Machine.execPublish x q s
  | .response x r => Sys2Proof.Machine.execResponse x r s
  | .requestResend tag => Sys2Proof.Machine.execRequestResend tag s
  | .requestTimeout tag => Sys2Proof.Machine.execRequestTimeout tag s
  | .busyResend n => Sys2Proof.Machine.execBusyResend n s
  | .tagWaitIssue => Sys2Proof.Machine.execTagWaitIssue s
  | .mapStageStore w n => Sys2Proof.Machine.execMapStageStore w n s
  | .mapArmWrite w => Sys2Proof.Machine.execMapArmWrite w s
  | .mapCommit => Sys2Proof.Machine.execMapCommit s
  | .joinCommit => Sys2Proof.Machine.execJoinCommit s
  | .hingeRetire => Sys2Proof.Machine.execHingeRetire s
  | .hingeTimeout => Sys2Proof.Machine.execHingeTimeout s
  | .mapQuiesceWrite w => Sys2Proof.Machine.execMapQuiesceWrite w s
  | .quiesceDone => Sys2Proof.Machine.execQuiesceDone s
  | .mapRevokeGo w => Sys2Proof.Machine.execMapRevokeGo w s
  | .revokeDone => Sys2Proof.Machine.execRevokeDone s
  | .revokeDrainTimeout => Sys2Proof.Machine.execRevokeDrainTimeout s
  | .handoverSend entry => Sys2Proof.Machine.execHandoverSend entry s
  | .handover x q => Sys2Proof.Machine.execHandover x q s
  | .handoverAck x r => Sys2Proof.Machine.execHandoverAck x r s
  | .handoverResend entry => Sys2Proof.Machine.execHandoverResend entry s
  | .handoverDeadline entry => Sys2Proof.Machine.execHandoverDeadline entry s
  | .homeRevert x q => Sys2Proof.Machine.execHomeRevert x q s
  | .homeRevertResend entry => Sys2Proof.Machine.execHomeRevertResend entry s
  | .mapClrCnt w => Sys2Proof.Machine.execMapClrCnt w s
  | .stackTrainingEnd h ok repairs => Sys2Proof.Machine.execStackTrainingEnd h ok repairs s
  | .stampingEnd => Sys2Proof.Machine.execStampingEnd s
  | .releaseStampEnd frame => Sys2Proof.Machine.execReleaseStampEnd frame s
  | .patrolScrub cell newSyms => Sys2Proof.Machine.execPatrolScrub cell newSyms s
  | .memRetireWrite w => Sys2Proof.Machine.execMemRetireWrite w s
  | .memFlipArm w => Sys2Proof.Machine.execMemFlipArm w s
  | .memClrCnt w => Sys2Proof.Machine.execMemClrCnt w s
  | .fetchGranuleArrive entry page granule how => Sys2Proof.Machine.execFetchGranuleArrive entry page granule how s
  | .heatDecay => Sys2Proof.Machine.execHeatDecay s
  | .evict => Sys2Proof.Machine.execEvict s
  | .demotionEnd entry page => Sys2Proof.Machine.execDemotionEnd entry page s
  | .hintPrefetch w => Sys2Proof.Machine.execHintPrefetch w s
  | .hintCold w => Sys2Proof.Machine.execHintCold w s
  | .hintKeep w => Sys2Proof.Machine.execHintKeep w s
  | .hintUnkeep w => Sys2Proof.Machine.execHintUnkeep w s
  | .hintDrop w => Sys2Proof.Machine.execHintDrop w s
  | .scheduleReplace c => Sys2Proof.Machine.execScheduleReplace c s
  | .stagingStart c tile => Sys2Proof.Machine.execStagingStart c tile s
  | .tileLate c tile => Sys2Proof.Machine.execTileLate c tile s
  | .tileRelease c tile => Sys2Proof.Machine.execTileRelease c tile s
  | .reclaimNoticeEnd n => Sys2Proof.Machine.execReclaimNoticeEnd n s
  | .homeCopy x q => Sys2Proof.Machine.execHomeCopy x q s
  | .homeLine x q => Sys2Proof.Machine.execHomeLine x q s
  | .pullEnd entry => Sys2Proof.Machine.execPullEnd entry s
  | .copyDone x q => Sys2Proof.Machine.execCopyDone x q s
  | .copyCancel x q => Sys2Proof.Machine.execCopyCancel x q s
  | .domainStatus x q => Sys2Proof.Machine.execDomainStatus x q s
  | .domainStatusSend => Sys2Proof.Machine.execDomainStatusSend s
  | .controlResend n => Sys2Proof.Machine.execControlResend n s
  | .copyCancelTimeout entry => Sys2Proof.Machine.execCopyCancelTimeout entry s
  | .copyHoldExpiry entry => Sys2Proof.Machine.execCopyHoldExpiry entry s
  | .homeCopyStart entry => Sys2Proof.Machine.execHomeCopyStart entry s
  | .frameMoveEnd frame => Sys2Proof.Machine.execFrameMoveEnd frame s
  | .blockRelocate block cause => Sys2Proof.Machine.execBlockRelocate block cause s
  | .programFail block => Sys2Proof.Machine.execProgramFail block s
  | .ftlReady journalOk suspects failed => Sys2Proof.Machine.execFtlReady journalOk suspects failed s
  | .tierClrCnt w => Sys2Proof.Machine.execTierClrCnt w s
  | .rdShared x q => Sys2Proof.Machine.execRdShared x q s
  | .rdOwn x q => Sys2Proof.Machine.execRdOwn x q s
  | .upgrade x q => Sys2Proof.Machine.execUpgrade x q s
  | .wbDirty x q => Sys2Proof.Machine.execWbDirty x q s
  | .complete x q => Sys2Proof.Machine.execComplete x q s
  | .snpRsp x q => Sys2Proof.Machine.execSnpRsp x q s
  | .transactionOpen line dirOk => Sys2Proof.Machine.execTransactionOpen line dirOk s
  | .snoopTimeout line node => Sys2Proof.Machine.execSnoopTimeout line node s
  | .completeTimeout line => Sys2Proof.Machine.execCompleteTimeout line s
  | .cohRecallGo w => Sys2Proof.Machine.execCohRecallGo w s
  | .recallDone => Sys2Proof.Machine.execRecallDone s
  | .cohDeadGo w => Sys2Proof.Machine.execCohDeadGo w s
  | .deadSweepEnd => Sys2Proof.Machine.execDeadSweepEnd s
  | .cohPeekGo w => Sys2Proof.Machine.execCohPeekGo w s
  | .cohAgentDataWrite w => Sys2Proof.Machine.execCohAgentDataWrite w s
  | .cohClrCnt w => Sys2Proof.Machine.execCohClrCnt w s
  | .reduceSetupCreate k => Sys2Proof.Machine.execReduceSetupCreate k s
  | .reduceSetupDestroy k => Sys2Proof.Machine.execReduceSetupDestroy k s
  | .reduceSetupRekey k => Sys2Proof.Machine.execReduceSetupRekey k s
  | .addItemEnd lane => Sys2Proof.Machine.execAddItemEnd lane s
  | .outputItemEnd lane => Sys2Proof.Machine.execOutputItemEnd lane s
  | .updateItemEnd lane => Sys2Proof.Machine.execUpdateItemEnd lane s
  | .relayDownEnd lane => Sys2Proof.Machine.execRelayDownEnd lane s
  | .roundDeadline stream round => Sys2Proof.Machine.execRoundDeadline stream round s
  | .redAbortGo w => Sys2Proof.Machine.execRedAbortGo w s
  | .redClrCnt w => Sys2Proof.Machine.execRedClrCnt w s
  | .gather k => Sys2Proof.Machine.execGather k s
  | .filter k => Sys2Proof.Machine.execFilter k s
  | .score k => Sys2Proof.Machine.execScore k s
  | .selectionEntriesFree k => Sys2Proof.Machine.execSelectionEntriesFree k s
  | .mergeStart k => Sys2Proof.Machine.execMergeStart k s
  | .gfsClrCnt w => Sys2Proof.Machine.execGfsClrCnt w s
  | .cmpTableLoadGo w => Sys2Proof.Machine.execCmpTableLoadGo w s
  | .tableSlotTake => Sys2Proof.Machine.execTableSlotTake s
  | .tableLoadEnd => Sys2Proof.Machine.execTableLoadEnd s
  | .slotEmpty table slot => Sys2Proof.Machine.execSlotEmpty table slot s
  | .tableEccError table slot => Sys2Proof.Machine.execTableEccError table slot s
  | .cmpClrCnt w => Sys2Proof.Machine.execCmpClrCnt w s
  | .compartmentSwitch core => Sys2Proof.Machine.execCompartmentSwitch core s
  | .kill core t => Sys2Proof.Machine.execKill core t s
  | .pinImageLoadGo w => Sys2Proof.Machine.execPinImageLoadGo w s
  | .imageLoadEnd => Sys2Proof.Machine.execImageLoadEnd s
  | .pinImageUnload w => Sys2Proof.Machine.execPinImageUnload w s
  | .unloadEnd => Sys2Proof.Machine.execUnloadEnd s
  | .run k => Sys2Proof.Machine.execRun k s
  | .tNop core t => Sys2Proof.Machine.execTNop core t s
  | .tAdd core t => Sys2Proof.Machine.execTAdd core t s
  | .tSub core t => Sys2Proof.Machine.execTSub core t s
  | .tAnd core t => Sys2Proof.Machine.execTAnd core t s
  | .tOr core t => Sys2Proof.Machine.execTOr core t s
  | .tXor core t => Sys2Proof.Machine.execTXor core t s
  | .tSll core t => Sys2Proof.Machine.execTSll core t s
  | .tSrl core t => Sys2Proof.Machine.execTSrl core t s
  | .tSra core t => Sys2Proof.Machine.execTSra core t s
  | .tMul core t => Sys2Proof.Machine.execTMul core t s
  | .tMulhu core t => Sys2Proof.Machine.execTMulhu core t s
  | .tDivu core t => Sys2Proof.Machine.execTDivu core t s
  | .tRemu core t => Sys2Proof.Machine.execTRemu core t s
  | .tDivs core t => Sys2Proof.Machine.execTDivs core t s
  | .tRems core t => Sys2Proof.Machine.execTRems core t s
  | .tClz core t => Sys2Proof.Machine.execTClz core t s
  | .tPopc core t => Sys2Proof.Machine.execTPopc core t s
  | .tMovi core t => Sys2Proof.Machine.execTMovi core t s
  | .tMovhi core t => Sys2Proof.Machine.execTMovhi core t s
  | .tFadd core t => Sys2Proof.Machine.execTFadd core t s
  | .tFsub core t => Sys2Proof.Machine.execTFsub core t s
  | .tFmul core t => Sys2Proof.Machine.execTFmul core t s
  | .tFfma core t => Sys2Proof.Machine.execTFfma core t s
  | .tFdiv core t => Sys2Proof.Machine.execTFdiv core t s
  | .tFsqrt core t => Sys2Proof.Machine.execTFsqrt core t s
  | .tFmin core t => Sys2Proof.Machine.execTFmin core t s
  | .tFmax core t => Sys2Proof.Machine.execTFmax core t s
  | .tFcvt core t => Sys2Proof.Machine.execTFcvt core t s
  | .tCmp core t => Sys2Proof.Machine.execTCmp core t s
  | .tCmpi core t => Sys2Proof.Machine.execTCmpi core t s
  | .tPand core t => Sys2Proof.Machine.execTPand core t s
  | .tPor core t => Sys2Proof.Machine.execTPor core t s
  | .tPnot core t => Sys2Proof.Machine.execTPnot core t s
  | .tPset core t => Sys2Proof.Machine.execTPset core t s
  | .tPget core t => Sys2Proof.Machine.execTPget core t s
  | .tBr core t => Sys2Proof.Machine.execTBr core t s
  | .tJal core t => Sys2Proof.Machine.execTJal core t s
  | .tJr core t => Sys2Proof.Machine.execTJr core t s
  | .tEnd core t => Sys2Proof.Machine.execTEnd core t s
  | .tTrap core t => Sys2Proof.Machine.execTTrap core t s
  | .tCsrr core t => Sys2Proof.Machine.execTCsrr core t s
  | .tCsrw core t => Sys2Proof.Machine.execTCsrw core t s
  | .tSld core t => Sys2Proof.Machine.execTSld core t s
  | .tSst core t => Sys2Proof.Machine.execTSst core t s
  | .tVsld core t => Sys2Proof.Machine.execTVsld core t s
  | .tVsst core t => Sys2Proof.Machine.execTVsst core t s
  | .tLdslot core t => Sys2Proof.Machine.execTLdslot core t s
  | .tLd core t => Sys2Proof.Machine.execTLd core t s
  | .tSt core t => Sys2Proof.Machine.execTSt core t s
  | .tVld core t => Sys2Proof.Machine.execTVld core t s
  | .tVst core t => Sys2Proof.Machine.execTVst core t s
  | .tGet core t => Sys2Proof.Machine.execTGet core t s
  | .tPut core t => Sys2Proof.Machine.execTPut core t s
  | .tAtom core t => Sys2Proof.Machine.execTAtom core t s
  | .tFence core t => Sys2Proof.Machine.execTFence core t s
  | .tVadd core t => Sys2Proof.Machine.execTVadd core t s
  | .tVsub core t => Sys2Proof.Machine.execTVsub core t s
  | .tVmul core t => Sys2Proof.Machine.execTVmul core t s
  | .tVfma core t => Sys2Proof.Machine.execTVfma core t s
  | .tVmin core t => Sys2Proof.Machine.execTVmin core t s
  | .tVmax core t => Sys2Proof.Machine.execTVmax core t s
  | .tVand core t => Sys2Proof.Machine.execTVand core t s
  | .tVor core t => Sys2Proof.Machine.execTVor core t s
  | .tVxor core t => Sys2Proof.Machine.execTVxor core t s
  | .tVshl core t => Sys2Proof.Machine.execTVshl core t s
  | .tVshr core t => Sys2Proof.Machine.execTVshr core t s
  | .tVcmp core t => Sys2Proof.Machine.execTVcmp core t s
  | .tVmov core t => Sys2Proof.Machine.execTVmov core t s
  | .tVsplat core t => Sys2Proof.Machine.execTVsplat core t s
  | .tVext core t => Sys2Proof.Machine.execTVext core t s
  | .tVins core t => Sys2Proof.Machine.execTVins core t s
  | .tVred core t => Sys2Proof.Machine.execTVred core t s
  | .tVcvt core t => Sys2Proof.Machine.execTVcvt core t s
  | .tVdot core t => Sys2Proof.Machine.execTVdot core t s
  | .tVperm core t => Sys2Proof.Machine.execTVperm core t s
  | .tVdiv core t => Sys2Proof.Machine.execTVdiv core t s
  | .tVsqrt core t => Sys2Proof.Machine.execTVsqrt core t s
  | .pinClrCnt w => Sys2Proof.Machine.execPinClrCnt w s
  | .keywayWrite bus off width data => Sys2Proof.Machine.execKeywayWrite bus off width data s
  | .heldZoneAccept c z => Sys2Proof.Machine.execHeldZoneAccept c z s
  | .zoneTimeout c z => Sys2Proof.Machine.execZoneTimeout c z s
  | .move k => Sys2Proof.Machine.execMove k s
  | .fill k => Sys2Proof.Machine.execFill k s
  | .publishCommand k => Sys2Proof.Machine.execPublishCommand k s
  | .schedule k => Sys2Proof.Machine.execSchedule k s
  | .lendCommand k => Sys2Proof.Machine.execLendCommand k s
  | .reclaimCommand k => Sys2Proof.Machine.execReclaimCommand k s
  | .fenceCommand k => Sys2Proof.Machine.execFenceCommand k s
  | .translationEnd k => Sys2Proof.Machine.execTranslationEnd k s
  | .pagesResident k => Sys2Proof.Machine.execPagesResident k s
  | .hostFillEnd k granules => Sys2Proof.Machine.execHostFillEnd k granules s
  | .afterRelease k => Sys2Proof.Machine.execAfterRelease k s
  | .commandComplete k => Sys2Proof.Machine.execCommandComplete k s
  | .subCqHeadWrite w => Sys2Proof.Machine.execSubCqHeadWrite w s
  | .subMqHeadWrite w => Sys2Proof.Machine.execSubMqHeadWrite w s
  | .subXlateInvalGo w => Sys2Proof.Machine.execSubXlateInvalGo w s
  | .xlateInvalDone => Sys2Proof.Machine.execXlateInvalDone s
  | .subClrCnt w => Sys2Proof.Machine.execSubClrCnt w s
  | .dataFlit p f => Sys2Proof.Machine.execDataFlit p f s
  | .idleFlit p f => Sys2Proof.Machine.execIdleFlit p f s
  | .replayTimeout p => Sys2Proof.Machine.execReplayTimeout p s
  | .nakTimeout p => Sys2Proof.Machine.execNakTimeout p s
  | .paramSend p => Sys2Proof.Machine.execParamSend p s
  | .param p m => Sys2Proof.Machine.execParam p m s
  | .laneStatusSend p => Sys2Proof.Machine.execLaneStatusSend p s
  | .laneStatus p m => Sys2Proof.Machine.execLaneStatus p m s
  | .linkLight p => Sys2Proof.Machine.execLinkLight p s
  | .codewordLock p => Sys2Proof.Machine.execCodewordLock p s
  | .trainDone p own partner => Sys2Proof.Machine.execTrainDone p own partner s
  | .linkStateTimeout p => Sys2Proof.Machine.execLinkStateTimeout p s
  | .backoffEnd p => Sys2Proof.Machine.execBackoffEnd p s
  | .laneLoss p lane => Sys2Proof.Machine.execLaneLoss p lane s
  | .laserFeedLoss t f => Sys2Proof.Machine.execLaserFeedLoss t f s
  | .laserFeedReturn t f => Sys2Proof.Machine.execLaserFeedReturn t f s
  | .laserLoop t f => Sys2Proof.Machine.execLaserLoop t f s
  | .lnkRetrainWrite w p => Sys2Proof.Machine.execLnkRetrainWrite w p s
  | .lnkEnableWrite w p => Sys2Proof.Machine.execLnkEnableWrite w p s
  | .lnkClrCnt w p => Sys2Proof.Machine.execLnkClrCnt w p s
  | .xbarShaperWrite w o c => Sys2Proof.Machine.execXbarShaperWrite w o c s
  | .xbarGateEntryGo w => Sys2Proof.Machine.execXbarGateEntryGo w s
  | .xbarGateSwapAtWrite w p => Sys2Proof.Machine.execXbarGateSwapAtWrite w p s
  | .gateSwap p => Sys2Proof.Machine.execGateSwap p s
  | .gateEntryEnd p => Sys2Proof.Machine.execGateEntryEnd p s
  | .queueSample => Sys2Proof.Machine.execQueueSample s
  | .xbarClrCnt w => Sys2Proof.Machine.execXbarClrCnt w s
  | .secMemberDataWrite w => Sys2Proof.Machine.execSecMemberDataWrite w s
  | .secScrubGo w => Sys2Proof.Machine.execSecScrubGo w s
  | .stopPhaseEnd => Sys2Proof.Machine.execStopPhaseEnd s
  | .scrubDone => Sys2Proof.Machine.execScrubDone s
  | .viewRecord c => Sys2Proof.Machine.execViewRecord c s
  | .secSvnCommit w => Sys2Proof.Machine.execSecSvnCommit w s
  | .svnCommitEnd fuseOk => Sys2Proof.Machine.execSvnCommitEnd fuseOk s
  | .getVersion side => Sys2Proof.Machine.execGetVersion side s
  | .getCapabilities side version => Sys2Proof.Machine.execGetCapabilities side version s
  | .negotiateAlgorithms side => Sys2Proof.Machine.execNegotiateAlgorithms side s
  | .getDigests side => Sys2Proof.Machine.execGetDigests side s
  | .getCertificate side slot offset length => Sys2Proof.Machine.execGetCertificate side slot offset length s
  | .challenge side slot nonce => Sys2Proof.Machine.execChallenge side slot nonce s
  | .getMeasurements side index nonce => Sys2Proof.Machine.execGetMeasurements side index nonce s
  | .vendorDefinedRequest side vendor code => Sys2Proof.Machine.execVendorDefinedRequest side vendor code s
  | .spdmUnsupported side code => Sys2Proof.Machine.execSpdmUnsupported side code s
  | .secClrCnt w => Sys2Proof.Machine.execSecClrCnt w s
  | .faultEvent group cls unit reg others => Sys2Proof.Machine.execFaultEvent group cls unit reg others s
  | .collectorFault => Sys2Proof.Machine.execCollectorFault s
  | .fltFenceGo w => Sys2Proof.Machine.execFltFenceGo w s
  | .fltUnfence w => Sys2Proof.Machine.execFltUnfence w s
  | .checkRun u checkerAgrees thirdWithUnit thirdWithChecker => Sys2Proof.Machine.execCheckRun u checkerAgrees thirdWithUnit thirdWithChecker s
  | .checkDrop u => Sys2Proof.Machine.execCheckDrop u s
  | .fltTestEnter w => Sys2Proof.Machine.execFltTestEnter w s
  | .fltInjectGo w => Sys2Proof.Machine.execFltInjectGo w s
  | .fltInjectMiscompare w => Sys2Proof.Machine.execFltInjectMiscompare w s
  | .monitorWindowEnd m => Sys2Proof.Machine.execMonitorWindowEnd m s
  | .fltClrCnt w => Sys2Proof.Machine.execFltClrCnt w s
  | .powerStateMove => Sys2Proof.Machine.execPowerStateMove s
  | .powerExitEnd => Sys2Proof.Machine.execPowerExitEnd s
  | .sleep p flitTime => Sys2Proof.Machine.execSleep p flitTime s
  | .wake p flitTime => Sys2Proof.Machine.execWake p flitTime s
  | .narrowAt p tx lanesReady => Sys2Proof.Machine.execNarrowAt p tx lanesReady s
  | .throttleLower avgW => Sys2Proof.Machine.execThrottleLower avgW s
  | .throttleRaise avgW => Sys2Proof.Machine.execThrottleRaise avgW s
  | .throttleFault avgW => Sys2Proof.Machine.execThrottleFault avgW s
  | .fastTrip avgW => Sys2Proof.Machine.execFastTrip avgW s
  | .avsStep rail margin target floorM => Sys2Proof.Machine.execAvsStep rail margin target floorM s
  | .avsNoAnswer rail => Sys2Proof.Machine.execAvsNoAnswer rail s
  | .thermalReading sensor quarterC => Sys2Proof.Machine.execThermalReading sensor quarterC s
  | .sagWarning rail => Sys2Proof.Machine.execSagWarning rail s
  | .sagWarningClear => Sys2Proof.Machine.execSagWarningClear s
  | .sagCritical rail => Sys2Proof.Machine.execSagCritical rail s
  | .pwrBudgetWrite w n => Sys2Proof.Machine.execPwrBudgetWrite w n s
  | .pwrClrCnt w => Sys2Proof.Machine.execPwrClrCnt w s
  | .powerOnReset trayId factoryTest => Sys2Proof.Machine.execPowerOnReset trayId factoryTest s
  | .resetN trayId factoryTest vddIoHeld => Sys2Proof.Machine.execResetN trayId factoryTest vddIoHeld s
  | .i3cTargetReset => Sys2Proof.Machine.execI3cTargetReset s
  | .mgtResetGo w => Sys2Proof.Machine.execMgtResetGo w s
  | .bootRomEnd fusesOk => Sys2Proof.Machine.execBootRomEnd fusesOk s
  | .configCheckEnd => Sys2Proof.Machine.execConfigCheckEnd s
  | .mgtSealGo w => Sys2Proof.Machine.execMgtSealGo w s
  | .sealHoldExpiry => Sys2Proof.Machine.execSealHoldExpiry s
  | .mgtUpdGo w image => Sys2Proof.Machine.execMgtUpdGo w image s
  | .updateEnd flashOk => Sys2Proof.Machine.execUpdateEnd flashOk s
  | .mgtBootConfirm w => Sys2Proof.Machine.execMgtBootConfirm w s
  | .mgtBootSetTrial w => Sys2Proof.Machine.execMgtBootSetTrial w s
  | .mgtOwnerClaim w => Sys2Proof.Machine.execMgtOwnerClaim w s
  | .mgtOwnerRelease w => Sys2Proof.Machine.execMgtOwnerRelease w s
  | .leaseLapse => Sys2Proof.Machine.execLeaseLapse s
  | .bar4Read side off length => Sys2Proof.Machine.execBar4Read side off length s
  | .bar4Write side off data => Sys2Proof.Machine.execBar4Write side off data s
  | .pcieLinkDown side perst => Sys2Proof.Machine.execPcieLinkDown side perst s
  | .perstDeassert side => Sys2Proof.Machine.execPerstDeassert side s
  | .entdaa da => Sys2Proof.Machine.execEntdaa da s
  | .rstdaa => Sys2Proof.Machine.execRstdaa s
  | .enec => Sys2Proof.Machine.execEnec s
  | .disec => Sys2Proof.Machine.execDisec s
  | .getpid => Sys2Proof.Machine.execGetpid s
  | .getbcr => Sys2Proof.Machine.execGetbcr s
  | .getdcr => Sys2Proof.Machine.execGetdcr s
  | .getstatus => Sys2Proof.Machine.execGetstatus s
  | .i3cPrivateRead off => Sys2Proof.Machine.execI3cPrivateRead off s
  | .i3cPrivateWrite off data => Sys2Proof.Machine.execI3cPrivateWrite off data s
  | .glbNodeWrite w => Sys2Proof.Machine.execGlbNodeWrite w s
  | .schedulerSlot => Sys2Proof.Machine.execSchedulerSlot s
  | .flitSend p => Sys2Proof.Machine.execFlitSend p s
  | .slackStampEnd entry page => Sys2Proof.Machine.execSlackStampEnd entry page s
  | .pcieLinkUp side => Sys2Proof.Machine.execPcieLinkUp side s
  | .pcieConfigWrite side c => Sys2Proof.Machine.execPcieConfigWrite side c s

end Sys2Proof.Machine
end

