-- ==== Sys2Proof/Machine/Step.lean ====
section
/-!
DEFINITION. A step: the command at the front of the queue, or, when none waits, 1 ns of time.
-/

namespace Sys2Proof.Machine

/-- When no command waits, 1 ns passes (R17). DESIGN CHOICE (assumption 1): the table has no row for the passing of time. -/
def State.idle (s : State) : State := { s with g := s.g.passNs }

/-- One step. -/
def step (s : State) : Host.Outcome State Fault Refusal :=
  match s.pending with
  | [] => .next s.idle
  | c :: rest => exec c { s with pending := rest }

/-- The state with the command that a table word spells at the front of its queue. -/
def State.withFetchWord (s : State) (nbits w : Nat) : State :=
  match decodeTableWord nbits w with
  | some c => { s with pending := c :: s.pending }
  | none => s

end Sys2Proof.Machine
end

