-- ==== Sys2Proof/WellFormed.lean ====
section
/-!
DEFINITION. Well-formed commands: every number in a command fits the field that carries it (R3, R37 to R39, R280, R288, R292, R298, R330).
A meaning is given to every command; these are the ones that hardware can present.
-/

namespace Sys2Proof

/-- Whether a number fits `w` bits. -/
def fitsBits (n w : Nat) : Bool := decide (n < 2 ^ w)

/-- A request header (R37). -/
def Hdr.wf (h : Hdr) : Bool :=
  decide (h.type < 128) && fitsBits h.dup 1 && fitsBits h.retry 1 && fitsBits h.mov 1 && fitsBits h.rsv1 5 && fitsBits h.tc 3 &&
  fitsBits h.rsv2 5 && fitsBits h.cmpt 4 && fitsBits h.rsv3 4 && fitsBits h.tag 16 && fitsBits h.src 16 && fitsBits h.addr 64 &&
  fitsBits h.epoch 16 && fitsBits h.sentTick 16 && fitsBits h.length 24 && fitsBits h.subop 8 && fitsBits h.ward 64

/-- Bytes of a type's body (R39, R81, R127, R140). -/
def bodyBytes (t : Nat) : Nat :=
  if t = 0x03 then 32
  else if t = 0x04 ∨ t = 0x0A ∨ t = 0x0D then 8
  else if t = 0x05 ∨ t = 0x06 ∨ t = 0x07 ∨ t = 0x08 ∨ t = 0x0B ∨ t = 0x0C then 16
  else if 0x20 ≤ t ∧ t ≤ 0x3F then 16
  else if 0x40 ≤ t ∧ t ≤ 0x46 then 16
  else 0

/-- A request: header, and the body of its type. -/
def Req.wf (q : Req) : Bool := q.hdr.wf && q.body.length == bodyBytes q.hdr.type

/-- A response (R38). -/
def Resp.wf (r : Resp) : Bool :=
  decide (128 ≤ r.type) && fitsBits r.type 8 && fitsBits r.dup 1 && fitsBits r.retry 1 && fitsBits r.tc 3 && fitsBits r.status 8 &&
  fitsBits r.tag 16 && fitsBits r.src 16 && fitsBits r.dst 16 && fitsBits r.sentTick 16 && fitsBits r.epoch 16 &&
  fitsBits r.payload.length 16

/-- A packet. -/
def Packet.wf : Packet → Bool
  | .req q => q.wf
  | .resp r => r.wf

/-- A flit: header fields of R280 and 240 bytes of slots. -/
def Flit.wf (f : Flit) : Bool :=
  fitsBits f.kind 2 && fitsBits f.nak 1 && fitsBits f.ackValid 1 && fitsBits f.seq 12 && fitsBits f.ackSeq 12 && fitsBits f.crTcA 3 &&
  fitsBits f.crTcB 3 && fitsBits f.cumA 16 && fitsBits f.cumB 16 && fitsBits f.start 15 && fitsBits f.crc 32 && f.slots.length == 240

/-- Units that exist (R28): 128 lanes, 32 engines of a kind, 16,384 threads. -/
def UnitId.wf (u : UnitId) : Bool :=
  match u.cls with
  | .red => decide (u.n < 128)
  | .pin => decide (u.n < 16384)
  | _ => decide (u.n < 32)

/-- An access over a bus: 4 or 8 bytes, naturally aligned (R3). -/
def accessOk (off width : Nat) : Bool := (width == 4 || width == 8) && off % width == 0 && fitsBits off 26

/-- A signature block (R330). -/
def Image.wf (im : Image) : Bool :=
  fitsBits im.magic 32 && fitsBits im.format 16 && fitsBits im.kind 16 && im.signed.length == 264

/-- A well-formed command. -/
def Instr.wf : Instr → Bool
  | .registerWrite _ off width _ => accessOk off width
  | .keywayWrite _ off width _ => (width == 4 || width == 8) && off % width == 0 && fitsBits off 20
  | .itemAdmit u _ => u.wf
  | .itemEnd u _ => u.wf
  | .checkRun u _ _ _ => u.wf && (u.cls == .red || u.cls == .mtx)
  | .checkDrop u => u.wf && (u.cls == .red || u.cls == .mtx)
  | .read _ q => q.wf && q.hdr.type == 0x01
  | .write _ q => q.wf && q.hdr.type == 0x02
  | .atomic _ q => q.wf && q.hdr.type == 0x03
  | .triggerEntry _ q => q.wf && q.hdr.type == 0x04
  | .triggerCommand _ q => q.wf && q.hdr.type == 0x04
  | .contrib _ q => q.wf && q.hdr.type == 0x05
  | .gatherReq _ q => q.wf && q.hdr.type == 0x06
  | .filterReq _ q => q.wf && q.hdr.type == 0x07
  | .scoreReq _ q => q.wf && q.hdr.type == 0x08
  | .fence _ q => q.wf && q.hdr.type == 0x09
  | .msg _ q => q.wf && q.hdr.type == 0x0A
  | .lend _ q => q.wf && q.hdr.type == 0x0B
  | .reclaim _ q => q.wf && q.hdr.type == 0x0C
  | .publish _ q => q.wf && q.hdr.type == 0x0D
  | .rdShared _ q => q.wf && q.hdr.type == 0x20
  | .rdOwn _ q => q.wf && q.hdr.type == 0x21
  | .upgrade _ q => q.wf && q.hdr.type == 0x22
  | .wbDirty _ q => q.wf && q.hdr.type == 0x23
  | .complete _ q => q.wf && q.hdr.type == 0x24
  | .snpRsp _ q => q.wf && q.hdr.type == 0x30
  | .handover _ q => q.wf && q.hdr.type == 0x40
  | .homeRevert _ q => q.wf && q.hdr.type == 0x41
  | .homeCopy _ q => q.wf && q.hdr.type == 0x42
  | .homeLine _ q => q.wf && q.hdr.type == 0x43
  | .copyDone _ q => q.wf && q.hdr.type == 0x44
  | .copyCancel _ q => q.wf && q.hdr.type == 0x45
  | .domainStatus _ q => q.wf && q.hdr.type == 0x46
  | .response _ r => r.wf
  | .handoverAck _ r => r.wf && r.type == 0xC0
  | .dataFlit _ f => f.wf
  | .idleFlit _ f => f.wf
  | .mgtUpdGo _ (some im) => im.wf
  | .bar4Read _ off length => fitsBits off 36 && decide (length ≤ 4096)
  | .bar4Write _ off data => fitsBits off 36 && decide (data.length ≤ 4096)
  | .i3cPrivateRead off => fitsBits off 32
  | .i3cPrivateWrite off _ => fitsBits off 32
  | .challenge _ _ nonce => nonce.length == 32
  | .getMeasurements _ _ nonce => nonce.length == 32
  | .faultEvent _ _ unit _ _ => fitsBits unit 16
  | _ => true

end Sys2Proof
end

