-- ==== Sys2Proof/Safety.lean ====
section
/-!
DEFINITION. What claims about the block are stated in: that a write passes the gate of BAR0, that a thread of a pin core is about to issue an
instruction, that a request comes straight from its crossbar input and passes the checks of R10 as far as its extent, and the canonical
forms of the state's tables.
-/

namespace Sys2Proof.Machine

/-- The state with another Gikan and the same queue. -/
def State.withG (s : State) (g : Gikan) : State := { s with g := g }

/-! Writes -/

/-- A write that reaches the whole register at an offset: the gate passes it, and nothing confines it to W1C bits (R345, R373, R385, R389). -/
def Gikan.reaches8 (g : Gikan) (w : RegW) (off : Nat) : Prop := g.gate w.bus off = .pass ∧ w1cOnly g w.bus off = false

/-- A register field that a command leaves: one that is not among those named nor one of the seal's own count of refused writes (R381). -/
def Gikan.regsBut (g h : Gikan) (f : Fld) (but : List Fld) : Prop :=
  (∀ e ∈ but, f.key ≠ e.key) → f.key ≠ F.MGT_SEAL_RWS_WRITES.key → f.key ≠ F.MGT_SEAL_LAST_OFFSET.key → h.get f = g.get f

/-- Offsets of the registers that have a rule of their own beside the access types of their fields. -/
def ownRule (off : Nat) : Bool :=
  decide (0x2000000 ≤ off) ||
  [0x20, 0x100038, 0x100070, 0x1000C8, 0x1000D0, 0x1000D8, 0x200000, 0x200020, 0x200028, 0x200030, 0x300000, 0x300010, 0x300030, 0x300038,
   0x300040, 0x300048, 0x300050, 0x300068, 0x300070, 0x300078, 0x300080, 0x300088, 0x3000B0].contains off ||
  [0x400000, 0x400008, 0x400058, 0x403000, 0x600000, 0x600030, 0x6000B8, 0x700000, 0x700040, 0x800000, 0x800018, 0x800028, 0x800038,
   0x800050, 0x900000, 0x900038, 0xA00000, 0xB00000, 0xB00018, 0xC00000, 0xC00020].contains off ||
  [0xD00000, 0xD00028, 0xD00030, 0xD00038, 0xD00048, 0xD00050, 0xD00058, 0xD00068, 0xD00070, 0xE00000, 0xE00018, 0xE00030, 0xE00058, 0xE00060,
   0xF00000, 0xF00010, 0xF00018, 0x1100008, 0x1100040, 0x1100058, 0x1100098].contains off ||
  decide (0x101000 ≤ off ∧ off < 0x102000) || decide (0x401000 ≤ off ∧ off < 0x401C00) || decide (0x402000 ≤ off ∧ off < 0x402400) ||
  decide (0x700100 ≤ off ∧ off < 0x700180) || (decide (0x500000 ≤ off ∧ off < 0x600000) && off % 0x8000 == 0) ||
  (decide (0x1000100 ≤ off ∧ off < 0x1000300) && (off % 0x20 == 0 || off % 0x20 == 8))

/-! Pin cores -/

/-- A thread is about to issue the instruction with fields `i`: it waits for nothing, the Gikan is neither in the Hasp state nor in power
state Q2 or Q3, and its PC lies in its image (R236, R240, R344, R358). -/
def Gikan.issues (g : Gikan) (core t : Nat) (th : Thread) (i : TI) : Prop :=
  g.thread core t = some th ∧ th.wait = .none ∧ g.hasp = false ∧ g.get F.PWR_STATE_STATE < 2 ∧
  (∃ im, g.pin.images.get? th.item.e.slot = some im ∧ im.base ≤ th.pc ∧ th.pc < im.base + im.count) ∧ tiOf (g.pin.code.getD th.pc 0) = i

/-- The 64-bit word of an instruction: OP, PG, PN, RD, RA, RB, RC and IMM from the top down (R239). -/
def tiWord (i : TI) : Nat :=
  i.imm + i.rc * 2 ^ 32 + i.rb * 2 ^ 37 + i.ra * 2 ^ 42 + i.rd * 2 ^ 47 + i.pn * 2 ^ 52 + i.pg * 2 ^ 53 + i.op * 2 ^ 56

/-- The thread once it has issued: the index of the instruction, and the next PC (R239). -/
def Thread.issued (th : Thread) : Thread := { th with last := th.pc, pc := th.pc + 1 }

/-- A thread of the Gikan put in place of another. -/
def State.withThread (s : State) (core t : Nat) (th : Thread) : State := { s with g := s.g.setThread core t th }

/-- A vector instruction puts into its destination a vector whose elements of `w` bits are `f` where the guard bit is 1 and the old elements
elsewhere, and changes nothing else (R240). -/
def State.lanes (s : State) (core : Fin 2048) (t : Fin 8) (th : Thread) (i : TI) (c : Instr) (w : Nat) (f : Nat → Nat) : Prop :=
  ∃ v, v < 2 ^ 256 ∧ (∀ k, k < 256 / w → velem w v k = if bit (th.guard i) k then f k % 2 ^ w else velem w (th.vr i.rd) k) ∧
    exec c s = .next (s.withThread core t (th.issued.setV i.rd v))

/-! Requests -/

/-- A request of its own type comes out of its input, and passes the source rule and checks 1 to 3 (R10, R36): `src` says where it lay, `k` is
the state without it. -/
def Gikan.arrives (g : Gikan) (x : Nat) (q : Req) (src : From) (k : Gikan) : Prop :=
  g.takePkt x (.req q) = (src, k) ∧ k.srcOk x q = true ∧ k.hasp = false ∧ k.quarBad x q = false ∧ k.unsup x q false = false

/-- A request on memory passes every check at the extent it is homed on, no line of it coherent: `k` is the state in which its pages are ready
(R10, R42, R43, R83, R110). -/
def Gikan.serves (g : Gikan) (x : Nat) (q : Req) (i : Nat) (e : ExtW) (k : Gikan) : Prop :=
  ∃ h j, g.receive x q q.hdr.type false = .go h i e ∧ h.map.revoked.get? i = none ∧ h.check7 q e = 0 ∧ h.memLength q e = true ∧
    h.check10 q e = (true, j) ∧ (q.hdr.type = tyREAD ∨ j.onLoanHere (j.realAddr q.hdr.addr) (max 1 q.hdr.length) = false) ∧
    (q.hdr.type = tyPUBLISH → j.onLoanHere e.base 8 = false) ∧ e.coh = false ∧
    (match j.admitPages ⟨i, e⟩ (j.realAddr q.hdr.addr) q.hdr.length (q.hdr.type != tyREAD) with
     | (true, k1) => if q.hdr.type = tyPUBLISH then k1.admitPages ⟨i, e⟩ e.base 8 true = (true, k) else k1 = k
     | (false, _) => False) ∧
    (if q.hdr.type = tyPUBLISH then e.pub = true ∧ e.base + 8 ≤ k.realAddr q.hdr.addr
     else q.hdr.type = tyREAD ∨ e.pub = false) ∧ (q.hdr.type = tyATOMIC → e.comp = 0)

/-- A COMPLETE or SNP_RSP comes out of its input, passes checks 1 to 3 and is of an agent that is not dead, for a line homed here: `k` is the state
without it (R147, R153). -/
def Gikan.closing (g : Gikan) (x : Nat) (q : Req) (k : Gikan) : Prop :=
  ∃ src h, g.takePkt x (.req q) = (src, h) ∧ k = h.consumed src x (.req q) ∧ h.srcOk x q = true ∧ h.hasp = false ∧ h.quarBad x q = false ∧
    h.unsup x q (cohBodyBad q) = false ∧ (∀ n p, h.resolve ((h.liveMap q.hdr.epoch).getD h.map.cur) q.hdr.addr ≠ .send n p) ∧
    h.deadSrc q = false ∧ h.isAgent q.hdr.src = true ∧ cohLength q = true

/-- Nothing disturbs what a write leaves: no codeword in error waits in a free frame, no home copy of the extent runs, MEM_FLIP is not armed
(R100, R104, R129). -/
def Gikan.calm (g : Gikan) (i : Nat) : Prop := g.stk.freeBad = [] ∧ g.tier.copyA.get? i = none ∧ g.on F.MEM_FLIP_ARM = false

/-- The units of a span hold data without errors. -/
def Gikan.sound (g : Gikan) (s : Site) (a n : Nat) : Prop := ∀ u ∈ s.units a n, g.clean.contains u = true ∧ g.bad.getD u 0 = 0

/-- What a write of bytes at an address leaves of memory: those bytes there, and every other byte. -/
def stored (old new : List Host.Cell) (a : Nat) (b : List Byte) : Prop :=
  ∀ c, memGet new c = if a ≤ c ∧ c < a + b.length then b.getD (c - a) 0 else memGet old c

/-! Canonical forms -/

/-- The tables that stand for memory and for the registers are in canonical form. -/
def Gikan.canonical (g : Gikan) : Prop := Memory.wf g.mem = true ∧ Tbl.sorted g.csr = true

end Sys2Proof.Machine
end

