-- ==== Sys2Proof/Certificates/Slice0/Obligations.lean ====
section
/-!
DEFINITION. The statements for the provers: one definition of a proposition per obligation, in the order of the manual's chapters. Each docstring
names the rules it formalises. Every statement about a command says that the command answers a next state, and what that state holds.
-/

open Sys2Proof Sys2Proof.Machine

/-! ## The pin cores' instruction set (chapter 11) -/

/-- R239, R240, R243: each two-operand integer instruction puts its result, cut to 64 bits, into rd (x0 discards it), moves the PC on by one,
and changes nothing else; CLZ, POPC, MOVI, MOVHI and NOP likewise. `b` is RB, or IMM sign-extended when RC is 1.
R241, R243: scalar floating point works in binary64 when IMM[0] is set, else in binary32 on the lower halves, and rounds once to nearest even;
a binary32 result leaves the upper half of rd zero. -/
def Obligations.TumblerScalarResults : Prop :=
  (∀ (core : Fin 2048) (t : Fin 8) (s : State) (th : Thread) (i : TI),
    s.g.issues core t th i → bit (th.guard i) 0 = true →
    let a := th.xr i.ra
    let b := th.b i
    let res := fun (v : Nat) => Host.Outcome.next (φ := Fault) (ρ := Refusal) (s.withThread core t (th.issued.setX i.rd v))
    (((i.rc = 0 ∧ i.imm = 0) ∨ (i.rc = 1 ∧ i.rb = 0)) →
      (i.op = 0x10 → exec (.tAdd core t) s = res ((a + b) % 2 ^ 64)) ∧
      (i.op = 0x11 → exec (.tSub core t) s = res ((a + 2 ^ 64 - b % 2 ^ 64) % 2 ^ 64)) ∧
      (i.op = 0x12 → exec (.tAnd core t) s = res (a &&& b)) ∧
      (i.op = 0x13 → exec (.tOr core t) s = res (a ||| b)) ∧
      (i.op = 0x14 → exec (.tXor core t) s = res (a ^^^ b)) ∧
      (i.op = 0x15 → exec (.tSll core t) s = res (a * 2 ^ (b % 64) % 2 ^ 64)) ∧
      (i.op = 0x16 → exec (.tSrl core t) s = res (a / 2 ^ (b % 64))) ∧
      (i.op = 0x17 → exec (.tSra core t) s = res (toBits (sext a 64 / (2 ^ (b % 64) : Nat)) 64)) ∧
      (i.op = 0x18 → exec (.tMul core t) s = res (a * b % 2 ^ 64)) ∧
      (i.op = 0x19 → exec (.tMulhu core t) s = res (a * b / 2 ^ 64)) ∧
      (i.op = 0x1A → exec (.tDivu core t) s = res (if b = 0 then 2 ^ 64 - 1 else a / b)) ∧
      (i.op = 0x1B → exec (.tRemu core t) s = res (if b = 0 then a else a % b)) ∧
      (i.op = 0x1C → exec (.tDivs core t) s = res (if b = 0 then 2 ^ 64 - 1 else toBits ((sext a 64).tdiv (sext b 64)) 64)) ∧
      (i.op = 0x1D → exec (.tRems core t) s = res (if b = 0 then a else toBits ((sext a 64).tmod (sext b 64)) 64))) ∧
    ((i.rb = 0 ∧ i.rc = 0 ∧ i.imm = 0) →
      (i.op = 0x1E → exec (.tClz core t) s = res (if a = 0 then 64 else 63 - Nat.log2 a)) ∧
      (i.op = 0x1F → exec (.tPopc core t) s = res (popCount a 64)) ∧
      (i.op = 0x01 → i.rd = 0 → i.ra = 0 → exec (.tNop core t) s = .next (s.withThread core t th.issued))) ∧
    ((i.rb = 0 ∧ i.rc = 0) →
      (i.op = 0x20 → i.ra = 0 → exec (.tMovi core t) s = res (toBits (sext i.imm 32) 64)) ∧
      (i.op = 0x21 → exec (.tMovhi core t) s = res (i.imm * 2 ^ 32 + bits a 0 32)))) ∧
  (∀ (core : Fin 2048) (t : Fin 8) (s : State) (th : Thread) (i : TI),
    s.g.issues core t th i → bit (th.guard i) 0 = true → i.imm ≤ 1 →
    let f := if i.imm = 1 then FFmt.fp64 else FFmt.fp32
    let x := fun (r : Nat) => f.decode (th.xr r % 2 ^ f.width)
    let res := fun (v : FVal) =>
      Host.Outcome.next (φ := Fault) (ρ := Refusal) (s.withThread core t (th.issued.setX i.rd (f.encode .ieee v none)))
    (i.op = 0x2B → exec (.tFfma core t) s = res (((x i.ra).mul (x i.rb)).add (x i.rc))) ∧
    (i.rc = 0 →
      (i.op = 0x28 → exec (.tFadd core t) s = res ((x i.ra).add (x i.rb))) ∧
      (i.op = 0x29 → exec (.tFsub core t) s = res ((x i.ra).sub (x i.rb))) ∧
      (i.op = 0x2A → exec (.tFmul core t) s = res ((x i.ra).mul (x i.rb))) ∧
      (i.op = 0x2C → exec (.tFdiv core t) s = res ((x i.ra).div (x i.rb))) ∧
      (i.op = 0x2D → i.rb = 0 → exec (.tFsqrt core t) s = res (x i.ra).sqrt) ∧
      (i.op = 0x2E → exec (.tFmin core t) s = res ((x i.ra).min (x i.rb))) ∧
      (i.op = 0x2F → exec (.tFmax core t) s = res ((x i.ra).max (x i.rb)))))

/-- R242, R243: a comparison sets all 32 bits of its predicate or none; the predicate instructions combine whole predicates; p0 discards what is
written to it; FCVT converts as its mode in IMM[3:1] says.
R236, R239, R240: what stops an instruction of the scalar, scratch, memory and control kinds from having its effect, for every row: a word of
another opcode is not the row's (nothing changes); a guard that is off only moves the PC on. -/
def Obligations.TumblerPredicates : Prop :=
  (∀ (core : Fin 2048) (t : Fin 8) (s : State) (th : Thread) (i : TI),
    s.g.issues core t th i → bit (th.guard i) 0 = true → i.rc = 0 →
    let all := fun (b : Bool) => if b then 2 ^ 32 - 1 else 0
    let res := fun (v : Nat) => Host.Outcome.next (φ := Fault) (ρ := Refusal) (s.withThread core t (th.issued.setP i.rd v))
    (i.rd ≤ 7 →
      (i.op = 0x34 → i.imm < 8 → exec (.tCmp core t) s = res (all (condInt 64 i.imm (th.xr i.ra) (th.xr i.rb)))) ∧
      (i.op = 0x34 → (8 ≤ i.imm ∧ i.imm < 16) ∨ (24 ≤ i.imm ∧ i.imm < 32) → i.imm % 8 ≠ 4 → i.imm % 8 ≠ 5 →
        exec (.tCmp core t) s = res (all (condFp (i.imm % 8) (fpArg (decide (16 ≤ i.imm)) (th.xr i.ra)) (fpArg (decide (16 ≤ i.imm)) (th.xr i.rb))))) ∧
      (i.op = 0x35 → i.rb = 0 → bits i.imm 3 5 = 0 →
        exec (.tCmpi core t) s = res (all (condInt 64 (i.imm % 8) (th.xr i.ra) (toBits (sext (i.imm / 256) 24) 64)))) ∧
      (i.op = 0x36 → i.ra ≤ 7 → i.rb ≤ 7 → i.imm = 0 → exec (.tPand core t) s = res (th.pr i.ra &&& th.pr i.rb)) ∧
      (i.op = 0x37 → i.ra ≤ 7 → i.rb ≤ 7 → i.imm = 0 → exec (.tPor core t) s = res (th.pr i.ra ||| th.pr i.rb)) ∧
      (i.op = 0x38 → i.ra ≤ 7 → i.rb = 0 → i.imm = 0 → exec (.tPnot core t) s = res (th.pr i.ra ^^^ (2 ^ 32 - 1))) ∧
      (i.op = 0x39 → i.rb = 0 → i.imm = 0 → exec (.tPset core t) s = res (th.xr i.ra % 2 ^ 32))) ∧
    (i.op = 0x3A → i.ra ≤ 7 → i.rb = 0 → i.imm = 0 → exec (.tPget core t) s = .next (s.withThread core t (th.issued.setX i.rd (th.pr i.ra)))) ∧
    (i.op = 0x30 → i.rb = 0 → i.imm ≤ 5 ∨ i.imm = 6 ∨ i.imm = 8 →
      exec (.tFcvt core t) s = .next (s.withThread core t (th.issued.setX i.rd (fcvt i.imm (th.xr i.ra)))))) ∧
  (∀ (core : Fin 2048) (t : Fin 8) (s : State) (th : Thread) (i : TI), s.g.issues core t th i → bit (th.guard i) 0 = false →
    ∀ c ∈ [(0x10, Instr.tAdd core t), (0x15, .tSll core t), (0x1C, .tDivs core t), (0x20, .tMovi core t), (0x28, .tFadd core t), (0x34, .tCmp core t),
      (0x40, .tBr core t), (0x42, .tJr core t), (0x44, .tEnd core t), (0x45, .tTrap core t), (0x49, .tCsrw core t), (0x51, .tSst core t),
      (0x58, .tLd core t), (0x59, .tSt core t), (0x5D, .tPut core t), (0x5E, .tAtom core t), (0x5F, .tFence core t)],
      exec c.2 s = if i.op = c.1 then .next (s.withThread core t th.issued)
        else if tumblerOp i.op then .next s
        else .next (s.withG (s.g.cohSettle ((s.g.setThread core t th.issued).pinExc core t 1 stUNSUP))))

/-- R240, R243: BR, JAL and JR move the PC to a target inside the image, JAL leaving the index after it in rd; CSRR reads a CSR of the table and
CSRW writes one; TRAP ends the item with its status and cause 9.
R235: END with no access outstanding ends the item with the status in IMM[7:0], the word in ra and up to 40 bytes of v8 and v9; with accesses
outstanding the thread waits, ending, until they are answered. -/
def Obligations.TumblerControl : Prop :=
  (∀ (core : Fin 2048) (t : Fin 8) (s : State) (th : Thread) (i : TI) (im : KImage),
    s.g.issues core t th i → s.g.pin.images.get? th.item.e.slot = some im → bit (th.guard i) 0 = true → i.rb = 0 → i.rc = 0 →
    let inside := fun (x : Int) => (im.base : Int) ≤ x ∧ x < (im.base + im.count : Nat)
    let rel := (th.pc : Int) + sext i.imm 32
    (i.op = 0x40 → i.rd = 0 → i.ra = 0 → inside rel →
      exec (.tBr core t) s = .next (s.withThread core t { th.issued with pc := rel.toNat })) ∧
    (i.op = 0x41 → i.ra = 0 → inside rel →
      exec (.tJal core t) s = .next (s.withThread core t { th.issued.setX i.rd (th.pc + 1) with pc := rel.toNat })) ∧
    (i.op = 0x42 → i.rd = 0 → i.imm = 0 → inside (th.xr i.ra) →
      exec (.tJr core t) s = .next (s.withThread core t { th.issued with pc := th.xr i.ra })) ∧
    (i.op = 0x48 → i.ra = 0 → ∀ v, i.imm < 256 → s.g.csrValue core t th i.imm = some v →
      exec (.tCsrr core t) s = .next (s.withThread core t (th.issued.setX i.rd v))) ∧
    (i.op = 0x49 → i.rd = 0 →
      (i.imm = 9 → exec (.tCsrw core t) s = .next (s.withThread core t { th.issued with lastStatus := 0 })) ∧
      (i.imm = 10 → exec (.tCsrw core t) s = .next (s.withThread core t { th.issued with seed := th.xr i.ra })) ∧
      (∀ n, n < 4 → i.imm = 16 + n →
        exec (.tCsrw core t) s = .next (s.withThread core t { th.issued with ward := th.ward.setD n 0 (th.xr i.ra) }))) ∧
    (i.op = 0x45 → i.rd = 0 → i.ra = 0 → i.imm < 256 →
      exec (.tTrap core t) s =
      .next (s.withG (s.g.cohSettle ((s.g.setThread core t th.issued).pinExc core t 9 (if i.imm ≤ 15 then i.imm else stUNSUP)))))) ∧
  (∀ (core : Fin 2048) (t : Fin 8) (s : State) (th : Thread) (i : TI),
    s.g.issues core t th i → bit (th.guard i) 0 = true → i.op = 0x44 → i.rd = 0 → i.rb = 0 → i.rc = 0 → i.imm / 65536 = 0 →
    i.imm % 256 ≤ 15 → i.imm / 256 ≤ 40 → th.storeFault = none →
    let bytes := (leBytes 32 (th.vr 8) ++ leBytes 32 (th.vr 9)).take (i.imm / 256)
    let ending := { th.issued with wait := .ending 0 (i.imm % 256) (th.xr i.ra) bytes }
    (th.acc ≠ [] → exec (.tEnd core t) s = .next (s.withThread core t ending)) ∧
    (th.acc = [] → exec (.tEnd core t) s = .next (s.withG (s.g.itemStep (threadKey core t th.item.id) (fun h =>
      (h.setThread core t ending).pinFinish core t (i.imm % 256) (th.xr i.ra) bytes)))))

/-- R236, R240, R243: scratch loads and stores of 1, 2, 4 or 8 bytes, and of 32, at a naturally aligned address in the 64 KiB; a load sign-extends
when RC[2] is set.
What a store to scratch leaves: the bytes stored at their place, every other byte of the core's scratch, and all else (R236).
R236, R245, R246: a memory instruction whose fields, address, alignment and length are good, on a thread with no undelivered store fault and
with fewer than 16 posted stores, makes its access: the request of its type for the bytes named, with the class, Q bit and ward slot of RB
(or of IMM, for ATOM). LDSLOT reads the accumulator of a CUSTOM kernel's chunk; FENCE with nothing outstanding goes on, else parks. -/
def Obligations.TumblerMemoryAndScratch : Prop :=
  (∀ (core : Fin 2048) (t : Fin 8) (s : State) (th : Thread) (i : TI) (a : Nat),
    s.g.issues core t th i → bit (th.guard i) 0 = true → i.rb = 0 → (th.xr i.ra : Int) + sext i.imm 32 = a →
    let n : Nat := 2 ^ (i.rc % 4)
    (i.rc < 8 → a % n = 0 → a + n ≤ 65536 → i.op = 0x50 → exec (.tSld core t) s = .next (s.withThread core t (th.issued.setX i.rd
      (let v := leNat (memGetN (s.g.pinCore core).scratch a n); if 4 ≤ i.rc then toBits (sext v (8 * n)) 64 else v)))) ∧
    (i.rc < 4 → a % n = 0 → a + n ≤ 65536 → i.op = 0x51 →
      exec (.tSst core t) s = .next (s.withG ((s.g.setThread core t th.issued).putScratch core a (leBytes n (th.xr i.rd))))) ∧
    (i.rc = 0 → i.rd ≤ 15 → a % 32 = 0 → a + 32 ≤ 65536 → i.op = 0x52 →
      exec (.tVsld core t) s = .next (s.withThread core t (th.issued.setV i.rd (leNat (memGetN (s.g.pinCore core).scratch a 32))))) ∧
    (i.rc = 0 → i.rd ≤ 15 → a % 32 = 0 → a + 32 ≤ 65536 → i.op = 0x53 →
      exec (.tVsst core t) s = .next (s.withG ((s.g.setThread core t th.issued).putScratch core a (leBytes 32 (th.vr i.rd)))))) ∧
  (∀ (g : Gikan) (core a : Nat) (b : List Byte) (x : Nat),
    (memGet ((g.putScratch core a b).pinCore core).scratch x = if a ≤ x ∧ x < a + b.length then b.getD (x - a) 0 else memGet (g.pinCore core).scratch x) ∧
    (g.putScratch core a b).mem = g.mem ∧ (g.putScratch core a b).csr = g.csr ∧
    ∀ c, c ≠ core → (g.putScratch core a b).pinCore c = g.pinCore c) ∧
  (∀ (core : Fin 2048) (t : Fin 8) (s : State) (th : Thread) (i : TI) (o : Nat),
    s.g.issues core t th i → bit (th.guard i) 0 = true → th.storeFault = none →
    let step := fun (f : Gikan → Gikan) => s.g.itemStep (threadKey core t th.item.id) (fun h => f (h.setThread core t th.issued))
    let a := mkAddr (addrNode (th.xr i.ra)) o
    let n : Nat := 2 ^ (i.rc % 4)
    let len := th.xr i.rc
    let ward := th.ward.getD (i.rb % 4) 0
    let tc := if i.rb < 8 then 2 else 3
    let q := i.rb.testBit 2
    let req := fun (type n : Nat) (data : List Byte) => (⟨ownHdr type tc th.item.cmpt a n 0 ward, [], data⟩ : Req)
    let goes := fun (k : AccKind) (r : Req) => Host.Outcome.next (φ := Fault) (ρ := Refusal) (s.withG (step (fun g => g.pinAccess core t k q r)))
    let room := (th.acc.filter (fun c => c.kind == .store)).length < 16
    ((addrOff (th.xr i.ra) : Int) + sext i.imm 32 = o → o < 2 ^ 48 → i.rb < 16 →
      (i.op = 0x58 → i.rc < 8 → ((th.xr i.ra : Int) + sext i.imm 32) % n = 0 →
        exec (.tLd core t) s = goes (.load i.rd n (decide (4 ≤ i.rc))) (req tyREAD n [])) ∧
      (i.op = 0x59 → i.rc < 4 → room → ((th.xr i.ra : Int) + sext i.imm 32) % n = 0 →
        exec (.tSt core t) s = goes .store (req tyWRITE n (leBytes n (th.xr i.rd)))) ∧
      (i.op = 0x5A → i.rc = 0 → i.rd ≤ 15 → ((th.xr i.ra : Int) + sext i.imm 32) % 32 = 0 →
        exec (.tVld core t) s = goes (.vload i.rd) (req tyREAD 32 [])) ∧
      (i.op = 0x5B → i.rc = 0 → i.rd ≤ 15 → room → ((th.xr i.ra : Int) + sext i.imm 32) % 32 = 0 →
        exec (.tVst core t) s = goes .store (req tyWRITE 32 (leBytes 32 (th.vr i.rd)))) ∧
      (i.op = 0x5C → 0 < len → len ≤ 4096 → th.xr i.rd + len ≤ 65536 →
        exec (.tGet core t) s = goes (.get (th.xr i.rd) len) (req tyREAD len [])) ∧
      (i.op = 0x5D → 0 < len → len ≤ 4096 → th.xr i.rd + len ≤ 65536 → room →
        exec (.tPut core t) s = goes .store (req tyWRITE len (memGetN (s.g.pinCore core).scratch (th.xr i.rd) len)))) ∧
    (i.op = 0x5E → i.rc = 2 ∨ i.rc = 3 → i.imm < 2048 → th.xr i.ra % n = 0 →
      exec (.tAtom core t) s = .next (s.withG (step (fun g => g.pinAccess core t (.atom i.rd n) (decide (1024 ≤ i.imm))
        ⟨ownHdr tyATOMIC 2 th.item.cmpt (th.xr i.ra) n (i.imm % 256) (th.ward.getD (i.imm / 256 % 4) 0),
         fit (leBytes n (th.xr i.rb)) 16 ++ (if i.imm % 256 = 10 then fit (leBytes n (th.xr i.rd)) 16 else zeros 16), []⟩)))) ∧
    (i.op = 0x54 → i.rb = 0 → i.rc = 0 → i.rd ≤ 15 → ∀ acc elems, s.g.slotOf th = some (acc, elems) → (th.xr i.ra : Int) + sext i.imm 32 = o →
      o < 4 * elems → o % 32 = 0 →
      exec (.tLdslot core t) s =
        .next (s.withThread core t (th.issued.setV i.rd (packV 32 ((List.range 8).map (fun k => acc.getD (o / 4 + k) 0)))))) ∧
    (i.op = 0x5F → i.rd = 0 → i.ra = 0 → i.rb = 0 → i.rc = 0 → i.imm = 0 →
      (th.acc = [] → exec (.tFence core t) s = .next (s.withThread core t th.issued)) ∧
      (th.acc ≠ [] → exec (.tFence core t) s = .next (s.withThread core t { th.issued with wait := .fence }))))

/-- R240, R241, R243: the two-source vector instructions work on each active element and leave the others: integers wrap at the element width,
floating point is rounded once in the element's format.
R240, R243: the vector shifts, moves, permutation, fused multiply-add and dot product, element by element.
R240, R243, R244: VCMP writes a predicate, VEXT and VRED a scalar register, VCVT a vector. -/
def Obligations.TumblerVectors : Prop :=
  (∀ (core : Fin 2048) (t : Fin 8) (s : State) (th : Thread) (i : TI),
    s.g.issues core t th i → i.rd ≤ 15 → i.ra ≤ 15 → i.rb ≤ 15 → i.rc = 0 → i.imm < 16 →
    let w := etBits i.imm
    let a := fun (k : Nat) => velem w (th.vr i.ra) k
    let b := fun (k : Nat) => velem w (th.vr i.rb) k
    (i.imm ≤ 3 →
      (i.op = 0x70 → s.lanes core t th i (.tVadd core t) w (fun k => a k + b k)) ∧
      (i.op = 0x71 → s.lanes core t th i (.tVsub core t) w (fun k => a k + 2 ^ w - b k)) ∧
      (i.op = 0x72 → s.lanes core t th i (.tVmul core t) w (fun k => a k * b k)) ∧
      (i.op = 0x74 → s.lanes core t th i (.tVmin core t) w (fun k => if sext (a k) w ≤ sext (b k) w then a k else b k)) ∧
      (i.op = 0x75 → s.lanes core t th i (.tVmax core t) w (fun k => if sext (a k) w ≤ sext (b k) w then b k else a k)) ∧
      (i.op = 0x76 → s.lanes core t th i (.tVand core t) w (fun k => a k &&& b k)) ∧
      (i.op = 0x77 → s.lanes core t th i (.tVor core t) w (fun k => a k ||| b k)) ∧
      (i.op = 0x78 → s.lanes core t th i (.tVxor core t) w (fun k => a k ^^^ b k))) ∧
    (∀ f, 4 ≤ i.imm → i.imm ≤ 6 → etFmt i.imm = some f →
      let x := fun (k : Nat) => f.decode (a k)
      let y := fun (k : Nat) => f.decode (b k)
      let r := fun (v : FVal) => f.encode .ieee v none
      (i.op = 0x70 → s.lanes core t th i (.tVadd core t) w (fun k => r ((x k).add (y k)))) ∧
      (i.op = 0x71 → s.lanes core t th i (.tVsub core t) w (fun k => r ((x k).sub (y k)))) ∧
      (i.op = 0x72 → s.lanes core t th i (.tVmul core t) w (fun k => r ((x k).mul (y k)))) ∧
      (i.op = 0x74 → s.lanes core t th i (.tVmin core t) w (fun k => r ((x k).min (y k)))) ∧
      (i.op = 0x75 → s.lanes core t th i (.tVmax core t) w (fun k => r ((x k).max (y k)))) ∧
      (i.op = 0x84 → s.lanes core t th i (.tVdiv core t) w (fun k => r ((x k).div (y k)))) ∧
      (i.op = 0x85 → i.rb = 0 → s.lanes core t th i (.tVsqrt core t) w (fun k => r (x k).sqrt)))) ∧
  (∀ (core : Fin 2048) (t : Fin 8) (s : State) (th : Thread) (i : TI),
    s.g.issues core t th i → i.rd ≤ 15 →
    let w := etBits (i.imm % 16)
    let a := fun (k : Nat) => velem w (th.vr i.ra) k
    let n := i.imm / 256 % 64
    (i.ra ≤ 15 → i.rb = 0 → i.rc = 0 → i.imm % 16 ≤ 6 → i.imm / 16 % 16 = 0 →
      (i.op = 0x79 → i.imm < 2 ^ 14 → s.lanes core t th i (.tVshl core t) w (fun k => if w ≤ n then 0 else a k * 2 ^ n)) ∧
      (i.op = 0x7A → i.imm < 2 ^ 14 → s.lanes core t th i (.tVshr core t) w (fun k => a k / 2 ^ n)) ∧
      (i.op = 0x7A → 2 ^ 14 ≤ i.imm → i.imm < 2 ^ 15 →
        s.lanes core t th i (.tVshr core t) w (fun k => toBits (sext (a k) w / (2 ^ n : Nat)) w)) ∧
      (i.op = 0x7C → i.imm < 16 → s.lanes core t th i (.tVmov core t) w a) ∧
      (i.op = 0x7F → i.imm < 2 ^ 13 → i.imm / 256 < etCount (i.imm % 16) → bit (th.guard i) (i.imm / 256) = true →
        ∃ v, v < 2 ^ 256 ∧
          (∀ k, k < 256 / w → velem w v k = if k = i.imm / 256 then th.xr i.ra % 2 ^ w else velem w (th.vr i.rd) k) ∧
          exec (.tVins core t) s = .next (s.withThread core t (th.issued.setV i.rd v)))) ∧
    (i.rb = 0 → i.rc = 0 → i.imm ≤ 6 → i.op = 0x7D → s.lanes core t th i (.tVsplat core t) w (fun _ => th.xr i.ra)) ∧
    (i.ra ≤ 15 → i.rb ≤ 15 → i.rc = 0 → i.imm = 0 → i.op = 0x83 →
      s.lanes core t th i (.tVperm core t) 8 (fun k =>
        let b := velem 8 (th.vr i.rb) k
        if 128 ≤ b then 0 else velem 8 (th.vr i.ra) (b % 32))) ∧
    (∀ f, i.ra ≤ 15 → i.rb ≤ 15 → i.rc ≤ 15 → 4 ≤ i.imm → i.imm ≤ 6 → etFmt i.imm = some f → i.op = 0x73 →
      let x := fun (r k : Nat) => f.decode (velem w (th.vr r) k)
      s.lanes core t th i (.tVfma core t) w (fun k => f.encode .ieee (((x i.ra k).mul (x i.rb k)).add (x i.rc k)) none)) ∧
    (i.ra ≤ 15 → i.rb ≤ 15 → i.rc = 0 → i.imm = 0 ∨ (5 ≤ i.imm ∧ i.imm ≤ 8) → i.op = 0x82 →
      s.lanes core t th i (.tVdot core t) 32 (fun k => vdotElem i.imm (velem 32 (th.vr i.rd) k) (th.vr i.ra) (th.vr i.rb) k))) ∧
  (∀ (core : Fin 2048) (t : Fin 8) (s : State) (th : Thread) (i : TI),
    s.g.issues core t th i → i.ra ≤ 15 → i.rc = 0 →
    let e := i.imm % 16
    let w := etBits e
    let a := fun (k : Nat) => velem w (th.vr i.ra) k
    (i.op = 0x7B → i.rd ≤ 7 → i.rb ≤ 15 → i.imm < 128 → e ≤ 3 →
      ∃ p, (∀ k, p.testBit k = (decide (k < etCount e) && bit (th.guard i) k && condInt w (i.imm / 16) (a k) (velem w (th.vr i.rb) k))) ∧
        exec (.tVcmp core t) s = .next (s.withThread core t (th.issued.setP i.rd p))) ∧
    (i.op = 0x7B → i.rd ≤ 7 → i.rb ≤ 15 → i.imm < 128 → 4 ≤ e → e ≤ 6 → i.imm / 16 ≠ 4 → i.imm / 16 ≠ 5 → ∀ f, etFmt e = some f →
      ∃ p, (∀ k, p.testBit k =
          (decide (k < etCount e) && bit (th.guard i) k && condFp (i.imm / 16) (f.decode (a k)) (f.decode (velem w (th.vr i.rb) k)))) ∧
        exec (.tVcmp core t) s = .next (s.withThread core t (th.issued.setP i.rd p))) ∧
    (i.op = 0x7E → i.rb = 0 → i.imm / 16 % 16 = 0 → i.imm < 2 ^ 13 → e ≤ 6 → i.imm / 256 < etCount e → bit (th.guard i) (i.imm / 256) = true →
      exec (.tVext core t) s = .next (s.withThread core t (th.issued.setX i.rd (a (i.imm / 256))))) ∧
    (i.op = 0x80 → i.rb = 0 → i.imm < 48 → e ≤ 6 →
      exec (.tVred core t) s = .next (s.withThread core t (th.issued.setX i.rd (vred e (i.imm / 16) (th.guard i) (th.vr i.ra))))) ∧
    (i.op = 0x81 → i.rd ≤ 15 → i.rb = 0 → i.imm < 2 ^ 11 → cvtSrc e = true → cvtDst (i.imm / 16 % 16) = true →
      (cvtRange (etCount e) (etCount (i.imm / 16 % 16)) (i.imm / 256 % 4)).isSome = true →
      exec (.tVcvt core t) s = .next (s.withThread core t (th.issued.vcvt i))))

/-- R239: an instruction's fields, each at any value of its width, are those of the word that they spell, and every word of 64 bits is spelt by its
fields. -/
def Obligations.TumblerWordRoundTrip : Prop :=
  (∀ i : TI, i.op < 256 → i.pg < 8 → i.pn < 2 → i.rd < 32 → i.ra < 32 → i.rb < 32 → i.rc < 32 → i.imm < 2 ^ 32 →
    tiWord i < 2 ^ 64 ∧ tiOf (tiWord i) = i) ∧
  (∀ w, w < 2 ^ 64 → tiWord (tiOf w) = w)

/-! ## Commands, steps and registers (chapter 1) -/

/-- A step with a command at the front of the queue is that command's effect with the rest of the queue. (How commands wait is the model's own
form: DESIGN CHOICE, assumption 1.)
Every command is carried out: none stops the block, and none but the step touches the queue.
R17, R18: with no command waiting 1 ns passes: fabric time advances by 1 ns and the slew, which `slew` counts in millionths, and the state
is otherwise as it was. (That the empty queue passes time is the model's choice: DESIGN CHOICE, assumption 1.) -/
def Obligations.StepRunsFront : Prop :=
  (∀ (c : Instr) (s : State), step { s with pending := c :: s.pending } = exec c s) ∧
  (∀ (c : Instr) (s : State), ∃ g, exec c s = .next (s.withG (g))) ∧
  (∀ (s : State), s.pending = [] → s.g.tick.sub < 1000000 → -1000000 ≤ s.g.tick.slew → s.g.tick.slew ≤ 1000000 → s.g.time + 2 < 2 ^ 64 →
    ∃ t, step s = .next t ∧ t.pending = [] ∧ t.g.now = s.g.now + 1 ∧ t.g.tick.sub < 1000000 ∧
      ((1000000 * t.g.time + t.g.tick.sub : Nat) : Int) = 1000000 * s.g.time + s.g.tick.sub + 1000000 + s.g.tick.slew ∧
      (∀ f, f.key ≠ F.TICK_TIME_TIME_NS.key → t.g.get f = s.g.get f) ∧ t.g.mem = s.g.mem ∧ t.g.out = s.g.out)

/-- A step keeps the queue well-formed and in order: it takes the front command away and adds none. -/
def Obligations.QueueInvariant : Prop :=
  ∀ (s t : State), (∀ c ∈ s.pending, c.wf = true) → step s = .next t → t.pending = s.pending.tail ∧ ∀ c ∈ t.pending, c.wf = true

/-- R4, R96, R373: what reset leaves: every register field at the reset value of its table, phase BOOT_ROM, nothing sealed, no memory written, and
no command, request, response, job or fault. -/
def Obligations.ResetState : Prop :=
  State.reset.pending = [] ∧ (∀ f, State.reset.g.get f = f.rst) ∧ State.reset.g.phase = 0 ∧ State.reset.g.running = false ∧
    State.reset.g.sealed = false ∧ (∀ a, memGet State.reset.g.mem a = 0) ∧ State.reset.g.canonical ∧ State.reset.g.out = [] ∧
    State.reset.g.lnk = [] ∧ State.reset.g.xbar.voq = [] ∧ State.reset.g.sub.kws = [] ∧ State.reset.g.flt.syn = [] ∧ State.reset.g.hasp = false

/-- R4, R381: a 64-bit write of a register that has no rule of its own gives each RW field its bits of the data, clears the W1C bits written 1,
leaves RO and WO fields, gives an RWS field its bits before the seal and leaves it after; and changes no other register but the seal's own
count, no memory and nothing else. -/
def Obligations.RegisterWriteByAccess : Prop :=
  ∀ (s : State) (bus : Bus) (off : Nat) (data : Word) (fs : List Fld),
    regAt regTable off = some fs → off % 8 = 0 → ownRule off = false → s.g.reaches8 ⟨bus, .full, data⟩ off → (∀ f ∈ fs, s.g.get f < 2 ^ f.wid) →
    ∃ t, exec (.registerWrite bus off 8 data) s = .next t ∧ t.pending = s.pending ∧ { t.g with csr := s.g.csr } = s.g ∧
      (∀ f ∈ fs, t.g.get f =
        (let v := bits data.toNat (f.key % 64) f.wid
         match f.acc with
         | .rw => v
         | .rws => if s.g.sealed then s.g.get f else v
         | .w1c => s.g.get f - (s.g.get f &&& v)
         | .ro => s.g.get f
         | .wo => s.g.get f)) ∧
      (∀ f, offOf f ≠ off → f.key ≠ F.MGT_SEAL_RWS_WRITES.key → f.key ≠ F.MGT_SEAL_LAST_OFFSET.key → t.g.get f = s.g.get f)

/-- R345, R373, R385, R389: the writes that the gate holds back: in the Hasp state and, outside GLB, FLT and MGT, in BOOT_ROM and RECOVERY a
PCIe write has no effect; under ENFORCE a write by the other port is dropped and counted; an I3C write of any other register is refused and
counted.
R3: a write of another width, or one not naturally aligned, changes nothing. -/
def Obligations.WritesHeldBack : Prop :=
  (∀ (s : State) (bus : Bus) (off : Nat) (data : Word), off % 8 = 0 →
    (bus ≠ .i3c → s.g.hasp = true ∨ (s.g.phase ≤ 1 ∧ mgmtBlock off = false) → exec (.registerWrite bus off 8 data) s = .next s) ∧
    (bus ≠ .i3c → s.g.hasp = false → (1 < s.g.phase ∨ mgmtBlock off = true) → s.g.on F.MGT_OWNER_ENFORCE = true → s.g.owns bus = false →
      enforceFree off = false → exec (.registerWrite bus off 8 data) s = .next (s.withG (s.g.inc F.MGT_OWNER_DROPPED 1))) ∧
    (s.g.on F.MGT_I3C_DA_VALID = true → i3cMay off = false →
      exec (.i3cPrivateWrite off data) s = .next (s.withG (s.g.inc F.MGT_I3C_REFUSED 1)))) ∧
  (∀ (s : State) (bus : Bus) (off width : Nat) (data : Word),
    (width ≠ 4 ∧ width ≠ 8) ∨ (width = 8 ∧ off % 8 ≠ 0) ∨ (width = 4 ∧ off % 4 ≠ 0) → exec (.registerWrite bus off width data) s = .next s)

/-- R408: a 64-bit read of a queue register that shows an entry hands out the entry and removes it; one that shows none, and a 32-bit read of
either half, removes nothing. -/
def Obligations.QueueReads : Prop :=
  ∀ (s : State) (bus : Bus),
    let gives := fun (h : Gikan) (off v : Nat) => Host.Outcome.next (φ := Fault) (ρ := Refusal) (s.withG (h.emit (.busRead bus off v)))
    (s.g.readable bus 0x300090 = true →
      (∀ e n ep rest, s.g.map.homeReq = (e, n, ep) :: rest → s.g.homeReqWord.testBit 48 = true ∧
        exec (.mapHomeReqRead bus .full) s = gives { s.g with map := { s.g.map with homeReq := rest } } 0x300090 s.g.homeReqWord) ∧
      (s.g.map.homeReq = [] → exec (.mapHomeReqRead bus .full) s = gives s.g 0x300090 0)) ∧
    (s.g.readable bus 0x6000B0 = true →
      (∀ c rest, s.g.stk.cand = c :: rest → s.g.candWord.testBit 63 = true ∧
        exec (.memRepairCandRead bus .full) s = gives { s.g with stk := { s.g.stk with cand := rest } } 0x6000B0 s.g.candWord) ∧
      (s.g.stk.cand = [] → exec (.memRepairCandRead bus .full) s = gives s.g 0x6000B0 0)) ∧
    (s.g.readable bus 0x900068 = true →
      (∀ p rest, s.g.red.posts = p :: rest → s.g.stragglerWord.testBit 63 = true ∧
        exec (.redStraggler0Read bus .full) s = gives
          ((({ s.g with red := { s.g.red with posts := rest } }).set F.RED_STRAGGLER1_LATE_TICKS p.late).set F.RED_STRAGGLER1_MISSING_COUNT p.count)
          0x900068 s.g.stragglerWord) ∧
      (s.g.red.posts = [] → exec (.redStraggler0Read bus .full) s = gives s.g 0x900068 0)) ∧
    (s.g.readable bus 0x1000A8 = true →
      (∀ c rest, s.g.flt.checkLog = c :: rest → c.w0.testBit 63 = true →
        ∃ t, exec (.fltCheckLog0Read bus .full) s = .next t ∧ t.g.flt.checkLog = rest ∧ t.g.out = s.g.out ++ [.busRead bus 0x1000A8 c.w0] ∧
          t.g.get F.FLT_CHECK_LOG1_TICK = bits c.w1 0 40 ∧ t.g.get F.FLT_CHECK_LOG1_ACLK_MHZ = bits c.w1 40 10 ∧
          t.g.get F.FLT_CHECK_LOG1_ACTIVITY = bits c.w1 50 8 ∧ t.g.get F.FLT_CHECK_LOG2_WORK = bits c.w2 0 64 ∧ t.g.mem = s.g.mem) ∧
      (s.g.flt.checkLog = [] → exec (.fltCheckLog0Read bus .full) s = gives s.g 0x1000A8 0)) ∧
    (∀ c ∈ [(0x300090, Instr.mapHomeReqRead bus, s.g.homeReqWord), (0x6000B0, .memRepairCandRead bus, s.g.candWord),
        (0x900068, .redStraggler0Read bus, s.g.stragglerWord), (0x1000A8, .fltCheckLog0Read bus, s.g.checkWord)],
      s.g.readable bus c.1 = true →
        exec (c.2.1 .low) s = gives s.g c.1 (c.2.2 % 2 ^ 32) ∧ exec (c.2.1 .high) s = gives s.g (c.1 + 4) (c.2.2 / 2 ^ 32 % 2 ^ 32))

/-- R4: a write that sets CLR_CNT of a block clears the counters that the block's tables name, and changes no memory and no field outside its own
register, those counters and the seal's own count. COH_TXN.PEAK begins anew from ACTIVE; the FLT counts of every group and PWR's throttle time
are zero with the rest; a port's write that keeps it enabled and out of RETRAIN clears the port's counters. -/
def Obligations.ClearCounters : Prop :=
  ∀ (s : State) (w : RegW),
    (∀ e ∈ [
        (Instr.tickClrCnt w, F.TICK_CTRL_CLR_CNT, [F.TICK_EVENTS_SPLIT_ENTRIES, F.TICK_EVENTS_SWITCH_REFUSALS, F.TICK_EVENTS_REF_MISSED,
          F.TICK_EVENTS_BIG_ADMITS] ++ (List.range 6).flatMap (fun i => [F.TICK_OVR_OVERRUNS i, F.TICK_OVR_LONG_OVERRUNS i])),
        (.mapClrCnt w, F.MAP_CTRL_CLR_CNT, [F.MAP_EVENTS_HINGE_TIMEOUTS, F.MAP_EVENTS_FORCED, F.MAP_EVENTS_REVERTS, F.MAP_EVENTS_FUTURE_EPOCH,
          F.MAP_EVENTS2_PUB_CONFLICTS, F.MAP_EVENTS2_REVOKE_ABORTS, F.MAP_EVENTS2_LATE_DROPS, F.MAP_EVENTS2_ARM_REFUSALS, F.MAP_DUP_CACHE_FULL,
          F.MAP_DUP_PENDING_DROPS, F.MAP_DUP_AGED_OUT, F.MAP_DUP_REVOKE_IGNORED]),
        (.memClrCnt w, F.MEM_CTRL_CLR_CNT, [F.MEM_RMW_MERGES, F.MEM_POISON_READS_READS] ++
          (List.range 12).flatMap (fun h => [F.MEM_ERR_H_CORRECTED h, F.MEM_ERR_H_UNCORRECTED h])),
        (.tierClrCnt w, F.TIER_CTRL_CLR_CNT, [F.TIER_SCHED_STATUS_LATE, F.TIER_SCHED_STATUS_SKIPPED, F.TIER_HINT1_IGNORED, F.TIER_LEND_CRC_DISCARDS,
          F.TIER_FLASH_ERR_RETRIES, F.TIER_FLASH_ERR_SOFT, F.TIER_FLASH_ERR_UNCORRECTABLE, F.TIER_SAG_PROGRAMS_HELD, F.TIER_SAG_ERASES_HELD,
          F.TIER_SAG_DEMOTIONS_PAUSED, F.TIER_EVENTS_FETCHES, F.TIER_EVENTS_DEMOTIONS, F.TIER_EVENTS_DROPS, F.TIER_EVENTS_HOME_COPIES] ++
          (List.range 4).flatMap (fun i => [F.TIER_STALL_EVENTS i, F.TIER_STALL_CYCLES_K i])),
        (.redClrCnt w, F.RED_CTRL_CLR_CNT, [F.RED_ROUNDS_COMMITTED, F.RED_ROUNDS_ABORTED, F.RED_ABORT_CAUSE_DEADLINE, F.RED_ABORT_CAUSE_SOFTWARE,
          F.RED_ABORT_CAUSE_PARENT_POISON, F.RED_ABORT_CAUSE_DESTROY, F.RED_ABORT_CAUSE_IGNORED, F.RED_EVENTS_DUP_BITMAP, F.RED_EVENTS_LATE_DONE,
          F.RED_EVENTS_STALE, F.RED_EVENTS_BUSY, F.RED_EVENTS2_SPLIT_REFUSALS, F.RED_EVENTS2_FWD_TIMEOUTS, F.RED_EVENTS2_BCAST_FAILS,
          F.RED_EVENTS2_POST_DROPS, F.RED_EVENTS2_ABORT_ANSWERS, F.RED_STORE_ECC_CORRECTED, F.RED_STORE_ECC_UNCORRECTED]),
        (.gfsClrCnt w, F.GFS_CTRL_CLR_CNT, [F.GFS_GATHER_ROWS, F.GFS_GATHER_REUSED, F.GFS_GATHER_OUT_OUT_ROWS, F.GFS_GATHER_OUT_PADDING,
          F.GFS_FILTER_SCANNED, F.GFS_FILTER_PASSED, F.GFS_SCORE_TILES, F.GFS_SCORE_NAN_EXCLUDED, F.GFS_POISON_ROWS, F.GFS_POISON_RECORDS,
          F.GFS_POISON_KEYS, F.GFS_POISON_ECC, F.GFS_REFUSALS_COST, F.GFS_REFUSALS_SIZE, F.GFS_REFUSALS_FORMAT, F.GFS_REFUSALS_SELECT_BUSY,
          F.GFS_KEY_WAIT_EVENTS, F.GFS_KEY_WAIT_CYCLES_K]),
        (.cmpClrCnt w, F.CMP_CTRL_CLR_CNT, [F.CMP_TABLE_STATUS_WAITS, F.CMP_TABLE_STATUS_REFUSALS, F.CMP_BLOCKS_AXC2, F.CMP_BLOCKS_AXC1, F.CMP_AXC1_RAW,
          F.CMP_AXC1_SLOW, F.CMP_ERRORS_TABLE_MISS, F.CMP_ERRORS_MODE_MISMATCH, F.CMP_ERRORS_MALFORMED, F.CMP_ERRORS_SEAMS_K] ++
          (List.range 3).flatMap (fun i => [F.CMP_STALL_EVENTS i, F.CMP_STALL_CYCLES_K i])),
        (.pinClrCnt w, F.PIN_CTRL_CLR_CNT, [F.PIN_IMAGE_STATUS_LOADS, F.PIN_IMAGE_STATUS_REFUSALS, F.PIN_ITEMS_STARTED, F.PIN_ITEMS_NOT_OK,
          F.PIN_EXC_EXCEPTIONS, F.PIN_EXC_KILLS, F.PIN_EXC_ECC, F.PIN_QUEUE_FULL_REFUSALS, F.PIN_QUEUE_CMPT_SWITCHES, F.PIN_MEM_BUSY_RESENDS,
          F.PIN_MEM_RESOLVES, F.PIN_MEM_STORE_FAULTS, F.PIN_SCRATCH_ECC_CORRECTED, F.PIN_SCRATCH_ECC_UNCORRECTED]),
        (.subClrCnt w, F.SUB_CTRL_CLR_CNT, [F.SUB_KW_EVENTS_BAD_LENGTH, F.SUB_KW_EVENTS_OVERWRITES, F.SUB_KW_EVENTS_ABANDONED, F.SUB_KW_EVENTS_NO_CQ,
          F.SUB_CMD_ACCEPTED, F.SUB_CMD_NOT_OK, F.SUB_XLATE_EVENTS_WALKS, F.SUB_XLATE_EVENTS_FAULTS, F.SUB_XLATE_EVENTS_INVALS, F.SUB_HOSTWIN_FILLS,
          F.SUB_HOSTWIN_DRAINS, F.SUB_PIN_FETCHES]),
        (.xbarClrCnt w, F.XBAR_CTRL_CLR_CNT, [F.XBAR_EVENTS_CT_ENDED, F.XBAR_EVENTS_GATE_WRITE_REFUSED, F.XBAR_EVENTS_BRIDGE_DECLINED] ++
          (List.range 48).map F.XBAR_INBUF_PEAK ++ (List.range 32).flatMap (fun p => [F.XBAR_GATE_STATUS_HOLDS p, F.XBAR_GATE_STATUS_SWAPS p])),
        (.secClrCnt w, F.SEC_CTRL_CLR_CNT, [F.SEC_CTRL_VIEW_MISSES, F.SEC_WARD_COUNT, F.SEC_WARD_ALARMS, F.SEC_SCRUB_COUNTS_COMMANDS_ENDED,
          F.SEC_SCRUB_COUNTS_ITEMS_STOPPED, F.SEC_SCRUB_COUNTS_RECORDS_DROPPED, F.SEC_SCRUB_COUNTS_WRITES_DROPPED, F.SEC_SCRUB_COUNTS_REFUSED,
          F.SEC_LMS_COUNT_SIGNATURES, F.SEC_LMS_COUNT_RESERVATIONS, F.SEC_LMS_COUNT_BUSY_ANSWERS, F.SEC_SPDM_REQUESTS 0, F.SEC_SPDM_REQUESTS 1,
          F.SEC_SPDM_ERRORS 0, F.SEC_SPDM_ERRORS 1]),
        (.fltClrCnt w, F.FLT_CTRL_CLR_CNT, [F.FLT_CHECK_STATS_CHECKED, F.FLT_CHECK_STATS_MISMATCHES, F.FLT_CHECK_STATS_SKIPPED,
          F.FLT_CHECK_STATS_AUTO_FENCES, F.FLT_CHECK_STATS_LOG_DROPS]),
        (.pwrClrCnt w, F.PWR_CTRL_CLR_CNT, [F.PWR_EVENTS_Q1_ENTRIES, F.PWR_EVENTS_Q2_ENTRIES, F.PWR_EVENTS_Q3_ENTRIES, F.PWR_EVENTS_FAST_TRIPS,
          F.PWR_AVS_STEPS, F.PWR_AVS_MARGIN_FAULTS, F.PWR_SAG_WARNINGS])],
      s.g.reaches8 w (offOf e.2.1) → ∃ t, exec e.1 s = .next t ∧ t.pending = s.pending ∧ t.g.mem = s.g.mem ∧ t.g.out = s.g.out ∧
        (∀ f ∈ e.2.2, t.g.get f = 0) ∧ (∀ f, offOf f ≠ offOf e.2.1 → s.g.regsBut t.g f e.2.2)) ∧
    (s.g.reaches8 w (offOf F.COH_CTRL_CLR_CNT) → ∃ t, exec (.cohClrCnt w) s = .next t ∧ t.pending = s.pending ∧ t.g.mem = s.g.mem ∧
      (∀ f ∈ [F.COH_CACHE_HITS 0, F.COH_CACHE_MISSES 0, F.COH_CACHE_HITS 1, F.COH_CACHE_MISSES 1, F.COH_STALL_EVENTS, F.COH_STALL_CYCLES_K,
        F.COH_EVENTS_FWD_EMPTY, F.COH_EVENTS_COARSE_CONV, F.COH_EVENTS_BUSY_REFUSALS, F.COH_EVENTS_LATE_DROPS, F.COH_EVENTS2_DEAD_DECLARED,
        F.COH_EVENTS2_COMPLETE_TIMEOUTS, F.COH_EVENTS2_DIR_UNCORRECTABLE, F.COH_EVENTS2_STALE_WB], t.g.get f = 0) ∧
      t.g.get F.COH_TXN_PEAK = s.g.get F.COH_TXN_ACTIVE % 2 ^ F.COH_TXN_PEAK.wid) ∧
    (s.g.reaches8 w (offOf F.FLT_CTRL_CLR_CNT) → ∃ t, exec (.fltClrCnt w) s = .next t ∧ t.g.flt.corrected = [] ∧ t.g.flt.contained = [] ∧
      t.g.flt.fatal = [] ∧ t.g.flt.syn = s.g.flt.syn) ∧
    (s.g.reaches8 w (offOf F.PWR_CTRL_CLR_CNT) → ∃ t, exec (.pwrClrCnt w) s = .next t ∧ t.g.pwr.throttleNs = 0) ∧
    (∀ p : Fin 32, s.g.reaches8 w (offOf (F.LNK_CTRL_CLR_CNT p)) → s.g.lnkState p ≠ 0 → s.g.lnkState p ≠ 8 →
      s.g.wrValue (trig w (F.LNK_CTRL_CLR_CNT p)) (F.LNK_CTRL_ENABLE p) = 1 → wrOne (trig w (F.LNK_CTRL_CLR_CNT p)) (F.LNK_CTRL_RETRAIN p) = false →
      ∃ t, exec (.lnkClrCnt w p) s = .next t ∧ t.g.mem = s.g.mem ∧
        ∀ f ∈ [F.LNK_COUNT0_CRC_ERRORS p, F.LNK_COUNT0_REPLAYS p, F.LNK_COUNT1_SEQ_DISCARDS p, F.LNK_COUNT1_NAKS_SENT p, F.LNK_COUNT1_RETRAINS p,
          F.LNK_COUNT2_SRC_DROPS p, F.LNK_COUNT2_CREDIT_DROPS p, F.LNK_COUNT2_FRAME_ERRORS p, F.LNK_COUNT2_LOST_PACKETS p,
          F.LNK_FEC_ALARM_ALARMS p] ++
          (List.range 8).flatMap (fun i => [F.LNK_LANE_FEC_CORR_SYMBOLS p i, F.LNK_LANE_FEC_UNCORR_CW p i, F.LNK_LANE_FEC_LOCK_LOSSES p i]),
          t.g.get f = 0)

/-! ## Fabric time and the tick (chapter 2) -/

/-- R20: a write of TICK_CTRL.RUN sets RUN; the time master then starts ticks from TICK_TIME_SET with tick 0 and the period of NEXT_US; a child starts
them at the boundary that R20 fixed, with its parent's numbering as it stands there, and not before it.
R17, R18, R288: a child whose parent port carries flits sends SYNC_REQ when 4 µs have passed since the last, with its exchange number and t1, its
own fabric time when the flit passes the plane of reference; a parent answers within 1 µs with t2, its fabric time at the receipt, t3, its tick,
period and armed change; a child takes a matching answer, whose receipt is t4, keeps its offset and delay, and steers by it; an answer that is
bad, unasked for, or from a parent whose time is not valid changes nothing. The operands are the times to and from the flits' codeword boundaries.
Their bounds of 40.16 ns and 70 ns are the model's own (log 140).
R27: a write of NEXT_US from 2 to 64 is kept and any other refused and counted; on the master a write of SWITCH_AT at least 16 ahead arms the
change with NEXT_US, all ones disarms it, and a write elsewhere or with less lead is refused and leaves what is armed; at the armed boundary the
armed period takes effect and T_base is that boundary. -/
def Obligations.TicksAndTimeSync : Prop :=
  (∀ (s : State),
    (∀ w, s.g.reaches8 w (offOf F.TICK_CTRL_RUN) → ∃ t, exec (.tickRun w) s = .next t ∧ t.g.get F.TICK_CTRL_RUN = 1 ∧ t.g.mem = s.g.mem ∧
      (∃ v, t.g.tick = { s.g.tick with slew := v } ∧ (v = s.g.tick.slew ∨ v = 0)) ∧ ∀ f, offOf f ≠ offOf F.TICK_CTRL_RUN → s.g.regsBut t.g f
        ([F.TICK_EVENTS_SPLIT_ENTRIES, F.TICK_EVENTS_SWITCH_REFUSALS, F.TICK_EVENTS_REF_MISSED, F.TICK_EVENTS_BIG_ADMITS] ++
          (List.range 6).flatMap (fun i => [F.TICK_OVR_OVERRUNS i, F.TICK_OVR_LONG_OVERRUNS i]))) ∧
    (s.g.on F.TICK_CTRL_RUN = true → s.g.on F.TICK_CTRL_MASTER = true → s.g.running = false → ∀ v, v < 2 ^ 64 → s.g.tick.timeSet = some v →
      ∃ t, exec .masterTickStart s = .next t ∧ t.g.time = v ∧ t.g.running = true ∧ t.g.tickNo = 0 ∧ t.g.tick.base = v ∧ t.g.tick.baseTick = 0 ∧
        t.g.get F.TICK_PERIOD_PERIOD_US = s.g.get F.TICK_PERIOD_NEXT_US % 128 ∧ t.g.tick.timeSet = none ∧ t.g.mem = s.g.mem) ∧
    (∀ b n p0, s.g.isChild = true → s.g.running = false → s.g.tick.startAt = some (b, n) → s.g.tick.parent = some p0 →
      let p := p0.inForce b
      (b ≤ s.g.time → ∃ t, exec .tickStart s = .next t ∧ t.g.running = true ∧ t.g.tickNo = n % 2 ^ 64 ∧ t.g.tick.base = p.baseNs ∧
        t.g.tick.baseTick = p.baseTick ∧ t.g.get F.TICK_PERIOD_PERIOD_US = p.periodUs % 128 ∧
        t.g.get F.TICK_SWITCH_SWITCH_AT = p.switchAt % 2 ^ 64 ∧ t.g.time = s.g.time ∧ t.g.mem = s.g.mem) ∧
      (s.g.time < b → exec .tickStart s = .next s))) ∧
  (∀ (s : State),
    (∀ lead, s.g.isChild = true → s.g.carries (s.g.get F.TICK_PARENT_PORT) 0 = true → (∀ x, s.g.tick.sentAt = some x → x + 4000 ≤ s.g.now) →
      lead ≤ 10280 →
      let p := s.g.get F.TICK_PARENT_PORT
      let e := (s.g.tick.exchNo + 1) % 65536
      let t1 := s.g.stamp256 + lead + s.g.get (F.LNK_TS_DELAY_TX_PS p) * 256 / 1000
      ∃ t, exec (.syncReqSend lead) s = .next t ∧ t.g.tick = { s.g.tick with exchNo := e, req := some (e, t1), sentAt := some s.g.now } ∧
        (∃ f, t.g.out = s.g.out ++ [.flit p f] ∧ f.kind = 2 ∧ f.crc = flitCrc f ∧ f.slots = fit (tsyncSlots 1 ⟨false, if s.g.running then 1 else 0, e, t1,
          0, 0, 0, s.g.get F.TICK_PERIOD_PERIOD_US, s.g.get F.TICK_PERIOD_ARMED_US, s.g.get F.TICK_SWITCH_SWITCH_AT⟩) 240) ∧ t.g.mem = s.g.mem) ∧
    (∀ lead x, s.g.tick.sentAt = some x → s.g.now < x + 4000 → exec (.syncReqSend lead) s = .next s) ∧
    (∀ (p : Fin 32) (m : TSync) (since wait : Nat), m.bad = false → s.g.carries p 0 = true → since ≤ 17920 → since + wait ≤ 256000 →
      ∃ t f, exec (.syncReq p m since wait) s = .next t ∧ t.g.out = s.g.out ++ [.flit p f] ∧ f.kind = 2 ∧ f.crc = flitCrc f ∧
        f.slots = fit (tsyncSlots 2 ⟨false, if s.g.running then 1 else 0, m.exch, s.g.stamp256 - since - s.g.get (F.LNK_TS_DELAY_RX_PS p) * 256 / 1000,
          s.g.stamp256 + wait + s.g.get (F.LNK_TS_DELAY_TX_PS p) * 256 / 1000, s.g.tickNo, s.g.tick.base, s.g.get F.TICK_PERIOD_PERIOD_US,
          s.g.get F.TICK_PERIOD_ARMED_US, s.g.get F.TICK_SWITCH_SWITCH_AT⟩) 240 ∧ t.g.tick = s.g.tick ∧ t.g.mem = s.g.mem) ∧
    (∀ (p : Fin 32) (m : TSync) (since : Nat), (∀ e t1, s.g.tick.req = some (e, t1) → m.bad = true ∨ m.exch ≠ e ∨ m.timeValid ≠ 1) →
      exec (.syncResp p m since) s = .next s) ∧
    (∀ (p : Fin 32) (m : TSync) (since e t1 : Nat), s.g.tick.req = some (e, t1) → s.g.isChild = true → p.val = s.g.get F.TICK_PARENT_PORT →
      s.g.carries p 0 = true → m.bad = false → m.exch = e → m.timeValid = 1 → since ≤ 17920 →
      let t4 := s.g.stamp256 - since - s.g.get (F.LNK_TS_DELAY_RX_PS p) * 256 / 1000
      let off : Int := ((m.ta : Int) - t1) - ((t4 : Int) - m.tb)
      let dly : Int := ((m.ta : Int) - t1) + ((t4 : Int) - m.tb)
      ∃ t, exec (.syncResp p m since) s = .next t ∧ t.g.get F.TICK_OFFSET_OFFSET_PS = toBits (off * 1000 / 512) 32 ∧
        t.g.get F.TICK_OFFSET_DELAY_PS = toBits (dly * 1000 / 512) 32 ∧ t.g.get F.TICK_STATUS_HOLDOVER = 0 ∧ t.g.tick.req = none ∧
        t.g.tick.good = (if off.natAbs ≤ 12800 then s.g.tick.good + 1 else 0) ∧ t.g.mem = s.g.mem)) ∧
  (∀ (s : State),
    (∀ w, s.g.reaches8 w (offOf F.TICK_PERIOD_NEXT_US) → wrCovers w F.TICK_PERIOD_NEXT_US = true →
      let v := s.g.wrValue w F.TICK_PERIOD_NEXT_US
      (2 ≤ v → v ≤ 64 → exec (.tickPeriodWrite w) s = .next (s.withG (s.g.set F.TICK_PERIOD_NEXT_US v))) ∧
      (v < 2 ∨ 64 < v → exec (.tickPeriodWrite w) s =
        .next (s.withG ((s.g.set F.TICK_STATUS_SWITCH_REFUSED 1).inc F.TICK_EVENTS_SWITCH_REFUSALS 1)))) ∧
    (∀ w, s.g.reaches8 w (offOf F.TICK_SWITCH_SWITCH_AT) →
      let v := s.g.wrValue w F.TICK_SWITCH_SWITCH_AT
      let refused := (s.g.set F.TICK_STATUS_SWITCH_REFUSED 1).inc F.TICK_EVENTS_SWITCH_REFUSALS 1
      (v ≠ 2 ^ 64 - 1 → s.g.on F.TICK_CTRL_MASTER = true → s.g.tickNo + 16 ≤ v →
        exec (.switchAtWrite w) s = .next (s.withG
          ((s.g.set F.TICK_SWITCH_SWITCH_AT v).set F.TICK_PERIOD_ARMED_US (s.g.get F.TICK_PERIOD_NEXT_US)))) ∧
      (v ≠ 2 ^ 64 - 1 → s.g.on F.TICK_CTRL_MASTER = false ∨ v < s.g.tickNo + 16 → exec (.switchAtWrite w) s = .next (s.withG (refused))) ∧
      (v = 2 ^ 64 - 1 → s.g.on F.TICK_CTRL_MASTER = true →
        exec (.switchAtWrite w) s = .next (s.withG ((s.g.set F.TICK_SWITCH_SWITCH_AT v).set F.TICK_PERIOD_ARMED_US 0)))) ∧
    (let x := s.g.get F.TICK_SWITCH_SWITCH_AT
     s.g.running = true → s.g.frameEnd ≤ s.g.time → s.g.tick.late = false → s.g.tick.gap = none → x = s.g.tickNo + 1 → x ≠ 2 ^ 64 - 1 →
      s.g.on F.TICK_PERIOD_ARMED_US = true →
      ∃ t, exec .periodChange s = .next t ∧ t.g.get F.TICK_PERIOD_PERIOD_US = s.g.get F.TICK_PERIOD_ARMED_US % 128 ∧
        t.g.tick.base = s.g.frameEnd ∧ t.g.tick.baseTick = x ∧
        t.g.get F.TICK_SWITCH_SWITCH_AT = 2 ^ 64 - 1 ∧ t.g.get F.TICK_PERIOD_ARMED_US = 0 ∧ t.g.mem = s.g.mem))

/-- R18: what an exchange or a TICK_REF edge steers stays within the slew limit: 100 ppm, or 1,000 ppm in the time-split state; a held servo keeps
its correction.
R22, R23, R33: holdover after 12 µs without an exchange; the time-split state past 200 ns of estimated error; a missed TICK_REF edge; the first
edge before RUN steps fabric time to the next multiple of the period, and one while ticks run steps nothing. -/
def Obligations.ClockSplits : Prop :=
  (∀ (s t : State) (c : Instr), (∃ p m since, c = .syncResp p m since) ∨ c = .tickRefEdge → exec c s = .next t →
    (s.g.servoHeld = true → t.g.tick.slew = s.g.tick.slew) ∧
    (t.g.tick.slew = s.g.tick.slew ∨ (t.g.tick.slew.natAbs ≤ (if t.g.on F.TICK_STATUS_SPLIT then 1000 else 100)))) ∧
  (∀ (s : State),
    (∀ x, s.g.isChild = true → s.g.tick.lastExch = some x → x + 12000 ≤ s.g.time →
      exec .holdover s = .next (s.withG (s.g.set F.TICK_STATUS_HOLDOVER 1))) ∧
    (s.g.running = true → s.g.on F.TICK_STATUS_HOLDOVER = true → 200000000 < s.g.exchAge * max 1 (s.g.get F.TICK_LIMITS_HOLD_PPM) →
      s.g.servoHeld = false → s.g.on F.TICK_STATUS_SPLIT = false →
      ∃ t, exec .holdoverErrorLimit s = .next t ∧ t.g.get F.TICK_STATUS_SPLIT = 1 ∧ t.g.get F.TICK_STATUS_SPLIT_SEEN = 1 ∧
        t.g.get F.TICK_EVENTS_SPLIT_ENTRIES = satAdd 16 (s.g.get F.TICK_EVENTS_SPLIT_ENTRIES) 1 ∧ t.g.bitOf (F.FLT_WORDS_GROUPS 0) 58 = true ∧
        t.g.bitOf (F.FLT_WORDS_GROUPS 1) 58 = true ∧ t.g.mem = s.g.mem ∧ t.g.tick = { s.g.tick with goodSplit := 0 }) ∧
    (s.g.takesRef = true → ∀ e, s.g.tick.refNext = some e →
      let p := 1000 * max 1 (s.g.get F.TICK_REF_PERIOD_PERIOD_US)
      e + p + 1000 ≤ s.g.time →
      ∃ t, exec .tickRefMissing s = .next t ∧ t.g.get F.TICK_STATUS_REF_MISSING = 1 ∧
        t.g.get F.TICK_EVENTS_REF_MISSED = satAdd 16 (s.g.get F.TICK_EVENTS_REF_MISSED) 1 ∧ t.g.bitOf (F.FLT_WORDS_GROUPS 0) 58 = true ∧
        t.g.tick.refNext = some (e + p) ∧ (s.g.servoHeld = false → t.g.tick.slew = 0) ∧ t.g.mem = s.g.mem) ∧
    (s.g.takesRef = true → s.g.on F.TICK_CTRL_RUN = true → s.g.running = true →
      ∃ t, exec .tickRefEdge s = .next t ∧ t.g.time = s.g.time ∧ t.g.csr = s.g.csr ∧ t.g.mem = s.g.mem) ∧
    (s.g.takesRef = true → s.g.on F.TICK_CTRL_RUN = false → s.g.tick.refNext = none →
      let p := 1000 * max 1 (s.g.get F.TICK_REF_PERIOD_PERIOD_US)
      let v := ceilDiv s.g.time p * p
      v < 2 ^ 64 → ∃ t, exec .tickRefEdge s = .next t ∧ t.g.time = v ∧ t.g.tick.refNext = some (v + p) ∧ t.g.mem = s.g.mem) ∧
    (s.g.takesRef = false → exec .tickRefEdge s = .next s))

/-- R26, R28, R344: a tick boundary comes only once its frame has ended; the new frame takes the next tick number, L cycles and the budget of each
class, with an armed period change in force; in the Hasp state the count alone goes on. The boundary is what the blocks that act at it make of the new frame, in this order. -/
def Obligations.TickBoundary : Prop :=
  ∀ (s : State),
    (s.g.running = true → s.g.frameEnd ≤ s.g.time → s.g.hasp = false →
      let b := s.g.shedBoundary.powerBoundary
      exec .tickBoundary s = .next (s.withG
        ((((List.range 16).foldl (fun h m => h.monTick m)
          (((((b.pinAllot b.tickFrame).bigAdmits).tierTick).gateBoundary.qsampleBoundary).tickSamples)).securityTick).nodeSettle))) ∧
    (s.g.running = true → s.g.frameEnd ≤ s.g.time → s.g.hasp = true → s.g.tick.gap = none → s.g.tick.late = false →
      ∃ t, exec .tickBoundary s = .next t ∧ t.g.tickNo = (s.g.tickNo + 1) % 2 ^ 64 ∧ t.g.eng = s.g.eng ∧ t.g.mem = s.g.mem) ∧
    (s.g.running = false ∨ s.g.time < s.g.frameEnd → exec .tickBoundary s = .next s) ∧
    (s.g.tick.gap = none → s.g.tick.late = false →
      let l := s.g.periodChange.get F.TICK_PERIOD_PERIOD_US * s.g.get F.PWR_STATE_ACLK_MHZ
      s.g.tickFrame.tickNo = (s.g.tickNo + 1) % 2 ^ 64 ∧ s.g.tickFrame.eng.len = l ∧
      ∀ c, s.g.tickFrame.budget c = l * s.g.share c / 64 * s.g.get F.PWR_STATE_THROTTLE / 64)

/-- R29, R30: the head item of an engine's queue is admitted at offset t when start + C fits the budget, start being the later of t and
busy_until, and busy_until is then its projected finish; one that does not fit waits, and one above the budget is admitted on an idle unit at
offset 0 alone, holding the unit. A unit that may not admit leaves its queue as it is.
R29, R31: when the item that an engine runs ends at cycle t, the unit is free of it, busy_until is t where the item had run over a boundary,
and what the item belongs to takes the end, settled: where the item stalls on lines that agents hold or on granules that are not there, it waits
for them instead. A unit with nothing running, and any
unit in the Hasp state, is left.
R111, R150: a step of an engine or command that meets no line of an agent and no absent granule has its effect whole, and so has a work item's
step. -/
def Obligations.FramedItems : Prop :=
  (∀ (s : State) (u : UnitId) (t : Nat) (i : Item) (rest : List Item) (kw idx k : Nat),
    (u.cls = .gth ∨ u.cls = .flt ∨ u.cls = .mtx) → u.n < 32 → (s.g.unit u).queue = i :: rest → i.work = .job kw idx k →
    let x := s.g.unit u
    let b := s.g.budget u.cls
    (s.g.admitOpen u = true → x.carried = false → i.cost ≤ b → max t x.busy + i.cost ≤ b →
      ∃ s', exec (.itemAdmit u t) s = .next s' ∧
        s'.g.unit u = { x with queue := rest, run := x.run ++ [⟨i, 0⟩], busy := max t x.busy + i.cost } ∧
        (∀ v, unitKey v ≠ unitKey u → s'.g.unit v = s.g.unit v) ∧ s'.g.mem = s.g.mem) ∧
    (s.g.admitOpen u = true → x.carried = false → b < i.cost → t = 0 → x.run = [] → x.busy = 0 →
      ∃ s', exec (.itemAdmit u t) s = .next s' ∧
        s'.g.unit u = { x with queue := rest, run := [⟨i, 0⟩], hold := some (i.cost, b) } ∧
        s'.g.get F.TICK_EVENTS_BIG_ADMITS = satAdd 16 (s.g.get F.TICK_EVENTS_BIG_ADMITS) 1 ∧ s'.g.mem = s.g.mem) ∧
    ((s.g.admitOpen u = false ∨ x.carried = true ∨ (i.cost ≤ b ∧ b < max t x.busy + i.cost) ∨ (b < i.cost ∧ t ≠ 0)) →
      exec (.itemAdmit u t) s = .next s)) ∧
  (∀ (s : State) (u : UnitId) (t : Nat), u.cls = .gth ∨ u.cls = .flt ∨ u.cls = .mtx →
    (∀ r rest o k, s.g.hasp = false → (s.g.unit u).run = r :: rest → r.item.work = Owner.work o k → s.g.scanTurn o k = true →
      let h := s.g.asItem (itemKey u r.item.work)
      let done := (h.unitFinish u t).gfsItemEnd o u k
      let also := fun (g : Gikan) => if u.cls = .mtx ∧ k < loadItem then g.keyWait else g
      exec (.itemEnd u t) s = .next (s.withG (h.settleAlso done also)) ∧
      (h.stalls done = false → h.settleAlso done also = (done.wentOn (itemKey u r.item.work)).asItem []) ∧
      ((s.g.unitFinish u t).unit u).run = rest ∧ ((s.g.unitFinish u t).unit u).queue = (s.g.unit u).queue ∧
      ((s.g.unit u).hold ≠ none → rest = [] → ((s.g.unitFinish u t).unit u).busy = t ∧ ((s.g.unitFinish u t).unit u).hold = none)) ∧
    ((s.g.unit u).run = [] ∨ s.g.hasp = true → exec (.itemEnd u t) s = .next s)) ∧
  (∀ (g done : Gikan) (who : List Nat) (f : Gikan → Gikan),
    (g.stalls done = false → g.cohSettle done = done.asItem g.coh.who) ∧
    ((g.asItem who).stalls (f (g.asItem who)) = false → g.itemStep who f = ((f (g.asItem who)).wentOn who).asItem []))

/-! ## Transactions (chapter 3) -/

/-- R37 to R39: the packet that the bytes of a well-formed packet spell is that packet, for every request type and every response, with every
field at every value its width admits. -/
def Obligations.PacketRoundTrip : Prop := ∀ p : Packet, p.wf = true → parsePacket (encodePacket p) = some p

/-- R42, R99: a READ that passes every check on sound units is answered OK with LENGTH bytes of memory from ADDR; one whose every unit holds the
poison signature is answered POISONED with zeros.
R42, R91: a WRITE that passes every check puts its payload at ADDR, leaves every other byte, and is answered OK with no payload. -/
def Obligations.ReadsAndWrites : Prop :=
  (∀ (s : State) (x : Fin 48) (q : Req) (i : Nat) (e : ExtW) (k : Gikan), q.hdr.type = tyREAD → s.g.serves x q i e k →
    let a := k.realAddr q.hdr.addr
    let n := q.hdr.length
    let h := (k.admitted x i q).heatUp ⟨i, e⟩ a n
    let p := (k.admitted x i q).homePort ⟨i, e⟩ a
    (k.sound ⟨i, e⟩ a n → exec (.read x q) s = .next (s.withG (h.answer p x q stOK (memGetN k.mem a n)))) ∧
    ((∀ u ∈ (⟨i, e⟩ : Site).units a n, k.clean.contains u = false ∧ k.bad.getD u 0 = 0) →
      exec (.read x q) s = .next (s.withG ((h.inc F.MEM_POISON_READS_READS 1).answer p x q stPOISONED (zeros n))))) ∧
  (∀ (s : State) (x : Fin 48) (q : Req) (i : Nat) (e : ExtW) (k : Gikan), q.hdr.type = tyWRITE → s.g.serves x q i e k →
    let a := k.realAddr q.hdr.addr
    let n := q.hdr.length
    k.calm i → (∀ u ∈ (⟨i, e⟩ : Site).units a n, k.bad.getD u 0 = 0) →
    ∃ h : Gikan, exec (.write x q) s = .next (s.withG (h.answer ((k.admitted x i q).homePort ⟨i, e⟩ a) x q stOK [])) ∧
      stored k.mem h.mem a (fit q.payload n) ∧ (h.answer ((k.admitted x i q).homePort ⟨i, e⟩ a) x q stOK []).mem = h.mem)

/-- R43: an ATOMIC that passes every check on a sound word puts the new value of its operation there, leaves every other byte, and is answered
with the old value; on a poisoned word it is not performed. (As for WRITE and PUBLISH: while no codeword in error waits in a free frame, no home
copy of the extent runs and MEM_FLIP is not armed.)
R84: a PUBLISH is decided against the region's header: a later version writes its payload, the version and the publisher; an earlier version,
the publisher's own, or any at VERSION 0xFFFF_FFFF is STALE_VERSION without effect; another publisher at the same version is CONFLICT, recorded. -/
def Obligations.AtomicAndPublish : Prop :=
  (∀ (s : State) (x : Fin 48) (q : Req) (i : Nat) (e : ExtW) (k : Gikan), q.hdr.type = tyATOMIC → s.g.serves x q i e k →
    let a := k.realAddr q.hdr.addr
    let w := q.hdr.length
    let p := (k.admitted x i q).homePort ⟨i, e⟩ a
    let old := leNat (memGetN k.mem a w)
    let b := atomOperand q % 256 ^ w
    (k.calm i → k.sound ⟨i, e⟩ a w →
      ∃ (h : Gikan) (v : Nat), exec (.atomic x q) s = .next (s.withG (h.answer p x q stOK (memGetN k.mem a w))) ∧ stored k.mem h.mem a (leBytes w v) ∧
        (q.hdr.subop = 1 → v = (old + b) % 256 ^ w) ∧ (q.hdr.subop = 2 → v = old &&& b) ∧ (q.hdr.subop = 3 → v = old ||| b) ∧
        (q.hdr.subop = 4 → v = old ^^^ b) ∧
        (q.hdr.subop = 5 → v = if sext old (8 * w) < sext b (8 * w) then old else b) ∧
        (q.hdr.subop = 6 → v = if sext old (8 * w) < sext b (8 * w) then b else old) ∧
        (q.hdr.subop = 7 → v = if old < b then old else b) ∧ (q.hdr.subop = 8 → v = if old < b then b else old) ∧
        (q.hdr.subop = 9 → v = b) ∧ (q.hdr.subop = 10 → v = if old = atomCompare q % 256 ^ w then b else old) ∧
        (q.hdr.subop = 11 → v = f32Add old b)) ∧
    ((∀ u ∈ (⟨i, e⟩ : Site).units a w, k.clean.contains u = false ∧ k.bad.getD u 0 = 0) → 0 < w →
      ∃ h : Gikan, exec (.atomic x q) s = .next (s.withG (h.answer p x q stPOISONED [])) ∧ h.mem = k.mem)) ∧
  (∀ (s : State) (x : Fin 48) (q : Req) (i : Nat) (e : ExtW) (k : Gikan), q.hdr.type = tyPUBLISH → s.g.serves x q i e k →
    k.calm i → k.sound ⟨i, e⟩ e.base 8 →
    let a := k.realAddr q.hdr.addr
    let n := q.hdr.length
    let p := (k.admitted x i q).homePort ⟨i, e⟩ a
    let ver := leNat (memGetN k.mem e.base 4)
    let pub := leNat (memGetN k.mem (e.base + 4) 2)
    let v := pubVersion q
    ((∀ u ∈ (⟨i, e⟩ : Site).units a n, k.bad.getD u 0 = 0) → ver < v → ver ≠ 2 ^ 32 - 1 →
      ∃ (h : Gikan) (m : List Host.Cell), exec (.publish x q) s = .next (s.withG (h.answer p x q stOK [])) ∧ stored k.mem m a (fit q.payload n) ∧
        stored m h.mem e.base (leBytes 4 v ++ leBytes 2 q.hdr.src ++ zeros 2)) ∧
    (v < ver ∨ ver = 2 ^ 32 - 1 ∨ (v = ver ∧ q.hdr.src = pub) →
      ∃ h : Gikan, exec (.publish x q) s = .next (s.withG (h.answer p x q stSTALEV [])) ∧ h.mem = k.mem) ∧
    (v = ver → ver ≠ 2 ^ 32 - 1 → q.hdr.src ≠ pub →
      ∃ h : Gikan, exec (.publish x q) s = .next (s.withG (h.answer p x q stCONFLICT [])) ∧ h.mem = k.mem ∧ h.get F.MAP_PUB_CONFLICT_ENTRY = i % 2 ^ 16 ∧
        h.get F.MAP_PUB_CONFLICT_OTHER = q.hdr.src % 2 ^ 16 ∧ h.get F.MAP_PUB_CONFLICT_VERSION = v % 2 ^ 32 ∧
        h.bitOf (F.FLT_WORDS_GROUPS 1) 62 = true))

/-- R10, R36: the checks that refuse a request of any of the types on memory, in their order: the source rule drops it with a contained fault of its
port; the Hasp state, quarantine, check 3 and an epoch that is neither live refuse it with their codes; on its extent a revoked one, a failed
match, a wrong length and quiescing refuse it. None of them touches memory.
R58, R59: a non-idempotent request whose record is pending is dropped and counted; one whose record is complete, and not yet one that may be
evicted, is answered with the stored response, DUP set and RETRY its own; one with no record and an age of 4 or more is answered TIMEOUT and
counted. -/
def Obligations.AdmissionAndRecords : Prop :=
  (∀ (s : State) (x : Fin 48) (q : Req) (c : Instr), q.wf = true →
    (c = .read x q ∧ q.hdr.type = tyREAD) ∨ (c = .write x q ∧ q.hdr.type = tyWRITE) ∨ (c = .atomic x q ∧ q.hdr.type = tyATOMIC) ∨
      (c = .publish x q ∧ q.hdr.type = tyPUBLISH) →
    (∀ src k, s.g.takePkt x (.req q) = (src, k) →
      let drop := k.consumed src x (.req q)
      (k.srcOk x q = false → exec c s = .next (s.withG
        ((drop.inc (F.LNK_COUNT2_SRC_DROPS x) 1).contained x.val 0xFF (offOf (F.LNK_COUNT2_SRC_DROPS x))))) ∧
      (k.srcOk x q = true → k.hasp = true → k.forSelf q = true → exec c s = .next (s.withG (drop.refuse x q stHASP))) ∧
      (k.srcOk x q = true → k.hasp = false → k.quarBad x q = true → exec c s = .next (s.withG (drop.refuse x q stQUAR))) ∧
      (k.srcOk x q = true → k.hasp = false → k.quarBad x q = false → k.unsup x q false = true →
        exec c s = .next (s.withG (drop.refuse x q stUNSUP)))) ∧
    (∀ h i e, s.g.receive x q q.hdr.type false = .go h i e → (q.hdr.type = tyATOMIC → e.comp = 0) →
      ((h.map.revoked.get? i).isSome = true → exec c s = .next (s.withG (h.refuse x q stREVOKED))) ∧
      (h.map.revoked.get? i = none → h.check7 q e ≠ 0 → exec c s = .next (s.withG (h.refuseWard x q (h.check7 q e) i))) ∧
      (h.map.revoked.get? i = none → h.check7 q e = 0 → h.memLength q e = false → exec c s = .next (s.withG (h.refuse x q stLENGTH))) ∧
      (h.map.revoked.get? i = none → h.check7 q e = 0 → h.memLength q e = true → e.seated = true →
        (h.get F.MAP_QUIESCE_CMPT_MASK).testBit e.cmpt = true → exec c s = .next (s.withG (h.refuse x q stBUSY))) ∧
      (h.refuse x q stBUSY).mem = h.mem)) ∧
  (∀ (s : State) (x : Fin 48) (q : Req) (src : From) (k : Gikan) (c : Instr),
    (c = .atomic x q ∧ q.hdr.type = tyATOMIC) ∨ (c = .publish x q ∧ q.hdr.type = tyPUBLISH) ∨ (c = .msg x q ∧ q.hdr.type = tyMSG) ∨
      (c = .contrib x q ∧ q.hdr.type = tyCONTRIB) →
    s.g.arrives x q src k →
    let mine := fun (r : DupRec) => r.src == q.hdr.src && r.tag == q.hdr.tag && r.sentTick == q.hdr.sentTick && r.type == q.hdr.type
    (∀ r, k.req.dups.find? mine = some r → r.done = none →
      exec c s = .next (s.withG ((k.inc F.MAP_DUP_PENDING_DROPS 1).consumed src x (.req q)))) ∧
    (∀ r a b, k.req.dups.find? mine = some r → r.done = some (a, b) → k.evictableRec r = false →
      exec c s = .next (s.withG ((k.answerFrom 47 x q { a with dup := 1, retry := q.hdr.retry }).consumed src x (.req q)))) ∧
    (k.req.dups.find? mine = none → k.forSelf q = true → 4 ≤ k.reqAge q →
      exec c s = .next (s.withG (((k.inc F.MAP_DUP_AGED_OUT 1).refuse x q stTIMEOUT).consumed src x (.req q)))))

/-- R48, R270: a MSG whose queue is valid and of its compartment, with room for its length and a free slot, is written into the slot at TAIL, which
moves on by one, and answered OK (shown for a ring in host memory, which the slot is written to by PCIe); a full queue refuses it with BUSY_RETRY, an invalid one or one of another compartment with NOT_PRESENT.
R44, R47, R49: a TRIGGER that carries a command, of a multiple of 8 bytes from 32 to 4,096 that its header states and with a RESULT_MAX of at most 40, is answered with the submission
index of its Keyway, which moves on by one; a full Keyway refuses it. A FENCE request with no command of its sender before it is answered at
once, and otherwise held for exactly those. R49, R122, R124: a LEND or RECLAIM of a bad range is refused; otherwise the loan is taken or not, and the
answer to a RECLAIM waits for its pages. -/
def Obligations.MessagesAndNodeRequests : Prop :=
  (∀ (s : State) (x : Fin 48) (q : Req) (h : Gikan) (i : Nat) (e : ExtW),
    s.g.receive x q tyMSG false = .go h i e →
    let n := msgQueue q
    let r := h.mq n
    ((4096 ≤ n ∨ r.valid = false ∨ r.cmpt ≠ q.hdr.cmpt) → exec (.msg x q) s = .next (s.withG (h.refuse x q stNOTPRES))) ∧
    (n < 4096 → r.valid = true → r.cmpt = q.hdr.cmpt → h.memberOf q.hdr.src q.hdr.cmpt = true → 0 < q.hdr.length → q.hdr.length ≤ 4096 →
      q.hdr.length + 16 ≤ r.slotBytes → ∀ j, h.check10Node q = (true, j) → (j.mq n).slotBytes = r.slotBytes ∧
      (r.slots ≤ r.used → exec (.msg x q) s = .next (s.withG (j.refuse x q stBUSY))) ∧
      (r.used < r.slots → ∀ side, (r.loc = 1 ∧ side = .a) ∨ (r.loc = 2 ∧ side = .b) →
        ∃ t, exec (.msg x q) s = .next t ∧ (t.g.mq n).tail = (r.tail + 1) % 2 ^ 32 ∧ (t.g.mq n).head = r.head ∧ t.g.mem = j.mem ∧
          .hostWrite side (r.base + r.slotBytes * (r.tail % r.slots))
            (leBytes 2 q.hdr.src ++ leBytes 2 q.hdr.length ++ leBytes 2 q.hdr.tag ++ leBytes 1 ((r.tail / r.slots + 1) % 2) ++ leBytes 1 0 ++
              leBytes 8 j.time ++ fit q.payload q.hdr.length) ∈ t.g.out))) ∧
  (∀ (s : State) (x : Fin 48) (q : Req) (h j : Gikan) (i : Nat) (e : ExtW), h.memberOf q.hdr.src q.hdr.cmpt = true →
    h.check10Node q = (true, j) →
    (trigEntry q = 0xFFFF → s.g.receive x q tyTRIGGER false = .go h i e → 32 ≤ q.hdr.length → q.hdr.length ≤ 4096 → q.hdr.length % 8 = 0 →
      field q.payload 4 2 = q.hdr.length →
      (40 < trigResultMax q → exec (.triggerCommand x q) s = .next (s.withG (h.refuse x q stLENGTH))) ∧
      (trigResultMax q ≤ 40 →
      let kw := q.hdr.cmpt
      let idx := (j.kway kw).next
      (j.kwRoom kw = false → exec (.triggerCommand x q) s = .next (s.withG (j.refuse x q stBUSY))) ∧
      (j.kwRoom kw = true → exec (.triggerCommand x q) s = .next (s.withG (j.cohSettle
        (((j.admitted x 0 q).answer 47 x q stOK (leBytes 8 idx)).accept kw (fit q.payload q.hdr.length) (some q.hdr.src))))))) ∧
    (s.g.receive x q tyFENCE false = .go h i e → q.hdr.length = 0 →
      let left := ((j.kway q.hdr.cmpt).cmds.filter (fun c => c.src == some q.hdr.src)).map (fun c => c.idx)
      (left = [] → exec (.fence x q) s = .next (s.withG ((j.admitted x 0 q).answer 47 x q stOK []))) ∧
      (left ≠ [] → exec (.fence x q) s = .next (s.withG ((j.admitted x 0 q).hold x q 0 (.fenceCmds left)).2))) ∧
    (s.g.receive x q tyLEND false = .go h i e →
      (lendLengthBad q = true → exec (.lend x q) s = .next (s.withG (h.refuse x q stLENGTH))) ∧
      (∀ st l, lendLengthBad q = false → j.takeLoan (lendBase q) (lendPages q) q.hdr.cmpt = (st, l) →
        exec (.lend x q) s = .next (s.withG ((l.admitted x 0 q).answer 47 x q st [])))) ∧
    (s.g.receive x q tyRECLAIM false = .go h i e →
      (lendLengthBad q = true → exec (.reclaim x q) s = .next (s.withG (h.refuse x q stLENGTH))) ∧
      (lendLengthBad q = false → exec (.reclaim x q) s = .next (s.withG (((j.admitted x 0 q).reclaim x q).reclaimsForced)))))

/-- R8, R56, R57, R60, R61, R63: a response to this Gikan is matched by TAG and SENT_TICK: one that matches an outstanding request frees its tag and
ends it with the response's code (a code of 0x10 to 0xFF as UNSUPPORTED, STALE_EPOCH to a resend of a non-idempotent request as TIMEOUT), one that
matches none is counted; a resend is the request byte for byte with RETRY set, at its ticks alone; TIMEOUT ends a request at its tick and not
before; a request that waits after BUSY_RETRY goes out again as a new request when its time has come, and one that waits for a tag when a tag is
free. -/
def Obligations.RequesterRules : Prop :=
  ∀ (s : State), s.g.hasp = false →
    (∀ (x : Fin 48) (r : Resp) (src : From) (k : Gikan), r.type ≠ 0xC0 → s.g.takePkt x (.resp r) = (src, k) → s.g.isSelf r.dst = true →
      k.codeBad x r = false → (x.val < 32 → k.lnkState x ≠ 6 ∨ r.tc = 0) →
      let h := k.consumed src x (.resp r)
      exec (.response x r) s = .next (s.withG (s.g.cohSettle (h.takeResp r))) ∧
      ((∀ o, h.req.outst.get? r.tag = some o → o.q.hdr.sentTick ≠ r.sentTick) →
        exec (.response x r) s = .next (s.withG (h.inc F.MAP_EVENTS2_LATE_DROPS 1))) ∧
      (∀ o, h.req.outst.get? r.tag = some o → o.q.hdr.sentTick = r.sentTick → o.port < 40 ∨ 45 < o.port →
        h.takeResp r = h.endRequest r.tag o (if 16 ≤ r.status then stUNSUP
          else if r.status = stSTALE ∧ nonIdem o.q.hdr.type = true ∧ r.retry = 1 then stTIMEOUT else r.status) r.payload (r.retry == 1))) ∧
    (∀ (g : Gikan) tag u, (g.closeTag tag u).req.outst.get? tag = none ∧ (g.closeTag tag u).mem = g.mem ∧ (g.closeTag tag u).csr = g.csr) ∧
    (∀ tag o n, s.g.req.outst.get? tag = some o → (resendTicks o.q.hdr.type)[o.resends]? = some n →
      (n ≤ s.g.ticksOut o → s.g.ticksOut o < timeoutTick o.q.hdr.type → (nonIdem o.q.hdr.type = true → s.g.sentAge o.q ≤ 3) →
        exec (.requestResend tag) s = .next (s.withG
          (({ s.g with req := { s.g.req with outst := s.g.req.outst.put tag { o with resends := o.resends + 1, lastAt := s.g.time } } }).sendOwn o.port
            { o.q with hdr := { o.q.hdr with retry := 1 } }))) ∧
      (s.g.ticksOut o < n → exec (.requestResend tag) s = .next s)) ∧
    (∀ tag o, s.g.req.outst.get? tag = some o → isCtlType o.q.hdr.type = false →
      (timeoutTick o.q.hdr.type ≤ s.g.ticksOut o →
        exec (.requestTimeout tag) s = .next (s.withG (s.g.cohSettle (s.g.endRequest tag o stTIMEOUT [] false)))) ∧
      (s.g.ticksOut o < timeoutTick o.q.hdr.type → exec (.requestTimeout tag) s = .next s)) ∧
    (∀ n a, s.g.req.again[n]? = some a →
      let h := { s.g with req := { s.g.req with again := s.g.req.again.eraseIdx n } }
      (s.g.time < a.due → exec (.busyResend n) s = .next s) ∧
      (a.due ≤ s.g.time →
        (h.stillWanted a.consumer = false → exec (.busyResend n) s = .next (s.withG h)) ∧
        (h.stillWanted a.consumer = true →
          (∀ c t i, a.consumer = .pin c t i → exec (.busyResend n) s = .next (s.withG (s.g.cohSettle (h.pinAgain c t i a.q)))) ∧
          (∀ kw i, a.consumer = .command kw i → exec (.busyResend n) s = .next (s.withG ((h.issue a.port a.q a.consumer).commandRepeat kw i a))) ∧
          ((∀ c t i, a.consumer ≠ .pin c t i) → (∀ kw i, a.consumer ≠ .command kw i) →
            exec (.busyResend n) s = .next (s.withG (h.issue a.port a.q a.consumer)))))) ∧
    (∀ w ws tag k, s.g.req.waiting = w :: ws → s.g.takeTag = some (tag, k) →
      ∃ t, exec .tagWaitIssue s = .next t ∧ t.g.req.waiting = ws ∧
        (∃ o, t.g.req.outst.get? tag = some o ∧ o.port = w.port ∧ o.consumer = w.consumer ∧ o.q.hdr.tag = tag ∧ o.q.hdr.src = s.g.node ∧
          o.q.hdr.epoch = s.g.epoch ∧ o.q.hdr.sentTick = s.g.tickNo % 65536 ∧ o.q.hdr.retry = 0 ∧ o.q.payload = w.q.payload))

/-! ## Extent maps, epochs, revocation and handover (chapter 5) -/

/-- R71, R72: a write of a MAP_STAGE_DATA register keeps its word; DATA3 stores an extent entry at INDEX while ROUTE is clear, DATA0 a route entry
while it is set, and INDEX moves on; other words are only kept; an armed commit locks them all out, counted. A write of MAP_ARM disarms, which
clears JOIN, and then arms a tick that passes every check, or refuses it with the lowest cause, counted; all ones only disarms. The current map stays.
R74, R75, R76: at the armed boundary a commit puts the staged map in place of the current one, keeps that as the previous map and opens the
Hinge under the next epoch; a join commit takes the epoch of MAP_JOIN with no previous map, deals with what waits under the old one by `staleAll`,
and releases and creates the pages of the entries that it does not keep unchanged (of a changed entry that is the model's choice, assumption 142).
The previous map retires once its minimum hold has passed and its count is zero, or at its timeout, counted. Before these times nothing happens. -/
def Obligations.MapCommits : Prop :=
  (∀ (s : State) (w : RegW),
    (∀ n : Fin 4, s.g.reaches8 w (0x300030 + 8 * n.val) →
      let m := halfMask w.half
      let old := s.g.map.stageW.getD n.val 0
      let v := (w.data.toNat &&& m) ||| (old - (old &&& m))
      let ws := s.g.map.stageW.set n.val v
      let i := s.g.get F.MAP_STAGE_INDEX_INDEX
      let st := s.g.map.stage
      let route := s.g.on F.MAP_STAGE_INDEX_ROUTE
      let stores := (route = true ∧ n.val = 0) ∨ (route = false ∧ n.val = 3)
      (s.g.armed = true → exec (.mapStageStore w n) s = .next (s.withG (s.g.inc F.MAP_STATUS_LOCKED_WRITES 1))) ∧
      (s.g.armed = false → ∃ t, exec (.mapStageStore w n) s = .next t ∧ t.g.map.stageW = ws ∧ t.g.map.cur = s.g.map.cur ∧ t.g.mem = s.g.mem ∧
        t.g.get F.MAP_STAGE_INDEX_INDEX = (if stores then (i + 1) % 65536 else i) ∧
        (∀ f, f.key ≠ F.MAP_STAGE_INDEX_INDEX.key → t.g.get f = s.g.get f) ∧
        t.g.map.stage = (if route = false ∧ n.val = 3 then
            { st with ext := st.ext.setD i ExtW.none ⟨ws.getD 0 0, ws.getD 1 0, ws.getD 2 0, v⟩ }
          else if route = true ∧ n.val = 0 ∧ i < 16384 then { st with route := st.route.setD i 0 v }
          else st))) ∧
    (s.g.reaches8 w (offOf F.MAP_ARM_COMMIT_AT) →
      let v := s.g.wrValue w F.MAP_ARM_COMMIT_AT
      let was := if s.g.armed then s.g.set F.MAP_JOIN_JOIN 0 else s.g
      let off := (was.set F.MAP_STATUS_ARMED 0).set F.MAP_ARM_COMMIT_AT (2 ^ 64 - 1)
      (v = 2 ^ 64 - 1 → exec (.mapArmWrite w) s = .next (s.withG (off.set F.MAP_JOIN_JOIN 0))) ∧
      (v < 2 ^ 64 - 1 → off.armCause v = 0 →
        ∃ t, exec (.mapArmWrite w) s = .next t ∧ t.g.armed = true ∧ t.g.get F.MAP_ARM_COMMIT_AT = v ∧ t.g.get F.MAP_STATUS_REFUSE_CAUSE = 0 ∧
          t.g.map = s.g.map ∧ t.g.mem = s.g.mem) ∧
      (v ≠ 2 ^ 64 - 1 → off.armCause v ≠ 0 →
        ∃ t, exec (.mapArmWrite w) s = .next t ∧ t.g.armed = false ∧ t.g.get F.MAP_ARM_COMMIT_AT = 2 ^ 64 - 1 ∧
          t.g.on F.MAP_STATUS_ARM_REFUSED = true ∧ t.g.get F.MAP_STATUS_REFUSE_CAUSE = off.armCause v ∧
          t.g.get F.MAP_EVENTS2_ARM_REFUSALS = satAdd 16 (s.g.get F.MAP_EVENTS2_ARM_REFUSALS) 1 ∧ t.g.map = s.g.map ∧ t.g.mem = s.g.mem) ∧
      (v < s.g.tickNo + 16 → off.armCause v = 1))) ∧
  (∀ (s : State), s.g.hasp = false →
    let new : MapTab := { s.g.map.stage with dom := s.g.domainRegs }
    let old := s.g.map.cur
    (s.g.commitDue = false → exec .mapCommit s = .next s ∧ exec .joinCommit s = .next s) ∧
    (s.g.commitDue = true → s.g.on F.MAP_JOIN_JOIN = false → s.g.on F.MAP_EPOCH_HINGE = false →
      ∀ t grace mn, s.g.hingeTimes = (t, grace, mn) →
      let g1 := ((s.g.set F.MAP_EPOCH_PREVIOUS s.g.epoch).set F.MAP_EPOCH_CURRENT (s.g.epoch + 1)).set F.MAP_EPOCH_HINGE 1
      let g2 := { g1 with map := { g1.map with prev := old, cur := new, hingeAt := s.g.time, hingeMin := mn, hingeTimeout := t } }
      exec .mapCommit s = .next (s.withG
        (((g2.openHandovers old.ext new.ext (s.g.time + 1000 * (t + grace))).createAdded old.ext new.ext).mapChanged.placed.commitEnd)) ∧
      g2.epoch = (s.g.epoch + 1) % 65536 ∧ g2.get F.MAP_EPOCH_PREVIOUS = s.g.epoch % 65536 ∧ g2.on F.MAP_EPOCH_HINGE = true) ∧
    (∀ h : Gikan, h.commitEnd.armed = false ∧ h.commitEnd.map.stage = h.map.cur ∧ h.commitEnd.map.cur = h.map.cur ∧
      h.commitEnd.get F.MAP_ARM_COMMIT_AT = 2 ^ 64 - 1) ∧
    (s.g.commitDue = true → s.g.on F.MAP_JOIN_JOIN = true →
      let g1 := { s.g.set F.MAP_EPOCH_CURRENT (s.g.get F.MAP_JOIN_EPOCH) with map := { s.g.map with cur := new, prev := MapTab.empty, hand := [] } }
      let same := fun i => Tbl.getD old.ext i ExtW.none == Tbl.getD new.ext i ExtW.none
      let g2 := old.ext.foldl (fun h c => if c.2.valid && c.2.home == h.node && !same c.1 then h.releaseExtent c.1 c.2 else h) (g1.staleAll s.g.epoch)
      let g3 := new.ext.foldl (fun h c => if c.2.valid && c.2.home == h.node && !same c.1 then h.createExtent c.1 c.2 else h) g2
      let g4 := { g3 with map := { g3.map with revoked := g3.map.revoked.filter (fun c => same c.1 && (Tbl.getD new.ext c.1 ExtW.none).valid) } }
      exec .mapCommit s = .next s ∧ exec .joinCommit s = .next (s.withG ((g4.mapChanged.placed).commitEnd.set F.MAP_JOIN_JOIN 0)) ∧
      g1.epoch = s.g.get F.MAP_JOIN_EPOCH % 65536 ∧ (g4.mapChanged.placed.commitEnd.set F.MAP_JOIN_JOIN 0).on F.MAP_JOIN_JOIN = false ∧
      (g4.mapChanged.placed.commitEnd.set F.MAP_JOIN_JOIN 0).armed = false) ∧
    (s.g.on F.MAP_EPOCH_HINGE = true → s.g.map.hingeAt + 1000 * s.g.map.hingeMin ≤ s.g.time → s.g.map.hingeMin < s.g.map.hingeTimeout →
      s.g.prevInflight = 0 → ∃ t, exec .hingeRetire s = .next t ∧ t.g.on F.MAP_EPOCH_HINGE = false ∧ t.g.map.prev = MapTab.empty) ∧
    (s.g.on F.MAP_EPOCH_HINGE = false ∨ s.g.time < s.g.map.hingeAt + 1000 * s.g.map.hingeMin ∨ s.g.prevInflight ≠ 0 →
      exec .hingeRetire s = .next s) ∧
    (s.g.on F.MAP_EPOCH_HINGE = true → s.g.map.hingeAt + 1000 * s.g.map.hingeTimeout ≤ s.g.time →
      ∃ t, exec .hingeTimeout s = .next t ∧ t.g.on F.MAP_EPOCH_HINGE = false ∧ t.g.map.prev = MapTab.empty) ∧
    (s.g.on F.MAP_EPOCH_HINGE = false ∨ s.g.time < s.g.map.hingeAt + 1000 * s.g.map.hingeTimeout → exec .hingeTimeout s = .next s))

/-- R78: a write of MAP_QUIESCE masks compartments, and a newly masked one, or no mask, clears DONE; DONE is set once no request in progress is on a
seated extent of a masked compartment.
R79, R80: GO on an extent homed here that no handover moves commits a revoke: DRAINING set, DONE and ABORTED cleared, ENTRY named; a second one
while it drains, of a revoked extent, or of an extent that is not homed here is ignored and counted. DONE comes when nothing is pending on the
extent; past DRAIN_US what is pending (held requests, agents' transactions, jobs that name the extent) is aborted in turn, ABORTED is set and the
aborts are counted and logged; with nothing pending the drain ends without them. -/
def Obligations.QuiesceAndRevoke : Prop :=
  (∀ (s : State),
    (∀ w, s.g.reaches8 w (offOf F.MAP_QUIESCE_CMPT_MASK) → wrCovers w F.MAP_QUIESCE_CMPT_MASK = true →
      let old := s.g.get F.MAP_QUIESCE_CMPT_MASK
      let new := s.g.wrValue w F.MAP_QUIESCE_CMPT_MASK % 65536
      ∃ t, exec (.mapQuiesceWrite w) s = .next t ∧ t.g.get F.MAP_QUIESCE_CMPT_MASK = new ∧
        t.g.get F.MAP_QUIESCE_DONE = (if new = 0 ∨ (new &&& (new ^^^ old)) ≠ 0 then 0 else s.g.get F.MAP_QUIESCE_DONE) ∧
        (∀ f, f.key ≠ F.MAP_QUIESCE_CMPT_MASK.key → f.key ≠ F.MAP_QUIESCE_DONE.key → t.g.get f = s.g.get f) ∧ t.g.mem = s.g.mem ∧
        t.g.map = s.g.map ∧ t.g.req = s.g.req) ∧
    (s.g.hasp = false → s.g.get F.MAP_QUIESCE_CMPT_MASK ≠ 0 →
      (s.g.quiesceBusy = false → exec .quiesceDone s = .next (s.withG (s.g.set F.MAP_QUIESCE_DONE 1))) ∧
      (s.g.quiesceBusy = true → exec .quiesceDone s = .next s)) ∧
    (s.g.get F.MAP_QUIESCE_CMPT_MASK = 0 → exec .quiesceDone s = .next s)) ∧
  (∀ (s : State),
    (∀ w, s.g.reaches8 w (offOf F.MAP_REVOKE_GO) →
      let i := bits (trig w F.MAP_REVOKE_GO).data.toNat 0 16
      let e := s.g.map.cur.entry i
      (s.g.on F.MAP_REVOKE_STATUS_DRAINING = false → s.g.map.revoked.get? i = none → s.g.map.hand.get? i = none → e.valid = true →
        e.home = s.g.node →
        ∃ t, exec (.mapRevokeGo w) s = .next t ∧ t.g.on F.MAP_REVOKE_STATUS_DRAINING = true ∧ t.g.on F.MAP_REVOKE_STATUS_DONE = false ∧
          t.g.on F.MAP_REVOKE_STATUS_ABORTED = false ∧ t.g.get F.MAP_REVOKE_STATUS_ENTRY = i ∧ t.g.map.revokeAt = some (i, s.g.time) ∧
          t.g.map.revoked = s.g.map.revoked.put i false ∧ t.g.map.cur = s.g.map.cur ∧ t.g.mem = s.g.mem ∧ t.g.req = s.g.req) ∧
      (s.g.on F.MAP_REVOKE_STATUS_DRAINING = true ∨ (s.g.map.revoked.get? i).isSome = true ∨
          (s.g.map.hand.get? i = none ∧ (e.valid = false ∨ e.home ≠ s.g.node)) →
        exec (.mapRevokeGo w) s = .next (s.withG (s.g.inc F.MAP_DUP_REVOKE_IGNORED 1)))) ∧
    (s.g.hasp = false →
      (s.g.map.revokeAt = none → exec .revokeDone s = .next s ∧ exec .revokeDrainTimeout s = .next s) ∧
      (∀ i at_, s.g.map.revokeAt = some (i, at_) →
        (s.g.pendingCount i ≠ 0 → exec .revokeDone s = .next s) ∧
        (s.g.pendingCount i = 0 →
          ∃ t, exec .revokeDone s = .next t ∧ t.g.on F.MAP_REVOKE_STATUS_DRAINING = false ∧ t.g.on F.MAP_REVOKE_STATUS_DONE = true ∧
            t.g.map.revoked = s.g.map.revoked.put i true ∧ t.g.map.revokeAt = none ∧ t.g.mem = s.g.mem ∧ t.g.req = s.g.req) ∧
        (let lim := at_ + 1000 * max 10 (s.g.get F.MAP_REVOKE_DRAIN_DRAIN_US)
         (s.g.time < lim → exec .revokeDrainTimeout s = .next s) ∧
         let n := s.g.pendingCount i
         let k1 := (s.g.pendingOn i).foldl (fun h r => h.abortHeld r) s.g
         let k2 := (k1.pendingTxns i).foldl (fun h t => h.abortTxn t) k1
         let k3 := (k2.pendingJobs i).foldl (fun h j => h.abortJob j) k2
         (lim ≤ s.g.time → n ≠ 0 → ∃ t, exec .revokeDrainTimeout s = .next t ∧ t.g.on F.MAP_REVOKE_STATUS_DRAINING = false ∧
            t.g.on F.MAP_REVOKE_STATUS_DONE = true ∧ t.g.on F.MAP_REVOKE_STATUS_ABORTED = true ∧ t.g.map.revokeAt = none ∧ t.g.req = k3.req ∧
            t.g.get F.MAP_EVENTS2_REVOKE_ABORTS = satAdd 16 (k3.get F.MAP_EVENTS2_REVOKE_ABORTS) n ∧ t.g.bitOf (F.FLT_WORDS_GROUPS 1) 62 = true) ∧
         (lim ≤ s.g.time → n = 0 → exec .revokeDrainTimeout s = .next (s.withG (s.g.revokeEnd i)) ∧ (s.g.revokeEnd i).req = s.g.req)))))

/-- R81, R82: A, running an extent that moves, sends HANDOVER once no previous-epoch request is on it and stops; HANDOVER gives B that waits under the
same epoch the token and its held requests, OK, and is answered TIMEOUT when B has given up; OK makes A give up the token; past the deadline B
answers what it holds BUSY_RETRY and sends HOME_REVERT, at which A keeps the token and both count it. Each is sent again once per tick. -/
def Obligations.HandoverRules : Prop :=
  ∀ (s : State) (entry : Nat),
    (s.g.hasp = false → ∀ hd, s.g.map.hand.get? entry = some hd →
      (hd.step = .aRunning → s.g.prevOn entry = false → s.g.tier.copyA.get? entry = none →
        exec (.handoverSend entry) s = .next (s.withG ((s.g.setHand entry { hd with step := .aStopped, sentAt := s.g.time }).sendControl tyHANDOVER
          hd.peer entry 0 (handBody entry s.g.node) []))) ∧
      (hd.step ≠ .aRunning ∨ s.g.prevOn entry = true → exec (.handoverSend entry) s = .next s) ∧
      (hd.step = .bWaiting → hd.deadline ≤ s.g.time →
        exec (.handoverDeadline entry) s = .next (s.withG
          ((((s.g.setHand entry { hd with step := .bReverted, sentAt := s.g.time }).freeHeld entry
            (fun k r => k.refuse r.x r.q stBUSY)).releaseCopyB entry).countRevert.sendControl tyREVERT hd.peer entry 0
              (handBody entry (((s.g.setHand entry { hd with step := .bReverted, sentAt := s.g.time }).freeHeld entry
                (fun k r => k.refuse r.x r.q stBUSY)).releaseCopyB entry).node) []))) ∧
      (hd.step ≠ .bWaiting ∨ s.g.time < hd.deadline → exec (.handoverDeadline entry) s = .next s) ∧
      (∀ t ts, s.g.periodNs ≤ s.g.time - hd.sentAt → s.g.controlTags tyHANDOVER entry = t :: ts →
        exec (.handoverResend entry) s = .next (s.withG ((s.g.setHand entry { hd with sentAt := s.g.time }).resend t))) ∧
      (∀ t ts, s.g.periodNs ≤ s.g.time - hd.sentAt → s.g.controlTags tyREVERT entry = t :: ts →
        exec (.homeRevertResend entry) s = .next (s.withG ((s.g.setHand entry { hd with sentAt := s.g.time }).resend t))) ∧
      (s.g.time - hd.sentAt < s.g.periodNs → exec (.handoverResend entry) s = .next s ∧ exec (.homeRevertResend entry) s = .next s)) ∧
    (∀ (x : Fin 48) (q : Req) (h : Gikan) (i : Nat) (e : ExtW) (hd : Handover), bodyField q 32 2 = entry → h.map.hand.get? entry = some hd →
      (s.g.receive x q tyHANDOVER (ctlBad q) = .go h i e → hd.epoch = q.hdr.epoch →
        (hd.step = .bWaiting → exec (.handover x q) s = .next (s.withG ((h.cohSettle (h.takeToken entry hd)).answer 47 x q stOK []))) ∧
        (hd.step = .bReverted → exec (.handover x q) s = .next (s.withG ((h.cohSettle h).answer 47 x q stTIMEOUT [])))) ∧
      (s.g.receive x q tyREVERT (ctlBad q) = .go h i e → hd.epoch = q.hdr.epoch →
        (hd.step = .aRunning ∨ hd.step = .aStopped →
          exec (.homeRevert x q) s = .next (s.withG ((h.cohSettle (h.keepToken entry hd)).answer 47 x q stOK []))))) ∧
    (∀ (x : Fin 48) (r : Resp) (src : From) (k : Gikan) (o : OutReq) (line : Nat) (hd : Handover), r.type = 0xC0 → s.g.isSelf r.dst = true →
      s.g.takePkt x (.resp r) = (src, k) →
      let g := k.consumed src x (.resp r)
      g.hasp = false → g.answered r = some o → o.consumer = .control entry line → g.map.hand.get? entry = some hd → hd.step = .aStopped →
      (r.status = stOK → exec (.handoverAck x r) s = .next (s.withG (g.cohSettle ((g.closeTag r.tag false).giveToken entry hd)))) ∧
      (r.status = stTIMEOUT → exec (.handoverAck x r) s = .next (s.withG (g.cohSettle ((g.closeTag r.tag false).keepToken entry hd)))))

/-! ## Stacks (chapter 6) -/

/-- R86, R96, R103: in TRAINING a stack that trains is marked, one that fails raises a fatal fault of its group; once all twelve have trained the
stamping leaves memory zero and poisoned, sets STAMPED, retires the frames that software has retired before it, takes the record frames and then
seals or holds (R381). R97, R103, R276: a released frame whose stamping ends is free, of the host window again, or retired when it was to retire; then
the directory, the Placer's records, pages and fetches that lack frames, and moves take what is free.
R117: a stamped slack page is RESIDENT.
R103, R131: MEM_RETIRE with GO retires a free frame at once, marks one before STAMPED, and begins the move of one in use, up to 64 frames; the end
of a page's move decodes its units, gives it its new frames and leaves the old ones to be stamped. R101, R102: patrol scrub reads one codeword and
corrects, or poisons and logs, what it finds; a pass is counted once every codeword has been read in it; scrub rests when it is off, before STAMPED
and in Q2 and Q3. R104: MEM_FLIP is written in factory test mode alone. -/
def Obligations.Stacks : Prop :=
  (∀ (s : State),
    (∀ (h : Fin 12) (n : Nat),
      (s.g.phase = 4 → s.g.stamped = false → s.g.bitOf F.MEM_STATUS_TRAINED h = false →
        exec (.stackTrainingEnd h true n) s =
          .next (s.withG ((s.g.set (F.MEM_ERR_H_REPAIRS h) (min n 256)).setBitOf F.MEM_STATUS_TRAINED h)) ∧
        ∃ t, exec (.stackTrainingEnd h false n) s = .next t ∧ t.g.hasp = true ∧ t.g.bitOf F.FLT_FATAL_GROUPS (36 + h) = true ∧
          t.g.get F.MEM_STATUS_TRAINED = s.g.get F.MEM_STATUS_TRAINED ∧ t.g.mem = s.g.mem) ∧
      (s.g.phase ≠ 4 ∨ s.g.stamped = true ∨ s.g.bitOf F.MEM_STATUS_TRAINED h = true → ∀ ok, exec (.stackTrainingEnd h ok n) s = .next s)) ∧
    (s.g.phase = 4 → s.g.stamped = false → s.g.get F.MEM_STATUS_TRAINED = 4095 →
      let z := ({ s.g with mem := [], clean := [], bad := [], mgt := { s.g.mgt with stampedAt := some s.g.now },
                           stk := { s.g.stk with freeBad := [], badAt := [] } }).set F.MEM_STATUS_STAMPED 1
      exec .stampingEnd s = .next (s.withG (((z.retireStamped).stampFlip 0).fitRecords.afterStamped)) ∧
      ∃ t, exec .stampingEnd s = .next t ∧ t.g.stamped = true ∧ (∀ a, memGet t.g.mem a = 0) ∧ t.g.clean = [] ∧ t.g.bad = [] ∧
        (Tbl.sorted s.g.stk.frames = true →
          ∀ f, s.g.stk.retiring.contains f = true → s.g.frame f = .free → t.g.frame f = .retired) ∧
        t.g.mgt.stampedAt = some s.g.now ∧ t.g.map = s.g.map ∧ t.g.get F.GLB_NODE_CURRENT = s.g.get F.GLB_NODE_CURRENT ∧
        (s.g.sealed = false → s.g.mgt.holdMs = 0 ∨ s.g.on F.MGT_SEAL_PENDING = true ∧ s.g.on F.FLT_TEST_ACTIVE = false → t.g.sealed = true) ∧
        (s.g.mgt.holdMs ≠ 0 → s.g.on F.MGT_SEAL_PENDING = false ∨ s.g.on F.FLT_TEST_ACTIVE = true →
          t.g.phase = 5 ∧ t.g.sealed = s.g.sealed)) ∧
    (s.g.get F.MEM_STATUS_TRAINED ≠ 4095 → exec .stampingEnd s = .next s) ∧
    (∀ f, s.g.hasp = false → Tbl.sorted s.g.stk.frames = true →
      (s.g.frame f ≠ .waiting ∧ s.g.frame f ≠ .windowWait ∨ 2 ≤ s.g.get F.PWR_STATE_STATE → exec (.releaseStampEnd f) s = .next s) ∧
      (s.g.frame f = .waiting ∨ s.g.frame f = .windowWait → s.g.get F.PWR_STATE_STATE < 2 →
        exec (.releaseStampEnd f) s = .next (s.withG ((((s.g.frameStamped f).fitDir).fitRecords).placeWaiting.frameMoves)) ∧
        (s.g.stk.retiring.contains f = true → ∃ t, exec (.releaseStampEnd f) s = .next t ∧ t.g.frame f = .retired ∧
          t.g.stk.retiring = s.g.stk.retiring.filter (fun y => y != f)) ∧
        (s.g.stk.retiring.contains f = false → ∀ k, (s.g.frameStamped f).frame k =
          if k = f then (if s.g.frame f = .windowWait then .window else .free) else s.g.frame k))) ∧
    (∀ entry p, s.g.hasp = false →
      ((s.g.page entry p).state = .stamping → ∃ t, exec (.slackStampEnd entry p) s = .next t ∧
        t.g.page entry p = { s.g.page entry p with state := .resident, since := s.g.tickNo } ∧ t.g.mem = s.g.mem) ∧
      ((s.g.page entry p).state ≠ .stamping → exec (.slackStampEnd entry p) s = .next s))) ∧
  (∀ (s : State),
    (∀ w, s.g.reaches8 w (offOf F.MEM_RETIRE_GO) →
      let f := (wrField (trig w F.MEM_RETIRE_GO) F.MEM_RETIRE_FRAME).1
      (f < 30720 → s.g.frame f = .free → s.g.stamped = true → s.g.stk.retiring.contains f = false → s.g.retired < 64 →
        exec (.memRetireWrite w) s = .next (s.withG (s.g.setFrame f .retired))) ∧
      (f < 30720 → s.g.frame f ≠ .free → s.g.frame f ≠ .retired → s.g.stk.retiring.contains f = false → s.g.retired < 64 →
        exec (.memRetireWrite w) s =
          .next (s.withG (({ s.g with stk := { s.g.stk with retiring := insNat s.g.stk.retiring f } }).frameMove f))) ∧
      (f < 30720 → s.g.frame f = .free → s.g.stamped = false → s.g.stk.retiring.contains f = false → s.g.retired < 64 →
        exec (.memRetireWrite w) s = .next (s.withG ({ s.g with stk := { s.g.stk with retiring := insNat s.g.stk.retiring f } }))) ∧
      (30720 ≤ f ∨ s.g.frame f = .retired ∨ s.g.stk.retiring.contains f = true ∨ 64 ≤ s.g.retired → exec (.memRetireWrite w) s = .next s)) ∧
    (∀ f entry p d, s.g.hasp = false → Tbl.sorted s.g.stk.frames = true → s.g.frame f = .page entry p →
      (s.g.page entry p).moving = .frame d 0 → s.g.stk.retiring.contains f = true →
      ∃ t, exec (.frameMoveEnd f) s = .next t ∧ t.g.page entry p = { s.g.page entry p with moving := .none } ∧ (s.g.bad = [] → t.g.mem = s.g.mem) ∧
        ∀ k, t.g.frame k = (if s.g.frame k = .page entry p then .waiting else if s.g.frame k = .moveTo entry p then .page entry p
          else s.g.frame k)) ∧
    (∀ cell n, s.g.hasp = false →
      (s.g.on F.MEM_CTRL_SCRUB_EN = false ∨ s.g.stamped = false ∨ 2 ≤ s.g.get F.PWR_STATE_STATE ∨ 30720 * 8192 * 128 ≤ cell →
        exec (.patrolScrub cell n) s = .next s) ∧
      (s.g.on F.MEM_CTRL_SCRUB_EN = true → s.g.stamped = true → s.g.get F.PWR_STATE_STATE < 2 → cell < 30720 * 8192 * 128 →
        let read := covAdd cell s.g.stk.scrubbed
        let fin : Gikan → Gikan := fun h =>
          if read = [(0, 30720 * 8192 * 128)] then ({ h with stk := { h.stk with scrubbed := [], rows := [] } }).inc F.MEM_SCRUB_PASSES 1
          else { h with stk := { h.stk with scrubbed := read } }
        let f := s.g.frame (cell / 1048576)
        let wrong := s.g.stk.freeBad.getD cell 0 + n
        let k := { s.g with stk := { s.g.stk with freeBad := s.g.stk.freeBad.del cell } }
        (∀ entry p, f = .page entry p →
          ∀ site us which, s.g.cellUnits entry p ((frameOf s.g.stk.frames entry p).getD 0) cell = (site, us, which) →
            exec (.patrolScrub cell n) s = .next (s.withG (fin ((s.g.addErrors us which n).decodeAll site 2 us).1))) ∧
        ((∀ entry p, f ≠ .page entry p) →
          (wrong = 0 → exec (.patrolScrub cell n) s = .next (s.withG (fin k))) ∧
          (wrong = 1 → f = .dir ∨ f = .record ∨ f = .window →
            exec (.patrolScrub cell n) s = .next (s.withG (fin (k.correctedAt (cellPlace cell))))) ∧
          (wrong = 2 ∨ wrong = 1 ∧ f ≠ .dir ∧ f ≠ .record ∧ f ≠ .window →
            exec (.patrolScrub cell n) s = .next (s.withG (fin (k.logUeAt (cellPlace cell) 2 false))))))) ∧
    (∀ (l : List (Nat × Nat)) (c x : Nat), (∀ r ∈ l, r.1 < r.2) →
      ((∃ r ∈ covAdd c l, r.1 ≤ x ∧ x < r.2) ↔ x = c ∨ ∃ r ∈ l, r.1 ≤ x ∧ x < r.2)) ∧
    (∀ w, s.g.reaches8 w (offOf F.MEM_FLIP_ARM) →
      let v := trig w F.MEM_FLIP_ARM
      (s.g.on F.FLT_TEST_ACTIVE = false → exec (.memFlipArm w) s = .next s) ∧
      (s.g.on F.FLT_TEST_ACTIVE = true → ∃ t, exec (.memFlipArm w) s = .next t ∧ t.g.get F.MEM_FLIP_ARM = 1 ∧ t.g.mem = s.g.mem ∧
        t.g.get F.MEM_FLIP_STACK = s.g.wrValue v F.MEM_FLIP_STACK % 16 ∧ t.g.get F.MEM_FLIP_SYM_A = s.g.wrValue v F.MEM_FLIP_SYM_A % 64 ∧
        t.g.get F.MEM_FLIP_SYM_B = s.g.wrValue v F.MEM_FLIP_SYM_B % 64 ∧ t.g.get F.MEM_FLIP_PATTERN = s.g.wrValue v F.MEM_FLIP_PATTERN % 256)))

/-! ## Tiers and the Placer (chapter 7) -/

/-- R106, R110 to R112, R114, R137: of a fetched page the granule touched first arrives first, then the others in address order; each is added to its
fetch, the last makes the page RESIDENT_CLEAN, or RESIDENT when it was written meanwhile, and one that its source could not read is left poisoned; at a
multiple of 16 times DECAY ticks every heat count is halved, once; a demotion with nothing left to write makes its page LOWER, gives its frames
back and writes a host page to its pool, and one in flash waits out SAG warning; the Placer's turn is eviction, the demotions and copies under
way, flash relocation, the moves off retired frames, and the pulls.
R113, R133 to R137: the relocation of a block begins when its cause holds, takes its granules from the RELOC budget and erases the block when none
is left, and while flash writes are held counts as held; a failed program retires its block; FTL_READY gives the geometry of the targets used, which
are of the first one's, within the limits and 128 TiB at most, takes the blocks left open as suspects, retires those that fail and erases the
others, or, with no journal, raises a contained fault. -/
def Obligations.PageMovesAndFlash : Prop :=
  (∀ (s : State), s.g.hasp = false →
    (∀ entry p n how,
      let r := s.g.page entry p
      (∀ staged first got dirty, r.moving = .fetch staged first got dirty → r.lent = none → r.nextGranule = some n → how ≠ .failed →
        ((insNat got n).length ≠ 8192 → ∃ t, exec (.fetchGranuleArrive entry p n how) s = .next t ∧ t.g.mem = s.g.mem ∧
          t.g.page entry p = { r with moving := .fetch staged first (insNat got n) dirty }) ∧
        ((insNat got n).length = 8192 → ∃ t, exec (.fetchGranuleArrive entry p n how) s = .next t ∧ t.g.mem = s.g.mem ∧
          (dirty = false → t.g.page entry p = { r with state := .residentClean, moving := .none, since := s.g.tickNo }) ∧
          (dirty = true → t.g.page entry p = { r with state := .resident, moving := .none, lowerAt := .none, since := s.g.tickNo }) ∧
          ((∀ d, r.lowerAt ≠ .flash d) →
            t.g.get F.TIER_EVENTS_FETCHES = satAdd F.TIER_EVENTS_FETCHES.wid (s.g.get F.TIER_EVENTS_FETCHES) 1))) ∧
      (r.lent = none → r.nextGranule = some n → (∀ d, r.lowerAt ≠ .flash d) →
        exec (.fetchGranuleArrive entry p n .failed) s = .next (s.withG ((s.g.granuleLost entry p n none).granuleIn entry p n)) ∧
        (how ≠ .failed → exec (.fetchGranuleArrive entry p n how) s = .next (s.withG (s.g.granuleIn entry p n)))) ∧
      (r.nextGranule ≠ some n ∨ r.lent ≠ none → exec (.fetchGranuleArrive entry p n how) s = .next s)) ∧
    (∀ (r : PageRec) staged first got dirty, r.moving = .fetch staged first got dirty → r.span = 1 →
      (got.contains first = false → r.nextGranule = some first) ∧
      (got.contains first = true → ∀ n, r.nextGranule = some n ↔
        n < 8192 ∧ got.contains n = false ∧ ∀ k, k < n → got.contains k = true)) ∧
    (let n := 16 * max 1 (s.g.get F.TIER_HEAT_DECAY)
     (s.g.running = true → s.g.tickNo % n = 0 → s.g.tier.lastDecay ≠ some s.g.tickNo →
        ∃ t, exec .heatDecay s = .next t ∧ (∀ entry p, t.g.page entry p = { s.g.page entry p with heat := (s.g.page entry p).heat / 2 }) ∧
          t.g.tier.lastDecay = some s.g.tickNo ∧ t.g.tier.seenLast = s.g.tier.seen ∧ t.g.mem = s.g.mem ∧ t.g.csr = s.g.csr) ∧
     (s.g.tickNo % n ≠ 0 ∨ s.g.tier.lastDecay = some s.g.tickNo → exec .heatDecay s = .next s)) ∧
    (∀ entry p,
      let r := s.g.page entry p
      (r.moving = .demote 0 → (∀ d, r.lowerAt = .flash d → s.g.flashWritable = true) →
        ∃ t, exec (.demotionEnd entry p) s = .next t ∧ t.g.page entry p = { r with state := .lower, moving := .none } ∧
        t.g.get F.TIER_EVENTS_DEMOTIONS = satAdd F.TIER_EVENTS_DEMOTIONS.wid (s.g.get F.TIER_EVENTS_DEMOTIONS) 1 ∧
        (s.g.bad = [] → t.g.mem = s.g.mem) ∧
        (∀ side n, r.lowerAt = .host side n →
          let e := s.g.map.cur.entry entry
          .hostWrite side (s.g.poolAddr side n) (s.g.copyOut ⟨entry, e⟩ (pageAddr e p) pageBytes).2 ∈ t.g.out)) ∧
      (∀ d, r.moving = .demote 0 → r.lowerAt = .flash d → s.g.flashWritable = false → exec (.demotionEnd entry p) s = .next s) ∧
      (∀ n, r.moving = .demote (n + 1) → exec (.demotionEnd entry p) s = .next s)) ∧
    exec .evict s = .next (s.withG ((s.g.evict.migrate.relocStep).frameMoves.pullStep))) ∧
  (∀ (s : State),
    (∀ b cause, s.g.hasp = false →
      (s.g.tier.badBlocks.contains b = true ∨ s.g.relocCause b cause = false → exec (.blockRelocate b cause) s = .next s) ∧
      (s.g.tier.badBlocks.contains b = false → s.g.relocCause b cause = true →
        exec (.blockRelocate b cause) s = .next (s.withG (s.g.relocate b false)) ∧
        ∃ t, exec (.blockRelocate b cause) s = .next t ∧ t.g.mem = s.g.mem ∧
          (s.g.flashWritable = false → t.g.tier.erases = s.g.tier.erases ∧
            t.g.get F.TIER_SAG_PROGRAMS_HELD = satAdd F.TIER_SAG_PROGRAMS_HELD.wid (s.g.get F.TIER_SAG_PROGRAMS_HELD) 1 ∧
            t.g.get F.TIER_SAG_ERASES_HELD = satAdd F.TIER_SAG_ERASES_HELD.wid (s.g.get F.TIER_SAG_ERASES_HELD) 1) ∧
          (s.g.flashWritable = true → s.g.tier.reloc.get? b = none → t.g.tier.budget.getD 3 0 ≤ s.g.tier.budget.getD 3 0 ∧
            (t.g.tier.erases.getD b 0 = s.g.tier.erases.getD b 0 + 1 ∧ t.g.tier.reloc.get? b = none ∨
             t.g.tier.erases.getD b 0 = s.g.tier.erases.getD b 0 ∧ ∃ left, 0 < left ∧ t.g.tier.reloc.get? b = some (left, false))))) ∧
    (∀ b, s.g.relocCause b .readCount = decide (1000 * max 1 (s.g.get F.TIER_FLASH_CFG_RD_LIMIT_K) ≤ s.g.tier.reads.getD b 0) ∧
      s.g.relocCause b .wear = decide (s.g.eraseMin + max 16 (s.g.get F.TIER_FLASH_CFG_WEAR_DELTA) < s.g.eraseMax)) ∧
    (∀ b, s.g.hasp = false → ∃ t, exec (.programFail b) s = .next t ∧ t.g.tier.badBlocks = insNat s.g.tier.badBlocks b ∧
      t.g.get F.TIER_FLASH_HEALTH_BAD_BLOCKS = min (insNat s.g.tier.badBlocks b).length (2 ^ 24 - 1) ∧ t.g.mem = s.g.mem) ∧
    (∀ ok suspects failed,
      (s.g.on F.TIER_STATUS_FTL_READY = true ∨ s.g.hasp = true → exec (.ftlReady ok suspects failed) s = .next s) ∧
      (s.g.on F.TIER_STATUS_FTL_READY = false → s.g.hasp = false →
        exec (.ftlReady false suspects failed) s = .next (s.withG (s.g.contained 55 0xFFFF (offOf F.TIER_STATUS_FTL_READY))) ∧
        (s.g.stamped = false →
          let ss := suspects.foldl insNat s.g.tier.openBlocks
          ∃ t, exec (.ftlReady true suspects failed) s = .next t ∧ t.g.on F.TIER_STATUS_FTL_READY = true ∧
            t.g.get F.TIER_SAG_SUSPECT_FOUND = min ss.length 65535 ∧ t.g.mem = s.g.mem ∧ t.g.tier.openBlocks = [] ∧
            t.g.tier.badBlocks = (ss.filter (fun b => failed.contains b)).foldl insNat s.g.tier.badBlocks ∧
            t.g.tier.erases = (ss.filter (fun b => !failed.contains b)).foldl (fun m b => m.put b (m.getD b 0 + 1)) s.g.tier.erases ∧
            ∀ f ∈ [F.TIER_FLASH_GEOM_CHANNELS, F.TIER_FLASH_GEOM_TARGETS, F.TIER_FLASH_GEOM_LUNS, F.TIER_FLASH_GEOM_PLANES,
                F.TIER_FLASH_GEOM_PAGES_PER_BLOCK, F.TIER_FLASH_GEOM_BLOCKS_PER_PLANE, F.TIER_FLASH_HEALTH_UNUSED_TARGETS],
              t.g.get f = s.g.readGeometry.get f))) ∧
    flashUsed.length * (flashFirst.getD ⟨0, 0, 0, 0, 0, 0⟩).bytes ≤ 2 ^ 47 ∧
    ∀ c ∈ flashUsed, ∃ x n, flashFirst = some x ∧ x.ok = true ∧ flashGeo c n = some x)

/-- R116: a hint names PAGES pages of EXTENT from FIRST_PAGE on: PREFETCH fetches each, COLD clears its heat, KEEP and UNKEEP set and end its keep,
DROP releases it and leaves its keep; a hint on an extent that is not homed here or not tiered is ignored, counted; no page, a page past the end, or
more than 4,096 kept pages refuse the whole hint.
R115, R118 to R121: of a compartment's waiting schedules whose BASE_TICK has come the earliest replaces the one in force, and those accepted
before it; a tile's pages are fetched from its start tick on, tiles in the order of their deadlines, those of a waiting schedule too; a tile not
wholly resident at its deadline tick is late, counted and named; at RELEASE a tile goes to its next repetition or is done, and with DROP its clean
copies are dropped unless migration is frozen. None happens before its tick. -/
def Obligations.HintsAndSchedules : Prop :=
  (∀ (s : State) (w : RegW) (op : Nat) (c : Instr), s.g.reaches8 w (offOf F.TIER_HINT1_GO) →
    (op = 1 ∧ c = .hintPrefetch w) ∨ (op = 2 ∧ c = .hintCold w) ∨ (op = 3 ∧ c = .hintKeep w) ∨ (op = 4 ∧ c = .hintUnkeep w) ∨
      (op = 5 ∧ c = .hintDrop w) →
    let g := s.g.putFields (trig (withOp w op) F.TIER_HINT1_GO) (offOf F.TIER_HINT1_PAGES) [F.TIER_HINT1_PAGES, F.TIER_HINT1_OP, F.TIER_HINT1_REFUSED]
    let entry := s.g.get F.TIER_HINT0_EXTENT
    let first := s.g.get F.TIER_HINT0_FIRST_PAGE
    let n := g.get F.TIER_HINT1_PAGES
    let e := s.g.map.cur.entry entry
    let ps := (List.range n).map (fun i => first + i)
    let good := e.valid = true ∧ e.home = s.g.node ∧ e.tier ≠ 0
    g.get F.TIER_HINT1_OP = op ∧ g.mem = s.g.mem ∧ g.map = s.g.map ∧ g.tier = s.g.tier ∧
    (n = 0 → exec c s = .next (s.withG (g.set F.TIER_HINT1_REFUSED 1))) ∧
    (n ≠ 0 → ¬ good → exec c s = .next (s.withG (g.inc F.TIER_HINT1_IGNORED 1))) ∧
    (n ≠ 0 → good → e.pages < first + n → exec c s = .next (s.withG (g.set F.TIER_HINT1_REFUSED 1))) ∧
    (n ≠ 0 → good → first + n ≤ e.pages →
      (op = 3 → 4096 < g.keptPages + (ps.filter (fun p => !(g.page entry p).kept)).length →
        exec c s = .next (s.withG (g.set F.TIER_HINT1_REFUSED 1))) ∧
      (op ≠ 3 ∨ g.keptPages + (ps.filter (fun p => !(g.page entry p).kept)).length ≤ 4096 →
        exec c s = .next (s.withG (ps.foldl (fun h p => h.hintPage op entry e p) g)))) ∧
    (∀ (h : Gikan) (p : Nat),
      (h.hintPage 2 entry e p).page entry p = { h.page entry p with heat := 0 } ∧
      (h.hintPage 3 entry e p).page entry p = { h.page entry p with kept := true } ∧
      (h.hintPage 4 entry e p).page entry p = { h.page entry p with kept := false } ∧
      (h.hintPage 5 entry e p).page entry p =
        { PageRec.unbacked with kept := (h.page entry p).kept, heat := (h.page entry p).heat })) ∧
  (∀ (s : State) (c : Fin 16), s.g.hasp = false → s.g.running = true →
    (let l := s.g.tier.nextSched.getD c []
     (∀ i n, l[i]? = some n → n.baseTick ≤ s.g.tickNo →
       (∀ j m, l[j]? = some m → m.baseTick ≤ s.g.tickNo → n.baseTick < m.baseTick ∨ n.baseTick = m.baseTick ∧ i ≤ j) →
       exec (.scheduleReplace c) s = .next (s.withG
         ({ s.g with tier := { s.g.tier with
             sched := s.g.tier.sched.put c (s.g.planSched n)
             nextSched := if (l.drop (i + 1)).isEmpty then s.g.tier.nextSched.del c else s.g.tier.nextSched.put c (l.drop (i + 1)) } }))) ∧
     ((∀ n ∈ l, s.g.tickNo < n.baseTick) → exec (.scheduleReplace c) s = .next s) ∧
     (∀ n i t, s.g.tier.sched.get? c = none → l = [n] → n.tiles[i]? = some t → t.skipped = false → t.done = false → t.staging = false →
       t.start ≤ s.g.tickNo → n.behind i s.g.tickNo t = false → s.g.delays 1 = false →
       exec (.stagingStart c i) s = .next (s.withG
         ((List.range t.pages).foldl (fun h k => h.startFetch t.entry (t.first + k) 0 true)
           ({ s.g with tier := { s.g.tier with
               nextSched := s.g.tier.nextSched.put c [{ n with tiles := n.tiles.set i { t with staging := true } }] } }))))) ∧
    (∀ sc i t, s.g.tier.sched.get? c = some sc → sc.tiles[i]? = some t → t.skipped = false → t.done = false →
      (t.staging = false → t.start ≤ s.g.tickNo → sc.behind i s.g.tickNo t = false → s.g.delays 1 = false →
        exec (.stagingStart c i) s = .next (s.withG
          ((List.range t.pages).foldl (fun h k => h.startFetch t.entry (t.first + k) 0 true)
            ({ s.g with tier := { s.g.tier with sched := s.g.tier.sched.put c { sc with tiles := sc.tiles.set i { t with staging := true } } } })))) ∧
      (t.staging = false → s.g.tickNo < t.start ∨ sc.behind i s.g.tickNo t = true → s.g.tier.nextSched.getD c [] = [] →
        exec (.stagingStart c i) s = .next s) ∧
      (t.late = false → s.g.tickNo = sc.deadlineOf t → s.g.tileHere t = false →
        ∃ u, exec (.tileLate c i) s = .next u ∧ u.g.get F.TIER_SCHED_STATUS_LAST_LATE = i % 2 ^ F.TIER_SCHED_STATUS_LAST_LATE.wid ∧
          u.g.get F.TIER_SCHED_STATUS_LATE = satAdd F.TIER_SCHED_STATUS_LATE.wid (s.g.get F.TIER_SCHED_STATUS_LATE) 1 ∧ u.g.mem = s.g.mem ∧
          u.g.tier.pages = s.g.tier.pages ∧ u.g.tier.sched = s.g.tier.sched.put c { sc with tiles := sc.tiles.set i { t with late := true } }) ∧
      (s.g.tickNo ≠ sc.deadlineOf t ∨ s.g.tileHere t = true → exec (.tileLate c i) s = .next s) ∧
      (∀ rel, sc.releaseOf t = some rel →
        (s.g.tickNo < rel → exec (.tileRelease c i) s = .next s) ∧
        (rel ≤ s.g.tickNo →
          let u : Tile := if sc.again t then { t with rep := t.rep + 1, staging := false, late := false } else { t with done := true }
          (t.drop = false ∨ s.g.mayMigrate = false → exec (.tileRelease c i) s = .next (s.withG
            ({ s.g with tier := { s.g.tier with sched := s.g.tier.sched.put c (s.g.planSched { sc with tiles := sc.tiles.set i u }) } }))) ∧
          (t.drop = true → s.g.mayMigrate = true →
            let h := (List.range t.pages).foldl (fun h k =>
              let r := h.page t.entry (t.first + k)
              if r.state == .residentClean && r.moving == .none then h.dropPage t.entry (t.first + k) else h) s.g
            exec (.tileRelease c i) s = .next (s.withG
              ({ h with tier := { h.tier with sched := h.tier.sched.put c (h.planSched { sc with tiles := sc.tiles.set i u }) } })))))))

/-- R124, R127 to R130: a RECLAIM that is due is answered OK, its copies dropped and its loan ended; HOME_COPY reserves a frame for every page and is
answered OK, or BUSY_RETRY without room; HOME_LINE stores its line in what has been pulled; a finished pull sends COPY_DONE, and COPY_DONE posts the
change; COPY_CANCEL, 128 unanswered ticks and COPY_HOLD drop the copy; unanswered control requests are resent once per tick; DOMAIN_STATUS records
and reports free frames. -/
def Obligations.HomeCopies : Prop :=
  ∀ (s : State),
    (∀ (x : Fin 48) (q : Req) (h : Gikan) (i : Nat) (e : ExtW),
      let entry := bodyField q 32 2
      (s.g.receive x q tyHOMECOPY (ctlBad q) = .go h i e →
        (∀ c, h.tier.copyB.get? entry = some c → exec (.homeCopy x q) s = .next (s.withG (h.answer 47 x q stOK []))) ∧
        (h.tier.copyB.get? entry = none → (h.map.cur.entry entry).valid = false ∨ h.freeFrames < (h.map.cur.entry entry).pages →
          exec (.homeCopy x q) s = .next (s.withG (({ h with tier := { h.tier with asked := true } }).answer 47 x q stBUSY []))) ∧
        (h.tier.copyB.get? entry = none → (h.map.cur.entry entry).valid = true → (h.map.cur.entry entry).pages ≤ h.freeFrames →
          exec (.homeCopy x q) s = .next (s.withG ((h.copyBegin entry (bodyField q 34 2)).2.answer 47 x q stOK [])) ∧
          (h.copyBegin entry (bodyField q 34 2)).2.tier.copyB.get? entry = some ⟨bodyField q 34 2, 0, [], false⟩)) ∧
      (s.g.receive x q tyHOMELINE (ctlBad q) = .go h i e →
        exec (.homeLine x q) s = .next (s.withG ((h.copyLine entry (bodyField q 36 8) (fit q.payload 128)).answer 47 x q stOK [])) ∧
        (∀ c, h.tier.copyB.get? entry = some c → c.next ≤ bodyField q 36 8 / pageBytes * pageBytes →
          h.copyLine entry (bodyField q 36 8) (fit q.payload 128) = h)) ∧
      (s.g.receive x q tyCOPYDONE (ctlBad q) = .go h i e →
        exec (.copyDone x q) s = .next (s.withG ((h.copyDone entry).answer 47 x q stOK [])) ∧
        (∀ c, h.tier.copyA.get? entry = some c → c.posted = none → h.mayMigrate = true → h.map.homeReq.length < 64 →
          (h.copyDone entry).map.homeReq = h.map.homeReq ++ [(entry, c.peer, h.epoch)] ∧
          (h.copyDone entry).tier.copyA.get? entry = some { c with posted := some h.tickNo })) ∧
      (s.g.receive x q tyCOPYCANCEL (ctlBad q) = .go h i e →
        exec (.copyCancel x q) s = .next (s.withG ((h.dropCopy entry).answer 47 x q stOK []))) ∧
      (s.g.receive x q tyDOMAIN (ctlBad q) = .go h i e →
        exec (.domainStatus x q) s = .next (s.withG
          (({ h with tier := { h.tier with domFree := h.tier.domFree.put q.hdr.src (bodyField q 36 4) } }).answer 47 x q stOK [])))) ∧
    (s.g.hasp = false →
      (∀ n r, s.g.tier.reclaims[n]? = some r →
        (s.g.reclaimDue r = false → exec (.reclaimNoticeEnd n) s = .next s) ∧
        (s.g.reclaimDue r = true →
          let h := (s.g.dropCopies (s.g.reclaimPages r.q)).endLoans
          exec (.reclaimNoticeEnd n) s = .next (s.withG
            (({ h with tier := { h.tier with reclaims := h.tier.reclaims.eraseIdx n } }).refuse r.x r.q stOK)))) ∧
      (∀ entry c, s.g.tier.copyB.get? entry = some c →
        (c.done = false → (s.g.map.cur.entry entry).len ≤ c.next → s.g.pulling entry = false →
          exec (.pullEnd entry) s = .next (s.withG
            ((({ s.g with tier := { s.g.tier with copyB := s.g.tier.copyB.put entry { c with done := true } } }).inc F.TIER_EVENTS_HOME_COPIES 1).sendControl
              tyCOPYDONE c.peer entry 0 (handBody entry s.g.node) []))) ∧
        (c.done = true ∨ c.next < (s.g.map.cur.entry entry).len ∨ s.g.pulling entry = true → exec (.pullEnd entry) s = .next s)) ∧
      (∀ entry c n, s.g.tier.copyA.get? entry = some c → c.posted = some n → s.g.map.hand.get? entry = none →
        (max 16 (s.g.get F.TIER_HEAT_COPY_HOLD) ≤ s.g.tickNo - n → exec (.copyHoldExpiry entry) s = .next (s.withG (s.g.cancelCopy entry))) ∧
        (s.g.tickNo - n < max 16 (s.g.get F.TIER_HEAT_COPY_HOLD) → exec (.copyHoldExpiry entry) s = .next s)) ∧
      (∀ entry tag o p, s.g.controlTags tyHOMECOPY entry = [tag] → s.g.req.outst.get? tag = some o → 128 ≤ s.g.ticksOut o →
        s.g.controlTags tyCOPYCANCEL entry = [] → s.g.copyPeer entry = some p →
        exec (.copyCancelTimeout entry) s = .next (s.withG ((s.g.dropCopy entry).sendControl tyCOPYCANCEL p entry 0
          (handBody entry s.g.node) []))) ∧
      (∀ tag o, s.g.req.outst.get? tag = some o → o.q.hdr.type = tyHOMECOPY ∨ o.q.hdr.type = tyHOMELINE ∨ o.q.hdr.type = tyCOPYDONE ∨
          o.q.hdr.type = tyCOPYCANCEL →
        (o.resends < s.g.ticksOut o → exec (.controlResend tag) s = .next (s.withG (s.g.resend tag))) ∧
        (s.g.ticksOut o ≤ o.resends → exec (.controlResend tag) s = .next s)) ∧
      (s.g.running = true → s.g.tier.lastStatus = none →
        let h := { s.g with tier := { s.g.tier with lastStatus := some s.g.tickNo } }
        exec .domainStatusSend s = .next (s.withG ((s.g.map.cur.dom.filter (fun m => m != s.g.node)).foldl
          (fun k m => k.sendControl tyDOMAIN m 0xFFFF 0 (zeros 4 ++ leBytes 4 s.g.freeFrames ++ zeros 8) []) h))) ∧
      (∀ n, s.g.tier.lastStatus = some n → s.g.tickNo - n < 128 → exec .domainStatusSend s = .next s) ∧
      (∀ entry m, s.g.on F.MAP_CTRL_HOME_REQ_EN = true → s.g.mayMigrate = true → s.g.running = true → s.g.tier.lastCopy = none →
        s.g.movable entry = true → entry ∈ s.g.map.cur.ext.map (fun c => c.1) → s.g.trafficMember entry = some m →
        exec (.homeCopyStart entry) s = .next (s.withG
          (({ s.g with tier := { s.g.tier with lastCopy := some s.g.tickNo, copyA := s.g.tier.copyA.put entry ⟨m, false, none, [], []⟩ } }).sendControl
            tyHOMECOPY m entry 0 (handBody entry s.g.node) []))) ∧
      (∀ entry, s.g.on F.MAP_CTRL_HOME_REQ_EN = false ∨ s.g.mayMigrate = false ∨ s.g.movable entry = false →
        exec (.homeCopyStart entry) s = .next s))

/-! ## Coherence (chapter 8) -/

/-- R145, R146, R153: a request of a live agent that passes every check is queued on its line; one of a dead agent is dropped and counted; while its
compartment is quiesced or scrubbed or its page is not there, without room in the table, or where the extent is not coherent, it is refused. The snoops of a transaction follow the entry it opens on. A transaction opens
only where none is open on its line.
R145 to R147, R150, R151: what a transaction asks of the agents that its line's entry records, what entry it leaves, with no dead agent its owner, and how its COMPLETE, its
SNP_RSPs and its timers end it; a message that matches nothing is dropped and counted. -/
def Obligations.CoherenceTransactions : Prop :=
  (∀ (s : State) (x : Fin 48) (q : Req) (c : Instr) (kind : CohKind),
    (c = .rdShared x q ∧ q.hdr.type = tyRDSHARED ∧ kind = .rdShared) ∨ (c = .rdOwn x q ∧ q.hdr.type = tyRDOWN ∧ kind = .rdOwn) ∨
      (c = .upgrade x q ∧ q.hdr.type = tyUPGRADE ∧ kind = .upgrade) ∨ (c = .wbDirty x q ∧ q.hdr.type = tyWBDIRTY ∧ kind = .writeBack) →
    (∀ src k, s.g.forSelf q = true → s.g.srcOk x q = true → s.g.hasp = false → s.g.deadSrc q = true → s.g.takePkt x (.req q) = (src, k) →
      exec c s = .next (s.withG ((k.consumed src x (.req q)).inc F.COH_EVENTS_LATE_DROPS 1))) ∧
    (∀ h i e, s.g.deadSrc q = false → s.g.receive x q q.hdr.type (cohBodyBad q || (s.g.forSelf q && !s.g.isAgent q.hdr.src)) = .go h i e →
      ((h.map.revoked.get? i).isSome = true → exec c s = .next (s.withG (h.refuse x q stREVOKED))) ∧
      (h.map.revoked.get? i = none → h.match3 q e.cmpt (some e.ward) = 0 → cohLength q = false →
        exec c s = .next (s.withG (h.refuse x q stLENGTH))) ∧
      (∀ j k, h.map.revoked.get? i = none → h.match3 q e.cmpt (some e.ward) = 0 → cohLength q = true → kind ≠ .writeBack →
        (h.check10 q e = (false, j) → exec c s = .next (s.withG (j.refuse x q stBUSY))) ∧
        (h.check10 q e = (true, j) → j.admitPages ⟨i, e⟩ (j.realAddr q.hdr.addr) 128 false = (false, k) →
          exec c s = .next (s.withG (k.refuse x q stBUSY)))) ∧
      (∀ k, h.map.revoked.get? i = none → h.match3 q e.cmpt (some e.ward) = 0 → cohLength q = true →
        (kind = .writeBack ∧ k = h ∨ kind ≠ .writeBack ∧
          ∃ j, h.check10 q e = (true, j) ∧ j.admitPages ⟨i, e⟩ (j.realAddr q.hdr.addr) 128 false = (true, k)) →
        (16384 ≤ k.coh.txns.length → exec c s = .next (s.withG ((k.inc F.COH_EVENTS_BUSY_REFUSALS 1).refuse x q stBUSY))) ∧
        (k.coh.txns.length < 16384 → e.coh = false → exec c s = .next (s.withG (k.refuse x q stUNSUP))) ∧
        (k.coh.txns.length < 16384 → e.coh = true →
          exec c s = .next (s.withG
            ((k.admitted x i q).queueTxn (Txn.new (k.realAddr q.hdr.addr) i kind q.hdr.src q.hdr.tag 0 (fit q.payload 128)))))))) ∧
  (∀ (s : State),
    (∀ (t : Txn) (d : Dir) (o : Nat), d.owner = some o → o ≠ t.node →
      (t.kind = .rdShared → s.g.snoopsFor t d = (0x2A, [o], true)) ∧
      (t.kind = .rdOwn ∨ t.kind = .upgrade → s.g.snoopsFor t d = (0x2B, [o], true)) ∧
      (t.kind = .homeRead ∨ t.kind = .engineRead → s.g.snoopsFor t d = (0x29, [o], false))) ∧
    (∀ (t : Txn) (d : Dir), d.owner = none →
      (t.kind = .rdShared ∨ t.kind = .homeRead → (s.g.snoopsFor t d).2.1 = []) ∧
      (t.kind = .rdOwn ∨ t.kind = .upgrade → s.g.snoopsFor t d = (0x28, (s.g.recorded d).filter (fun n => n != t.node), false)) ∧
      (t.kind = .homeWrite ∨ t.kind = .recall → s.g.snoopsFor t d = (0x28, s.g.recorded d, false))) ∧
    (s.g.hasp = false →
      (∀ line ok, exec (.transactionOpen line ok) s = .next (s.withG ((s.g.openTxn line ok).cohDrain)) ∧
        ((s.g.openOn line).isSome = true → s.g.openTxn line ok = s.g) ∧
        ((∀ t ∈ s.g.coh.txns, t.line ≠ line) → s.g.openTxn line ok = s.g)) ∧
      (∀ line node t, s.g.openOn line = some t →
        (t.await.contains node = true → 1000 * max 10 (s.g.get F.COH_TIMERS_SNOOP_US) ≤ s.g.time - t.snoopAt →
          exec (.snoopTimeout line node) s = .next (s.withG ((s.g.declareDead node true).cohDrain))) ∧
        (t.await.contains node = false ∨ s.g.time - t.snoopAt < 1000 * max 10 (s.g.get F.COH_TIMERS_SNOOP_US) →
          exec (.snoopTimeout line node) s = .next (s.withG s.g.cohDrain))) ∧
      (∀ line t, s.g.openOn line = some t →
        (t.needComplete = true → t.await = [] → t.kind = .rdShared ∨ t.kind = .rdOwn ∨ t.kind = .upgrade →
          1000 * max 10 (s.g.get F.COH_TIMERS_COMPLETE_US) ≤ s.g.time - t.grantAt →
          exec (.completeTimeout line) s = .next (s.withG
            (((s.g.inc F.COH_EVENTS2_COMPLETE_TIMEOUTS 1).closeTxn { t with needComplete := false }).cohDrain))) ∧
        (t.needComplete = false ∨ s.g.time - t.grantAt < 1000 * max 10 (s.g.get F.COH_TIMERS_COMPLETE_US) →
          exec (.completeTimeout line) s = .next (s.withG s.g.cohDrain)))) ∧
    (∀ (h : Gikan) (t : Txn), (h.coh.dead = [] → (h.closeTxn t).dir t.line = t.final) ∧
      (∀ n ∈ h.coh.dead, ((h.closeTxn t).dir t.line).owner ≠ some n) ∧ (h.closeTxn t).openOn t.line = none ∧
      ∀ a, a ≠ t.line → (h.closeTxn t).dir a = h.dir a) ∧
    (∀ (x : Fin 48) (q : Req) (k : Gikan), s.g.closing x q k →
      let a := k.realAddr q.hdr.addr
      (q.hdr.type = tyCOMPLETE →
        (k.coh.txns.find? (fun t => t.opened && t.line == a && t.node == q.hdr.src && t.tag == q.hdr.tag && t.needComplete) = none →
          exec (.complete x q) s = .next (s.withG ((k.inc F.COH_EVENTS_LATE_DROPS 1).cohDrain))) ∧
        (∀ t, k.coh.txns.find? (fun t => t.opened && t.line == a && t.node == q.hdr.src && t.tag == q.hdr.tag && t.needComplete) = some t →
          (t.await = [] → t.kind = .rdShared ∨ t.kind = .rdOwn ∨ t.kind = .upgrade →
            exec (.complete x q) s = .next (s.withG ((k.closeTxn { t with needComplete := false }).cohDrain))) ∧
          (t.await ≠ [] → exec (.complete x q) s = .next (s.withG ((k.putTxn { t with needComplete := false }).cohDrain))))) ∧
      (q.hdr.type = tySNPRSP →
        (k.coh.txns.find? (fun t => t.opened && t.homeTag == q.hdr.tag && t.line == a && t.await.contains q.hdr.src) = none →
          exec (.snpRsp x q) s = .next (s.withG ((k.inc F.COH_EVENTS_LATE_DROPS 1).cohDrain))) ∧
        (∀ t, k.coh.txns.find? (fun t => t.opened && t.homeTag == q.hdr.tag && t.line == a && t.await.contains q.hdr.src) = some t →
          let g := if bit (bodyField q 45 1) 2 then
              k.writeMem (k.siteOf t.entry) t.line (fit (fit q.payload 128) (min 128 ((k.siteOf t.entry).e.base + (k.siteOf t.entry).e.len - t.line)))
            else k
          exec (.snpRsp x q) s = .next (s.withG ((g.snoopAnswered t q.hdr.src (bit (bodyField q 45 1) 1)).cohDrain))))))

/-- R142, R152, R153: COH_RECALL with GO starts the recall of an extent, counted as refused while one runs, and DONE comes when none of its lines is
held; COH_DEAD with GO declares an agent dead; the end of the sweep sets DONE and logs group 54; COH_PEEK with GO copies a line's entry; a write of
COH_AGENT_DATA registers the agents of its bits, except those whose sweep has not ended. -/
def Obligations.CoherenceRegisters : Prop :=
  ∀ (s : State),
    (∀ w, s.g.reaches8 w (offOf F.COH_RECALL_GO) →
      let i := (wrField (trig w F.COH_RECALL_GO) F.COH_RECALL_ENTRY).1
      (s.g.on F.COH_RECALL_STATUS_BUSY = true → exec (.cohRecallGo w) s = .next (s.withG (s.g.inc F.COH_EVENTS_BUSY_REFUSALS 1))) ∧
      (s.g.on F.COH_RECALL_STATUS_BUSY = false → ∃ t, exec (.cohRecallGo w) s = .next t ∧ t.g.on F.COH_RECALL_STATUS_BUSY = true ∧
        t.g.get F.COH_RECALL_STATUS_ENTRY = i % 2 ^ F.COH_RECALL_STATUS_ENTRY.wid ∧ t.g.coh.recalling = some i ∧ t.g.coh.dir = s.g.coh.dir ∧
        t.g.mem = s.g.mem)) ∧
    (s.g.hasp = false →
      (s.g.coh.recalling = none → exec .recallDone s = .next s) ∧
      (∀ i, s.g.coh.recalling = some i →
        (s.g.heldLines i ≠ [] → exec .recallDone s = .next (s.withG (s.g.recallLines i))) ∧
        (s.g.heldLines i = [] → (∀ t ∈ s.g.coh.txns, t.kind ≠ .recall) → ∃ t, exec .recallDone s = .next t ∧
          t.g.on F.COH_RECALL_STATUS_BUSY = false ∧ t.g.on F.COH_RECALL_STATUS_DONE = true ∧ t.g.coh.recalling = none ∧ t.g.mem = s.g.mem)) ∧
      (s.g.coh.sweep = none → exec .deadSweepEnd s = .next s) ∧
      (∀ n, s.g.coh.sweep = some n → s.g.coh.sweepWait = [] → ∃ t, exec .deadSweepEnd s = .next t ∧ t.g.coh.sweep = none ∧
        t.g.on F.COH_DEAD_STATUS_SWEEPING = false ∧ t.g.on F.COH_DEAD_STATUS_DONE = true ∧ t.g.bitOf (F.FLT_WORDS_GROUPS 1) 54 = true ∧
        t.g.coh.agents = s.g.coh.agents)) ∧
    (∀ w, s.g.reaches8 w (offOf F.COH_DEAD_GO) →
      let n := (wrField (trig w F.COH_DEAD_GO) F.COH_DEAD_NODE).1
      exec (.cohDeadGo w) s = .next (s.withG ((s.g.declareDead n false).cohDrain)) ∧
      ((∀ t ∈ s.g.coh.txns, t.opened = true → n ∉ t.await ∧ (t.node ≠ n ∨ t.needComplete = false)) → s.g.coh.sweep = none →
        let h := s.g.declareDead n false
        h.coh.agents = s.g.coh.agents.filter (fun y => y != n) ∧ n ∈ h.coh.dead ∧ h.coh.sweep = some n ∧ h.on F.COH_DEAD_STATUS_SWEEPING = true ∧
          h.get F.COH_DEAD_STATUS_AUTO = 0 ∧ h.get F.COH_EVENTS2_DEAD_DECLARED = satAdd 16 (s.g.get F.COH_EVENTS2_DEAD_DECLARED) 1 ∧
          h.mem = s.g.mem)) ∧
    (∀ w, s.g.reaches8 w (offOf F.COH_PEEK_GO) →
      let v := trig w F.COH_PEEK_GO
      let e := s.g.map.cur.entry (s.g.wrValue v F.COH_PEEK_ENTRY % 2 ^ F.COH_PEEK_ENTRY.wid)
      let o := 128 * (s.g.wrValue v F.COH_PEEK_LINE % 2 ^ F.COH_PEEK_LINE.wid)
      let d := if e.valid = true ∧ e.coh = true ∧ o < e.len then s.g.dir (e.base + o) else ⟨0, 0⟩
      ∃ t, exec (.cohPeekGo w) s = .next t ∧ t.g.get (F.COH_PEEK_DATA_WORD 0) = d.w0 % 2 ^ 64 ∧ t.g.get (F.COH_PEEK_DATA_WORD 1) = d.w1 % 2 ^ 64 ∧
        t.g.coh = s.g.coh ∧ t.g.mem = s.g.mem) ∧
    (∀ w, s.g.reaches8 w (offOf F.COH_AGENT_DATA_REGISTERED) →
      let m := halfMask w.half
      let base := 64 * s.g.get F.COH_AGENT_INDEX_WORD
      ∃ t, exec (.cohAgentDataWrite w) s = .next t ∧ t.g.csr = s.g.csr ∧ t.g.mem = s.g.mem ∧ t.g.coh.dir = s.g.coh.dir ∧
        ∀ n, n ∈ t.g.coh.agents ↔ n ∈ s.g.coh.agents ∨
          (base ≤ n ∧ n < base + 64 ∧ (w.data.toNat &&& m).testBit (n - base) = true ∧ s.g.sweepOpen n = false))

/-! ## Reduce and in-place update (chapter 9) -/

/-- R155, R156: a REDUCE_SETUP that its Keyway has ready is refused with the first code that applies, or carried out: a create makes the stream with
its descriptor and completes; a destroy aborts and discards, completing when nothing of the stream runs; a rekey puts a new PARENT_WARD. -/
def Obligations.ReduceSetup : Prop :=
  ∀ (s : State) (k : CmdRef) (c : Cmd), s.g.cmdReady k opSETUP = some c →
    let d := descrOf c.body
    let a := setupAction c.body
    let st := s.g.setupCheck k.kw c.body
    (st = stOK → a = 1 → exec (.reduceSetupCreate k) s = .next (s.withG
      ((s.g.setStream d.stream ⟨d, k.kw.val, d.firstRound, [], [], false, none⟩).cmdDone k.kw c.idx stOK))) ∧
    (st ≠ stOK → a = 1 → exec (.reduceSetupCreate k) s = .next (s.withG (s.g.cmdDone k.kw c.idx st))) ∧
    (st = stOK → a = 2 → exec (.reduceSetupDestroy k) s = .next (s.withG
      (s.g.cohSettle ((s.g.cmdRun k.kw c.idx 1).destroyStream d.stream (some (k.kw.val, c.idx)))))) ∧
    (st ≠ stOK → a = 2 → exec (.reduceSetupDestroy k) s = .next (s.withG (s.g.cmdDone k.kw c.idx st))) ∧
    (∀ x, st = stOK → a = 3 → s.g.red.streams.get? d.stream = some x → exec (.reduceSetupRekey k) s = .next (s.withG
      ((s.g.setStream d.stream { x with d := { x.d with parentWard := d.parentWard } }).cmdDone k.kw c.idx stOK))) ∧
    (st ≠ stOK → a = 3 → exec (.reduceSetupRekey k) s = .next (s.withG (s.g.cmdDone k.kw c.idx st))) ∧
    (a = 1 → s.g.setupUnsup c.body = false → s.g.setupAbsent k.kw d = false → s.g.setupRange c.body = false →
      ((s.g.red.streams.get? d.stream).isSome = true ∨ s.g.storeFree < d.slots * d.slotBytes → st = stBUSY) ∧
      (s.g.red.streams.get? d.stream = none → d.slots * d.slotBytes ≤ s.g.storeFree → st = stOK)) ∧
    (a = 3 → ∀ x, field c.body 0 2 = 1 → setupRestBad c.body = false → d.stream ≤ 1023 → s.g.liveStream d.stream = some x → x.cmpt = k.kw →
      st = if x.d.relay = true then stOK else stUNSUP)

/-- R165, R166, R168, R169, R171, R175: when a lane's item ends, the unit is free of it and its work is done: an add item adds its group and
answers it; an output item writes the result or sends the partial, and of a poisoned chunk of a relay aborts the round; an update item writes master,
state and weights; a relay-down item sends the result down. A lane whose item is of another kind, or the Hasp state, gives no effect. -/
def Obligations.LaneItemEnds : Prop :=
  ∀ (s : State) (lane : Fin 128) (i : RunItem) (n r c : Nat), s.g.runHead ⟨.red, lane⟩ = some i →
    let ends := fun (f : Gikan → Gikan) => s.withG (s.g.itemStep (itemKey ⟨.red, lane⟩ i.item.work)
      (fun g => (f (g.unitFinish ⟨.red, lane⟩ g.cycleNow)).streamGone n))
    (s.g.hasp = false →
      (i.item.work = .add n r c → exec (.addItemEnd lane) s = .next (ends (fun h => h.addEnd n r c))) ∧
      (i.item.work = .output n r c → exec (.outputItemEnd lane) s = .next (ends (fun h => h.outputEnd n r c))) ∧
      (i.item.work = .update n r c → exec (.updateItemEnd lane) s = .next (ends (fun h => h.updateEnd n r c))) ∧
      (i.item.work = .relayDown n r c → exec (.relayDownEnd lane) s = .next (ends (fun h => h.relayDownOf n r c)))) ∧
    ((∀ n r c, i.item.work ≠ .add n r c) → exec (.addItemEnd lane) s = .next s) ∧
    ((∀ n r c, i.item.work ≠ .output n r c) → exec (.outputItemEnd lane) s = .next s) ∧
    ((∀ n r c, i.item.work ≠ .update n r c) → exec (.updateItemEnd lane) s = .next s) ∧
    ((∀ n r c, i.item.work ≠ .relayDown n r c) → exec (.relayDownEnd lane) s = .next s) ∧
    (s.g.hasp = true → exec (.addItemEnd lane) s = .next s ∧ exec (.outputItemEnd lane) s = .next s ∧ exec (.updateItemEnd lane) s = .next s ∧
      exec (.relayDownEnd lane) s = .next s) ∧
    (∀ (g : Gikan) (x : Stream) (y : Round) (k : Chunk), g.chunkAt n r c = some (x, y, k) → k.poisoned = true → x.d.relay = true →
      y.st = .open → g.outputEnd n r c = g.abortRound n r causePoison) ∧
    (∀ (g : Gikan) (x : Stream) (y : Round) (k : Chunk), g.chunkAt n r c = some (x, y, k) → k.poisoned = false →
      (x.d.relay = true → g.outputEnd n r c =
        (g.updChunk n r c (fun k => { k with st := .sent, acc := [] })).sendPartial x r c (outBytes x.d r c k.acc)) ∧
      (x.d.relay = false → x.d.writeResult = false → x.d.downs = [] → g.outputEnd n r c = g.chunkEnd x.d.stream y.num c)) ∧
    (∀ (d : Descr) (a b : Nat),
      (d.accFmt = 0x0C → (d.op = 1 → combine d a b = (a + b) % 2 ^ 32) ∧ (d.op = 4 → combine d a b = a &&& b) ∧
        (d.op = 5 → combine d a b = a ||| b) ∧ (d.op = 6 → combine d a b = a ^^^ b)) ∧
      (d.accFmt = 0x0C → a < 2 ^ 32 → b < 2 ^ 32 →
        (d.op = 2 → combine d a b = if sext a 32 < sext b 32 then b else a) ∧ (d.op = 3 → combine d a b = if sext b 32 < sext a 32 then b else a)) ∧
      (d.accFmt = 0x01 → d.op = 1 → combine d a b = f32Add a b))

/-- R163, R164: a CONTRIB that passes check 5 on a live stream of the Gikan: of a round before the history ROUND_ABORT, of an aborted round the same,
of a committed one OK, of an open one that has it already OK, each counted; a new one waits with its bit set; one of a round that is not open yet
opens it and those before it, in the order of the table, unless the Gikan is SPLIT; a result from the parent is queued for the down entries; a
wrong SUBOP is UNSUPPORTED after every other check; without a slot or a place at the lane the answer is BUSY_RETRY, counted.
R171: the deadline of an open round, unless its last contribution arrived first, and RED_ABORT with GO on one, abort it; RED_ABORT on any other
round is ignored and counted. -/
def Obligations.ContributionsAndAborts : Prop :=
  (∀ (s : State) (x : Fin 48) (q : Req) (h : Gikan) (i0 : Nat) (e0 : ExtW),
    s.g.receive x q tyCONTRIB false = .go h i0 e0 →
    let n := conStream q
    let c := conChunk q
    let ends := fun (g : Gikan) => s.withG (s.g.cohSettle g)
    (h.liveStream n = none → exec (.contrib x q) s = .next (ends (h.refuse x q stNOTPRES))) ∧
    (∀ (st : Stream) (m : MapTab) (i : Nat) (e : ExtW), h.liveStream n = some st → h.liveMap q.hdr.epoch = some m →
      m.extentAt (h.realAddr st.d.result) = some (i, e) → e.home = h.node → h.map.revoked.get? i = none → h.match3 q e.cmpt (some e.ward) = 0 →
      conContributor q < st.d.contributors →
      let res := q.hdr.subop == 0x40 && st.d.relay
      let subBad := if q.hdr.subop = 0x40 then !(st.d.relay && q.hdr.src == st.d.parentNode) else q.hdr.subop != st.d.inFmt
      (∀ (j k : Gikan) (p : Nat), h.check10 q e = (true, j) → (j.admitted x i q).engPort = (p, k) →
        (0 < q.hdr.length → q.hdr.length ≤ 4096 → st.kindOf (conRound q) = .stale →
          (subBad = false → exec (.contrib x q) s = .next (ends ((k.inc F.RED_EVENTS_STALE 1).answer p x q stABORT []))) ∧
          (subBad = true → exec (.contrib x q) s = .next (ends (j.refuse x q stUNSUP)))) ∧
        (∀ r, st.kindOf (conRound q) = .known r → contribLong st.d q r.count res = false →
          let full := if res then st.noSlot none c else r.st == .open && (st.noSlot (some r) c || decide (256 ≤ h.laneLoad (h.laneOf n c)))
          (r.st = .aborted → subBad = false →
            exec (.contrib x q) s = .next (ends ((k.inc F.RED_EVENTS2_ABORT_ANSWERS 1).answer p x q stABORT []))) ∧
          (r.st ≠ .aborted → full = true → exec (.contrib x q) s = .next (ends ((j.inc F.RED_EVENTS_BUSY 1).refuse x q stBUSY))) ∧
          (r.st = .aborted ∨ full = false → subBad = true → exec (.contrib x q) s = .next (ends (j.refuse x q stUNSUP))) ∧
          (r.st ≠ .aborted → full = false → subBad = false →
            (res = true → exec (.contrib x q) s = .next (ends (k.takeResult x q n st r))) ∧
            (res = false → r.st = .committed →
              exec (.contrib x q) s = .next (ends ((k.inc F.RED_EVENTS_LATE_DONE 1).answer p x q stOK []))) ∧
            (res = false → r.st = .open →
              exec (.contrib x q) s = .next (ends (k.takeContrib x q i n r)) ∧
              (∀ b, r.chunks.get? c = some b → b.bits.contains (conContributor q) = true → ∀ p2 k2, k.engPort = (p2, k2) →
                k.takeContrib x q i n r = (k2.inc F.RED_EVENTS_DUP_BITMAP 1).answer p2 x q stOK [])))) ∧
        (∀ r, st.kindOf (conRound q) = .known r → contribLong st.d q r.count res = true →
          exec (.contrib x q) s = .next (ends (h.refuse x q stLENGTH)))) ∧
      (∀ f l, st.kindOf (conRound q) = .fresh f → st.openCount + f ≤ st.d.maxOpen → res = false →
        (h.readEntries st.d f st.next = (l, none) → exec (.contrib x q) s = .next (ends (l.refuse x q stLENGTH))) ∧
        (∀ es, h.readEntries st.d f st.next = (l, some es) → contribLong st.d q (es.getLastD (0, 0)).2 false = false →
          (l.on F.TICK_STATUS_SPLIT = true →
            exec (.contrib x q) s = .next (ends ((l.inc F.RED_EVENTS2_SPLIT_REFUSALS 1).refuse x q stSPLIT))) ∧
          (∀ (j k : Gikan) (p : Nat) (r : Round), l.on F.TICK_STATUS_SPLIT = false → l.check10 q e = (true, j) →
            (j.admitted x i q).engPort = (p, k) → subBad = false → l.laneLoad (h.laneOf n c) < 256 → st.noRoom es = false →
            (st.noSlot none c = false ∨ st.d.update ≠ 0) →
            ((k.openRounds n st es).red.streams.get? n).bind (fun t => t.round (conRound q)) = some r →
            exec (.contrib x q) s = .next (ends ((k.openRounds n st es).takeContrib x q i n r))))))) ∧
  (∀ (s : State),
    (∀ n r st x, s.g.red.streams.get? n = some st → st.round r = some x → s.g.hasp = false → s.g.running = true →
      (x.st = .open → x.openTick + st.d.deadline ≤ s.g.tickNo → missingOf st.d x ≠ [] →
        exec (.roundDeadline n r) s = .next (s.withG (s.g.cohSettle (s.g.abortRound n r 1)))) ∧
      (missingOf st.d x = [] → (∃ a ∈ x.arrived, x.openTick + st.d.deadline ≤ a.2) → exec (.roundDeadline n r) s = .next s) ∧
      (x.st ≠ .open ∨ s.g.tickNo < x.openTick + st.d.deadline → exec (.roundDeadline n r) s = .next s)) ∧
    (∀ w, s.g.reaches8 w (offOf F.RED_ABORT_GO) →
      let v := fun (f : Fld) => (wrField (trig w F.RED_ABORT_GO) f).1 &&& (wrField (trig w F.RED_ABORT_GO) f).2
      let n := v F.RED_ABORT_STREAM
      let r := v F.RED_ABORT_ROUND
      let found := (s.g.red.streams.get? n).bind (fun st => st.round r)
      (∀ x, found = some x → x.st = .open → exec (.redAbortGo w) s = .next (s.withG (s.g.cohSettle (s.g.abortRound n r 2)))) ∧
      (∀ x, found = some x → x.st ≠ .open → exec (.redAbortGo w) s = .next (s.withG (s.g.inc F.RED_ABORT_CAUSE_IGNORED 1))) ∧
      (found = none → exec (.redAbortGo w) s = .next (s.withG (s.g.inc F.RED_ABORT_CAUSE_IGNORED 1)))))

/-! ## Gather, filter, score; expander tables (chapters 10 and 11) -/

/-- R46, R51, R177, R182 to R191: a GATHER_REQ, FILTER_REQ or SCORE_REQ that passes every check, within its sizes and its cost, is held and its items
are dealt over the engines of its class; the last of them answers it. One whose sizes do not fit is LENGTH_RANGE, and counted when its answer or
its cost is too large; a filter of a compressed extent is UNSUPPORTED, counted; a score without selection entries is BUSY_RETRY, counted. -/
def Obligations.EngineRequests : Prop :=
  (∀ (s : State) (x : Fin 48) (q : Req) (h : Gikan) (i : Nat) (e : ExtW),
    let site : Site := ⟨i, e⟩
    let a := h.realAddr q.hdr.addr
    let fine := h.map.revoked.get? i = none ∧ h.match3 q e.cmpt (some e.ward) = 0
    let long := h.refuse x q stLENGTH
    (s.g.receive x q tyGATHER (gatherReqBad q || s.g.rawBad q) = .go h i e → fine →
      let p := reqGather q a none
      let costs := List.replicate (bodyField q 34 2) p.cost
      let fits := gatherReqLong q = false ∧ h.gatherFits site p = true
      (¬ fits → exec (.gatherReq x q) s = .next (s.withG (s.g.cohSettle long))) ∧
      (fits → 4096 < gatherRespBytes q → exec (.gatherReq x q) s = .next (s.withG (s.g.cohSettle (long.inc F.GFS_REFUSALS_SIZE 1)))) ∧
      (fits → gatherRespBytes q ≤ 4096 → 16 * h.classB .gth < h.dealtCost .gth costs →
        exec (.gatherReq x q) s = .next (s.withG (s.g.cohSettle (long.inc F.GFS_REFUSALS_COST 1)))) ∧
      (∀ j id j1, fits → gatherRespBytes q ≤ 4096 → h.dealtCost .gth costs ≤ 16 * h.classB .gth → h.check10 q e = (true, j) →
        (j.admitted x i q).hold x q i (.job 0) = (id, j1) →
        exec (.gatherReq x q) s = .next (s.withG (s.g.cohSettle ((j1.dealItems (.request id) q.hdr.cmpt .gth costs).addJob
          { EngJob.start (.request id) q.hdr.cmpt costs.length 0 none with idx := p.idx }))))) ∧
    (s.g.receive x q tyFILTER (filterReqBad q) = .go h i e →
      let p := reqFilter q a
      let costs := p.costs p.count
      let fits := filterReqLong q = false ∧ e.covers p.base (p.count * p.recBytes) = true
      (e.comp ≠ 0 → exec (.filterReq x q) s = .next (s.withG (s.g.cohSettle ((h.inc F.GFS_REFUSALS_FORMAT 1).refuse x q stUNSUP)))) ∧
      (e.comp = 0 → fine →
        (¬ fits → exec (.filterReq x q) s = .next (s.withG (s.g.cohSettle long))) ∧
        (fits → filterRespLong q = true → exec (.filterReq x q) s = .next (s.withG (s.g.cohSettle (long.inc F.GFS_REFUSALS_SIZE 1)))) ∧
        (fits → filterRespLong q = false → 16 * h.classB .flt < costs.foldl (fun n c => n + c) 0 →
          exec (.filterReq x q) s = .next (s.withG (s.g.cohSettle (long.inc F.GFS_REFUSALS_COST 1)))) ∧
        (∀ j id j1, fits → filterRespLong q = false → costs.foldl (fun n c => n + c) 0 ≤ 16 * h.classB .flt → h.check10 q e = (true, j) →
          (j.admitted x i q).hold x q i (.job 0) = (id, j1) →
          let f := j1.pickFilter (costs.headD 0)
          exec (.filterReq x q) s = .next (s.withG (s.g.cohSettle
            ((costs.zipIdx.foldl (fun k c => k.queueWork (.request id) q.hdr.cmpt .flt f c.2 c.1) j1).addJob
              (EngJob.start (.request id) q.hdr.cmpt costs.length 0 (some f)))))))) ∧
    (s.g.receive x q tySCORE (scoreReqBad q) = .go h i e → fine →
      let p := reqScore q a none
      let fits := scoreReqLong q = false ∧ h.keysFit site p = true
      (¬ fits → exec (.scoreReq x q) s = .next (s.withG (s.g.cohSettle long))) ∧
      (fits → 4096 < p.queries * p.k * 8 → exec (.scoreReq x q) s = .next (s.withG (s.g.cohSettle (long.inc F.GFS_REFUSALS_SIZE 1)))) ∧
      (fits → p.queries * p.k * 8 ≤ 4096 → 16 * h.classB .mtx < h.scoreCost p ∨ 16 * h.classB .flt < h.mergeMost p →
        exec (.scoreReq x q) s = .next (s.withG (s.g.cohSettle (long.inc F.GFS_REFUSALS_COST 1)))) ∧
      (∀ j, fits → p.queries * p.k * 8 ≤ 4096 → h.scoreCost p ≤ 16 * h.classB .mtx → h.mergeMost p ≤ 16 * h.classB .flt →
        h.check10 q e = (true, j) →
        (j.selectLeast < p.queries * p.k →
          exec (.scoreReq x q) s = .next (s.withG (s.g.cohSettle ((j.inc F.GFS_REFUSALS_SELECT_BUSY 1).refuse x q stBUSY)))) ∧
        (∀ id j1 n j2, p.queries * p.k ≤ j.selectLeast → (j.admitted x i q).hold x q i (.job 0) = (id, j1) →
          j1.dealScore (.request id) q.hdr.cmpt p = (n, j2) →
          exec (.scoreReq x q) s = .next (s.withG (s.g.cohSettle (j2.addJob
            { EngJob.start (.request id) q.hdr.cmpt n (p.queries * p.k) none with merges := j2.scoreMerges p }))))))) ∧
  (∀ (g k : Gikan) (j : EngJob) (u : UnitId) (n id : Nat) (h : Held) (j' : EngJob) (w : Gikan),
    g.jobOf (.request id) = some j → g.itemRun j u n = (k, j') → j'.owner = .request id → j'.left = 1 → j'.merges = [] →
    j'.scan.full = false → w = (k.blocksDone (.request id n)).putJob { j' with left := 0 } → w.heldById id = some h →
    g.gfsItemEnd (.request id) u n =
      ((((w.engPort).2.dropJob (.request id)).release id).answer (w.engPort).1 h.x h.q (w.reqAnswer { j' with left := 0 }).1
        (w.reqAnswer { j' with left := 0 }).2))

/-- R191 to R196: a GATHER, FILTER or SCORE command that its Keyway has ready completes at once with the code of the check that it fails; one that
passes them deals its items and runs, or waits for its selection entries; and once the items of a SCORE have ended its merges are formed. A gather
item writes its output row, poisoned when a source row or the index list is (R99). -/
def Obligations.EngineJobs : Prop :=
  ∀ (s : State) (k : CmdRef) (c : Cmd),
    let kw := k.kw.val
    let st := s.g.jobCheck kw c
    let refused := (if st = stUNSUP then s.g.inc F.GFS_REFUSALS_FORMAT 1 else s.g).cmdDone kw c.idx st
    (s.g.cmdReady k opGATHER = some c →
      (st ≠ stOK → exec (.gather k) s = .next (s.withG refused)) ∧
      (∀ g1 p bad, st = stOK → s.g.cmdGather c = (g1, p, bad) →
        let n := c.f 8 4 / p.group
        exec (.gather k) s = .next (s.withG (s.g.cohSettle
          ((((g1.dealItems (.cmd kw c.idx) kw .gth (List.replicate n p.cost)).addJob
            { EngJob.start (.cmd kw c.idx) kw n 0 none with idx := p.idx, idxBad := bad }).cmdRun kw c.idx n).updCmd kw c.idx
              (fun d => { d with detail := n })))))) ∧
    (s.g.cmdReady k opFILTER = some c →
      let p := c.filterP
      let costs := p.costs p.count
      let f := s.g.pickFilter (costs.headD 0)
      let need := if 512 < p.k then p.k else 0
      (st ≠ stOK → exec (.filter k) s = .next (s.withG refused)) ∧
      (st = stOK → s.g.selectFree f < need → exec (.filter k) s = .next s) ∧
      (st = stOK → need ≤ s.g.selectFree f → exec (.filter k) s = .next (s.withG
        (((costs.zipIdx.foldl (fun h y => h.queueWork (.cmd kw c.idx) kw .flt f y.2 y.1) s.g).addJob
          (EngJob.start (.cmd kw c.idx) kw costs.length need (some f))).cmdRun kw c.idx costs.length)))) ∧
    (∀ row, row = .score k ∨ row = .selectionEntriesFree k ∧ s.g.hasp = false → s.g.cmdReady k opSCORE = some c →
      let p := c.scoreP
      (st ≠ stOK → exec row s = .next (s.withG refused)) ∧
      (st = stOK → s.g.selectLeast < p.queries * p.k → exec row s = .next s) ∧
      (∀ n g4, st = stOK → p.queries * p.k ≤ s.g.selectLeast → s.g.dealScore (.cmd kw c.idx) kw p = (n, g4) →
        exec row s = .next (s.withG ((g4.addJob
          { EngJob.start (.cmd kw c.idx) kw n (p.queries * p.k) none with merges := g4.scoreMerges p }).cmdRun kw c.idx n)))) ∧
    (s.g.hasp = false → ∀ j, s.g.jobOf (.cmd kw k.idx) = some j →
      (j.left = 0 → j.merges ≠ [] → exec (.mergeStart k) s = .next (s.withG
        ((j.merges.zipIdx.foldl (fun h m => h.queueWork j.owner j.cmpt .flt m.1.1 (mergeItem + m.2) m.1.2) s.g).putJob
          { j with left := j.merges.length, merges := [] }))) ∧
      (j.left ≠ 0 ∨ j.merges = [] → exec (.mergeStart k) s = .next s)) ∧
    (∀ (g g1 : Gikan) (j : EngJob) (i : Nat) (p : GatherP) (rd : Reader) (site : Option Site) (b : List Byte) (bad : Bool) (refs : Tbl Nat),
      j.owner = .cmd kw k.idx → (∀ x, site = some x → x.e.comp = 0) → g.cmd? kw k.idx = some c → g1.cmd? kw k.idx = some c →
      g.gatherRow rd { p with tensor := none } ((p.idx.drop (i * p.group)).take p.group) (j.lost.contains i || j.idxBad) = (g1, b, bad, refs) →
      (g.gatherItem j i p rd site).1 = (if bad then g1.cmdPoison kw c (c.outAt + i * p.rowBytes) b.length
        else g1.cmdWrite kw c (c.outAt + i * p.rowBytes) b))

/-- R217 to R221: CMP_TABLE_LOAD with GO is refused while a load is busy or pending, and otherwise checks and loads its image, waiting
with BUSY while its compartment is scrubbed or while the image's granules are brought in; a pending load takes the
slot that becomes EMPTY; the end of a load makes its slot CURRENT and the other RETIRING; a RETIRING slot that nothing counts on becomes EMPTY; an
uncorrectable error empties its slot and logs group 51. -/
def Obligations.ExpanderTables : Prop :=
  ∀ (s : State),
    (∀ w, s.g.reaches8 w (offOf F.CMP_TABLE_LOAD_GO) →
      let v := fun (f : Fld) => (wrField (trig w F.CMP_TABLE_LOAD_GO) f).1 &&& (wrField (trig w F.CMP_TABLE_LOAD_GO) f).2
      let h := (s.g.set F.CMP_TABLE_STATUS_TABLE (v F.CMP_TABLE_LOAD_TABLE)).set F.CMP_TABLE_STATUS_VERSION (v F.CMP_TABLE_LOAD_VERSION)
      (s.g.on F.CMP_TABLE_STATUS_BUSY = true ∨ s.g.on F.CMP_TABLE_STATUS_PENDING = true →
        ∃ t, exec (.cmpTableLoadGo w) s = .next t ∧ t.g.on F.CMP_TABLE_STATUS_REFUSED = true ∧ t.g.get F.CMP_TABLE_STATUS_CAUSE = 7 ∧
          t.g.get F.CMP_TABLE_STATUS_REFUSALS = satAdd F.CMP_TABLE_STATUS_REFUSALS.wid (s.g.get F.CMP_TABLE_STATUS_REFUSALS) 1 ∧
          t.g.cmp = s.g.cmp ∧ t.g.mem = s.g.mem) ∧
      (s.g.on F.CMP_TABLE_STATUS_BUSY = false → s.g.on F.CMP_TABLE_STATUS_PENDING = false →
        let a := s.g.get F.CMP_TABLE_SRC_ADDR
        let (table, version, cmpt) := (v F.CMP_TABLE_LOAD_TABLE, v F.CMP_TABLE_LOAD_VERSION, v F.CMP_TABLE_LOAD_CMPT)
        let done := h.tableLoad a table version cmpt
        let waits := fun (k : Gikan) => ({ k.set F.CMP_TABLE_STATUS_BUSY 1 with cmp := { k.cmp with wait := some (a, table, version, cmpt) } } : Gikan)
        (h.scrubbing cmpt = true → exec (.cmpTableLoadGo w) s = .next (s.withG (waits h))) ∧
        (h.scrubbing cmpt = false → h.stalls done = false → exec (.cmpTableLoadGo w) s = .next (s.withG (h.cohSettle done))) ∧
        (h.scrubbing cmpt = false → h.stalls done = true → exec (.cmpTableLoadGo w) s = .next (s.withG (waits (h.cohSettle done)))))) ∧
    (∀ (g : Gikan) (l : TabLoad) (j : Nat), g.emptySlot l.table = some j →
      (g.takeSlot l).on F.CMP_TABLE_STATUS_BUSY = true ∧ (g.takeSlot l).on F.CMP_TABLE_STATUS_PENDING = false ∧
        (g.takeSlot l).cmp.load = some { l with slot := some j }) ∧
    (∀ (g : Gikan) (l : TabLoad), g.emptySlot l.table = none →
      (g.takeSlot l).on F.CMP_TABLE_STATUS_PENDING = true ∧ (g.takeSlot l).cmp.load = some { l with slot := none }) ∧
    (s.g.hasp = false → ∀ l, s.g.cmp.load = some l →
      (l.slot = none → (s.g.emptySlot l.table).isSome = true → exec .tableSlotTake s = .next (s.withG (s.g.takeSlot l))) ∧
      (l.slot = none → s.g.emptySlot l.table = none → exec .tableSlotTake s = .next s) ∧
      (l.slot = none → exec .tableLoadEnd s = .next s) ∧
      (∀ j, l.slot = some j → j ≤ 1 → ∃ t, exec .tableLoadEnd s = .next t ∧ t.g.on F.CMP_TABLE_STATUS_BUSY = false ∧
        t.g.on F.CMP_TABLE_STATUS_DONE = true ∧ t.g.cmp.load = none ∧ t.g.mem = s.g.mem ∧
        t.g.cmp.slots.get? (2 * l.table + j) = some ⟨false, l.kind, l.entry, l.cmpt, l.version, l.data⟩)) ∧
    (s.g.hasp = false → ∀ table slot x, table < 32 → slot < 2 → s.g.cmp.slots.get? (2 * table + slot) = some x →
      (x.retiring = true → s.g.slotRefs (2 * table + slot) = 0 → exec (.slotEmpty table slot) s = .next (s.withG
        ({ s.g with cmp := { s.g.cmp with slots := s.g.cmp.slots.del (2 * table + slot) } }))) ∧
      (x.retiring = false ∨ s.g.slotRefs (2 * table + slot) ≠ 0 → exec (.slotEmpty table slot) s = .next s)) ∧
    (∀ table slot, table < 32 → slot < 2 → ∃ t, exec (.tableEccError table slot) s = .next t ∧
      t.g.cmp.slots.get? (2 * table + slot) = none ∧ t.g.bitOf (F.FLT_WORDS_GROUPS 1) 51 = true ∧ t.g.mem = s.g.mem)

/-! ## Pin cores (chapter 11) -/

/-- R44, R231, R237, R252: an idle core takes the compartment of its head item with its scratch cleared, counted; a kernel that still runs
KILL_FRAMES ticks after its last frame ends with the KILL exception and TIMEOUT, and not before; an entry-point TRIGGER that passes its checks is
held and queued on the acting owner of its sliver; a RUN queues its instances in order, each on the core of its address or of FIRST_CORE + i. -/
def Obligations.KernelItems : Prop :=
  ∀ (s : State),
    (∀ (core : Fin 2048) i rest c, (s.g.pinCore core).queue = i :: rest → (s.g.pinCore core).cmpt = some c →
      (c ≠ i.cmpt → (s.g.pinCore core).idle? = true → s.g.hasp = false → (∀ z, s.g.sec.scrub = some z → z.1 ≠ c) → exec (.compartmentSwitch core) s = .next (s.withG
        ((s.g.setPinCore core { s.g.pinCore core with cmpt := some i.cmpt, scratch := [] }).inc F.PIN_QUEUE_CMPT_SWITCHES 1))) ∧
      (c = i.cmpt ∨ (s.g.pinCore core).idle? = false → exec (.compartmentSwitch core) s = .next s)) ∧
    (∀ (core : Fin 2048) (t : Fin 8) th, s.g.thread core t = some th → s.g.hasp = false → s.g.running = true →
      let n := s.g.get F.PIN_LIMITS_KILL_FRAMES
      (n = 0 ∨ s.g.tickNo ≤ th.frame + n → exec (.kill core t) s = .next s) ∧
      (0 < n → th.frame + n < s.g.tickNo → (∀ a b c d, th.wait ≠ .ending a b c d) →
        exec (.kill core t) s = .next (s.withG (s.g.cohSettle (s.g.pinExc core t 8 stTIMEOUT))))) ∧
    (∀ (x : Fin 48) q h i e, trigEntry q ≠ 0xFFFF → s.g.receive x q tyTRIGGER false = .go h i e →
      (h.pinEntry (trigEntry q) q.hdr.cmpt EntryPt.trigger = none → exec (.triggerEntry x q) s = .next (s.withG (h.refuse x q stNOTPRES))) ∧
      (∀ ep, h.pinEntry (trigEntry q) q.hdr.cmpt EntryPt.trigger = some ep →
        (h.map.revoked.get? i = none → h.match3 q e.cmpt (some e.ward) = 0 →
          (256 < q.hdr.length ∨ 40 < trigResultMax q → exec (.triggerEntry x q) s = .next (s.withG (h.refuse x q stLENGTH))) ∧
          (∀ j core, q.hdr.length ≤ 256 → trigResultMax q ≤ 40 → h.check10 q e = (true, j) → j.actingCore (sliverOf q.hdr.addr) = some core →
            (j.coreFull core = true → exec (.triggerEntry x q) s = .next (s.withG ((j.inc F.PIN_QUEUE_FULL_REFUSALS 1).refuse x q stBUSY))) ∧
            (∀ id k hid l, j.coreFull core = false → (j.admitted x i q).pinId = (id, k) → k.hold x q i (.pin core id) = (hid, l) →
              exec (.triggerEntry x q) s = .next (s.withG (l.pinPush core ⟨id, trigEntry q, ep, q.hdr.cmpt,
                .trigger hid q.hdr.addr q.hdr.src (trigResultMax q) q.hdr.ward (fit q.payload q.hdr.length)⟩))))))) ∧
    (∀ (k : CmdRef) c, s.g.cmdReady k opRUN = some c →
      (s.g.runCheck k.kw c ≠ stOK → exec (.run k) s = .next (s.withG (s.g.cmdEnd k.kw c.idx (s.g.runCheck k.kw c) (2 ^ 32 - 1)))) ∧
      (∀ e, s.g.runCheck k.kw c = stOK → s.g.pinEntry (c.f 2 2) k.kw EntryPt.run = some e →
        let one := fun (h : Gikan) (i : Nat) =>
          match h.actingCore (if c.f 4 1 = 0 then (c.f 12 2 + i) % 2048 else sliverOf (c.runAddr i)) with
          | none => h
          | some core => (h.pinId.2).pinQueue core ⟨h.pinId.1, c.f 2 2, e, k.kw,
              .run k.kw c.idx i (c.f 8 4) (if c.f 4 1 = 0 then 0 else c.runAddr i) (c.f 40 8) (slice c.body 64 (c.f 6 2))⟩
        exec (.run k) s = .next (s.withG ((List.range (c.f 8 4)).foldl one (s.g.cmdRun k.kw c.idx (c.f 8 4))))))

/-- R248 to R250: a write of PIN_IMAGE_LOAD while a load is busy is refused with cause 8; a load whose image is not there yet waits, BUSY; one that passes the checks leaves the image to be
written with BUSY set, and one that fails changes no store and no entry and gives its cause; the end of the load puts the code words in place,
registers the entries and makes the slot VALID; an unload unregisters the slot's entries, and the slot is free once no item names it. -/
def Obligations.KernelImages : Prop :=
  ∀ (s : State),
    (∀ (w : RegW) row t, (row = .pinImageLoadGo w ∧ t = F.PIN_IMAGE_LOAD_GO) ∨ (row = .pinImageUnload w ∧ t = F.PIN_IMAGE_LOAD_UNLOAD) →
      s.g.reaches8 w (offOf t) →
      let v := fun (f : Fld) => (wrField (trig w t) f).1 &&& (wrField (trig w t) f).2
      (s.g.on F.PIN_IMAGE_STATUS_BUSY = true → exec row s = .next (s.withG (s.g.imageRefused 8)) ∧
        (s.g.imageRefused 8).on F.PIN_IMAGE_STATUS_REFUSED = true ∧ (s.g.imageRefused 8).get F.PIN_IMAGE_STATUS_CAUSE = 8 ∧
        (s.g.imageRefused 8).pin = s.g.pin) ∧
      (s.g.on F.PIN_IMAGE_STATUS_BUSY = false → t = F.PIN_IMAGE_LOAD_GO → wrOne (trig w t) F.PIN_IMAGE_LOAD_UNLOAD = false →
        s.g.scrubbing (v F.PIN_IMAGE_LOAD_CMPT) = false →
        let l := (s.g.get F.PIN_IMAGE_SRC_ADDR, v F.PIN_IMAGE_LOAD_SLOT, v F.PIN_IMAGE_LOAD_BASE, v F.PIN_IMAGE_LOAD_CMPT)
        let done := s.g.imageLoad l.1 l.2.1 l.2.2.1 l.2.2.2
        (s.g.stalls done = false → exec row s = .next (s.withG (s.g.cohSettle done))) ∧
        (s.g.stalls done = true → ∃ u, exec row s = .next u ∧ u.g.on F.PIN_IMAGE_STATUS_BUSY = true ∧ u.g.pin = { s.g.pin with wait := some l })) ∧
      (∀ i, s.g.on F.PIN_IMAGE_STATUS_BUSY = false → t = F.PIN_IMAGE_LOAD_UNLOAD → s.g.pin.images.get? (v F.PIN_IMAGE_LOAD_SLOT) = some i →
        i.unloading = false → ∃ u, exec row s = .next u ∧ u.g.on F.PIN_IMAGE_STATUS_UNLOADING = true ∧
          u.g.pin.images.get? (v F.PIN_IMAGE_LOAD_SLOT) = some { i with unloading := true } ∧ u.g.pin.code = s.g.pin.code ∧
          (∀ n e, u.g.pin.entries.get? n = some e → e.slot ≠ v F.PIN_IMAGE_LOAD_SLOT))) ∧
    (∀ (g : Gikan) (a slot base cmpt : Nat), let h := g.imageLoad a slot base cmpt
      (h.pin = g.pin ∧ h.on F.PIN_IMAGE_STATUS_REFUSED = true ∧ 1 ≤ h.get F.PIN_IMAGE_STATUS_CAUSE ∧ h.get F.PIN_IMAGE_STATUS_CAUSE ≤ 7) ∨
      (∃ l, h.pin = { g.pin with load := some l } ∧ l.slot = slot ∧ l.base = base ∧ l.cmpt = cmpt ∧ h.on F.PIN_IMAGE_STATUS_BUSY = true ∧
        base + l.words.length ≤ 32768 ∧ g.pin.images.get? slot = none ∧ (∀ i ∈ g.pin.images, meets base l.words.length i.2.base i.2.count = false) ∧
        (∀ e ∈ l.entries, e.1 ≤ 4095 ∧ g.pin.entries.get? e.1 = none ∧ e.2.slot = slot ∧ e.2.cmpt = cmpt ∧ e.2.pc < base + l.words.length ∧
          0 < e.2.cycles))) ∧
    (∀ l, s.g.hasp = false → s.g.pin.load = some l → ∃ t, exec .imageLoadEnd s = .next t ∧ t.g.on F.PIN_IMAGE_STATUS_BUSY = false ∧
      t.g.on F.PIN_IMAGE_STATUS_DONE = true ∧ t.g.pin.load = none ∧ t.g.mem = s.g.mem ∧
      t.g.pin.images.get? l.slot = some ⟨l.cmpt, l.base, l.words.length, l.entries.length, false⟩ ∧
      (∀ i, i < l.words.length → t.g.pin.code.getD (l.base + i) 0 = l.words.getD i 0) ∧
      (∀ n, n < l.base ∨ l.base + l.words.length ≤ n → t.g.pin.code.getD n 0 = s.g.pin.code.getD n 0) ∧
      ((l.entries.map (fun e => e.1)).Nodup → ∀ e ∈ l.entries, t.g.pin.entries.get? e.1 = some e.2)) ∧
    (s.g.hasp = false →
      (∀ i slot im, s.g.pin.images.find? (fun i => i.2.unloading && s.g.slotItems i.1 == 0) = some i → i.1 = slot →
        s.g.pin.images.get? slot = some im → ∃ t, exec .unloadEnd s = .next t ∧ t.g.pin.images.get? slot = none ∧
          t.g.on F.PIN_IMAGE_STATUS_DONE = true ∧ t.g.pin.entries = s.g.pin.entries ∧
          (∀ n, im.base ≤ n → n < im.base + im.count → t.g.pin.code.getD n 0 = 0) ∧
          (∀ n, n < im.base ∨ im.base + im.count ≤ n → t.g.pin.code.getD n 0 = s.g.pin.code.getD n 0)) ∧
      (s.g.pin.images.find? (fun i => i.2.unloading && s.g.slotItems i.1 == 0) = none → exec .unloadEnd s = .next s))

/-! ## Keyways and commands (chapter 12) -/

/-- R3, R253, R254: a write of 4 or 8 bytes at an aligned offset of a landing zone puts its bytes into the zone; a zone is emptied for a bad length,
accepted when it is whole and an entry is free, and HELD when none is; a write into a held zone and one of a compartment that is scrubbed are
dropped, each counted. A held packet is accepted when an entry frees; a zone still filling after the timeout is emptied and counted. -/
def Obligations.LandingZones : Prop :=
  ∀ (s : State),
    (∀ (bus : Bus) (off width : Nat) (data : Word),
      let kw := off / 0x10000
      let o := off % 0x10000
      let z := o / 4096
      let x := ((s.g.kway kw).zones.get? z).getD (Zone.empty s.g.now)
      let y := x.write (o % 4096) (leBytes width data.toNat)
      ((width ≠ 4 ∧ width ≠ 8) ∨ off % width ≠ 0 ∨ 0x8000 ≤ o → exec (.keywayWrite bus off width data) s = .next s) ∧
      (bus ≠ .i3c → s.g.hasp = false → 1 < s.g.phase → width = 4 ∨ width = 8 → off % width = 0 → off < 0x100000 → o < 0x8000 →
        (s.g.scrubbing kw = true → exec (.keywayWrite bus off width data) s = .next (s.withG (s.g.inc F.SEC_SCRUB_COUNTS_WRITES_DROPPED 1))) ∧
        (s.g.scrubbing kw = false →
          (x.held = true → exec (.keywayWrite bus off width data) s = .next (s.withG (s.g.inc F.SUB_KW_EVENTS_OVERWRITES 1))) ∧
          (x.held = false →
            (y.len = none → y.has 8 = false → exec (.keywayWrite bus off width data) s = .next (s.withG (s.g.setZone kw z (some y)))) ∧
            (∀ n, y.len = some n ∨ (y.len = none ∧ y.has 8 = true ∧ n = field (y.packet 8) 4 2) →
              (n % 8 ≠ 0 ∨ n < 32 ∨ 4096 < n →
                exec (.keywayWrite bus off width data) s = .next (s.withG ((s.g.setZone kw z none).inc F.SUB_KW_EVENTS_BAD_LENGTH 1))) ∧
              (n % 8 = 0 → 32 ≤ n → n ≤ 4096 →
                (y.has n = false → exec (.keywayWrite bus off width data) s = .next (s.withG (s.g.setZone kw z (some { y with len := some n })))) ∧
                (y.has n = true → s.g.kwRoom kw = true →
                  exec (.keywayWrite bus off width data) s = .next (s.withG (s.g.cohSettle ((s.g.setZone kw z none).accept kw (y.packet n) none)))) ∧
                (y.has n = true → s.g.kwRoom kw = false → exec (.keywayWrite bus off width data) s =
                  .next (s.withG (s.g.setZone kw z (some { y with len := some n, held := true })))))))))) ∧
    (∀ (x : Zone) (o : Nat) (b : List Byte) (i : Nat),
      (x.write o b).bytes.getD i 0 = if o ≤ i ∧ i < o + b.length then b.getD (i - o) 0 else x.bytes.getD i 0) ∧
    (∀ (c : Fin 16) (z : Fin 8) x, (s.g.kway c).zones.get? z = some x →
      (x.held = false ∨ s.g.kwRoom c = false → exec (.heldZoneAccept c z) s = .next s) ∧
      (x.held = true → s.g.kwRoom c = true → s.g.hasp = false →
        let h := (s.g.setZone c z none).accept c (x.packet (x.len.getD 0)) none
        exec (.heldZoneAccept c z) s =
          .next (s.withG (s.g.cohSettle (if s.g.scrubbing c then h.scrubCmd c (s.g.kway c).next else h)))) ∧
      (s.g.hasp = false →
        let due := x.since + 1000 * max 10 (s.g.get F.SUB_CTRL_ZONE_TIMEOUT_US)
        (x.held = true ∨ s.g.now < due → exec (.zoneTimeout c z) s = .next s) ∧
        (x.held = false → due ≤ s.g.now →
          exec (.zoneTimeout c z) s = .next (s.withG ((s.g.setZone c z none).inc F.SUB_KW_EVENTS_ABANDONED 1)))))

/-- R199, R259 to R265: each command that is READY and past its AFTER condition completes at once with the code of the check that it fails, and
otherwise starts: MOVE and FILL deal their items over the movers, each byte of the destination in the one item of its aligned 64 KiB; PUBLISH and
LEND send their one request; SCHEDULE takes its body or refuses it; FENCE waits for the commands before it, and then for its fences. -/
def Obligations.CommandStarts : Prop :=
  ∀ (s : State) (k : CmdRef) (c : Cmd),
    let kw := k.kw.val
    (∀ op row st, (op = opMOVE ∧ row = .move k ∧ st = s.g.moveCheck c) ∨ (op = opFILL ∧ row = .fill k ∧ st = fillCheck c) →
      s.g.cmdReady k op = some c →
      (st ≠ stOK → exec row s = .next (s.withG (s.g.cmdRefused kw c st))) ∧
      (∀ b t, st = stOK → (c.expands = false ∧ b = s.g ∧ t = none) ∨ (c.expands = true ∧ ∃ si u,
          s.g.siteAt (c.f 0 8) = some si ∧ s.g.openTensor si (s.g.realAddr (c.f 0 8)) = (b, u) ∧ t = some u) →
        let g := (b.cmdRun kw c.idx c.itemCount).updCmd kw c.idx (fun d => { d with tensor := t })
        let ms := b.engines .mov
        exec row s = .next (s.withG (s.g.cohSettle ((List.range c.itemCount).foldl (fun h j =>
          h.queueItem ⟨.mov, ms.getD (j % ms.length) 0⟩ ⟨ceilDiv (c.itemSpan j).2 256 +
            (if h.itemLocal c (c.itemSpan j).1 (c.itemSpan j).2 then 32 else h.get F.SUB_MOVER_REMOTE_CYCLES), .job kw c.idx j, kw, none⟩) g))))) ∧
    (∀ o, c.expands = false → o < c.moveBytes →
      let j := (c.moveDst % 65536 + o) / 65536
      j < c.itemCount ∧ (c.itemSpan j).1 ≤ o ∧ o < (c.itemSpan j).1 + (c.itemSpan j).2) ∧
    (s.g.cmdReady k opPUBLISH = some c →
      let n := c.f 20 2
      (s.g.pubCheck kw c ≠ stOK → exec (.publishCommand k) s = .next (s.withG (s.g.cmdRefused kw c (s.g.pubCheck kw c)))) ∧
      (∀ h data, s.g.pubCheck kw c = stOK → (if n = 0 then (s.g, [], false) else s.g.cmdRead c (c.f 8 8) n) = (h, data, true) →
        exec (.publishCommand k) s = .next (s.withG (s.g.cohSettle (h.cmdDone kw c.idx stPOISONED)))) ∧
      (∀ h data a, s.g.pubCheck kw c = stOK → (if n = 0 then (s.g, [], false) else s.g.cmdRead c (c.f 8 8) n) = (h, data, false) →
        c.loc (c.f 0 8) = .fab a →
        let ward := match s.g.siteAt a with | some t => t.e.ward | none => c.f 24 8
        exec (.publishCommand k) s = .next (s.withG (s.g.cohSettle ((h.cmdRun kw c.idx 1).engIssue
          ⟨ownHdr tyPUBLISH 3 kw a n 0 ward, leBytes 4 (c.f 16 4) ++ zeros 4, data⟩ (.command kw c.idx)))))) ∧
    (s.g.cmdReady k opSCHEDULE = some c →
      let st := s.g.schedCheck kw c
      let code := s.g.spanCode kw c (c.f 0 8) (c.f 8 4) false
      (st ≠ stOK → exec (.schedule k) s = .next (s.withG (s.g.cmdRefused kw c st))) ∧
      (st = stOK → code ≠ stOK → exec (.schedule k) s = .next (s.withG (s.g.cmdRefused kw c code))) ∧
      (∀ h b bad, st = stOK → code = stOK → s.g.cmdRead c (c.f 0 8) (c.f 8 4) = (h, b, bad) →
        let no := if bad then stPOISONED else if c.f 8 4 ≠ 32 + 32 * field b 4 4 then stLENGTH else h.schedRefusal b
        (no ≠ stOK → exec (.schedule k) s = .next (s.withG (s.g.cohSettle (h.cmdDone kw c.idx no)))) ∧
        (no = stOK → exec (.schedule k) s = .next (s.withG (s.g.cohSettle ((h.acceptSched kw b).cmdDone kw c.idx stOK)))))) ∧
    (∀ row, (row = .lendCommand k ∧ c.f 2 1 = 1) ∨ (row = .reclaimCommand k ∧ c.f 2 1 = 2) → s.g.cmdReady k opLEND = some c →
      (s.g.lendCheck kw c ≠ stOK → exec row s = .next (s.withG (s.g.cmdRefused kw c (s.g.lendCheck kw c)))) ∧
      (s.g.lendCheck kw c = stOK → exec row s = .next (s.withG
        (((s.g.cmdRun kw c.idx 1).updCmd kw c.idx (fun d => { d with sentAt := s.g.time })).engIssue
          ⟨ownHdr (if c.f 2 1 = 1 then tyLEND else tyRECLAIM) 6 kw (mkAddr (c.f 0 2) 0) 0 0 0,
            leBytes 8 (c.f 8 8) ++ leBytes 4 (c.f 16 4) ++ leBytes 2 (c.f 4 2) ++ zeros 2, []⟩ (.command kw c.idx))))) ∧
    (s.g.cmdReady k opFENCE = some c →
      (fenceCheck c ≠ stOK → exec (.fenceCommand k) s = .next (s.withG (s.g.cmdRefused kw c (fenceCheck c)))) ∧
      (fenceCheck c = stOK → s.g.earlierDone kw c.idx = false → exec (.fenceCommand k) s = .next s) ∧
      (fenceCheck c = stOK → s.g.earlierDone kw c.idx = true →
        let g := s.g.cmdRun kw c.idx 0
        (s.g.on F.MAP_CTRL_REACH = true → c.fenceNodes = [] → exec (.fenceCommand k) s = .next (s.withG (g.fencesMet kw c.idx false))) ∧
        (∀ targets, targets = (if s.g.on F.MAP_CTRL_REACH then c.fenceNodes.map some else [none]) → targets ≠ [] →
          let fs := g.req.fences ++ targets.map (fun t => (⟨kw, c.idx, g.fenceTags kw t, false⟩ : FenceSt))
          exec (.fenceCommand k) s = .next (s.withG (({ g with req := { g.req with fences := fs } }).fencesSettle)))))

/-- R255, R256, R267 to R277: the walks of a VA command that is TRANSLATING end in its pages, or in its fault; a page holds the address it was
walked for and is 32 MiB or 1 GiB, aligned; a FAULTED command goes on as its pages and host granules come; AFTER is released once every earlier
command is COMPLETE; a command that has ended writes its record where its queue has room, and its entry is freed; a write of HEAD frees entries
and re-arms the queue; an invalidation drops the walk cache's entries of its address space and is DONE once the walks under way have ended. -/
def Obligations.CommandLife : Prop :=
  ∀ (s : State) (k : CmdRef),
    let kw := k.kw.val
    (∀ c, s.g.cmd? kw k.idx = some c → s.g.hasp = false →
      (c.st ≠ .translating → exec (.translationEnd k) s = .next s) ∧
      (c.st = .translating → c.op ≠ opGATHER →
        (∀ h ps f, s.g.mapSpans c.asid (c.spans 0) [] = (h, ps, some f) → exec (.translationEnd k) s = .next (s.withG (s.g.cohSettle
          ((h.inc F.SUB_XLATE_EVENTS_FAULTS 1).cmdEnd kw c.idx f.1 f.2)))) ∧
        (∀ h ps, s.g.mapSpans c.asid (c.spans 0) [] = (h, ps, none) →
          exec (.translationEnd k) s = .next (s.withG (s.g.cohSettle (h.xlated kw c ps 0))))) ∧
      (c.st = .translating → c.op = opGATHER →
        (∀ h ps f, s.g.mapSpans c.asid [c.indexSpan] [] = (h, ps, some f) → exec (.translationEnd k) s = .next (s.withG (s.g.cohSettle
          ((h.inc F.SUB_XLATE_EVENTS_FAULTS 1).cmdEnd kw c.idx f.1 f.2)))) ∧
        (∀ h ips, s.g.mapSpans c.asid [c.indexSpan] [] = (h, ips, none) →
          let c1 : Cmd := { c with pages := ips }
          let c2 : Cmd := { c1 with fill := c1.hostGranules c.indexSpan.1 c.indexSpan.2.1 }
          (h.framesHeld c2 = false ∨ h.fillLeft c2 ≠ [] →
            exec (.translationEnd k) s = .next (s.withG (s.g.cohSettle ((h.updCmd kw c.idx (fun _ => c2)).cmdSettle kw c.idx)))) ∧
          (∀ j tb l ps, h.framesHeld c2 = true → h.fillLeft c2 = [] → h.tableBytes c2 = (j, tb) → j.mapSpans c.asid (c.spans tb) ips = (l, ps, none) →
            exec (.translationEnd k) s = .next (s.withG (s.g.cohSettle (l.xlated kw c2 ps tb)))))) ∧
      (c.st ≠ .faulted → exec (.pagesResident k) s = .next s ∧ ∀ gs, exec (.hostFillEnd k gs) s = .next s) ∧
      (c.st = .faulted → exec (.pagesResident k) s = .next (s.withG (s.g.cmdSettle kw k.idx)) ∧
        ∀ gs, exec (.hostFillEnd k gs) s = .next (s.withG ((gs.foldl (fun h x => if c.fill.contains x.1 then h.granuleFill c x.1 x.2 else h) s.g).cmdSettle
          kw k.idx))) ∧
      (c.st = .ready → c.after = true → s.g.earlierDone kw k.idx = true →
        exec (.afterRelease k) s = .next (s.withG (s.g.updCmd kw k.idx (fun d => { d with released := true })))) ∧
      (c.st ≠ .ready ∨ c.after = false ∨ s.g.earlierDone kw k.idx = false → exec (.afterRelease k) s = .next s) ∧
      (c.st ≠ .done → exec (.commandComplete k) s = .next s) ∧
      (c.st = .done → s.g.sub.waiting.contains (c.cq, kw, c.idx) = true →
        exec (.commandComplete k) s = .next (s.withG (s.g.cohSettle (s.g.cqDrain c.cq)))) ∧
      (∀ d, c.st = .done → s.g.sub.waiting.contains (c.cq, kw, c.idx) = false → (s.g.drainHost kw c).cmd? kw k.idx = some d →
        let h := if d.status = stOK then s.g.drainHost kw c else (s.g.drainHost kw c).inc F.SUB_CMD_NOT_OK 1
        ((d.quiet = true ∧ d.status = stOK) ∨ (h.cq d.cq).valid = false → exec (.commandComplete k) s = .next (s.withG (h.cmdGone kw d.idx))) ∧
        ((d.quiet = false ∨ d.status ≠ stOK) → (h.cq d.cq).valid = true → exec (.commandComplete k) s = .next (s.withG (s.g.cohSettle
          (({ h with sub := { h.sub with waiting := h.sub.waiting ++ [(d.cq, kw, d.idx)] } }).cqDrain d.cq)))))) ∧
    (∀ (g h : Gikan) asid va p, g.walk asid va = (h, .inr p) → p.va ≤ va ∧ va < p.va + p.size ∧ (p.size = 2 ^ 25 ∨ p.size = 2 ^ 30) ∧
      p.va % p.size = 0 ∧ p.addr % p.size = 0) ∧
    (∀ (g : Gikan) kw idx c, g.cmd? kw idx = some c → c.whole = true → g.pinsHere c = true → (∀ p ∈ c.pages, p.host = none) →
      ∃ d, (g.cmdSettle kw idx).cmd? kw idx = some d ∧ d.st = .ready) ∧
    (∀ (g : Gikan) q kw idx c, g.cmd? kw idx = some c →
      ((g.cq q).records ≤ (g.cq q).used → g.writeRecordOf q kw idx = g) ∧
      ((g.cq q).used < (g.cq q).records → ((g.writeRecordOf q kw idx).cq q).tail = ((g.cq q).tail + 1) % 2 ^ 32 ∧
        ((g.writeRecordOf q kw idx).cq q).head = (g.cq q).head ∧ (g.writeRecordOf q kw idx).cmd? kw idx = none)) ∧
    (∀ w : RegW, w.half ≠ .high →
      (∀ n h r, s.g.reaches8 w (offOf (F.SUB_Q_HEAD_HEAD 0)) → n = s.g.get (F.SUB_Q_INDEX_QUEUE 0) → n < 256 →
        s.g.ringHead (s.g.cq n) (bits w.data.toNat 0 32) = (h, r) →
        exec (.subCqHeadWrite w) s = .next (s.withG (s.g.cohSettle ((h.setCq n r).cqDrain n))) ∧ r.head = bits w.data.toNat 0 32) ∧
      (∀ n h r, s.g.reaches8 w (offOf (F.SUB_Q_HEAD_HEAD 1)) → n = s.g.get (F.SUB_Q_INDEX_QUEUE 1) →
        s.g.ringHead (s.g.mq n) (bits w.data.toNat 0 32) = (h, r) →
        exec (.subMqHeadWrite w) s = .next (s.withG (h.setMq n r)) ∧ r.head = bits w.data.toNat 0 32 ∧ r.tail = (s.g.mq n).tail)) ∧
    (∀ w : RegW, s.g.reaches8 w (offOf F.SUB_XLATE_INVAL_GO) →
      let t := trig w F.SUB_XLATE_INVAL_GO
      let asid := (wrField t F.SUB_XLATE_INVAL_ASID).1 &&& (wrField t F.SUB_XLATE_INVAL_ASID).2
      ∃ u, exec (.subXlateInvalGo w) s = .next u ∧ u.g.on F.SUB_XLATE_INVAL_BUSY = true ∧
        u.g.sub.walks = s.g.sub.walks.filter (fun x => !(wrOne t F.SUB_XLATE_INVAL_ALL || x.1 == asid)) ∧ u.g.mem = s.g.mem ∧
        (∀ kw idx c, s.g.cmd? kw idx = some c → c.st = .translating → ∃ l, u.g.sub.inval = some l ∧ (kw, idx) ∈ l)) ∧
    (s.g.hasp = false →
      (s.g.sub.inval = none → exec .xlateInvalDone s = .next s) ∧
      (∀ l, s.g.sub.inval = some l →
        let walks := l.any (fun x => match s.g.cmd? x.1 x.2 with | some c => c.st == .translating | none => false)
        (walks = true → exec .xlateInvalDone s = .next s) ∧
        (walks = false → ∃ t, exec .xlateInvalDone s = .next t ∧ t.g.sub.inval = none ∧ t.g.on F.SUB_XLATE_INVAL_BUSY = false ∧
          t.g.on F.SUB_XLATE_INVAL_DONE = true ∧ t.g.sub.walks = s.g.sub.walks ∧
          t.g.get F.SUB_XLATE_EVENTS_INVALS = satAdd F.SUB_XLATE_EVENTS_INVALS.wid (s.g.get F.SUB_XLATE_EVENTS_INVALS) 1)))

/-! ## Links and optics (chapter 13) -/

/-- R280 to R287: a flit in sequence that neither an uncorrectable codeword nor its CRC makes bad is taken slot by slot, and a framing error makes
the port retrain with cause 6; one out of sequence, and a bad one, is discarded; a good IDLE flit gives its acknowledgement and credits alone; an
acknowledgement frees the held flits up to its number; a replay, and a NAK sent again, come at their times and not before; each flit time sends the
replayed flit, a new DATA flit or an IDLE flit, with the acknowledgement and credit fields of the moment and its CRC. -/
def Obligations.Flits : Prop :=
  ∀ (s : State) (p : Fin 32),
    (∀ f, s.g.lnkUp p = false → exec (.dataFlit p f) s = .next s ∧ exec (.idleFlit p f) s = .next s) ∧
    (∀ f, s.g.lnkUp p = true → let h := s.g.fecFlit p
      (flitBad f = true → exec (.idleFlit p f) s = .next (s.withG (h.badFlit p)) ∧
        exec (.dataFlit p f) s = .next (s.withG ((h.badFlit p).discardFlit p))) ∧
      (flitBad f = false → exec (.idleFlit p f) s = .next (s.withG (h.takeHeader p f))) ∧
      (flitBad f = false → (h.takeHeader p f).lnkUp p = true →
        let k := h.takeHeader p f
        let l := k.link p
        (f.seq ≠ l.expect → exec (.dataFlit p f) s = .next (s.withG (k.discardFlit p))) ∧
        (f.seq = l.expect →
          let l1 : PortLnk := { l with expect := (l.expect + 1) % 4096, accepted := true, nak := none, nakDue := false, rxBytes := l.rxBytes + 16 * occupied f }
          (∀ m, (k.setLink p l1).takeSlots p f (List.range 15) = (m, true) → exec (.dataFlit p f) s = .next (s.withG m)) ∧
          (∀ m, (k.setLink p l1).takeSlots p f (List.range 15) = (m, false) →
            exec (.dataFlit p f) s = .next (s.withG ((m.inc (F.LNK_COUNT2_FRAME_ERRORS p) 1).retrain p 6)))))) ∧
    (∀ (l : PortLnk) seq now, (l.ackTo seq now).held = l.held ∨
      ∃ i f, l.held[i]? = some f ∧ f.1.seq = seq ∧ (l.ackTo seq now).held = l.held.drop (i + 1) ∧ (l.ackTo seq now).inRow = 0) ∧
    (∀ f rest, (s.g.link p).held = f :: rest → s.g.lnkUp p = true →
      let l := s.g.link p
      (s.g.now < l.waitFrom + s.g.replayNs p → exec (.replayTimeout p) s = .next s) ∧
      (l.waitFrom + s.g.replayNs p ≤ s.g.now → l.inRow + 1 < s.g.get (F.LNK_RETRY_RETRY_MAX p) →
        ∃ t, exec (.replayTimeout p) s = .next t ∧ (t.g.link p).replay = some 0 ∧ (t.g.link p).held = l.held ∧ (t.g.link p).inRow = l.inRow + 1 ∧
          t.g.lnkState p = s.g.lnkState p ∧
          t.g.get (F.LNK_COUNT0_REPLAYS p) = satAdd (F.LNK_COUNT0_REPLAYS p).wid (s.g.get (F.LNK_COUNT0_REPLAYS p)) 1) ∧
      (l.waitFrom + s.g.replayNs p ≤ s.g.now → max 1 (s.g.get (F.LNK_RETRY_RETRY_MAX p)) ≤ l.inRow + 1 →
        exec (.replayTimeout p) s = .next (s.withG (((s.g.inc (F.LNK_COUNT0_REPLAYS p) 1).setLink p
          { l with replay := some 0, replayFrom := some (f.1.seq, s.g.now), inRow := l.inRow + 1, waitFrom := s.g.now }).retrain p 5)))) ∧
    (∀ t, (s.g.link p).nak = some t → s.g.lnkUp p = true →
      let due := t + max 1000 (s.g.get (F.LNK_RETRY_NAK_NS p))
      (s.g.now < due → exec (.nakTimeout p) s = .next s) ∧
      (due ≤ s.g.now → exec (.nakTimeout p) s = .next (s.withG (s.g.setLink p { s.g.link p with nak := some s.g.now, nakDue := true })))) ∧
    (let l := s.g.link p
     (s.g.lnkState p = 4 → exec (.flitSend p) s = .next (s.withG (s.g.sendFlit p idle0))) ∧
     (s.g.lnkState p ≠ 4 → s.g.lnkUp p = false → exec (.flitSend p) s = .next s) ∧
     (s.g.lnkUp p = true → l.txSched = none →
       (∀ i f, l.replay = some i → l.held[i]? = some f → exec (.flitSend p) s = .next (s.withG
         ((s.g.setLink p { l with replay := if i + 1 < l.held.length then some (i + 1) else none }).sendFlit p f.1))) ∧
       (l.replay = none → 3072 ≤ l.held.length → exec (.flitSend p) s = .next (s.withG (s.g.sendFlit p idle0))) ∧
       (∀ h bytes start, l.replay = none → l.held.length < 3072 → Gikan.fillSlots 15 0 s.g p [] 0 = (h, bytes, start) →
         (bytes = [] → exec (.flitSend p) s = .next (s.withG (h.sendFlit p idle0))) ∧
         (bytes ≠ [] → ∃ k : Gikan, exec (.flitSend p) s = .next (s.withG (k.sendFlit p
             { idle0 with kind := 1, seq := (h.link p).nextSeq, start := start, slots := fit bytes 240 })) ∧
           (k.link p).nextSeq = ((h.link p).nextSeq + 1) % 4096 ∧ (k.link p).held.length = (h.link p).held.length + 1 ∧
           (k.link p).held.dropLast = (h.link p).held)))) ∧
    (∀ (g : Gikan) (f : Flit), ∃ o, (g.sendFlit p f).out = g.out ++ [.flit p o] ∧ o.kind = f.kind ∧ o.seq = f.seq ∧ o.start = f.start ∧
      o.slots = f.slots ∧ o.ackSeq = ((g.link p).expect + 4095) % 4096 ∧ (o.nak = 1 ↔ (g.link p).nakDue = true) ∧
      o.crTcB = (o.crTcA + 1) % 8 ∧ o.crc = flitCrc o ∧ ((g.sendFlit p f).link p).nakDue = false)

/-- R290 to R293, R297: each event of bring-up moves a port from the state that it belongs to, and from no other: light, lock, the end of training
with the width both sides allow, the two SEENs of PARAM, a limit passed, a backoff ended; what PARAM comes to is ACTIVE only if every check
passes; software takes a port to SIGNAL or DISABLED; the loss of a lane in use makes it retrain with cause 1. -/
def Obligations.BringUp : Prop :=
  ∀ (s : State) (p : Fin 32),
    (∀ (g : Gikan) n, n < 16 → (g.lnkEnter p n).lnkState p = n ∧ ((g.lnkEnter p n).link p).since = g.now ∧
      (g.lnkFail p n).lnkState p = 7 ∧ (g.lnkFail p n).get (F.LNK_STATUS_DOWN_CAUSE p) = n ∧
      (g.lnkUp p = true → (g.retrainOne p n).1.lnkState p = 7 ∧ (g.retrainOne p n).1.get (F.LNK_STATUS_DOWN_CAUSE p) = n) ∧
      (g.on F.SEC_STATUS_FACTORY_TEST = false → (g.lnkSignal p).lnkState p = 1 ∧ ((g.lnkSignal p).link p).got = none)) ∧
    (s.g.lnkState p = 1 → (s.g.link p).feedLost = false → exec (.linkLight p) s = .next (s.withG (s.g.lnkEnter p 2))) ∧
    (s.g.lnkState p ≠ 1 ∨ (s.g.link p).feedLost = true → exec (.linkLight p) s = .next s) ∧
    (s.g.lnkState p = 2 → exec (.codewordLock p) s = .next (s.withG (s.g.lnkEnter p 3))) ∧
    (s.g.lnkState p ≠ 2 → exec (.codewordLock p) s = .next s) ∧
    (∀ own partner : BitVec 8,
      (s.g.lnkState p ≠ 3 → exec (.trainDone p own partner) s = .next s) ∧
      (s.g.lnkState p = 3 →
        let h := (s.g.laneLoops p).trainFfe p
        (widthOf (s.g.get (F.LNK_CTRL_WIDTH_MAX p)) own.toNat partner.toNat = none →
          exec (.trainDone p own partner) s = .next (s.withG (h.lnkFail p 3))) ∧
        (∀ c, widthOf (s.g.get (F.LNK_CTRL_WIDTH_MAX p)) own.toNat partner.toNat = some c →
          exec (.trainDone p own partner) s = .next (s.withG ((h.set (F.LNK_STATUS_WIDTH p) c).lnkEnter p 4)) ∧
          ∀ i, i < 8 / 2 ^ c → own.toNat.testBit i = true ∧ partner.toNat.testBit i = true))) ∧
    (let st := s.g.lnkState p
     let due := (s.g.link p).since + lnkLimit st
     (1 ≤ st → st ≤ 4 → due ≤ s.g.now → exec (.linkStateTimeout p) s = .next (s.withG (s.g.lnkFail p st))) ∧
     (st = 0 ∨ 4 < st ∨ s.g.now < due → exec (.linkStateTimeout p) s = .next s)) ∧
    (let due := (s.g.link p).since + (s.g.link p).backoffNs
     (s.g.lnkState p = 7 → due ≤ s.g.now → exec (.backoffEnd p) s = .next (s.withG (s.g.lnkSignal p))) ∧
     (s.g.lnkState p ≠ 7 ∨ s.g.now < due → exec (.backoffEnd p) s = .next s)) ∧
    (let l := s.g.link p
     let l1 : PortLnk := { l with paramAt := some s.g.now, sentSeen := l.sentSeen || (s.g.ownParam p).seen == 1 }
     (s.g.lnkState p = 4 → (l.paramAt = none ∨ ∃ t, l.paramAt = some t ∧ t + 100000 ≤ s.g.now) →
       exec (.paramSend p) s = .next (s.withG (((s.g.setLink p l1).sendFlit p (msgFlit 3 (paramSlots (s.g.ownParam p)))).paramSettle p))) ∧
     (s.g.lnkState p ≠ 4 ∨ (∃ t, l.paramAt = some t ∧ s.g.now < t + 100000) → exec (.paramSend p) s = .next s)) ∧
    (∀ m, (s.g.lnkState p ≠ 4 → exec (.param p m) s = .next s) ∧
      (s.g.lnkState p = 4 → ∃ h : Gikan, exec (.param p m) s = .next (s.withG (h.paramSettle p)) ∧
        h.get (F.LNK_STATUS_PARTNER_ROLE p) = m.role % 2 ^ (F.LNK_STATUS_PARTNER_ROLE p).wid ∧
        h.get (F.LNK_STATUS_PARTNER_NODE p) = m.node % 2 ^ (F.LNK_STATUS_PARTNER_NODE p).wid ∧
        h.get (F.LNK_PARTNER_FW_VERSION p) = m.fwVersion % 2 ^ (F.LNK_PARTNER_FW_VERSION p).wid ∧
        (h.link p).got = some m ∧ (h.link p).seenIn = ((s.g.link p).seenIn || m.seen == 1))) ∧
    (∀ (g : Gikan) m st down q, (g.link p).got = some m →
      ((g.link p).seenIn = false ∨ (g.link p).sentSeen = false → g.paramSettle p = g) ∧
      ((g.link p).seenIn = true → (g.link p).sentSeen = true → g.paramOutcome p m = (st, down, q) →
        (st = 5 ∨ st = 6 ∨ st = 7 ∨ st = 8) ∧
        (st = 5 → g.paramSettle p = (g.set (F.LNK_STATUS_QCAUSE p) q).lnkOpen p 5 m ∧ m.afpVersion / 256 = 2 ∧ m.reservedNonzero = false ∧
          m.credits.getD 0 0 ≠ 0 ∧ g.on (F.LNK_CTRL_QUARANTINE p) = false ∧ m.reach = g.get F.MAP_CTRL_REACH ∧
          g.get F.GLB_COMPAT_FW_MIN ≤ m.fwVersion ∧ m.fwVersion ≤ g.get F.GLB_COMPAT_FW_MAX ∧ m.fwMin ≤ g.get F.GLB_FW_FW_VERSION ∧
          g.get F.GLB_FW_FW_VERSION ≤ m.fwMax ∧ (m.role = 0 → m.digest = g.cfgDigest)) ∧
        (st = 7 → g.paramSettle p = (g.set (F.LNK_STATUS_QCAUSE p) q).lnkFail p down))) ∧
    (∀ w : RegW, s.g.reaches8 w (offOf (F.LNK_CTRL_ENABLE p)) → s.g.sealed = true →
      let fs := [F.LNK_CTRL_ENABLE p, F.LNK_CTRL_QUARANTINE p, F.LNK_CTRL_EQ_FREEZE p, F.LNK_CTRL_BIAS_FREEZE p, F.LNK_CTRL_WIDTH_MAX p]
      (let v := trig w (F.LNK_CTRL_RETRAIN p)
       let h := s.g.putFields v (offOf (F.LNK_CTRL_ENABLE p)) fs
       wrOne v (F.LNK_CTRL_CLR_CNT p) = false → h.on (F.LNK_CTRL_ENABLE p) = true →
         exec (.lnkRetrainWrite w p) s = .next (s.withG ((h.lnkLeave p).lnkSignal p))) ∧
      (let h := s.g.putFields w (offOf (F.LNK_CTRL_ENABLE p)) fs
       wrOne w (F.LNK_CTRL_CLR_CNT p) = false →
         (h.on (F.LNK_CTRL_ENABLE p) = false → s.g.lnkState p = 0 → exec (.lnkEnableWrite w p) s = .next (s.withG h)) ∧
         (h.on (F.LNK_CTRL_ENABLE p) = false → s.g.lnkState p ≠ 0 → exec (.lnkEnableWrite w p) s = .next (s.withG
           (((h.lnkLeave p).set (F.LNK_STATUS_DOWN_CAUSE p) 8).lnkEnter p 0))) ∧
         (wrOne w (F.LNK_CTRL_ENABLE p) = true → wrOne w (F.LNK_CTRL_RETRAIN p) = false →
           (s.g.lnkState p = 0 ∨ s.g.lnkState p = 8 → exec (.lnkEnableWrite w p) s = .next (s.withG (h.lnkSignal p))) ∧
           (s.g.lnkState p ≠ 0 → s.g.lnkState p ≠ 8 → exec (.lnkEnableWrite w p) s = .next (s.withG h))))) ∧
    (∀ lane : Fin 8,
      (s.g.lnkUp p = true → lane < s.g.rxLanes p →
        exec (.laneLoss p lane) s = .next (s.withG ((s.g.inc (F.LNK_LANE_FEC_LOCK_LOSSES p lane) 1).retrain p 1))) ∧
      (s.g.lnkUp p = false ∨ s.g.rxLanes p ≤ lane → exec (.laneLoss p lane) s = .next s))

/-- R298, R299, R301, R390: every 1 ms a receiver reports each lane and asks for steps of the partner's FFE, or for none while its loop is frozen; a
report received steps the FFE of each lane by one, and is recorded; every 10 ms a feed's setpoint follows the lowest report by 0.5 dB, within its
limits, and CHANGED and an interrupt of reason 2 tell of it. (What training and the loops settle at are open values; that only ports which carry
flits count for a feed's lowest report is the model's reading, assumption 95.) -/
def Obligations.LaneLoops : Prop :=
  ∀ (s : State),
    (∀ p : Fin 32,
      let l := s.g.link p
      (s.g.lnkUp p = false ∨ (∃ t, l.laneAt = some t ∧ s.g.now < t + 1000000) → exec (.laneStatusSend p) s = .next s) ∧
      (s.g.lnkUp p = true → (l.laneAt = none ∨ ∃ t, l.laneAt = some t ∧ t + 1000000 ≤ s.g.now) →
        ∃ t m o, exec (.laneStatusSend p) s = .next t ∧ Out.flit p o ∈ t.g.out ∧ o.kind = 3 ∧ o.slots = fit (laneSlots m) 240 ∧
          (t.g.link p).laneAt = some s.g.now ∧ t.g.mem = s.g.mem ∧
          m.rxOma = (List.range 8).map (fun i => sext (t.g.get (F.LNK_LANE_OPT_RX_OMA p i)) 8) ∧ m.ffeReq.length = 8 ∧
          (s.g.eqFrozen p = true → ∀ r ∈ m.ffeReq, r = 0)) ∧
      (∀ m, s.g.lnkUp p = false → exec (.laneStatus p m) s = .next s) ∧
      (∀ m, s.g.lnkUp p = true → ∃ t, exec (.laneStatus p m) s = .next t ∧ t.g.lnk = s.g.lnk ∧ t.g.mem = s.g.mem ∧ ∀ i, i < 8 →
        t.g.get (F.LNK_LANE_OPT_PARTNER_RX_OMA p i) = toBits (m.rxOma.getD i 0) 8 ∧
        ∀ f b, (f = F.LNK_LANE_EQ_FFE_PRE p i ∧ b = 0) ∨ (f = F.LNK_LANE_EQ_FFE_MAIN p i ∧ b = 2) ∨ (f = F.LNK_LANE_EQ_FFE_POST p i ∧ b = 4) →
          t.g.get f = if s.g.eqFrozen p then s.g.get f else ffeStep (s.g.get f) (bits (m.ffeReq.getD i 0) b 2) % 64)) ∧
    (∀ (t f : Fin 4),
      let p : Nat := 8 * t + 2 * f
      let set_ := s.g.get (F.LNK_LASER_REQ_SETPOINT t f)
      (∀ x, (s.g.link p).loopAt = some x → s.g.now < x + 10000000 → exec (.laserLoop t f) s = .next s) ∧
      (((s.g.link p).loopAt = none ∨ ∃ x, (s.g.link p).loopAt = some x ∧ x + 10000000 ≤ s.g.now) → set_ < 256 →
        ∃ u, exec (.laserLoop t f) s = .next u ∧ (u.g.link p).loopAt = some s.g.now ∧ u.g.mem = s.g.mem ∧
          u.g.get (F.LNK_LASER_REQ_SETPOINT t f) = (match s.g.feedOma t f with
            | none => set_
            | some v => if v < -26 then min 200 (set_ + 5) else if -6 < v then max 160 (set_ - 5) else set_) ∧
          (u.g.get (F.LNK_LASER_REQ_SETPOINT t f) ≠ set_ → u.g.on (F.LNK_LASER_REQ_CHANGED t f) = true) ∧
          (u.g.get (F.LNK_LASER_REQ_SETPOINT t f) = set_ → u.g.out = s.g.out) ∧
          (u.g.get (F.LNK_LASER_REQ_SETPOINT t f) ≠ set_ → s.g.on F.MGT_I3C_IBI_ENABLED = true → s.g.flt.ibi.get? 2 ≠ some s.g.span →
            u.g.out = s.g.out ++ [.ibi 2])))

/-- R300: feed f of tile t lights ports 8t + 2f and 8t + 2f + 1. Its loss sets LOSS, is a contained fault of the tile and of both ports, and makes
each port retrain, or go to BACKOFF, with cause 7; while the feed is away a port in SIGNAL or BACKOFF stays in one of them; its return lets the two
ports go on. -/
def Obligations.LaserFeeds : Prop :=
  ∀ (s : State),
    (∀ (t f : Fin 4),
      let lost := (s.g.set (F.LNK_TILE_FEED_LOSS t f) 1).contained (grpTile t) f (offOf (F.LNK_TILE_FEED_LOSS t f))
      let one := fun (h : Gikan) (p : Nat) =>
        let k := (h.setLink p { h.link p with feedLost := true }).contained (grpPort p) 0xFF (offOf (F.LNK_TILE_FEED_LOSS t f))
        if k.lnkUp p then k.retrain p 7 else if k.lnkState p = 2 ∨ k.lnkState p = 3 ∨ k.lnkState p = 4 then k.lnkFail p 7 else k
      exec (.laserFeedLoss t f) s = .next (s.withG (one (one lost (8 * t + 2 * f)) (8 * t + 2 * f + 1))) ∧
      lost.on (F.LNK_TILE_FEED_LOSS t f) = true ∧ lost.bitOf (F.FLT_WORDS_GROUPS 1) (grpTile t) = true) ∧
    (∀ (t f : Fin 4), ∃ u, exec (.laserFeedReturn t f) s = .next u ∧ u.g.csr = s.g.csr ∧ u.g.mem = s.g.mem ∧
      ∀ p, (u.g.link p) = if p = 8 * t + 2 * f ∨ p = 8 * t + 2 * f + 1 then { s.g.link p with feedLost := false } else s.g.link p) ∧
    (∀ p : Fin 32, (s.g.link p).feedLost = true → s.g.lnkState p = 1 ∨ s.g.lnkState p = 7 →
      exec (.linkLight p) s = .next s ∧
      (∃ u, exec (.backoffEnd p) s = .next u ∧ (u.g.lnkState p = 1 ∨ u.g.lnkState p = 7) ∧ (u.g.link p).feedLost = true) ∧
      (∃ u, exec (.linkStateTimeout p) s = .next u ∧ (u.g.lnkState p = 1 ∨ u.g.lnkState p = 7) ∧ (u.g.link p).feedLost = true))

/-! ## The switch core (chapter 14) -/

/-- R308, R310: whatever is matched in a slot, no input sends and no output takes more cells than its kind moves in a slot, no pair matches twice
but one of two wide ports, and no more than 16 cells cross the bridge in each direction. -/
def Obligations.SlotLimits : Prop :=
  ∀ (g : Gikan) (n : Nat),
    let t := g.iterations n Slot.zero
    (∀ i, (t.pairs.filter (fun m => m.1 == i)).length ≤ portCells i) ∧
    (∀ o, (t.pairs.filter (fun m => m.2.1 == o)).length ≤ portCells o) ∧
    (∀ i o, wideXPort i = false ∨ wideXPort o = false → (t.pairs.filter (fun m => m.1 == i && m.2.1 == o)).length ≤ 1) ∧
    (∀ d, (t.pairs.filter (fun m => portDie m.1 == d && portDie m.2.1 != d)).length ≤ 16)

/-- R308, R313 to R318: a slot moves one cell for each match of its iterations and accrues the shapers' tokens; a shaper's write sets its count full
or to zero; an entry of the standby gate list is stored and one of the active list refused; a swap is armed, disarmed or refused by its boundary,
and made at it; a gate entry ends at its duration; the queue selected is
sampled when 64 × PERIOD cycles have passed since the last sample. -/
def Obligations.SwitchCore : Prop :=
  ∀ (s : State),
    exec .schedulerSlot s = .next (s.withG s.g.slot) ∧
    (∀ (g : Gikan) (i o c : Nat) v rest, g.xbar.voq.getD (voqKey i o c) [] = v :: rest →
      (v.sent + 1 < v.cells → (g.moveCell (i, o, c)).xbar.voq.getD (voqKey i o c) [] = { v with sent := v.sent + 1 } :: rest) ∧
      (v.cells ≤ v.sent + 1 → (g.moveCell (i, o, c)).xbar.voq.getD (voqKey i o c) [] = rest ∧
        (o < 32 → (g.moveCell (i, o, c)).xbar.tx.getD o [] = g.xbar.tx.getD o [] ++ [v.pkt]) ∧
        (32 ≤ o → (g.moveCell (i, o, c)).xbar.inbox.getD o [] = g.xbar.inbox.getD o [] ++ [v.pkt]))) ∧
    (∀ (w : RegW) (o : Fin 48) (c : Fin 8), s.g.reaches8 w (offOf (F.XBAR_SHAPER_EN o c)) →
      let h := s.g.putFields w (offOf (F.XBAR_SHAPER_EN o c))
        [F.XBAR_SHAPER_RATE_MBPS o c, F.XBAR_SHAPER_EN o c, F.XBAR_SHAPER_RESET_ZERO o c, F.XBAR_SHAPER_BURST o c]
      ∃ t, exec (.xbarShaperWrite w o c) s = .next t ∧ t.g.tokensOf o c = (if h.on (F.XBAR_SHAPER_RESET_ZERO o c) then 0 else h.shCap o c) ∧
        (∀ o' c' : Nat, shKey o' c' ≠ shKey o c → t.g.tokensOf o' c' = s.g.tokensOf o' c') ∧ t.g.mem = s.g.mem) ∧
    (∀ w : RegW, s.g.reaches8 w (offOf F.XBAR_GATE_ENTRY_GO) →
      (∀ f ∈ [F.XBAR_GATE_ENTRY_PORT, F.XBAR_GATE_ENTRY_LIST, F.XBAR_GATE_ENTRY_INDEX, F.XBAR_GATE_ENTRY_DUR_NS, F.XBAR_GATE_ENTRY_MASK],
        s.g.get f < 2 ^ f.wid) →
      let v := trig w F.XBAR_GATE_ENTRY_GO
      let p := s.g.wrValue v F.XBAR_GATE_ENTRY_PORT
      let l := s.g.wrValue v F.XBAR_GATE_ENTRY_LIST
      let i := s.g.wrValue v F.XBAR_GATE_ENTRY_INDEX
      (s.g.get (F.XBAR_GATE_CTRL_ACTIVE p) = l → ∃ t, exec (.xbarGateEntryGo w) s = .next t ∧ t.g.xbar = s.g.xbar ∧
        t.g.get F.XBAR_EVENTS_GATE_WRITE_REFUSED =
          satAdd F.XBAR_EVENTS_GATE_WRITE_REFUSED.wid (s.g.get F.XBAR_EVENTS_GATE_WRITE_REFUSED) 1) ∧
      (s.g.get (F.XBAR_GATE_CTRL_ACTIVE p) ≠ l → ∃ t, exec (.xbarGateEntryGo w) s = .next t ∧
        t.g.xbar.gates.get? (gateKey p l i) = some (s.g.wrValue v F.XBAR_GATE_ENTRY_DUR_NS, s.g.wrValue v F.XBAR_GATE_ENTRY_MASK) ∧
        ∀ k, k ≠ gateKey p l i → t.g.xbar.gates.get? k = s.g.xbar.gates.get? k)) ∧
    (∀ (w : RegW) (p : Fin 32), s.g.reaches8 w (offOf (F.XBAR_GATE_SWAP_AT_SWAP_AT p)) →
      let v := s.g.wrValue w (F.XBAR_GATE_SWAP_AT_SWAP_AT p)
      (v = 2 ^ 64 - 1 → ∃ t, exec (.xbarGateSwapAtWrite w p) s = .next t ∧ t.g.on (F.XBAR_GATE_STATUS_ARMED p) = false ∧
        t.g.get (F.XBAR_GATE_SWAP_AT_SWAP_AT p) = v) ∧
      (v < 2 ^ 64 - 1 → v < s.g.tickNo + 4 →
        exec (.xbarGateSwapAtWrite w p) s = .next (s.withG (s.g.set (F.XBAR_GATE_STATUS_SWAP_REFUSED p) 1))) ∧
      (v < 2 ^ 64 - 1 → s.g.tickNo + 4 ≤ v → ∃ t, exec (.xbarGateSwapAtWrite w p) s = .next t ∧ t.g.on (F.XBAR_GATE_STATUS_ARMED p) = true ∧
        t.g.get (F.XBAR_GATE_SWAP_AT_SWAP_AT p) = v ∧ t.g.get (F.XBAR_GATE_CTRL_ACTIVE p) = s.g.get (F.XBAR_GATE_CTRL_ACTIVE p))) ∧
    (∀ p : Fin 32, s.g.hasp = false → s.g.running = true →
      (s.g.on (F.XBAR_GATE_STATUS_ARMED p) = true → s.g.get (F.XBAR_GATE_SWAP_AT_SWAP_AT p) ≤ s.g.tickNo →
        ∃ t, exec (.gateSwap p) s = .next t ∧ t.g.get (F.XBAR_GATE_CTRL_ACTIVE p) = 1 - s.g.get (F.XBAR_GATE_CTRL_ACTIVE p) ∧
          t.g.on (F.XBAR_GATE_STATUS_ARMED p) = false ∧ t.g.get (F.XBAR_GATE_SWAP_AT_SWAP_AT p) = 2 ^ 64 - 1 ∧
          t.g.get (F.XBAR_GATE_STATUS_ENTRY p) = 0 ∧
          t.g.get (F.XBAR_GATE_STATUS_SWAPS p) = satAdd (F.XBAR_GATE_STATUS_SWAPS p).wid (s.g.get (F.XBAR_GATE_STATUS_SWAPS p)) 1) ∧
      (s.g.on (F.XBAR_GATE_STATUS_ARMED p) = false ∨ s.g.tickNo < s.g.get (F.XBAR_GATE_SWAP_AT_SWAP_AT p) → exec (.gateSwap p) s = .next s) ∧
      (let act := s.g.get (F.XBAR_GATE_CTRL_ACTIVE p)
       let i := s.g.get (F.XBAR_GATE_STATUS_ENTRY p)
       let t1 := s.g.xbar.gateAt.getD p 0 + (s.g.gateEntry p act i).1
       (i + 1 < s.g.gateLen p act → t1 ≤ s.g.time → ∃ t, exec (.gateEntryEnd p) s = .next t ∧ t.g.get (F.XBAR_GATE_STATUS_ENTRY p) = i + 1 ∧
         t.g.xbar.gateAt.get? p = some t1 ∧ t.g.xbar.gates = s.g.xbar.gates) ∧
       (s.g.gateLen p act ≤ i + 1 ∨ s.g.time < t1 → exec (.gateEntryEnd p) s = .next s))) ∧
    (s.g.hasp = false →
      (s.g.on F.XBAR_QSAMPLE_SEL_EN = false ∨ s.g.sampleDue = false → exec .queueSample s = .next s) ∧
      (∀ d n, s.g.on F.XBAR_QSAMPLE_SEL_EN = true → s.g.sampleDue = true → s.g.queueValues = (d, n) →
        exec .queueSample s = .next (s.withG (((s.g.queueSample).monitor 1 none none d).monitor 2 none none n)) ∧
        s.g.queueSample.get F.XBAR_QSAMPLE_DATA_DEPTH_LAST = min d 65535 ∧
        s.g.queueSample.get F.XBAR_QSAMPLE_DELAY_DELAY_LAST_NS = min n (2 ^ 32 - 1)))

/-! ## Compartments and trust (chapter 15) -/

/-- R320, R325 to R329: the write of a node's mask decides its membership; a write of SEC_SCRUB stops everything of its compartment, one while a
scrub is busy being refused and counted; the end of the stop phase, and of the scrub, give their times, LATE beyond 60 µs; what the clear phase
leaves holds no core, table slot or stored answer of the compartment; a view record of 64 bytes goes to its place once a tick, or is missed. -/
def Obligations.ScrubAndViews : Prop :=
  ∀ (s : State),
    (∀ w : RegW, s.g.reaches8 w (offOf F.SEC_MEMBER_DATA_MASK) → w.half = .full →
      let n := s.g.get F.SEC_MEMBER_INDEX_NODE
      s.g.memberWord < 2 ^ 16 → ∃ t, exec (.secMemberDataWrite w) s = .next t ∧
        (∀ c, t.g.memberOf n c = (decide (c < 16) && w.data.toNat.testBit c)) ∧ (∀ m c, m ≠ n → t.g.memberOf m c = s.g.memberOf m c) ∧
        t.g.csr = s.g.csr ∧ t.g.mem = s.g.mem) ∧
    (∀ w : RegW, s.g.reaches8 w (offOf F.SEC_SCRUB_GO) →
      let v := trig w F.SEC_SCRUB_GO
      let c := (wrField v F.SEC_SCRUB_CMPT).1 &&& (wrField v F.SEC_SCRUB_CMPT).2
      (s.g.on F.SEC_SCRUB_STATUS_BUSY = true → exec (.secScrubGo w) s = .next (s.withG (s.g.inc F.SEC_SCRUB_COUNTS_REFUSED 1))) ∧
      (s.g.on F.SEC_SCRUB_STATUS_BUSY = false →
        let b := ((s.g.setBitOf F.SEC_CMPT_STATE_SCRUBBING c).set F.SEC_SCRUB_STATUS_BUSY 1).set F.SEC_SCRUB_STATUS_CMPT c
        let units := (b.eng.units.filter (fun e => e.2.run.any (fun r => r.item.cmpt == c) || e.2.queue.any (fun i => i.cmpt == c))).map (fun e => e.1)
        let h := ({ b with sec := { b.sec with scrub := some (c, s.g.now, none), cleared := units } }).stopCommands ⟨c % 16, Nat.mod_lt _ (by decide)⟩
        exec (.secScrubGo w) s = .next (s.withG (h.cohSettle (((((h.stopUnits c).stopJobs c).stopPins c).stopStreams c).stopImages c))))) ∧
    (∀ (g : Gikan) c, (g.stopPins c).pinItemsOf c = []) ∧
    (s.g.hasp = false →
      (∀ c t, s.g.sec.scrub = some (c, t, none) → exec .scrubDone s = .next s ∧
        ∃ u, exec .stopPhaseEnd s = .next u ∧ u.g.get F.SEC_SCRUB_STATUS_STOP_NS = min 65535 (s.g.now - t) ∧
          u.g.sec.scrub = some (c, t, some s.g.now)) ∧
      (s.g.sec.scrub = none → exec .scrubDone s = .next s ∧ exec .stopPhaseEnd s = .next s) ∧
      (∀ c t b, s.g.sec.scrub = some (c, t, some b) → exec .stopPhaseEnd s = .next s ∧
        (let k := (((s.g.scrubClear c).putBitOf F.SEC_CMPT_STATE_SCRUBBING c false).set F.SEC_SCRUB_STATUS_BUSY 0).set F.SEC_SCRUB_STATUS_DONE 1
         let l := k.set F.SEC_SCRUB_STATUS_TOTAL_NS (min (2 ^ 32 - 1) (s.g.now - t))
         let h : Gikan := { l with sec := { l.sec with scrub := none, cleared := [] } }
         (s.g.now - t ≤ 60000 → exec .scrubDone s = .next (s.withG (s.g.cohSettle (h.tableWaited.imageWaited)))) ∧
         (60000 < s.g.now - t → exec .scrubDone s = .next (s.withG (s.g.cohSettle
           (((h.set F.SEC_SCRUB_STATUS_LATE 1).contained 59 c (offOf F.SEC_SCRUB_STATUS_LATE)).tableWaited.imageWaited)))) ∧
         h.scrubbing c = false ∧ h.on F.SEC_SCRUB_STATUS_BUSY = false ∧ h.on F.SEC_SCRUB_STATUS_DONE = true))) ∧
    (∀ (g : Gikan) c,
      (∀ core, ((g.scrubClear c).pinCore core).cmpt ≠ some c) ∧ (∀ e ∈ (g.scrubClear c).cmp.slots, e.2.cmpt ≠ c) ∧
      (∀ r ∈ (g.scrubClear c).req.dups, r.cmpt = c → ∀ d, r.done = some d → d.1.payload = []) ∧ (g.scrubClear c).mem = g.mem) ∧
    (∀ c : Fin 16,
      let b := s.g.viewBaseWord c
      let h : Gikan := { s.g with draw := s.g.draw + 1, sec := { s.g.sec with viewed := s.g.sec.viewed ++ [c.val] } }
      (s.g.on F.SEC_CTRL_VIEW_EN = false ∨ b % 2 = 0 ∨ s.g.running = false ∨ s.g.sec.viewed.contains c.val = true → exec (.viewRecord c) s = .next s) ∧
      (s.g.on F.SEC_CTRL_VIEW_EN = true → b % 2 = 1 → s.g.running = true → s.g.hasp = false → s.g.sec.viewed.contains c.val = false →
        (s.g.siteAt (b / 64 * 64) = none → exec (.viewRecord c) s = .next (s.withG (h.inc F.SEC_CTRL_VIEW_MISSES 1))) ∧
        (∀ x, s.g.siteAt (b / 64 * 64) = some x →
          let fits := decide (x.e.cmpt = c.val) && x.e.comp == 0 && x.e.covers (s.g.realAddr (b / 64 * 64)) 64
          (fits = false → exec (.viewRecord c) s = .next (s.withG (h.inc F.SEC_CTRL_VIEW_MISSES 1))) ∧
          (fits = true → exec (.viewRecord c) s = .next (s.withG (s.g.cohSettle (h.engWrite x (s.g.realAddr (b / 64 * 64))
            (h.viewBytes c (Config.openValue s.g.draw % 65536)))))))) ∧
      (∀ n, (s.g.viewBytes c n).length = 64))

/-- R333: a commit is refused while one is busy, under a sag warning, in factory test mode and where it would revoke a key in use, the first that
applies in the order 4, 1, 2, 3; it is DONE at once where it has nothing to blow, else BUSY; its end raises FUSED to its target and the revoked
keys by the firmware's, or with a fuse that fails leaves FUSED between the two and is REFUSED with cause 5, a contained fault.
R335 to R338: each SPDM request on a port with its link is counted; one out of its order, of another slot or another index, and any that is not
supported, is answered ERROR; the others are answered, a signed one leaving its hash to be signed again by LMS; an LMS index is used once, in
order, and reserved before it is used; with none left the answer is 2, and where none can be reserved 3. -/
def Obligations.SvnAndSpdm : Prop :=
  (∀ (s : State),
    let re := s.g.revokes.1
    let rl := s.g.revokes.2
    let refused := fun (t : State) (n : Nat) => t.g.on F.SEC_SVN_REFUSED = true ∧ t.g.get F.SEC_SVN_CAUSE = n ∧ t.g.get F.SEC_SVN_FUSED = s.g.get F.SEC_SVN_FUSED
    (∀ w : RegW, s.g.reaches8 w (offOf F.SEC_SVN_COMMIT) →
      (s.g.on F.SEC_SVN_BUSY = true → ∃ t, exec (.secSvnCommit w) s = .next t ∧ refused t 4) ∧
      (s.g.on F.SEC_SVN_BUSY = false →
        (s.g.on F.PWR_SAG_WARN = true → ∃ t, exec (.secSvnCommit w) s = .next t ∧ refused t 1) ∧
        (s.g.on F.PWR_SAG_WARN = false →
          (s.g.on F.SEC_STATUS_FACTORY_TEST = true → ∃ t, exec (.secSvnCommit w) s = .next t ∧ refused t 2) ∧
          (s.g.on F.SEC_STATUS_FACTORY_TEST = false →
            (re.testBit (s.g.get F.SEC_STATUS_ECDSA_KEY) = true ∨ rl.testBit (s.g.get F.SEC_STATUS_LMS_KEY) = true →
              ∃ t, exec (.secSvnCommit w) s = .next t ∧ refused t 3) ∧
            (re.testBit (s.g.get F.SEC_STATUS_ECDSA_KEY) = false → rl.testBit (s.g.get F.SEC_STATUS_LMS_KEY) = false →
              let nothing := s.g.svnTarget = s.g.get F.SEC_SVN_FUSED ∧
                (re ||| s.g.get F.SEC_KEYS_ECDSA_REVOKED) = s.g.get F.SEC_KEYS_ECDSA_REVOKED ∧
                (rl ||| s.g.get F.SEC_KEYS_LMS_REVOKED) = s.g.get F.SEC_KEYS_LMS_REVOKED
              (nothing → ∃ t, exec (.secSvnCommit w) s = .next t ∧ t.g.on F.SEC_SVN_DONE = true ∧ t.g.on F.SEC_SVN_BUSY = false) ∧
              (¬ nothing → ∃ t, exec (.secSvnCommit w) s = .next t ∧ t.g.on F.SEC_SVN_BUSY = true ∧
                t.g.get F.SEC_SVN_FUSED = s.g.get F.SEC_SVN_FUSED)))))) ∧
    (∀ ok, s.g.hasp = false →
      (s.g.on F.SEC_SVN_BUSY = false → exec (.svnCommitEnd ok) s = .next s) ∧
      (s.g.on F.SEC_SVN_BUSY = true → s.g.svnTarget < 128 → ∃ t, exec (.svnCommitEnd ok) s = .next t ∧ t.g.on F.SEC_SVN_BUSY = false ∧
        s.g.get F.SEC_SVN_FUSED ≤ t.g.get F.SEC_SVN_FUSED ∧ t.g.get F.SEC_SVN_FUSED ≤ s.g.svnTarget ∧ t.g.mem = s.g.mem ∧
        (ok = true → t.g.get F.SEC_SVN_FUSED = s.g.svnTarget ∧ t.g.on F.SEC_SVN_DONE = true ∧
          t.g.get F.SEC_KEYS_ECDSA_REVOKED = (s.g.get F.SEC_KEYS_ECDSA_REVOKED ||| re) % 16 ∧
          t.g.get F.SEC_KEYS_LMS_REVOKED = (s.g.get F.SEC_KEYS_LMS_REVOKED ||| rl) % 16) ∧
        (ok = false → t.g.on F.SEC_SVN_REFUSED = true ∧ t.g.get F.SEC_SVN_CAUSE = 5 ∧ t.g.bitOf (F.FLT_WORDS_GROUPS 1) 59 = true)))) ∧
  (∀ (s : State) (side : Side),
    let x := s.g.spdm side
    let h := (s.g.inc (F.SEC_SPDM_REQUESTS (sideNo side)) 1).setSpdm side { x with signed := none }
    (∀ c, (c = .getVersion side ∨ (∃ v, c = .getCapabilities side v) ∨ c = .negotiateAlgorithms side ∨ c = .getDigests side ∨
        (∃ a b n, c = .getCertificate side a b n) ∨ (∃ a b, c = .challenge side a b) ∨ (∃ a b, c = .getMeasurements side a b) ∨
        (∃ a b, c = .vendorDefinedRequest side a b) ∨ ∃ n, c = .spdmUnsupported side n) →
      (s.g.port side).up = false → exec c s = .next s) ∧
    ((s.g.port side).up = true →
      (∃ t v, exec (.getVersion side) s = .next t ∧ (v = 2 ∨ v = 3) ∧ t.g.spdm side = ⟨v, false, false, none⟩ ∧
        t.g.get (F.SEC_SPDM_VERSION (sideNo side)) = v ∧
        t.g.get (F.SEC_SPDM_REQUESTS (sideNo side)) = satAdd (F.SEC_SPDM_REQUESTS (sideNo side)).wid (s.g.get (F.SEC_SPDM_REQUESTS (sideNo side))) 1) ∧
      (∀ v, (x.version = 0 ∨ (v ≠ 0x12 ∧ v ≠ 0x13) → exec (.getCapabilities side v) s = .next (s.withG (h.spdmError side))) ∧
        (x.version ≠ 0 → v = 0x12 ∨ v = 0x13 → exec (.getCapabilities side v) s = .next (s.withG
          (((h.setSpdm side ⟨v % 16, true, false, none⟩).set (F.SEC_SPDM_VERSION (sideNo side)) (v % 16)).spdmSend side 0x61 [])))) ∧
      (x.caps = false → exec (.negotiateAlgorithms side) s = .next (s.withG (h.spdmError side))) ∧
      (x.caps = true → exec (.negotiateAlgorithms side) s = .next (s.withG
        ((h.setSpdm side { x with algs := true, signed := none }).spdmSend side 0x63 []))) ∧
      (x.algs = false → exec (.getDigests side) s = .next (s.withG (h.spdmError side))) ∧
      (x.algs = true → exec (.getDigests side) s = .next (s.withG (h.spdmSend side 0x01 []))) ∧
      (∀ slot o n nonce,
        (x.algs = false ∨ slot ≠ 0 → exec (.getCertificate side slot o n) s = .next (s.withG (h.spdmError side)) ∧
          exec (.challenge side slot nonce) s = .next (s.withG (h.spdmError side))) ∧
        (x.algs = true → slot = 0 → exec (.getCertificate side slot o n) s = .next (s.withG (h.spdmSend side 0x02 [])) ∧
          exec (.challenge side slot nonce) s = .next (s.withG (h.spdmSigned side 0x03 [])))) ∧
      (∀ i nonce,
        let blocks := if i = 0xFF then [1, 2, 3, 4] else if 1 ≤ i ∧ i ≤ 4 then [i] else []
        (x.algs = false ∨ (4 < i ∧ i ≠ 0xFF) → exec (.getMeasurements side i nonce) s = .next (s.withG (h.spdmError side))) ∧
        (x.algs = true → i ≤ 4 ∨ i = 0xFF →
          exec (.getMeasurements side i nonce) s = .next (s.withG (h.spdmSigned side 0x60 (blocks.flatMap h.measurement))))) ∧
      (∀ n, exec (.spdmUnsupported side n) s = .next (s.withG (h.spdmError side))) ∧
      (∀ vendor code,
        (vendor ≠ s.g.get F.GLB_ID_PCI_VENDOR ∨ code ≠ 1 → exec (.vendorDefinedRequest side vendor code) s = .next (s.withG (h.spdmError side))) ∧
        (vendor = s.g.get F.GLB_ID_PCI_VENDOR → code = 1 →
          (x.signed = none → exec (.vendorDefinedRequest side vendor code) s = .next (s.withG (h.lmsAnswer side 1 none))) ∧
          (∀ d, x.signed = some d →
            (s.g.lmsLeft = 0 → 1048576 ≤ s.g.sec.lmsNext →
              exec (.vendorDefinedRequest side vendor code) s = .next (s.withG (h.lmsExhausted.lmsAnswer side 2 (some d)))) ∧
            (s.g.lmsLeft = 0 → s.g.sec.lmsNext < 1048576 → s.g.on F.PWR_SAG_WARN = true ∨ s.g.hasp = true →
              exec (.vendorDefinedRequest side vendor code) s = .next (s.withG ((h.inc F.SEC_LMS_COUNT_BUSY_ANSWERS 1).lmsAnswer side 3 (some d)))) ∧
            (s.g.sec.lmsUse ≤ s.g.sec.lmsNext →
              (0 < s.g.lmsLeft ∨ (s.g.sec.lmsNext < 1048576 ∧ s.g.on F.PWR_SAG_WARN = false ∧ s.g.hasp = false)) →
              ∃ t, exec (.vendorDefinedRequest side vendor code) s = .next t ∧ t.g.sec.lmsUse = s.g.sec.lmsUse + 1 ∧
                t.g.sec.lmsUse ≤ t.g.sec.lmsNext ∧ t.g.spdm side = { x with signed := none } ∧
                t.g.out = s.g.out ++ [.signed s.g.sec.lmsUse, .spdm side (leBytes 2 1 ++ leBytes 2 0 ++ leBytes 4 s.g.sec.lmsUse ++ leBytes 48 d ++
                  fit (Config.lmsSign s.g.sec.lmsUse d) 1772)]))))))

/-! ## Faults and health (chapter 16) -/

/-- R339 to R344, R354: an event sets its group's bits and is counted by class; a contained or fatal one is the group's syndrome, or the sign that
one was lost; a fatal one enters the Hasp state, recorded. An event on an error line is its block's effect and that; an error of the collector
enters the Hasp state with cause 2; in factory test mode an injection raises the event it names, or arms a miscompare, and outside it nothing. -/
def Obligations.FaultCollector : Prop :=
  ∀ (s : State),
    (∀ (g : Gikan) (cls : FClass) (n unit reg others : Nat), n < 64 →
      let h := g.fault cls n unit reg others
      h.bitOf (F.FLT_WORDS_GROUPS 0) n = true ∧ h.mem = g.mem ∧
      (cls = .corrected → h.flt.corrected.getD n 0 = satAdd 32 (g.flt.corrected.getD n 0) (1 + others) ∧ h.syn n = g.syn n) ∧
      (cls = .contained → h.flt.contained.getD n 0 = satAdd 16 (g.flt.contained.getD n 0) (1 + others)) ∧
      (cls = .fatal → h.flt.fatal.getD n 0 = satAdd 16 (g.flt.fatal.getD n 0) (1 + others) ∧ h.bitOf F.FLT_FATAL_GROUPS n = true ∧ h.hasp = true ∧
        (g.hasp = false → h.on F.FLT_HASP0_VALID = true ∧ h.get F.FLT_HASP0_CAUSE = 1 ∧ h.get F.FLT_HASP0_GROUP = n ∧
          h.get (F.FLT_HASPN_WORD 0) = g.time % 2 ^ (F.FLT_HASPN_WORD 0).wid)) ∧
      (cls ≠ .fatal → h.hasp = g.hasp) ∧
      (cls ≠ .corrected → h.bitOf (F.FLT_WORDS_GROUPS 1) n = true ∧
        ((g.syn n).valid = false → others = 0 → h.syn n = ⟨true, (g.syn n).overflow, if cls = .fatal then 3 else 2, reg, unit, g.time⟩) ∧
        ((g.syn n).valid = true → cls = .contained → h.syn n = { g.syn n with overflow := true }))) ∧
    (∀ (group : Fin 64) cls unit reg others, exec (.faultEvent group cls unit reg others) s = .next (s.withG (s.g.cohSettle
      ((if s.g.hasp then s.g else s.g.blockEffect group cls unit reg (1 + others)).fault cls group unit reg others)))) ∧
    (s.g.hasp = true → exec .collectorFault s = .next (s.withG (s.g.setBitOf (F.FLT_WORDS_GROUPS 0) 63))) ∧
    (s.g.hasp = false → ∃ t, exec .collectorFault s = .next t ∧ t.g.hasp = true ∧ t.g.get F.FLT_HASP0_CAUSE = 2 ∧ t.g.get F.FLT_HASP0_GROUP = 63 ∧
      t.g.mem = s.g.mem ∧ t.g.flt.syn = s.g.flt.syn) ∧
    (∀ (w v : RegW) row, s.g.reaches8 w (offOf F.FLT_INJECT_GO) →
      (row = .fltInjectGo w ∧ v = trig w F.FLT_INJECT_GO) ∨ (row = .fltInjectMiscompare w ∧ v = trig w F.FLT_INJECT_MISCOMPARE) →
      let at_ := fun (f : Fld) => (wrField v f).1 &&& (wrField v f).2
      (s.g.on F.FLT_TEST_ACTIVE = false → exec row s = .next s) ∧
      (s.g.on F.FLT_TEST_ACTIVE = true →
        let group := at_ F.FLT_INJECT_GROUP
        let mis := wrOne v F.FLT_INJECT_MISCOMPARE && (group == 48 || group == 50)
        let l := if mis then insNat s.g.flt.miscompare (group * 65536 + at_ F.FLT_INJECT_UNIT) else s.g.flt.miscompare
        let g1 : Gikan := { s.g with flt := { s.g.flt with miscompare := l } }
        let k : Gikan := { g1 with draw := s.g.draw + 1 }
        (wrOne v F.FLT_INJECT_GO = false ∨ at_ F.FLT_INJECT_CLASS = 0 → exec row s = .next (s.withG g1)) ∧
        (wrOne v F.FLT_INJECT_GO = true → ∀ cls, (at_ F.FLT_INJECT_CLASS = 1 ∧ cls = FClass.corrected) ∨ (at_ F.FLT_INJECT_CLASS = 2 ∧ cls = .contained) ∨
            (at_ F.FLT_INJECT_CLASS = 3 ∧ cls = .fatal) →
          exec row s = .next (s.withG (k.fault cls group (at_ F.FLT_INJECT_UNIT) (Config.openValue s.g.draw % 2 ^ 26) 0)))))

/-- R346 to R353: a fence is refused or made, and a return to service clears the unit's mismatches; a check that agrees counts and no more, one that
does not is decided by a third unit, or skipped where there is none; a check not started in its frames is skipped; a token is refused with the
first cause that applies, or opens factory test mode; a monitor latches its window at its end and starts anew. -/
def Obligations.FencesAndChecks : Prop :=
  ∀ (s : State),
    (∀ (w v : RegW), s.g.reaches8 w (offOf F.FLT_FENCE_GO) →
      let kind := fun (v : RegW) => (wrField v F.FLT_FENCE_KIND).1 &&& (wrField v F.FLT_FENCE_KIND).2
      let unit := fun (v : RegW) => (wrField v F.FLT_FENCE_UNIT).1 &&& (wrField v F.FLT_FENCE_UNIT).2
      let h := fun (v : RegW) => s.g.putFields v (offOf F.FLT_FENCE_REFUSED) [F.FLT_FENCE_REFUSED]
      (v = trig w F.FLT_FENCE_GO → wrOne v F.FLT_FENCE_UNFENCE = false →
        ((h v).fence (kind v) (unit v) = none → exec (.fltFenceGo w) s = .next (s.withG ((h v).set F.FLT_FENCE_REFUSED 1))) ∧
        (∀ k, (h v).fence (kind v) (unit v) = some k → exec (.fltFenceGo w) s = .next (s.withG ((h v).cohSettle k)))) ∧
      (v = trig (trig w F.FLT_FENCE_UNFENCE) F.FLT_FENCE_GO → exec (.fltUnfence w) s = .next (s.withG ((h v).unfence (kind v) (unit v))))) ∧
    (∀ (g : Gikan) kind unit,
      (fenceBit kind unit = none → g.fence kind unit = none ∧ g.unfence kind unit = g) ∧
      (∀ f b, fenceBit kind unit = some (f, b) →
        ((g.setBitOf f b).fenceLeaves kind unit = false → g.fence kind unit = none) ∧
        ((g.setBitOf f b).fenceLeaves kind unit = true → g.fence kind unit = some ((g.setBitOf f b).moveQueued kind unit)) ∧
        (g.unfence kind unit).bitOf f b = false ∧ (g.unfence kind unit).flt.mismatch.get? (mismatchKey kind unit) = none)) ∧
    (∀ u,
      (s.g.sampleOf u = none → exec (.checkDrop u) s = .next s ∧ ∀ a b c, exec (.checkRun u a b c) s = .next s) ∧
      (∀ m, s.g.sampleOf u = some m → s.g.hasp = false →
        (s.g.req.boundaries ≤ m.boundary + s.g.waitFrames → exec (.checkDrop u) s = .next s) ∧
        (m.boundary + s.g.waitFrames < s.g.req.boundaries → (∀ a b c, exec (.checkRun u a b c) s = .next s) ∧
          exec (.checkDrop u) s = .next (s.withG ((s.g.dropSample u).inc F.FLT_CHECK_STATS_SKIPPED 1))) ∧
        (∀ c agrees wu wc, s.g.req.boundaries ≤ m.boundary + s.g.waitFrames → s.g.nextUnit u u.n [u.n] = some c →
          let key := kindGroup (kindOf u) * 65536 + u.n
          let armed := s.g.flt.miscompare.contains key
          let k := (s.g.dropSample u).inc F.FLT_CHECK_STATS_CHECKED 1
          let h : Gikan := { k with flt := { k.flt with miscompare := k.flt.miscompare.filter (fun n => n != key) } }
          (agrees = true → armed = false → exec (.checkRun u agrees wu wc) s = .next (s.withG h)) ∧
          (agrees = false ∨ armed = true →
            (h.nextUnit u c [u.n, c] = none → exec (.checkRun u agrees wu wc) s = .next (s.withG (h.inc F.FLT_CHECK_STATS_SKIPPED 1))) ∧
            (∀ t, h.nextUnit u c [u.n, c] = some t → exec (.checkRun u agrees wu wc) s = .next (s.withG (s.g.cohSettle
              (h.checkVote m c t (wu && !armed) (wc || armed))))))))) ∧
    (∀ w : RegW, s.g.reaches8 w (offOf F.FLT_TEST_ENTER) → ∃ t, exec (.fltTestEnter w) s = .next t ∧ t.g.mem = s.g.mem ∧
      (s.g.testCause = 0 → t.g.on F.FLT_TEST_ACTIVE = true ∧ t.g.on F.SEC_STATUS_FACTORY_TEST = true) ∧
      (s.g.testCause ≠ 0 → t.g.on F.FLT_TEST_REFUSED = true ∧ t.g.get F.FLT_TEST_CAUSE = s.g.testCause ∧
        t.g.on F.FLT_TEST_ACTIVE = s.g.on F.FLT_TEST_ACTIVE)) ∧
    (∀ m : Fin 16,
      (s.g.flt.monLeft.get? m ≠ some 0 → exec (.monitorWindowEnd m) s = .next s) ∧
      (s.g.flt.monLeft.get? m = some 0 →
        let x := s.g.flt.live.getD m MonWin.zero
        ∃ t, exec (.monitorWindowEnd m) s = .next t ∧ t.g.flt.done.get? m = some x ∧ t.g.flt.live.get? m = none ∧
          t.g.flt.monLeft.get? m = some (max 1 (s.g.get (F.MON_SEL_WINDOW_TICKS m))) ∧
          t.g.get (F.MON_MINMAX_MIN m) = min x.lo (2 ^ 32 - 1) ∧ t.g.get (F.MON_MINMAX_MAX m) = min x.hi (2 ^ 32 - 1) ∧
          t.g.get (F.MON_STATUS_SAMPLES m) = min x.n (2 ^ 32 - 1)))

/-! ## Power, supply and temperature (chapter 17) -/

/-- R356 to R362: at a boundary the Gikan moves to the deepest state that fits its budgets and has been idle long enough, and toward a shallower one
through an exit; the exit's end gives the state and its clock; a budget that no longer covers the state starts an exit at once; SLEEP and WAKE
schedule a direction's width, which changes at their flit time, or retrains a receiver whose lanes are not ready. -/
def Obligations.PowerStates : Prop :=
  ∀ (s : State),
    (let n := s.g.get F.PWR_STATE_STATE
     let t := s.g.deepest s.g.idleFor
     (s.g.running = false ∨ s.g.hasp = true ∨ s.g.on F.PWR_STATE_EXITING = true ∨ n = t → exec .powerStateMove s = .next s) ∧
     (s.g.running = true → s.g.hasp = false → s.g.on F.PWR_STATE_EXITING = false →
       (n < t → exec .powerStateMove s = .next (s.withG (s.g.enterState t))) ∧ (t < n → exec .powerStateMove s = .next (s.withG (s.g.beginExit t))))) ∧
    (∀ (g : Gikan) p, g.deepest p ≤ 3 ∧ g.stateFits (g.deepest p) = true ∧ (g.deepest p ≠ 0 → p (g.deepest p) = true) ∧
      ∀ n, g.deepest p < n → n ≤ 3 → g.stateFits n = false ∨ p n = false) ∧
    (∀ (g : Gikan) n, 1 ≤ n → n ≤ 3 → (g.enterState n).get F.PWR_STATE_STATE = n ∧ (g.enterState n).get F.PWR_STATE_ACLK_MHZ = aclkOf n ∧
      (g.enterState n).mem = g.mem) ∧
    (s.g.hasp = true ∨ s.g.on F.PWR_STATE_EXITING = false ∨ (s.g.get F.PWR_STATE_STATE = 3 ∧ s.g.narrowed ≠ []) → exec .powerExitEnd s = .next s) ∧
    (s.g.hasp = false → s.g.on F.PWR_STATE_EXITING = true → s.g.get F.PWR_STATE_STATE ≠ 3 ∨ s.g.narrowed = [] → s.g.pwr.exitTo ≤ 3 →
      ∃ t, exec .powerExitEnd s = .next t ∧ t.g.on F.PWR_STATE_EXITING = false ∧ t.g.get F.PWR_STATE_STATE = s.g.pwr.exitTo ∧
        t.g.get F.PWR_STATE_ACLK_MHZ = aclkOf s.g.pwr.exitTo ∧ t.g.mem = s.g.mem) ∧
    (∀ (w : RegW) (n : Fin 2), s.g.reaches8 w (0xF00010 + 8 * n) →
      let fs := if n = 0 then [F.PWR_BUDGET0_ENGINE_NS, F.PWR_BUDGET0_MEMORY_NS] else [F.PWR_BUDGET1_FORWARD_NS]
      let h := s.g.putFields w (0xF00010 + 8 * n) fs
      let st := h.get F.PWR_STATE_STATE
      (h.stateFits st = true → exec (.pwrBudgetWrite w n) s = .next (s.withG h)) ∧
      (h.stateFits st = false → exec (.pwrBudgetWrite w n) s = .next (s.withG (h.beginExit (h.deepest (fun k => decide (k < st))))))) ∧
    (∀ (p : Fin 32) (n : Nat),
      (s.g.lnkUp p = false → exec (.sleep p n) s = .next s ∧ exec (.wake p n) s = .next s) ∧
      (s.g.lnkUp p = true → exec (.sleep p n) s = .next (s.withG (s.g.setLink p { s.g.link p with rxSched := some ⟨false, n, 0⟩ })) ∧
        exec (.wake p n) s = .next (s.withG (s.g.setLink p { s.g.link p with rxSched := some ⟨true, n, 0⟩ })))) ∧
    (∀ (p : Fin 32) (ready : Bool),
      let l := s.g.link p
      (l.txSched = none → exec (.narrowAt p true ready) s = .next s) ∧ (l.rxSched = none → exec (.narrowAt p false ready) s = .next s) ∧
      (∀ x, l.txSched = some x →
        (s.g.lnkUp p = false ∨ s.g.txFlits p < x.at_ → exec (.narrowAt p true ready) s = .next s) ∧
        (s.g.lnkUp p = true → x.at_ ≤ s.g.txFlits p → exec (.narrowAt p true ready) s = .next (s.withG (s.g.setLink p
          { l with txNarrow := !x.wake, txSched := none, txAt := (s.g.txFlits p, s.g.now) })))) ∧
      (∀ x, l.rxSched = some x →
        (s.g.lnkUp p = false ∨ s.g.rxFlits p < x.at_ → exec (.narrowAt p false ready) s = .next s) ∧
        (s.g.lnkUp p = true → x.at_ ≤ s.g.rxFlits p →
          (x.wake = true → ready = false → exec (.narrowAt p false ready) s = .next (s.withG (s.g.retrain p 2))) ∧
          (x.wake = false ∨ ready = true → exec (.narrowAt p false ready) s = .next (s.withG (s.g.setLink p
            { l with rxNarrow := !x.wake, rxSched := none, rxAt := (s.g.rxFlits p, s.g.now) }))))))

/-- R363 to R371: the throttle factor falls by 1 toward TMIN each 100 µs above its limit and rises by 1 toward 64 each 1 ms below it; a long stay at
TMIN is a contained fault, a fast trip sheds at the next boundary; a voltage moves by 2.5 mV within 650 to 850 mV; a sensor at its throttle point
throttles, and at its trip point drives THERMTRIP and is fatal; a sag warning stops flash and fuse writes until it clears, a critical sag enters
the Hasp state with cause 3. -/
def Obligations.SupplyAndHeat : Prop :=
  ∀ (s : State),
    (∀ avg, s.g.hasp = false →
      let p := s.g.pwr
      let down := fun (n : Nat) => if s.g.tMin < n then n - 1 else n
      (s.g.now < p.lowerAt + 100000 → exec (.throttleLower avg) s = .next s) ∧
      (p.lowerAt + 100000 ≤ s.g.now → ∃ t, exec (.throttleLower avg) s = .next t ∧ t.g.pwr.lowerAt = s.g.now ∧
        t.g.pwr.tPower = (if s.g.capW < avg then down p.tPower else p.tPower) ∧ t.g.pwr.tTherm = (if p.hot = [] then p.tTherm else down p.tTherm) ∧
        t.g.get F.PWR_STATE_THROTTLE = t.g.tInForce % 128 ∧ t.g.mem = s.g.mem) ∧
      (s.g.now < p.raiseAt + 1000000 → exec (.throttleRaise avg) s = .next s) ∧
      (p.raiseAt + 1000000 ≤ s.g.now → ∃ t, exec (.throttleRaise avg) s = .next t ∧ t.g.pwr.raiseAt = s.g.now ∧
        t.g.pwr.tPower = (if avg + s.g.get F.PWR_LIMIT_HYST_W < s.g.capW ∧ (s.g.on F.PWR_SAG_WARN && s.g.on F.PWR_LIMIT_SHED_ON_SAG) = false
          then min 64 (p.tPower + 1) else p.tPower) ∧
        t.g.pwr.tTherm = (if p.hot = [] then min 64 (p.tTherm + 1) else p.tTherm) ∧
        t.g.get F.PWR_STATE_THROTTLE = t.g.tInForce % 128 ∧ t.g.mem = s.g.mem) ∧
      (p.minSince = none → exec (.throttleFault avg) s = .next s) ∧
      (∀ t, p.minSince = some t →
        (s.g.now < t + 100000000 ∨ avg ≤ s.g.capW → exec (.throttleFault avg) s = .next s) ∧
        (t + 100000000 ≤ s.g.now → s.g.capW < avg → ∃ u, exec (.throttleFault avg) s = .next u ∧ u.g.pwr.minSince = none ∧
          u.g.bitOf (F.FLT_WORDS_GROUPS 1) 60 = true ∧ u.g.mem = s.g.mem)) ∧
      (avg * 100 ≤ s.g.capW * 105 → exec (.fastTrip avg) s = .next s) ∧
      (s.g.capW * 105 < avg * 100 → exec (.fastTrip avg) s = .next (s.withG (({ s.g with pwr := { p with shed := true } }).inc F.PWR_EVENTS_FAST_TRIPS 1)))) ∧
    (∀ g : Gikan, g.pwr.shed = true → g.shedBoundary.pwr.tPower = min g.pwr.tPower g.tMin ∧ g.shedBoundary.pwr.shed = false) ∧
    (∀ (rail : Fin 2) (margin target floorM : Int), s.g.hasp = false →
      let v := s.g.avsOf rail
      let next_ := if margin < target then min 8500 (v + 25) else if target < margin then max 6500 (v - 25) else v
      (s.g.phase = 0 ∨ s.g.now < s.g.pwr.avsAt.getD rail 0 + 10000 → exec (.avsStep rail margin target floorM) s = .next s) ∧
      (s.g.phase ≠ 0 → s.g.pwr.avsAt.getD rail 0 + 10000 ≤ s.g.now → ∃ t, exec (.avsStep rail margin target floorM) s = .next t ∧
        t.g.avsOf rail = (if s.g.avsFrozen rail then v else next_) ∧ t.g.pwr.avsAt.get? rail = some s.g.now ∧ t.g.mem = s.g.mem ∧
        (next_ ≠ v → s.g.avsFrozen rail = false → Out.avs rail next_ ∈ t.g.out) ∧
        (floorM ≤ margin → rail.val ∉ t.g.pwr.margin) ∧ (margin < floorM → 8500 ≤ t.g.avsOf rail → rail.val ∈ t.g.pwr.margin ∧
          (rail.val ∉ s.g.pwr.margin → t.g.bitOf (F.FLT_WORDS_GROUPS 1) 60 = true)))) ∧
    (∀ rail : Fin 2,
      (s.g.pwr.avsHeld.contains rail.val = true → exec (.avsNoAnswer rail) s = .next s) ∧
      (s.g.pwr.avsHeld.contains rail.val = false → ∃ t, exec (.avsNoAnswer rail) s = .next t ∧ t.g.avsFrozen rail = true ∧
        t.g.bitOf (F.FLT_WORDS_GROUPS 1) 60 = true ∧ t.g.mem = s.g.mem)) ∧
    (∀ (x : Fin 42) (q : Nat), ∃ t, exec (.thermalReading x q) s = .next t ∧ t.g.tempQ x = min q 65535 ∧ t.g.mem = s.g.mem ∧
      (s.g.throttleQ x ≤ q → x.val ∈ t.g.pwr.hot) ∧ (q + 12 ≤ s.g.throttleQ x → x.val ∉ t.g.pwr.hot) ∧
      (tripQ x ≤ q → t.g.pins.thermtrip = true ∧ (s.g.tempQ x < tripQ x ∨ s.g.hasp = false → t.g.bitOf F.FLT_FATAL_GROUPS 61 = true ∧ t.g.hasp = true)) ∧
      (q < tripQ x → t.g.pins = s.g.pins ∧ t.g.hasp = s.g.hasp)) ∧
    (∀ rail,
      (s.g.on F.PWR_SAG_WARN = true → exec (.sagWarning rail) s = .next (s.withG (if rail = 15 then s.g.set F.PWR_SAG_SAG_N 1 else s.g))) ∧
      (s.g.on F.PWR_SAG_WARN = false → ∃ t, exec (.sagWarning rail) s = .next t ∧ t.g.on F.PWR_SAG_WARN = true ∧ t.g.on F.PWR_SAG_SEEN = true ∧
        t.g.get F.PWR_SAG_LAST_RAIL = rail % 16 ∧ t.g.on F.TIER_STATUS_SAG_HOLD = true ∧ t.g.mgt.upd = none ∧ t.g.on F.SEC_SVN_BUSY = false ∧
        t.g.bitOf (F.FLT_WORDS_GROUPS 0) 60 = true ∧ (s.g.on F.PWR_LIMIT_SHED_ON_SAG = true → t.g.pwr.shed = true) ∧ t.g.mem = s.g.mem) ∧
      (s.g.hasp = false → ∃ t, exec (.sagCritical rail) s = .next t ∧ t.g.hasp = true ∧ t.g.get F.FLT_HASP0_CAUSE = 3 ∧
        t.g.get F.FLT_HASP0_GROUP = 60 ∧ t.g.bitOf F.FLT_FATAL_GROUPS 60 = true ∧ t.g.mem = s.g.mem) ∧
      (s.g.hasp = true → exec (.sagCritical rail) s = .next (s.withG (s.g.fatal 60 rail (offOf F.PWR_SAG_WARN))))) ∧
    exec .sagWarningClear s = .next (s.withG (((s.g.set F.PWR_SAG_WARN 0).set F.PWR_SAG_SAG_N 0).set F.TIER_STATUS_SAG_HOLD 0))

/-! ## Start and management (chapter 18) -/

/-- R345, R372, R403: each reset starts the part at the boot ROM, unsealed, with its cause: nothing of the work, the maps or the links is left, no
memory has been written, and fuses, boot record and boot flash stay; the Hasp record stays but for a power-on reset and a RESET_N whose supply was
not held; the straps are sampled by the pins' resets alone; MGT_RESET needs its key. -/
def Obligations.Resets : Prop :=
  ∀ (s : State),
    (∀ (tray : BitVec 6) (ft held : Bool),
      exec (.powerOnReset tray ft) s = .next (s.withG ((s.g.restart 1 false).strap tray.toNat ft)) ∧
      exec (.resetN tray ft held) s = .next (s.withG ((s.g.restart 2 held).strap tray.toNat ft)) ∧
      ((s.g.restart 2 held).strap tray.toNat ft).get F.GLB_STRAPS_TRAY_ID = tray.toNat ∧
      ((s.g.restart 2 held).strap tray.toNat ft).on F.FLT_TEST_STRAP = ft) ∧
    exec .i3cTargetReset s = .next (s.withG (s.g.restart 3 true)) ∧
    (∀ w : RegW, s.g.reaches8 w (offOf F.MGT_RESET_GO) →
      let v := trig w F.MGT_RESET_GO
      let key := (wrField v F.MGT_RESET_KEY).1 &&& (wrField v F.MGT_RESET_KEY).2
      (key = 0xA5 → exec (.mgtResetGo w) s = .next (s.withG (s.g.restart 4 true))) ∧ (key ≠ 0xA5 → exec (.mgtResetGo w) s = .next s)) ∧
    (∀ (g : Gikan) cause keep, cause < 8 →
      let h := g.restart cause keep
      let r := State.reset.g
      h.phase = 0 ∧ h.sealed = false ∧ h.hasp = false ∧ h.running = false ∧ h.get F.GLB_RESET_CAUSE_CAUSE = cause ∧ (∀ a, memGet h.mem a = 0) ∧
      h.req = r.req ∧ h.map = r.map ∧ h.sub = r.sub ∧ h.lnk = r.lnk ∧ h.xbar = r.xbar ∧ h.eng = r.eng ∧ h.pin = r.pin ∧ h.red = r.red ∧
      h.gfs = r.gfs ∧ h.coh = r.coh ∧ h.flt = r.flt ∧
      h.get F.SEC_SVN_FUSED = g.get F.SEC_SVN_FUSED % 128 ∧ h.get F.MGT_BOOT_ACTIVE = g.get F.MGT_BOOT_ACTIVE % 2 ∧
      h.sec.lmsNext = g.sec.lmsNext ∧ h.sec.lmsUse = g.sec.lmsNext ∧
      (g.mgt.upd = none → h.mgt.slot0 = g.mgt.slot0 ∧ h.mgt.slot1 = g.mgt.slot1 ∧ h.mgt.cfg = g.mgt.cfg) ∧
      (keep = true → h.get F.FLT_HASP0_CAUSE = g.get F.FLT_HASP0_CAUSE % 4 ∧ h.on F.GLB_RESET_CAUSE_HASP_KEPT = g.on F.FLT_HASP0_VALID) ∧
      (keep = false → h.on F.FLT_HASP0_VALID = false ∧ h.on F.GLB_RESET_CAUSE_HASP_KEPT = false))

/-- R373 to R381: the boot ROM ends in CONFIG with a slot's image that passes every check, in RECOVERY with none, and with bad fuses in a fatal fault;
the configuration check applies a good image and else leaves NO_CONFIG with its cause; GO seals once STAMPED, is PENDING before it, and does
nothing after the seal, in NO_CONFIG, RECOVERY and factory test mode; the hold's end seals. -/
def Obligations.BootAndSeal : Prop :=
  ∀ (s : State),
    (∀ ok,
      let k := (List.range 6).foldl (fun (h : Gikan) i => h.set (F.SEC_DEVICE_ID_WORD i) (Config.deviceIdHash 0 / 2 ^ (64 * i) % 2 ^ 64)) s.g.avsBoot
      (s.g.phase ≠ 0 → exec (.bootRomEnd ok) s = .next s) ∧
      (s.g.phase = 0 → ok = false → ∃ t, exec (.bootRomEnd ok) s = .next t ∧ t.g.hasp = true ∧ t.g.bitOf F.FLT_FATAL_GROUPS 62 = true) ∧
      (∀ h, s.g.phase = 0 → ok = true → k.chooseSlot = (true, h) →
        exec (.bootRomEnd ok) s = .next (s.withG (h.set F.MGT_STATUS_PHASE 2)) ∧ (h.set F.MGT_STATUS_PHASE 2).phase = 2) ∧
      (∀ h, s.g.phase = 0 → ok = true → k.chooseSlot = (false, h) →
        exec (.bootRomEnd ok) s = .next (s.withG ((h.set F.MGT_STATUS_PHASE 1).contained 62 0 (offOf F.SEC_STATUS_LAST_REFUSAL))))) ∧
    (∀ (g : Gikan) slot trial,
      let im := g.slotImage slot
      let c := g.imageCause im [1] slotSpace
      (c ≠ 0 → g.trySlot slot trial = (false, g.imageRefusal im c)) ∧
      (c = 0 → (g.trySlot slot trial).1 = true ∧ (g.trySlot slot trial).2.on F.SEC_STATUS_BOOTED = true ∧
        (g.trySlot slot trial).2.on F.MGT_STATUS_TRIAL = trial ∧ (g.trySlot slot trial).2.get F.SEC_STATUS_FW_SVN = im.svn % 2 ^ F.SEC_STATUS_FW_SVN.wid)) ∧
    (∀ (g : Gikan), g.on F.MGT_BOOT_TRIAL_VALID = false →
      g.chooseSlot = if (g.trySlot (g.get F.MGT_BOOT_ACTIVE) false).1 then (true, (g.trySlot (g.get F.MGT_BOOT_ACTIVE) false).2)
        else (g.trySlot (g.get F.MGT_BOOT_ACTIVE) false).2.trySlot (1 - g.get F.MGT_BOOT_ACTIVE) false) ∧
    (let im := s.g.mgt.cfg.getD (blankImage 2)
     let c := s.g.imageCause im [2] cfgSpace
     let b := im.content.take im.contentBytes
     let refused := fun (h : Gikan) => (h.set F.MGT_STATUS_PHASE 3).contained 62 0 (offOf F.MGT_STATUS_PHASE)
     (s.g.phase ≠ 2 → exec .configCheckEnd s = .next s) ∧
     (s.g.phase = 2 → c ≠ 0 → exec .configCheckEnd s = .next (s.withG (refused (s.g.imageRefusal im c)))) ∧
     (s.g.phase = 2 → c = 0 → ∀ n o, cfgCause b = some (n, o) →
       exec .configCheckEnd s = .next (s.withG (refused ((s.g.set F.MGT_STATUS_CFG_CAUSE n).set F.MGT_STATUS_CFG_OFFSET o)))) ∧
     (s.g.phase = 2 → c = 0 → cfgCause b = none → exec .configCheckEnd s = .next (s.withG (s.g.cfgApply im b))) ∧
     ∀ h : Gikan, (refused h).phase = 3) ∧
    (∀ w : RegW, s.g.reaches8 w (offOf F.MGT_SEAL_GO) →
      let shut := s.g.sealed || s.g.phase == 3 || s.g.phase == 1 || s.g.on F.FLT_TEST_ACTIVE
      (shut = true → exec (.mgtSealGo w) s = .next s) ∧
      (shut = false → s.g.stamped = true → exec (.mgtSealGo w) s = .next (s.withG s.g.seal)) ∧
      (shut = false → s.g.stamped = false → exec (.mgtSealGo w) s = .next (s.withG (s.g.set F.MGT_SEAL_PENDING 1)))) ∧
    (∀ t, s.g.mgt.stampedAt = some t →
      (s.g.phase = 5 → t + 1000000 * s.g.mgt.holdMs ≤ s.g.now → exec .sealHoldExpiry s = .next (s.withG s.g.seal)) ∧
      (s.g.phase ≠ 5 ∨ s.g.now < t + 1000000 * s.g.mgt.holdMs → exec .sealHoldExpiry s = .next s)) ∧
    (∀ g : Gikan, g.sealed = false → g.seal.sealed = true ∧ g.seal.phase = 6 ∧ g.seal.on F.MGT_SEAL_PENDING = false)

/-- R375, R382, R385: an update is refused with the first cause that applies, or is read and BUSY, and its end leaves its image in its area, or none
and cause 7; a trial is confirmed or set in a record with SEQ one higher, or refused; a port takes ownership where nobody holds it or its lease
is over, its holder renews and releases it, and a lease lapses at its end. -/
def Obligations.UpdatesAndOwnership : Prop :=
  ∀ (s : State),
    (∀ (w : RegW) (image : Option Image), s.g.reaches8 w (offOf F.MGT_UPD_GO) → s.g.phase ≠ 0 → s.g.hasp = false →
      let v := trig w F.MGT_UPD_GO
      let target := (wrField v F.MGT_UPD_TARGET).1 &&& (wrField v F.MGT_UPD_TARGET).2
      let side : Side := if w.bus = .pcieB then .b else .a
      let c := s.g.updCause target image
      (c ≠ 0 → ∃ t, exec (.mgtUpdGo w image) s = .next t ∧ t.g.on F.MGT_UPD_REFUSED = true ∧ t.g.get F.MGT_UPD_CAUSE = c ∧ t.g.mgt = s.g.mgt ∧
        t.g.mem = s.g.mem) ∧
      (∀ im, c = 0 → image = some im → ∃ t, exec (.mgtUpdGo w image) s = .next t ∧ t.g.on F.MGT_UPD_BUSY = true ∧
        t.g.mgt.upd = some ⟨side, target, im⟩ ∧ t.g.mgt.slot0 = s.g.mgt.slot0 ∧ t.g.mgt.slot1 = s.g.mgt.slot1 ∧ t.g.mgt.cfg = s.g.mgt.cfg ∧
        t.g.out = s.g.out ++ [.hostRead side (s.g.get F.MGT_UPD_SRC_ADDR) (4096 + im.contentBytes)])) ∧
    (∀ ok, s.g.hasp = false →
      (s.g.mgt.upd = none → exec (.updateEnd ok) s = .next s) ∧
      (∀ u, s.g.mgt.upd = some u →
        let im := if ok then some u.image else none
        ∃ t, exec (.updateEnd ok) s = .next t ∧ t.g.mgt.upd = none ∧ t.g.on F.MGT_UPD_BUSY = false ∧ t.g.mem = s.g.mem ∧
          t.g.mgt.slot0 = (if u.target = 0 then im else s.g.mgt.slot0) ∧ t.g.mgt.slot1 = (if u.target = 1 then im else s.g.mgt.slot1) ∧
          t.g.mgt.cfg = (if u.target = 0 ∨ u.target = 1 then s.g.mgt.cfg else im) ∧
          (ok = true → t.g.on F.MGT_UPD_DONE = true) ∧
          (ok = false → t.g.on F.MGT_UPD_REFUSED = true ∧ t.g.get F.MGT_UPD_CAUSE = 7 ∧ t.g.bitOf (F.FLT_WORDS_GROUPS 1) 62 = true))) ∧
    (∀ (w v : RegW) row, s.g.reaches8 w (offOf F.MGT_BOOT_CONFIRM) →
      (row = .mgtBootConfirm w ∧ v = trig w F.MGT_BOOT_CONFIRM) ∨ (row = .mgtBootSetTrial w ∧ v = trig w F.MGT_BOOT_SET_TRIAL) →
      let h := s.g.putFields v (offOf F.MGT_BOOT_REFUSED) [F.MGT_BOOT_REFUSED]
      let k := if wrOne v F.MGT_BOOT_CONFIRM then h.bootConfirm else h
      (s.g.phase ≤ 1 → exec row s = .next (s.withG h)) ∧
      (1 < s.g.phase → exec row s = .next (s.withG
        (if wrOne v F.MGT_BOOT_SET_TRIAL then k.bootTrial (if wrOne v F.MGT_BOOT_TARGET then 1 else 0) else k)))) ∧
    (∀ (g : Gikan) n,
      (g.on F.MGT_STATUS_TRIAL = false ∨ g.on F.MGT_BOOT_TRIAL_VALID = false → g.bootConfirm = g) ∧
      (g.on F.MGT_STATUS_TRIAL = true → g.on F.MGT_BOOT_TRIAL_VALID = true → g.on F.PWR_SAG_WARN = false →
        g.bootConfirm.get F.MGT_BOOT_ACTIVE = g.get F.MGT_BOOT_TRIAL_SLOT % 2 ∧ g.bootConfirm.on F.MGT_BOOT_TRIAL_VALID = false ∧
        g.bootConfirm.get F.MGT_BOOT_SEQ = (g.get F.MGT_BOOT_SEQ + 1) % 2 ^ 32) ∧
      (g.on F.PWR_SAG_WARN = true ∨ n = g.get F.MGT_STATUS_SLOT → g.bootTrial n = g.set F.MGT_BOOT_REFUSED 1) ∧
      (g.on F.PWR_SAG_WARN = false → n ≠ g.get F.MGT_STATUS_SLOT → (g.bootTrial n).on F.MGT_BOOT_TRIAL_VALID = true ∧
        (g.bootTrial n).get F.MGT_BOOT_TRIAL_SLOT = n % 2 ∧ (g.bootTrial n).get F.MGT_BOOT_ATTEMPTS = 3 ∧
        (g.bootTrial n).get F.MGT_BOOT_SEQ = (g.get F.MGT_BOOT_SEQ + 1) % 2 ^ 32)) ∧
    (∀ (w v : RegW) row, s.g.reaches8 w (offOf F.MGT_OWNER_CLAIM) →
      (row = .mgtOwnerClaim w ∧ v = trig w F.MGT_OWNER_CLAIM) ∨ (row = .mgtOwnerRelease w ∧ v = trig w F.MGT_OWNER_RELEASE) →
      let h := s.g.putFields v (offOf F.MGT_OWNER_CLAIM) [F.MGT_OWNER_ENFORCE, F.MGT_OWNER_LEASE_MS]
      let k := if wrOne v F.MGT_OWNER_CLAIM then h.claim w.bus else h
      exec row s = .next (s.withG (if wrOne v F.MGT_OWNER_RELEASE then k.release_ w.bus else k))) ∧
    (∀ (g : Gikan) b n, (b = .pcieA ∧ n = 1) ∨ (b = .pcieB ∧ n = 2) →
      let held := g.get F.MGT_OWNER_HOLDER
      (held = 0 ∨ held = n ∨ g.mgt.lapsed = true ∨ g.mgt.leaseAt ≤ g.now → (g.claim b).get F.MGT_OWNER_HOLDER = n ∧ (g.claim b).mgt.lapsed = false ∧
        (g.claim b).mgt.leaseAt = g.now + 1000000 * max 10 (g.get F.MGT_OWNER_LEASE_MS)) ∧
      (held ≠ 0 → held ≠ n → g.mgt.lapsed = false → g.now < g.mgt.leaseAt → g.claim b = g) ∧
      (held = n → (g.release_ b).get F.MGT_OWNER_HOLDER = 0) ∧ (held ≠ n → g.release_ b = g)) ∧
    (s.g.get F.MGT_OWNER_HOLDER ≠ 0 → s.g.mgt.leaseAt ≤ s.g.now →
      exec .leaseLapse s = .next (s.withG ({ s.g with mgt := { s.g.mgt with lapsed := true } }))) ∧
    (s.g.get F.MGT_OWNER_HOLDER = 0 ∨ s.g.now < s.g.mgt.leaseAt → exec .leaseLapse s = .next s)

/-- R383, R384: a window access with EN clear reads all ones and takes nothing, in BOOT_ROM, RECOVERY and the Hasp state it reads zeros, and else it is a
READ or WRITE of its window; a port whose link goes down, or whose PERST is asserted, logs its group and loses its host-tier work, and comes back
when it has trained; clearing a mask lets the messages go that waited for it.
R386 to R390: with an address goes the provisional node number, which RSTDAA gives up; the direct commands answer a Gikan that has an address; a private read returns a register's 8 bytes; a node number in range is
taken, in force at once before ticks run and otherwise at the next boundary. -/
def Obligations.HostPorts : Prop :=
  (∀ (s : State) (side : Side),
    let p := s.g.port side
    let n := sideNo side
    (∀ off len,
      (p.up = false → exec (.bar4Read side off len) s = .next s) ∧
      (p.up = true → s.g.hasp = true ∨ s.g.phase ≤ 1 → exec (.bar4Read side off len) s = .next (s.withG (s.g.emit (.bar4 side (zeros len) false)))) ∧
      (p.up = true → s.g.hasp = false → 1 < s.g.phase →
        (s.g.on (F.MGT_WIN_EN n) = false → exec (.bar4Read side off len) s = .next (s.withG
          ((s.g.set (F.MGT_WIN_STATUS_ERROR n) 1).emit (.bar4 side (List.replicate len 0xFF) false)))) ∧
        (s.g.on (F.MGT_WIN_EN n) = true → exec (.bar4Read side off len) s = .next (s.withG
          (s.g.issue 46 ⟨ownHdr tyREAD 2 (s.g.get (F.MGT_WIN_CMPT n)) (s.g.get (F.MGT_WIN_BASE n) * 2 ^ 36 + off) len 0
            (s.g.get (F.MGT_WIN_WARD_WARD n)), [], []⟩ (.bar4 side len true)))))) ∧
    (∀ off data,
      (p.up = false ∨ s.g.hasp = true ∨ s.g.phase ≤ 1 → exec (.bar4Write side off data) s = .next s) ∧
      (p.up = true → s.g.hasp = false → 1 < s.g.phase →
        (s.g.on (F.MGT_WIN_EN n) = false → exec (.bar4Write side off data) s = .next (s.withG (s.g.set (F.MGT_WIN_STATUS_ERROR n) 1))) ∧
        (s.g.on (F.MGT_WIN_EN n) = true → exec (.bar4Write side off data) s = .next (s.withG
          (s.g.issue 46 ⟨ownHdr tyWRITE 2 (s.g.get (F.MGT_WIN_CMPT n)) (s.g.get (F.MGT_WIN_BASE n) * 2 ^ 36 + off) data.length 0
            (s.g.get (F.MGT_WIN_WARD_WARD n)), [], data⟩ (.bar4 side data.length false)))))) ∧
    (∀ perst : Bool,
      let q : PciePort := if perst then { PciePort.reset with perst := true } else { p with up := false, pend := [] }
      let h := (s.g.setPort side q).contained (56 + n) 0 (offOf F.MGT_STATUS_PHASE)
      (p.up = false → perst = false ∨ p.perst = true → exec (.pcieLinkDown side perst) s = .next s) ∧
      (p.up = true ∨ (perst = true ∧ p.perst = false) →
        (s.g.hasp = true → exec (.pcieLinkDown side perst) s = .next (s.withG h)) ∧
        (s.g.hasp = false → exec (.pcieLinkDown side perst) s = .next (s.withG (h.cohSettle ((h.poolLost side).hostLost))))) ∧
      (h.port side).up = q.up ∧ h.bitOf (F.FLT_WORDS_GROUPS 1) (56 + n) = true) ∧
    exec (.perstDeassert side) s = .next (s.withG (s.g.setPort side { p with perst := false })) ∧
    (p.perst = true → exec (.pcieLinkUp side) s = .next s) ∧
    (p.perst = false → exec (.pcieLinkUp side) s = .next (s.withG (s.g.setPort side { p with up := true }))) ∧
    (∀ c, p.up = false → exec (.pcieConfigWrite side c) s = .next s) ∧
    (p.up = true →
      (∀ on, exec (.pcieConfigWrite side (.functionMask on)) s = .next (s.withG ((s.g.setPort side { p with fmask := on }).msixRelease side))) ∧
      (∀ on, exec (.pcieConfigWrite side (.powerState on)) s = .next (s.withG ((s.g.setPort side { p with d3 := on }).msixRelease side))) ∧
      (∀ v on, v < 2048 → exec (.pcieConfigWrite side (.vectorMask v on)) s = .next (s.withG ((s.g.setPort side
        { p with table := p.table.put (2 * v + 1) (putBit (msixWord p (2 * v + 1)) 32 on) }).msixRelease side)))) ∧
    (∀ (g : Gikan) v, (g.port side).up = true → v ∈ (g.port side).pend →
      (msixMasked (g.port side) v = true → v ∈ ((g.msixRelease side).port side).pend) ∧
      (msixMasked (g.port side) v = false → v ∉ ((g.msixRelease side).port side).pend ∧ msixOut side (g.port side) v ∈ (g.msixRelease side).out))) ∧
  (∀ (s : State),
    let node := fun (g : Gikan) => if g.get F.GLB_NODE_NODE = 0xFFFE then g.get F.GLB_NODE_PROVISIONAL else g.get F.GLB_NODE_NODE
    (∀ da : BitVec 7, s.g.on F.MGT_I3C_SEQ_IN = true → s.g.on F.MGT_I3C_DA_VALID = false → 8 ≤ da.toNat → da.toNat ≤ 0x7D →
      ∃ t, exec (.entdaa da) s = .next t ∧ t.g.get F.GLB_NODE_PROVISIONAL = (0x2000 + 128 * s.g.get F.GLB_STRAPS_TRAY_ID + da.toNat) % 65536 ∧
        (s.g.running = false → t.g.get F.GLB_NODE_CURRENT = node t.g % 65536) ∧
        (s.g.running = true → t.g.get F.GLB_NODE_CURRENT = s.g.get F.GLB_NODE_CURRENT)) ∧
    (∃ t, exec .rstdaa s = .next t ∧ t.g.get F.GLB_NODE_PROVISIONAL = 0xFFFE) ∧
    exec .enec s = .next (s.withG (s.g.set F.MGT_I3C_IBI_ENABLED 1)) ∧ exec .disec s = .next (s.withG (s.g.set F.MGT_I3C_IBI_ENABLED 0)) ∧
    (s.g.on F.MGT_I3C_DA_VALID = false → (∀ c, c = .getpid ∨ c = .getbcr ∨ c = .getdcr ∨ (∃ off, c = .i3cPrivateRead off) → exec c s = .next s) ∧
      exec .getstatus s = .next (s.withG ({ s.g with draw := s.g.draw + 1 }))) ∧
    (s.g.on F.MGT_I3C_DA_VALID = true →
      exec .getpid s = .next (s.withG (s.g.emit (.i3c (leBytes 6 Config.i3cPid)))) ∧
      exec .getbcr s = .next (s.withG (s.g.emit (.i3c (leBytes 1 Config.i3cBcr)))) ∧
      exec .getdcr s = .next (s.withG (s.g.emit (.i3c (leBytes 1 Config.i3cDcr)))) ∧
      exec .getstatus s = .next (s.withG (({ s.g with draw := s.g.draw + 1 }).emit (.i3c (leBytes 2 (Config.i3cStatus s.g.draw))))) ∧
      (∀ off,
        let g1 : Gikan := { s.g with mgt := { s.g.mgt with i3cOff := off } }
        (off % 8 ≠ 0 → exec (.i3cPrivateRead off) s = .next (s.withG (g1.emit (.i3c (List.replicate 8 0xFF))))) ∧
        (off % 8 = 0 → g1.readable .i3c off = false → exec (.i3cPrivateRead off) s = .next (s.withG (g1.emit (.i3c (zeros 8))))) ∧
        (∀ v h, off % 8 = 0 → g1.readable .i3c off = true → g1.regWord .i3c off = (v, h) →
          exec (.i3cPrivateRead off) s = .next (s.withG ((h.readHead off).emit (.i3c (leBytes 8 v))))))) ∧
    (∀ w : RegW, s.g.reaches8 w (offOf F.GLB_NODE_NODE) →
      let v := s.g.wrValue w F.GLB_NODE_NODE
      (wrCovers w F.GLB_NODE_NODE = false ∨ (0x3FFF < v ∧ v ≠ 0xFFFE) → exec (.glbNodeWrite w) s = .next s) ∧
      (wrCovers w F.GLB_NODE_NODE = true → v ≤ 0x3FFF ∨ v = 0xFFFE → ∃ t, exec (.glbNodeWrite w) s = .next t ∧ t.g.get F.GLB_NODE_NODE = v ∧
        t.g.mem = s.g.mem ∧ (s.g.running = true → t.g.get F.GLB_NODE_CURRENT = s.g.get F.GLB_NODE_CURRENT) ∧
        (s.g.running = false → t.g.get F.GLB_NODE_CURRENT = node t.g % 65536))))

/-- R387: the Gikan takes an address by ENTDAA only while SEQ_IN is high and it has none; it then drives SEQ_OUT high; SEQ_OUT is low from reset and
on RSTDAA. (The addresses that I3C allows to a target, 8 to 0x7D, are a hypothesis here.) -/
def Obligations.SequencePins : Prop :=
  ∀ (s : State),
    (∀ da : BitVec 7,
      (s.g.on F.MGT_I3C_SEQ_IN = false ∨ s.g.on F.MGT_I3C_DA_VALID = true → exec (.entdaa da) s = .next s) ∧
      (s.g.on F.MGT_I3C_SEQ_IN = true → s.g.on F.MGT_I3C_DA_VALID = false → 8 ≤ da.toNat → da.toNat ≤ 0x7D →
        ∃ t, exec (.entdaa da) s = .next t ∧ t.g.get F.MGT_I3C_DA = da.toNat ∧ t.g.on F.MGT_I3C_DA_VALID = true ∧ t.g.on F.MGT_I3C_SEQ_OUT = true ∧
          t.g.pins.seqOut = true)) ∧
    (∃ t, exec .rstdaa s = .next t ∧ t.g.on F.MGT_I3C_DA_VALID = false ∧ t.g.on F.MGT_I3C_SEQ_OUT = false ∧ t.g.pins.seqOut = false) ∧
    (∀ (g : Gikan) cause keep, (g.restart cause keep).pins.seqOut = false ∧ (g.restart cause keep).on F.MGT_I3C_SEQ_OUT = false) ∧
    State.reset.g.pins.seqOut = false ∧ State.reset.g.on F.MGT_I3C_SEQ_OUT = false
end

