-- ==== Sys2Proof/Laws/State.lean ====
section
/-!
SUPPORT. One lemma per field of the Gikan for each of the plain updates: an update leaves every field but its own; and what a register field
holds after a register field is put.
-/

namespace Sys2Proof.Machine

/-! set -/

@[simp] theorem Gikan.now_set (g : Gikan) (f : Fld) (v : Nat) : (g.set f v).now = g.now := rfl
@[simp] theorem Gikan.draw_set (g : Gikan) (f : Fld) (v : Nat) : (g.set f v).draw = g.draw := rfl
@[simp] theorem Gikan.mem_set (g : Gikan) (f : Fld) (v : Nat) : (g.set f v).mem = g.mem := rfl
@[simp] theorem Gikan.clean_set (g : Gikan) (f : Fld) (v : Nat) : (g.set f v).clean = g.clean := rfl
@[simp] theorem Gikan.bad_set (g : Gikan) (f : Fld) (v : Nat) : (g.set f v).bad = g.bad := rfl
@[simp] theorem Gikan.out_set (g : Gikan) (f : Fld) (v : Nat) : (g.set f v).out = g.out := rfl
@[simp] theorem Gikan.pins_set (g : Gikan) (f : Fld) (v : Nat) : (g.set f v).pins = g.pins := rfl
@[simp] theorem Gikan.tick_set (g : Gikan) (f : Fld) (v : Nat) : (g.set f v).tick = g.tick := rfl
@[simp] theorem Gikan.eng_set (g : Gikan) (f : Fld) (v : Nat) : (g.set f v).eng = g.eng := rfl
@[simp] theorem Gikan.req_set (g : Gikan) (f : Fld) (v : Nat) : (g.set f v).req = g.req := rfl
@[simp] theorem Gikan.map_set (g : Gikan) (f : Fld) (v : Nat) : (g.set f v).map = g.map := rfl
@[simp] theorem Gikan.stk_set (g : Gikan) (f : Fld) (v : Nat) : (g.set f v).stk = g.stk := rfl
@[simp] theorem Gikan.tier_set (g : Gikan) (f : Fld) (v : Nat) : (g.set f v).tier = g.tier := rfl
@[simp] theorem Gikan.coh_set (g : Gikan) (f : Fld) (v : Nat) : (g.set f v).coh = g.coh := rfl
@[simp] theorem Gikan.xbar_set (g : Gikan) (f : Fld) (v : Nat) : (g.set f v).xbar = g.xbar := rfl
@[simp] theorem Gikan.lnk_set (g : Gikan) (f : Fld) (v : Nat) : (g.set f v).lnk = g.lnk := rfl
@[simp] theorem Gikan.red_set (g : Gikan) (f : Fld) (v : Nat) : (g.set f v).red = g.red := rfl
@[simp] theorem Gikan.gfs_set (g : Gikan) (f : Fld) (v : Nat) : (g.set f v).gfs = g.gfs := rfl
@[simp] theorem Gikan.cmp_set (g : Gikan) (f : Fld) (v : Nat) : (g.set f v).cmp = g.cmp := rfl
@[simp] theorem Gikan.pin_set (g : Gikan) (f : Fld) (v : Nat) : (g.set f v).pin = g.pin := rfl
@[simp] theorem Gikan.sub_set (g : Gikan) (f : Fld) (v : Nat) : (g.set f v).sub = g.sub := rfl
@[simp] theorem Gikan.sec_set (g : Gikan) (f : Fld) (v : Nat) : (g.set f v).sec = g.sec := rfl
@[simp] theorem Gikan.flt_set (g : Gikan) (f : Fld) (v : Nat) : (g.set f v).flt = g.flt := rfl
@[simp] theorem Gikan.pwr_set (g : Gikan) (f : Fld) (v : Nat) : (g.set f v).pwr = g.pwr := rfl
@[simp] theorem Gikan.mgt_set (g : Gikan) (f : Fld) (v : Nat) : (g.set f v).mgt = g.mgt := rfl

/-! emit -/

@[simp] theorem Gikan.now_emit (g : Gikan) (o : Out) : (g.emit o).now = g.now := rfl
@[simp] theorem Gikan.draw_emit (g : Gikan) (o : Out) : (g.emit o).draw = g.draw := rfl
@[simp] theorem Gikan.csr_emit (g : Gikan) (o : Out) : (g.emit o).csr = g.csr := rfl
@[simp] theorem Gikan.mem_emit (g : Gikan) (o : Out) : (g.emit o).mem = g.mem := rfl
@[simp] theorem Gikan.clean_emit (g : Gikan) (o : Out) : (g.emit o).clean = g.clean := rfl
@[simp] theorem Gikan.bad_emit (g : Gikan) (o : Out) : (g.emit o).bad = g.bad := rfl
@[simp] theorem Gikan.pins_emit (g : Gikan) (o : Out) : (g.emit o).pins = g.pins := rfl
@[simp] theorem Gikan.tick_emit (g : Gikan) (o : Out) : (g.emit o).tick = g.tick := rfl
@[simp] theorem Gikan.eng_emit (g : Gikan) (o : Out) : (g.emit o).eng = g.eng := rfl
@[simp] theorem Gikan.req_emit (g : Gikan) (o : Out) : (g.emit o).req = g.req := rfl
@[simp] theorem Gikan.map_emit (g : Gikan) (o : Out) : (g.emit o).map = g.map := rfl
@[simp] theorem Gikan.stk_emit (g : Gikan) (o : Out) : (g.emit o).stk = g.stk := rfl
@[simp] theorem Gikan.tier_emit (g : Gikan) (o : Out) : (g.emit o).tier = g.tier := rfl
@[simp] theorem Gikan.coh_emit (g : Gikan) (o : Out) : (g.emit o).coh = g.coh := rfl
@[simp] theorem Gikan.xbar_emit (g : Gikan) (o : Out) : (g.emit o).xbar = g.xbar := rfl
@[simp] theorem Gikan.lnk_emit (g : Gikan) (o : Out) : (g.emit o).lnk = g.lnk := rfl
@[simp] theorem Gikan.red_emit (g : Gikan) (o : Out) : (g.emit o).red = g.red := rfl
@[simp] theorem Gikan.gfs_emit (g : Gikan) (o : Out) : (g.emit o).gfs = g.gfs := rfl
@[simp] theorem Gikan.cmp_emit (g : Gikan) (o : Out) : (g.emit o).cmp = g.cmp := rfl
@[simp] theorem Gikan.pin_emit (g : Gikan) (o : Out) : (g.emit o).pin = g.pin := rfl
@[simp] theorem Gikan.sub_emit (g : Gikan) (o : Out) : (g.emit o).sub = g.sub := rfl
@[simp] theorem Gikan.sec_emit (g : Gikan) (o : Out) : (g.emit o).sec = g.sec := rfl
@[simp] theorem Gikan.flt_emit (g : Gikan) (o : Out) : (g.emit o).flt = g.flt := rfl
@[simp] theorem Gikan.pwr_emit (g : Gikan) (o : Out) : (g.emit o).pwr = g.pwr := rfl
@[simp] theorem Gikan.mgt_emit (g : Gikan) (o : Out) : (g.emit o).mgt = g.mgt := rfl
@[simp] theorem Gikan.get_emit (g : Gikan) (o : Out) (h : Fld) : (g.emit o).get h = g.get h := rfl

/-! setLink -/

@[simp] theorem Gikan.now_setLink (g : Gikan) (p : Nat) (l : PortLnk) : (g.setLink p l).now = g.now := rfl
@[simp] theorem Gikan.draw_setLink (g : Gikan) (p : Nat) (l : PortLnk) : (g.setLink p l).draw = g.draw := rfl
@[simp] theorem Gikan.csr_setLink (g : Gikan) (p : Nat) (l : PortLnk) : (g.setLink p l).csr = g.csr := rfl
@[simp] theorem Gikan.mem_setLink (g : Gikan) (p : Nat) (l : PortLnk) : (g.setLink p l).mem = g.mem := rfl
@[simp] theorem Gikan.clean_setLink (g : Gikan) (p : Nat) (l : PortLnk) : (g.setLink p l).clean = g.clean := rfl
@[simp] theorem Gikan.bad_setLink (g : Gikan) (p : Nat) (l : PortLnk) : (g.setLink p l).bad = g.bad := rfl
@[simp] theorem Gikan.out_setLink (g : Gikan) (p : Nat) (l : PortLnk) : (g.setLink p l).out = g.out := rfl
@[simp] theorem Gikan.pins_setLink (g : Gikan) (p : Nat) (l : PortLnk) : (g.setLink p l).pins = g.pins := rfl
@[simp] theorem Gikan.tick_setLink (g : Gikan) (p : Nat) (l : PortLnk) : (g.setLink p l).tick = g.tick := rfl
@[simp] theorem Gikan.eng_setLink (g : Gikan) (p : Nat) (l : PortLnk) : (g.setLink p l).eng = g.eng := rfl
@[simp] theorem Gikan.req_setLink (g : Gikan) (p : Nat) (l : PortLnk) : (g.setLink p l).req = g.req := rfl
@[simp] theorem Gikan.map_setLink (g : Gikan) (p : Nat) (l : PortLnk) : (g.setLink p l).map = g.map := rfl
@[simp] theorem Gikan.stk_setLink (g : Gikan) (p : Nat) (l : PortLnk) : (g.setLink p l).stk = g.stk := rfl
@[simp] theorem Gikan.tier_setLink (g : Gikan) (p : Nat) (l : PortLnk) : (g.setLink p l).tier = g.tier := rfl
@[simp] theorem Gikan.coh_setLink (g : Gikan) (p : Nat) (l : PortLnk) : (g.setLink p l).coh = g.coh := rfl
@[simp] theorem Gikan.xbar_setLink (g : Gikan) (p : Nat) (l : PortLnk) : (g.setLink p l).xbar = g.xbar := rfl
@[simp] theorem Gikan.red_setLink (g : Gikan) (p : Nat) (l : PortLnk) : (g.setLink p l).red = g.red := rfl
@[simp] theorem Gikan.gfs_setLink (g : Gikan) (p : Nat) (l : PortLnk) : (g.setLink p l).gfs = g.gfs := rfl
@[simp] theorem Gikan.cmp_setLink (g : Gikan) (p : Nat) (l : PortLnk) : (g.setLink p l).cmp = g.cmp := rfl
@[simp] theorem Gikan.pin_setLink (g : Gikan) (p : Nat) (l : PortLnk) : (g.setLink p l).pin = g.pin := rfl
@[simp] theorem Gikan.sub_setLink (g : Gikan) (p : Nat) (l : PortLnk) : (g.setLink p l).sub = g.sub := rfl
@[simp] theorem Gikan.sec_setLink (g : Gikan) (p : Nat) (l : PortLnk) : (g.setLink p l).sec = g.sec := rfl
@[simp] theorem Gikan.flt_setLink (g : Gikan) (p : Nat) (l : PortLnk) : (g.setLink p l).flt = g.flt := rfl
@[simp] theorem Gikan.pwr_setLink (g : Gikan) (p : Nat) (l : PortLnk) : (g.setLink p l).pwr = g.pwr := rfl
@[simp] theorem Gikan.mgt_setLink (g : Gikan) (p : Nat) (l : PortLnk) : (g.setLink p l).mgt = g.mgt := rfl
@[simp] theorem Gikan.get_setLink (g : Gikan) (p : Nat) (l : PortLnk) (h : Fld) : (g.setLink p l).get h = g.get h := rfl

/-! setFrame -/

@[simp] theorem Gikan.now_setFrame (g : Gikan) (f : Nat) (x : FrameSt) : (g.setFrame f x).now = g.now := rfl
@[simp] theorem Gikan.draw_setFrame (g : Gikan) (f : Nat) (x : FrameSt) : (g.setFrame f x).draw = g.draw := rfl
@[simp] theorem Gikan.csr_setFrame (g : Gikan) (f : Nat) (x : FrameSt) : (g.setFrame f x).csr = g.csr := rfl
@[simp] theorem Gikan.mem_setFrame (g : Gikan) (f : Nat) (x : FrameSt) : (g.setFrame f x).mem = g.mem := rfl
@[simp] theorem Gikan.clean_setFrame (g : Gikan) (f : Nat) (x : FrameSt) : (g.setFrame f x).clean = g.clean := rfl
@[simp] theorem Gikan.bad_setFrame (g : Gikan) (f : Nat) (x : FrameSt) : (g.setFrame f x).bad = g.bad := rfl
@[simp] theorem Gikan.out_setFrame (g : Gikan) (f : Nat) (x : FrameSt) : (g.setFrame f x).out = g.out := rfl
@[simp] theorem Gikan.pins_setFrame (g : Gikan) (f : Nat) (x : FrameSt) : (g.setFrame f x).pins = g.pins := rfl
@[simp] theorem Gikan.tick_setFrame (g : Gikan) (f : Nat) (x : FrameSt) : (g.setFrame f x).tick = g.tick := rfl
@[simp] theorem Gikan.eng_setFrame (g : Gikan) (f : Nat) (x : FrameSt) : (g.setFrame f x).eng = g.eng := rfl
@[simp] theorem Gikan.req_setFrame (g : Gikan) (f : Nat) (x : FrameSt) : (g.setFrame f x).req = g.req := rfl
@[simp] theorem Gikan.map_setFrame (g : Gikan) (f : Nat) (x : FrameSt) : (g.setFrame f x).map = g.map := rfl
@[simp] theorem Gikan.tier_setFrame (g : Gikan) (f : Nat) (x : FrameSt) : (g.setFrame f x).tier = g.tier := rfl
@[simp] theorem Gikan.coh_setFrame (g : Gikan) (f : Nat) (x : FrameSt) : (g.setFrame f x).coh = g.coh := rfl
@[simp] theorem Gikan.xbar_setFrame (g : Gikan) (f : Nat) (x : FrameSt) : (g.setFrame f x).xbar = g.xbar := rfl
@[simp] theorem Gikan.lnk_setFrame (g : Gikan) (f : Nat) (x : FrameSt) : (g.setFrame f x).lnk = g.lnk := rfl
@[simp] theorem Gikan.red_setFrame (g : Gikan) (f : Nat) (x : FrameSt) : (g.setFrame f x).red = g.red := rfl
@[simp] theorem Gikan.gfs_setFrame (g : Gikan) (f : Nat) (x : FrameSt) : (g.setFrame f x).gfs = g.gfs := rfl
@[simp] theorem Gikan.cmp_setFrame (g : Gikan) (f : Nat) (x : FrameSt) : (g.setFrame f x).cmp = g.cmp := rfl
@[simp] theorem Gikan.pin_setFrame (g : Gikan) (f : Nat) (x : FrameSt) : (g.setFrame f x).pin = g.pin := rfl
@[simp] theorem Gikan.sub_setFrame (g : Gikan) (f : Nat) (x : FrameSt) : (g.setFrame f x).sub = g.sub := rfl
@[simp] theorem Gikan.sec_setFrame (g : Gikan) (f : Nat) (x : FrameSt) : (g.setFrame f x).sec = g.sec := rfl
@[simp] theorem Gikan.flt_setFrame (g : Gikan) (f : Nat) (x : FrameSt) : (g.setFrame f x).flt = g.flt := rfl
@[simp] theorem Gikan.pwr_setFrame (g : Gikan) (f : Nat) (x : FrameSt) : (g.setFrame f x).pwr = g.pwr := rfl
@[simp] theorem Gikan.mgt_setFrame (g : Gikan) (f : Nat) (x : FrameSt) : (g.setFrame f x).mgt = g.mgt := rfl
@[simp] theorem Gikan.get_setFrame (g : Gikan) (f : Nat) (x : FrameSt) (h : Fld) : (g.setFrame f x).get h = g.get h := rfl

/-! setPage -/

@[simp] theorem Gikan.now_setPage (g : Gikan) (i p : Nat) (r : PageRec) : (g.setPage i p r).now = g.now := rfl
@[simp] theorem Gikan.draw_setPage (g : Gikan) (i p : Nat) (r : PageRec) : (g.setPage i p r).draw = g.draw := rfl
@[simp] theorem Gikan.csr_setPage (g : Gikan) (i p : Nat) (r : PageRec) : (g.setPage i p r).csr = g.csr := rfl
@[simp] theorem Gikan.mem_setPage (g : Gikan) (i p : Nat) (r : PageRec) : (g.setPage i p r).mem = g.mem := rfl
@[simp] theorem Gikan.clean_setPage (g : Gikan) (i p : Nat) (r : PageRec) : (g.setPage i p r).clean = g.clean := rfl
@[simp] theorem Gikan.bad_setPage (g : Gikan) (i p : Nat) (r : PageRec) : (g.setPage i p r).bad = g.bad := rfl
@[simp] theorem Gikan.out_setPage (g : Gikan) (i p : Nat) (r : PageRec) : (g.setPage i p r).out = g.out := rfl
@[simp] theorem Gikan.pins_setPage (g : Gikan) (i p : Nat) (r : PageRec) : (g.setPage i p r).pins = g.pins := rfl
@[simp] theorem Gikan.tick_setPage (g : Gikan) (i p : Nat) (r : PageRec) : (g.setPage i p r).tick = g.tick := rfl
@[simp] theorem Gikan.eng_setPage (g : Gikan) (i p : Nat) (r : PageRec) : (g.setPage i p r).eng = g.eng := rfl
@[simp] theorem Gikan.req_setPage (g : Gikan) (i p : Nat) (r : PageRec) : (g.setPage i p r).req = g.req := rfl
@[simp] theorem Gikan.map_setPage (g : Gikan) (i p : Nat) (r : PageRec) : (g.setPage i p r).map = g.map := rfl
@[simp] theorem Gikan.stk_setPage (g : Gikan) (i p : Nat) (r : PageRec) : (g.setPage i p r).stk = g.stk := rfl
@[simp] theorem Gikan.coh_setPage (g : Gikan) (i p : Nat) (r : PageRec) : (g.setPage i p r).coh = g.coh := rfl
@[simp] theorem Gikan.xbar_setPage (g : Gikan) (i p : Nat) (r : PageRec) : (g.setPage i p r).xbar = g.xbar := rfl
@[simp] theorem Gikan.lnk_setPage (g : Gikan) (i p : Nat) (r : PageRec) : (g.setPage i p r).lnk = g.lnk := rfl
@[simp] theorem Gikan.red_setPage (g : Gikan) (i p : Nat) (r : PageRec) : (g.setPage i p r).red = g.red := rfl
@[simp] theorem Gikan.gfs_setPage (g : Gikan) (i p : Nat) (r : PageRec) : (g.setPage i p r).gfs = g.gfs := rfl
@[simp] theorem Gikan.cmp_setPage (g : Gikan) (i p : Nat) (r : PageRec) : (g.setPage i p r).cmp = g.cmp := rfl
@[simp] theorem Gikan.pin_setPage (g : Gikan) (i p : Nat) (r : PageRec) : (g.setPage i p r).pin = g.pin := rfl
@[simp] theorem Gikan.sub_setPage (g : Gikan) (i p : Nat) (r : PageRec) : (g.setPage i p r).sub = g.sub := rfl
@[simp] theorem Gikan.sec_setPage (g : Gikan) (i p : Nat) (r : PageRec) : (g.setPage i p r).sec = g.sec := rfl
@[simp] theorem Gikan.flt_setPage (g : Gikan) (i p : Nat) (r : PageRec) : (g.setPage i p r).flt = g.flt := rfl
@[simp] theorem Gikan.pwr_setPage (g : Gikan) (i p : Nat) (r : PageRec) : (g.setPage i p r).pwr = g.pwr := rfl
@[simp] theorem Gikan.mgt_setPage (g : Gikan) (i p : Nat) (r : PageRec) : (g.setPage i p r).mgt = g.mgt := rfl
@[simp] theorem Gikan.get_setPage (g : Gikan) (i p : Nat) (r : PageRec) (h : Fld) : (g.setPage i p r).get h = g.get h := rfl

/-! setCq -/

@[simp] theorem Gikan.now_setCq (g : Gikan) (n : Nat) (r : Ring) : (g.setCq n r).now = g.now := rfl
@[simp] theorem Gikan.draw_setCq (g : Gikan) (n : Nat) (r : Ring) : (g.setCq n r).draw = g.draw := rfl
@[simp] theorem Gikan.csr_setCq (g : Gikan) (n : Nat) (r : Ring) : (g.setCq n r).csr = g.csr := rfl
@[simp] theorem Gikan.mem_setCq (g : Gikan) (n : Nat) (r : Ring) : (g.setCq n r).mem = g.mem := rfl
@[simp] theorem Gikan.clean_setCq (g : Gikan) (n : Nat) (r : Ring) : (g.setCq n r).clean = g.clean := rfl
@[simp] theorem Gikan.bad_setCq (g : Gikan) (n : Nat) (r : Ring) : (g.setCq n r).bad = g.bad := rfl
@[simp] theorem Gikan.out_setCq (g : Gikan) (n : Nat) (r : Ring) : (g.setCq n r).out = g.out := rfl
@[simp] theorem Gikan.pins_setCq (g : Gikan) (n : Nat) (r : Ring) : (g.setCq n r).pins = g.pins := rfl
@[simp] theorem Gikan.tick_setCq (g : Gikan) (n : Nat) (r : Ring) : (g.setCq n r).tick = g.tick := rfl
@[simp] theorem Gikan.eng_setCq (g : Gikan) (n : Nat) (r : Ring) : (g.setCq n r).eng = g.eng := rfl
@[simp] theorem Gikan.req_setCq (g : Gikan) (n : Nat) (r : Ring) : (g.setCq n r).req = g.req := rfl
@[simp] theorem Gikan.map_setCq (g : Gikan) (n : Nat) (r : Ring) : (g.setCq n r).map = g.map := rfl
@[simp] theorem Gikan.stk_setCq (g : Gikan) (n : Nat) (r : Ring) : (g.setCq n r).stk = g.stk := rfl
@[simp] theorem Gikan.tier_setCq (g : Gikan) (n : Nat) (r : Ring) : (g.setCq n r).tier = g.tier := rfl
@[simp] theorem Gikan.coh_setCq (g : Gikan) (n : Nat) (r : Ring) : (g.setCq n r).coh = g.coh := rfl
@[simp] theorem Gikan.xbar_setCq (g : Gikan) (n : Nat) (r : Ring) : (g.setCq n r).xbar = g.xbar := rfl
@[simp] theorem Gikan.lnk_setCq (g : Gikan) (n : Nat) (r : Ring) : (g.setCq n r).lnk = g.lnk := rfl
@[simp] theorem Gikan.red_setCq (g : Gikan) (n : Nat) (r : Ring) : (g.setCq n r).red = g.red := rfl
@[simp] theorem Gikan.gfs_setCq (g : Gikan) (n : Nat) (r : Ring) : (g.setCq n r).gfs = g.gfs := rfl
@[simp] theorem Gikan.cmp_setCq (g : Gikan) (n : Nat) (r : Ring) : (g.setCq n r).cmp = g.cmp := rfl
@[simp] theorem Gikan.pin_setCq (g : Gikan) (n : Nat) (r : Ring) : (g.setCq n r).pin = g.pin := rfl
@[simp] theorem Gikan.sec_setCq (g : Gikan) (n : Nat) (r : Ring) : (g.setCq n r).sec = g.sec := rfl
@[simp] theorem Gikan.flt_setCq (g : Gikan) (n : Nat) (r : Ring) : (g.setCq n r).flt = g.flt := rfl
@[simp] theorem Gikan.pwr_setCq (g : Gikan) (n : Nat) (r : Ring) : (g.setCq n r).pwr = g.pwr := rfl
@[simp] theorem Gikan.mgt_setCq (g : Gikan) (n : Nat) (r : Ring) : (g.setCq n r).mgt = g.mgt := rfl
@[simp] theorem Gikan.get_setCq (g : Gikan) (n : Nat) (r : Ring) (h : Fld) : (g.setCq n r).get h = g.get h := rfl

/-! setMq -/

@[simp] theorem Gikan.now_setMq (g : Gikan) (n : Nat) (r : Ring) : (g.setMq n r).now = g.now := rfl
@[simp] theorem Gikan.draw_setMq (g : Gikan) (n : Nat) (r : Ring) : (g.setMq n r).draw = g.draw := rfl
@[simp] theorem Gikan.csr_setMq (g : Gikan) (n : Nat) (r : Ring) : (g.setMq n r).csr = g.csr := rfl
@[simp] theorem Gikan.mem_setMq (g : Gikan) (n : Nat) (r : Ring) : (g.setMq n r).mem = g.mem := rfl
@[simp] theorem Gikan.clean_setMq (g : Gikan) (n : Nat) (r : Ring) : (g.setMq n r).clean = g.clean := rfl
@[simp] theorem Gikan.bad_setMq (g : Gikan) (n : Nat) (r : Ring) : (g.setMq n r).bad = g.bad := rfl
@[simp] theorem Gikan.out_setMq (g : Gikan) (n : Nat) (r : Ring) : (g.setMq n r).out = g.out := rfl
@[simp] theorem Gikan.pins_setMq (g : Gikan) (n : Nat) (r : Ring) : (g.setMq n r).pins = g.pins := rfl
@[simp] theorem Gikan.tick_setMq (g : Gikan) (n : Nat) (r : Ring) : (g.setMq n r).tick = g.tick := rfl
@[simp] theorem Gikan.eng_setMq (g : Gikan) (n : Nat) (r : Ring) : (g.setMq n r).eng = g.eng := rfl
@[simp] theorem Gikan.req_setMq (g : Gikan) (n : Nat) (r : Ring) : (g.setMq n r).req = g.req := rfl
@[simp] theorem Gikan.map_setMq (g : Gikan) (n : Nat) (r : Ring) : (g.setMq n r).map = g.map := rfl
@[simp] theorem Gikan.stk_setMq (g : Gikan) (n : Nat) (r : Ring) : (g.setMq n r).stk = g.stk := rfl
@[simp] theorem Gikan.tier_setMq (g : Gikan) (n : Nat) (r : Ring) : (g.setMq n r).tier = g.tier := rfl
@[simp] theorem Gikan.coh_setMq (g : Gikan) (n : Nat) (r : Ring) : (g.setMq n r).coh = g.coh := rfl
@[simp] theorem Gikan.xbar_setMq (g : Gikan) (n : Nat) (r : Ring) : (g.setMq n r).xbar = g.xbar := rfl
@[simp] theorem Gikan.lnk_setMq (g : Gikan) (n : Nat) (r : Ring) : (g.setMq n r).lnk = g.lnk := rfl
@[simp] theorem Gikan.red_setMq (g : Gikan) (n : Nat) (r : Ring) : (g.setMq n r).red = g.red := rfl
@[simp] theorem Gikan.gfs_setMq (g : Gikan) (n : Nat) (r : Ring) : (g.setMq n r).gfs = g.gfs := rfl
@[simp] theorem Gikan.cmp_setMq (g : Gikan) (n : Nat) (r : Ring) : (g.setMq n r).cmp = g.cmp := rfl
@[simp] theorem Gikan.pin_setMq (g : Gikan) (n : Nat) (r : Ring) : (g.setMq n r).pin = g.pin := rfl
@[simp] theorem Gikan.sec_setMq (g : Gikan) (n : Nat) (r : Ring) : (g.setMq n r).sec = g.sec := rfl
@[simp] theorem Gikan.flt_setMq (g : Gikan) (n : Nat) (r : Ring) : (g.setMq n r).flt = g.flt := rfl
@[simp] theorem Gikan.pwr_setMq (g : Gikan) (n : Nat) (r : Ring) : (g.setMq n r).pwr = g.pwr := rfl
@[simp] theorem Gikan.mgt_setMq (g : Gikan) (n : Nat) (r : Ring) : (g.setMq n r).mgt = g.mgt := rfl
@[simp] theorem Gikan.get_setMq (g : Gikan) (n : Nat) (r : Ring) (h : Fld) : (g.setMq n r).get h = g.get h := rfl

/-! setStream -/

@[simp] theorem Gikan.now_setStream (g : Gikan) (n : Nat) (x : Stream) : (g.setStream n x).now = g.now := rfl
@[simp] theorem Gikan.draw_setStream (g : Gikan) (n : Nat) (x : Stream) : (g.setStream n x).draw = g.draw := rfl
@[simp] theorem Gikan.csr_setStream (g : Gikan) (n : Nat) (x : Stream) : (g.setStream n x).csr = g.csr := rfl
@[simp] theorem Gikan.mem_setStream (g : Gikan) (n : Nat) (x : Stream) : (g.setStream n x).mem = g.mem := rfl
@[simp] theorem Gikan.clean_setStream (g : Gikan) (n : Nat) (x : Stream) : (g.setStream n x).clean = g.clean := rfl
@[simp] theorem Gikan.bad_setStream (g : Gikan) (n : Nat) (x : Stream) : (g.setStream n x).bad = g.bad := rfl
@[simp] theorem Gikan.out_setStream (g : Gikan) (n : Nat) (x : Stream) : (g.setStream n x).out = g.out := rfl
@[simp] theorem Gikan.pins_setStream (g : Gikan) (n : Nat) (x : Stream) : (g.setStream n x).pins = g.pins := rfl
@[simp] theorem Gikan.tick_setStream (g : Gikan) (n : Nat) (x : Stream) : (g.setStream n x).tick = g.tick := rfl
@[simp] theorem Gikan.eng_setStream (g : Gikan) (n : Nat) (x : Stream) : (g.setStream n x).eng = g.eng := rfl
@[simp] theorem Gikan.req_setStream (g : Gikan) (n : Nat) (x : Stream) : (g.setStream n x).req = g.req := rfl
@[simp] theorem Gikan.map_setStream (g : Gikan) (n : Nat) (x : Stream) : (g.setStream n x).map = g.map := rfl
@[simp] theorem Gikan.stk_setStream (g : Gikan) (n : Nat) (x : Stream) : (g.setStream n x).stk = g.stk := rfl
@[simp] theorem Gikan.tier_setStream (g : Gikan) (n : Nat) (x : Stream) : (g.setStream n x).tier = g.tier := rfl
@[simp] theorem Gikan.coh_setStream (g : Gikan) (n : Nat) (x : Stream) : (g.setStream n x).coh = g.coh := rfl
@[simp] theorem Gikan.xbar_setStream (g : Gikan) (n : Nat) (x : Stream) : (g.setStream n x).xbar = g.xbar := rfl
@[simp] theorem Gikan.lnk_setStream (g : Gikan) (n : Nat) (x : Stream) : (g.setStream n x).lnk = g.lnk := rfl
@[simp] theorem Gikan.gfs_setStream (g : Gikan) (n : Nat) (x : Stream) : (g.setStream n x).gfs = g.gfs := rfl
@[simp] theorem Gikan.cmp_setStream (g : Gikan) (n : Nat) (x : Stream) : (g.setStream n x).cmp = g.cmp := rfl
@[simp] theorem Gikan.pin_setStream (g : Gikan) (n : Nat) (x : Stream) : (g.setStream n x).pin = g.pin := rfl
@[simp] theorem Gikan.sub_setStream (g : Gikan) (n : Nat) (x : Stream) : (g.setStream n x).sub = g.sub := rfl
@[simp] theorem Gikan.sec_setStream (g : Gikan) (n : Nat) (x : Stream) : (g.setStream n x).sec = g.sec := rfl
@[simp] theorem Gikan.flt_setStream (g : Gikan) (n : Nat) (x : Stream) : (g.setStream n x).flt = g.flt := rfl
@[simp] theorem Gikan.pwr_setStream (g : Gikan) (n : Nat) (x : Stream) : (g.setStream n x).pwr = g.pwr := rfl
@[simp] theorem Gikan.mgt_setStream (g : Gikan) (n : Nat) (x : Stream) : (g.setStream n x).mgt = g.mgt := rfl
@[simp] theorem Gikan.get_setStream (g : Gikan) (n : Nat) (x : Stream) (h : Fld) : (g.setStream n x).get h = g.get h := rfl

/-! setPinCore -/

@[simp] theorem Gikan.now_setPinCore (g : Gikan) (c : Nat) (x : PinCore) : (g.setPinCore c x).now = g.now := rfl
@[simp] theorem Gikan.draw_setPinCore (g : Gikan) (c : Nat) (x : PinCore) : (g.setPinCore c x).draw = g.draw := rfl
@[simp] theorem Gikan.csr_setPinCore (g : Gikan) (c : Nat) (x : PinCore) : (g.setPinCore c x).csr = g.csr := rfl
@[simp] theorem Gikan.mem_setPinCore (g : Gikan) (c : Nat) (x : PinCore) : (g.setPinCore c x).mem = g.mem := rfl
@[simp] theorem Gikan.clean_setPinCore (g : Gikan) (c : Nat) (x : PinCore) : (g.setPinCore c x).clean = g.clean := rfl
@[simp] theorem Gikan.bad_setPinCore (g : Gikan) (c : Nat) (x : PinCore) : (g.setPinCore c x).bad = g.bad := rfl
@[simp] theorem Gikan.out_setPinCore (g : Gikan) (c : Nat) (x : PinCore) : (g.setPinCore c x).out = g.out := rfl
@[simp] theorem Gikan.pins_setPinCore (g : Gikan) (c : Nat) (x : PinCore) : (g.setPinCore c x).pins = g.pins := rfl
@[simp] theorem Gikan.tick_setPinCore (g : Gikan) (c : Nat) (x : PinCore) : (g.setPinCore c x).tick = g.tick := rfl
@[simp] theorem Gikan.eng_setPinCore (g : Gikan) (c : Nat) (x : PinCore) : (g.setPinCore c x).eng = g.eng := rfl
@[simp] theorem Gikan.req_setPinCore (g : Gikan) (c : Nat) (x : PinCore) : (g.setPinCore c x).req = g.req := rfl
@[simp] theorem Gikan.map_setPinCore (g : Gikan) (c : Nat) (x : PinCore) : (g.setPinCore c x).map = g.map := rfl
@[simp] theorem Gikan.stk_setPinCore (g : Gikan) (c : Nat) (x : PinCore) : (g.setPinCore c x).stk = g.stk := rfl
@[simp] theorem Gikan.tier_setPinCore (g : Gikan) (c : Nat) (x : PinCore) : (g.setPinCore c x).tier = g.tier := rfl
@[simp] theorem Gikan.coh_setPinCore (g : Gikan) (c : Nat) (x : PinCore) : (g.setPinCore c x).coh = g.coh := rfl
@[simp] theorem Gikan.xbar_setPinCore (g : Gikan) (c : Nat) (x : PinCore) : (g.setPinCore c x).xbar = g.xbar := rfl
@[simp] theorem Gikan.lnk_setPinCore (g : Gikan) (c : Nat) (x : PinCore) : (g.setPinCore c x).lnk = g.lnk := rfl
@[simp] theorem Gikan.red_setPinCore (g : Gikan) (c : Nat) (x : PinCore) : (g.setPinCore c x).red = g.red := rfl
@[simp] theorem Gikan.gfs_setPinCore (g : Gikan) (c : Nat) (x : PinCore) : (g.setPinCore c x).gfs = g.gfs := rfl
@[simp] theorem Gikan.cmp_setPinCore (g : Gikan) (c : Nat) (x : PinCore) : (g.setPinCore c x).cmp = g.cmp := rfl
@[simp] theorem Gikan.sub_setPinCore (g : Gikan) (c : Nat) (x : PinCore) : (g.setPinCore c x).sub = g.sub := rfl
@[simp] theorem Gikan.sec_setPinCore (g : Gikan) (c : Nat) (x : PinCore) : (g.setPinCore c x).sec = g.sec := rfl
@[simp] theorem Gikan.flt_setPinCore (g : Gikan) (c : Nat) (x : PinCore) : (g.setPinCore c x).flt = g.flt := rfl
@[simp] theorem Gikan.pwr_setPinCore (g : Gikan) (c : Nat) (x : PinCore) : (g.setPinCore c x).pwr = g.pwr := rfl
@[simp] theorem Gikan.mgt_setPinCore (g : Gikan) (c : Nat) (x : PinCore) : (g.setPinCore c x).mgt = g.mgt := rfl
@[simp] theorem Gikan.get_setPinCore (g : Gikan) (c : Nat) (x : PinCore) (h : Fld) : (g.setPinCore c x).get h = g.get h := rfl

/-! setKway -/

@[simp] theorem Gikan.now_setKway (g : Gikan) (k : Nat) (x : Keyway) : (g.setKway k x).now = g.now := rfl
@[simp] theorem Gikan.draw_setKway (g : Gikan) (k : Nat) (x : Keyway) : (g.setKway k x).draw = g.draw := rfl
@[simp] theorem Gikan.csr_setKway (g : Gikan) (k : Nat) (x : Keyway) : (g.setKway k x).csr = g.csr := rfl
@[simp] theorem Gikan.mem_setKway (g : Gikan) (k : Nat) (x : Keyway) : (g.setKway k x).mem = g.mem := rfl
@[simp] theorem Gikan.clean_setKway (g : Gikan) (k : Nat) (x : Keyway) : (g.setKway k x).clean = g.clean := rfl
@[simp] theorem Gikan.bad_setKway (g : Gikan) (k : Nat) (x : Keyway) : (g.setKway k x).bad = g.bad := rfl
@[simp] theorem Gikan.out_setKway (g : Gikan) (k : Nat) (x : Keyway) : (g.setKway k x).out = g.out := rfl
@[simp] theorem Gikan.pins_setKway (g : Gikan) (k : Nat) (x : Keyway) : (g.setKway k x).pins = g.pins := rfl
@[simp] theorem Gikan.tick_setKway (g : Gikan) (k : Nat) (x : Keyway) : (g.setKway k x).tick = g.tick := rfl
@[simp] theorem Gikan.eng_setKway (g : Gikan) (k : Nat) (x : Keyway) : (g.setKway k x).eng = g.eng := rfl
@[simp] theorem Gikan.req_setKway (g : Gikan) (k : Nat) (x : Keyway) : (g.setKway k x).req = g.req := rfl
@[simp] theorem Gikan.map_setKway (g : Gikan) (k : Nat) (x : Keyway) : (g.setKway k x).map = g.map := rfl
@[simp] theorem Gikan.stk_setKway (g : Gikan) (k : Nat) (x : Keyway) : (g.setKway k x).stk = g.stk := rfl
@[simp] theorem Gikan.tier_setKway (g : Gikan) (k : Nat) (x : Keyway) : (g.setKway k x).tier = g.tier := rfl
@[simp] theorem Gikan.coh_setKway (g : Gikan) (k : Nat) (x : Keyway) : (g.setKway k x).coh = g.coh := rfl
@[simp] theorem Gikan.xbar_setKway (g : Gikan) (k : Nat) (x : Keyway) : (g.setKway k x).xbar = g.xbar := rfl
@[simp] theorem Gikan.lnk_setKway (g : Gikan) (k : Nat) (x : Keyway) : (g.setKway k x).lnk = g.lnk := rfl
@[simp] theorem Gikan.red_setKway (g : Gikan) (k : Nat) (x : Keyway) : (g.setKway k x).red = g.red := rfl
@[simp] theorem Gikan.gfs_setKway (g : Gikan) (k : Nat) (x : Keyway) : (g.setKway k x).gfs = g.gfs := rfl
@[simp] theorem Gikan.cmp_setKway (g : Gikan) (k : Nat) (x : Keyway) : (g.setKway k x).cmp = g.cmp := rfl
@[simp] theorem Gikan.pin_setKway (g : Gikan) (k : Nat) (x : Keyway) : (g.setKway k x).pin = g.pin := rfl
@[simp] theorem Gikan.sec_setKway (g : Gikan) (k : Nat) (x : Keyway) : (g.setKway k x).sec = g.sec := rfl
@[simp] theorem Gikan.flt_setKway (g : Gikan) (k : Nat) (x : Keyway) : (g.setKway k x).flt = g.flt := rfl
@[simp] theorem Gikan.pwr_setKway (g : Gikan) (k : Nat) (x : Keyway) : (g.setKway k x).pwr = g.pwr := rfl
@[simp] theorem Gikan.mgt_setKway (g : Gikan) (k : Nat) (x : Keyway) : (g.setKway k x).mgt = g.mgt := rfl
@[simp] theorem Gikan.get_setKway (g : Gikan) (k : Nat) (x : Keyway) (h : Fld) : (g.setKway k x).get h = g.get h := rfl

/-! Outcomes -/

@[simp] theorem State.done_eq (s : State) (g : Gikan) : s.done g = .next { s with g := g } := rfl

end Sys2Proof.Machine
end

