-- ==== Sys2Proof/Laws/Tables.lean ====
section
/-!
SUPPORT. The laws of the sparse tables: what is read after an entry is put or taken away, and the canonical form of memory, which every
memory operation keeps.
-/

namespace Sys2Proof.Machine

/-! Reading after writing -/

@[simp] theorem Tbl.get?_nil {α : Type} (x : Nat) : Tbl.get? ([] : Tbl α) x = none := rfl

@[simp] theorem Tbl.get?_put_same {α : Type} (t : Tbl α) (x : Nat) (a : α) : (t.put x a).get? x = some a := by
  induction t with
  | nil => simp [Tbl.put, Tbl.get?]
  | cons e t ih =>
    obtain ⟨k, v⟩ := e
    by_cases h : x < k
    · simp [Tbl.put, h, Tbl.get?]
    · by_cases h2 : k = x
      · simp [Tbl.put, h2, Tbl.get?]
      · simp [Tbl.put, h, h2, Tbl.get?, ih]

theorem Tbl.get?_put_ne {α : Type} (t : Tbl α) {x y : Nat} (a : α) (hxy : y ≠ x) : (t.put x a).get? y = t.get? y := by
  induction t with
  | nil => simp [Tbl.put, Tbl.get?, Ne.symm hxy]
  | cons e t ih =>
    obtain ⟨k, v⟩ := e
    by_cases h : x < k
    · simp [Tbl.put, h, Tbl.get?, Ne.symm hxy]
    · by_cases h2 : k = x
      · subst h2; simp [Tbl.put, Tbl.get?, Ne.symm hxy]
      · by_cases h3 : k = y
        · subst h3; simp [Tbl.put, h, h2, Tbl.get?]
        · simp [Tbl.put, h, h2, h3, Tbl.get?, ih]

@[simp] theorem Tbl.get?_del_same {α : Type} (t : Tbl α) (x : Nat) : (t.del x).get? x = none := by
  induction t with
  | nil => rfl
  | cons e t ih =>
    obtain ⟨k, v⟩ := e
    by_cases h : k = x
    · simpa [Tbl.del, h, Tbl.get?] using ih
    · simpa [Tbl.del, h, Tbl.get?] using ih

theorem Tbl.get?_del_ne {α : Type} (t : Tbl α) {x y : Nat} (hxy : y ≠ x) : (t.del x).get? y = t.get? y := by
  induction t with
  | nil => rfl
  | cons e t ih =>
    obtain ⟨k, v⟩ := e
    have ih' : Tbl.get? (List.filter (fun e => e.1 != x) t) y = Tbl.get? t y := ih
    by_cases h : k = x
    · subst h; simp [Tbl.del, Tbl.get?, Ne.symm hxy, ih']
    · simp [Tbl.del, h, Tbl.get?, ih']

@[simp] theorem Tbl.getD_setD_same {α : Type} [DecidableEq α] (t : Tbl α) (x : Nat) (d a : α) : (t.setD x d a).getD x d = a := by
  by_cases h : a = d <;> simp [Tbl.setD, Tbl.getD, h]

theorem Tbl.getD_setD_ne {α : Type} [DecidableEq α] (t : Tbl α) {x y : Nat} (d a d' : α) (h : y ≠ x) :
    (t.setD x d a).getD y d' = t.getD y d' := by
  by_cases ha : a = d <;> simp [Tbl.setD, Tbl.getD, ha, Tbl.get?_del_ne t h, Tbl.get?_put_ne t _ h]

@[simp] theorem Tbl.getD_put_same {α : Type} (t : Tbl α) (x : Nat) (d a : α) : (t.put x a).getD x d = a := by simp [Tbl.getD]

theorem Tbl.getD_put_ne {α : Type} (t : Tbl α) {x y : Nat} (d a : α) (h : y ≠ x) : (t.put x a).getD y d = t.getD y d := by
  simp [Tbl.getD, Tbl.get?_put_ne t a h]

/-! Register fields -/

/-- What a field holds after it is put: the value, cut to the field's width. -/
@[simp] theorem Gikan.get_set_same (g : Gikan) (f : Fld) (v : Nat) : (g.set f v).get f = v % 2 ^ f.wid := by
  simp [Gikan.set, Gikan.get]

/-- Putting a field leaves every other. -/
@[simp] theorem Gikan.get_set_ne (g : Gikan) (f h : Fld) (v : Nat) (hk : h.key ≠ f.key) : (g.set f v).get h = g.get h := by
  simp [Gikan.set, Gikan.get, Tbl.getD_setD_ne _ _ _ _ hk]

/-! The canonical form -/

theorem Tbl.sorted_cons {α : Type} (k : Nat) (v : α) (t : Tbl α) :
    Tbl.sorted ((k, v) :: t) = true ↔ (∀ e ∈ t, k < e.1) ∧ Tbl.sorted t = true := by
  induction t generalizing k v with
  | nil => simp [Tbl.sorted]
  | cons e t ih =>
    obtain ⟨j, w⟩ := e
    simp only [Tbl.sorted, Bool.and_eq_true, decide_eq_true_eq]
    constructor
    · rintro ⟨h1, h2⟩
      refine ⟨?_, h2⟩
      intro e he
      rcases List.mem_cons.mp he with rfl | he
      · exact h1
      · exact lt_trans h1 (((ih j w).mp h2).1 e he)
    · rintro ⟨h1, h2⟩
      exact ⟨h1 (j, w) (by simp), h2⟩

theorem Tbl.mem_put {α : Type} (t : Tbl α) (x : Nat) (a : α) (e : Nat × α) (h : e ∈ t.put x a) : e = (x, a) ∨ e ∈ t := by
  induction t with
  | nil => simpa [Tbl.put] using h
  | cons c t ih =>
    obtain ⟨k, v⟩ := c
    unfold Tbl.put at h
    split at h
    · simpa using h
    · split at h
      · rcases List.mem_cons.mp h with h | h
        · exact .inl h
        · exact .inr (List.mem_cons_of_mem _ h)
      · rcases List.mem_cons.mp h with h | h
        · exact .inr (by simp [h])
        · rcases ih h with h | h
          · exact .inl h
          · exact .inr (List.mem_cons_of_mem _ h)

theorem Tbl.sorted_put {α : Type} (t : Tbl α) (x : Nat) (a : α) (h : t.sorted = true) : (t.put x a).sorted = true := by
  induction t with
  | nil => rfl
  | cons c t ih =>
    obtain ⟨k, v⟩ := c
    have hc := (Tbl.sorted_cons k v t).mp h
    unfold Tbl.put
    split
    · rename_i hx
      refine (Tbl.sorted_cons _ _ _).mpr ⟨?_, h⟩
      intro e he
      rcases List.mem_cons.mp he with rfl | he
      · exact hx
      · exact lt_trans hx (hc.1 e he)
    · split
      · rename_i hx hk
        exact (Tbl.sorted_cons _ _ _).mpr ⟨by subst hk; exact hc.1, hc.2⟩
      · rename_i hx hk
        refine (Tbl.sorted_cons _ _ _).mpr ⟨?_, ih hc.2⟩
        intro e he
        rcases Tbl.mem_put t x a e he with rfl | he
        · simp only; omega
        · exact hc.1 e he

theorem Tbl.sorted_filter {α : Type} (t : Tbl α) (p : Nat × α → Bool) (h : t.sorted = true) : Tbl.sorted (t.filter p) = true := by
  induction t with
  | nil => rfl
  | cons c t ih =>
    obtain ⟨k, v⟩ := c
    have hc := (Tbl.sorted_cons k v t).mp h
    by_cases hp : p (k, v) = true
    · rw [List.filter_cons_of_pos hp]
      exact (Tbl.sorted_cons _ _ _).mpr ⟨fun e he => hc.1 e (List.mem_filter.mp he).1, ih hc.2⟩
    · rw [List.filter_cons_of_neg hp]
      exact ih hc.2

theorem Tbl.sorted_setD {α : Type} [DecidableEq α] (t : Tbl α) (x : Nat) (d a : α) (h : t.sorted = true) : (t.setD x d a).sorted = true := by
  unfold Tbl.setD
  split
  · exact Tbl.sorted_filter t _ h
  · exact Tbl.sorted_put t x a h

end Sys2Proof.Machine
end

