-- ==== Sys2Proof/Laws/Memory.lean ====
section
/-!
SUPPORT. Memory: a read after a write to the same byte gives the byte written, a write leaves every other byte, and every memory operation
keeps the canonical form, which memory has at reset.
-/

namespace Sys2Proof.Machine

@[simp] theorem memGet_memPut_same (m : List Host.Cell) (a : Nat) (b : Byte) : memGet (memPut m a b) a = b := by
  simp [memGet, memPut]

theorem memGet_memPut_ne (m : List Host.Cell) {a c : Nat} (b : Byte) (h : c ≠ a) : memGet (memPut m a b) c = memGet m c := by
  simp [memGet, memPut, Tbl.getD_setD_ne _ _ _ _ h]

/-- Storing bytes changes only the addresses stored to. -/
theorem memGet_memPutN_outside (m : List Host.Cell) (a : Nat) (bs : List Byte) {c : Nat} (h : c < a ∨ a + bs.length ≤ c) :
    memGet (memPutN m a bs) c = memGet m c := by
  induction bs generalizing m a with
  | nil => rfl
  | cons b bs ih =>
    simp only [List.length_cons] at h
    rw [memPutN, ih _ _ (by omega), memGet_memPut_ne _ _ (by omega)]

/-- Storing bytes puts each at its place. -/
theorem memGet_memPutN_inside (m : List Host.Cell) (a : Nat) (bs : List Byte) (i : Nat) (h : i < bs.length) :
    memGet (memPutN m a bs) (a + i) = bs.getD i 0 := by
  induction bs generalizing m a i with
  | nil => simp at h
  | cons b bs ih =>
    cases i with
    | zero => rw [memPutN, Nat.add_zero, memGet_memPutN_outside _ _ _ (by omega)]; simp
    | succ i =>
      have := ih (memPut m a b) (a + 1) i (by simpa using h)
      rw [memPutN, show a + (i + 1) = a + 1 + i by omega, this]; rfl

/-! The canonical form -/

theorem Memory.wf_nil : Memory.wf [] = true := rfl

theorem Memory.wf_put (m : List Host.Cell) (a : Nat) (b : Byte) (h : Memory.wf m = true) : Memory.wf (memPut m a b) = true := by
  simp only [Memory.wf, Bool.and_eq_true, List.all_eq_true] at h ⊢
  refine ⟨Tbl.sorted_setD m a 0 b h.1, ?_⟩
  intro e he
  unfold memPut Tbl.setD at he
  split at he
  · exact h.2 e (List.mem_filter.mp he).1
  · rename_i hb
    rcases Tbl.mem_put m a b e he with rfl | he
    · simpa using hb
    · exact h.2 e he

theorem Memory.wf_putN (m : List Host.Cell) (a : Nat) (bs : List Byte) (h : Memory.wf m = true) : Memory.wf (memPutN m a bs) = true := by
  induction bs generalizing m a with
  | nil => exact h
  | cons b bs ih => exact ih _ _ (Memory.wf_put m a b h)

theorem Memory.wf_filter (m : List Host.Cell) (p : Host.Cell → Bool) (h : Memory.wf m = true) : Memory.wf (m.filter p) = true := by
  simp only [Memory.wf, Bool.and_eq_true, List.all_eq_true] at h ⊢
  exact ⟨Tbl.sorted_filter m p h.1, fun e he => h.2 e (List.mem_filter.mp he).1⟩

@[simp] theorem Gikan.mem_setBad (g : Gikan) (u n w : Nat) : (g.setBad u n w).mem = g.mem := rfl

@[simp] theorem Gikan.mem_flipOn (g : Gikan) (h most : Nat) : (g.flipOn h most).2.mem = g.mem := by
  unfold Gikan.flipOn; split <;> rfl

@[simp] theorem Gikan.mem_flipWritten (g : Gikan) (s : Site) (u : Nat) : (g.flipWritten s u).mem = g.mem := by
  unfold Gikan.flipWritten; dsimp only; (repeat' split) <;> simp

@[simp] theorem Gikan.mem_written (g : Gikan) (s : Site) (u : Nat) : (g.written s u).mem = g.mem := by simp [Gikan.written]

@[simp] theorem Gikan.mem_detected (g : Gikan) (n : Nat) : (g.detected n).2.mem = g.mem := by unfold Gikan.detected; split <;> rfl

theorem Memory.wf_poisonUnit (g : Gikan) (s : Site) (u : Nat) (h : Memory.wf g.mem = true) : Memory.wf (g.poisonUnit s u).mem = true := by
  unfold Gikan.poisonUnit; rw [Gikan.mem_written]; exact Memory.wf_putN _ _ _ h

theorem Memory.wf_garble (g : Gikan) (s : Site) (u : Nat) (h : Memory.wf g.mem = true) : Memory.wf (g.garble s u).2.mem = true :=
  Memory.wf_putN _ _ _ h

theorem Memory.wf_stampRange (g : Gikan) (a n : Nat) (h : Memory.wf g.mem = true) : Memory.wf (g.stampRange a n).mem = true :=
  Memory.wf_filter _ _ h

theorem Memory.wf_reset : Memory.wf State.reset.g.mem = true := rfl

end Sys2Proof.Machine
end

