-- ==== Sys2Proof/Laws/Flags.lean ====
section
/-!
SUPPORT. What raising a fault can change: register fields, the collector's own records, the ports' pending messages and what was sent; every
other piece of the Gikan stays (R339 to R345, R383, R390).
-/

namespace Sys2Proof.Machine

/-- The pieces of the Gikan that no fault and no message touches. -/
def Gikan.quiet (g : Gikan) :=
  (g.now, g.draw, g.mem, g.clean, g.bad, g.pins, g.tick, g.eng, g.req, g.map, g.stk, g.tier, g.coh, g.xbar, g.lnk, g.red, g.gfs, g.cmp, g.pin,
   g.sub, g.sec, g.pwr)

@[simp] theorem Gikan.quiet_set (g : Gikan) (f : Fld) (v : Nat) : (g.set f v).quiet = g.quiet := rfl
@[simp] theorem Gikan.quiet_setB (g : Gikan) (f : Fld) (b : Bool) : (g.setB f b).quiet = g.quiet := rfl
@[simp] theorem Gikan.quiet_inc (g : Gikan) (f : Fld) (k : Nat) : (g.inc f k).quiet = g.quiet := rfl
@[simp] theorem Gikan.quiet_setBitOf (g : Gikan) (f : Fld) (i : Nat) : (g.setBitOf f i).quiet = g.quiet := rfl
@[simp] theorem Gikan.quiet_putBitOf (g : Gikan) (f : Fld) (i : Nat) (b : Bool) : (g.putBitOf f i b).quiet = g.quiet := rfl
@[simp] theorem Gikan.quiet_emit (g : Gikan) (o : Out) : (g.emit o).quiet = g.quiet := rfl
@[simp] theorem Gikan.quiet_setPort (g : Gikan) (s : Side) (p : PciePort) : (g.setPort s p).quiet = g.quiet := by cases s <;> rfl

theorem Gikan.quiet_foldl {α : Type} (l : List α) (f : Gikan → α → Gikan) (hf : ∀ h x, (f h x).quiet = h.quiet) (g : Gikan) :
    (l.foldl f g).quiet = g.quiet := by
  induction l generalizing g with
  | nil => rfl
  | cons a l ih => rw [List.foldl_cons, ih, hf]

@[simp] theorem Gikan.quiet_clear (g : Gikan) (fs : List Fld) : (g.clear fs).quiet = g.quiet :=
  Gikan.quiet_foldl fs (fun h f => h.set f 0) (fun _ _ => rfl) g

@[simp] theorem Gikan.quiet_msix (g : Gikan) (s : Side) (v : Nat) : (g.msix s v).quiet = g.quiet := by
  unfold Gikan.msix; dsimp only; split
  · rfl
  · split <;> simp

@[simp] theorem Gikan.quiet_ibi (g : Gikan) (m : Nat) : (g.ibi m).quiet = g.quiet := by
  unfold Gikan.ibi; split
  · rfl
  · split <;> rfl

@[simp] theorem Gikan.quiet_sendNotice (g : Gikan) : g.sendNotice.quiet = g.quiet := by
  unfold Gikan.sendNotice; dsimp only; split <;> split <;> split <;> simp

@[simp] theorem Gikan.quiet_notice (g : Gikan) : g.notice.quiet = g.quiet := by
  unfold Gikan.notice; split
  · rfl
  · exact Gikan.quiet_sendNotice g

@[simp] theorem Gikan.quiet_recordSyn (g : Gikan) (n c r u : Nat) : (g.recordSyn n c r u).quiet = g.quiet := rfl

@[simp] theorem Gikan.quiet_countFault (g : Gikan) (c : FClass) (n k : Nat) : (g.countFault c n k).quiet = g.quiet := by cases c <;> rfl

@[simp] theorem Gikan.quiet_haspGroups (g : Gikan) (n : Nat) : (g.haspGroups n).quiet = g.quiet := by
  simp only [Gikan.haspGroups, Gikan.quiet_setBitOf]
@[simp] theorem Gikan.quiet_haspRecord (g : Gikan) (c n : Nat) : (g.haspRecord c n).quiet = g.quiet := by
  unfold Gikan.haspRecord
  rw [Gikan.quiet_set, Gikan.quiet_set, Gikan.quiet_set, Gikan.quiet_set, Gikan.quiet_set, Gikan.quiet_set]
@[simp] theorem Gikan.quiet_enterHasp (g : Gikan) (c n : Nat) : (g.enterHasp c n).quiet = g.quiet := by
  rw [Gikan.enterHasp, Gikan.quiet_ibi, Gikan.quiet_sendNotice, Gikan.quiet_set, Gikan.quiet_haspRecord, Gikan.quiet_haspGroups]

/-- Raising a fault of any class changes only registers, the collector, pending messages and outputs. -/
@[simp] theorem Gikan.quiet_fault (g : Gikan) (c : FClass) (n u r k : Nat) : (g.fault c n u r k).quiet = g.quiet := by
  unfold Gikan.fault; cases c <;> dsimp only <;> (repeat' split) <;> simp

@[simp] theorem Gikan.quiet_corrected (g : Gikan) (n u r : Nat) : (g.corrected n u r).quiet = g.quiet := Gikan.quiet_fault ..
@[simp] theorem Gikan.quiet_contained (g : Gikan) (n u r : Nat) : (g.contained n u r).quiet = g.quiet := Gikan.quiet_fault ..
@[simp] theorem Gikan.quiet_fatal (g : Gikan) (n u r : Nat) : (g.fatal n u r).quiet = g.quiet := Gikan.quiet_fault ..

/-- Memory is one of them. -/
theorem Gikan.mem_of_quiet {g h : Gikan} (e : h.quiet = g.quiet) : h.mem = g.mem := congrArg (fun x => x.2.2.1) e

theorem Gikan.get_of_csr {g h : Gikan} (e : h.csr = g.csr) (f : Fld) : h.get f = g.get f := by simp [Gikan.get, e]

/-! The canonical form of memory under decoding and writing (R90 to R102) -/

theorem Memory.wf_of_quiet {g h : Gikan} (e : h.quiet = g.quiet) (w : Memory.wf g.mem = true) : Memory.wf h.mem = true :=
  (Gikan.mem_of_quiet e).symm ▸ w

theorem Gikan.quiet_logUe (g : Gikan) (s : Site) (u c : Nat) : (g.logUe s u c).quiet = g.quiet := by
  unfold Gikan.logUe Gikan.logUeAt; dsimp only; split <;> simp

@[simp] theorem Gikan.mem_correctedAt (g : Gikan) (p : Nat × Nat × Nat × Nat) : (g.correctedAt p).mem = g.mem := by
  unfold Gikan.correctedAt; dsimp only; rw [Gikan.mem_of_quiet (Gikan.quiet_corrected ..)]; rfl

theorem Memory.wf_uncorrectable (g : Gikan) (s : Site) (u c : Nat) (w : Memory.wf g.mem = true) :
    Memory.wf (g.uncorrectable s u c).mem = true :=
  Memory.wf_poisonUnit _ _ _ (Memory.wf_of_quiet (Gikan.quiet_logUe ..) w)

theorem Memory.wf_decode (g : Gikan) (s : Site) (u c : Nat) (w : Memory.wf g.mem = true) : Memory.wf (g.decode s u c).2.mem = true := by
  have hd : ∀ n, Memory.wf (g.detected n).2.mem = true := fun n => by rw [Gikan.mem_detected]; exact w
  unfold Gikan.decode; dsimp only
  split
  · split <;> exact w
  · split
    · rw [Gikan.mem_written, Gikan.mem_correctedAt]; exact w
    · split
      · exact Memory.wf_uncorrectable _ _ _ _ (hd _)
      · have hg := Memory.wf_garble _ s u (hd (g.bad.getD u 0))
        split
        · rw [Gikan.mem_correctedAt]; exact hg
        · exact hg

theorem Memory.wf_writeUnit (g : Gikan) (s : Site) (a : Nat) (d : List Byte) (u : Nat) (w : Memory.wf g.mem = true) :
    Memory.wf (g.writeUnit s a d u).mem = true := by
  unfold Gikan.writeUnit; dsimp only
  split
  · rw [Gikan.mem_written]; exact Memory.wf_putN _ _ _ w
  · rw [Gikan.mem_written]; refine Memory.wf_putN _ _ _ ?_
    split <;> exact Memory.wf_decode _ _ _ _ w

theorem Memory.wf_foldl {α : Type} (l : List α) (f : Gikan → α → Gikan)
    (hf : ∀ h x, Memory.wf h.mem = true → Memory.wf (f h x).mem = true) (g : Gikan) (w : Memory.wf g.mem = true) :
    Memory.wf (l.foldl f g).mem = true := by
  induction l generalizing g with
  | nil => exact w
  | cons a l ih => exact ih _ (hf _ _ w)

/-- Every write to memory keeps the canonical form. -/
theorem Memory.wf_writeMem (g : Gikan) (s : Site) (a : Nat) (d : List Byte) (w : Memory.wf g.mem = true) :
    Memory.wf (g.writeMem s a d).mem = true :=
  Memory.wf_foldl _ _ (fun _ _ w => Memory.wf_writeUnit _ _ _ _ _ w) _ w

theorem Memory.wf_poisonMem (g : Gikan) (s : Site) (a n : Nat) (w : Memory.wf g.mem = true) : Memory.wf (g.poisonMem s a n).mem = true :=
  Memory.wf_foldl _ _ (fun _ _ w => Memory.wf_poisonUnit _ _ _ w) _ w

theorem Memory.wf_decodeAll (s : Site) (c : Nat) (us : List Nat) : ∀ (g : Gikan), Memory.wf g.mem = true →
    Memory.wf (g.decodeAll s c us).1.mem = true := by
  induction us with
  | nil => intro g w; exact w
  | cons u us ih =>
    intro g w
    have := ih (g.decode s u c).2 (Memory.wf_decode g s u c w)
    unfold Gikan.decodeAll; dsimp only; split <;> exact this

/-- Every read of memory keeps the canonical form. -/
theorem Memory.wf_readMem (g : Gikan) (s : Site) (a n c : Nat) (w : Memory.wf g.mem = true) : Memory.wf (g.readMem s a n c).1.mem = true := by
  unfold Gikan.readMem; dsimp only
  split <;> exact Memory.wf_decodeAll s c _ g w

/-! The fields that a fault leaves (R339 to R345) -/

/-- A field of a block that the collector and the messages do not count in: any but FLT and MGT. -/
def Fld.apart (f : Fld) : Prop := f.key / 0x800000 ≠ 1 ∧ f.key / 0x800000 ≠ 0x11

theorem Gikan.get_set_apart (g : Gikan) (f h : Fld) (v : Nat) (hf : f.apart) (hh : h.key / 0x800000 = 1 ∨ h.key / 0x800000 = 0x11) :
    (g.set h v).get f = g.get f := by
  refine Gikan.get_set_ne g h f v ?_
  intro e; rcases hh with hh | hh
  · exact hf.1 (e ▸ hh)
  · exact hf.2 (e ▸ hh)

theorem Gikan.get_setPort (g : Gikan) (s : Side) (p : PciePort) (f : Fld) : (g.setPort s p).get f = g.get f := by cases s <;> rfl
theorem Gikan.get_msix (g : Gikan) (s : Side) (v : Nat) (f : Fld) : (g.msix s v).get f = g.get f := by
  unfold Gikan.msix; dsimp only; split
  · rfl
  · split
    · exact Gikan.get_setPort ..
    · rfl

theorem Gikan.get_ibi (g : Gikan) (m : Nat) (f : Fld) (hf : f.apart) : (g.ibi m).get f = g.get f := by
  unfold Gikan.ibi; split
  · rfl
  · split
    · rfl
    · rw [Gikan.get_emit, Gikan.inc, Gikan.get_set_apart _ _ _ _ hf (.inr rfl)]; rfl

theorem Gikan.get_sendNotice (g : Gikan) (f : Fld) (hf : f.apart) : g.sendNotice.get f = g.get f := by
  unfold Gikan.sendNotice; dsimp only
  split <;> split <;> split <;> simp only [Gikan.get_ibi _ _ _ hf, Gikan.get_msix]

theorem Gikan.get_notice (g : Gikan) (f : Fld) (hf : f.apart) : g.notice.get f = g.get f := by
  unfold Gikan.notice; split
  · rfl
  · exact Gikan.get_sendNotice g f hf

theorem Gikan.get_recordSyn (g : Gikan) (n c r u : Nat) (f : Fld) : (g.recordSyn n c r u).get f = g.get f := rfl
theorem Gikan.get_countFault (g : Gikan) (c : FClass) (n k : Nat) (f : Fld) : (g.countFault c n k).get f = g.get f := by cases c <;> rfl

theorem Gikan.get_enterHasp (g : Gikan) (c n : Nat) (f : Fld) (hf : f.apart) : (g.enterHasp c n).get f = g.get f := by
  unfold Gikan.enterHasp Gikan.haspRecord Gikan.haspGroups
  rw [Gikan.get_ibi _ _ _ hf, Gikan.get_sendNotice _ _ hf]
  simp only [Gikan.setBitOf]
  repeat rw [Gikan.get_set_apart _ _ _ _ hf (by first | exact .inl rfl | exact .inr rfl)]

/-- Raising a fault leaves every register field outside FLT and MGT. -/
theorem Gikan.get_fault (g : Gikan) (c : FClass) (n u r k : Nat) (f : Fld) (hf : f.apart) : (g.fault c n u r k).get f = g.get f := by
  have e0 : ∀ (h : Gikan) (v : Nat), (h.set (F.FLT_WORDS_GROUPS 0) v).get f = h.get f := fun h v => Gikan.get_set_apart _ _ _ _ hf (.inl rfl)
  have e1 : ∀ (h : Gikan) (v : Nat), (h.set (F.FLT_WORDS_GROUPS 1) v).get f = h.get f := fun h v => Gikan.get_set_apart _ _ _ _ hf (.inl rfl)
  have e2 : ∀ (h : Gikan) (v : Nat), (h.set F.FLT_FATAL_GROUPS v).get f = h.get f := fun h v => Gikan.get_set_apart _ _ _ _ hf (.inl rfl)
  unfold Gikan.fault; cases c <;> dsimp only <;> (repeat' split) <;>
    simp only [Gikan.get_notice _ _ hf, Gikan.get_enterHasp _ _ _ _ hf, Gikan.get_recordSyn, Gikan.get_countFault, Gikan.setBitOf, e0, e1, e2]

theorem Gikan.get_corrected (g : Gikan) (n u r : Nat) (f : Fld) (hf : f.apart) : (g.corrected n u r).get f = g.get f := Gikan.get_fault _ _ _ _ _ _ _ hf
theorem Gikan.get_contained (g : Gikan) (n u r : Nat) (f : Fld) (hf : f.apart) : (g.contained n u r).get f = g.get f := Gikan.get_fault _ _ _ _ _ _ _ hf
theorem Gikan.get_fatal (g : Gikan) (n u r : Nat) (f : Fld) (hf : f.apart) : (g.fatal n u r).get f = g.get f := Gikan.get_fault _ _ _ _ _ _ _ hf
theorem Gikan.get_faultOpen (g : Gikan) (c : FClass) (n k r : Nat) (f : Fld) (hf : f.apart) : (g.faultOpen c n k r).get f = g.get f :=
  Gikan.get_fault _ _ _ _ _ _ _ hf

end Sys2Proof.Machine
end

