-- ==== Sys2Proof/Laws/Pin.lean ====
section
/-!
SUPPORT. Pin cores: a thread put in place of another, and what an instruction that issues comes to (R239, R240).
-/

namespace Sys2Proof.Machine

theorem Tbl.put_put {α : Type} (t : Tbl α) (x : Nat) (a b : α) : (t.put x a).put x b = t.put x b := by
  induction t with
  | nil => simp [Tbl.put]
  | cons e t ih =>
    obtain ⟨k, v⟩ := e
    by_cases h : x < k
    · simp [Tbl.put, h]
    · by_cases h2 : k = x
      · simp [Tbl.put, h2]
      · simp [Tbl.put, h, h2, ih]

theorem Tbl.put_ne_nil {α : Type} (t : Tbl α) (x : Nat) (a : α) : t.put x a ≠ [] := by
  cases t with
  | nil => simp [Tbl.put]
  | cons e t => obtain ⟨k, v⟩ := e; simp only [Tbl.put]; split <;> [simp; split <;> simp]

@[simp] theorem Gikan.pinCore_setPinCore (g : Gikan) (c : Nat) (p : PinCore) : (g.setPinCore c p).pinCore c = p := by
  simp [Gikan.setPinCore, Gikan.pinCore]

theorem Gikan.pinCore_setPinCore_ne (g : Gikan) {c d : Nat} (p : PinCore) (h : d ≠ c) : (g.setPinCore c p).pinCore d = g.pinCore d := by
  simp [Gikan.setPinCore, Gikan.pinCore, Tbl.getD_setD_ne _ _ _ _ h]

theorem Gikan.setPinCore_setPinCore (g : Gikan) (c : Nat) (p q : PinCore) (hp : p ≠ PinCore.idle) (hq : q ≠ PinCore.idle) :
    (g.setPinCore c p).setPinCore c q = g.setPinCore c q := by
  have : (g.pin.cores.setD c PinCore.idle p).setD c PinCore.idle q = g.pin.cores.setD c PinCore.idle q := by
    simp [Tbl.setD, hp, hq, Tbl.put_put]
  unfold Gikan.setPinCore
  dsimp only
  rw [this]

theorem PinCore.threads_ne_idle (p : PinCore) (t : Nat) (x : Thread) : ({ p with threads := p.threads.put t x } : PinCore) ≠ PinCore.idle :=
  fun e => Tbl.put_ne_nil _ _ _ (congrArg (fun c => PinCore.threads c) e)

theorem Gikan.setThread_setThread (g : Gikan) (core t : Nat) (a b : Thread) :
    (g.setThread core t a).setThread core t b = g.setThread core t b := by
  unfold Gikan.setThread
  dsimp only
  rw [Gikan.pinCore_setPinCore, Gikan.setPinCore_setPinCore _ _ _ _ (PinCore.threads_ne_idle _ _ _)]
  · simp only [Tbl.put_put]
  · simp only [Tbl.put_put]; exact PinCore.threads_ne_idle _ _ _

@[simp] theorem Gikan.thread_setThread (g : Gikan) (core t : Nat) (a : Thread) : (g.setThread core t a).thread core t = some a := by
  simp [Gikan.thread, Gikan.setThread]

/-- A step that wants no line of an agent and no granule is settled as it is. -/
theorem Gikan.cohSettle_same (g h : Gikan) (e : h.coh.want = g.coh.want) (t : h.tier.stall = g.tier.stall) (w : h.coh.who = g.coh.who) :
    g.cohSettle h = h := by
  have : (g.asItem []).stalls h = false := by simp [Gikan.stalls, Gikan.asItem, e, t]
  simp only [Gikan.cohSettle, Gikan.settleAlso, this, ← w]
  rfl

/-- A step that changes nothing is settled as it is. -/
@[simp] theorem Gikan.cohSettle_self (g : Gikan) : g.cohSettle g = g := Gikan.cohSettle_same g g rfl rfl rfl

/-- What every instruction that issues comes to: its effect for the thread that has issued. -/
theorem Gikan.tIssue_issues (g : Gikan) (core t op : Nat) (th : Thread) (i : TI) (guarded : Bool) (ok : TI → Bool)
    (run : Gikan → Thread → TI → Gikan) (h : g.issues core t th i) (ho : i.op = op) (hop : tumblerOp op = true)
    (hg : guarded = true → bit (th.guard i) 0 = true) (hok : ok i = true) :
    g.tIssue core t op guarded ok run = run g th.issued i := by
  obtain ⟨h1, h2, h3, h4, ⟨im, h5, h6, h7⟩, h8⟩ := h
  subst ho
  have hpc : ¬(th.pc < im.base ∨ im.base + im.count ≤ th.pc) := by omega
  have h4' : ¬2 ≤ g.get F.PWR_STATE_STATE := by omega
  unfold Gikan.tIssue
  simp only [h1, h2, h3, h4', h5, hpc, h8, hop, hok]
  cases guarded <;> simp_all [Thread.issued]

/-- An instruction whose effect is a step of its work item. -/
theorem Gikan.tumble_issues (g : Gikan) (core t op : Nat) (th : Thread) (i : TI) (guarded : Bool) (ok : TI → Bool)
    (eff : Gikan → Thread → TI → Gikan) (h : g.issues core t th i) (ho : i.op = op) (hop : tumblerOp op = true)
    (hg : guarded = true → bit (th.guard i) 0 = true) (hok : ok i = true) :
    g.tumble core t op guarded ok eff =
      g.itemStep (threadKey core t th.item.id) (fun h => eff (h.setThread core t th.issued) th.issued i) :=
  Gikan.tIssue_issues g core t op th i guarded ok _ h ho hop hg hok

/-- An instruction that stays within its core and raises no exception. -/
theorem Gikan.tumbleOr_issues (g : Gikan) (core t op : Nat) (th : Thread) (i : TI) (guarded : Bool) (ok : TI → Bool)
    (f : Gikan → Thread → TI → Gikan ⊕ (Nat × Nat)) (k : Gikan) (h : g.issues core t th i) (ho : i.op = op) (hop : tumblerOp op = true)
    (hg : guarded = true → bit (th.guard i) 0 = true) (hok : ok i = true) (hf : f (g.setThread core t th.issued) th.issued i = .inl k) :
    g.tumbleOr core t op guarded ok f = k := by
  unfold Gikan.tumbleOr
  rw [Gikan.tIssue_issues g core t op th i guarded ok _ h ho hop hg hok]
  simp only [hf]

/-- An instruction that only changes its thread. -/
theorem Gikan.tumbleReg_issues (g : Gikan) (core t op : Nat) (th : Thread) (i : TI) (guarded : Bool) (ok : TI → Bool)
    (f : Thread → TI → Thread) (h : g.issues core t th i) (ho : i.op = op) (hop : tumblerOp op = true)
    (hg : guarded = true → bit (th.guard i) 0 = true) (hok : ok i = true) :
    g.tumbleReg core t op guarded ok f = g.setThread core t (f th.issued i) :=
  Gikan.tIssue_issues g core t op th i guarded ok _ h ho hop hg hok

/-! Vectors (R241): a vector is made of its elements -/
theorem packV_append (w : Nat) (es : List Nat) (e : Nat) : packV w (es ++ [e]) = packV w es + (e % 2 ^ w) * 2 ^ (w * es.length) := by
  simp [packV, List.zipIdx_append]

theorem packV_lt (w : Nat) (es : List Nat) : packV w es < 2 ^ (w * es.length) := by
  induction es using List.reverseRecOn with
  | nil => simp [packV]
  | append_singleton es e ih =>
    rw [packV_append, List.length_append, List.length_singleton, Nat.mul_add, Nat.mul_one, pow_add]
    have : e % 2 ^ w < 2 ^ w := Nat.mod_lt _ (by positivity)
    nlinarith

theorem velem_packV (w : Nat) (es : List Nat) (k : Nat) (h : k < es.length) : velem w (packV w es) k = es.getD k 0 % 2 ^ w := by
  induction es using List.reverseRecOn with
  | nil => simp at h
  | append_singleton es e ih =>
    rw [packV_append]
    unfold velem bits
    rw [Nat.shiftRight_eq_div_pow]
    rcases Nat.lt_or_ge k es.length with hk | hk
    · have hs : 2 ^ (w * es.length) = 2 ^ (w * k) * (2 ^ w * 2 ^ (w * (es.length - k - 1))) := by
        rw [← pow_add, ← pow_add]; congr 1
        have : es.length = k + 1 + (es.length - k - 1) := by omega
        generalize es.length - k - 1 = d at this ⊢
        rw [this]; ring
      rw [hs, show e % 2 ^ w * (2 ^ (w * k) * (2 ^ w * 2 ^ (w * (es.length - k - 1)))) = 2 ^ (w * k) * (2 ^ w * (e % 2 ^ w * 2 ^ (w * (es.length - k - 1)))) by ring]
      rw [Nat.add_mul_div_left _ _ (by positivity), Nat.add_mul_mod_self_left]
      have := ih hk
      unfold velem bits at this
      rw [Nat.shiftRight_eq_div_pow] at this
      rw [this]
      simp [List.getD, List.getElem?_append, hk]
    · have : k = es.length := by simp at h; omega
      subst this
      have h1 := packV_lt w es
      rw [Nat.add_mul_div_right _ _ (by positivity), Nat.div_eq_of_lt h1]
      simp [List.getD]

theorem vput_lt (w : Nat) (gd old : Nat) (f : Nat → Nat) (h : w ∣ 256) : vput w gd old f < 2 ^ 256 := by
  have := packV_lt w ((List.range (256 / w)).map (fun i => if bit gd i then f i else velem w old i))
  rw [List.length_map, List.length_range, Nat.mul_div_cancel' h] at this
  exact this

theorem velem_vput (w gd old : Nat) (f : Nat → Nat) (k : Nat) (h : k < 256 / w) :
    velem w (vput w gd old f) k = if bit gd k then f k % 2 ^ w else velem w old k := by
  unfold vput
  rw [velem_packV _ _ _ (by simpa using h)]
  have : ((List.range (256 / w)).map (fun i => if bit gd i then f i else velem w old i)).getD k 0 = if bit gd k then f k else velem w old k := by
    simp [List.getD, h]
  rw [this]
  split
  · rfl
  · simp [velem, bits]

theorem etBits_dvd (e : Nat) : etBits e ∣ 256 := by
  unfold etBits; split <;> decide

end Sys2Proof.Machine
end

