-- ==== Sys2Proof/Laws/Write.lean ====
section
/-!
SUPPORT. Writes of BAR0: a row that names a trigger bit writes it as 1, on the bus and to the register it was sent to; a write that reaches its
register is what that register makes of it; and what a write leaves in a field of each access type.
-/

namespace Sys2Proof.Machine

@[simp] theorem trig_bus (w : RegW) (f : Fld) : (trig w f).bus = w.bus := rfl
@[simp] theorem withOp_bus (w : RegW) (op : Nat) : (withOp w op).bus = w.bus := rfl

/-- The trigger bit is written, and as 1. -/
theorem wrOne_trig (w : RegW) (f : Fld) (h : f.wid = 1) : wrOne (trig w f) f = true := by
  have hl : f.key % 64 < 64 := Nat.mod_lt _ (by decide)
  have hp : (2 : Nat) ^ (f.key % 64) < 2 ^ 64 := Nat.pow_lt_pow_right (by decide) hl
  have hd : bits (trig w f).data.toNat (f.key % 64) 1 = 1 := by
    simp only [trig, BitVec.toNat_or, BitVec.toNat_ofNat, Nat.mod_eq_of_lt hp, bits]
    rw [Nat.shiftRight_or_distrib, Nat.shiftRight_eq_div_pow (2 ^ _), Nat.div_self (Nat.two_pow_pos _), Nat.pow_one, Nat.or_mod_two_eq_one]
    exact .inr rfl
  have hb : ∀ n i, n.testBit i = true → bits n i 1 = 1 := by
    intro n i hn
    rw [bits, Nat.pow_one, ← Nat.and_one_is_mod]
    rw [Nat.testBit, bne_iff_ne, Nat.and_comm] at hn
    have := Nat.and_one_is_mod (n >>> i)
    omega
  have hm : bits (halfMask (trig w f).half) (f.key % 64) 1 = 1 := by
    apply hb
    simp only [trig]
    split
    · assumption
    · simp only [halfMask, Nat.testBit_two_pow_sub_one, hl, decide_true]
  simp only [wrOne, wrField, h, hd, hm]; decide

/-- A write that reaches its register is what the register makes of it. -/
theorem Gikan.regWrite_reaches (g : Gikan) (off : Nat) (w : RegW) (h : g.reaches8 w off) : g.regWrite off w = g.writeReg off w := by
  unfold Gikan.regWrite Gikan.gated
  rw [h.1]; simp only [h.2, Bool.false_eq_true, if_false]

end Sys2Proof.Machine
end

