-- ==== Sys2Proof/Tests/Slice0.lean ====
section
/-!
SUPPORT. The author's own tests. The first part shows that each check of WellFormed refuses an ill-formed command. Every theorem named
`witness_…` shows concrete states and operands that meet the hypotheses of the obligation of that name, and what the command then leaves;
every `test_…` is one step whose result the manual's words give. Expected values are counted by hand from the rules named.
-/

namespace Sys2Proof.Tests

open Sys2Proof Sys2Proof.Machine

set_option Elab.async false

/-! ## Small states -/

/-- The block with nothing waiting. -/
def st (g : Gikan) : State := ⟨[], g⟩

/-- What one command leaves. -/
def after (c : Instr) (g : Gikan) : Gikan :=
  match exec c (st g) with
  | .next t => t.g
  | _ => g

/-- What one step leaves. -/
def stepped (s : State) : State :=
  match step s with
  | .next t => t
  | _ => s

/-- Put several register fields. -/
def puts (g : Gikan) (l : List (Fld × Nat)) : Gikan := l.foldl (fun h x => h.set x.1 x.2) g

/-- A Gikan whose configuration may be written: phase 4, not sealed, node 7. -/
def conf : Gikan := puts Gikan.reset [(F.MGT_STATUS_PHASE, 4), (F.GLB_NODE_CURRENT, 7), (F.GLB_NODE_NODE, 7)]

/-- A sealed Gikan in service: node 7, stacks stamped, ticks running at tick 100. -/
def serv : Gikan := puts Gikan.reset [(F.MGT_STATUS_PHASE, 6), (F.MGT_SEAL_SEALED, 1), (F.GLB_NODE_CURRENT, 7), (F.GLB_NODE_NODE, 7),
  (F.MEM_STATUS_STAMPED, 1), (F.MEM_STATUS_TRAINED, 4095), (F.TICK_STATUS_RUNNING, 1), (F.TICK_CTRL_RUN, 1), (F.TICK_COUNT_TICK, 100),
  (F.TICK_TIME_TIME_NS, 800000)]

/-- The Hasp state. -/
def inHasp : Gikan := serv.set F.MGT_STATUS_PHASE 7

/-- A full write by port A, and writes of one half. -/
def wr (v : Nat) : RegW := ⟨.pcieA, .full, BitVec.ofNat 64 v⟩
def wrLow (v : Nat) : RegW := ⟨.pcieA, .low, BitVec.ofNat 64 v⟩
def wrHigh (v : Nat) : RegW := ⟨.pcieA, .high, BitVec.ofNat 64 v⟩

/-- A field's value in its place in the register. -/
def at_ (f : Fld) (v : Nat) : Nat := v * 2 ^ (f.key % 64)

/-- A request header of node 5, compartment 0, tag 1, in a class that its type may take. -/
def hd (type addr len : Nat) : Hdr := ⟨type, 0, 0, 0, 0, ((List.range 8).find? (fun c => tcAllowed type c)).getD 0, 0, 0, 0, 1, 5, addr, 0, 100, len, 0, 0xABC⟩

/-- An extent of 64 MiB at offset 0 of node 7, homed there, compartment 0, ward 0xABC, Mode S; `bits` adds flags. -/
def extAt (flags : Nat) : ExtW := ⟨7 * 2 ^ 48, 2 ^ 26, 0xABC, 7 + 2 ^ 23 + flags⟩

/-- The Gikan in service with that extent as entry 0, node 5 a member of compartment 0. -/
def withExt (flags : Nat) : Gikan :=
  { serv with map := { serv.map with cur := ⟨[(0, extAt flags)], [], []⟩ }, sec := { serv.sec with masks := [(5, 1)] } }

/-- An address of node 7. -/
def here (o : Nat) : Nat := 7 * 2 ^ 48 + o

/-! ## Well-formed commands: each check refuses a command that fails it, and takes its neighbour -/

def goodReq (type : Nat) : Req := ⟨hd type (here 0) 64, zeros (bodyBytes type), []⟩
def goodResp : Resp := ⟨0x81, 0, 0, 2, 0, 1, 7, 5, 100, 0, []⟩
def goodFlit : Flit := ⟨false, 1, 0, 1, 4095, 4095, 7, 0, 65535, 65535, 2 ^ 15 - 1, zeros 240, 2 ^ 32 - 1⟩
def goodImage : Image := ⟨0, 1, 1, 0, 0, 0, 0, 0, false, 0, 0, [], [], [], [], zeros 264, []⟩

/-- Header fields (R37): each field one past its width is refused. -/
theorem test_wf_header :
    (Instr.read 0 (goodReq 1)).wf = true ∧
    (∀ h ∈ [{ hd 1 0 64 with dup := 2 }, { hd 1 0 64 with retry := 2 }, { hd 1 0 64 with mov := 2 }, { hd 1 0 64 with rsv1 := 32 },
        { hd 1 0 64 with tc := 8 }, { hd 1 0 64 with rsv2 := 32 }, { hd 1 0 64 with cmpt := 16 }, { hd 1 0 64 with rsv3 := 16 },
        { hd 1 0 64 with tag := 65536 }, { hd 1 0 64 with src := 65536 }, { hd 1 0 64 with addr := 2 ^ 64 }, { hd 1 0 64 with epoch := 65536 },
        { hd 1 0 64 with sentTick := 65536 }, { hd 1 0 64 with length := 2 ^ 24 }, { hd 1 0 64 with subop := 256 }, { hd 1 0 64 with ward := 2 ^ 64 }],
      (Instr.read 0 ⟨h, [], []⟩).wf = false) := by decide +kernel

/-- A body of another length than its type's, and a request under another row's type (R39). -/
theorem test_wf_body_and_type :
    (Instr.atomic 0 (goodReq 3)).wf = true ∧ (Instr.atomic 0 { goodReq 3 with body := zeros 16 }).wf = false ∧
    (Instr.publish 0 (goodReq 13)).wf = true ∧ (Instr.publish 0 (goodReq 1)).wf = false ∧ (Instr.write 0 (goodReq 1)).wf = false := by decide +kernel

/-- Responses (R38): the type is 128 or more and of 8 bits, and a field past its width is refused. -/
theorem test_wf_response :
    (Instr.response 0 goodResp).wf = true ∧ (Instr.response 0 { goodResp with type := 127 }).wf = false ∧
    (Instr.response 0 { goodResp with type := 256 }).wf = false ∧ (Instr.response 0 { goodResp with status := 256 }).wf = false ∧
    (Instr.handoverAck 0 goodResp).wf = false ∧ (Instr.handoverAck 0 { goodResp with type := 0xC0 }).wf = true := by decide +kernel

/-- Flits (R280): 240 slot bytes and fields of their widths. -/
theorem test_wf_flit :
    (Instr.dataFlit 0 goodFlit).wf = true ∧ (Instr.dataFlit 0 { goodFlit with slots := zeros 239 }).wf = false ∧
    (Instr.idleFlit 0 { goodFlit with seq := 4096 }).wf = false ∧ (Instr.dataFlit 0 { goodFlit with start := 2 ^ 15 }).wf = false := by decide +kernel

/-- Admission units (R28): 128 lanes, 32 engines, 16,384 threads; a check is of a lane or a score engine (R346). -/
theorem test_wf_units :
    (Instr.itemAdmit ⟨.red, 127⟩ 0).wf = true ∧ (Instr.itemAdmit ⟨.red, 128⟩ 0).wf = false ∧ (Instr.itemEnd ⟨.pin, 16383⟩ 0).wf = true ∧
    (Instr.itemEnd ⟨.pin, 16384⟩ 0).wf = false ∧ (Instr.itemAdmit ⟨.gth, 32⟩ 0).wf = false ∧ (Instr.checkRun ⟨.red, 0⟩ true true true).wf = true ∧
    (Instr.checkRun ⟨.gth, 0⟩ true true true).wf = false ∧ (Instr.checkDrop ⟨.mov, 0⟩).wf = false := by decide +kernel

/-- Accesses (R3): 4 or 8 bytes, naturally aligned; and the rest. -/
theorem test_wf_access_and_rest :
    (Instr.registerWrite .pcieA 0x200000 8 0).wf = true ∧ (Instr.registerWrite .pcieA 0x200004 8 0).wf = false ∧
    (Instr.registerWrite .pcieA 0x200004 4 0).wf = true ∧ (Instr.registerWrite .pcieA 0x200002 2 0).wf = false ∧
    (Instr.registerWrite .pcieA (2 ^ 26) 8 0).wf = false ∧
    (Instr.keywayWrite .pcieA 0 8 0).wf = true ∧ (Instr.keywayWrite .pcieA 2 4 0).wf = false ∧ (Instr.keywayWrite .pcieA (2 ^ 20) 8 0).wf = false ∧
    (Instr.mgtUpdGo (wr 0) (some goodImage)).wf = true ∧ (Instr.mgtUpdGo (wr 0) (some { goodImage with signed := [] })).wf = false ∧
    (Instr.mgtUpdGo (wr 0) (some { goodImage with kind := 65536 })).wf = false ∧
    (Instr.bar4Read .a (2 ^ 36) 4).wf = false ∧ (Instr.bar4Read .a 0 4096).wf = true ∧ (Instr.bar4Read .a 0 4097).wf = false ∧
    (Instr.bar4Write .a 0 (zeros 4097)).wf = false ∧ (Instr.i3cPrivateRead (2 ^ 32)).wf = false ∧ (Instr.i3cPrivateWrite (2 ^ 32) 0).wf = false ∧
    (Instr.challenge .a 0 (zeros 31)).wf = false ∧ (Instr.challenge .a 0 (zeros 32)).wf = true ∧ (Instr.getMeasurements .a 0 (zeros 33)).wf = false ∧
    (Instr.faultEvent 0 .corrected 65536 0 0).wf = false ∧ (Instr.faultEvent 0 .corrected 65535 0 0).wf = true := by decide +kernel

/-- No row of the table gives bits, so no word spells a command. -/
theorem test_no_row_has_bits (n w : Nat) : decodeTableWord n w = none := rfl

/-! ## The pin cores' instruction set -/

/-- An item of core 0 whose entry lies in slot 0. -/
def item0 : PinItem := ⟨1, 0, ⟨0, 0, 0, 1000, false, true, true, true⟩, 0, .run 0 0 0 1 0 0 []⟩

/-- A thread at PC 0 with the registers given. -/
def th (x v p : Tbl Nat) : Thread := ⟨item0, x, v, p, 0, 0, 0, 0, [], 0, 0, [], none, .none⟩

/-- Core 0 with that thread and a word as instruction 0 of an image of 16 words. -/
def tum (t : Thread) (i : TI) : Gikan :=
  { serv with pin := ⟨[(0, tiWord i)], [(0, ⟨0, 0, 16, 1, false⟩)], [], none, none, [(0, ⟨some 0, [], [], [(0, t)], [], 0⟩)], [], 2⟩ }

/-- The thread after a command. -/
def thAfter (c : Instr) (g : Gikan) : Thread := ((after c g).thread 0 0).getD (th [] [] [])

/-- Word fields that are those of the instruction, on a thread at PC 0 that waits for nothing, are what `issues` asks for. -/
theorem issues_tum (t : Thread) (i : TI) (h : tiOf (tiWord i) = i) (hw : t.wait = .none) (hp : t.pc = 0) (hs : t.item.e.slot = 0) :
    (tum t i).issues 0 0 t i := by
  have hc : (tum t i).csr = serv.csr := rfl
  have hh : (serv.csr.getD F.MGT_STATUS_PHASE.key F.MGT_STATUS_PHASE.rst == 7) = false ∧
    serv.csr.getD F.PWR_STATE_STATE.key F.PWR_STATE_STATE.rst < 2 := by decide +kernel
  refine ⟨rfl, hw, ?_, ?_, ⟨⟨0, 0, 16, 1, false⟩, ?_, ?_, ?_⟩, ?_⟩
  · unfold Gikan.hasp Gikan.phase Gikan.get
    rw [hc]
    exact hh.1
  · unfold Gikan.get
    rw [hc]
    exact hh.2
  · rw [hs]
    rfl
  · exact Nat.zero_le _
  · rw [hp]
    decide
  · have hw : (tum t i).pin.code = [(0, tiWord i)] := rfl
    have hk : ∀ w : Nat, Tbl.getD [(0, w)] 0 0 = w := fun _ => rfl
    rw [hp, hw, hk]
    exact h

/-- x1 = −7, x2 = 2, x4 and x5 the binary64 1.5 and 2, x6 and x7 the binary32 1.5 and 2, x8 the binary64 NaN. -/
def xs : Tbl Nat := [(1, 2 ^ 64 - 7), (2, 2), (4, 0x3FF8000000000000), (5, 0x4000000000000000), (6, 0x3FC00000), (7, 0x40000000),
  (8, 0x7FF8000000000001)]
def thx : Thread := th xs [] []

/-- The two-operand integer instructions on −7 and 2, and with the other form and x0 as divisor: rows, fields, expected x3 (R240, R243). -/
def intCases : List (Instr × TI × Nat) := [
  (.tAdd 0 0, ⟨0x10, 0, 0, 3, 1, 2, 0, 0⟩, 2 ^ 64 - 5), (.tSub 0 0, ⟨0x11, 0, 0, 3, 1, 2, 0, 0⟩, 2 ^ 64 - 9),
  (.tAnd 0 0, ⟨0x12, 0, 0, 3, 1, 2, 0, 0⟩, 0), (.tOr 0 0, ⟨0x13, 0, 0, 3, 1, 2, 0, 0⟩, 2 ^ 64 - 5),
  (.tXor 0 0, ⟨0x14, 0, 0, 3, 1, 2, 0, 0⟩, 2 ^ 64 - 5), (.tSll 0 0, ⟨0x15, 0, 0, 3, 1, 2, 0, 0⟩, 2 ^ 64 - 28),
  (.tSrl 0 0, ⟨0x16, 0, 0, 3, 1, 2, 0, 0⟩, 2 ^ 62 - 2), (.tSra 0 0, ⟨0x17, 0, 0, 3, 1, 2, 0, 0⟩, 2 ^ 64 - 2),
  (.tMul 0 0, ⟨0x18, 0, 0, 3, 1, 2, 0, 0⟩, 2 ^ 64 - 14), (.tMulhu 0 0, ⟨0x19, 0, 0, 3, 1, 2, 0, 0⟩, 1),
  (.tDivu 0 0, ⟨0x1A, 0, 0, 3, 1, 2, 0, 0⟩, 2 ^ 63 - 4), (.tRemu 0 0, ⟨0x1B, 0, 0, 3, 1, 2, 0, 0⟩, 1),
  (.tDivs 0 0, ⟨0x1C, 0, 0, 3, 1, 2, 0, 0⟩, 2 ^ 64 - 3), (.tRems 0 0, ⟨0x1D, 0, 0, 3, 1, 2, 0, 0⟩, 2 ^ 64 - 1),
  (.tAdd 0 0, ⟨0x10, 0, 0, 3, 2, 0, 1, 2 ^ 32 - 3⟩, 2 ^ 64 - 1), (.tSll 0 0, ⟨0x15, 0, 0, 3, 2, 0, 1, 64⟩, 2),
  (.tDivu 0 0, ⟨0x1A, 0, 0, 3, 1, 0, 0, 0⟩, 2 ^ 64 - 1), (.tRemu 0 0, ⟨0x1B, 0, 0, 3, 1, 0, 0, 0⟩, 2 ^ 64 - 7),
  (.tDivs 0 0, ⟨0x1C, 0, 0, 3, 1, 0, 0, 0⟩, 2 ^ 64 - 1), (.tRems 0 0, ⟨0x1D, 0, 0, 3, 1, 0, 0, 0⟩, 2 ^ 64 - 7)]

theorem test_integer_results : ∀ e ∈ intCases, tiOf (tiWord e.2.1) = e.2.1 ∧ bit (thx.guard e.2.1) 0 = true ∧
    ((e.2.1.rc = 0 ∧ e.2.1.imm = 0) ∨ (e.2.1.rc = 1 ∧ e.2.1.rb = 0)) ∧ (thAfter e.1 (tum thx e.2.1)).xr 3 = e.2.2 ∧
    (thAfter e.1 (tum thx e.2.1)).pc = 1 := by decide +kernel

theorem witness_TumblerScalarResults : ∀ e ∈ intCases, (tum thx e.2.1).issues 0 0 thx e.2.1 :=
  fun e h => issues_tum thx e.2.1 (test_integer_results e h).1 rfl rfl rfl

/-- One-operand and immediate instructions, and scalar floating point in both widths (R240, R243). -/
def oneCases : List (Instr × TI × Nat) := [
  (.tClz 0 0, ⟨0x1E, 0, 0, 3, 2, 0, 0, 0⟩, 62), (.tClz 0 0, ⟨0x1E, 0, 0, 3, 0, 0, 0, 0⟩, 64), (.tPopc 0 0, ⟨0x1F, 0, 0, 3, 1, 0, 0, 0⟩, 62),
  (.tMovi 0 0, ⟨0x20, 0, 0, 3, 0, 0, 0, 2 ^ 32 - 1⟩, 2 ^ 64 - 1), (.tMovhi 0 0, ⟨0x21, 0, 0, 3, 2, 0, 0, 1⟩, 2 ^ 32 + 2),
  (.tFadd 0 0, ⟨0x28, 0, 0, 3, 4, 5, 0, 1⟩, 0x400C000000000000), (.tFadd 0 0, ⟨0x28, 0, 0, 3, 6, 7, 0, 0⟩, 0x40600000),
  (.tFsub 0 0, ⟨0x29, 0, 0, 3, 4, 5, 0, 1⟩, 0xBFE0000000000000), (.tFmul 0 0, ⟨0x2A, 0, 0, 3, 4, 5, 0, 1⟩, 0x4008000000000000),
  (.tFfma 0 0, ⟨0x2B, 0, 0, 3, 4, 5, 4, 1⟩, 0x4012000000000000), (.tFdiv 0 0, ⟨0x2C, 0, 0, 3, 4, 5, 0, 1⟩, 0x3FE8000000000000),
  (.tFsqrt 0 0, ⟨0x2D, 0, 0, 3, 5, 0, 0, 1⟩, 0x3FF6A09E667F3BCD), (.tFmin 0 0, ⟨0x2E, 0, 0, 3, 4, 5, 0, 1⟩, 0x3FF8000000000000),
  (.tFmax 0 0, ⟨0x2F, 0, 0, 3, 4, 5, 0, 1⟩, 0x4000000000000000), (.tFmax 0 0, ⟨0x2F, 0, 0, 3, 4, 8, 0, 1⟩, 0x7FF8000000000000),
  (.tFcvt 0 0, ⟨0x30, 0, 0, 3, 1, 0, 0, 1⟩, 0xC01C000000000000), (.tFcvt 0 0, ⟨0x30, 0, 0, 3, 5, 0, 0, 5⟩, 2),
  (.tFcvt 0 0, ⟨0x30, 0, 0, 3, 6, 0, 0, 6⟩, 0x3FF8000000000000), (.tFcvt 0 0, ⟨0x30, 0, 0, 3, 4, 0, 0, 8⟩, 0x3FC00000)]

theorem test_one_operand_and_fp : ∀ e ∈ oneCases, tiOf (tiWord e.2.1) = e.2.1 ∧ bit (thx.guard e.2.1) 0 = true ∧
    (thAfter e.1 (tum thx e.2.1)).xr 3 = e.2.2 ∧ (thAfter e.1 (tum thx e.2.1)).pc = 1 := by decide +kernel

theorem witness_TumblerScalarResults_fp : ∀ e ∈ oneCases, (tum thx e.2.1).issues 0 0 thx e.2.1 :=
  fun e h => issues_tum thx e.2.1 (test_one_operand_and_fp e h).1 rfl rfl rfl

/-- NOP, and a result that x0 discards (R240). -/
theorem test_nop_and_x0 :
    thAfter (.tNop 0 0) (tum thx ⟨1, 0, 0, 0, 0, 0, 0, 0⟩) = thx.issued ∧
    thAfter (.tAdd 0 0) (tum thx ⟨0x10, 0, 0, 0, 1, 2, 0, 0⟩) = thx.issued := by decide +kernel

/-- Comparisons and predicates: x1 = −7 below x2 = 2 signed, above it unsigned; p1 = 5, p2 = 6 (R242, R243). -/
def thp : Thread := th xs [] [(1, 5), (2, 6)]
def predCases : List (Instr × TI × Nat) := [
  (.tCmp 0 0, ⟨0x34, 0, 0, 3, 1, 2, 0, 2⟩, 2 ^ 32 - 1), (.tCmp 0 0, ⟨0x34, 0, 0, 3, 1, 2, 0, 4⟩, 0), (.tCmp 0 0, ⟨0x34, 0, 0, 3, 4, 5, 0, 26⟩, 2 ^ 32 - 1),
  (.tCmp 0 0, ⟨0x34, 0, 0, 3, 4, 8, 0, 25⟩, 2 ^ 32 - 1), (.tCmp 0 0, ⟨0x34, 0, 0, 3, 4, 8, 0, 31⟩, 0),
  (.tCmpi 0 0, ⟨0x35, 0, 0, 3, 1, 0, 0, 0xFFFFF900⟩, 2 ^ 32 - 1), (.tPand 0 0, ⟨0x36, 0, 0, 3, 1, 2, 0, 0⟩, 4),
  (.tPor 0 0, ⟨0x37, 0, 0, 3, 1, 2, 0, 0⟩, 7), (.tPnot 0 0, ⟨0x38, 0, 0, 3, 1, 0, 0, 0⟩, 2 ^ 32 - 6), (.tPset 0 0, ⟨0x39, 0, 0, 3, 1, 0, 0, 0⟩, 2 ^ 32 - 7)]

theorem test_predicates : ∀ e ∈ predCases, tiOf (tiWord e.2.1) = e.2.1 ∧ bit (thp.guard e.2.1) 0 = true ∧ e.2.1.rc = 0 ∧ e.2.1.rd ≤ 7 ∧
    (thAfter e.1 (tum thp e.2.1)).pr 3 = e.2.2 := by decide +kernel

theorem witness_TumblerPredicates : ∀ e ∈ predCases, (tum thp e.2.1).issues 0 0 thp e.2.1 :=
  fun e h => issues_tum thp e.2.1 (test_predicates e h).1 rfl rfl rfl

/-- PGET zero-extends; a guard that is off moves the PC on alone; a write to p0 is discarded (R240). -/
theorem test_pget_and_guard :
    (thAfter (.tPget 0 0) (tum thp ⟨0x3A, 0, 0, 3, 2, 0, 0, 0⟩)).xr 3 = 6 ∧
    bit (thp.guard ⟨0x10, 2, 0, 3, 1, 2, 0, 0⟩) 0 = false ∧ thAfter (.tAdd 0 0) (tum thp ⟨0x10, 2, 0, 3, 1, 2, 0, 0⟩) = thp.issued ∧
    after (.tSub 0 0) (tum thp ⟨0x10, 2, 0, 3, 1, 2, 0, 0⟩) = tum thp ⟨0x10, 2, 0, 3, 1, 2, 0, 0⟩ ∧
    thAfter (.tPset 0 0) (tum thp ⟨0x39, 0, 0, 0, 1, 0, 0, 0⟩) = thp.issued := by decide +kernel

theorem witness_TumblerPredicates_guard :
    (tum thp ⟨0x10, 2, 0, 3, 1, 2, 0, 0⟩).issues 0 0 thp ⟨0x10, 2, 0, 3, 1, 2, 0, 0⟩ := issues_tum _ _ (by decide +kernel) rfl rfl rfl

/-- Control: BR and JAL to indexes of the image, JR, CSRR of CMPT, CSRW of SEED and WARD0 (R240, R243). -/
theorem test_control :
    (thAfter (.tBr 0 0) (tum thx ⟨0x40, 0, 0, 0, 0, 0, 0, 15⟩)).pc = 15 ∧
    (thAfter (.tJal 0 0) (tum thx ⟨0x41, 0, 0, 3, 0, 0, 0, 9⟩)).xr 3 = 1 ∧ (thAfter (.tJal 0 0) (tum thx ⟨0x41, 0, 0, 3, 0, 0, 0, 9⟩)).pc = 9 ∧
    (thAfter (.tJr 0 0) (tum thx ⟨0x42, 0, 0, 0, 2, 0, 0, 0⟩)).pc = 2 ∧
    (thAfter (.tCsrr 0 0) (tum thx ⟨0x48, 0, 0, 3, 0, 0, 0, 3⟩)).xr 3 = 7 ∧ (thAfter (.tCsrr 0 0) (tum thx ⟨0x48, 0, 0, 3, 0, 0, 0, 5⟩)).xr 3 = 100 ∧
    (thAfter (.tCsrw 0 0) (tum thx ⟨0x49, 0, 0, 0, 2, 0, 0, 10⟩)).seed = 2 ∧
    (thAfter (.tCsrw 0 0) (tum thx ⟨0x49, 0, 0, 0, 2, 0, 0, 16⟩)).ward.getD 0 0 = 2 := by decide +kernel

theorem witness_TumblerControl :
    (∀ i ∈ [(⟨0x40, 0, 0, 0, 0, 0, 0, 15⟩ : TI), ⟨0x41, 0, 0, 3, 0, 0, 0, 9⟩, ⟨0x42, 0, 0, 0, 2, 0, 0, 0⟩, ⟨0x48, 0, 0, 3, 0, 0, 0, 3⟩,
        ⟨0x49, 0, 0, 0, 2, 0, 0, 19⟩, ⟨0x45, 0, 0, 0, 0, 0, 0, 15⟩, ⟨0x44, 0, 0, 0, 2, 0, 0, 40 * 256⟩],
      (tum thx i).issues 0 0 thx i ∧ bit (thx.guard i) 0 = true ∧ (tum thx i).pin.images.get? thx.item.e.slot = some ⟨0, 0, 16, 1, false⟩) := by
  intro i h
  have e : tiOf (tiWord i) = i ∧ bit (thx.guard i) 0 = true := by revert i; decide +kernel
  exact ⟨issues_tum thx i e.1 rfl rfl rfl, e.2, rfl⟩

/-- END with no access outstanding ends the item: the thread is gone. TRAP with a code above 15 gives UNSUPPORTED (R235, R251). -/
theorem test_end_and_trap :
    (after (.tEnd 0 0) (tum thx ⟨0x44, 0, 0, 0, 2, 0, 0, 0⟩)).thread 0 0 = none ∧
    (after (.tTrap 0 0) (tum thx ⟨0x45, 0, 0, 0, 0, 0, 0, 16⟩)).get F.PIN_EXC_EXCEPTIONS = 1 := by decide +kernel

/-- Scratch at the top of the 64 KiB: what is stored comes back, sign-extended where asked; the frame of the store (R236). -/
def thScratch : Thread := th [(1, 65528), (2, 2 ^ 64 - 7)] [] []
theorem test_scratch :
    let g := after (.tSst 0 0) (tum thScratch ⟨0x51, 0, 0, 2, 1, 0, 2, 4⟩)
    memGetN (g.pinCore 0).scratch 65532 4 = leBytes 4 (2 ^ 32 - 7) ∧ memGet (g.pinCore 0).scratch 65531 = 0 ∧
    (let back := fun (i : TI) => tum thScratch i
     let put := fun (i : TI) => (back i).putScratch 0 65532 (leBytes 4 (2 ^ 32 - 7))
     ((after (.tSld 0 0) (put ⟨0x50, 0, 0, 3, 1, 0, 2, 4⟩)).thread 0 0).map (fun t => t.xr 3) = some (2 ^ 32 - 7) ∧
     ((after (.tSld 0 0) (put ⟨0x50, 0, 0, 3, 1, 0, 6, 4⟩)).thread 0 0).map (fun t => t.xr 3) = some (2 ^ 64 - 7)) := by decide +kernel

theorem witness_TumblerMemoryAndScratch :
    (∀ i ∈ [(⟨0x50, 0, 0, 3, 1, 0, 6, 4⟩ : TI), ⟨0x51, 0, 0, 2, 1, 0, 2, 4⟩, ⟨0x52, 0, 0, 3, 1, 0, 0, 2 ^ 32 - 24⟩, ⟨0x53, 0, 0, 3, 1, 0, 0, 2 ^ 32 - 24⟩],
      (tum thScratch i).issues 0 0 thScratch i ∧ bit (thScratch.guard i) 0 = true ∧ i.rb = 0 ∧
        ∃ a : Nat, (thScratch.xr i.ra : Int) + sext i.imm 32 = a ∧ a + 2 ^ (i.rc % 4) ≤ 65536 ∧ a % 2 ^ (i.rc % 4) = 0 ∧
          (i.rc = 0 → a % 32 = 0 ∧ a + 32 ≤ 65536)) := by
  intro i h
  have e : tiOf (tiWord i) = i ∧ bit (thScratch.guard i) 0 = true ∧ i.rb = 0 ∧
      ((thScratch.xr i.ra : Int) + sext i.imm 32 = 65532 ∧ 2 ^ (i.rc % 4) ≤ 4 ∧ 65532 % 2 ^ (i.rc % 4) = 0 ∧ i.rc ≠ 0 ∨
        (thScratch.xr i.ra : Int) + sext i.imm 32 = 65504 ∧ i.rc = 0) := by revert i; decide +kernel
  refine ⟨issues_tum _ i e.1 rfl rfl rfl, e.2.1, e.2.2.1, ?_⟩
  rcases e.2.2.2 with ⟨h1, h2, h3, h4⟩ | ⟨h1, h2⟩
  · exact ⟨65532, h1, by omega, h3, fun hc => absurd hc h4⟩
  · exact ⟨65504, h1, by rw [h2]; decide, by rw [h2]; decide, fun _ => by decide⟩

/-- Memory instructions at the top of a node's 2^48 bytes: fields, address, alignment and length all good (R236, R245, R246). -/
def thMem : Thread := { th [(1, 7 * 2 ^ 48 + 2 ^ 48 - 64), (2, 4096), (3, 61440), (4, 1)] [] [] with ward := [(0, 0xABC)] }
theorem witness_TumblerMemoryAndScratch_access :
    (∀ i ∈ [(⟨0x58, 0, 0, 3, 1, 0, 7, 56⟩ : TI), ⟨0x59, 0, 0, 3, 1, 0, 3, 56⟩, ⟨0x5A, 0, 0, 3, 1, 0, 0, 32⟩, ⟨0x5B, 0, 0, 3, 1, 0, 0, 32⟩,
        ⟨0x5C, 0, 0, 3, 1, 15, 2, 0⟩, ⟨0x5D, 0, 0, 3, 1, 0, 2, 0⟩, ⟨0x5E, 0, 0, 3, 1, 4, 3, 1⟩, ⟨0x5F, 0, 0, 0, 0, 0, 0, 0⟩],
      (tum thMem i).issues 0 0 thMem i ∧ bit (thMem.guard i) 0 = true ∧ thMem.storeFault = none ∧ i.rb < 16 ∧
        (thMem.acc.filter (fun c => c.kind == .store)).length < 16 ∧ 0 < thMem.xr 2 ∧ thMem.xr 2 ≤ 4096 ∧ thMem.xr 3 + thMem.xr 2 ≤ 65536 ∧
        ∃ o : Nat, (addrOff (thMem.xr i.ra) : Int) + sext i.imm 32 = o ∧ o < 2 ^ 48) := by
  intro i h
  have e : tiOf (tiWord i) = i ∧ bit (thMem.guard i) 0 = true ∧ i.rb < 16 ∧ (addrOff (thMem.xr i.ra) : Int) + sext i.imm 32 =
      ((addrOff (thMem.xr i.ra) + i.imm : Nat) : Int) ∧ addrOff (thMem.xr i.ra) + i.imm < 2 ^ 48 := by revert i; decide +kernel
  exact ⟨issues_tum _ i e.1 rfl rfl rfl, e.2.1, rfl, e.2.2.1, by decide, by decide, by decide, by decide, _, e.2.2.2.1, e.2.2.2.2⟩

/-- LD parks the thread on its access; FENCE with nothing outstanding goes on (R245, R247). -/
theorem test_load_parks :
    (thAfter (.tLd 0 0) (tum thMem ⟨0x58, 0, 0, 3, 1, 0, 7, 56⟩)).wait ≠ .none ∧ (thAfter (.tLd 0 0) (tum thMem ⟨0x58, 0, 0, 3, 1, 0, 7, 56⟩)).acc.length = 1 ∧
    (thAfter (.tFence 0 0) (tum thMem ⟨0x5F, 0, 0, 0, 0, 0, 0, 0⟩)) = thMem.issued := by decide +kernel

/-- LDSLOT of a CUSTOM kernel's chunk: an accumulator of 8 elements, read at byte 0 (R243). -/
def descr0 : Descr := ⟨3, false, 1, 1, 1, 1, false, false, 0x40, 8, 1, 0, 100, 100, 1, 0, 0, 0, 1, 1, 0, 0, 0, 0, 0, 0, 0, 0, 0, 0, 1, 0, []⟩
def chunk0 (s : ChunkSt) : Chunk := ⟨s, [0], [], [], [1, 2, 3, 4, 5, 6, 7, 8], false, [], 0, 0⟩
def round0 (s : RoundSt) (c : Chunk) : Round := ⟨0, 0, 8, 90, s, [(0, c)], [], [], false, 0, 0, false, false, 0, false, []⟩
def stream0 (s : RoundSt) (c : Chunk) : Stream := ⟨descr0, 0, 1, [round0 s c], [], false, none⟩
def thSlot : Thread := { th [] [] [] with item := { item0 with by_ := .custom 3 0 0 0 8 } }
def slotI : TI := ⟨0x54, 0, 0, 2, 0, 0, 0, 0⟩
def slotG : Gikan := { tum thSlot slotI with red := ⟨[(3, stream0 .open (chunk0 .update))], []⟩ }
theorem witness_TumblerMemoryAndScratch_slot :
    slotG.issues 0 0 thSlot slotI ∧ slotG.slotOf thSlot = some ([1, 2, 3, 4, 5, 6, 7, 8], 8) ∧
    ((after (.tLdslot 0 0) slotG).thread 0 0).map (fun t => (velem 32 (t.vr 2) 0, velem 32 (t.vr 2) 7)) = some (1, 8) :=
  ⟨⟨rfl, rfl, by decide +kernel, by decide +kernel, ⟨_, rfl, by decide, by decide⟩, by decide +kernel⟩, by decide +kernel, by decide +kernel⟩

/-- v1 holds bytes 1 to 32 in order, v2 has 0xFF in every byte, v4 and v5 the binary32 1.5 and 2 in each element, v6 the byte 31 − i at i. -/
def vs : Tbl Nat := [(1, packV 8 ((List.range 32).map (fun i => i + 1))), (2, 2 ^ 256 - 1), (4, packV 32 (List.replicate 8 0x3FC00000)),
  (5, packV 32 (List.replicate 8 0x40000000)), (6, packV 8 ((List.range 32).map (fun i => 31 - i)))]
def thv : Thread := th [(1, 0x1FF)] vs [(1, 2)]

/-- Vector instructions with the guard p1, which has element 1 alone: rows, fields, width, expected element 1 of vd (R240, R243); the
other elements of vd stay 0. -/
def vecCases : List (Instr × TI × Nat × Nat) := [
  (.tVadd 0 0, ⟨0x70, 1, 0, 3, 1, 2, 0, 0⟩, 8, 1), (.tVsub 0 0, ⟨0x71, 1, 0, 3, 1, 2, 0, 0⟩, 8, 3), (.tVmul 0 0, ⟨0x72, 1, 0, 3, 1, 2, 0, 0⟩, 8, 254),
  (.tVmin 0 0, ⟨0x74, 1, 0, 3, 1, 2, 0, 0⟩, 8, 255), (.tVmax 0 0, ⟨0x75, 1, 0, 3, 1, 2, 0, 0⟩, 8, 2), (.tVand 0 0, ⟨0x76, 1, 0, 3, 1, 2, 0, 0⟩, 8, 2),
  (.tVor 0 0, ⟨0x77, 1, 0, 3, 1, 2, 0, 0⟩, 8, 255), (.tVxor 0 0, ⟨0x78, 1, 0, 3, 1, 2, 0, 0⟩, 8, 253),
  (.tVadd 0 0, ⟨0x70, 1, 0, 3, 4, 5, 0, 4⟩, 32, 0x40600000), (.tVsub 0 0, ⟨0x71, 1, 0, 3, 4, 5, 0, 4⟩, 32, 0xBF000000),
  (.tVmul 0 0, ⟨0x72, 1, 0, 3, 4, 5, 0, 4⟩, 32, 0x40400000), (.tVmin 0 0, ⟨0x74, 1, 0, 3, 4, 5, 0, 4⟩, 32, 0x3FC00000),
  (.tVmax 0 0, ⟨0x75, 1, 0, 3, 4, 5, 0, 4⟩, 32, 0x40000000), (.tVdiv 0 0, ⟨0x84, 1, 0, 3, 4, 5, 0, 4⟩, 32, 0x3F400000),
  (.tVsqrt 0 0, ⟨0x85, 1, 0, 3, 5, 0, 0, 4⟩, 32, 0x3FB504F3), (.tVfma 0 0, ⟨0x73, 1, 0, 3, 4, 5, 4, 4⟩, 32, 0x40900000),
  (.tVshl 0 0, ⟨0x79, 1, 0, 3, 2, 0, 0, 7 * 256⟩, 8, 128), (.tVshl 0 0, ⟨0x79, 1, 0, 3, 2, 0, 0, 8 * 256⟩, 8, 0),
  (.tVshr 0 0, ⟨0x7A, 1, 0, 3, 2, 0, 0, 63 * 256⟩, 8, 0), (.tVshr 0 0, ⟨0x7A, 1, 0, 3, 2, 0, 0, 2 ^ 14 + 3 * 256⟩, 8, 255),
  (.tVmov 0 0, ⟨0x7C, 1, 0, 3, 1, 0, 0, 0⟩, 8, 2), (.tVsplat 0 0, ⟨0x7D, 1, 0, 3, 1, 0, 0, 1⟩, 16, 0x1FF),
  (.tVins 0 0, ⟨0x7F, 1, 0, 3, 1, 0, 0, 256⟩, 8, 255), (.tVperm 0 0, ⟨0x83, 1, 0, 3, 1, 6, 0, 0⟩, 8, 31),
  (.tVdot 0 0, ⟨0x82, 1, 0, 3, 1, 2, 0, 0⟩, 32, 2 ^ 32 - 26), (.tVcvt 0 0, ⟨0x81, 1, 0, 3, 4, 0, 0, 4 + 16 * 2⟩, 32, 1)]

theorem test_vectors : ∀ e ∈ vecCases, tiOf (tiWord e.2.1) = e.2.1 ∧ bit (thv.guard e.2.1) 1 = true ∧ bit (thv.guard e.2.1) 0 = false ∧
    velem e.2.2.1 ((thAfter e.1 (tum thv e.2.1)).vr 3) 1 = e.2.2.2 ∧ velem e.2.2.1 ((thAfter e.1 (tum thv e.2.1)).vr 3) 0 = 0 ∧
    (thAfter e.1 (tum thv e.2.1)).pc = 1 := by decide +kernel

theorem witness_TumblerVectors_results : ∀ e ∈ vecCases, (tum thv e.2.1).issues 0 0 thv e.2.1 :=
  fun e h => issues_tum thv e.2.1 (test_vectors e h).1 rfl rfl rfl

/-- VCMP, VEXT and VRED (R243), with every element active. -/
theorem test_vector_to_scalar :
    (thAfter (.tVcmp 0 0) (tum thv ⟨0x7B, 0, 0, 3, 1, 6, 0, 2 * 16⟩)).pr 3 = 2 ^ 15 - 1 ∧
    (thAfter (.tVext 0 0) (tum thv ⟨0x7E, 0, 0, 3, 1, 0, 0, 31 * 256⟩)).xr 3 = 32 ∧
    (thAfter (.tVred 0 0) (tum thv ⟨0x80, 0, 0, 3, 1, 0, 0, 0⟩)).xr 3 = 528 ∧ (thAfter (.tVred 0 0) (tum thv ⟨0x80, 0, 0, 3, 4, 0, 0, 4⟩)).xr 3 = 0x41400000 ∧
    (thAfter (.tVred 0 0) (tum thv ⟨0x80, 0, 1, 3, 1, 0, 0, 0⟩)).xr 3 = 0 := by decide +kernel

theorem witness_TumblerVectors :
    ∀ i ∈ [(⟨0x7B, 0, 0, 3, 1, 6, 0, 2 * 16⟩ : TI), ⟨0x7B, 0, 0, 3, 4, 5, 0, 7 * 16 + 4⟩, ⟨0x7E, 0, 0, 3, 1, 0, 0, 31 * 256⟩, ⟨0x80, 0, 0, 3, 1, 0, 0, 47⟩,
        ⟨0x80, 0, 0, 3, 1, 0, 0, 0⟩, ⟨0x81, 0, 0, 3, 1, 0, 0, 4 * 16⟩, ⟨0x7F, 0, 0, 3, 1, 0, 0, 31 * 256⟩, ⟨0x82, 0, 0, 3, 1, 2, 0, 8⟩,
        ⟨0x79, 0, 0, 3, 1, 0, 0, 63 * 256⟩, ⟨0x83, 0, 0, 3, 1, 6, 0, 0⟩],
      (tum thv i).issues 0 0 thv i ∧ i.rd ≤ 15 ∧ i.ra ≤ 15 ∧ i.rc = 0 := by
  intro i h
  have e : tiOf (tiWord i) = i ∧ i.rd ≤ 15 ∧ i.ra ≤ 15 ∧ i.rc = 0 := by revert i; decide +kernel
  exact ⟨issues_tum thv i e.1 rfl rfl rfl, e.2⟩

/-- Words at the ends of every field's range (R239). -/
theorem test_words :
    (∀ i ∈ [(⟨255, 7, 1, 31, 31, 31, 31, 2 ^ 32 - 1⟩ : TI), ⟨0, 0, 0, 0, 0, 0, 0, 0⟩, ⟨0x10, 0, 0, 3, 1, 2, 0, 0⟩], tiWord i < 2 ^ 64 ∧ tiOf (tiWord i) = i) ∧
    tiOf 0x1001844000000000 = ⟨0x10, 0, 0, 3, 1, 2, 0, 0⟩ := by decide +kernel

/-! ## Commands, steps and registers; fabric time and ticks -/

/-- A Gikan whose clock is slewed by 100 ppm, close to a whole nanosecond. -/
def slewed : Gikan := { serv with tick := { serv.tick with sub := 999950, slew := 100 } }

/-- An idle step passes 1 ns: 1.0001 ns at +100 ppm, here over two whole nanoseconds (R17, R18). -/
theorem witness_StepRunsFront :
    (st slewed).pending = [] ∧ slewed.tick.sub < 1000000 ∧ -1000000 ≤ slewed.tick.slew ∧ slewed.tick.slew ≤ 1000000 ∧ slewed.time + 2 < 2 ^ 64 ∧
    (stepped (st slewed)).g.time = 800002 ∧ (stepped (st slewed)).g.tick.sub = 50 ∧ (stepped (st slewed)).g.now = 1 := by decide +kernel

/-- Two commands wait: the first leaves, the second stays. -/
theorem witness_QueueInvariant :
    let s : State := ⟨[.enec, .disec], serv⟩
    (∀ c ∈ s.pending, c.wf = true) ∧
    (stepped s).pending = [.disec] ∧ (stepped s).g.on F.MGT_I3C_IBI_ENABLED = true := by decide +kernel

/-- RW fields take their bits (R4): the six shares of TICK_BUDGET. -/
theorem witness_RegisterWriteByAccess :
    let fs := [F.TICK_BUDGET_RED_SHARE, F.TICK_BUDGET_GTH_SHARE, F.TICK_BUDGET_FLT_SHARE, F.TICK_BUDGET_MTX_SHARE, F.TICK_BUDGET_MOV_SHARE,
      F.TICK_BUDGET_PIN_SHARE]
    regAt regTable 0x200050 = some fs ∧ 0x200050 % 8 = 0 ∧ ownRule 0x200050 = false ∧ serv.gate .pcieA 0x200050 = .pass ∧
    w1cOnly serv .pcieA 0x200050 = false ∧ (∀ f ∈ fs, serv.get f < 2 ^ f.wid) ∧
    (fs.map (after (.registerWrite .pcieA 0x200050 8 0x3F0102030405) serv).get) = [5, 4, 3, 2, 1, 63] := by decide +kernel

/-- An RWS field takes a write before the seal and keeps its value after it, and the write is counted (R381). -/
theorem test_rws_field :
    (after (.registerWrite .pcieA 0x200048 8 99) conf).get F.TICK_LIMITS_HOLD_PPM = 99 ∧
    (after (.registerWrite .pcieA 0x200048 8 99) serv).get F.TICK_LIMITS_HOLD_PPM = 20 ∧
    (after (.registerWrite .pcieA 0x200048 8 99) serv).get F.MGT_SEAL_RWS_WRITES = 1 ∧
    (after (.registerWrite .pcieA 0x200048 8 99) serv).get F.MGT_SEAL_LAST_OFFSET = 0x200048 := by decide +kernel

/-- The gate: the Hasp state, BOOT_ROM outside GLB, FLT and MGT, the other port under ENFORCE, and I3C (R345, R373, R385, R389). -/
def owned : Gikan := puts serv [(F.MGT_OWNER_ENFORCE, 1), (F.MGT_OWNER_HOLDER, 2), (F.MGT_I3C_DA_VALID, 1)]
theorem witness_WritesHeldBack :
    inHasp.hasp = true ∧ Gikan.reset.phase ≤ 1 ∧ mgmtBlock 0x200050 = false ∧
    owned.hasp = false ∧ 1 < owned.phase ∧ owned.on F.MGT_OWNER_ENFORCE = true ∧ owned.owns .pcieA = false ∧ enforceFree 0x200050 = false ∧
    (after (.registerWrite .pcieA 0x200050 8 0) owned).get F.MGT_OWNER_DROPPED = 1 ∧
    owned.on F.MGT_I3C_DA_VALID = true ∧ i3cMay 0x200050 = false ∧ (after (.i3cPrivateWrite 0x200050 0) owned).get F.MGT_I3C_REFUSED = 1 ∧
    after (.registerWrite .pcieA 0x200050 2 0) serv = serv ∧ after (.registerWrite .pcieA 0x200054 8 0) serv = serv := by decide +kernel

/-- Queues with one entry each. -/
def queues : Gikan :=
  let log : List CheckLog := [⟨2 ^ 63 + 1, 5 + 600 * 2 ^ 40, 77⟩]
  { serv with
    map := { serv.map with homeReq := [(3, 9, 1)] }
    stk := { serv.stk with cand := [⟨1, 2, 3, 0, 4⟩] }
    red := ⟨[], [⟨7, 3, 2, true, 0, 1⟩]⟩
    flt := { serv.flt with checkLog := log } }
theorem witness_QueueReads :
    queues.readable .pcieA 0x300090 = true ∧ queues.readable .pcieA 0x6000B0 = true ∧ queues.readable .pcieA 0x900068 = true ∧
    queues.readable .pcieA 0x1000A8 = true ∧ queues.map.homeReq ≠ [] ∧ serv.map.homeReq = [] ∧
    (after (.mapHomeReqRead .pcieA .full) queues).out = [.busRead .pcieA 0x300090 (3 + 9 * 2 ^ 16 + 2 ^ 32 + 2 ^ 48)] ∧
    (after (.mapHomeReqRead .pcieA .full) queues).map.homeReq = [] ∧
    (after (.mapHomeReqRead .pcieA .high) queues).out = [.busRead .pcieA 0x300094 (1 + 2 ^ 16)] ∧
    (after (.mapHomeReqRead .pcieA .high) queues).map.homeReq = [(3, 9, 1)] ∧
    (after (.memRepairCandRead .pcieA .full) queues).stk.cand = [] ∧ (after (.redStraggler0Read .pcieA .full) queues).red.posts = [] ∧
    (after (.fltCheckLog0Read .pcieA .full) queues).get F.FLT_CHECK_LOG1_ACLK_MHZ = 600 ∧
    (after (.fltCheckLog0Read .pcieA .full) queues).get F.FLT_CHECK_LOG2_WORK = 77 ∧
    queues.flt.checkLog ≠ [] ∧ serv.flt.checkLog = [] ∧ serv.stk.cand = [] ∧ serv.red.posts = [] ∧ queues.candWord.testBit 63 = true ∧
    (queues.flt.checkLog.map (fun c => c.w0.testBit 63)) = [true] ∧
    (after (.fltCheckLog0Read .pcieA .full) serv).out = [.busRead .pcieA 0x1000A8 0] := by decide +kernel

/-- Writes of CLR_CNT reach their registers in service, and clear what was counted (R4). -/
def counted : Gikan := puts serv [(F.TICK_EVENTS_BIG_ADMITS, 5), (F.MAP_DUP_AGED_OUT, 6), (F.COH_EVENTS_LATE_DROPS, 7), (F.COH_TXN_ACTIVE, 3),
  (F.COH_TXN_PEAK, 9), (F.FLT_CHECK_STATS_CHECKED, 2), (F.LNK_STATUS_STATE 31, 5), (F.LNK_COUNT0_REPLAYS 31, 4), (F.PIN_QUEUE_CMPT_SWITCHES, 8)]
theorem witness_ClearCounters :
    (∀ f ∈ [F.TICK_CTRL_CLR_CNT, F.MAP_CTRL_CLR_CNT, F.MEM_CTRL_CLR_CNT, F.TIER_CTRL_CLR_CNT, F.RED_CTRL_CLR_CNT, F.GFS_CTRL_CLR_CNT,
        F.CMP_CTRL_CLR_CNT, F.PIN_CTRL_CLR_CNT, F.SUB_CTRL_CLR_CNT, F.XBAR_CTRL_CLR_CNT, F.SEC_CTRL_CLR_CNT, F.FLT_CTRL_CLR_CNT, F.PWR_CTRL_CLR_CNT,
        F.COH_CTRL_CLR_CNT, F.LNK_CTRL_CLR_CNT 31], counted.gate .pcieA (offOf f) = .pass ∧ w1cOnly counted .pcieA (offOf f) = false) ∧
    counted.lnkState 31 ≠ 0 ∧ counted.lnkState 31 ≠ 8 ∧ counted.wrValue (trig (wr 1) (F.LNK_CTRL_CLR_CNT 31)) (F.LNK_CTRL_ENABLE 31) = 1 ∧
    wrOne (trig (wr 1) (F.LNK_CTRL_CLR_CNT 31)) (F.LNK_CTRL_RETRAIN 31) = false ∧
    (after (.tickClrCnt (wr 0)) counted).get F.TICK_EVENTS_BIG_ADMITS = 0 ∧ (after (.mapClrCnt (wr 0)) counted).get F.MAP_DUP_AGED_OUT = 0 ∧
    (after (.cohClrCnt (wr 0)) counted).get F.COH_EVENTS_LATE_DROPS = 0 ∧ (after (.cohClrCnt (wr 0)) counted).get F.COH_TXN_PEAK = 3 ∧
    (after (.fltClrCnt (wr 0)) counted).get F.FLT_CHECK_STATS_CHECKED = 0 ∧ (after (.pinClrCnt (wr 0)) counted).get F.PIN_QUEUE_CMPT_SWITCHES = 0 ∧
    (after (.lnkClrCnt (wr 1) 31) counted).get (F.LNK_COUNT0_REPLAYS 31) = 0 := by decide +kernel

/-- The time master before and after RUN; a child before the boundary at which it starts, and at it (R20). -/
def master : Gikan := puts conf [(F.TICK_CTRL_MASTER, 1), (F.TICK_CTRL_RUN, 1), (F.TICK_PERIOD_NEXT_US, 64)]
def master1 : Gikan := { master with tick := { master.tick with timeSet := some 5000 } }
def child (t : Nat) : Gikan :=
  let g := puts conf [(F.TICK_CTRL_RUN, 1), (F.TICK_PARENT_VALID, 1), (F.TICK_PARENT_PORT, 31), (F.LNK_STATUS_STATE 31, 5), (F.TICK_TIME_TIME_NS, t)]
  { g with tick := { g.tick with startAt := some (9000, 12), parent := some ⟨4, 1000, 8, 0, 2 ^ 64 - 1⟩, req := some (3, 256 * 4000), lastExch := some 0 } }
theorem witness_TicksAndTimeSync :
    conf.gate .pcieA (offOf F.TICK_CTRL_RUN) = .pass ∧ w1cOnly conf .pcieA (offOf F.TICK_CTRL_RUN) = false ∧
    (after (.tickRun (wr 0)) conf).get F.TICK_CTRL_RUN = 1 ∧
    master1.on F.TICK_CTRL_RUN = true ∧ master1.on F.TICK_CTRL_MASTER = true ∧ master1.running = false ∧ master1.tick.timeSet = some 5000 ∧
    (after .masterTickStart master1).time = 5000 ∧ (after .masterTickStart master1).get F.TICK_PERIOD_PERIOD_US = 64 ∧
    (child 9000).isChild = true ∧ (child 9000).running = false ∧ (after .tickStart (child 9000)).running = true ∧
    (after .tickStart (child 9000)).tickNo = 12 ∧ after .tickStart (child 8999) = child 8999 ∧
    (child 9000).carries ((child 9000).get F.TICK_PARENT_PORT) 0 = true := by decide +kernel

/-- An exchange: t1 = 4,000 ns, t2 = 4,110, t3 = 8,909, t4 = 8,999: offset 10 ns, delay 100 ns (R18, R20). -/
def sync (exch : Nat) : TSync := ⟨false, 1, exch, 256 * 4110, 256 * 8909, 4, 1000, 8, 0, 2 ^ 64 - 1⟩
theorem witness_TicksAndTimeSync_exchange :
    (child 8999).tick.req = some (3, 256 * 4000) ∧ (child 8999).isChild = true ∧ (sync 3).bad = false ∧ (sync 3).timeValid = 1 ∧ (sync 4).exch ≠ 3 ∧
    (child 8999).carries ((child 8999).get F.TICK_PARENT_PORT) 0 = true ∧ (child 8999).tick.sentAt = none ∧
    after (.syncResp 31 (sync 4) 0) (child 8999) = child 8999 ∧
    (after (.syncResp 31 (sync 3) 0) (child 8999)).get F.TICK_OFFSET_OFFSET_PS = 10000 ∧
    (after (.syncResp 31 (sync 3) 0) (child 8999)).get F.TICK_OFFSET_DELAY_PS = 100000 ∧
    (after (.syncResp 31 (sync 3) 0) (child 8999)).tick.good = 1 ∧
    (after (.syncReqSend 256) (child 5000)).tick.req = some (1, 256 * 5001) ∧ (after (.syncReqSend 0) (child 5000)).out.length = 1 ∧
    (let g := { child 5000 with tick := { (child 5000).tick with sentAt := some 0 }, now := 3999 }
     after (.syncReqSend 0) g = g ∧ (after (.syncReqSend 0) { g with now := 4000 }).out.length = 1) ∧
    (after (.syncReq 31 (sync 3) 1000 255000) (child 8999)).out.length = 1 ∧ (after (.syncReq 31 (sync 3) 1000 255001) (child 8999)).out = [] := by decide +kernel
/-- The held servo keeps its correction (R18, R32). -/
theorem witness_ClockSplits_servo :
    ((child 8999).set F.TICK_CTRL_SERVO_FREEZE 1).servoHeld = true ∧
    (after (.syncResp 31 (sync 3) 0) ((child 8999).set F.TICK_CTRL_SERVO_FREEZE 1)).tick.slew = 0 ∧
    ((child 8999).set F.TICK_CTRL_SERVO_FREEZE 0).servoHeld = false := by decide +kernel

/-- NEXT_US takes 2 to 64; SWITCH_AT needs 16 ticks of lead and the master; the armed change takes effect (R27). -/
def armedMaster : Gikan :=
  let g := puts serv [(F.TICK_CTRL_MASTER, 1), (F.TICK_SWITCH_SWITCH_AT, 101), (F.TICK_PERIOD_ARMED_US, 4), (F.TICK_TIME_TIME_NS, 808000)]
  { g with tick := { g.tick with base := 0, baseTick := 0 } }
theorem witness_TicksAndTimeSync_period :
    let w := fun n => wr (at_ F.TICK_PERIOD_NEXT_US n)
    wrCovers (w 2) F.TICK_PERIOD_NEXT_US = true ∧ serv.wrValue (w 2) F.TICK_PERIOD_NEXT_US = 2 ∧ serv.wrValue (w 64) F.TICK_PERIOD_NEXT_US = 64 ∧
    serv.wrValue (w 65) F.TICK_PERIOD_NEXT_US = 65 ∧
    (after (.tickPeriodWrite (w 64)) serv).get F.TICK_PERIOD_NEXT_US = 64 ∧ (after (.tickPeriodWrite (w 2)) serv).get F.TICK_PERIOD_NEXT_US = 2 ∧
    (after (.tickPeriodWrite (w 1)) serv).get F.TICK_PERIOD_NEXT_US = 8 ∧ (after (.tickPeriodWrite (w 65)) serv).get F.TICK_EVENTS_SWITCH_REFUSALS = 1 ∧
    armedMaster.on F.TICK_CTRL_MASTER = true ∧ armedMaster.tickNo + 16 = 116 ∧
    (after (.switchAtWrite (wr 116)) armedMaster).get F.TICK_SWITCH_SWITCH_AT = 116 ∧
    (after (.switchAtWrite (wr 116)) armedMaster).get F.TICK_PERIOD_ARMED_US = 8 ∧
    (after (.switchAtWrite (wr 115)) armedMaster).get F.TICK_EVENTS_SWITCH_REFUSALS = 1 ∧
    (after (.switchAtWrite (wr (2 ^ 64 - 1))) armedMaster).get F.TICK_PERIOD_ARMED_US = 0 ∧
    armedMaster.running = true ∧ armedMaster.on F.TICK_PERIOD_ARMED_US = true ∧ armedMaster.get F.TICK_SWITCH_SWITCH_AT = armedMaster.tickNo + 1 ∧
    armedMaster.frameEnd = 808000 ∧ armedMaster.frameEnd ≤ armedMaster.time ∧ armedMaster.tick.late = false ∧ armedMaster.tick.gap = none ∧
    (after .periodChange armedMaster).get F.TICK_PERIOD_PERIOD_US = 4 ∧ (after .periodChange armedMaster).tick.base = 808000 := by decide +kernel

/-- Holdover at 12 µs, the time-split state past 200 ns, TICK_REF (R22, R23, R33). -/
def held : Gikan := let g := puts serv [(F.TICK_STATUS_HOLDOVER, 1), (F.TICK_LIMITS_HOLD_PPM, 255), (F.TICK_TIME_TIME_NS, 784314)]
  { g with tick := { g.tick with lastExch := some 0 } }
def refd : Gikan := let g := puts serv [(F.TICK_CTRL_MASTER, 1), (F.TICK_CTRL_REF_EN, 1), (F.TICK_REF_PERIOD_PERIOD_US, 100), (F.TICK_TIME_TIME_NS, 801000)]
  { g with tick := { g.tick with refNext := some 700000 } }
/-- The same before RUN, with no edge seen yet. -/
def refd0 : Gikan := let g := refd.set F.TICK_CTRL_RUN 0; { g with tick := { g.tick with refNext := none } }
theorem witness_ClockSplits :
    (child 12000).isChild = true ∧ (child 12000).tick.lastExch = some 0 ∧ (after .holdover (child 12000)).on F.TICK_STATUS_HOLDOVER = true ∧
    (after .holdover (child 11999)).on F.TICK_STATUS_HOLDOVER = false ∧
    held.running = true ∧ held.on F.TICK_STATUS_HOLDOVER = true ∧ 200000000 < held.exchAge * max 1 (held.get F.TICK_LIMITS_HOLD_PPM) ∧
    held.servoHeld = false ∧ held.on F.TICK_STATUS_SPLIT = false ∧ (after .holdoverErrorLimit held).get F.TICK_STATUS_SPLIT = 1 ∧
    (after .holdoverErrorLimit (held.set F.TICK_TIME_TIME_NS 784313)).get F.TICK_STATUS_SPLIT = 0 ∧
    refd.takesRef = true ∧ refd.tick.refNext = some 700000 ∧ (after .tickRefMissing refd).get F.TICK_EVENTS_REF_MISSED = 1 ∧
    (after .tickRefMissing (refd.set F.TICK_TIME_TIME_NS 800999)).get F.TICK_EVENTS_REF_MISSED = 0 ∧
    refd.on F.TICK_CTRL_RUN = true ∧ (after .tickRefEdge refd).time = 801000 ∧ refd0.takesRef = true ∧ refd0.on F.TICK_CTRL_RUN = false ∧
    refd0.tick.refNext = none ∧ (after .tickRefEdge refd0).time = 900000 ∧ (after .tickRefEdge refd0).tick.refNext = some 1000000 ∧
    (after .tickRefEdge (after .tickRefEdge refd0)).time = 900000 ∧
    (child 0).takesRef = false := by decide +kernel

/-- A boundary at the end of its frame, and none before (R26, R28): tick 101, 8 µs of 1,500 cycles each, the shares of 60/64. -/
def framed (t : Nat) : Gikan := { serv.set F.TICK_TIME_TIME_NS t with tick := { serv.tick with base := 0, baseTick := 0 } }
theorem witness_TickBoundary :
    (framed 808000).running = true ∧ (framed 808000).frameEnd = 808000 ∧ (framed 808000).hasp = false ∧ (framed 808000).tick.gap = none ∧
    (framed 808000).tick.late = false ∧ ((framed 808000).set F.MGT_STATUS_PHASE 7).hasp = true ∧
    (after .tickBoundary (framed 808000)).tickNo = 101 ∧ after .tickBoundary (framed 807999) = framed 807999 ∧
    (after .tickBoundary (framed 808000)).budget .gth = 8 * serv.get F.PWR_STATE_ACLK_MHZ * 60 / 64 ∧
    (after .tickBoundary ((framed 808000).set F.MGT_STATUS_PHASE 7)).tickNo = 101 := by decide +kernel

/-- Items on gather engine 31 with a budget of 1,000 cycles: one that fits exactly, one above the budget, one that waits (R29, R30). -/
def engSt (c busy : Nat) : Gikan :=
  { serv with eng := ⟨[(unitKey ⟨.gth, 31⟩, ⟨[⟨c, .job 0 0 0, 0, none⟩], [], busy, none⟩)], 12000, [1000, 1000, 1000, 1000, 1000, 1000], [1000, 1000, 1000, 1000, 1000, 1000], false⟩ }
theorem witness_FramedItems :
    ((engSt 900 0).unit ⟨.gth, 31⟩).queue = [⟨900, .job 0 0 0, 0, none⟩] ∧ (engSt 900 0).admitOpen ⟨.gth, 31⟩ = true ∧
    (engSt 900 0).budget .gth = 1000 ∧
    ((after (.itemAdmit ⟨.gth, 31⟩ 100) (engSt 900 0)).unit ⟨.gth, 31⟩).busy = 1000 ∧ after (.itemAdmit ⟨.gth, 31⟩ 101) (engSt 900 0) = engSt 900 0 ∧
    ((after (.itemAdmit ⟨.gth, 31⟩ 0) (engSt 1001 0)).unit ⟨.gth, 31⟩).hold = some (1001, 1000) ∧
    after (.itemAdmit ⟨.gth, 31⟩ 1) (engSt 1001 0) = engSt 1001 0 ∧
    (let g := after (.itemAdmit ⟨.gth, 31⟩ 100) (engSt 900 0)
     g.hasp = false ∧ (g.unit ⟨.gth, 31⟩).run.length = 1 ∧ ((after (.itemEnd ⟨.gth, 31⟩ 700) g).unit ⟨.gth, 31⟩).run = []) ∧
    ((engSt 900 0).unit ⟨.gth, 31⟩).run = [] := by decide +kernel

/-! ## Transactions -/

/-- What a receipt admits, if it admits anything. -/
def go? : Recv → Option (Gikan × Nat × ExtW)
  | .go h i e => some (h, i, e)
  | .done _ => none

theorem go?_eq {r : Recv} {h : Gikan} {i : Nat} {e : ExtW} (hr : go? r = some (h, i, e)) : r = .go h i e := by
  cases r <;> simp_all [go?]

/-- A request that is admitted on an extent, with what the receipt leaves. -/
def admits (g : Gikan) (x : Fin 48) (q : Req) : Gikan × Nat × ExtW := (go? (g.receive x q q.hdr.type false)).getD (g, 0, ExtW.none)

theorem serves_of (g : Gikan) (x : Nat) (q : Req) (h j k1 k : Gikan) (i : Nat) (e : ExtW)
    (h1 : go? (g.receive x q q.hdr.type false) = some (h, i, e))
    (h2 : h.map.revoked.get? i = none ∧ h.check7 q e = 0 ∧ h.memLength q e = true ∧ h.check10 q e = (true, j))
    (h3 : (q.hdr.type = tyREAD ∨ j.onLoanHere (j.realAddr q.hdr.addr) (max 1 q.hdr.length) = false) ∧
      (q.hdr.type = tyPUBLISH → j.onLoanHere e.base 8 = false) ∧ e.coh = false)
    (h4 : j.admitPages ⟨i, e⟩ (j.realAddr q.hdr.addr) q.hdr.length (q.hdr.type != tyREAD) = (true, k1))
    (h5 : if q.hdr.type = tyPUBLISH then k1.admitPages ⟨i, e⟩ e.base 8 true = (true, k) else k1 = k)
    (h6 : if q.hdr.type = tyPUBLISH then e.pub = true ∧ e.base + 8 ≤ k.realAddr q.hdr.addr else q.hdr.type = tyREAD ∨ e.pub = false)
    (h7 : q.hdr.type = tyATOMIC → e.comp = 0) : g.serves x q i e k := by
  refine ⟨h, j, go?_eq h1, h2.1, h2.2.1, h2.2.2.1, h2.2.2.2, h3.1, h3.2.1, h3.2.2, ?_, h6, h7⟩
  rw [h4]
  exact h5

/-- The extent of `withExt` with its first 64 bytes written: sound units of 32 B; every other unit is poisoned. -/
def memG (flags : Nat) : Gikan :=
  { withExt flags with mem := [(here 0, 9), (here 63, 5)], clean := [here 0, here 32] }

def wReq (n : Nat) : Req := ⟨hd 2 (here 0) n, [], List.replicate n 0xEE⟩
def aReq (op addr : Nat) : Req := ⟨{ hd 3 addr 8 with subop := op }, leBytes 16 3 ++ leBytes 16 9, []⟩

/-- A READ of two sound units, one of a poisoned unit, a WRITE, and an ATOMIC ADD on a sound word and on a poisoned one, all on the extent
at its first bytes or its last. -/
theorem witness_ReadsAndWrites :
    (memG 0).serves 47 (⟨hd 1 (here 0) 64, [], []⟩) 0 (extAt 0) (memG 0) ∧
    (memG 0).serves 47 (⟨hd 1 (here (2 ^ 26 - 32)) 32, [], []⟩) 0 (extAt 0) (memG 0) ∧
    (memG 0).serves 47 (wReq 64) 0 (extAt 0) (memG 0) := by
  refine ⟨?_, ?_, ?_⟩ <;>
    exact serves_of _ _ _ (memG 0) (memG 0) (memG 0) _ _ _ (by decide +kernel) (by decide +kernel) (by decide +kernel) (by decide +kernel)
      (by decide +kernel) (by decide +kernel) (by decide +kernel)

theorem witness_ReadsAndWrites_units :
    (memG 0).stk.freeBad = [] ∧ (memG 0).tier.copyA.get? 0 = none ∧ (memG 0).on F.MEM_FLIP_ARM = false ∧
    (∀ u ∈ (⟨0, extAt 0⟩ : Site).units (here 0) 64, (memG 0).clean.contains u = true ∧ (memG 0).bad.getD u 0 = 0) ∧
    (⟨0, extAt 0⟩ : Site).units (here 0) 64 = [here 0, here 32] ∧
    (∀ u ∈ (⟨0, extAt 0⟩ : Site).units (here (2 ^ 26 - 32)) 32, (memG 0).clean.contains u = false ∧ (memG 0).bad.getD u 0 = 0) ∧
    (⟨0, extAt 0⟩ : Site).units (here (2 ^ 26 - 32)) 32 = [here (2 ^ 26 - 32)] := by decide +kernel

/-- What the WRITE leaves: its bytes, and nothing of the byte after them (R42, R91). -/
theorem test_write_stores :
    let g := after (.write 47 (wReq 33)) (memG 0)
    memGet g.mem (here 0) = 0xEE ∧ memGet g.mem (here 32) = 0xEE ∧ memGet g.mem (here 33) = 0 ∧ memGet g.mem (here 63) = 5 := by decide +kernel

theorem witness_AtomicAndPublish :
    (memG 0).serves 47 (aReq 1 (here 0)) 0 (extAt 0) (memG 0) ∧ (memG 0).serves 47 (aReq 10 (here (2 ^ 26 - 8))) 0 (extAt 0) (memG 0) := by
  refine ⟨?_, ?_⟩ <;>
    exact serves_of _ _ _ (memG 0) (memG 0) (memG 0) _ _ _ (by decide +kernel) (by decide +kernel) (by decide +kernel) (by decide +kernel)
      (by decide +kernel) (by decide +kernel) (by decide +kernel)

/-- The operations of R43 on the word 9 with operand 3 and comparand 9. -/
theorem test_atomics :
    (∀ o ∈ [(1, 12), (2, 1), (3, 11), (4, 10), (5, 3), (6, 9), (7, 3), (8, 9), (9, 3), (10, 3)],
      field (memGetN (after (.atomic 47 (aReq o.1 (here 0))) (memG 0)).mem (here 0) 8) 0 8 = o.2) ∧
    (after (.atomic 47 (aReq 1 (here 64))) (memG 0)).mem = (memG 0).mem := by decide +kernel

/-- A published region: version 5 of publisher 8 in its header, a PUBLISH of version 6, 5 and 4 by node 5, and 5 by node 8 (R84). -/
def pubG : Gikan := { withExt (2 ^ 27) with mem := [(here 0, 5), (here 4, 8)], clean := [here 0, here 32], sec := { serv.sec with masks := [(5, 1), (8, 1)] } }
def pReq (v src : Nat) : Req := ⟨{ hd 13 (here 32) 4 with src := src }, leBytes 4 v ++ zeros 4, [1, 2, 3, 4]⟩
theorem witness_AtomicAndPublish_publish : ∀ q ∈ [pReq 6 5, pReq 5 5, pReq 4 5, pReq 5 8], pubG.serves 47 q 0 (extAt (2 ^ 27)) pubG := by
  intro q hq
  have e : go? (pubG.receive 47 q q.hdr.type false) = some (pubG, 0, extAt (2 ^ 27)) ∧
      (pubG.map.revoked.get? 0 = none ∧ pubG.check7 q (extAt (2 ^ 27)) = 0 ∧ pubG.memLength q (extAt (2 ^ 27)) = true ∧
        pubG.check10 q (extAt (2 ^ 27)) = (true, pubG)) ∧
      ((q.hdr.type = tyREAD ∨ pubG.onLoanHere (pubG.realAddr q.hdr.addr) (max 1 q.hdr.length) = false) ∧
        (q.hdr.type = tyPUBLISH → pubG.onLoanHere (extAt (2 ^ 27)).base 8 = false) ∧ (extAt (2 ^ 27)).coh = false) ∧
      pubG.admitPages ⟨0, extAt (2 ^ 27)⟩ (pubG.realAddr q.hdr.addr) q.hdr.length (q.hdr.type != tyREAD) = (true, pubG) ∧
      q.hdr.type = tyPUBLISH ∧ pubG.admitPages ⟨0, extAt (2 ^ 27)⟩ (extAt (2 ^ 27)).base 8 true = (true, pubG) ∧
      ((extAt (2 ^ 27)).pub = true ∧ (extAt (2 ^ 27)).base + 8 ≤ pubG.realAddr q.hdr.addr) := by revert q; decide +kernel
  refine serves_of _ _ _ pubG pubG pubG _ _ _ e.1 e.2.1 e.2.2.1 e.2.2.2.1 ?_ ?_ ?_
  · rw [if_pos e.2.2.2.2.1]; exact e.2.2.2.2.2.1
  · rw [if_pos e.2.2.2.2.1]; exact e.2.2.2.2.2.2
  · intro h; rw [e.2.2.2.2.1] at h; exact absurd h (by decide)

theorem test_publish_results :
    (let g := after (.publish 47 (pReq 6 5)) pubG
     field (memGetN g.mem (here 0) 8) 0 4 = 6 ∧ field (memGetN g.mem (here 0) 8) 4 2 = 5 ∧ memGetN g.mem (here 32) 4 = [1, 2, 3, 4]) ∧
    (after (.publish 47 (pReq 4 5)) pubG).mem = pubG.mem ∧ (after (.publish 47 (pReq 5 8)) pubG).mem = pubG.mem ∧
    (after (.publish 47 (pReq 5 5)) pubG).mem = pubG.mem ∧ (after (.publish 47 (pReq 5 5)) pubG).get F.MAP_PUB_CONFLICT_VERSION = 5 := by decide +kernel

/-- Checks (R10, R36): a SRC that no port may send, the Hasp state, a quarantined port, a reserved bit, a revoked extent, a wrong ward, a LENGTH
of 0, a quiesced compartment. -/
def quarG : Gikan := withExt 0 |>.set (F.LNK_STATUS_STATE 0) 6
def rq (n : Nat) : Req := ⟨hd 1 (here 0) n, [], []⟩
theorem witness_AdmissionAndRecords :
    (rq 64).wf = true ∧
    (withExt 0).srcOk 0 { rq 64 with hdr := { (rq 64).hdr with src := 0xFFFE } } = false ∧
    inHasp.srcOk 0 (rq 64) = true ∧ inHasp.hasp = true ∧ inHasp.forSelf (rq 64) = true ∧
    quarG.srcOk 0 (rq 64) = true ∧ quarG.hasp = false ∧ quarG.quarBad 0 (rq 64) = true ∧
    (withExt 0).quarBad 0 (rq 64) = false ∧ (withExt 0).unsup 0 { rq 64 with hdr := { (rq 64).hdr with rsv1 := 1 } } false = true ∧
    (go? ((withExt 0).receive 0 (rq 64) 1 false)).isSome = true ∧ (withExt 0).check7 (rq 64) (extAt 0) = 0 ∧
    (withExt 0).check7 { rq 64 with hdr := { (rq 64).hdr with ward := 1 } } (extAt 0) = 3 ∧
    (withExt 0).memLength (rq 64) (extAt 0) = true ∧ (withExt 0).memLength (rq 4097) (extAt 0) = false ∧
    (extAt (2 ^ 22)).seated = true ∧ ((withExt 0).set F.MAP_QUIESCE_CMPT_MASK 1).get F.MAP_QUIESCE_CMPT_MASK = 1 ∧
    (after (.read 0 { rq 64 with hdr := { (rq 64).hdr with src := 0xFFFE } }) (withExt 0)).get (F.LNK_COUNT2_SRC_DROPS 0) = 1 := by decide +kernel

/-- The record cache (R58, R59): a pending record, a complete one, and none at an age of 4. -/
def dupG (d : Option (Resp × Nat)) : Gikan := { memG 0 with req := { serv.req with dups := [⟨5, 1, 100, 3, 0, d⟩] } }
def okResp : Resp := ⟨0x83, 0, 0, 2, 0, 1, 7, 5, 100, 0, []⟩
theorem witness_AdmissionAndRecords_cache :
    (dupG none).arrives 47 (aReq 1 (here 0)) .outside (dupG none) ∧
    (dupG none).req.dups.find? (fun r => r.src == 5 && r.tag == 1 && r.sentTick == 100 && r.type == 3) = some ⟨5, 1, 100, 3, 0, none⟩ ∧
    (after (.atomic 47 (aReq 1 (here 0))) (dupG none)).get F.MAP_DUP_PENDING_DROPS = 1 ∧
    (dupG (some (okResp, 0))).evictableRec ⟨5, 1, 100, 3, 0, some (okResp, 0)⟩ = false ∧
    (after (.atomic 47 (aReq 1 (here 0))) (dupG (some (okResp, 0)))).mem = (memG 0).mem ∧
    4 ≤ (memG 0).reqAge { aReq 1 (here 0) with hdr := { (aReq 1 (here 0)).hdr with sentTick := 96 } } ∧
    (after (.atomic 47 { aReq 1 (here 0) with hdr := { (aReq 1 (here 0)).hdr with sentTick := 96 } }) (memG 0)).get F.MAP_DUP_AGED_OUT = 1 := by
  refine ⟨⟨?_, ?_⟩, ?_⟩ <;> decide +kernel

/-- A message queue of 16 slots of 64 B on host port A, with room, and full; a MSG of 48 B fits its slots exactly (R48, R270). -/
def mqG (tail : Nat) : Gikan :=
  let r : Ring := ⟨1 + 32 + 4 * 256 + 6 * 4096, 0x10000, 0, tail, false, []⟩
  { withExt 0 with sub := { serv.sub with mqs := [(4095, r)] } }
/-- A node-addressed request to node 7. -/
def nReq (type len : Nat) (body payload : List Byte) : Req := ⟨{ hd type (here 0) len with ward := 0 }, body, payload⟩
def mReq (n len : Nat) : Req := nReq 0x0A len (leBytes 2 n ++ zeros 6) (List.replicate len 1)
/-- A FENCE command of 32 bytes, as a packet. -/
def pkt32 : List Byte := leBytes 2 0 ++ zeros 2 ++ leBytes 2 32 ++ zeros 26
def tReq : Req := nReq 0x04 32 (leBytes 2 0xFFFF ++ zeros 6) pkt32
/-- The same asking for a result of more than 40 bytes. -/
def tReqBig : Req := { tReq with body := leBytes 2 0xFFFF ++ leBytes 2 41 ++ zeros 4 }
def lReq (type pages : Nat) : Req := nReq type 0 (leBytes 8 (5 * 2 ^ 48) ++ leBytes 4 pages ++ zeros 4) []
def lending : Gikan := (withExt 0).set F.TIER_CTRL_LEND_EN 1
theorem witness_MessagesAndNodeRequests :
    (go? ((mqG 15).receive 0 (mReq 4095 48) 0x0A false)).isSome = true ∧ ((mqG 15).mq 4095).valid = true ∧ ((mqG 15).mq 4095).cmpt = 0 ∧
    (mqG 15).memberOf 5 0 = true ∧ 48 + 16 ≤ ((mqG 15).mq 4095).slotBytes ∧ ((mqG 15).check10Node (mReq 4095 48)).1 = true ∧
    ((mqG 15).mq 4095).used < ((mqG 15).mq 4095).slots ∧ ((mqG 16).mq 4095).slots ≤ ((mqG 16).mq 4095).used ∧ ((mqG 15).mq 4095).loc = 1 ∧
    ((mqG 0).mq 4094).valid = false ∧
    ((after (.msg 0 (mReq 4095 48)) (mqG 15)).mq 4095).tail = 16 ∧ ((after (.msg 0 (mReq 4095 48)) (mqG 16)).mq 4095).tail = 16 ∧
    (go? ((withExt 0).receive 0 tReq 0x04 false)).isSome = true ∧ trigEntry tReq = 0xFFFF ∧ trigResultMax tReq ≤ 40 ∧ 40 < trigResultMax tReqBig ∧
    (go? ((withExt 0).receive 0 tReqBig 0x04 false)).isSome = true ∧ ((after (.triggerCommand 0 tReqBig) (withExt 0)).kway 0).next = 0 ∧ field tReq.payload 4 2 = 32 ∧ (withExt 0).kwRoom 0 = true ∧
    ((after (.triggerCommand 0 tReq) (withExt 0)).kway 0).next = 1 ∧
    (go? ((withExt 0).receive 0 (nReq 9 0 [] []) 9 false)).isSome = true ∧
    (go? (lending.receive 0 (lReq 0x0B 4096) 0x0B false)).isSome = true ∧ lendLengthBad (lReq 0x0B 4096) = false ∧ lendLengthBad (lReq 0x0B 4097) = true ∧
    (lending.takeLoan (lendBase (lReq 0x0B 4096)) 4096 0).1 = stOK ∧ ((withExt 0).takeLoan (lendBase (lReq 0x0B 4096)) 4096 0).1 = stBUSY ∧ (after (.lend 0 (lReq 0x0B 4097)) lending).tier.loans = [] ∧
    (go? (lending.receive 0 (lReq 0x0C 1) 0x0C false)).isSome = true := by decide +kernel

/-- An outstanding READ at its resend tick and before it, at its timeout tick, and its response (R57, R61, R63). -/
def outG (firstAt resends : Nat) : Gikan :=
  let o : OutReq := ⟨⟨{ hd 1 (5 * 2 ^ 48) 64 with src := 7, tag := 9 }, [], []⟩, 0, .bar4 .a 64 true, firstAt, firstAt, 8, resends⟩
  let a : Again := ⟨800000, o.q, 0, .bar4 .a 64 true⟩
  let w : TagWait := ⟨o.q, 0, .bar4 .a 64 true⟩
  { serv with
    map := { serv.map with cur := ⟨[], [(5, 1)], []⟩ }
    req := { serv.req with outst := [(9, o)], again := [a], waiting := [w] } }
def rsp (tag sent : Nat) : Resp := ⟨0x81, 0, 0, 2, 0, tag, 5, 7, sent, 0, zeros 64⟩
theorem witness_RequesterRules :
    serv.hasp = false ∧ (outG 800000 0).isSelf 7 = true ∧
    (after (.response 40 (rsp 9 100)) (outG 800000 0)).req.outst = [] ∧
    (after (.response 40 (rsp 9 99)) (outG 800000 0)).get F.MAP_EVENTS2_LATE_DROPS = 1 ∧
    (resendTicks 1)[1]? = some 2 ∧ timeoutTick 1 = 4 ∧
    ((after (.requestResend 9) (outG 784000 1)).req.outst.get? 9).map (fun o => o.resends) = some 2 ∧
    ((after (.requestResend 9) (outG 784001 1)).req.outst.get? 9).map (fun o => o.resends) = some 1 ∧
    (after (.requestTimeout 9) (outG 768000 2)).req.outst = [] ∧ (after (.requestTimeout 9) (outG 768001 2)).req.outst ≠ [] ∧
    (outG 0 0).codeBad 40 (rsp 9 100) = false ∧ (outG 0 0).stillWanted (.bar4 .a 64 true) = true ∧ (after (.busyResend 0) (outG 0 0)).req.again = [] ∧
    (after .tagWaitIssue (outG 0 0)).req.waiting = [] ∧ (outG 0 0).takeTag.isSome = true := by decide +kernel

/-! ## Extent maps, epochs, revocation and handover -/

/-- A staged map equal to the current one; with a commit armed for tick `at`, under an open Hinge that began at 0, or neither. -/
def mapG (flags : Nat) : Gikan :=
  let m : MapTab := ⟨[(0, extAt flags)], [(5, 1)], []⟩
  { withExt flags with map := { serv.map with cur := m, stage := m, stageW := [1, 2, 3] } }
def armedG : Gikan := puts (mapG 0) [(F.MAP_STATUS_ARMED, 1), (F.MAP_ARM_COMMIT_AT, 100), (F.MAP_EPOCH_CURRENT, 65535)]
def hingeG : Gikan := let g := (mapG 0).set F.MAP_EPOCH_HINGE 1
  { g with map := { g.map with hingeAt := 795000, hingeMin := 5, hingeTimeout := 6 } }

/-- Staging: DATA3 stores an entry and INDEX moves on from its last value to 0; DATA0 stores a route with ROUTE; ARMED locks both out. Arming:
16 ticks of lead, all ones, and a map that fails (R71, R72). -/
theorem witness_MapCommits :
    (∀ n ∈ [0, 1, 2, 3], (mapG 0).gate .pcieA (0x300030 + 8 * n) = .pass ∧ w1cOnly (mapG 0) .pcieA (0x300030 + 8 * n) = false) ∧
    (mapG 0).armed = false ∧ armedG.armed = true ∧
    (let g := after (.mapStageStore (wr 4) 3) ((mapG 0).set F.MAP_STAGE_INDEX_INDEX 65535)
     g.map.stage.ext.getD 65535 ExtW.none = ⟨1, 2, 3, 4⟩ ∧ g.get F.MAP_STAGE_INDEX_INDEX = 0) ∧
    (let g := after (.mapStageStore (wr 4) 0) (puts (mapG 0) [(F.MAP_STAGE_INDEX_ROUTE, 1), (F.MAP_STAGE_INDEX_INDEX, 16383)])
     g.map.stage.route.getD 16383 0 = 4 ∧ g.get F.MAP_STAGE_INDEX_INDEX = 16384) ∧
    (after (.mapStageStore (wr 4) 3) armedG).get F.MAP_STATUS_LOCKED_WRITES = 1 ∧
    (mapG 0).gate .pcieA (offOf F.MAP_ARM_COMMIT_AT) = .pass ∧ w1cOnly (mapG 0) .pcieA (offOf F.MAP_ARM_COMMIT_AT) = false ∧
    (mapG 0).wrValue (wr 116) F.MAP_ARM_COMMIT_AT = 116 ∧
    (((mapG 0).set F.MAP_STATUS_ARMED 0).set F.MAP_ARM_COMMIT_AT (2 ^ 64 - 1)).armCause 116 = 0 ∧
    (((mapG 0).set F.MAP_STATUS_ARMED 0).set F.MAP_ARM_COMMIT_AT (2 ^ 64 - 1)).armCause 115 = 1 ∧
    (after (.mapArmWrite (wr 116)) (mapG 0)).armed = true ∧ (after (.mapArmWrite (wr 115)) (mapG 0)).get F.MAP_STATUS_REFUSE_CAUSE = 1 ∧
    (after (.mapArmWrite (wr (2 ^ 64 - 1))) armedG).armed = false := by decide +kernel

/-- The boundary of a commit, of a join, and of the Hinge's minimum, count and timeout (R74 to R76). The epoch wraps from 65,535 to 0. -/
theorem witness_MapCommits_boundaries :
    armedG.hasp = false ∧ armedG.commitDue = true ∧ (mapG 0).commitDue = false ∧ (armedG.set F.MAP_ARM_COMMIT_AT 101).commitDue = false ∧
    armedG.on F.MAP_JOIN_JOIN = false ∧ armedG.on F.MAP_EPOCH_HINGE = false ∧ armedG.hingeTimes = (5000, 1000, 12) ∧
    (let g := after .mapCommit armedG
     g.epoch = 0 ∧ g.get F.MAP_EPOCH_PREVIOUS = 65535 ∧ g.on F.MAP_EPOCH_HINGE = true ∧ g.map.prev = armedG.map.cur ∧ g.armed = false) ∧
    (armedG.set F.MAP_JOIN_JOIN 1).on F.MAP_JOIN_JOIN = true ∧
    (let g := after .joinCommit (puts armedG [(F.MAP_JOIN_JOIN, 1), (F.MAP_JOIN_EPOCH, 77)])
     g.epoch = 77 ∧ g.on F.MAP_EPOCH_HINGE = false ∧ g.armed = false) ∧
    hingeG.on F.MAP_EPOCH_HINGE = true ∧ hingeG.map.hingeAt + 1000 * hingeG.map.hingeMin = hingeG.time ∧ hingeG.map.hingeMin < hingeG.map.hingeTimeout ∧
    hingeG.prevInflight = 0 ∧ (after .hingeRetire hingeG).on F.MAP_EPOCH_HINGE = false ∧
    after .hingeRetire (hingeG.set F.TICK_TIME_TIME_NS 799999) = hingeG.set F.TICK_TIME_TIME_NS 799999 ∧
    (after .hingeTimeout (hingeG.set F.TICK_TIME_TIME_NS 801000)).get F.MAP_EVENTS_HINGE_TIMEOUTS = 1 ∧
    after .hingeTimeout (hingeG.set F.TICK_TIME_TIME_NS 800999) = hingeG.set F.TICK_TIME_TIME_NS 800999 := by decide +kernel

/-- Masks of MAP_QUIESCE, and a request held on a seated extent of a masked compartment (R78). -/
def heldG (why : Hold) : Gikan :=
  let h : Held := ⟨4, 47, rq 64, 0, why⟩
  { mapG (2 ^ 22) with req := { serv.req with held := [h] } }
theorem witness_QuiesceAndRevoke :
    (mapG 0).gate .pcieA (offOf F.MAP_QUIESCE_CMPT_MASK) = .pass ∧ w1cOnly (mapG 0) .pcieA (offOf F.MAP_QUIESCE_CMPT_MASK) = false ∧
    wrCovers (wr 0xFFFF) F.MAP_QUIESCE_CMPT_MASK = true ∧
    (after (.mapQuiesceWrite (wr 0xFFFF)) ((mapG 0).set F.MAP_QUIESCE_DONE 1)).get F.MAP_QUIESCE_DONE = 0 ∧
    (after (.mapQuiesceWrite (wr 1)) (puts (mapG 0) [(F.MAP_QUIESCE_DONE, 1), (F.MAP_QUIESCE_CMPT_MASK, 3)])).get F.MAP_QUIESCE_DONE = 1 ∧
    (mapG 0).hasp = false ∧ ((heldG (.job 1)).set F.MAP_QUIESCE_CMPT_MASK 1).quiesceBusy = true ∧ ((heldG (.token 0)).set F.MAP_QUIESCE_CMPT_MASK 1).quiesceBusy = false ∧
    (after .quiesceDone ((heldG (.token 0)).set F.MAP_QUIESCE_CMPT_MASK 1)).get F.MAP_QUIESCE_DONE = 1 ∧
    after .quiesceDone ((heldG (.job 1)).set F.MAP_QUIESCE_CMPT_MASK 1) = (heldG (.job 1)).set F.MAP_QUIESCE_CMPT_MASK 1 := by decide +kernel

/-- A revoke of an extent homed here, a second one, its DONE, and its drain time of 1,000 µs (R79, R80). -/
def revoking (t : Nat) (why : Hold) : Gikan := { (heldG why).set F.MAP_REVOKE_STATUS_DRAINING 1 with map := { (mapG 0).map with revokeAt := some (0, t), revoked := [(0, false)] } }
theorem witness_QuiesceAndRevoke_revoke :
    (mapG 0).gate .pcieA (offOf F.MAP_REVOKE_GO) = .pass ∧ w1cOnly (mapG 0) .pcieA (offOf F.MAP_REVOKE_GO) = false ∧
    (mapG 0).on F.MAP_REVOKE_STATUS_DRAINING = false ∧ ((mapG 0).map.cur.entry 0).valid = true ∧ ((mapG 0).map.cur.entry 0).home = (mapG 0).node ∧
    ((mapG 0).map.cur.entry 65535).valid = false ∧
    (after (.mapRevokeGo (wr 0)) (mapG 0)).on F.MAP_REVOKE_STATUS_DRAINING = true ∧
    (after (.mapRevokeGo (wr 65535)) (mapG 0)).get F.MAP_DUP_REVOKE_IGNORED = 1 ∧ (after (.mapRevokeGo (wr 0)) (revoking 0 (.job 1))).get F.MAP_DUP_REVOKE_IGNORED = 1 ∧
    (revoking 0 (.token 0)).pendingOn 0 = [] ∧ (revoking 0 (.job 1)).pendingOn 0 ≠ [] ∧
    (revoking 0 (.token 0)).pendingCount 0 = 0 ∧ (revoking 0 (.job 1)).pendingCount 0 = 1 ∧
    (after .revokeDrainTimeout ((revoking 0 (.token 0)).set F.TICK_TIME_TIME_NS 1000000)).on F.MAP_REVOKE_STATUS_ABORTED = false ∧
    (after .revokeDone (revoking 0 (.token 0))).on F.MAP_REVOKE_STATUS_DONE = true ∧
    after .revokeDone (revoking 0 (.job 1)) = revoking 0 (.job 1) ∧
    after .revokeDrainTimeout ((revoking 0 (.job 1)).set F.TICK_TIME_TIME_NS 999999) = (revoking 0 (.job 1)).set F.TICK_TIME_TIME_NS 999999 ∧
    (after .revokeDrainTimeout ((revoking 0 (.job 1)).set F.TICK_TIME_TIME_NS 1000000)).on F.MAP_REVOKE_STATUS_ABORTED = true := by decide +kernel

/-- The parts of a handover of extent 0 with node 5: A running, stopped, B waiting at its deadline and before it, B reverted (R81, R82). -/
def handG (step : HandStep) (deadline sentAt : Nat) (outst : Tbl OutReq) : Gikan :=
  let hd : Handover := ⟨step, 5, 0, deadline, sentAt⟩
  { mapG 0 with map := { (mapG 0).map with hand := [(0, hd)] }, req := { serv.req with outst := outst } }
def ctlOut (type : Nat) : Tbl OutReq := [(9, ⟨nReq type 0 (zeros 16) [], 47, .control 0 0, 0, 0, 8, 0⟩)]
def ctlReq (type : Nat) : Req := { nReq type 0 (zeros 16) [] with hdr := { hd type (here 0) 0 with ward := 0, src := 5 } }
def handAck (status : Nat) : Resp := ⟨0xC0, 0, 0, 0, status, 9, 5, 7, 100, 0, []⟩
theorem witness_HandoverRules :
    (handG .aRunning 0 0 []).hasp = false ∧ (handG .aRunning 0 0 []).prevOn 0 = false ∧ (handG .aRunning 0 0 []).tier.copyA.get? 0 = none ∧
    ((after (.handoverSend 0) (handG .aRunning 0 0 [])).map.hand.get? 0).map (fun h => h.step) = some .aStopped ∧
    ((after (.handoverDeadline 0) (handG .bWaiting 800000 0 [])).map.hand.get? 0).map (fun h => h.step) = some .bReverted ∧
    after (.handoverDeadline 0) (handG .bWaiting 800001 0 []) = handG .bWaiting 800001 0 [] ∧
    (handG .aStopped 0 792000 (ctlOut tyHANDOVER)).controlTags tyHANDOVER 0 = [9] ∧
    ((after (.handoverResend 0) (handG .aStopped 0 792000 (ctlOut tyHANDOVER))).map.hand.get? 0).map (fun h => h.sentAt) = some 800000 ∧
    after (.handoverResend 0) (handG .aStopped 0 792001 (ctlOut tyHANDOVER)) = handG .aStopped 0 792001 (ctlOut tyHANDOVER) ∧
    (handG .bReverted 0 0 (ctlOut tyREVERT)).controlTags tyREVERT 0 = [9] ∧
    (go? ((handG .bWaiting 900000 0 []).receive 47 (ctlReq tyHANDOVER) tyHANDOVER (ctlBad (ctlReq tyHANDOVER)))).isSome = true ∧
    bodyField (ctlReq tyHANDOVER) 32 2 = 0 ∧
    ((after (.handover 47 (ctlReq tyHANDOVER)) (handG .bWaiting 900000 0 [])).map.hand.get? 0).map (fun h => h.step) = some .bHolds ∧
    ((after (.handover 47 (ctlReq tyHANDOVER)) (handG .bReverted 900000 0 [])).map.hand.get? 0).map (fun h => h.step) = some .bReverted ∧
    (go? ((handG .aStopped 0 0 []).receive 47 (ctlReq tyREVERT) tyREVERT (ctlBad (ctlReq tyREVERT)))).isSome = true ∧
    ((after (.homeRevert 47 (ctlReq tyREVERT)) (handG .aStopped 0 0 [])).map.hand.get? 0).map (fun h => h.step) = some .aKept ∧
    ((handG .aStopped 0 0 (ctlOut tyHANDOVER)).answered (handAck stOK)).isSome = true ∧
    ((after (.handoverAck 47 (handAck stOK)) (handG .aStopped 0 0 (ctlOut tyHANDOVER))).map.hand.get? 0).map (fun h => h.step) = some .aDone ∧
    ((after (.handoverAck 47 (handAck stTIMEOUT)) (handG .aStopped 0 0 (ctlOut tyHANDOVER))).map.hand.get? 0).map (fun h => h.step) = some .aKept := by decide +kernel

/-! ## Stacks, tiers and the Placer -/

def training (mask : Nat) : Gikan := puts Gikan.reset [(F.MGT_STATUS_PHASE, 4), (F.MEM_STATUS_TRAINED, mask)]
/-- Frames 1 to 8 with the Placer's records, and frame 30,719 in a use; a page of entry 0 on it that moves to frame 0, both marked. -/
def frameG (f : FrameSt) (retiring : List Nat) : Gikan := 
  { mapG 0 with stk := { serv.stk with frames := (List.range 8).map (fun i => (i + 1, .record)) ++ [(30719, f)], retiring := retiring } }
def pageRec (state : PageState) (moving : Moving) : PageRec := ⟨state, .host .a 3, 9, 0, false, moving, none⟩
def pageG (state : PageState) (moving : Moving) : Gikan :=
  { mapG (2 ^ 28) with tier := { serv.tier with pages := [(1, pageRec state moving)] } }
def movingG : Gikan :=
  { pageG .resident (.frame 0 0) with stk := { serv.stk with frames := [(0, .moveTo 0 1)] ++ (List.range 8).map (fun i => (i + 1, .record)) ++ [(30719, .page 0 1)], retiring := [30719] } }
theorem witness_Stacks :
    (training 4094).phase = 4 ∧ (training 4094).stamped = false ∧ (training 4094).bitOf F.MEM_STATUS_TRAINED 0 = false ∧
    (after (.stackTrainingEnd 0 true 256) (training 4094)).get F.MEM_STATUS_TRAINED = 4095 ∧
    after (.stackTrainingEnd 11 true 0) (training 4094) = training 4094 ∧
    (training 4095).get F.MEM_STATUS_TRAINED = 4095 ∧ (training 4095).phase = 4 ∧ (training 4095).sealed = false ∧ (training 4095).mgt.holdMs = 0 ∧ after .stampingEnd (training 4094) = training 4094 ∧
    (frameG .waiting [30719]).hasp = false ∧ (frameG .waiting [30719]).frame 30719 = .waiting ∧ (frameG .waiting [30719]).get F.PWR_STATE_STATE < 2 ∧
    (after (.releaseStampEnd 30719) (frameG .waiting [30719])).frame 30719 = .retired ∧
    (after (.releaseStampEnd 30719) (frameG .waiting [])).frame 30719 = .free ∧
    (let g := pageG .stamping .none
     (g.page 0 1).state = .stamping ∧ (frameG .windowWait []).frame 30719 = .windowWait ∧
       (after (.releaseStampEnd 30719) (frameG .windowWait [])).frame 30719 = .window ∧ ((after (.slackStampEnd 0 1) g).page 0 1).state = .resident) := by decide +kernel

theorem witness_Stacks_frames :
    (mapG 0).gate .pcieA (offOf F.MEM_RETIRE_GO) = .pass ∧ w1cOnly (mapG 0) .pcieA (offOf F.MEM_RETIRE_GO) = false ∧
    (wrField (trig (wr 30719) F.MEM_RETIRE_GO) F.MEM_RETIRE_FRAME).1 = 30719 ∧ (mapG 0).frame 30719 = .free ∧ (mapG 0).stamped = true ∧ (mapG 0).retired = 0 ∧
    (after (.memRetireWrite (wr 30719)) (mapG 0)).frame 30719 = .retired ∧ after (.memRetireWrite (wr 30720)) (mapG 0) = mapG 0 ∧
    (let g := { frameG (.page 0 1) [] with tier := { serv.tier with pages := [(1, pageRec .resident (.demote 7))] } }
     g.frame 30719 ≠ .free ∧ (after (.memRetireWrite (wr 30719)) g).stk.retiring = [30719]) ∧
    movingG.hasp = false ∧ Tbl.sorted movingG.stk.frames = true ∧ movingG.frame 30719 = .page 0 1 ∧ (movingG.page 0 1).moving = .frame 0 0 ∧
    movingG.stk.retiring.contains 30719 = true ∧
    (let last := 30720 * 8192 * 128 - 1
     let g := { mapG 0 with stk := { serv.stk with scrubbed := [(0, last)] } }
     let on := g.set F.MEM_CTRL_SCRUB_EN 1
     on.on F.MEM_CTRL_SCRUB_EN = true ∧ on.stamped = true ∧ on.get F.PWR_STATE_STATE < 2 ∧ on.frame 30719 = .free ∧
       covAdd last [(0, last)] = [(0, 30720 * 8192 * 128)] ∧ (after (.patrolScrub last 0) on).get F.MEM_SCRUB_PASSES = 1 ∧
       (after (.patrolScrub last 0) on).stk.scrubbed = [] ∧
       (after (.patrolScrub 0 0) ((mapG 0).set F.MEM_CTRL_SCRUB_EN 1)).stk.scrubbed = [(0, 1)] ∧
       after (.patrolScrub 0 0) ((mapG 0).set F.MEM_CTRL_SCRUB_EN 0) = (mapG 0).set F.MEM_CTRL_SCRUB_EN 0) ∧
    (let t := puts (mapG 0) [(F.FLT_TEST_ACTIVE, 1)]
     t.gate .pcieA (offOf F.MEM_FLIP_ARM) = .pass ∧ (after (.memFlipArm (wr (at_ F.MEM_FLIP_PATTERN 255))) t).get F.MEM_FLIP_PATTERN = 255 ∧
       after (.memFlipArm (wr 0)) (mapG 0) = mapG 0) := by decide +kernel

/-- Granules of page 1 of entry 0: the first, and the last of 8,192; decay at a multiple of 16 ticks; a demotion; what the flash layer counts
(R110 to R112, R126, R133 to R137). -/
theorem witness_PageMovesAndFlash :
    let f := fun (got : List Nat) => pageG .lower (.fetch false 5 got false)
    (f []).hasp = false ∧ ((f []).page 0 1).moving = .fetch false 5 [] false ∧ ((f []).page 0 1).lent = none ∧
    ((f []).page 0 1).lowerAt = .host .a 3 ∧ ((f []).page 0 1).span = 1 ∧
    ((f []).page 0 1).nextGranule = some 5 ∧ ((f [5]).page 0 1).nextGranule = some 0 ∧ ((f [0, 5]).page 0 1).nextGranule = some 1 ∧
    ((after (.fetchGranuleArrive 0 1 5 .hard) (f [])).page 0 1).moving = .fetch false 5 [5] false ∧
    after (.fetchGranuleArrive 0 1 0 .hard) (f []) = f [] ∧ after (.fetchGranuleArrive 0 1 5 .hard) (f [5]) = f [5] ∧
    (insNat (List.range 8191) 8191).length = 8192 := by decide +kernel

theorem witness_PageMovesAndFlash_rest :
    let g := puts (pageG .resident .none) [(F.TICK_COUNT_TICK, 320), (F.TIER_HEAT_DECAY, 10)]
    g.running = true ∧ g.tickNo % (16 * max 1 (g.get F.TIER_HEAT_DECAY)) = 0 ∧ g.tier.lastDecay ≠ some 320 ∧ ((after .heatDecay g).page 0 1).heat = 4 ∧
    after .heatDecay (g.set F.TICK_COUNT_TICK 321) = g.set F.TICK_COUNT_TICK 321 ∧
    (let d := pageG .resident (.demote 0)
     (d.page 0 1).moving = .demote 0 ∧ (d.page 0 1).lowerAt = .host .a 3 ∧
       after (.demotionEnd 0 1) (pageG .resident (.demote 1)) = pageG .resident (.demote 1) ∧
       (let fl := { d with tier := { d.tier with pages := [(1, { pageRec .resident (.demote 0) with lowerAt := .flash 5 })] } }
        fl.flashWritable = false ∧ after (.demotionEnd 0 1) fl = fl)) ∧
    (let f := g.set F.TIER_STATUS_FTL_READY 1
     f.flashWritable = true ∧ g.flashWritable = false ∧ g.relocCause 9 .errorLevel = true ∧ g.relocCause 9 .readCount = false ∧ g.relocCause 9 .wear = false ∧
       ({ g with tier := { g.tier with reads := [(9, 1000000000)] } }).relocCause 9 .readCount = true ∧
       ({ g with tier := { g.tier with erases := [(8, 0), (9, 65000)] } }).relocCause 9 .wear = true ∧
       (after (.blockRelocate 9 .errorLevel) g).get F.TIER_SAG_ERASES_HELD = 1 ∧ (after (.programFail 9) f).tier.badBlocks = [9] ∧
       after (.blockRelocate 9 .errorLevel) (after (.programFail 9) f) = after (.programFail 9) f ∧ after (.ftlReady true [] []) f = f ∧
       (after (.ftlReady false [] []) g).bitOf (F.FLT_WORDS_GROUPS 1) 55 = true) ∧
    conf.stamped = false ∧ conf.on F.TIER_STATUS_FTL_READY = false ∧ conf.hasp = false := by decide +kernel

/-- Hints on a tiered extent of two pages: both, one too many, none, and on an extent that is not tiered (R116). -/
def tierG (n : Nat) : Gikan := puts (mapG (2 ^ 28)) [(F.TIER_HINT0_FIRST_PAGE, n)]
theorem witness_HintsAndSchedules :
    (tierG 0).gate .pcieA (offOf F.TIER_HINT1_GO) = .pass ∧ w1cOnly (tierG 0) .pcieA (offOf F.TIER_HINT1_GO) = false ∧
    ((tierG 0).map.cur.entry 0).valid = true ∧ ((tierG 0).map.cur.entry 0).home = (tierG 0).node ∧ ((tierG 0).map.cur.entry 0).tier ≠ 0 ∧
    ((tierG 0).map.cur.entry 0).pages = 2 ∧
    ((after (.hintKeep (wr 2)) (tierG 0)).page 0 1).kept = true ∧ (after (.hintKeep (wr 2)) (tierG 1)).get F.TIER_HINT1_REFUSED = 1 ∧
    (after (.hintCold (wr 0)) (tierG 0)).get F.TIER_HINT1_REFUSED = 1 ∧ (after (.hintDrop (wr 1)) (mapG 0)).get F.TIER_HINT1_IGNORED = 1 ∧
    ((after (.hintUnkeep (wr 1)) (after (.hintKeep (wr 2)) (tierG 0))).page 0 0).kept = false ∧
    ((after (.hintUnkeep (wr 1)) (after (.hintKeep (wr 2)) (tierG 0))).page 0 1).kept = true := by decide +kernel

/-- A schedule that waits for tick 100, and one in force whose tile 0 has its deadline then and its release at tick 100 (R119 to R121). -/
def tile0 (staging late : Bool) (release : Nat) : Tile := ⟨0, 0, 2, 20, some release, false, false, false, 0, 100, staging, late, false⟩
def schedG (tick : Nat) (staging late : Bool) : Gikan :=
  let s : Sched := ⟨80, 1000, 2, [tile0 staging late 20]⟩
  { (tierG 0).set F.TICK_COUNT_TICK tick with tier := { serv.tier with sched := [(15, s)] } }
def schedW (tick : Nat) : Gikan :=
  let s : Sched := ⟨100, 1000, 1, [tile0 false false 20]⟩
  { (tierG 0).set F.TICK_COUNT_TICK tick with tier := { serv.tier with nextSched := [(15, [s])] } }
theorem witness_HintsAndSchedules_schedule :
    (schedW 100).hasp = false ∧ (schedW 100).running = true ∧ ((after (.scheduleReplace 15) (schedW 100)).tier.sched.get? 15).isSome = true ∧
    after (.scheduleReplace 15) (schedW 99) = schedW 99 ∧ (schedW 100).tier.sched.get? 15 = none ∧
    ((after (.stagingStart 15 0) (schedW 100)).tier.nextSched.getD 15 []).map (fun s => s.tiles.map (fun t => t.staging)) = [[true]] ∧
    (schedG 100 false false).delays 1 = false ∧
    ((after (.stagingStart 15 0) (schedG 100 false false)).tier.sched.get? 15).map (fun s => s.tiles.map (fun t => t.staging)) = some [true] ∧
    after (.stagingStart 15 0) (schedG 99 false false) = schedG 99 false false ∧
    (schedG 100 true false).tileHere (tile0 true false 20) = false ∧ (after (.tileLate 15 0) (schedG 100 true false)).get F.TIER_SCHED_STATUS_LATE = 1 ∧
    after (.tileLate 15 0) (schedG 101 true false) = schedG 101 true false ∧
    ((after (.tileRelease 15 0) (schedG 100 true false)).tier.sched.get? 15).map (fun s => s.tiles.map (fun t => t.rep)) = some [1] ∧
    after (.tileRelease 15 0) (schedG 99 true false) = schedG 99 true false := by decide +kernel

/-- Home copies of entry 0 with node 5: B's answer without a frame for every page, a line, A's posting, the pull's end, the hold's expiry, the
cancellation after 128 ticks, DOMAIN_STATUS (R127 to R130). -/
def copyAG (posted : Option Nat) : Gikan := { mapG 0 with tier := { serv.tier with copyA := [(0, ⟨5, true, posted, [], []⟩)] } }
def copyBG (next : Nat) (done : Bool) : Gikan := { mapG 0 with tier := { serv.tier with copyB := [(0, ⟨5, next, [], done⟩)] } }
theorem witness_HomeCopies :
    (go? ((copyBG 0 false).receive 47 (ctlReq tyHOMECOPY) tyHOMECOPY (ctlBad (ctlReq tyHOMECOPY)))).isSome = true ∧
    (copyBG 0 false).tier.copyB.get? 0 = some ⟨5, 0, [], false⟩ ∧ ((mapG 0).map.cur.entry 0).pages ≤ (mapG 0).freeFrames ∧
    (mapG 0).map.cur.entry 1 = ExtW.none ∧ (after (.homeCopy 47 { ctlReq tyHOMECOPY with body := leBytes 2 1 ++ zeros 14 }) (mapG 0)).tier.asked = true ∧
    (let l : Req := ⟨{ (ctlReq tyHOMELINE).hdr with length := 128 }, zeros 16, zeros 128⟩
     (go? ((copyBG 0 false).receive 47 l tyHOMELINE (ctlBad l))).isSome = true ∧ (after (.homeLine 47 l) (copyBG 0 false)).tier.copyB = (copyBG 0 false).tier.copyB) ∧
    (go? ((copyAG none).receive 47 (ctlReq tyCOPYDONE) tyCOPYDONE (ctlBad (ctlReq tyCOPYDONE)))).isSome = true ∧
    ((copyAG none).set F.TIER_CTRL_PLACER_EN 1).mayMigrate = true ∧
    (after (.copyDone 47 (ctlReq tyCOPYDONE)) ((copyAG none).set F.TIER_CTRL_PLACER_EN 1)).map.homeReq = [(0, 5, 0)] ∧
    (after (.copyCancel 47 (ctlReq tyCOPYCANCEL)) (copyAG none)).tier.copyA = [] ∧
    (after (.domainStatus 47 { ctlReq tyDOMAIN with body := zeros 4 ++ leBytes 4 77 ++ zeros 8 }) (mapG 0)).tier.domFree.getD 5 0 = 77 ∧
    ((mapG 0).map.cur.entry 0).len = 2 ^ 26 ∧ (copyBG (2 ^ 26) false).pulling 0 = false ∧
    ((after (.pullEnd 0) (copyBG (2 ^ 26) false)).tier.copyB.get? 0).map (fun c => c.done) = some true ∧
    after (.pullEnd 0) (copyBG (2 ^ 26 - 1) false) = copyBG (2 ^ 26 - 1) false ∧
    max 16 ((copyAG none).get F.TIER_HEAT_COPY_HOLD) = (copyAG none).get F.TIER_HEAT_COPY_HOLD := by decide +kernel

theorem witness_HomeCopies_timers :
    let hold := puts (copyAG (some 84)) [(F.TIER_HEAT_COPY_HOLD, 5)]
    hold.hasp = false ∧ max 16 (hold.get F.TIER_HEAT_COPY_HOLD) ≤ hold.tickNo - 84 ∧ hold.map.hand.get? 0 = none ∧
    (after (.copyHoldExpiry 0) hold).tier.copyA = [] ∧ after (.copyHoldExpiry 0) (hold.set F.TICK_COUNT_TICK 99) = hold.set F.TICK_COUNT_TICK 99 ∧
    (let c := { copyAG none with req := { serv.req with outst := ctlOut tyHOMECOPY } }
     let late := c.set F.TICK_TIME_TIME_NS 1024000
     late.controlTags tyHOMECOPY 0 = [9] ∧ late.controlTags tyCOPYCANCEL 0 = [] ∧ late.copyPeer 0 = some 5 ∧
       ((late.req.outst.get? 9).map (fun o => late.ticksOut o)) = some 128 ∧ (after (.copyCancelTimeout 0) late).tier.copyA = [] ∧
       (after (.copyCancelTimeout 0) (c.set F.TICK_TIME_TIME_NS 1023999)).tier.copyA ≠ [] ∧
       ((after (.controlResend 9) (c.set F.TICK_TIME_TIME_NS 8000)).req.outst.get? 9).map (fun o => o.resends) = some 1 ∧
       after (.controlResend 9) (c.set F.TICK_TIME_TIME_NS 7999) = c.set F.TICK_TIME_TIME_NS 7999) ∧
    (let d := { mapG 0 with map := { (mapG 0).map with cur := ⟨[(0, extAt 0)], [(5, 1)], [7, 5]⟩ } }
     d.tier.lastStatus = none ∧ d.running = true ∧ d.hasp = false) ∧
    (let m : MapTab := ⟨[(0, extAt 0)], [(5, 1)], [7, 5]⟩
     let h := { puts (mapG 0) [(F.MAP_CTRL_HOME_REQ_EN, 1), (F.TIER_CTRL_PLACER_EN, 1), (F.TIER_HEAT_MOVE_SHARE, 100)] with
       map := { (mapG 0).map with cur := m }, tier := { serv.tier with seenLast := [(0, 10)], seenByLast := [(5, 10)] } }
     h.on F.MAP_CTRL_HOME_REQ_EN = true ∧ h.mayMigrate = true ∧ h.tier.lastCopy = none ∧ h.movable 0 = true ∧ 0 ∈ h.map.cur.ext.map (fun c => c.1) ∧
       h.trafficMember 0 = some 5 ∧ ((after (.homeCopyStart 0) h).tier.copyA.get? 0).isSome = true ∧
       after (.homeCopyStart 0) (h.set F.MAP_CTRL_HOME_REQ_EN 0) = h.set F.MAP_CTRL_HOME_REQ_EN 0) ∧
    (let r : ReclaimWait := ⟨47, lReq 0x0C 1, 90, 96⟩
     let g := { mapG 0 with tier := { serv.tier with reclaims := [r] } }
     g.tier.reclaims[0]? = some r ∧ g.reclaimDue r = true) := by decide +kernel

/-! ## Coherence -/

/-- A coherent extent whose first and last lines have directory entries `d` and X {8}; agents 5 and 8. -/
def cohG (d : Dir) (txns : List Txn) : Gikan :=
  let g := memG (2 ^ 21)
  let n := txns.length
  { g.set F.COH_TXN_ACTIVE n with coh := { g.coh with agents := [5, 8], dir := [(here 0, d), (here (2 ^ 26 - 128), Dir.x 8)], txns := txns } }
/-- An agent's message about a line: type, flags, payload. -/
def cohReq (type line flags : Nat) (payload : List Byte) : Req :=
  let ward := if type = tyCOMPLETE ∨ type = tySNPRSP then 0 else 0xABC
  ⟨{ hd type line payload.length with ward := ward }, leBytes 8 line ++ leBytes 2 5 ++ leBytes 2 1 ++ leBytes 1 0 ++ leBytes 1 flags ++ zeros 2, payload⟩
def cohBad (g : Gikan) (q : Req) : Bool := cohBodyBad q || (g.forSelf q && !g.isAgent q.hdr.src)
def deadG : Gikan := { cohG Dir.u [] with coh := { (cohG Dir.u []).coh with dead := [5] } }
/-- Each request of an agent on a free line is queued, at the first line and the last; one of a dead agent is dropped; the checks before it
(R145, R146, R153). -/
theorem witness_CoherenceTransactions :
    (∀ t ∈ [tyRDSHARED, tyRDOWN, tyUPGRADE], ∀ l ∈ [here 0, here (2 ^ 26 - 128)],
      let q := cohReq t l 0 []
      (cohG Dir.u []).deadSrc q = false ∧ (go? ((cohG Dir.u []).receive 47 q t (cohBad (cohG Dir.u []) q))).isSome = true ∧ cohLength q = true ∧
        (cohG Dir.u []).match3 q 0 (some 0xABC) = 0 ∧ ((cohG Dir.u []).check10 q (extAt (2 ^ 21))).1 = true) ∧
    (extAt (2 ^ 21)).coh = true ∧ (extAt 0).coh = false ∧
    (after (.rdShared 47 (cohReq tyRDSHARED (here 0) 0 [])) (cohG Dir.u [])).coh.txns = [Txn.new (here 0) 0 .rdShared 5 1 0 (zeros 128)] ∧
    (let q := cohReq tyWBDIRTY (here 0) 1 (List.replicate 128 7)
     (go? ((cohG Dir.u []).receive 47 q tyWBDIRTY (cohBad (cohG Dir.u []) q))).isSome = true ∧
       (after (.wbDirty 47 q) (cohG Dir.u [])).coh.txns = [Txn.new (here 0) 0 .writeBack 5 1 0 (List.replicate 128 7)]) ∧
    (let g := { cohG Dir.u [] with tier := { serv.tier with pages := [(0, { PageRec.unbacked with state := .unplaced })] } }
     (g.admitPages ⟨0, extAt (2 ^ 21)⟩ (here 0) 128 false).1 = false ∧ (after (.rdShared 47 (cohReq tyRDSHARED (here 0) 0 [])) g).coh.txns = []) ∧
    (let q := cohReq tyRDOWN (here 0) 0 []
     deadG.forSelf q = true ∧ deadG.srcOk 47 q = true ∧ deadG.hasp = false ∧ deadG.deadSrc q = true ∧
       (after (.rdOwn 47 q) deadG).get F.COH_EVENTS_LATE_DROPS = 1) := by decide +kernel

/-- An open RD_OWN of node 5 on the first line: it awaits agent 8's answer, or only its COMPLETE. -/
def openT (kind : CohKind) (await : List Nat) (needComplete : Bool) : Txn :=
  { Txn.new (here 0) 0 kind 5 1 0 [] with opened := true, homeTag := 3, await := await, needComplete := needComplete, final := Dir.x 5 }
def snp (flags : Nat) (data : List Byte) : Req :=
  let q := cohReq tySNPRSP (here 0) flags data
  { q with hdr := { q.hdr with src := 8, tag := 3 } }
/-- Snoops follow the entry; a transaction opens where none is open; a COMPLETE, an SNP_RSP with the line, and both timers (1 ms and 1 ms), end it
(R146, R147, R150, R151). -/
theorem witness_CoherenceTransactions_open :
    (Dir.x 8).owner = some 8 ∧ (Dir.s1 8).owner = none ∧ (cohG Dir.u []).recorded (Dir.s1 8) = [8] ∧
    (let g := cohG (Dir.x 8) [Txn.new (here 0) 0 .rdOwn 5 1 0 []]
     g.hasp = false ∧ g.openOn (here 0) = none ∧ ((after (.transactionOpen (here 0) true) g).openOn (here 0)).map (fun t => t.await) = some [8] ∧
       after (.transactionOpen (here 128) true) g = g) ∧
    (let g := cohG (Dir.x 8) [openT .rdOwn [] true]
     g.openOn (here 0) = some (openT .rdOwn [] true) ∧ after (.transactionOpen (here 0) true) g = g ∧
       (after (.complete 47 (cohReq tyCOMPLETE (here 0) 0 [])) g).coh.txns = [] ∧
       (after (.complete 47 (cohReq tyCOMPLETE (here 0) 0 [])) g).dir (here 0) = Dir.x 5 ∧
       (after (.complete 47 (cohReq tyCOMPLETE (here 128) 0 [])) g).get F.COH_EVENTS_LATE_DROPS = 1 ∧
       (let lim := 1000 * max 10 (g.get F.COH_TIMERS_COMPLETE_US)
        (after (.completeTimeout (here 0)) (g.set F.TICK_TIME_TIME_NS lim)).coh.txns = [] ∧
          (after (.completeTimeout (here 0)) (g.set F.TICK_TIME_TIME_NS (lim - 1))).coh.txns = g.coh.txns)) ∧
    (let g := cohG (Dir.x 8) [openT .homeRead [8] false]
     ((openT .homeRead [8] false).await.contains 8) = true ∧
       memGet (after (.snpRsp 47 (snp 7 (List.replicate 128 6))) g).mem (here 127) = 6 ∧
       (after (.snpRsp 47 { snp 2 [] with hdr := { (snp 2 []).hdr with tag := 4 } }) g).get F.COH_EVENTS_LATE_DROPS = 1 ∧
       (let lim := 1000 * max 10 (g.get F.COH_TIMERS_SNOOP_US)
        (after (.snoopTimeout (here 0) 8) (g.set F.TICK_TIME_TIME_NS lim)).coh.dead = [8] ∧
          (after (.snoopTimeout (here 0) 8) (g.set F.TICK_TIME_TIME_NS (lim - 1))).coh.dead = [])) := by decide +kernel

/-- The home of COMPLETE and SNP_RSP: checks 1 to 3 pass, the line is homed here, the agent is registered (R147). -/
theorem witness_CoherenceTransactions_closing :
    (cohG (Dir.x 8) [openT .rdOwn [] true]).closing 47 (cohReq tyCOMPLETE (here 0) 0 []) (cohG (Dir.x 8) [openT .rdOwn [] true]) ∧
    (cohG (Dir.x 8) [openT .homeRead [8] false]).closing 47 (snp 7 (List.replicate 128 6)) (cohG (Dir.x 8) [openT .homeRead [8] false]) := by
  refine ⟨⟨.outside, cohG (Dir.x 8) [openT .rdOwn [] true], ?_, ?_, ?_, ?_, ?_, ?_, ?_, ?_, ?_, ?_⟩,
    ⟨.outside, cohG (Dir.x 8) [openT .homeRead [8] false], ?_, ?_, ?_, ?_, ?_, ?_, ?_, ?_, ?_, ?_⟩⟩
  all_goals first | decide +kernel | skip
  · intro n p h
    have e : (match (cohG (Dir.x 8) [openT .rdOwn [] true]).resolve (((cohG (Dir.x 8) [openT .rdOwn [] true]).liveMap
      (cohReq tyCOMPLETE (here 0) 0 []).hdr.epoch).getD (cohG (Dir.x 8) [openT .rdOwn [] true]).map.cur) (cohReq tyCOMPLETE (here 0) 0 []).hdr.addr with
      | .send _ _ => true | _ => false) = false := by decide +kernel
    rw [h] at e; exact absurd e (by simp)
  · intro n p h
    have e : (match (cohG (Dir.x 8) [openT .homeRead [8] false]).resolve (((cohG (Dir.x 8) [openT .homeRead [8] false]).liveMap
      (snp 7 (List.replicate 128 6)).hdr.epoch).getD (cohG (Dir.x 8) [openT .homeRead [8] false]).map.cur) (snp 7 (List.replicate 128 6)).hdr.addr with
      | .send _ _ => true | _ => false) = false := by decide +kernel
    rw [h] at e; exact absurd e (by simp)

/-- Recall, a dead agent, its sweep, a look at an entry, and registration (R142, R152, R153). -/
theorem witness_CoherenceRegisters :
    let g := cohG (Dir.s1 5) []
    (∀ f ∈ [F.COH_RECALL_GO, F.COH_DEAD_GO, F.COH_PEEK_GO, F.COH_AGENT_DATA_REGISTERED], g.gate .pcieA (offOf f) = .pass ∧
      w1cOnly g .pcieA (offOf f) = false) ∧
    g.on F.COH_RECALL_STATUS_BUSY = false ∧
    (let r := after (.cohRecallGo (wr 0)) g
     r.on F.COH_RECALL_STATUS_BUSY = true ∧ r.get F.COH_RECALL_STATUS_LINES = 2 ∧ r.coh.recalling = some 0 ∧ r.coh.txns.length = 2 ∧
       r.coh.dir = g.coh.dir ∧ (after (.cohRecallGo (wr 0)) r).get F.COH_EVENTS_BUSY_REFUSALS = 1 ∧ r.heldLines 0 ≠ []) ∧
    (let e := { g with coh := { g.coh with dir := [], recalling := some 0 } }
     e.heldLines 0 = [] ∧ (after .recallDone e).on F.COH_RECALL_STATUS_DONE = true ∧ (after .recallDone e).coh.recalling = none ∧ after .recallDone g = g) ∧
    (let d := after (.cohDeadGo (wr 8)) g
     d.coh.agents = [5] ∧ d.coh.dead = [8] ∧ d.coh.sweep = some 8 ∧ d.get F.COH_DEAD_STATUS_AUTO = 0 ∧ d.on F.COH_DEAD_STATUS_SWEEPING = true) ∧
    (let p := after (.cohPeekGo (wr (at_ F.COH_PEEK_LINE (2 ^ 19 - 1)))) g
     p.get (F.COH_PEEK_DATA_WORD 0) = 2 ∧ p.get (F.COH_PEEK_DATA_WORD 1) = 8 + 2 ^ 14 ∧ p.coh = g.coh) ∧
    (let a := after (.cohAgentDataWrite (wr (2 ^ 63 + 1))) (g.set F.COH_AGENT_INDEX_WORD 255)
     a.coh.agents = [5, 8, 64 * 255, 64 * 255 + 63]) := by decide +kernel

theorem witness_CoherenceRegisters_sweep :
    let s := { cohG (Dir.x 5) [] with coh := { (cohG (Dir.x 5) []).coh with agents := [8], dead := [5], sweep := some 5, txns := [] } }
    s.hasp = false ∧ s.coh.sweep = some 5 ∧ s.coh.sweepWait = [] ∧ serv.coh.sweep = none ∧ after .deadSweepEnd serv = serv := by decide +kernel

/-! ## Reduce streams, engines, expander tables -/

/-- Bytes laid out: offset, width, value; zeros elsewhere. -/
def lay (n : Nat) (l : List (Nat × Nat × Nat)) : List Byte :=
  (List.range n).map (fun i => match l.find? (fun e => decide (e.1 ≤ i ∧ i < e.1 + e.2.1)) with
    | some e => BitVec.ofNat 8 (e.2.2 / 256 ^ (i - e.1))
    | none => 0)
/-- A command of Keyway 0 at submission index 0: its body, ready. -/
def cmdOf (op : Nat) (body : List Byte) : Cmd :=
  ⟨0, none, lay 32 [(0, 1, op), (4, 2, 32 + body.length)] ++ body, .ready, false, 0, 0, [], [], false, 0, [], 0, 0, [], [], false, none⟩
/-- A Gikan with sound memory whose Keyway 0 has one command. -/
def kwG (g : Gikan) (c : Cmd) : Gikan := { g with sub := { g.sub with kws := [(0, ⟨1, [], [c]⟩)] } }
def cmd0 (g : Gikan) : Option CmdState := ((g.kway 0).cmds[0]?).map (fun c => c.st)

/-- A stream of 32 INT32 elements a chunk, two contributors, results at offset 4,096, rounds from the last number on. -/
def setupBody (stream slots : Nat) : List Byte :=
  lay 128 [(0, 2, 1), (2, 2, stream), (4, 1, 1), (6, 1, 1), (7, 1, 12), (8, 1, 12), (9, 1, 12), (12, 2, 32), (14, 2, 2), (16, 4, 2 ^ 32 - 1), (20, 2, 10),
    (24, 1, 4), (32, 4, slots), (36, 4, 1), (40, 8, here 4096), (48, 8, here 0)]
def action (a stream : Nat) : List Byte := lay 128 [(0, 2, 1), (2, 2, stream), (4, 1, a), (120, 8, if a = 3 then 99 else 0)]
def stream1 (relay : Bool) (rounds : List Round) : Stream := ⟨{ descrOf (setupBody 1023 4) with relay := relay }, 0, 0, rounds, [], false, none⟩
def redG (g : Gikan) (s : Stream) : Gikan := { g with red := { g.red with streams := [(1023, s)] } }
/-- A create at the last stream number, one past it, one already made, one too big for the store; a destroy; a rekey of a stream that is a relay
and of one that is not (R155, R156). -/
theorem witness_ReduceSetup :
    let c := cmdOf opSETUP (setupBody 1023 4)
    let g := kwG (memG 0) c
    let k : CmdRef := ⟨0, 0⟩
    g.cmdReady k opSETUP = some c ∧ setupAction c.body = 1 ∧ g.setupUnsup c.body = false ∧ g.setupAbsent 0 (descrOf c.body) = false ∧
    g.setupRange c.body = false ∧ g.setupRange (setupBody 1024 4) = true ∧ g.setupCheck 0 c.body = stOK ∧
    ((after (.reduceSetupCreate k) g).red.streams.get? 1023).map (fun s => s.d.result) = some (here 4096) ∧
    (redG g (stream1 false [])).setupCheck 0 c.body = stBUSY ∧ g.setupCheck 0 (setupBody 1022 524288) = stOK ∧
    (redG g (stream1 false [])).setupCheck 0 (setupBody 1022 524288) = stBUSY ∧
    (let d := cmdOf opSETUP (action 2 1023)
     (redG (kwG (memG 0) d) (stream1 false [])).setupCheck 0 d.body = stOK ∧
       (after (.reduceSetupDestroy k) (redG (kwG (memG 0) d) (stream1 false []))).red.streams = [] ∧ (kwG (memG 0) d).setupCheck 0 d.body = stNOTPRES) ∧
    (let r := cmdOf opSETUP (action 3 1023)
     setupAction r.body = 3 ∧ field r.body 0 2 = 1 ∧ setupRestBad r.body = false ∧
       ((after (.reduceSetupRekey k) (redG (kwG (memG 0) r) (stream1 true []))).red.streams.get? 1023).map (fun s => s.d.parentWard) = some 99 ∧
       (redG (kwG (memG 0) r) (stream1 false [])).setupCheck 0 r.body = stUNSUP) := by decide +kernel

/-- A round of one chunk with one contribution added, open or ended; another of the second contributor is added on its lane, the 64th of die 0. -/
def chunk1 (st : ChunkSt) (bits : List Nat) (adding : List (List Contrib)) : Chunk := ⟨st, bits, [], adding, List.replicate 32 5, false, [], 0, 0⟩
def round1 (st : RoundSt) (c : Chunk) : Round := ⟨2 ^ 32 - 1, 0, 32, 95, st, [(0, c)], [(0, 96)], [], false, 0, 0, false, false, 0, false, []⟩
def laneG (w : Work) (c : Chunk) : Gikan :=
  let g := redG (memG 0) (stream1 false [round1 .open c])
  { g with eng := { g.eng with units := [(unitKey ⟨.red, 63⟩, ⟨[], [⟨⟨64, w, 0, none⟩, 0⟩], 64, none⟩)] } }
theorem witness_LaneItemEnds :
    let n := 2 ^ 32 - 1
    let c : Contrib := ⟨0, 1, (List.range 32).flatMap (fun _ => leBytes 4 7)⟩
    let g := laneG (.add 1023 n 0) (chunk1 .open [0] [[c]])
    ((g.runHead ⟨.red, 63⟩).map (fun i => i.item.work)) = some (.add 1023 n 0) ∧ g.hasp = false ∧
    (((after (.addItemEnd 63) g).chunkAt 1023 n 0).map (fun x => x.2.2.acc)) = some (List.replicate 32 12) ∧
    after (.outputItemEnd 63) g = g ∧ after (.addItemEnd 63) (g.set F.MGT_STATUS_PHASE 7) = g.set F.MGT_STATUS_PHASE 7 ∧
    (let o := laneG (.output 1023 n 0) (chunk1 .output [0, 1] [])
     ((o.runHead ⟨.red, 63⟩).map (fun i => i.item.work)) = some (.output 1023 n 0) ∧
       ((o.chunkAt 1023 n 0).map (fun x => x.2.2.poisoned)) = some false ∧ (stream1 false []).d.writeResult = false ∧ (stream1 false []).d.downs = [] ∧
       (((after (.outputItemEnd 63) o).chunkAt 1023 n 0).map (fun x => x.2.2.st)) = some .ended) ∧
    (let d := (stream1 false []).d
     d.accFmt = 12 ∧ combine { d with op := 2 } (2 ^ 31) 1 = 1 ∧ combine { d with op := 3 } (2 ^ 31) 1 = 2 ^ 31 ∧
       combine { d with op := 1 } (2 ^ 32 - 1) 1 = 0 ∧ combine { d with op := 1, accFmt := 1 } 0x3F800000 0x3F800000 = 0x40000000) := by decide +kernel

theorem witness_LaneItemEnds_rest :
    ((laneG (.update 1023 0 0) (chunk1 .update [] [])).runHead ⟨.red, 63⟩).map (fun i => i.item.work) = some (.update 1023 0 0) ∧
    ((laneG (.relayDown 1023 0 0) (chunk1 .sent [] [])).runHead ⟨.red, 63⟩).map (fun i => i.item.work) = some (.relayDown 1023 0 0) ∧
    ((after (.updateItemEnd 63) (laneG (.update 1023 0 0) (chunk1 .update [] []))).runHead ⟨.red, 63⟩) = none ∧
    ((after (.relayDownEnd 63) (laneG (.relayDown 1023 0 0) (chunk1 .sent [] []))).runHead ⟨.red, 63⟩) = none := by decide +kernel

/-- A CONTRIB of the second contributor to the open round, again by the first, to a committed and an aborted one, to a round long past, and to no
stream; the deadline at tick 105, and RED_ABORT (R163, R164, R171). -/
def con (contributor round : Nat) : Req :=
  nReq 5 128 (leBytes 2 1023 ++ leBytes 2 contributor ++ leBytes 4 round ++ leBytes 4 0 ++ zeros 4) ((List.range 32).flatMap (fun _ => leBytes 4 7))
def conReq (contributor round : Nat) : Req := { con contributor round with hdr := { (con contributor round).hdr with subop := 12, ward := 0xABC } }
def known? : RoundKind → Option Round
  | .known r => some r
  | _ => none
def conG (st : RoundSt) : Gikan := redG (memG 0) (stream1 false [round1 st (chunk1 .open [0] [])])
theorem witness_ContributionsAndAborts :
    let n := 2 ^ 32 - 1
    (go? ((conG .open).receive 47 (conReq 1 n) tyCONTRIB false)).isSome = true ∧ (conG .open).liveStream 1023 = some (stream1 false [round1 .open (chunk1 .open [0] [])]) ∧
    ((conG .open).map.cur.extentAt ((conG .open).realAddr (here 4096))) = some (0, extAt 0) ∧ (conG .open).match3 (conReq 1 n) 0 (some 0xABC) = 0 ∧
    contribLong (stream1 false []).d (conReq 1 n) 32 false = false ∧ ((conG .open).check10 (conReq 1 n) (extAt 0)).1 = true ∧
    (stream1 false [round1 .open (chunk1 .open [0] [])]).noSlot (some (round1 .open (chunk1 .open [0] []))) 0 = false ∧
    (conG .open).laneLoad 63 = 0 ∧ (conG .open).laneOf 1023 0 = 63 ∧
    (((after (.contrib 47 (conReq 1 n)) (conG .open)).chunkAt 1023 n 0).map (fun x => x.2.2.bits)) = some [0, 1] ∧
    known? ((stream1 false [round1 .open (chunk1 .open [0] [])]).kindOf n) = some (round1 .open (chunk1 .open [0] [])) ∧
    known? ((stream1 false [round1 .open (chunk1 .open [0] [])]).kindOf (n - 1)) = none ∧
    known? ((stream1 false [round1 .open (chunk1 .open [0] [])]).kindOf (n - 256)) = none ∧
    (go? ((conG .committed).receive 47 (conReq 1 n) tyCONTRIB false)).isSome = true ∧ (go? ((conG .aborted).receive 47 (conReq 1 n) tyCONTRIB false)).isSome = true ∧
    (memG 0).liveStream 1023 = none ∧
    (conG .open).running = true ∧ missingOf (stream1 false []).d (round1 .open (chunk1 .open [0] [])) ≠ [] ∧
    after (.roundDeadline 1023 n) ((conG .open).set F.TICK_COUNT_TICK 104) = (conG .open).set F.TICK_COUNT_TICK 104 ∧
    (after (.roundDeadline 1023 n) ((conG .open).set F.TICK_COUNT_TICK 105)).get F.RED_ABORT_CAUSE_DEADLINE = 1 ∧
    (conG .open).gate .pcieA (offOf F.RED_ABORT_GO) = .pass ∧ w1cOnly (conG .open) .pcieA (offOf F.RED_ABORT_GO) = false ∧
    (let w := wr (at_ F.RED_ABORT_STREAM 1023 + at_ F.RED_ABORT_ROUND n)
     (after (.redAbortGo w) (conG .open)).get F.RED_ABORT_CAUSE_SOFTWARE = 1 ∧ (after (.redAbortGo w) (conG .committed)).get F.RED_ABORT_CAUSE_IGNORED = 1 ∧
       (after (.redAbortGo w) (memG 0)).get F.RED_ABORT_CAUSE_IGNORED = 1) := by decide +kernel

/-- A round that is not open yet: its table entry has 32 elements; under SPLIT it is refused. A committed round, an aborted one, a wrong SUBOP, and a
relay's result from its parent (R163, R164, R169). -/
def freshG : Gikan :=
  redG { memG 0 with mem := [(here 8, 32)] } { stream1 false [] with next := 2 ^ 32 - 1 }
def relayG (st : RoundSt) : Gikan := redG (memG 0) (stream1 true [round1 st (chunk1 .sent [0] [])])
def resReq : Req := { conReq 0 (2 ^ 32 - 1) with hdr := { (conReq 0 (2 ^ 32 - 1)).hdr with subop := 0x40, src := 0, ward := 0xABC } }
theorem witness_ContributionsAndAborts_rounds :
    let n := 2 ^ 32 - 1
    let q := conReq 1 n
    (freshG.readEntries (stream1 false []).d 1 n).2 = some [(0, 32)] ∧ freshG.on F.TICK_STATUS_SPLIT = false ∧
    (go? (freshG.receive 47 q tyCONTRIB false)).isSome = true ∧ contribLong (stream1 false []).d q 32 false = false ∧
    ({ stream1 false [] with next := n } : Stream).noRoom [(0, 32)] = false ∧ ({ stream1 false [] with next := n } : Stream).noSlot none 0 = false ∧
    (((after (.contrib 47 q) freshG).chunkAt 1023 n 0).map (fun x => (x.2.1.st, x.2.2.bits))) = some (.open, [1]) ∧
    (after (.contrib 47 q) (freshG.set F.TICK_STATUS_SPLIT 1)).get F.RED_EVENTS2_SPLIT_REFUSALS = 1 ∧
    (known? ((stream1 false [round1 .committed (chunk1 .ended [0] [])]).kindOf n)).map (fun r => r.st) = some .committed ∧
    (known? ((stream1 false [round1 .aborted (chunk1 .ended [0] [])]).kindOf n)).map (fun r => r.st) = some .aborted ∧
    (stream1 true []).d.relay = true ∧ (stream1 true []).d.parentNode = 0 ∧
    (let d := (chunk1 .output [0, 1] [])
     let g := redG (memG 0) (stream1 true [round1 .open { d with poisoned := true }])
     ((after (.outputItemEnd 63) { g with eng := (laneG (.output 1023 n 0) d).eng }).red.streams.get? 1023).map (fun s => s.rounds.map (fun r => (r.st, r.cause))) =
       some [(.aborted, causePoison)]) := by decide +kernel

/-- A GATHER_REQ of two rows of 32 B (indices 1 and 0), a FILTER_REQ of two records, a SCORE_REQ of one query on two keys of 32 bytes; the frame's
budget is that of a tick (R46, R51, R182 to R191). -/
def engG (flags : Nat) : Gikan := { memG flags with eng := ⟨[], 12000, [1000, 9000, 9000, 9000, 9000, 9000], [1000, 9000, 9000, 9000, 9000, 9000], false⟩ }
def gReq : Req := ⟨hd 6 (here 0) 8, leBytes 2 32 ++ leBytes 2 2 ++ leBytes 1 4 ++ zeros 11, leBytes 4 1 ++ leBytes 4 0⟩
def fReq : Req := ⟨{ hd 7 (here 0) 16 with subop := 0 }, leBytes 2 32 ++ leBytes 4 2 ++ leBytes 2 0 ++ leBytes 1 1 ++ zeros 7,
  leBytes 2 0 ++ leBytes 1 1 ++ leBytes 1 1 ++ leBytes 4 0 ++ leBytes 8 9⟩
def sReq : Req := ⟨{ hd 8 (here 0) 32 with subop := 4 }, leBytes 4 2 ++ leBytes 2 32 ++ leBytes 2 1 ++ leBytes 2 1 ++ zeros 6, List.replicate 32 0x38⟩
theorem witness_EngineRequests :
    (go? ((engG 0).receive 47 gReq tyGATHER (gatherReqBad gReq || (engG 0).rawBad gReq))).isSome = true ∧ gatherRespBytes gReq = 65 ∧ gatherReqLong gReq = false ∧
    (engG 0).gatherFits ⟨0, extAt 0⟩ (reqGather gReq (here 0) none) = true ∧ (engG 0).match3 gReq 0 (some 0xABC) = 0 ∧
    (engG 0).gatherFits ⟨0, extAt 0⟩ (reqGather { gReq with payload := leBytes 4 1 ++ leBytes 4 (2 ^ 21) } (here 0) none) = false ∧
    gatherReqLong { gReq with hdr := { gReq.hdr with length := 4097 } } = true ∧
    (engG 0).dealtCost .gth (List.replicate 2 (reqGather gReq (here 0) none).cost) ≤ 16 * (engG 0).classB .gth ∧
    (after (.gatherReq 47 gReq) (engG 0)).gfs.jobs.map (fun j => (j.left, j.idx)) = [(2, [some 1, some 0])] ∧
    (go? ((engG 0).receive 47 fReq tyFILTER (filterReqBad fReq))).isSome = true ∧ filterReqLong fReq = false ∧ filterRespLong fReq = false ∧
    (extAt (2 ^ 24)).comp ≠ 0 ∧ (extAt 0).covers (here 0) 64 = true ∧
    ((reqFilter fReq (here 0)).costs 2).foldl (fun n c => n + c) 0 ≤ 16 * (engG 0).classB .flt ∧
    (after (.filterReq 47 fReq) (engG 0)).gfs.jobs.map (fun j => (j.left, j.engine)) = [(1, some 0)] ∧
    (after (.filterReq 47 fReq) (engG (2 ^ 24))).get F.GFS_REFUSALS_FORMAT = 1 ∧
    (go? ((engG 0).receive 47 sReq tySCORE (scoreReqBad sReq))).isSome = true ∧ scoreReqLong sReq = false ∧
    (engG 0).keysFit ⟨0, extAt 0⟩ (reqScore sReq (here 0) none) = true ∧ (engG 0).scoreCost (reqScore sReq (here 0) none) ≤ 16 * (engG 0).classB .mtx ∧
    (engG 0).mergeMost (reqScore sReq (here 0) none) ≤ 16 * (engG 0).classB .flt ∧ 1 ≤ (engG 0).selectLeast ∧
    (after (.scoreReq 47 sReq) (engG 0)).gfs.jobs.length = 1 := by decide +kernel

/-- Conversion to INT32 rounds once, to nearest even: 0.75, 2.75, 2.5, -0.75 (R182). -/
theorem test_gather_int32 :
    [(3, false, -2), (11, false, -2), (5, false, -1), (3, true, -2)].map (fun (x : Nat × Bool × Int) => gConvert 0 4 0 (.fin x.2.1 x.1 x.2.2)) =
      [leBytes 4 1, leBytes 4 3, leBytes 4 2, leBytes 4 (2 ^ 32 - 1)] := by decide +kernel

/-- A GATHER of two rows, a FILTER of two records with one term, a SCORE of one query on two keys, as commands; a GATHER of a bad version and one
whose output has no room (R192 to R196). -/
def gJob (version out : Nat) : Cmd := cmdOf opGATHER (lay 64 [(0, 2, version), (3, 1, 4), (4, 2, 32), (6, 2, 1), (8, 4, 2), (16, 8, here 0), (24, 8, here 32), (32, 8, out)])
def fJob (k room : Nat) : Cmd := cmdOf opFILTER (lay 80 [(0, 2, 1), (3, 1, if k = 0 then 1 else 2), (4, 2, 32), (8, 4, 2), (12, 4, k), (16, 8, here 0), (24, 8, here 128), (32, 8, room),
  (66, 1, 1), (67, 1, 1), (72, 8, 9)] ++ if k = 0 then [] else lay 16 [(2, 1, 1), (3, 1, 0x20)])
def sJob : Cmd := cmdOf opSCORE (lay 64 [(0, 2, 1), (2, 1, 4), (4, 2, 32), (6, 2, 1), (8, 4, 2), (12, 4, 1), (16, 8, here 0), (24, 8, here 32), (32, 8, here 128)])
theorem witness_EngineJobs :
    let k : CmdRef := ⟨0, 0⟩
    (kwG (engG 0) (gJob 1 (here 128))).cmdReady k opGATHER = some (gJob 1 (here 128)) ∧ (kwG (engG 0) (gJob 1 (here 128))).jobCheck 0 (gJob 1 (here 128)) = stOK ∧
    (kwG (engG 0) (gJob 0 (here 128))).jobCheck 0 (gJob 0 (here 128)) = stUNSUP ∧
    (kwG (engG 0) (gJob 1 (here (2 ^ 26 - 32)))).jobCheck 0 (gJob 1 (here (2 ^ 26 - 32))) = stLENGTH ∧
    (kwG (engG 0) (fJob 0 4096)).cmdReady k opFILTER = some (fJob 0 4096) ∧ (kwG (engG 0) (fJob 0 4096)).jobCheck 0 (fJob 0 4096) = stOK ∧
    (fJob 0 4096).filterP.k = 0 ∧
    (kwG (engG 0) (fJob 0 15)).jobCheck 0 (fJob 0 15) = stLENGTH ∧
    (kwG (engG 0) sJob).cmdReady k opSCORE = some sJob ∧ (kwG (engG 0) sJob).jobCheck 0 sJob = stOK ∧ 1 ≤ (kwG (engG 0) sJob).selectLeast ∧
    (let m : EngJob := { EngJob.start (.cmd 0 0) 0 0 1 none with merges := [(31, 400)] }
     let g := { kwG (engG 0) sJob with gfs := ⟨[m]⟩ }
     g.jobOf (.cmd 0 0) = some m ∧ ((after (.mergeStart k) g).jobOf (.cmd 0 0)).map (fun j => j.left) = some 1 ∧
       after (.mergeStart k) { g with gfs := ⟨[{ m with left := 1 }]⟩ } = { g with gfs := ⟨[{ m with left := 1 }]⟩ }) := by decide +kernel

/-- The last table's second slot: a load that runs in it, one that waits, a RETIRING slot, a slot in use (R217 to R221). -/
def slot1 (retiring : Bool) : TabSlot := ⟨retiring, 1, 0, 0, 3, []⟩
def tabG (slots : Tbl TabSlot) (slot : Option Nat) : Gikan := { memG 0 with cmp := ⟨slots, some ⟨31, 4, 0, 1, 0, [], slot⟩, none, 0, []⟩ }
theorem witness_ExpanderTables :
    let full := tabG [(62, slot1 false), (63, slot1 true)] none
    (memG 0).gate .pcieA (offOf F.CMP_TABLE_LOAD_GO) = .pass ∧ w1cOnly (memG 0) .pcieA (offOf F.CMP_TABLE_LOAD_GO) = false ∧
    (memG 0).on F.CMP_TABLE_STATUS_BUSY = false ∧ (memG 0).on F.CMP_TABLE_STATUS_PENDING = false ∧ (memG 0).scrubbing 0 = false ∧
    (after (.cmpTableLoadGo (wr 0)) ((memG 0).set F.CMP_TABLE_STATUS_BUSY 1)).get F.CMP_TABLE_STATUS_CAUSE = 7 ∧
    (after (.cmpTableLoadGo (wr 0)) (memG 0)).get F.CMP_TABLE_STATUS_CAUSE = 3 ∧ (memG 0).stalls ((memG 0).tableLoad 0 0 0 0) = false ∧
    (let low := { (memG (2 ^ 28)).set F.CMP_TABLE_SRC_ADDR (here 0) with
       tier := { serv.tier with pages := [(0, ⟨.lower, .host .a 3, 9, 0, false, .none, none⟩)] } }
     low.stalls (low.tableLoad (here 0) 0 0 0) = true ∧ (after (.cmpTableLoadGo (wr 0)) low).on F.CMP_TABLE_STATUS_BUSY = true ∧
       (after (.cmpTableLoadGo (wr 0)) low).cmp.wait = some (here 0, 0, 0, 0)) ∧
    (tabG [(62, slot1 false)] none).emptySlot 31 = some 1 ∧ full.emptySlot 31 = none ∧ full.hasp = false ∧
    ((after .tableSlotTake (tabG [(62, slot1 false)] none)).cmp.load.map (fun l => l.slot)) = some (some 1) ∧ after .tableSlotTake full = full ∧
    after .tableLoadEnd full = full ∧
    (after .tableLoadEnd (tabG [(62, slot1 false)] (some 1))).cmp.slots = [(62, slot1 true), (63, ⟨false, 1, 0, 0, 4, []⟩)] ∧
    full.slotRefs 63 = 0 ∧ (after (.slotEmpty 31 1) full).cmp.slots = [(62, slot1 false)] ∧ after (.slotEmpty 31 0) full = full ∧
    (after (.tableEccError 31 1) full).cmp.slots = [(62, slot1 false)] ∧ (after (.tableEccError 31 1) full).bitOf (F.FLT_WORDS_GROUPS 1) 51 = true := by decide +kernel

/-! ## Pin cores' items and images; Keyways and commands -/

/-- Entry point 4,095 of compartment 0 in slot 63; the last core with an item of it queued. -/
def ep : EntryPt := ⟨63, 0, 32767, 1000, false, true, true, true⟩
def item1 : PinItem := ⟨1, 4095, ep, 0, .run 0 0 0 1 0 0 []⟩
def imgs (unloading : Bool) : Tbl KImage := [(63, ⟨0, 32760, 8, 1, unloading⟩)]
def pinG (p : PinCore) (unloading : Bool) : Gikan :=
  { memG 0 with pin := ⟨[(32767, 77)], imgs unloading, [(4095, ep)], none, none, [(2047, p)], [], 2⟩ }
def thread1 (frame : Nat) : Thread := ⟨item1, [], [], [], 32767, 0, 0, 0, [], 0, frame, [], none, .none⟩
def eReq (n len : Nat) : Req := ⟨hd 4 (here 4096) len, leBytes 2 n ++ leBytes 1 40 ++ zeros 5, List.replicate len 1⟩
def rJob (count : Nat) : Cmd := cmdOf opRUN (lay 64 [(0, 2, 1), (2, 2, 4095), (8, 4, count), (12, 2, 2047)])
/-- A switch of compartment, a kill after the last frame and at it, entry-point TRIGGERs, and RUN (R44, R231, R237, R252). -/
theorem witness_KernelItems :
    let queued := pinG { PinCore.idle with cmpt := some 3, queue := [item1], scratch := [(0, 1)] } false
    (queued.pinCore 2047).idle? = true ∧ queued.hasp = false ∧ ((after (.compartmentSwitch 2047) queued).pinCore 2047).cmpt = some 0 ∧
    ((after (.compartmentSwitch 2047) queued).pinCore 2047).scratch = [] ∧ (after (.compartmentSwitch 2047) queued).get F.PIN_QUEUE_CMPT_SWITCHES = 1 ∧
    (let same := pinG { PinCore.idle with cmpt := some 0, queue := [item1] } false
     after (.compartmentSwitch 2047) same = same) ∧
    (let run := fun f => (pinG { PinCore.idle with cmpt := some 0, threads := [(7, thread1 f)] } false).set F.PIN_LIMITS_KILL_FRAMES 4
     (run 95).thread 2047 7 = some (thread1 95) ∧ (run 95).running = true ∧ (run 95).get F.PIN_LIMITS_KILL_FRAMES = 4 ∧
       (after (.kill 2047 7) (run 95)).get F.PIN_EXC_KILLS = 1 ∧ after (.kill 2047 7) (run 96) = run 96) ∧
    (let g := pinG PinCore.idle false
     (go? (g.receive 47 (eReq 4095 256) tyTRIGGER false)).isSome = true ∧ g.pinEntry 4095 0 EntryPt.trigger = some ep ∧ g.pinEntry 4094 0 EntryPt.trigger = none ∧
       trigEntry (eReq 4095 256) = 4095 ∧ trigResultMax (eReq 4095 256) = 40 ∧ g.match3 (eReq 4095 256) 0 (some 0xABC) = 0 ∧
       (g.check10 (eReq 4095 256) (extAt 0)).1 = true ∧ g.actingCore (sliverOf (here 4096)) = some 1 ∧ g.coreFull 1 = false ∧
       ((after (.triggerEntry 47 (eReq 4095 256)) g).pinCore 1).queue.length = 1 ∧
       ((after (.triggerEntry 47 (eReq 4095 257)) g).pinCore 1).queue.length = 0) ∧
    (let full := pinG { PinCore.idle with cmpt := some 0, queue := List.replicate 64 item1 } false
     full.coreFull 2047 = true) ∧
    (let k : CmdRef := ⟨0, 0⟩
     let g := kwG (pinG PinCore.idle false) (rJob 2)
     g.cmdReady k opRUN = some (rJob 2) ∧ g.runCheck 0 (rJob 2) = stOK ∧ g.pinEntry 4095 0 EntryPt.run = some ep ∧
       ((after (.run k) g).pinCore 2047).queue.length = 1 ∧ ((after (.run k) g).pinCore 0).queue.length = 1 ∧ g.runCheck 0 (rJob 0) = stLENGTH) := by decide +kernel

/-- A tiered extent whose first page is in host memory. -/
def lowG : Gikan :=
  { memG (2 ^ 28) with tier := { serv.tier with pages := [(0, ⟨.lower, .host .a 3, 9, 0, false, .none, none⟩)] } }
/-- Loads and unloads of slot 63 at the end of the store (R248 to R250). -/
theorem witness_KernelImages :
    let g := pinG PinCore.idle false
    g.gate .pcieA (offOf F.PIN_IMAGE_LOAD_GO) = .pass ∧ w1cOnly g .pcieA (offOf F.PIN_IMAGE_LOAD_GO) = false ∧
    (after (.pinImageLoadGo (wr 0)) (g.set F.PIN_IMAGE_STATUS_BUSY 1)).get F.PIN_IMAGE_STATUS_CAUSE = 8 ∧
    g.on F.PIN_IMAGE_STATUS_BUSY = false ∧ wrOne (trig (wr 0) F.PIN_IMAGE_LOAD_GO) F.PIN_IMAGE_LOAD_UNLOAD = false ∧ g.scrubbing 0 = false ∧
    (after (.pinImageLoadGo (wr 0)) g).get F.PIN_IMAGE_STATUS_CAUSE = 3 ∧ g.stalls (g.imageLoad (g.get F.PIN_IMAGE_SRC_ADDR) 0 0 0) = false ∧
    (let low := lowG.set F.PIN_IMAGE_SRC_ADDR (here 0)
     low.stalls (low.imageLoad (here 0) 0 0 0) = true ∧ (after (.pinImageLoadGo (wr 0)) low).on F.PIN_IMAGE_STATUS_BUSY = true ∧
       (after (.pinImageLoadGo (wr 0)) low).pin.wait = some (here 0, 0, 0, 0)) ∧
    (let u := after (.pinImageUnload (wr (at_ F.PIN_IMAGE_LOAD_SLOT 63))) g
     (u.pin.images.get? 63).map (fun i => i.unloading) = some true ∧ u.pin.entries = [] ∧ u.on F.PIN_IMAGE_STATUS_UNLOADING = true ∧ u.pin.code = g.pin.code) ∧
    (let l : KLoad := ⟨62, 0, 0, [5, 0, 6], [(4094, { ep with slot := 62, pc := 2 })]⟩
     let t := after .imageLoadEnd { g with pin := { g.pin with load := some l } }
     (l.entries.map (fun e => e.1)).Nodup ∧ t.pin.code = [(0, 5), (2, 6), (32767, 77)] ∧ t.pin.entries.get? 4094 = some { ep with slot := 62, pc := 2 } ∧
       t.pin.images.get? 62 = some ⟨0, 0, 3, 1, false⟩ ∧ t.on F.PIN_IMAGE_STATUS_DONE = true ∧ t.pin.load = none) ∧
    (let u := pinG PinCore.idle true
     u.pin.images.find? (fun i => i.2.unloading && u.slotItems i.1 == 0) = some (63, ⟨0, 32760, 8, 1, true⟩) ∧
       (after .unloadEnd u).pin.images = [] ∧ (after .unloadEnd u).pin.code = [] ∧ (after .unloadEnd u).pin.entries = u.pin.entries ∧ after .unloadEnd g = g ∧
       after .unloadEnd (pinG { PinCore.idle with queue := [item1] } true) = pinG { PinCore.idle with queue := [item1] } true) := by decide +kernel

/-- Zone 7 of Keyway 15 with the first `n` of 32 bytes written: the last 8 make it whole; a length that is too short or no multiple of 8; a full
Keyway; a scrub; a zone held or left for 100 µs (R3, R253, R254). -/
def zoneG (n len : Nat) (held : Bool) (cmds : List Cmd) : Gikan :=
  let z : Zone := ⟨[(4, BitVec.ofNat 8 len)], (List.range n).map (fun i => (i, true)), if n < 8 then none else some len, 0, held⟩
  { memG 0 with sub := { serv.sub with kws := [(15, ⟨0, [(7, z)], cmds⟩)] } }
def fullKw : List Cmd := List.replicate 256 (cmdOf opFENCE (zeros 64))
theorem witness_LandingZones :
    let put := fun (o : Nat) (v : Word) => Instr.keywayWrite .pcieA (0xF7000 + o) 8 v
    let zone := fun (g : Gikan) => (g.kway 15).zones.get? 7
    0xF7000 / 0x10000 = 15 ∧ 0xF7000 % 0x10000 / 4096 = 7 ∧ (zoneG 0 0 false []).hasp = false ∧ 1 < (zoneG 0 0 false []).phase ∧
    (zoneG 0 0 false []).scrubbing 15 = false ∧
    (zone (after (put 0 (32 * 2 ^ 32)) (memG 0))).map (fun z => z.len) = some (some 32) ∧
    (zone (after (put 0 (24 * 2 ^ 32)) (memG 0))) = none ∧ (after (put 0 (33 * 2 ^ 32)) (memG 0)).get F.SUB_KW_EVENTS_BAD_LENGTH = 1 ∧
    (zone (after (put 8 1) (memG 0))).map (fun z => z.len) = some none ∧
    (zone (after (put 24 0) (zoneG 24 32 false []))) = none ∧ ((after (put 24 0) (zoneG 24 32 false [])).kway 15).next = 1 ∧
    (zone (after (put 24 0) (zoneG 24 32 false fullKw))).map (fun z => z.held) = some true ∧
    (after (put 24 0) (zoneG 32 32 true [])).get F.SUB_KW_EVENTS_OVERWRITES = 1 ∧
    after (.keywayWrite .pcieA 0xF8000 8 0) (memG 0) = memG 0 ∧ after (.keywayWrite .pcieA 0xF7FFC 8 0) (memG 0) = memG 0 ∧
    ((after (.heldZoneAccept 15 7) (zoneG 32 32 true [])).kway 15).next = 1 ∧
    after (.heldZoneAccept 15 7) (zoneG 32 32 true fullKw) = zoneG 32 32 true fullKw ∧
    max 10 ((zoneG 24 32 false []).get F.SUB_CTRL_ZONE_TIMEOUT_US) = 100 ∧
    (after (.zoneTimeout 15 7) { zoneG 24 32 false [] with now := 100000 }).get F.SUB_KW_EVENTS_ABANDONED = 1 ∧
    after (.zoneTimeout 15 7) { zoneG 24 32 false [] with now := 99999 } = { zoneG 24 32 false [] with now := 99999 } := by decide +kernel

/-- A MOVE and a FILL over three items and one byte, a PUBLISH, a SCHEDULE of one tile, a LEND and a RECLAIM of two pages, a FENCE; and each with a
field that refuses it (R199, R259 to R265). -/
def mvJob (n : Nat) : Cmd := cmdOf opMOVE (lay 64 [(0, 8, here 0), (8, 8, here 0x10FFFF), (16, 8, n), (24, 8, 0xABC), (32, 8, 0xABC)])
def fiJob (n : Nat) : Cmd := cmdOf opFILL (lay 64 [(0, 8, here 0x10FFFF), (8, 8, n), (24, 8, 0xABC)])
def puJob (n : Nat) : Cmd := cmdOf opPUBLISH (lay 32 [(0, 8, here 64), (8, 8, here 0), (16, 4, 6), (20, 2, n), (24, 8, 0xABC)])
def scJob (n : Nat) : Cmd := cmdOf opSCHEDULE (lay 16 [(0, 8, here 0), (8, 4, n)])
def leJob (act n : Nat) : Cmd := cmdOf opLEND (lay 32 [(0, 2, 5), (2, 1, act), (8, 8, here 0), (16, 4, n)])
def feJob (n : Nat) : Cmd := cmdOf opFENCE (lay 40 [(0, 1, n), (8, 2, if n = 0 then 0 else 5)])
theorem witness_CommandStarts :
    let k : CmdRef := ⟨0, 0⟩
    let at0 := fun c => kwG (memG 0) c
    (at0 (mvJob 131074)).cmdReady k opMOVE = some (mvJob 131074) ∧ (at0 (mvJob 131074)).moveCheck (mvJob 131074) = stOK ∧ (mvJob 131074).expands = false ∧
    (mvJob 131074).itemCount = 4 ∧ (mvJob 131074).itemSpan 3 = (131073, 1) ∧ (at0 (mvJob 0)).moveCheck (mvJob 0) = stLENGTH ∧
    cmd0 (after (.move k) (at0 (mvJob 131074))) = some .running ∧
    (at0 (fiJob 1)).cmdReady k opFILL = some (fiJob 1) ∧ fillCheck (fiJob 1) = stOK ∧ fillCheck (fiJob (2 ^ 40 + 1)) = stLENGTH ∧
    cmd0 (after (.fill k) (at0 (fiJob 1))) = some .running ∧
    (at0 (puJob 64)).cmdReady k opPUBLISH = some (puJob 64) ∧ (at0 (puJob 64)).pubCheck 0 (puJob 64) = stOK ∧
    (puJob 64).loc (here 64) = .fab (here 64) ∧ (at0 (puJob 4097)).pubCheck 0 (puJob 4097) = stLENGTH ∧
    (at0 (scJob 64)).cmdReady k opSCHEDULE = some (scJob 64) ∧ (at0 (scJob 64)).schedCheck 0 (scJob 64) = stOK ∧
    (at0 (scJob 64)).spanCode 0 (scJob 64) (here 0) 64 false = stOK ∧ (at0 (scJob 31)).schedCheck 0 (scJob 31) = stLENGTH ∧
    (∀ a ∈ [1, 2], (at0 (leJob a 2)).cmdReady k opLEND = some (leJob a 2) ∧ (leJob a 2).f 2 1 = a ∧ (at0 (leJob a 2)).lendCheck 0 (leJob a 2) = stOK) ∧
    (at0 (leJob 1 3)).lendCheck 0 (leJob 1 3) = stLENGTH ∧
    (∀ n ∈ [0, 1], (at0 (feJob n)).cmdReady k opFENCE = some (feJob n) ∧ fenceCheck (feJob n) = stOK) ∧ fenceCheck (feJob 17) = stLENGTH ∧
    (at0 (feJob 0)).earlierDone 0 0 = true ∧ (feJob 0).fenceNodes = [] ∧ (feJob 1).fenceNodes = [5] ∧
    ({ memG 0 with sub := { serv.sub with kws := [(0, ⟨1, [], [feJob 0, { feJob 0 with idx := 1 }]⟩)] } }).earlierDone 0 1 = false := by decide +kernel

/-- A command in each of its states; an invalidation (R255, R256, R267 to R277). -/
def stG (st : CmdState) : Gikan := kwG (memG 0) { feJob 0 with st := st }
def cqG (tail : Nat) (c : Cmd) : Gikan :=
  let r : Ring := ⟨1 + 32 + 6 * 256, 0x10000, 0, tail, false, []⟩
  { kwG (memG 0) c with sub := { (kwG (memG 0) c).sub with cqs := [(0, r)] } }
theorem witness_CommandLife :
    let k : CmdRef := ⟨0, 0⟩
    (stG .ready).hasp = false ∧ (stG .ready).cmd? 0 0 = some { feJob 0 with st := .ready } ∧ (stG .translating).cmd? 0 0 = some { feJob 0 with st := .translating } ∧
    after (.translationEnd k) (stG .ready) = stG .ready ∧ after (.pagesResident k) (stG .ready) = stG .ready ∧ after (.commandComplete k) (stG .ready) = stG .ready ∧
    (feJob 0).op ≠ opGATHER ∧ cmd0 (after (.translationEnd k) (stG .translating)) = some .ready ∧
    (let w := { feJob 0 with st := .faulted, whole := true, pinned := true }
     (kwG (memG 0) w).cmd? 0 0 = some w ∧ (kwG (memG 0) w).pinsHere w = true ∧ cmd0 (after (.pagesResident k) (kwG (memG 0) w)) = some .ready) ∧
    (let gt := { gJob 1 (here 128) with st := .translating }
     (kwG (memG 0) gt).cmd? 0 0 = some gt ∧ gt.op = opGATHER) ∧
    (let a := { feJob 0 with bytes := lay 32 [(0, 1, opFENCE), (1, 1, 1), (4, 2, 72)] ++ zeros 40 }
     a.after = true ∧ (kwG (memG 0) a).earlierDone 0 0 = true ∧ (((after (.afterRelease k) (kwG (memG 0) a)).kway 0).cmds.map (fun c => c.released)) = [true]) ∧
    (let d := { feJob 0 with st := .done }
     (stG .done).sub.waiting.contains (d.cq, 0, 0) = false ∧ ((after (.commandComplete k) (stG .done)).kway 0).cmds = [] ∧
       ((cqG 63 d).cq 0).used < ((cqG 63 d).cq 0).records ∧ ((cqG 64 d).cq 0).records ≤ ((cqG 64 d).cq 0).used ∧ ((cqG 63 d).cq 0).valid = true ∧
       ((after (.commandComplete k) (cqG 63 d)).cq 0).tail = 64 ∧ ((after (.commandComplete k) (cqG 63 d)).kway 0).cmds = [] ∧
       ((after (.commandComplete k) (cqG 64 d)).cq 0).tail = 64 ∧ (after (.commandComplete k) (cqG 64 d)).sub.waiting = [(0, 0, 0)]) ∧
    (cqG 63 (feJob 0)).gate .pcieA (offOf (F.SUB_Q_HEAD_HEAD 0)) = .pass ∧ w1cOnly (cqG 63 (feJob 0)) .pcieA (offOf (F.SUB_Q_HEAD_HEAD 0)) = false ∧
    (cqG 63 (feJob 0)).gate .pcieA (offOf (F.SUB_Q_HEAD_HEAD 1)) = .pass ∧ w1cOnly (cqG 63 (feJob 0)) .pcieA (offOf (F.SUB_Q_HEAD_HEAD 1)) = false ∧
    ((after (.subCqHeadWrite (wr 63)) (cqG 63 (feJob 0))).cq 0).head = 63 ∧
    ((after (.subMqHeadWrite (wr 7)) ((mqG 15).set (F.SUB_Q_INDEX_QUEUE 1) 4095)).mq 4095).head = 7 ∧
    (let x : XPage := ⟨0, 2 ^ 25, here 0, false, none⟩
     let v := { stG .translating with sub := { (stG .translating).sub with walks := [(5, x), (4095, x)] } }
     let i := after (.subXlateInvalGo (wr (at_ F.SUB_XLATE_INVAL_ASID 4095))) v
     v.gate .pcieA (offOf F.SUB_XLATE_INVAL_GO) = .pass ∧ w1cOnly v .pcieA (offOf F.SUB_XLATE_INVAL_GO) = false ∧ i.sub.walks = [(5, x)] ∧ i.sub.inval = some [(0, 0)] ∧
       i.on F.SUB_XLATE_INVAL_BUSY = true ∧ after .xlateInvalDone i = i ∧ v.sub.inval = none ∧ after .xlateInvalDone v = v ∧
       (let d := { stG .ready with sub := { (stG .ready).sub with inval := some [(0, 0)] } }
        (after .xlateInvalDone d).sub.inval = none ∧ (after .xlateInvalDone d).get F.SUB_XLATE_EVENTS_INVALS = 1)) := by decide +kernel

/-! ## Links and the switch core -/

/-- Port 31 in a state of R290, two lanes wide, since time 0, at time `now`. -/
def portG (state now : Nat) (l : PortLnk) : Gikan :=
  { puts serv [(F.LNK_STATUS_STATE 31, state), (F.LNK_STATUS_WIDTH 31, 2), (F.LNK_CTRL_ENABLE 31, 1), (F.LNK_FEC_ALARM_THRESH 31, 60000),
      (F.LNK_RETRY_RETRY_MAX 31, 2), (F.LNK_RETRY_REPLAY_NS 31, 1000), (F.LNK_RETRY_NAK_NS 31, 1000)] with lnk := [(31, l)], now := now }
def l0 : PortLnk := PortLnk.reset
def dflit (seq : Nat) (b0 : Byte) : Flit := { idle0 with kind := 1, seq := seq, slots := b0 :: zeros 239 }
/-- The same with its CRC. -/
def sealed0 (f : Flit) : Flit := { f with crc := flitCrc f }
def heldF : List (Flit × Bool) := [(dflit 4095 0, false), (dflit 0 0, false)]

/-- What FEC leaves of a flit on two lanes: whether a codeword ended on each, and the symbols corrected. -/
def fec2 (g : Gikan) (b0 b1 : Bool) (n0 n1 : Nat) : Gikan :=
  let one := fun (h : Gikan) (b : Bool) (i n : Nat) =>
    if !b then h else
    let l := h.link 31
    let k := 16 * i + n
    (h.setLink 31 { l with hist := l.hist.setD k 0 (min (2 ^ 48 - 1) (l.hist.getD k 0 + 1)) }).fecCount 31 i n
  one (one { g with draw := g.draw + 1 } b0 0 n0) b1 1 n1

theorem fecFlit_two (g : Gikan) (h : g.rxLanes 31 = 2) :
    g.fecFlit 31 = fec2 g ((Config.openValue g.draw).testBit 0) ((Config.openValue g.draw).testBit 1) (Config.fecCorrected g.draw 0 % 16)
      (Config.fecCorrected g.draw 1 % 16) := by
  have h' : ({ g with draw := g.draw + 1 } : Gikan).rxLanes 31 = 2 := h
  unfold Gikan.fecFlit Gikan.next
  simp only [h']
  rfl

/-- A DATA flit in its turn and one out of turn, after whatever FEC corrected; flits held; a NAK outstanding; a flit to replay; the longest queue of
held flits (R280 to R287). -/
theorem witness_Flits :
    let g := portG 5 0 l0
    g.lnkUp 31 = true ∧ (portG 4 0 l0).lnkUp 31 = false ∧ (portG 4 0 l0).lnkState 31 = 4 ∧ g.rxLanes 31 = 2 ∧
    flitBad (sealed0 (dflit 0 0)) = false ∧ flitBad { sealed0 (dflit 0 0) with bad := true } = true ∧ flitBad { sealed0 (dflit 0 0) with seq := 1 } = true ∧
    (∀ b0 b1 : Bool, ∀ n0 n1 : Fin 16, let k := (fec2 g b0 b1 n0 n1).takeHeader 31 (dflit 0 0)
      k.lnkUp 31 = true ∧ (k.link 31).expect = 0) := by decide +kernel

theorem witness_Flits_slots :
    let g := portG 5 0 l0
    (dflit 0 0).seq = (g.link 31).expect ∧ (dflit 4095 0).seq ≠ (g.link 31).expect ∧
    (g.takeSlots 31 (dflit 0 0) (List.range 15)).2 = true ∧ (g.takeSlots 31 (dflit 0 1) (List.range 15)).2 = false ∧
    ({ l0 with held := heldF } : PortLnk).held[1]? = some (dflit 0 0, false) ∧ (({ l0 with held := heldF } : PortLnk).ackTo 0 9).held = [] ∧
    (({ l0 with held := heldF } : PortLnk).ackTo 4095 9).held = [(dflit 0 0, false)] ∧ (({ l0 with held := heldF } : PortLnk).ackTo 7 9).held = heldF := by
  decide +kernel

theorem witness_Flits_times :
    let h := fun (now inRow : Nat) => portG 5 now { l0 with held := heldF, inRow := inRow }
    (h 0 0).replayNs 31 = 1000 ∧ (h 0 0).lnkUp 31 = true ∧ (h 0 0).get (F.LNK_RETRY_RETRY_MAX 31) = 2 ∧ after (.replayTimeout 31) (h 999 0) = h 999 0 ∧
    ((after (.replayTimeout 31) (h 1000 0)).link 31).replay = some 0 ∧ (after (.replayTimeout 31) (h 1000 0)).lnkState 31 = 5 ∧
    (after (.replayTimeout 31) (h 1000 1)).lnkState 31 = 7 ∧ (after (.replayTimeout 31) (h 1000 1)).get (F.LNK_STATUS_DOWN_CAUSE 31) = 5 ∧
    (let n := fun (now : Nat) => portG 5 now { l0 with nak := some 0 }
     after (.nakTimeout 31) (n 999) = n 999 ∧ ((after (.nakTimeout 31) (n 1000)).link 31).nakDue = true) ∧
    (let r := portG 5 0 { l0 with held := heldF, replay := some 1 }
     (r.link 31).txSched = none ∧ (r.link 31).replay = some 1 ∧ (r.link 31).held[1]? = some (dflit 0 0, false) ∧
       ((after (.flitSend 31) r).link 31).replay = none) ∧
    3072 ≤ (List.replicate 3072 (dflit 0 0, false)).length ∧
    (let t := portG 5 0 { l0 with rest := zeros 31 ++ [7], nakDue := true }
     (Gikan.fillSlots 15 0 t 31 [] 0).2.1 = zeros 31 ++ [7] ∧ (Gikan.fillSlots 15 0 (portG 5 0 l0) 31 [] 0).2.1 = [] ∧
       ((after (.flitSend 31) t).link 31).nextSeq = 1 ∧ (after (.flitSend 31) t).get (F.LNK_COUNT1_NAKS_SENT 31) = 1) := by decide +kernel

def msg (afp fw credit0 : Nat) : ParamMsg := ⟨1, 0, 1, afp, 5, fw, 0, 2 ^ 32 - 1, credit0 :: List.replicate 7 8, 0, false⟩
def paramG (m : ParamMsg) : Gikan :=
  (portG 4 5 { l0 with got := some m, seenIn := true, sentSeen := true }).set F.GLB_COMPAT_FW_MAX 9

/-- Each state of R290 before and at its limit, and each outcome of R293. -/
theorem witness_BringUp :
    (portG 1 0 l0).lnkState 31 = 1 ∧ (portG 1 0 { l0 with feedLost := true }).lnkState 31 = 1 ∧ (portG 2 0 l0).lnkState 31 = 2 ∧
    (after (.linkLight 31) (portG 1 0 l0)).lnkState 31 = 2 ∧ (after (.codewordLock 31) (portG 2 0 l0)).lnkState 31 = 3 ∧ (portG 3 0 l0).lnkState 31 = 3 ∧
    widthOf 0 0xFF 0x0F = some 1 ∧ widthOf 3 0xFF 0xFF = some 0 ∧ widthOf 2 0xFF 0x02 = none ∧ widthOf 1 0x0F 0xFF = some 1 ∧
    (∀ x ∈ [(1, 10000000), (2, 1000000), (3, 50000000), (4, 2000000)],
      after (.linkStateTimeout 31) (portG x.1 (x.2 - 1) l0) = portG x.1 (x.2 - 1) l0 ∧
      (after (.linkStateTimeout 31) (portG x.1 x.2 l0)).get (F.LNK_STATUS_DOWN_CAUSE 31) = x.1) ∧
    ({ l0 with fails := 9 } : PortLnk).backoffNs = 1280000000 ∧ (portG 7 9999999 l0).lnkState 31 = 7 ∧
    after (.backoffEnd 31) (portG 7 9999999 { l0 with fails := 1 }) = portG 7 9999999 { l0 with fails := 1 } ∧
    (after (.backoffEnd 31) (portG 7 10000000 { l0 with fails := 1 })).lnkState 31 = 1 ∧
    (portG 4 99999 { l0 with paramAt := some 0 }).link 31 = { l0 with paramAt := some 0 } ∧
    after (.paramSend 31) (portG 4 99999 { l0 with paramAt := some 0 }) = portG 4 99999 { l0 with paramAt := some 0 } ∧
    ((after (.paramSend 31) (portG 4 100000 { l0 with paramAt := some 0 })).link 31).paramAt = some 100000 := by decide +kernel

theorem witness_BringUp_outcomes :
    ((paramG (msg 0x0200 9 8)).link 31).got = some (msg 0x0200 9 8) ∧ ((paramG (msg 0x0200 9 8)).link 31).seenIn = true ∧
    ((paramG (msg 0x0200 9 8)).link 31).sentSeen = true ∧ (paramG (msg 0x0200 9 8)).paramOutcome 31 (msg 0x0200 9 8) = (5, 0, 0) ∧
    ((paramG (msg 0x0200 9 8)).paramSettle 31).lnkState 31 = 5 ∧ (paramG (msg 0x0300 9 8)).paramOutcome 31 (msg 0x0300 9 8) = (8, 4, 0) ∧
    (paramG (msg 0x0200 10 8)).paramOutcome 31 (msg 0x0200 10 8) = (6, 0, 2) ∧ (paramG (msg 0x0200 9 0)).paramOutcome 31 (msg 0x0200 9 0) = (7, 6, 0) ∧
    (let g := portG 5 0 l0
     let off := offOf (F.LNK_CTRL_ENABLE 31)
     g.gate .pcieA off = .pass ∧ w1cOnly g .pcieA off = false ∧ g.sealed = true ∧
       (g.putFields (trig (wr 1) (F.LNK_CTRL_RETRAIN 31)) off [F.LNK_CTRL_ENABLE 31]).on (F.LNK_CTRL_ENABLE 31) = true ∧
       wrOne (wr 1) (F.LNK_CTRL_CLR_CNT 31) = false ∧ wrOne (wr 1) (F.LNK_CTRL_ENABLE 31) = true ∧ wrOne (wr 1) (F.LNK_CTRL_RETRAIN 31) = false ∧
       (after (.lnkRetrainWrite (wr 1) 31) g).lnkState 31 = 1 ∧ (after (.lnkEnableWrite (wr 0) 31) g).lnkState 31 = 0 ∧
       (after (.lnkEnableWrite (wr 1) 31) (portG 8 0 l0)).lnkState 31 = 1 ∧ (after (.lnkEnableWrite (wr 1) 31) g).lnkState 31 = 5 ∧
       (after (.laneLoss 31 1) g).get (F.LNK_STATUS_DOWN_CAUSE 31) = 1 ∧ after (.laneLoss 31 2) g = g) := by decide +kernel

/-- LANE_STATUS at 1 ms, an FFE raised and lowered by one, a feed lost and back, a setpoint at 10 ms (R298 to R301). -/
theorem witness_LaneLoops :
    let g := portG 5 999999 { l0 with laneAt := some 0 }
    g.lnkUp 31 = true ∧ (g.link 31).laneAt = some 0 ∧ g.now < 1000000 ∧ after (.laneStatusSend 31) g = g ∧ (portG 5 0 l0).eqFrozen 31 = false ∧
    ((portG 5 0 l0).set (F.LNK_CTRL_EQ_FREEZE 31) 1).eqFrozen 31 = true ∧ ((portG 5 0 l0).link 31).laneAt = none ∧
    (let m : LaneStatusMsg := ⟨[-30, 5], [0x01, 0x02]⟩
     let t := after (.laneStatus 31 m) (puts g [(F.LNK_LANE_EQ_FFE_PRE 31 0, 63), (F.LNK_LANE_EQ_FFE_PRE 31 1, 0)])
     t.get (F.LNK_LANE_OPT_PARTNER_RX_OMA 31 0) = 226 ∧ t.get (F.LNK_LANE_EQ_FFE_PRE 31 0) = 63 ∧ t.get (F.LNK_LANE_EQ_FFE_PRE 31 1) = 0 ∧
       (after (.laneStatus 31 m) g).get (F.LNK_LANE_EQ_FFE_PRE 31 0) = 1) := by decide +kernel

/-- The last feed of the last tile: a port in service, one in PARAM, and one without light (R300). -/
theorem witness_LaserFeeds :
    let lost := { l0 with feedLost := true }
    (after (.laserFeedLoss 3 3) (portG 5 0 l0)).lnkState 31 = 7 ∧ (after (.laserFeedLoss 3 3) (portG 4 0 l0)).get (F.LNK_STATUS_DOWN_CAUSE 31) = 7 ∧
    (after (.laserFeedLoss 3 3) (portG 5 0 l0)).on (F.LNK_TILE_FEED_LOSS 3 3) = true ∧ ((after (.laserFeedLoss 3 3) (portG 1 0 l0)).link 30).feedLost = true ∧
    (after (.laserFeedLoss 3 3) (portG 5 0 l0)).get (F.FLT_WORDS_GROUPS 1) = 2 ^ 30 + 2 ^ 31 + 2 ^ 35 ∧
    ((after (.laserFeedReturn 3 3) (portG 7 0 lost)).link 31).feedLost = false ∧ ((portG 1 0 lost).link 31).feedLost = true ∧ (portG 1 0 lost).lnkState 31 = 1 ∧
    (portG 7 0 lost).lnkState 31 = 7 ∧ after (.linkLight 31) (portG 1 0 lost) = portG 1 0 lost ∧ (after (.linkStateTimeout 31) (portG 1 10000000 lost)).lnkState 31 = 7 := by
  decide +kernel

theorem witness_LaneLoops_setpoint :
    let g := fun (now p : Nat) => { portG 5 now l0 with lnk := [(30, { l0 with loopAt := some 0 }), (31, l0)] }.set (F.LNK_LASER_REQ_SETPOINT 3 3) p
    ((g 9999999 160).link 30).loopAt = some 0 ∧ after (.laserLoop 3 3) (g 9999999 160) = g 9999999 160 ∧
    (g 10000000 255).get (F.LNK_LASER_REQ_SETPOINT 3 3) = 255 ∧ (g 10000000 160).feedOma 3 3 = some 0 ∧
    ((g 10000000 198).set (F.LNK_LANE_OPT_PARTNER_RX_OMA 31 1) 226).feedOma 3 3 = some (-30) := by decide +kernel

/-- A packet of two cells at the head of a queue to a fabric output and to an internal one. -/
def cellG (o sent : Nat) : Gikan := { serv with xbar := { serv.xbar with voq := [(voqKey 47 o 0, [⟨.resp ⟨0x80, 0, 0, 0, 0, 1, 7, 5, 0, 0, zeros 300⟩, 2, 2, sent, 0, false⟩])] } }
theorem witness_SwitchCore :
    (cellG 31 0).xbar.voq.getD (voqKey 47 31 0) [] = [⟨.resp ⟨0x80, 0, 0, 0, 0, 1, 7, 5, 0, 0, zeros 300⟩, 2, 2, 0, 0, false⟩] ∧
    (((cellG 31 0).moveCell (47, 31, 0)).xbar.voq.getD (voqKey 47 31 0) []).map (fun v => v.sent) = [1] ∧
    (((cellG 31 1).moveCell (47, 31, 0)).xbar.tx.getD 31 []).length = 1 ∧ (((cellG 40 1).moveCell (47, 40, 0)).xbar.inbox.getD 40 []).length = 1 ∧
    (let off := offOf (F.XBAR_SHAPER_EN 47 7)
     serv.gate .pcieA off = .pass ∧ w1cOnly serv .pcieA off = false ∧
       (after (.xbarShaperWrite (wr (at_ (F.XBAR_SHAPER_BURST 47 7) 2)) 47 7) serv).tokensOf 47 7 = 512 * 65536 ∧
       (after (.xbarShaperWrite (wr (at_ (F.XBAR_SHAPER_RESET_ZERO 47 7) 1)) 47 7) serv).tokensOf 47 7 = 0) ∧
    (let e := wr (at_ F.XBAR_GATE_ENTRY_PORT 31 + at_ F.XBAR_GATE_ENTRY_INDEX 63 + at_ F.XBAR_GATE_ENTRY_LIST 1 + at_ F.XBAR_GATE_ENTRY_DUR_NS 500 + at_ F.XBAR_GATE_ENTRY_MASK 1)
     let v := trig e F.XBAR_GATE_ENTRY_GO
     serv.gate .pcieA (offOf F.XBAR_GATE_ENTRY_GO) = .pass ∧ w1cOnly serv .pcieA (offOf F.XBAR_GATE_ENTRY_GO) = false ∧
       serv.get (F.XBAR_GATE_CTRL_ACTIVE 31) ≠ serv.wrValue v F.XBAR_GATE_ENTRY_LIST ∧
       (after (.xbarGateEntryGo e) serv).xbar.gates.get? (gateKey 31 1 63) = some (500, 1) ∧
       (let a := serv.set (F.XBAR_GATE_CTRL_ACTIVE 31) 1
        a.get (F.XBAR_GATE_CTRL_ACTIVE 31) = a.wrValue v F.XBAR_GATE_ENTRY_LIST ∧ (after (.xbarGateEntryGo e) a).get F.XBAR_EVENTS_GATE_WRITE_REFUSED = 1)) := by
  decide +kernel

theorem witness_SwitchCore_gates :
    let off := offOf (F.XBAR_GATE_SWAP_AT_SWAP_AT 31)
    let armed := fun (n : Nat) => puts serv [(F.XBAR_GATE_STATUS_ARMED 31, 1), (F.XBAR_GATE_SWAP_AT_SWAP_AT 31, n), (F.XBAR_GATE_STATUS_ENTRY 31, 62), (F.XBAR_GATE_CTRL_LEN0 31, 64)]
    serv.gate .pcieA off = .pass ∧ w1cOnly serv .pcieA off = false ∧ serv.tickNo = 100 ∧
    (after (.xbarGateSwapAtWrite (wr 104) 31) serv).on (F.XBAR_GATE_STATUS_ARMED 31) = true ∧
    (after (.xbarGateSwapAtWrite (wr 103) 31) serv).on (F.XBAR_GATE_STATUS_SWAP_REFUSED 31) = true ∧
    (after (.xbarGateSwapAtWrite (wr (2 ^ 64 - 1)) 31) (armed 200)).on (F.XBAR_GATE_STATUS_ARMED 31) = false ∧
    (armed 100).hasp = false ∧ (armed 100).running = true ∧ (armed 100).on (F.XBAR_GATE_STATUS_ARMED 31) = true ∧
    (after (.gateSwap 31) (armed 100)).get (F.XBAR_GATE_CTRL_ACTIVE 31) = 1 ∧ after (.gateSwap 31) (armed 101) = armed 101 ∧
    (armed 100).gateLen 31 0 = 64 ∧ ((armed 100).gateEntry 31 0 62).1 = 8000 ∧ (armed 100).time = 800000 ∧
    (after (.gateEntryEnd 31) (armed 100)).get (F.XBAR_GATE_STATUS_ENTRY 31) = 63 ∧
    (let last := (armed 100).set (F.XBAR_GATE_STATUS_ENTRY 31) 63
     after (.gateEntryEnd 31) last = last) ∧
    (let q := (cellG 31 0).set F.XBAR_QSAMPLE_SEL_EN 1
     q.on F.XBAR_QSAMPLE_SEL_EN = true ∧ q.sampleDue = true ∧ { q with xbar := { q.xbar with sampledAt := some q.now } }.sampleDue = false ∧ (q.queueValues).1 = 0 ∧
       (let q := puts q [(F.XBAR_QSAMPLE_SEL_INPUT, 47), (F.XBAR_QSAMPLE_SEL_OUTPUT, 31)]
        q.queueValues = (2, 0) ∧ (after .queueSample q).get F.XBAR_QSAMPLE_DATA_DEPTH_LAST = 2) ∧ after .queueSample serv = serv) := by decide +kernel

/-- Requests and responses with every field at its greatest value, and at zero, are read back as they were (R37 to R39). -/
theorem witness_PacketRoundTrip :
    let big : Hdr := ⟨0x03, 1, 1, 1, 31, 7, 31, 15, 15, 65535, 65535, 2 ^ 64 - 1, 65535, 65535, 2 ^ 24 - 1, 255, 2 ^ 64 - 1⟩
    let pub : Hdr := { big with type := 0x0D }
    let rd : Hdr := ⟨1, 0, 0, 0, 0, 0, 0, 0, 0, 0, 0, 0, 0, 0, 0, 0, 0⟩
    ∀ p ∈ [Packet.req ⟨big, List.replicate 32 255, [1, 2]⟩, .req ⟨pub, List.replicate 8 128, []⟩, .req ⟨rd, [], []⟩,
      .resp ⟨0x80, 0, 0, 0, 0, 0, 0, 0, 0, 0, []⟩, .resp ⟨255, 1, 1, 7, 255, 65535, 65535, 65535, 65535, 65535, [9]⟩],
      p.wf = true ∧ parsePacket (encodePacket p) = some p := by decide +kernel

/-- The instruction word with every field at its greatest value, and at zero (R239). -/
theorem witness_TumblerWordRoundTrip :
    (∀ i ∈ [(⟨255, 7, 1, 31, 31, 31, 31, 2 ^ 32 - 1⟩ : TI), ⟨0, 0, 0, 0, 0, 0, 0, 0⟩], i.op < 256 ∧ i.pg < 8 ∧ i.pn < 2 ∧ i.rd < 32 ∧ i.ra < 32 ∧ i.rb < 32 ∧ i.rc < 32 ∧
      i.imm < 2 ^ 32 ∧ tiOf (tiWord i) = i) ∧ tiWord ⟨255, 7, 1, 31, 31, 31, 31, 2 ^ 32 - 1⟩ = 2 ^ 64 - 1 := by decide +kernel

/-! ## Compartments, faults and health -/

def scrubG (s : Option (Nat × Nat × Option Nat)) (now : Nat) : Gikan :=
  { (puts (mapG 0) [(F.SEC_SCRUB_STATUS_BUSY, 1), (F.SEC_CMPT_STATE_SCRUBBING, 2 ^ 15)]) with sec := { serv.sec with scrub := s }, now := now }
def viewG (base : Nat) : Gikan := { (mapG 0).set F.SEC_CTRL_VIEW_EN 1 with sec := { (mapG 0).sec with viewBase := [(0, base)] } }

/-- The mask of node 16,383; a scrub of compartment 15 while idle and while busy; its two ends, at 60 µs and past it; a record that fits its extent,
one past the extent's end, one of another compartment (R320, R325 to R329). -/
theorem witness_ScrubAndViews :
    let g := puts conf [(F.SEC_MEMBER_INDEX_NODE, 16383)]
    g.gate .pcieA (offOf F.SEC_MEMBER_DATA_MASK) = .pass ∧ w1cOnly g .pcieA (offOf F.SEC_MEMBER_DATA_MASK) = false ∧ (wr 0x8001).half = .full ∧
    g.memberWord < 2 ^ 16 ∧ (after (.secMemberDataWrite (wr 0x18001)) g).sec.masks = [(16383, 0x8001)] ∧
    (let w := wr (at_ F.SEC_SCRUB_CMPT 15)
     serv.gate .pcieA (offOf F.SEC_SCRUB_GO) = .pass ∧ w1cOnly serv .pcieA (offOf F.SEC_SCRUB_GO) = false ∧ serv.on F.SEC_SCRUB_STATUS_BUSY = false ∧
       (after (.secScrubGo w) serv).scrubbing 15 = true ∧ (after (.secScrubGo w) serv).get F.SEC_SCRUB_STATUS_CMPT = 15 ∧
       (scrubG none 0).on F.SEC_SCRUB_STATUS_BUSY = true ∧ (after (.secScrubGo w) (scrubG none 0)).get F.SEC_SCRUB_COUNTS_REFUSED = 1) ∧
    (let a := scrubG (some (15, 0, none)) 70000
     a.hasp = false ∧ a.sec.scrub = some (15, 0, none) ∧ (after .stopPhaseEnd a).get F.SEC_SCRUB_STATUS_STOP_NS = 65535 ∧ after .scrubDone a = a ∧
       (scrubG none 0).sec.scrub = none) ∧
    (let b := fun (now : Nat) => scrubG (some (15, 0, some 9)) now
     (b 60000).sec.scrub = some (15, 0, some 9) ∧ (after .scrubDone (b 60000)).scrubbing 15 = false ∧
       (after .scrubDone (b 60000)).on F.SEC_SCRUB_STATUS_LATE = false ∧ (after .scrubDone (b 60001)).on F.SEC_SCRUB_STATUS_LATE = true ∧
       (after .scrubDone (b 60001)).get F.SEC_SCRUB_STATUS_TOTAL_NS = 60001) := by decide +kernel

theorem witness_ScrubAndViews_records :
    let v := viewG (here 64 + 1)
    v.on F.SEC_CTRL_VIEW_EN = true ∧ v.viewBaseWord 0 % 2 = 1 ∧ v.running = true ∧ v.hasp = false ∧ v.sec.viewed.contains 0 = false ∧
    v.siteAt (here 64) = some ⟨0, extAt 0⟩ ∧ (extAt 0).cmpt = 0 ∧ (extAt 0).comp = 0 ∧ (extAt 0).covers (v.realAddr (here 64)) 64 = true ∧
    (viewG (here (2 ^ 26) + 1)).siteAt (here (2 ^ 26)) = none ∧ (extAt 0).covers (here (2 ^ 26 - 64)) 64 = true ∧
    (after (.viewRecord 0) (viewG (here (2 ^ 26) + 1))).get F.SEC_CTRL_VIEW_MISSES = 1 ∧
    ((({ serv with req := { serv.req with dups := [⟨5, 1, 2, 1, 15, some (⟨0x81, 0, 0, 0, 0, 1, 7, 5, 0, 0, [1, 2]⟩, 0)⟩] } }.scrubClear 15).req.dups).map
      (fun (r : DupRec) => r.done.map (fun (d : Resp × Nat) => d.1.payload))) = [some []] ∧ after (.viewRecord 1) v = v ∧ after (.viewRecord 0) (viewG (here 64)) = viewG (here 64) := by decide +kernel

def svnG (fw cfg : Nat) (l : List (Fld × Nat)) : Gikan := puts serv ([(F.SEC_STATUS_FW_SVN, fw), (F.SEC_STATUS_CFG_SVN, cfg), (F.SEC_SVN_FUSED, 3)] ++ l)
def revImg : Image := { blankImage 1 with revokeEcdsa := 2, revokeLms := 8 }
def spdmG (x : SpdmSt) (use next_ : Nat) (l : List (Fld × Nat)) : Gikan :=
  let g := puts serv l
  { g with sec := { g.sec with spdmA := x, lmsUse := use, lmsNext := next_ }, mgt := { g.mgt with portA := { PciePort.reset with up := true } } }

/-- Each refusal of a commit, one that has nothing to blow, one that raises FUSED to 64; a fuse that fails; SPDM in its order (R333, R335 to R338). -/
theorem witness_SvnAndSpdm :
    let g := svnG 64 127 []
    g.gate .pcieA (offOf F.SEC_SVN_COMMIT) = .pass ∧ w1cOnly g .pcieA (offOf F.SEC_SVN_COMMIT) = false ∧ g.revokes = (0, 0) ∧ g.svnTarget = 64 ∧
    g.on F.SEC_SVN_BUSY = false ∧ g.on F.PWR_SAG_WARN = false ∧ g.on F.SEC_STATUS_FACTORY_TEST = false ∧ g.hasp = false ∧
    (after (.secSvnCommit (wr 0)) g).on F.SEC_SVN_BUSY = true ∧ (svnG 3 9 []).svnTarget = 3 ∧ (after (.secSvnCommit (wr 0)) (svnG 3 9 [])).on F.SEC_SVN_DONE = true ∧
    (after (.secSvnCommit (wr 0)) (svnG 4 4 [(F.SEC_SVN_BUSY, 1), (F.PWR_SAG_WARN, 1)])).get F.SEC_SVN_CAUSE = 4 ∧
    (after (.secSvnCommit (wr 0)) (svnG 4 4 [(F.PWR_SAG_WARN, 1)])).get F.SEC_SVN_CAUSE = 1 ∧
    (after (.secSvnCommit (wr 0)) (svnG 4 4 [(F.SEC_STATUS_FACTORY_TEST, 1)])).get F.SEC_SVN_CAUSE = 2 ∧
    (let k := { svnG 4 4 [(F.SEC_STATUS_BOOTED, 1), (F.SEC_STATUS_ECDSA_KEY, 1)] with mgt := { serv.mgt with slot0 := some revImg } }
     k.revokes = (2, 8) ∧ (k.revokes.1).testBit (k.get F.SEC_STATUS_ECDSA_KEY) = true ∧ (after (.secSvnCommit (wr 0)) k).get F.SEC_SVN_CAUSE = 3) ∧
    (let b := { svnG 127 127 [(F.SEC_STATUS_BOOTED, 1), (F.SEC_SVN_BUSY, 1)] with mgt := { serv.mgt with slot0 := some revImg } }
     b.on F.SEC_SVN_BUSY = true ∧ b.svnTarget = 127 ∧ (after (.svnCommitEnd true) b).get F.SEC_SVN_FUSED = 127 ∧
       (after (.svnCommitEnd true) b).get F.SEC_KEYS_ECDSA_REVOKED = 2 ∧ (after (.svnCommitEnd true) b).get F.SEC_KEYS_LMS_REVOKED = 8) := by decide +kernel

theorem witness_SvnAndSpdm_requests :
    let x0 : SpdmSt := ⟨0, false, false, none⟩
    let x3 : SpdmSt := ⟨3, true, true, some 77⟩
    let g := fun (x : SpdmSt) => spdmG x 0 0 []
    (g x0).port .a = { PciePort.reset with up := true } ∧ (serv.port .a).up = false ∧ ((g x0).spdm .a).version = 0 ∧ ((g x3).spdm .a).version ≠ 0 ∧
    ((g x0).spdm .a).caps = false ∧ ((g x3).spdm .a).caps = true ∧ ((g x3).spdm .a).algs = true ∧ ((g x3).spdm .a).signed = some 77 ∧
    (after (.getCapabilities .a 0x12) (g x0)).get (F.SEC_SPDM_ERRORS 0) = 1 ∧ (after (.getCapabilities .a 0x12) (g x3)).get (F.SEC_SPDM_VERSION 0) = 2 ∧
    ((after (.negotiateAlgorithms .a) (g ⟨2, true, false, none⟩)).spdm .a).algs = true ∧ (after (.getMeasurements .a 5 []) (g x3)).get (F.SEC_SPDM_ERRORS 0) = 1 ∧
    (after (.getMeasurements .a 4 []) (g x3)).get (F.SEC_SPDM_ERRORS 0) = 0 ∧ (after (.challenge .a 1 []) (g x3)).get (F.SEC_SPDM_ERRORS 0) = 1 ∧
    (let v := fun (use next_ : Nat) (l : List (Fld × Nat)) => spdmG x3 use next_ ([(F.GLB_ID_PCI_VENDOR, 0x1234)] ++ l)
     (v 0 0 []).get F.GLB_ID_PCI_VENDOR = 0x1234 ∧ (v 1048576 1048576 []).lmsLeft = 0 ∧
       (after (.vendorDefinedRequest .a 0x1234 1) (v 1048576 1048576 [])).on F.SEC_LMS_EXHAUSTED = true ∧ (v 4096 4096 [(F.PWR_SAG_WARN, 1)]).lmsLeft = 0 ∧
       (after (.vendorDefinedRequest .a 0x1234 1) (v 4096 4096 [(F.PWR_SAG_WARN, 1)])).get F.SEC_LMS_COUNT_BUSY_ANSWERS = 1 ∧
       (after (.vendorDefinedRequest .a 0x1234 1) (v 4096 4096 [])).sec.lmsNext = 8192 ∧
       (after (.vendorDefinedRequest .a 0x1234 1) (v 1048575 1048576 [])).sec.lmsUse = 1048576) := by decide +kernel

/-- An event of each class on group 63; the collector's own; an injection in factory test mode (R339 to R344, R354). -/
theorem witness_FaultCollector :
    (serv.syn 63).valid = false ∧ serv.hasp = false ∧ inHasp.hasp = true ∧ (serv.fault .contained 63 1 2 0).syn 63 = ⟨true, false, 2, 2, 1, 800000⟩ ∧
    ((serv.fault .contained 63 1 2 0).syn 63).valid = true ∧ (((serv.fault .contained 63 1 2 0).fault .contained 63 5 6 0).syn 63).overflow = true ∧
    (serv.fault .corrected 63 0 0 70000).flt.corrected.getD 63 0 = 70001 ∧ (serv.fault .contained 63 0 0 70000).flt.contained.getD 63 0 = 65535 ∧
    (after (.faultEvent 63 .fatal 1 2 0) serv).get F.FLT_HASP0_CAUSE = 1 ∧ (after .collectorFault serv).get F.FLT_HASP0_CAUSE = 2 ∧
    (after .collectorFault inHasp).bitOf (F.FLT_WORDS_GROUPS 0) 63 = true ∧
    (let t := serv.set F.FLT_TEST_ACTIVE 1
     let w := fun (c : Nat) => wr (at_ F.FLT_INJECT_CLASS c + at_ F.FLT_INJECT_GROUP 50 + at_ F.FLT_INJECT_UNIT 31)
     t.gate .pcieA (offOf F.FLT_INJECT_GO) = .pass ∧ w1cOnly t .pcieA (offOf F.FLT_INJECT_GO) = false ∧ t.on F.FLT_TEST_ACTIVE = true ∧
       serv.on F.FLT_TEST_ACTIVE = false ∧ wrOne (trig (w 3) F.FLT_INJECT_GO) F.FLT_INJECT_GO = true ∧
       (wrField (w 3) F.FLT_INJECT_CLASS).1 = 3 ∧ (wrField (w 1) F.FLT_INJECT_CLASS).1 = 1 ∧ (wrField (w 2) F.FLT_INJECT_CLASS).1 = 2 ∧
       (after (.fltInjectMiscompare (w 0)) t).flt.miscompare = [50 * 65536 + 31] ∧ after (.fltInjectGo (w 3)) serv = serv) := by decide +kernel

def mtx (n : Nat) : UnitId := ⟨.mtx, n⟩
def sampleG (boundaries : Nat) (mis : List Nat) (fenced : Nat) : Gikan :=
  { puts serv [(F.FLT_CHECK_WAIT_FRAMES, 7), (F.FLT_FENCED_ENG_MATRIX_or_FILTER 0, fenced)] with
    flt := { serv.flt with samples := [⟨mtx 31, 100, 10, 5, 16, 3⟩], miscompare := mis }, req := { serv.req with boundaries := boundaries } }
def fenceW (kind unit : Nat) : RegW := wr (at_ F.FLT_FENCE_KIND kind + at_ F.FLT_FENCE_UNIT unit)

/-- Fences of the last unit of each kind, one too many and one outside the table; a check in its last frame and after it; a monitor's window
(R346 to R353). -/
theorem witness_FencesAndChecks :
    serv.gate .pcieA (offOf F.FLT_FENCE_GO) = .pass ∧ w1cOnly serv .pcieA (offOf F.FLT_FENCE_GO) = false ∧
    (∀ x ∈ [(1, 2047), (2, 31), (3, 127), (4, 31), (5, 31), (6, 31)], (serv.fence x.1 x.2).isSome = true) ∧
    (∀ x ∈ [(0, 0), (1, 2048), (2, 32), (3, 128), (7, 0)], fenceBit x.1 x.2 = none) ∧
    (let one := serv.set (F.FLT_FENCED_ENG_MATRIX_or_FILTER 0) (2 ^ 31 - 1)
     one.fence 2 31 = none ∧ (one.setBitOf (F.FLT_FENCED_ENG_MATRIX_or_FILTER 0) 31).fenceLeaves 2 31 = false ∧
       (after (.fltFenceGo (fenceW 2 31)) one).on F.FLT_FENCE_REFUSED = true) ∧
    (after (.fltFenceGo (fenceW 2 31)) serv).bitOf (F.FLT_FENCED_ENG_MATRIX_or_FILTER 0) 31 = true ∧
    (after (.fltUnfence (fenceW 2 31)) (serv.set (F.FLT_FENCED_ENG_MATRIX_or_FILTER 0) (2 ^ 31))).get (F.FLT_FENCED_ENG_MATRIX_or_FILTER 0) = 0 := by
  decide +kernel

theorem witness_FencesAndChecks_checks :
    serv.sampleOf (mtx 31) = none ∧ (sampleG 17 [] 0).sampleOf (mtx 31) = some ⟨mtx 31, 100, 10, 5, 16, 3⟩ ∧ (sampleG 17 [] 0).waitFrames = 7 ∧
    (sampleG 17 [] 0).hasp = false ∧ (sampleG 17 [] 0).nextUnit (mtx 31) 31 [31] = some 0 ∧ (sampleG 17 [] 0).nextUnit (mtx 31) 0 [31, 0] = some 1 ∧
    (sampleG 17 [] (2 ^ 31 - 2)).nextUnit (mtx 31) 0 [31, 0] = none ∧ (sampleG 17 [50 * 65536 + 31] 0).flt.miscompare.contains (50 * 65536 + 31) = true ∧
    (after (.checkRun (mtx 31) true false false) (sampleG 17 [] 0)).get F.FLT_CHECK_STATS_CHECKED = 1 ∧
    (after (.checkRun (mtx 31) false false false) (sampleG 17 [] (2 ^ 31 - 2))).get F.FLT_CHECK_STATS_SKIPPED = 1 ∧
    after (.checkRun (mtx 31) true false false) (sampleG 18 [] 0) = sampleG 18 [] 0 ∧ after (.checkDrop (mtx 31)) (sampleG 17 [] 0) = sampleG 17 [] 0 ∧
    (after (.checkDrop (mtx 31)) (sampleG 18 [] 0)).get F.FLT_CHECK_STATS_SKIPPED = 1 ∧
    serv.gate .pcieA (offOf F.FLT_TEST_ENTER) = .pass ∧ serv.testCause = 1 ∧ (serv.set F.FLT_TEST_STRAP 1).testCause = 2 ∧
    (after (.fltTestEnter (wr 0)) serv).get F.FLT_TEST_CAUSE = 1 ∧
    (let m := { serv with flt := { serv.flt with monLeft := [(15, 0)], live := [(15, { MonWin.zero with n := 2 ^ 33, lo := 4, hi := 2 ^ 40 })] } }
     m.flt.monLeft.get? 15 = some 0 ∧ serv.flt.monLeft.get? 15 ≠ some 0 ∧ (after (.monitorWindowEnd 15) m).get (F.MON_MINMAX_MIN 15) = 4 ∧
       (after (.monitorWindowEnd 15) m).get (F.MON_STATUS_SAMPLES 15) = 2 ^ 32 - 1) := by decide +kernel

/-! ## Power, start and management -/

/-- A state of R356 with budgets that allow Q3, idle for three ticks and more. -/
def pwrG (state exiting : Nat) (idle : List Nat) : Gikan :=
  { puts serv [(F.PWR_STATE_STATE, state), (F.PWR_STATE_EXITING, exiting), (F.PWR_BUDGET0_ENGINE_NS, 3000000), (F.PWR_BUDGET0_MEMORY_NS, 3000000),
      (F.PWR_BUDGET1_FORWARD_NS, 3000000), (F.PWR_IDLE_IDLE_TICKS, 3)] with pwr := { serv.pwr with idle := idle, exitTo := 1 } }

/-- Down to Q3 and back, the end of an exit, a budget one short; a direction's width at its flit time (R356 to R362). -/
theorem witness_PowerStates :
    let g := pwrG 0 0 [3, 3, 3]
    g.running = true ∧ g.hasp = false ∧ g.on F.PWR_STATE_EXITING = false ∧ g.idleNow = true ∧ g.deepest g.idleFor = 3 ∧ (pwrG 0 0 [3, 3, 2]).deepest (pwrG 0 0 [3, 3, 2]).idleFor = 2 ∧
    (after .powerStateMove g).get F.PWR_STATE_STATE = 3 ∧ (pwrG 2 0 [0, 0, 0]).deepest (pwrG 2 0 [0, 0, 0]).idleFor = 0 ∧
    (after .powerStateMove (pwrG 2 0 [0, 0, 0])).on F.PWR_STATE_EXITING = true ∧ after .powerStateMove (pwrG 0 0 [2, 2, 2]) = pwrG 0 0 [2, 2, 2] ∧
    (pwrG 3 1 []).narrowed = [] ∧ (pwrG 3 1 []).pwr.exitTo = 1 ∧ (after .powerExitEnd (pwrG 3 1 [])).get F.PWR_STATE_ACLK_MHZ = 425 ∧
    (let n := { pwrG 3 1 [] with lnk := [(31, { PortLnk.reset with txNarrow := true })] }
     n.narrowed = [31] ∧ after .powerExitEnd n = n) ∧
    (let b := fun (e : Nat) => wr (at_ F.PWR_BUDGET0_ENGINE_NS e + at_ F.PWR_BUDGET0_MEMORY_NS 60000)
     serv.gate .pcieA 0xF00010 = .pass ∧ w1cOnly serv .pcieA 0xF00010 = false ∧ serv.gate .pcieA 0xF00018 = .pass ∧
       (pwrG 2 0 []).stateFits 2 = true ∧ (after (.pwrBudgetWrite (b 60000) 0) (pwrG 2 0 [])).on F.PWR_STATE_EXITING = false ∧
       (after (.pwrBudgetWrite (b 59999) 0) (pwrG 2 0 [])).on F.PWR_STATE_EXITING = true ∧
       (after (.pwrBudgetWrite (b 59999) 0) (pwrG 2 0 [])).pwr.exitTo = 1) := by decide +kernel

theorem witness_PowerStates_widths :
    let n := fun (now : Nat) (tx rx : Option Narrowing) => { puts serv [(F.LNK_STATUS_STATE 31, 5)] with
      lnk := [(31, { PortLnk.reset with txSched := tx, rxSched := rx })], now := now }
    (n 0 none none).lnkUp 31 = true ∧ serv.lnkUp 31 = false ∧ ((after (.sleep 31 99) (n 0 none none)).link 31).rxSched = some ⟨false, 99, 0⟩ ∧
    (n 7 (some ⟨false, 4, 0⟩) none).txFlits 31 = 3 ∧ (n 8 (some ⟨false, 4, 0⟩) none).txFlits 31 = 4 ∧
    after (.narrowAt 31 true true) (n 7 (some ⟨false, 4, 0⟩) none) = n 7 (some ⟨false, 4, 0⟩) none ∧
    ((after (.narrowAt 31 true true) (n 8 (some ⟨false, 4, 0⟩) none)).link 31).txNarrow = true ∧
    (n 8 none (some ⟨true, 4, 0⟩)).rxFlits 31 = 4 ∧ (after (.narrowAt 31 false false) (n 8 none (some ⟨true, 4, 0⟩))).lnkState 31 = 7 ∧
    (after (.narrowAt 31 false true) (n 8 none (some ⟨true, 4, 0⟩))).lnkState 31 = 5 ∧
    ((after (.narrowAt 31 false false) (n 8 none (some ⟨false, 4, 0⟩))).link 31).rxNarrow = true := by decide +kernel

def heatG (now : Nat) (p : PwrSt) : Gikan := { puts serv [(F.PWR_LIMIT_CAP_W, 1000), (F.PWR_LIMIT_TMIN, 16), (F.PWR_LIMIT_HYST_W, 50), (F.PWR_LIMIT_SHED_ON_SAG, 1)] with pwr := p, now := now }
def pw : PwrSt := serv.pwr

/-- The throttle factor at its instants, the voltage loop at both limits, a sensor at each of its points, and the sags (R363 to R371). -/
theorem witness_SupplyAndHeat :
    (heatG 0 pw).tMin = 16 ∧ (heatG 0 pw).capW = 1000 ∧ (heatG 0 pw).hasp = false ∧ pw.lowerAt = 0 ∧
    after (.throttleLower 1001) (heatG 99999 pw) = heatG 99999 pw ∧ (after (.throttleLower 1001) (heatG 100000 pw)).get F.PWR_STATE_THROTTLE = 63 ∧
    (after (.throttleLower 1000) (heatG 100000 pw)).pwr.tPower = 64 ∧ (after (.throttleLower 1001) (heatG 100000 { pw with tPower := 16 })).pwr.tPower = 16 ∧
    (after (.throttleLower 0) (heatG 100000 { pw with hot := [41] })).pwr.tTherm = 63 ∧
    after (.throttleRaise 0) (heatG 999999 { pw with tPower := 20 }) = heatG 999999 { pw with tPower := 20 } ∧
    (after (.throttleRaise 949) (heatG 1000000 { pw with tPower := 20 })).pwr.tPower = 21 ∧ (after (.throttleRaise 950) (heatG 1000000 { pw with tPower := 20 })).pwr.tPower = 20 ∧
    (after (.throttleRaise 0) ((heatG 1000000 { pw with tPower := 20 }).set F.PWR_SAG_WARN 1)).pwr.tPower = 20 ∧
    pw.minSince = none ∧ after (.throttleFault 1001) (heatG 99999999 { pw with minSince := some 0 }) = heatG 99999999 { pw with minSince := some 0 } ∧
    (after (.throttleFault 1001) (heatG 100000000 { pw with minSince := some 0 })).bitOf (F.FLT_WORDS_GROUPS 1) 60 = true ∧
    after (.fastTrip 1050) (heatG 0 pw) = heatG 0 pw ∧ (after (.fastTrip 1051) (heatG 0 pw)).pwr.shed = true ∧ (heatG 0 { pw with shed := true }).shedBoundary.pwr.tPower = 16 := by
  decide +kernel

theorem witness_SupplyAndHeat_voltage :
    let a := fun (v now : Nat) => heatG now { pw with avs := [(1, v)] }
    (a 8500 10000).phase ≠ 0 ∧ after (.avsStep 1 0 5 0) (a 8000 9999) = a 8000 9999 ∧ (after (.avsStep 1 0 5 0) (a 8000 10000)).avsOf 1 = 8025 ∧
    (after (.avsStep 1 9 5 0) (a 8000 10000)).avsOf 1 = 7975 ∧ (after (.avsStep 1 9 5 0) (a 6500 10000)).avsOf 1 = 6500 ∧
    (a 8500 10000).avsFrozen 1 = false ∧ (after (.avsStep 1 (-1) 5 0) (a 8500 10000)).pwr.margin = [1] ∧
    (after (.avsStep 1 0 5 0) { a 8500 10000 with pwr := { pw with avs := [(1, 8500)], margin := [1] } }).pwr.margin = [] ∧
    (a 8500 0).pwr.avsHeld.contains 1 = false ∧ (after (.avsNoAnswer 1) (a 8500 0)).avsFrozen 1 = true ∧
    after (.avsNoAnswer 1) (after (.avsNoAnswer 1) (a 8500 0)) = after (.avsNoAnswer 1) (a 8500 0) := by decide +kernel

theorem witness_SupplyAndHeat_sensors :
    let g := puts serv [(F.PWR_THERM_DIE_THROTTLE_C, 102), (F.PWR_THERM_STACK_THROTTLE_C, 92)]
    g.throttleQ 29 = 408 ∧ g.throttleQ 30 = 368 ∧ tripQ 29 = 460 ∧ tripQ 41 = 420 ∧ (after (.thermalReading 29 408) g).pwr.hot = [29] ∧
    (after (.thermalReading 29 407) g).pwr.hot = [] ∧ (after (.thermalReading 29 396) { g with pwr := { pw with hot := [29] } }).pwr.hot = [] ∧
    (after (.thermalReading 29 397) { g with pwr := { pw with hot := [29] } }).pwr.hot = [29] ∧ (after (.thermalReading 41 420) g).pins.thermtrip = true ∧
    (after (.thermalReading 41 420) g).hasp = true ∧ (after (.thermalReading 41 419) g).pins.thermtrip = false ∧ (after (.thermalReading 41 70000) g).tempQ 41 = 65535 ∧
    serv.on F.PWR_SAG_WARN = false ∧ (after (.sagWarning 31) (serv.set F.PWR_LIMIT_SHED_ON_SAG 1)).get F.PWR_SAG_LAST_RAIL = 15 ∧
    (after (.sagWarning 3) (serv.set F.PWR_LIMIT_SHED_ON_SAG 1)).pwr.shed = true ∧ (after (.sagWarning 15) (serv.set F.PWR_SAG_WARN 1)).on F.PWR_SAG_SAG_N = true ∧
    (after (.sagCritical 3) serv).get F.FLT_HASP0_CAUSE = 3 ∧ (after (.sagCritical 3) inHasp).bitOf F.FLT_FATAL_GROUPS 60 = true ∧
    (after .sagWarningClear (serv.set F.PWR_SAG_WARN 1)).on F.PWR_SAG_WARN = false := by decide +kernel

def shutG : Gikan := { puts serv [(F.FLT_HASP0_VALID, 1), (F.FLT_HASP0_CAUSE, 3), (F.SEC_SVN_FUSED, 100), (F.MGT_BOOT_ACTIVE, 1)] with mem := [(5, 6)] }
theorem witness_Resets :
    serv.gate .pcieA (offOf F.MGT_RESET_GO) = .pass ∧ w1cOnly serv .pcieA (offOf F.MGT_RESET_GO) = false ∧
    (after (.mgtResetGo (wr (at_ F.MGT_RESET_KEY 0xA5))) shutG).get F.GLB_RESET_CAUSE_CAUSE = 4 ∧ after (.mgtResetGo (wr (at_ F.MGT_RESET_KEY 0xA4))) shutG = shutG ∧
    (after .i3cTargetReset shutG).get F.FLT_HASP0_CAUSE = 3 ∧ (after .i3cTargetReset shutG).on F.GLB_RESET_CAUSE_HASP_KEPT = true ∧
    (after (.resetN 63 true false) shutG).on F.FLT_HASP0_VALID = false ∧ (after (.resetN 63 true false) shutG).get F.GLB_STRAPS_TRAY_ID = 63 ∧
    (after (.powerOnReset 1 false) shutG).get F.SEC_SVN_FUSED = 100 ∧ (after (.powerOnReset 1 false) shutG).mem = [] ∧ shutG.mgt.upd = none := by decide +kernel

/-- A configuration's content: HEADER with HOLD_MS 7, FABRIC with a period of `us`, END. -/
def cfgBytes (us : Nat) : List Byte :=
  leBytes 4 0x47494643 ++ leBytes 2 1 ++ leBytes 2 0x9632 ++ zeros 4 ++ leBytes 4 7 ++ zeros 48 ++ leBytes 2 1 ++ zeros 2 ++ leBytes 4 136 ++
    zeros 9 ++ leBytes 1 us ++ zeros 126 ++ leBytes 2 0xFFFF ++ zeros 6
/-- A key and a signature of the types of R331; all else is zero. -/
def lPub : List Byte := [0, 0, 0, 8, 0, 0, 0, 4]
def lSig : List Byte := [0, 0, 0, 0, 0, 0, 0, 4] ++ zeros 1120 ++ [0, 0, 0, 8]
def image (kind : Nat) (content : List Byte) : Image :=
  ⟨0x4B4C5347, 1, kind, 64, 0, 0, 0, 0, false, content.length, Config.sha384 content, [], lPub, [], lSig, [], content⟩

theorem test_lms_types : lmsTypes lPub lSig = true ∧ lmsTypes [0, 0, 0, 7, 0, 0, 0, 4] lSig = false := by decide +kernel

/-- What the functions of R330 must say for an image to be accepted; they are open values here. -/
def Accepting : Prop :=
  Config.fusedKeyHash 0 0 = Config.sha384 [] ∧ Config.fusedKeyHash 1 0 = Config.sha384 lPub ∧ Config.ecdsaVerify [] (Config.sha384 []) [] = true ∧ Config.lmsVerify lPub [] lSig = true

def flashG (phase : Nat) : Gikan :=
  { Gikan.reset.set F.MGT_STATUS_PHASE phase with mgt := { Gikan.reset.mgt with slot0 := some (image 1 [5]), cfg := some (image 2 (cfgBytes 64)) } }

theorem accepted_fields (g : Gikan) (im : Image) (space : Nat) (kinds : List Nat) (ha : Accepting) (hk : im.kind ∈ kinds)
    (hi : im.magic = 0x4B4C5347 ∧ im.format = 1 ∧ im.reservedNonzero = false ∧ im.revokeEcdsa = 0 ∧ im.revokeLms = 0 ∧ im.ecdsaKey = 0 ∧ im.lmsKey = 0 ∧
      im.svn = 64 ∧ im.ecdsaPub = [] ∧ im.lmsPub = lPub ∧ im.ecdsaSig = [] ∧ im.lmsSig = lSig ∧ im.signed = [] ∧ im.contentBytes = im.content.length ∧
      im.digest = Config.sha384 im.content)
    (hl : im.content.length ≠ 0 ∧ im.content.length ≤ 67104768 ∧ 4096 + im.content.length ≤ space)
    (hg : g.keyRevoked 0 0 = false ∧ g.keyRevoked 1 0 = false ∧ g.get F.SEC_SVN_FUSED ≤ 64) : g.imageCause im kinds space = 0 := by
  obtain ⟨h1, h2, h3, h4⟩ := ha
  obtain ⟨i1, i2, i3, i4, i5, i6, i7, i8, i9, i10, i11, i12, i13, i14, i15⟩ := hi
  obtain ⟨l1, l2, l3⟩ := hl
  obtain ⟨g1, g2, g3⟩ := hg
  have n0 : ¬ im.content = [] := fun h => l1 (by rw [h]; rfl)
  simp [Gikan.imageCause, i1, i2, i3, i4, i5, i6, i7, i8, i9, i10, i11, i12, i13, i14, i15, hk, n0, g1, g2, h1, h2, h3, h4, test_lms_types.1]
  rw [if_neg (by omega), if_neg (by omega)]

theorem accepted (g : Gikan) (kind : Nat) (content : List Byte) (space : Nat) (kinds : List Nat) (ha : Accepting) (hk : kind ∈ kinds)
    (hl : content.length ≠ 0 ∧ content.length ≤ 67104768 ∧ 4096 + content.length ≤ space)
    (hg : g.keyRevoked 0 0 = false ∧ g.keyRevoked 1 0 = false ∧ g.get F.SEC_SVN_FUSED ≤ 64) :
    g.imageCause (image kind content) kinds space = 0 :=
  accepted_fields g (image kind content) space kinds ha hk ⟨rfl, rfl, rfl, rfl, rfl, rfl, rfl, rfl, rfl, rfl, rfl, rfl, rfl, rfl, rfl⟩ hl hg

/-- Images of each kind that every check passes, as far as the open functions allow; a blank area; a period outside 2 to 64 (R373 to R381). -/
theorem witness_BootAndSeal_images (ha : Accepting) :
    (flashG 0).imageCause ((flashG 0).slotImage 0) [1] slotSpace = 0 ∧ (flashG 2).imageCause ((flashG 2).mgt.cfg.getD (blankImage 2)) [2] cfgSpace = 0 ∧
    serv.updCause 1 (some (image 1 [5])) = 0 := by
  have hc : serv.imageCause (image 1 [5]) [1, 2] (areaSpace 1) = 0 := accepted _ _ _ _ _ ha (by decide) (by decide +kernel) (by decide +kernel)
  refine ⟨accepted _ _ _ _ _ ha (by decide) (by decide +kernel) (by decide +kernel), accepted _ _ _ _ _ ha (by decide) (by decide +kernel) (by decide +kernel), ?_⟩
  have b1 : serv.on F.SEC_STATUS_BOOTED = false := by decide +kernel
  have b2 : serv.on F.PWR_SAG_WARN = false := by decide +kernel
  have b3 : serv.on F.MGT_UPD_BUSY = false := by decide +kernel
  unfold Gikan.updCause
  simp only [hc, b1, b2, b3]
  rfl

theorem witness_BootAndSeal :
    (flashG 0).phase = 0 ∧ (flashG 0).on F.MGT_BOOT_TRIAL_VALID = false ∧ Gikan.reset.imageCause (Gikan.reset.slotImage 0) [1] slotSpace = 1 ∧
    cfgCause (cfgBytes 64) = none ∧ cfgCause (cfgBytes 2) = none ∧ cfgCause (cfgBytes 65) = some (4, 64) ∧ cfgCause (cfgBytes 1) = some (4, 64) ∧
    (after .configCheckEnd (Gikan.reset.set F.MGT_STATUS_PHASE 2)).phase = 3 ∧
    (let ok := fun (l : List (Fld × Nat)) => puts conf l
     conf.gate .pcieA (offOf F.MGT_SEAL_GO) = .pass ∧ w1cOnly conf .pcieA (offOf F.MGT_SEAL_GO) = false ∧ conf.sealed = false ∧ conf.stamped = false ∧
       (after (.mgtSealGo (wr 0)) conf).on F.MGT_SEAL_PENDING = true ∧ (after (.mgtSealGo (wr 0)) (ok [(F.MEM_STATUS_STAMPED, 1)])).sealed = true ∧
       after (.mgtSealGo (wr 0)) (ok [(F.FLT_TEST_ACTIVE, 1)]) = ok [(F.FLT_TEST_ACTIVE, 1)] ∧ after (.mgtSealGo (wr 0)) (ok [(F.MGT_STATUS_PHASE, 3)]) = ok [(F.MGT_STATUS_PHASE, 3)]) ∧
    (let h := fun (now : Nat) => { conf.set F.MGT_STATUS_PHASE 5 with mgt := { conf.mgt with stampedAt := some 5, holdMs := 7 }, now := now }
     (h 7000004).mgt.stampedAt = some 5 ∧ after .sealHoldExpiry (h 7000004) = h 7000004 ∧ (after .sealHoldExpiry (h 7000005)).phase = 6) := by decide +kernel

def updG (target : Nat) : Gikan := { serv.set F.MGT_UPD_BUSY 1 with mgt := { serv.mgt with upd := some ⟨.b, target, blankImage 1⟩, slot0 := some (blankImage 1) } }
def trialG (l : List (Fld × Nat)) : Gikan := puts serv ([(F.MGT_STATUS_TRIAL, 1), (F.MGT_BOOT_TRIAL_VALID, 1), (F.MGT_BOOT_TRIAL_SLOT, 1), (F.MGT_BOOT_SEQ, 2 ^ 32 - 1)] ++ l)
def ownG (holder now : Nat) (lapsed : Bool) : Gikan :=
  { puts serv [(F.MGT_OWNER_HOLDER, holder), (F.MGT_OWNER_LEASE_MS, 10)] with mgt := { serv.mgt with leaseAt := 100, lapsed := lapsed }, now := now }

/-- The ends of updates, trials and leases (R375, R382, R385). -/
theorem witness_UpdatesAndOwnership :
    serv.gate .pcieA (offOf F.MGT_UPD_GO) = .pass ∧ w1cOnly serv .pcieA (offOf F.MGT_UPD_GO) = false ∧ serv.updCause 3 none = 2 ∧ serv.updCause 1 none = 6 ∧
    (after (.mgtUpdGo (wr (at_ F.MGT_UPD_TARGET 3)) none) serv).get F.MGT_UPD_CAUSE = 2 ∧ serv.mgt.upd = none ∧ after (.updateEnd true) serv = serv ∧
    (updG 0).mgt.upd = some ⟨.b, 0, blankImage 1⟩ ∧ (after (.updateEnd true) (updG 2)).mgt.cfg = some (blankImage 1) ∧ (after (.updateEnd true) (updG 2)).on F.MGT_UPD_DONE = true ∧
    (trialG []).on F.MGT_BOOT_TRIAL_VALID = true ∧ (trialG []).bootConfirm.get F.MGT_BOOT_ACTIVE = 1 ∧ (trialG []).bootConfirm.get F.MGT_BOOT_SEQ = 0 ∧
    serv.bootConfirm = serv ∧ (trialG []).bootTrial 0 = (trialG []).set F.MGT_BOOT_REFUSED 1 ∧ ((trialG []).bootTrial 1).get F.MGT_BOOT_ATTEMPTS = 3 ∧
    serv.gate .pcieA (offOf F.MGT_BOOT_CONFIRM) = .pass ∧ (after (.mgtBootConfirm (wr 0)) (trialG [])).get F.MGT_BOOT_ACTIVE = 1 ∧ conf.phase > 1 := by decide +kernel

theorem witness_UpdatesAndOwnership_leases :
    serv.gate .pcieB (offOf F.MGT_OWNER_CLAIM) = .pass ∧ w1cOnly serv .pcieB (offOf F.MGT_OWNER_CLAIM) = false ∧
    ((ownG 0 0 false).claim .pcieB).get F.MGT_OWNER_HOLDER = 2 ∧ (ownG 1 99 false).claim .pcieB = ownG 1 99 false ∧
    ((ownG 1 100 false).claim .pcieB).get F.MGT_OWNER_HOLDER = 2 ∧ ((ownG 1 0 true).claim .pcieB).get F.MGT_OWNER_HOLDER = 2 ∧
    ((ownG 2 50 false).claim .pcieB).mgt.leaseAt = 10000050 ∧ ((ownG 2 0 false).release_ .pcieB).get F.MGT_OWNER_HOLDER = 0 ∧
    (ownG 1 0 false).release_ .pcieB = ownG 1 0 false ∧ (after .leaseLapse (ownG 1 100 false)).mgt.lapsed = true ∧
    after .leaseLapse (ownG 1 99 false) = ownG 1 99 false ∧ after .leaseLapse (ownG 0 100 false) = ownG 0 100 false := by decide +kernel

def hostG (p : PciePort) (l : List (Fld × Nat)) : Gikan := { puts serv l with mgt := { serv.mgt with portB := p } }
def upP : PciePort := { PciePort.reset with up := true }

/-- Window accesses shut and open, a port down and back, a message freed; ENTDAA at both ends of its range; node numbers (R383 to R390). -/
theorem witness_HostPorts :
    (hostG upP []).port .b = upP ∧ ((hostG PciePort.reset []).port .b).up = false ∧ (hostG upP []).on (F.MGT_WIN_EN 1) = false ∧ (hostG upP []).hasp = false ∧
    1 < (hostG upP []).phase ∧ (after (.bar4Read .b 0 8) (hostG upP [])).on (F.MGT_WIN_STATUS_ERROR 1) = true ∧
    after (.bar4Write .b 0 [1]) (hostG upP [(F.MGT_STATUS_PHASE, 1)]) = hostG upP [(F.MGT_STATUS_PHASE, 1)] ∧
    (hostG upP [(F.MGT_WIN_EN 1, 1)]).on (F.MGT_WIN_EN 1) = true ∧ ((after (.pcieLinkDown .b false) (hostG upP [])).port .b).up = false ∧
    (after (.pcieLinkDown .b false) (hostG upP [])).bitOf (F.FLT_WORDS_GROUPS 1) 57 = true ∧ after (.pcieLinkDown .b false) (hostG PciePort.reset []) = hostG PciePort.reset [] ∧
    ((after (.pcieLinkDown .b true) (hostG PciePort.reset [])).port .b).perst = true ∧ ((after (.pcieLinkUp .b) (hostG PciePort.reset [])).port .b).up = true ∧
    (let p := { upP with fmask := true, pend := [7], table := [(14, 0x1000), (15, 0x55)] }
     msixMasked p 7 = true ∧ (after (.pcieConfigWrite .b (.functionMask false)) (hostG p [])).out = [.msix .b 7 0x1000 0x55] ∧
       (after (.pcieConfigWrite .b (.vectorMask 7 true)) (hostG { p with fmask := false } [])).out = [] ∧
       ((after (.pcieConfigWrite .b (.vectorMask 2047 true)) (hostG upP [])).port .b).table = [(4095, 2 ^ 32)]) := by decide +kernel

theorem witness_SequencePins :
    let g := fun (l : List (Fld × Nat)) => puts serv ([(F.MGT_I3C_SEQ_IN, 1)] ++ l)
    (g []).on F.MGT_I3C_SEQ_IN = true ∧ (g []).on F.MGT_I3C_DA_VALID = false ∧ (after (.entdaa 0x7D) (g [])).get F.MGT_I3C_DA = 0x7D ∧
    (after (.entdaa 8) (g [])).pins.seqOut = true ∧ after (.entdaa 8) (g [(F.MGT_I3C_SEQ_IN, 0)]) = g [(F.MGT_I3C_SEQ_IN, 0)] ∧
    after (.entdaa 8) (g [(F.MGT_I3C_DA_VALID, 1)]) = g [(F.MGT_I3C_DA_VALID, 1)] ∧ (after .rstdaa (after (.entdaa 8) (g []))).pins.seqOut = false ∧
    (after .i3cTargetReset (after (.entdaa 8) (g []))).pins.seqOut = false := by decide +kernel

theorem witness_HostPorts_bus :
    let g := fun (l : List (Fld × Nat)) => puts serv ([(F.MGT_I3C_SEQ_IN, 1), (F.GLB_STRAPS_TRAY_ID, 63), (F.TICK_STATUS_RUNNING, 0), (F.GLB_NODE_NODE, 0xFFFE)] ++ l)
    (g []).on F.MGT_I3C_SEQ_IN = true ∧ (g []).on F.MGT_I3C_DA_VALID = false ∧ (after (.entdaa 0x7D) (g [])).get F.GLB_NODE_CURRENT = 0x2000 + 128 * 63 + 0x7D ∧
    (after .rstdaa (g [(F.MGT_I3C_DA_VALID, 1)])).get F.GLB_NODE_PROVISIONAL = 0xFFFE ∧ after .getpid (g []) = g [] ∧
    (after (.i3cPrivateRead 9) (g [(F.MGT_I3C_DA_VALID, 1)])).out = [.i3c (List.replicate 8 0xFF)] ∧
    ({ g [] with mgt := { serv.mgt with i3cOff := 0x3C00000 } }).readable .i3c 0x3C00000 = true ∧
    ((g [(F.MGT_STATUS_PHASE, 1)])).readable .i3c 0x200000 = false ∧
    serv.gate .pcieA (offOf F.GLB_NODE_NODE) = .pass ∧ w1cOnly serv .pcieA (offOf F.GLB_NODE_NODE) = false ∧ wrCovers (wr 5) F.GLB_NODE_NODE = true ∧
    (after (.glbNodeWrite (wr (at_ F.GLB_NODE_NODE 0x3FFF))) (g [])).get F.GLB_NODE_CURRENT = 0x3FFF ∧ after (.glbNodeWrite (wr (at_ F.GLB_NODE_NODE 0x4000))) (g []) = g [] ∧
    (after (.glbNodeWrite (wr (at_ F.GLB_NODE_NODE 0xFFFE))) serv).get F.GLB_NODE_CURRENT = 7 ∧ after (.glbNodeWrite (wrHigh 5)) serv = serv := by decide +kernel

end Sys2Proof.Tests
end

section
namespace Sys2Proof.Machine

/-! ## The queue and reset (R6, R96) -/

/-- Every command is carried out: it leaves a Gikan and the queue as it was. -/
theorem exec_eq_done (c : Instr) (s : State) : ∃ g, exec c s = s.done g := by
  cases c <;> exact ⟨_, rfl⟩

theorem exec_keeps_pending {c : Instr} {s t : State} (h : exec c s = .next t) : t.pending = s.pending := by
  obtain ⟨g, hg⟩ := exec_eq_done c s
  rw [hg, State.done_eq, Host.Outcome.next.injEq] at h
  exact h ▸ rfl

/-- A step takes the front command away, if there is one, and adds none. -/
theorem step_pending {s t : State} (h : step s = .next t) : t.pending = s.pending.tail := by
  unfold step at h
  split at h
  case h_1 hp =>
    rw [Host.Outcome.next.injEq] at h
    subst h
    exact hp.trans (by rw [hp]; rfl)
  case h_2 c rest hp => exact (exec_keeps_pending h).trans (by rw [hp]; rfl)

/-- Settles O8: whatever the command, the queue after a step is the tail of the queue before it (`step_pending`). -/
theorem queueInvariant : Obligations.QueueInvariant := by
  intro s t hwf h
  have htail := step_pending h
  exact ⟨htail, fun c hc => hwf c (List.mem_of_mem_tail (htail ▸ hc))⟩

/-- Settles O9: the state that reset leaves is a fixed one, and each part of the statement is read off it. -/
theorem resetState : Obligations.ResetState :=
  ⟨rfl, fun _ => rfl, rfl, rfl, rfl, fun _ => rfl, ⟨Memory.wf_reset, rfl⟩, rfl, rfl, rfl, rfl, rfl, rfl⟩

end Sys2Proof.Machine
end

section
namespace Sys2Proof.Machine

/-! ## Register fields under a write (R4, R381) -/

/-- What a Gikan is beside its register fields. -/
def Gikan.body (g : Gikan) : Gikan := { g with csr := [] }

theorem Gikan.withCsr_of_body {g h : Gikan} (e : h.body = g.body) : { h with csr := g.csr } = g :=
  congrArg (fun b : Gikan => { b with csr := g.csr }) e

@[simp] theorem Gikan.body_set (g : Gikan) (f : Fld) (v : Nat) : (g.set f v).body = g.body := rfl

theorem Gikan.get_inc_ne (g : Gikan) (f h : Fld) (k : Nat) (hk : h.key ≠ f.key) : (g.inc f k).get h = g.get h :=
  Gikan.get_set_ne g f h _ hk

/-- A field under a write takes some value or stays. -/
theorem Gikan.putField_cases (g : Gikan) (w : RegW) (f : Fld) : g.putField w f = g ∨ ∃ v, g.putField w f = g.set f v := by
  unfold Gikan.putField
  dsimp only
  cases f.acc with
  | ro => exact .inl rfl
  | rw => exact .inr ⟨_, rfl⟩
  | w1c => exact .inr ⟨_, rfl⟩
  | wo => exact .inl rfl
  | rws =>
    dsimp only
    split
    · exact .inl rfl
    · exact .inr ⟨_, rfl⟩

@[simp] theorem Gikan.body_putField (g : Gikan) (w : RegW) (f : Fld) : (g.putField w f).body = g.body := by
  rcases g.putField_cases w f with e | ⟨v, e⟩ <;> rw [e]
  exact Gikan.body_set g f v

theorem Gikan.get_putField_ne (g : Gikan) (w : RegW) (f h : Fld) (hk : h.key ≠ f.key) : (g.putField w f).get h = g.get h := by
  rcases g.putField_cases w f with e | ⟨v, e⟩ <;> rw [e]
  exact Gikan.get_set_ne g f h v hk

theorem Gikan.body_foldl_putField (w : RegW) (fs : List Fld) (g : Gikan) : (fs.foldl (fun h f => h.putField w f) g).body = g.body := by
  induction fs generalizing g with
  | nil => rfl
  | cons f fs ih => rw [List.foldl_cons, ih, Gikan.body_putField]

theorem Gikan.get_foldl_putField_ne (w : RegW) (fs : List Fld) (g : Gikan) (h : Fld) (hk : ∀ f ∈ fs, h.key ≠ f.key) :
    (fs.foldl (fun h f => h.putField w f) g).get h = g.get h := by
  induction fs generalizing g with
  | nil => rfl
  | cons f fs ih =>
    rw [List.forall_mem_cons] at hk
    rw [List.foldl_cons, ih _ hk.2, Gikan.get_putField_ne g w f h hk.1]

/-- What a write makes of a field follows from the field and the seal alone. -/
theorem Gikan.get_putField_congr {g h : Gikan} (w : RegW) (f : Fld) (hf : h.get f = g.get f) (hs : h.sealed = g.sealed) :
    (h.putField w f).get f = (g.putField w f).get f := by
  unfold Gikan.putField Gikan.wrValue
  dsimp only
  rw [hs, hf]
  cases f.acc with
  | ro => exact hf
  | rw => simp only [Gikan.get_set_same]
  | w1c => simp only [Gikan.get_set_same]
  | wo => exact hf
  | rws =>
    dsimp only
    split
    · exact hf
    · simp only [Gikan.get_set_same]

theorem Gikan.sealed_putField_ne (g : Gikan) (w : RegW) (f : Fld) (hk : F.MGT_SEAL_SEALED.key ≠ f.key) : (g.putField w f).sealed = g.sealed := by
  rw [Gikan.sealed, Gikan.on, Gikan.get_putField_ne g w f _ hk]; rfl

/-- Of fields with different places, each is put as if alone. -/
theorem Gikan.get_foldl_putField_mem (w : RegW) (fs : List Fld) (g : Gikan) (f : Fld) (hf : f ∈ fs) (hn : (fs.map Fld.key).Nodup)
    (hs : ∀ e ∈ fs, F.MGT_SEAL_SEALED.key ≠ e.key) : (fs.foldl (fun h f => h.putField w f) g).get f = (g.putField w f).get f := by
  induction fs generalizing g with
  | nil => cases hf
  | cons a fs ih =>
    rw [List.map_cons, List.nodup_cons] at hn
    obtain ⟨ha, hn⟩ := hn
    rw [List.forall_mem_cons] at hs
    rw [List.foldl_cons]
    rcases List.mem_cons.mp hf with rfl | hf
    · exact Gikan.get_foldl_putField_ne w fs _ f fun e he h => ha (h ▸ List.mem_map_of_mem he)
    · have hne : f.key ≠ a.key := fun h => ha (h ▸ List.mem_map_of_mem hf)
      rw [ih _ hf hn hs.2]
      exact Gikan.get_putField_congr w f (Gikan.get_putField_ne g w a f hne) (Gikan.sealed_putField_ne g w a hs.1)

/-- A field that the count of refused writes after the seal (R381) is not kept in. -/
def Fld.offSeal (f : Fld) : Prop := f.key ≠ F.MGT_SEAL_RWS_WRITES.key ∧ f.key ≠ F.MGT_SEAL_LAST_OFFSET.key

/-- A write of fields puts them one by one, once the seal's count of refused writes has been kept. -/
theorem Gikan.putFields_eq (g : Gikan) (w : RegW) (off : Nat) (fs : List Fld) :
    ∃ k, g.putFields w off fs = fs.foldl (fun h f => h.putField w f) k ∧ k.body = g.body ∧ ∀ f : Fld, f.offSeal → k.get f = g.get f := by
  refine ⟨_, rfl, ?_, fun f hf => ?_⟩
  · split <;> rfl
  · split
    · rw [Gikan.get_set_ne _ _ _ _ hf.2, Gikan.get_inc_ne _ _ _ _ hf.1]
    · rfl

@[simp] theorem Gikan.body_putFields (g : Gikan) (w : RegW) (off : Nat) (fs : List Fld) : (g.putFields w off fs).body = g.body := by
  obtain ⟨k, e, hb, -⟩ := g.putFields_eq w off fs
  rw [e, Gikan.body_foldl_putField, hb]

theorem Gikan.get_putFields_ne (g : Gikan) (w : RegW) (off : Nat) (fs : List Fld) (f : Fld) (hf : f.offSeal) (hk : ∀ e ∈ fs, f.key ≠ e.key) :
    (g.putFields w off fs).get f = g.get f := by
  obtain ⟨k, e, -, hg⟩ := g.putFields_eq w off fs
  rw [e, Gikan.get_foldl_putField_ne w fs k f hk, hg f hf]

theorem Gikan.get_putFields_mem (g : Gikan) (w : RegW) (off : Nat) (fs : List Fld) (f : Fld) (hf : f ∈ fs) (hn : (fs.map Fld.key).Nodup)
    (hs : ∀ e ∈ fs, F.MGT_SEAL_SEALED.key ≠ e.key) (ho : f.offSeal) : (g.putFields w off fs).get f = (g.putField w f).get f := by
  obtain ⟨k, e, -, hg⟩ := g.putFields_eq w off fs
  rw [e, Gikan.get_foldl_putField_mem w fs k f hf hn hs]
  refine Gikan.get_putField_congr w f (hg f ho) ?_
  rw [Gikan.sealed, Gikan.on, hg _ ⟨by decide, by decide⟩]; rfl

/-! A whole word -/

/-- The mask of a 64-bit write covers every bit of a field. -/
theorem bits_mask_full (lo n : Nat) (h : lo + n ≤ 64) : bits (halfMask .full) lo n = 2 ^ n - 1 := by
  refine Nat.eq_of_testBit_eq fun i => ?_
  simp only [bits, halfMask, Nat.testBit_mod_two_pow, Nat.testBit_shiftRight, Nat.testBit_two_pow_sub_one]
  by_cases hi : i < n
  · simp only [hi, show lo + i < 64 by omega, decide_true, Bool.and_self]
  · simp only [hi, decide_false, Bool.false_and]

theorem bits_lt (n lo k : Nat) : bits n lo k < 2 ^ k := Nat.mod_lt _ (Nat.two_pow_pos k)

theorem wrField_full (b : Bus) (d : Word) (f : Fld) (h : f.key % 64 + f.wid ≤ 64) :
    wrField ⟨b, .full, d⟩ f = (bits d.toNat (f.key % 64) f.wid, 2 ^ f.wid - 1) := by
  rw [wrField]; exact congrArg (Prod.mk _) (bits_mask_full _ _ h)

theorem Gikan.wrValue_full (g : Gikan) (b : Bus) (d : Word) (f : Fld) (h : f.key % 64 + f.wid ≤ 64) (hv : g.get f < 2 ^ f.wid) :
    g.wrValue ⟨b, .full, d⟩ f = bits d.toNat (f.key % 64) f.wid := by
  simp only [Gikan.wrValue, wrField_full b d f h, Nat.and_two_pow_sub_one_of_lt_two_pow hv,
    Nat.and_two_pow_sub_one_of_lt_two_pow (bits_lt _ _ _), Nat.sub_self, Nat.or_zero]

/-- A field under a 64-bit write, by its access type (R4, R381). -/
theorem Gikan.get_putField_full (g : Gikan) (b : Bus) (d : Word) (f : Fld) (h : f.key % 64 + f.wid ≤ 64) (hv : g.get f < 2 ^ f.wid) :
    (g.putField ⟨b, .full, d⟩ f).get f =
      (let v := bits d.toNat (f.key % 64) f.wid
       match f.acc with
       | .rw => v
       | .rws => if g.sealed then g.get f else v
       | .w1c => g.get f - (g.get f &&& v)
       | .ro => g.get f
       | .wo => g.get f) := by
  have hw : g.wrValue ⟨b, .full, d⟩ f % 2 ^ f.wid = bits d.toNat (f.key % 64) f.wid := by
    rw [Gikan.wrValue_full g b d f h hv, Nat.mod_eq_of_lt (bits_lt _ _ _)]
  unfold Gikan.putField
  simp only [wrField_full b d f h, Nat.and_two_pow_sub_one_of_lt_two_pow (bits_lt _ _ _)]
  cases f.acc with
  | ro => rfl
  | rw => exact (Gikan.get_set_same g f _).trans hw
  | w1c => exact (Gikan.get_set_same g f _).trans (Nat.mod_eq_of_lt (Nat.lt_of_le_of_lt (Nat.sub_le _ _) hv))
  | wo => rfl
  | rws =>
    dsimp only
    split
    · rfl
    · exact (Gikan.get_set_same g f _).trans hw

/-! The register table (R3) -/

/-- Fields that lie whole in the register at an offset of a block of the chapters, each at a place of its own. -/
def regFits (off : Nat) (fs : List Fld) : Bool :=
  decide (off < 0x1200000) && fs.all (fun f => offOf f == off && decide (f.key % 64 + f.wid ≤ 64)) && decide (fs.map Fld.key).Nodup

/-- Every register of a descriptor holds its fields so. -/
def RegDesc.fits (d : RegDesc) : Bool :=
  match d.dims with
  | [] => regFits d.base (d.fields 0 0)
  | [(n, s)] => (List.range n).all fun i => regFits (d.base + s * i) (d.fields i 0)
  | [(n, s), (m, t)] => (List.range n).all fun i => (List.range m).all fun j => regFits (d.base + s * i + t * j) (d.fields i j)
  | _ => false

/-- Every register of BAR0 does. -/
theorem regTable_fits : regTable.all RegDesc.fits = true := by decide +kernel

theorem RegDesc.fits_hit {d : RegDesc} (hd : d.fits = true) {off i j : Nat} (h : regHit d off = some (i, j)) :
    regFits off (d.fields i j) = true := by
  obtain ⟨base, dims, fields⟩ := d
  unfold regHit at h
  split at h
  case isTrue => cases h
  case isFalse hb =>
  obtain ⟨o, rfl⟩ : ∃ o, off = base + o := ⟨off - base, by simp only at hb; omega⟩
  simp only [Nat.add_sub_cancel_left] at h
  match dims with
  | [] =>
    obtain ⟨rfl, rfl, rfl⟩ : o = 0 ∧ 0 = i ∧ 0 = j := by simpa using h
    exact hd
  | [(n, s)] =>
    obtain ⟨⟨hs, hi⟩, rfl, rfl⟩ : (o % s = 0 ∧ o / s < n) ∧ o / s = i ∧ 0 = j := by simpa using h
    have := List.all_eq_true.mp hd _ (List.mem_range.mpr hi)
    rwa [show s * (o / s) = o by have := Nat.div_add_mod o s; omega] at this
  | [(n, s), (m, t)] =>
    obtain ⟨⟨hi, ht, hj⟩, rfl, rfl⟩ : (o / s < n ∧ o % s % t = 0 ∧ o % s / t < m) ∧ o / s = i ∧ o % s / t = j := by simpa using h
    have := List.all_eq_true.mp (List.all_eq_true.mp hd _ (List.mem_range.mpr hi)) _ (List.mem_range.mpr hj)
    rwa [show base + s * (o / s) + t * (o % s / t) = base + o by
      have := Nat.div_add_mod o s; have := Nat.div_add_mod (o % s) t; omega] at this
  | _ :: _ :: _ :: _ => cases hd

theorem regAt_fits {ds : List RegDesc} (hd : ds.all RegDesc.fits = true) {off : Nat} {fs : List Fld} (h : regAt ds off = some fs) :
    regFits off fs = true := by
  induction ds with
  | nil => cases h
  | cons d ds ih =>
    rw [List.all_cons, Bool.and_eq_true] at hd
    unfold regAt at h
    split at h
    case h_1 i j hit => exact Option.some.inj h ▸ RegDesc.fits_hit hd.1 hit
    case h_2 => exact ih hd.2 h

/-- What the register table says of an assigned offset. -/
theorem regAt_regTable {off : Nat} {fs : List Fld} (h : regAt regTable off = some fs) :
    off < 0x1200000 ∧ (∀ f ∈ fs, offOf f = off ∧ f.key % 64 + f.wid ≤ 64) ∧ (fs.map Fld.key).Nodup := by
  simpa [regFits, and_assoc] using regAt_fits regTable_fits h

/-! Registers with no rule of their own (R4) -/

theorem ownRule_ranges {off : Nat} (h : ownRule off = false) :
    off < 0x2000000 ∧ ¬(0x101000 ≤ off ∧ off < 0x102000) ∧ ¬(0x401000 ≤ off ∧ off < 0x401C00) ∧ ¬(0x402000 ≤ off ∧ off < 0x402400) ∧
    ¬(0x700100 ≤ off ∧ off < 0x700180) ∧ (0x500000 ≤ off → off < 0x600000 → off % 0x8000 ≠ 0) ∧
    (0x1000100 ≤ off → off < 0x1000300 → off % 0x20 ≠ 0 ∧ off % 0x20 ≠ 8) := by
  simp only [ownRule, Bool.or_eq_false_iff, Bool.and_eq_false_iff, decide_eq_false_iff_not, beq_eq_false_iff_ne] at h
  omega

section
variable (g : Gikan) {off : Nat} (w : RegW) (hown : ownRule off = false)
include hown

theorem Gikan.writeMap_plain : g.writeMap off w = g.wrPlain off w := by
  unfold Gikan.writeMap
  split
  case h_18 => rfl
  all_goals cases hown

theorem Gikan.writeSec_plain : g.writeSec off w = g.wrPlain off w := by
  unfold Gikan.writeSec
  split
  case h_6 => rfl
  all_goals cases hown

theorem Gikan.writeEngine_plain : g.writeEngine off w = g.wrPlain off w := by
  unfold Gikan.writeEngine
  split
  case h_17 => rfl
  all_goals cases hown

theorem Gikan.writeMgmt_plain : g.writeMgmt off w = g.wrPlain off w := by
  unfold Gikan.writeMgmt
  split
  case h_9 => rfl
  all_goals cases hown

theorem Gikan.writeStack_plain : g.writeStack off w = g.wrPlain off w := by
  obtain ⟨-, -, -, -, hpolicy, -, -⟩ := ownRule_ranges hown
  unfold Gikan.writeStack
  split
  case h_11 => exact if_neg hpolicy
  all_goals cases hown

theorem Gikan.writeFlt_plain : g.writeFlt off w = g.wrPlain off w := by
  obtain ⟨-, htoken, -, -, -, -, hmon⟩ := ownRule_ranges hown
  have hnone : (List.range 16).find? (fun m => offOf (F.MON_SEL_SRC m) == off || offOf (F.MON_SCALE_BASE m) == off) = none := by
    refine List.find?_eq_none.mpr fun m hm => ?_
    rw [List.mem_range] at hm
    simp only [offOf, F.MON_SEL_SRC, F.MON_SCALE_BASE, Bool.or_eq_true, beq_iff_eq]
    omega
  unfold Gikan.writeFlt
  split
  case h_6 => rw [if_neg htoken, hnone]
  all_goals cases hown

theorem Gikan.writeLink_plain : g.writeLink off w = g.wrPlain off w := by
  obtain ⟨-, -, hshaper, hgate, -, hlnk, -⟩ := ownRule_ranges hown
  have hnone : (List.range 32).find? (fun p => offOf (F.XBAR_GATE_CTRL_EN p) == off || offOf (F.XBAR_GATE_SWAP_AT_SWAP_AT p) == off ||
      offOf (F.LNK_CTRL_ENABLE p) == off) = none := by
    refine List.find?_eq_none.mpr fun p hp => ?_
    rw [List.mem_range] at hp
    simp only [offOf, F.XBAR_GATE_CTRL_EN, F.XBAR_GATE_SWAP_AT_SWAP_AT, F.LNK_CTRL_ENABLE, Bool.or_eq_true, beq_iff_eq]
    omega
  unfold Gikan.writeLink
  split
  case h_5 => rw [if_neg hshaper, hnone]
  all_goals cases hown

/-- A write of a register with no rule of its own is by the access types of its fields. -/
theorem Gikan.writeReg_plain (hoff : off < 0x1200000) : g.writeReg off w = g.wrPlain off w := by
  have hblock : blockOf off < 18 := by unfold blockOf; omega
  unfold Gikan.writeReg
  rw [if_neg (show ¬ msixBase ≤ off by unfold msixBase; omega)]
  split
  case h_19 =>
    exfalso
    simp only [imp_false] at *
    omega
  all_goals simp only [Gikan.writeMap_plain g w hown, Gikan.writeSec_plain g w hown, Gikan.writeEngine_plain g w hown,
    Gikan.writeMgmt_plain g w hown, Gikan.writeStack_plain g w hown, Gikan.writeFlt_plain g w hown, Gikan.writeLink_plain g w hown]

end

/-- Settles O10: such a write puts the fields of its register one by one, each at a place of its own (`regAt_regTable`), so that each ends as its
access type has it and every field of another register stays. -/
theorem registerWriteByAccess : Obligations.RegisterWriteByAccess := by
  intro s bus off data fs hat halign hown hreach hfit
  obtain ⟨hoff, hplace, hnodup⟩ := regAt_regTable hat
  have hseal : off ≠ 0x1100008 := by rintro rfl; cases hown
  have hexec : exec (.registerWrite bus off 8 data) s = .next (s.withG (s.g.putFields ⟨bus, .full, data⟩ off fs)) := by
    show s.done (s.g.registerWrite bus off 8 data) = _
    rw [Gikan.registerWrite, if_pos ⟨rfl, halign⟩, Gikan.regWrite_reaches _ _ _ hreach, Gikan.writeReg_plain _ _ hown hoff, Gikan.wrPlain, hat]
    rfl
  have hkey : ∀ e : Fld, offOf e = 0x1100008 → ∀ f ∈ fs, e.key ≠ f.key := fun e he f hf h =>
    hseal ((hplace f hf).1.symm.trans ((congrArg (fun k => k / 64 * 8) h.symm).trans he))
  refine ⟨_, hexec, rfl, Gikan.withCsr_of_body (Gikan.body_putFields ..), fun f hf => ?_, fun f hf hw hl => ?_⟩
  · have hoffSeal : f.offSeal := ⟨(hkey F.MGT_SEAL_RWS_WRITES rfl f hf).symm, (hkey F.MGT_SEAL_LAST_OFFSET rfl f hf).symm⟩
    refine (Gikan.get_putFields_mem _ _ _ _ f hf hnodup (hkey F.MGT_SEAL_SEALED rfl) hoffSeal).trans ?_
    refine (Gikan.get_putField_full s.g bus data f (hplace f hf).2 (hfit f hf)).trans ?_
    cases f.acc <;> rfl
  · exact Gikan.get_putFields_ne _ _ _ _ f ⟨hw, hl⟩ fun e he h =>
      hf ((congrArg (fun k => k / 64 * 8) h).trans (hplace e he).1)

end Sys2Proof.Machine
end

section
namespace Sys2Proof.Machine

/-! ## Counters (R4) -/

@[simp] theorem Gikan.body_clear (g : Gikan) (cs : List Fld) : (g.clear cs).body = g.body := by
  unfold Gikan.clear
  induction cs generalizing g with
  | nil => rfl
  | cons c cs ih => rw [List.foldl_cons, ih, Gikan.body_set]

theorem Gikan.mem_of_body {g h : Gikan} (e : h.body = g.body) : h.mem = g.mem := (congrArg Gikan.mem e :)
theorem Gikan.out_of_body {g h : Gikan} (e : h.body = g.body) : h.out = g.out := (congrArg Gikan.out e :)

theorem Gikan.get_clear_ne (g : Gikan) (cs : List Fld) (f : Fld) (hf : ∀ c ∈ cs, f.key ≠ c.key) : (g.clear cs).get f = g.get f := by
  unfold Gikan.clear
  induction cs generalizing g with
  | nil => rfl
  | cons c cs ih =>
    rw [List.forall_mem_cons] at hf
    rw [List.foldl_cons, ih _ hf.2, Gikan.get_set_ne _ _ _ _ hf.1]

theorem Gikan.clear_clear (g : Gikan) (cs ds : List Fld) : (g.clear cs).clear ds = g.clear (cs ++ ds) := List.foldl_append.symm

/-- A field of reset value 0 that is 0 stays 0 while others of reset value 0 are cleared. -/
theorem Gikan.get_clear_zero (g : Gikan) (cs : List Fld) (hr : ∀ c ∈ cs, c.rst = 0) (f : Fld) (hf : f.rst = 0) (h0 : g.get f = 0) :
    (g.clear cs).get f = 0 := by
  unfold Gikan.clear
  induction cs generalizing g with
  | nil => exact h0
  | cons c cs ih =>
    rw [List.forall_mem_cons] at hr
    refine ih _ hr.2 ?_
    by_cases hk : f.key = c.key
    · have hread : (g.set c 0).get f = (g.set c 0).get c := by rw [Gikan.get, Gikan.get, hk, hf, hr.1]
      exact hread.trans ((Gikan.get_set_same g c 0).trans (Nat.zero_mod _))
    · rw [Gikan.get_set_ne g c f 0 hk, h0]

/-- Every counter of a list that resets to 0 is 0 once the list is cleared. -/
theorem Gikan.get_clear_mem (g : Gikan) (cs : List Fld) (hr : ∀ c ∈ cs, c.rst = 0) (f : Fld) (hf : f ∈ cs) : (g.clear cs).get f = 0 := by
  obtain ⟨l, r, rfl⟩ := List.append_of_mem hf
  have hsplit : g.clear (l ++ f :: r) = (((g.clear l).set f 0).clear r) := by
    simp only [Gikan.clear, List.foldl_append, List.foldl_cons]
  rw [hsplit]
  refine Gikan.get_clear_zero _ r (fun c hc => hr c (by simp [hc])) f (hr f (by simp)) ?_
  rw [Gikan.get_set_same, Nat.zero_mod]

/-- What a write of the register at `off` that clears the counters `cs` leaves of `g`. -/
def Gikan.clearsTo (g h : Gikan) (off : Nat) (cs : List Fld) : Prop :=
  h.mem = g.mem ∧ h.out = g.out ∧ (∀ f ∈ cs, h.get f = 0) ∧ ∀ f, offOf f ≠ off → g.regsBut h f cs

theorem Gikan.clearsTo_clear {g k : Gikan} {off : Nat} {cs : List Fld} (hm : k.mem = g.mem) (ho : k.out = g.out)
    (hk : ∀ f : Fld, offOf f ≠ off → f.offSeal → k.get f = g.get f) (hr : ∀ c ∈ cs, c.rst = 0) : g.clearsTo (k.clear cs) off cs :=
  ⟨(Gikan.mem_of_body (Gikan.body_clear k cs)).trans hm, (Gikan.out_of_body (Gikan.body_clear k cs)).trans ho,
    fun f hf => Gikan.get_clear_mem k cs hr f hf,
    fun f hf hc hw hl => (Gikan.get_clear_ne k cs f hc).trans (hk f hf ⟨hw, hl⟩)⟩

/-- The write of a block's control register: its other fields by access type, then the block's counters. -/
theorem Gikan.clearsTo_putFields_clear (g : Gikan) (w : RegW) {off : Nat} (o : Nat) {fs cs : List Fld} (hf : ∀ e ∈ fs, offOf e = off)
    (hr : ∀ c ∈ cs, c.rst = 0) : g.clearsTo ((g.putFields w o fs).clear cs) off cs :=
  Gikan.clearsTo_clear (Gikan.mem_of_body (Gikan.body_putFields ..)) (Gikan.out_of_body (Gikan.body_putFields ..))
    (fun f hne hs => Gikan.get_putFields_ne g w o fs f hs fun e he h =>
      hne ((congrArg (fun k => k / 64 * 8) h).trans (hf e he))) hr

theorem Gikan.clearsTo_putField_clear (g : Gikan) (w : RegW) {off : Nat} {e : Fld} {cs : List Fld} (he : offOf e = off)
    (hr : ∀ c ∈ cs, c.rst = 0) : g.clearsTo ((g.putField w e).clear cs) off cs :=
  Gikan.clearsTo_clear (Gikan.mem_of_body (Gikan.body_putField ..)) (Gikan.out_of_body (Gikan.body_putField ..))
    (fun f hne _ => Gikan.get_putField_ne g w e f fun h => hne ((congrArg (fun k => k / 64 * 8) h).trans he)) hr

theorem Gikan.clearsTo_clear_self (g : Gikan) {off : Nat} {cs : List Fld} (hr : ∀ c ∈ cs, c.rst = 0) : g.clearsTo (g.clear cs) off cs :=
  Gikan.clearsTo_clear rfl rfl (fun _ _ _ => rfl) hr

/-- A row that writes a register, when the write reaches it. -/
theorem exec_reaches {c : Instr} {s : State} {off : Nat} {w : RegW} {k : Gikan} (hc : exec c s = s.done (s.g.regWrite off w))
    (hk : s.g.writeReg off w = k) (hr : s.g.reaches8 w off) : exec c s = .next (s.withG k) := by
  rw [hc, Gikan.regWrite_reaches _ _ _ hr, hk]; rfl

/-- A row that sets CLR_CNT of a register. -/
theorem exec_clearsTo {c : Instr} {s : State} {f : Fld} {w : RegW} {k : Gikan} {cs : List Fld}
    (hc : exec c s = s.done (s.g.regWrite (offOf f) (trig w f))) (hk : s.g.writeReg (offOf f) (trig w f) = k) (hw : s.g.clearsTo k (offOf f) cs)
    (hr : s.g.reaches8 w (offOf f)) :
    ∃ t, exec c s = .next t ∧ t.pending = s.pending ∧ t.g.mem = s.g.mem ∧ t.g.out = s.g.out ∧ (∀ f ∈ cs, t.g.get f = 0) ∧
      ∀ e, offOf e ≠ offOf f → s.g.regsBut t.g e cs :=
  ⟨s.withG k, exec_reaches hc hk hr, rfl, hw⟩

/-! Records of the chapters beside the registers are not looked at. -/

section
variable {g k : Gikan} {off : Nat} {cs : List Fld} (h : g.clearsTo k off cs)
include h

theorem Gikan.clearsTo.withTier (t : TierSt) : g.clearsTo { k with tier := t } off cs := h
theorem Gikan.clearsTo.withCmp (c : CmpSt) : g.clearsTo { k with cmp := c } off cs := h
theorem Gikan.clearsTo.withFlt (f : FltSt) : g.clearsTo { k with flt := f } off cs := h
theorem Gikan.clearsTo.withPwr (p : PwrSt) : g.clearsTo { k with pwr := p } off cs := h

end

/-- Which order the counters are listed in does not matter. -/
theorem Gikan.clearsTo.of_mem_iff {g k : Gikan} {off : Nat} {cs ds : List Fld} (hk : g.clearsTo k off cs) (h : ∀ f, f ∈ ds ↔ f ∈ cs) :
    g.clearsTo k off ds := by
  obtain ⟨hmem, hout, hzero, hkeep⟩ := hk
  exact ⟨hmem, hout, fun f hf => hzero f ((h f).mp hf), fun f hf hb => hkeep f hf fun e he => hb e ((h e).mpr he)⟩

section
variable (g : Gikan) (w : RegW)

/-- A time master that begins to run free changes its slew alone. -/
theorem Gikan.runFree_eq (was : Bool) : ∃ v, g.runFree was = { g with tick := { g.tick with slew := v } } := by
  unfold Gikan.runFree
  split
  · exact ⟨0, rfl⟩
  · exact ⟨g.tick.slew, rfl⟩

theorem Gikan.clearsTo_wrTickCtrl : g.clearsTo (g.wrTickCtrl (trig w F.TICK_CTRL_CLR_CNT)) (offOf F.TICK_CTRL_CLR_CNT)
    ([F.TICK_EVENTS_SPLIT_ENTRIES, F.TICK_EVENTS_SWITCH_REFUSALS, F.TICK_EVENTS_REF_MISSED, F.TICK_EVENTS_BIG_ADMITS] ++
      (List.range 6).flatMap (fun i => [F.TICK_OVR_OVERRUNS i, F.TICK_OVR_LONG_OVERRUNS i])) := by
  have hrun : ∀ f : Fld, offOf f ≠ offOf F.TICK_CTRL_CLR_CNT → f.key ≠ F.TICK_CTRL_RUN.key :=
    fun f hne h => hne (show offOf f = offOf F.TICK_CTRL_RUN from congrArg (fun k => k / 64 * 8) h)
  have hput := g.clearsTo_putFields_clear (trig w F.TICK_CTRL_CLR_CNT) (off := offOf F.TICK_CTRL_CLR_CNT) (offOf F.TICK_CTRL_RUN)
    (fs := [F.TICK_CTRL_MASTER, F.TICK_CTRL_REF_EN, F.TICK_CTRL_SERVO_FREEZE, F.TICK_CTRL_ADMIT_FREEZE]) (cs := []) (by decide) (by decide)
  obtain ⟨hmem, hout, -, hkeep⟩ := hput
  rw [Gikan.wrTickCtrl, if_pos (wrOne_trig w _ rfl), Gikan.clear_clear]
  obtain ⟨v, hv⟩ := Gikan.runFree_eq (g.putFields (trig w F.TICK_CTRL_CLR_CNT) (offOf F.TICK_CTRL_RUN)
    [F.TICK_CTRL_MASTER, F.TICK_CTRL_REF_EN, F.TICK_CTRL_SERVO_FREEZE, F.TICK_CTRL_ADMIT_FREEZE]) (g.on F.TICK_CTRL_MASTER)
  rw [hv]
  refine Gikan.clearsTo_clear ?_ ?_ (fun f hne hs => ?_) (by decide)
  · refine Eq.trans ?_ hmem
    split <;> rfl
  · refine Eq.trans ?_ hout
    split <;> rfl
  · have hg := hkeep f hne (fun _ h => nomatch h) hs.1 hs.2
    refine Eq.trans ?_ hg
    split
    · exact Gikan.get_set_ne _ _ _ _ (hrun f hne)
    · rfl

theorem Gikan.clearsTo_wrMapCtrl : g.clearsTo (g.wrMapCtrl (trig w F.MAP_CTRL_CLR_CNT)) (offOf F.MAP_CTRL_CLR_CNT) mapCounters := by
  rw [Gikan.wrMapCtrl, if_pos (wrOne_trig w _ rfl)]
  exact Gikan.clearsTo_putFields_clear _ _ _ (by decide) (by decide)

theorem Gikan.clearsTo_wrMemCtrl : g.clearsTo (g.wrMemCtrl (trig w F.MEM_CTRL_CLR_CNT)) (offOf F.MEM_CTRL_CLR_CNT) memCounters := by
  rw [Gikan.wrMemCtrl, if_pos (wrOne_trig w _ rfl)]
  exact Gikan.clearsTo_putFields_clear _ _ _ (by decide) (by decide)

theorem Gikan.clearsTo_wrTierCtrl : g.clearsTo (g.wrTierCtrl (trig w F.TIER_CTRL_CLR_CNT)) (offOf F.TIER_CTRL_CLR_CNT) tierCounters := by
  rw [Gikan.wrTierCtrl, if_pos (wrOne_trig w _ rfl)]
  exact (Gikan.clearsTo_putFields_clear g _ _ (by decide) (by decide)).withTier _

theorem Gikan.clearsTo_wrRedCtrl : g.clearsTo (g.wrRedCtrl (trig w F.RED_CTRL_CLR_CNT)) (offOf F.RED_CTRL_CLR_CNT) redCounters := by
  rw [Gikan.wrRedCtrl, if_pos (wrOne_trig w _ rfl)]
  exact Gikan.clearsTo_clear_self g (by decide)

theorem Gikan.clearsTo_wrGfsCtrl : g.clearsTo (g.wrGfsCtrl (trig w F.GFS_CTRL_CLR_CNT)) (offOf F.GFS_CTRL_CLR_CNT) gfsCounters := by
  rw [Gikan.wrGfsCtrl, if_pos (wrOne_trig w _ rfl)]
  exact Gikan.clearsTo_clear_self g (by decide)

theorem Gikan.clearsTo_wrCmpCtrl : g.clearsTo (g.wrCmpCtrl (trig w F.CMP_CTRL_CLR_CNT)) (offOf F.CMP_CTRL_CLR_CNT) cmpCounters := by
  rw [Gikan.wrCmpCtrl, if_pos (wrOne_trig w _ rfl)]
  exact (Gikan.clearsTo_clear_self g (by decide)).withCmp _

theorem Gikan.clearsTo_wrPinCtrl : g.clearsTo (g.wrPinCtrl (trig w F.PIN_CTRL_CLR_CNT)) (offOf F.PIN_CTRL_CLR_CNT) pinCounters := by
  rw [Gikan.wrPinCtrl, if_pos (wrOne_trig w _ rfl)]
  exact Gikan.clearsTo_clear_self g (by decide)

theorem Gikan.clearsTo_wrSubCtrl : g.clearsTo (g.wrSubCtrl (trig w F.SUB_CTRL_CLR_CNT)) (offOf F.SUB_CTRL_CLR_CNT) subCounters := by
  rw [Gikan.wrSubCtrl, if_pos (wrOne_trig w _ rfl)]
  exact Gikan.clearsTo_putFields_clear _ _ _ (by decide) (by decide)

theorem Gikan.clearsTo_wrXbarCtrl : g.clearsTo (g.wrXbarCtrl (trig w F.XBAR_CTRL_CLR_CNT)) (offOf F.XBAR_CTRL_CLR_CNT) xbarCounters := by
  rw [Gikan.wrXbarCtrl, if_pos (wrOne_trig w _ rfl)]
  exact Gikan.clearsTo_putField_clear g _ rfl (by decide +kernel)

theorem Gikan.clearsTo_wrSecCtrl : g.clearsTo (g.wrSecCtrl (trig w F.SEC_CTRL_CLR_CNT)) (offOf F.SEC_CTRL_CLR_CNT) secCounters := by
  rw [Gikan.wrSecCtrl, if_pos (wrOne_trig w _ rfl)]
  exact Gikan.clearsTo_putField_clear g _ rfl (by decide)

theorem Gikan.wrFltCtrl_trig : g.wrFltCtrl (trig w F.FLT_CTRL_CLR_CNT) =
    { g.clear [F.FLT_CHECK_STATS_CHECKED, F.FLT_CHECK_STATS_MISMATCHES, F.FLT_CHECK_STATS_SKIPPED, F.FLT_CHECK_STATS_AUTO_FENCES,
        F.FLT_CHECK_STATS_LOG_DROPS] with flt := { g.flt with corrected := [], contained := [], fatal := [] } } := by
  rw [Gikan.wrFltCtrl, wrOne_trig w _ rfl]; rfl

theorem Gikan.clearsTo_wrFltCtrl : g.clearsTo (g.wrFltCtrl (trig w F.FLT_CTRL_CLR_CNT)) (offOf F.FLT_CTRL_CLR_CNT)
    [F.FLT_CHECK_STATS_CHECKED, F.FLT_CHECK_STATS_MISMATCHES, F.FLT_CHECK_STATS_SKIPPED, F.FLT_CHECK_STATS_AUTO_FENCES,
      F.FLT_CHECK_STATS_LOG_DROPS] := by
  rw [Gikan.wrFltCtrl_trig]
  exact (Gikan.clearsTo_clear_self g (by decide)).withFlt _

theorem Gikan.wrPwrCtrl_trig : g.wrPwrCtrl (trig w F.PWR_CTRL_CLR_CNT) =
    { g.clear [F.PWR_EVENTS_Q1_ENTRIES, F.PWR_EVENTS_Q2_ENTRIES, F.PWR_EVENTS_Q3_ENTRIES, F.PWR_EVENTS_FAST_TRIPS, F.PWR_AVS_STEPS,
        F.PWR_AVS_MARGIN_FAULTS, F.PWR_SAG_WARNINGS] with
      pwr := { g.pwr with throttleNs := 0, temps := g.pwr.temps.mapV (fun _ t => (t.1, 0)) } } := by
  rw [Gikan.wrPwrCtrl, wrOne_trig w _ rfl]; rfl

theorem Gikan.clearsTo_wrPwrCtrl : g.clearsTo (g.wrPwrCtrl (trig w F.PWR_CTRL_CLR_CNT)) (offOf F.PWR_CTRL_CLR_CNT)
    [F.PWR_EVENTS_Q1_ENTRIES, F.PWR_EVENTS_Q2_ENTRIES, F.PWR_EVENTS_Q3_ENTRIES, F.PWR_EVENTS_FAST_TRIPS, F.PWR_AVS_STEPS,
      F.PWR_AVS_MARGIN_FAULTS, F.PWR_SAG_WARNINGS] := by
  rw [Gikan.wrPwrCtrl_trig]
  exact (Gikan.clearsTo_clear_self g (by decide)).withPwr _

/-- COH_CTRL.CLR_CNT clears the counters and begins PEAK anew from ACTIVE. -/
theorem Gikan.wrCohCtrl_clears (k : Gikan) (hk : k = g.wrCohCtrl (trig w F.COH_CTRL_CLR_CNT)) : k.mem = g.mem ∧
    (∀ f ∈ cohCounters, k.get f = 0) ∧ k.get F.COH_TXN_PEAK = g.get F.COH_TXN_ACTIVE % 2 ^ F.COH_TXN_PEAK.wid := by
  obtain ⟨hmem, -, hzero, -⟩ := Gikan.clearsTo_clear_self g (off := 0) (cs := cohCounters) (by decide)
  have hne : ∀ c ∈ cohCounters, c.key ≠ F.COH_TXN_PEAK.key := by decide
  rw [hk, Gikan.wrCohCtrl, if_pos (wrOne_trig w _ rfl), Gikan.mem_set]
  refine ⟨hmem, fun f hf => ?_, Gikan.get_set_same ..⟩
  rw [Gikan.get_set_ne _ _ _ _ (hne f hf), hzero f hf]

/-! The ports (R290) -/

theorem Gikan.writeReg_lnkCtrl (p : Fin 32) : g.writeReg (offOf (F.LNK_CTRL_CLR_CNT p)) w = g.wrLnkCtrl w p := by
  fin_cases p <;> rfl

end

/-- LNK_CTRL without the counters of its port: the fields that a write puts. -/
def lnkCtrlFields (p : Nat) : List Fld :=
  [F.LNK_CTRL_ENABLE p, F.LNK_CTRL_QUARANTINE p, F.LNK_CTRL_EQ_FREEZE p, F.LNK_CTRL_BIAS_FREEZE p, F.LNK_CTRL_WIDTH_MAX p]

/-- The port's fields and counters after such a write. -/
def Gikan.lnkCleared (g : Gikan) (w : RegW) (p : Nat) : Gikan :=
  (g.putFields w (offOf (F.LNK_CTRL_ENABLE p)) (lnkCtrlFields p)).clear (lnkCounters p)

theorem lnkCtrlFields_places (p : Fin 32) : ((lnkCtrlFields p).map Fld.key).Nodup ∧ (∀ e ∈ lnkCtrlFields p, F.MGT_SEAL_SEALED.key ≠ e.key) ∧
    (∀ e ∈ lnkCtrlFields p, (F.LNK_STATUS_STATE p).key ≠ e.key) ∧ (∀ e ∈ lnkCounters p, (F.LNK_STATUS_STATE p).key ≠ e.key) ∧
    (∀ e ∈ lnkCounters p, (F.LNK_CTRL_ENABLE p).key ≠ e.key) ∧ ∀ e ∈ lnkCounters p, e.rst = 0 := by
  revert p; decide +kernel

theorem lnk_offSeal (p : Fin 32) : (F.LNK_CTRL_ENABLE p).offSeal ∧ (F.LNK_STATUS_STATE p).offSeal := by
  unfold Fld.offSeal; revert p; decide +kernel

theorem Gikan.lnkState_lnkCleared (g : Gikan) (w : RegW) (p : Fin 32) : (g.lnkCleared w p).lnkState p = g.lnkState p := by
  obtain ⟨-, -, hf, hc, -, -⟩ := lnkCtrlFields_places p
  exact (Gikan.get_clear_ne _ _ _ hc).trans (Gikan.get_putFields_ne g w _ _ _ (lnk_offSeal p).2 hf)

theorem Gikan.enable_lnkCleared (g : Gikan) (w : RegW) (p : Fin 32) (he : g.wrValue w (F.LNK_CTRL_ENABLE p) = 1) :
    (g.lnkCleared w p).on (F.LNK_CTRL_ENABLE p) = true := by
  obtain ⟨hn, hs, -, -, hc, -⟩ := lnkCtrlFields_places p
  have hput : (g.putField w (F.LNK_CTRL_ENABLE p)).get (F.LNK_CTRL_ENABLE p) = 1 :=
    (Gikan.get_set_same g (F.LNK_CTRL_ENABLE p) _).trans (by rw [he]; rfl)
  rw [Gikan.on, Gikan.lnkCleared, Gikan.get_clear_ne _ _ _ hc,
    Gikan.get_putFields_mem g w _ (lnkCtrlFields p) _ (List.mem_cons_self ..) hn hs (lnk_offSeal p).1, hput]
  rfl

theorem Gikan.on_setLink (g : Gikan) (p : Nat) (l : PortLnk) (f : Fld) : (g.setLink p l).on f = g.on f := rfl
theorem Gikan.lnkState_setLink (g : Gikan) (p q : Nat) (l : PortLnk) : (g.setLink p l).lnkState q = g.lnkState q := rfl

/-- What a write of LNK_CTRL starts or stops, once its fields and counters have been written. -/
def Gikan.lnkCtrlEnd (k : Gikan) (w : RegW) (p : Nat) : Gikan :=
  if !k.sealed then k
  else if !k.on (F.LNK_CTRL_ENABLE p) then
    if k.lnkState p == 0 then k else ((k.lnkLeave p).set (F.LNK_STATUS_DOWN_CAUSE p) 8).lnkEnter p 0
  else if wrOne w (F.LNK_CTRL_RETRAIN p) then (k.lnkLeave p).lnkSignal p
  else if wrCovers w (F.LNK_CTRL_ENABLE p) && (k.lnkState p == 0 || k.lnkState p == 8) then k.lnkSignal p
  else k

theorem Gikan.wrLnkCtrl_eq (g : Gikan) (w : RegW) (p : Nat) : g.wrLnkCtrl w p =
    (if wrOne w (F.LNK_CTRL_CLR_CNT p) then
      (g.lnkCleared w p).setLink p { (g.lnkCleared w p).link p with hist := [] }
    else g.putFields w (offOf (F.LNK_CTRL_ENABLE p)) (lnkCtrlFields p)).lnkCtrlEnd w p := rfl

/-- A port that is enabled, out of RETRAIN and neither DISABLED nor DOWN goes on as it was. -/
theorem Gikan.lnkCtrlEnd_self (k : Gikan) (w : RegW) (p : Nat) (he : k.on (F.LNK_CTRL_ENABLE p) = true) (h0 : k.lnkState p ≠ 0)
    (h8 : k.lnkState p ≠ 8) (hr : wrOne w (F.LNK_CTRL_RETRAIN p) = false) : k.lnkCtrlEnd w p = k := by
  simp [Gikan.lnkCtrlEnd, he, h0, h8, hr]

/-- A write of LNK_CTRL that clears the counters of a port that it leaves enabled and out of RETRAIN, and that is neither DISABLED nor DOWN, starts
and stops nothing. -/
theorem Gikan.wrLnkCtrl_clr (g : Gikan) (w : RegW) (p : Fin 32) (hc : wrOne w (F.LNK_CTRL_CLR_CNT p) = true) (h0 : g.lnkState p ≠ 0)
    (h8 : g.lnkState p ≠ 8) (he : g.wrValue w (F.LNK_CTRL_ENABLE p) = 1) (hr : wrOne w (F.LNK_CTRL_RETRAIN p) = false) :
    g.wrLnkCtrl w p = (g.lnkCleared w p).setLink p { (g.lnkCleared w p).link p with hist := [] } := by
  rw [Gikan.wrLnkCtrl_eq, if_pos hc]
  refine Gikan.lnkCtrlEnd_self _ w p ?_ ?_ ?_ hr
  · rw [Gikan.on_setLink, Gikan.enable_lnkCleared g w p he]
  · rwa [Gikan.lnkState_setLink, Gikan.lnkState_lnkCleared]
  · rwa [Gikan.lnkState_setLink, Gikan.lnkState_lnkCleared]

theorem Gikan.lnkCleared_clears (g : Gikan) (w : RegW) (p : Fin 32) (l : PortLnk) : ((g.lnkCleared w p).setLink p l).mem = g.mem ∧
    ∀ f ∈ lnkCounters p, ((g.lnkCleared w p).setLink p l).get f = 0 := by
  obtain ⟨-, -, -, -, -, hrst⟩ := lnkCtrlFields_places p
  rw [Gikan.mem_setLink, Gikan.lnkCleared]
  refine ⟨Gikan.mem_of_body ((Gikan.body_clear ..).trans (Gikan.body_putFields ..)), fun f hf => ?_⟩
  rw [Gikan.get_setLink, Gikan.get_clear_mem _ _ hrst f hf]

/-- Settles O13: each block's register clears the counters of its list (`Gikan.clearsTo`), whatever else its write does. -/
theorem clearCounters : Obligations.ClearCounters := by
  intro s w
  refine ⟨fun e he => ?_, fun hr => ?_, fun hr => ?_, fun hr => ?_, fun p hr h0 h8 he hretrain => ?_⟩
  · simp only [List.mem_cons, List.not_mem_nil, or_false] at he
    rcases he with rfl | rfl | rfl | rfl | rfl | rfl | rfl | rfl | rfl | rfl | rfl | rfl | rfl <;> dsimp only
    · exact exec_clearsTo rfl rfl (s.g.clearsTo_wrTickCtrl w)
    · exact exec_clearsTo rfl rfl (s.g.clearsTo_wrMapCtrl w)
    · exact exec_clearsTo rfl rfl (s.g.clearsTo_wrMemCtrl w)
    · exact exec_clearsTo rfl rfl (s.g.clearsTo_wrTierCtrl w)
    · exact exec_clearsTo rfl rfl (s.g.clearsTo_wrRedCtrl w)
    · exact exec_clearsTo rfl rfl (s.g.clearsTo_wrGfsCtrl w)
    · exact exec_clearsTo rfl rfl (s.g.clearsTo_wrCmpCtrl w)
    · exact exec_clearsTo rfl rfl (s.g.clearsTo_wrPinCtrl w)
    · exact exec_clearsTo rfl rfl (s.g.clearsTo_wrSubCtrl w)
    · refine exec_clearsTo rfl rfl ((s.g.clearsTo_wrXbarCtrl w).of_mem_iff fun f => ?_)
      simp only [xbarCounters, List.mem_append, List.mem_flatMap, List.mem_map, List.mem_cons, List.not_mem_nil, or_false, and_or_left, exists_or,
        or_assoc, eq_comm]
    · exact exec_clearsTo rfl rfl (s.g.clearsTo_wrSecCtrl w)
    · exact exec_clearsTo rfl rfl (s.g.clearsTo_wrFltCtrl w)
    · exact exec_clearsTo rfl rfl (s.g.clearsTo_wrPwrCtrl w)
  · exact ⟨s.withG _, exec_reaches rfl rfl hr, rfl, s.g.wrCohCtrl_clears w _ rfl⟩
  · refine ⟨s.withG _, exec_reaches rfl (s.g.wrFltCtrl_trig w) hr, rfl, rfl, rfl, rfl⟩
  · exact ⟨s.withG _, exec_reaches rfl (s.g.wrPwrCtrl_trig w) hr, rfl⟩
  · have hput := (s.g.writeReg_lnkCtrl _ p).trans (Gikan.wrLnkCtrl_clr s.g _ p (wrOne_trig w _ rfl) h0 h8 he hretrain)
    exact ⟨s.withG _, exec_reaches rfl hput hr, s.g.lnkCleared_clears _ p _⟩

end Sys2Proof.Machine
end

section
namespace Sys2Proof.Machine

/-! ## Reads of the queue registers (R408) -/

section
variable {g h : Gikan} {b : Bus} {off v : Nat} (hr : g.readable b off = true) (hw : g.regWord b off = (v, h))
include hr hw

/-- A 64-bit read of a register shows its word, and takes a queue's head. -/
theorem Gikan.busRead_full (h8 : off % 8 = 0) : g.busRead b .full off = (h.readHead off).emit (.busRead b off v) := by
  have hread : g.pcieRead b off 8 = (v, h.readHead off) := by
    rw [Gikan.pcieRead, if_pos ⟨rfl, h8⟩, Gikan.read64, hr, hw]; rfl
  simp only [Gikan.busRead, hread]

/-- A 32-bit read of the low half shows it and takes nothing. -/
theorem Gikan.busRead_low (h8 : off % 8 = 0) : g.busRead b .low off = h.emit (.busRead b off (v % 2 ^ 32)) := by
  have hread : g.pcieRead b off 4 = (v % 2 ^ 32, h) := by
    rw [Gikan.pcieRead, if_neg (fun e => nomatch e.1), if_pos ⟨rfl, by omega⟩, hr, if_pos rfl, show off / 8 * 8 = off by omega, hw, h8]
    simp
  simp only [Gikan.busRead, hread]

end

/-- A 32-bit read of the high half shows it and takes nothing. -/
theorem Gikan.busRead_high {g h : Gikan} {b : Bus} {off v : Nat} (hw : g.regWord b off = (v, h)) (h8 : off % 8 = 0)
    (hr4 : g.readable b (off + 4) = true) :
    g.busRead b .high off = h.emit (.busRead b (off + 4) (v / 2 ^ 32 % 2 ^ 32)) := by
  have hread : g.pcieRead b (off + 4) 4 = (v / 2 ^ 32 % 2 ^ 32, h) := by
    rw [Gikan.pcieRead, if_neg (fun e => nomatch e.1), if_pos ⟨rfl, by omega⟩, hr4, if_pos rfl, show (off + 4) / 8 * 8 = off by omega, hw,
      show (off + 4) % 8 = 4 by omega]
  simp only [Gikan.busRead, hread]

/-- A register's two halves are in one block, so a bus reads both or neither. -/
theorem Gikan.readable_add_four (g : Gikan) (b : Bus) {off : Nat} (h8 : off % 8 = 0) : g.readable b (off + 4) = g.readable b off := by
  have hblock : blockOf (off + 4) = blockOf off := by unfold blockOf; omega
  cases b <;> simp only [Gikan.readable, mgmtBlock, hblock]

/-- VALID above the fields of an entry. -/
theorem testBit_add_two_pow {a k : Nat} (h : a < 2 ^ k) : (a + 2 ^ k).testBit k = true := by
  rw [Nat.add_comm, Nat.testBit_two_pow_add_eq, Nat.testBit_lt_two_pow h]; rfl

theorem Gikan.homeReqWord_valid {g : Gikan} {e n ep : Nat} {rest : List (Nat × Nat × Nat)} (h : g.map.homeReq = (e, n, ep) :: rest) :
    g.homeReqWord.testBit 48 = true := by
  rw [Gikan.homeReqWord, h]
  exact testBit_add_two_pow (by omega)

theorem Gikan.candWord_valid {g : Gikan} {c : RepairCand} {rest : List RepairCand} (h : g.stk.cand = c :: rest) : g.candWord.testBit 63 = true := by
  rw [Gikan.candWord, h]
  exact testBit_add_two_pow (by omega)

theorem Gikan.stragglerWord_valid {g : Gikan} {p : Post} {rest : List Post} (h : g.red.posts = p :: rest) :
    g.stragglerWord.testBit 63 = true := by
  rw [Gikan.stragglerWord, h]
  exact testBit_add_two_pow (by split <;> omega)

/-! The head of the check log and its latched words -/

theorem Gikan.setWord_eq (g : Gikan) {off : Nat} {fs : List Fld} (h : regAt regTable off = some fs) (v : Nat) :
    g.setWord off v = fs.foldl (fun h f => h.set f (bits v (f.key % 64) f.wid)) g := by
  rw [Gikan.setWord, h]

theorem Gikan.setWord_checkLog1 (g : Gikan) (v : Nat) : g.setWord 0x1000B0 v = ((g.set F.FLT_CHECK_LOG1_TICK (bits v 0 40)).set
    F.FLT_CHECK_LOG1_ACLK_MHZ (bits v 40 10)).set F.FLT_CHECK_LOG1_ACTIVITY (bits v 50 8) :=
  g.setWord_eq (fs := [F.FLT_CHECK_LOG1_TICK, F.FLT_CHECK_LOG1_ACLK_MHZ, F.FLT_CHECK_LOG1_ACTIVITY]) (by decide +kernel) v

theorem Gikan.setWord_checkLog2 (g : Gikan) (v : Nat) : g.setWord 0x1000B8 v = g.set F.FLT_CHECK_LOG2_WORK (bits v 0 64) :=
  g.setWord_eq (fs := [F.FLT_CHECK_LOG2_WORK]) (by decide +kernel) v

/-- A field's bits of a word, put into the field, are what it then holds. -/
theorem Gikan.get_set_bits (g : Gikan) (f : Fld) (v lo n : Nat) (hn : f.wid = n) : (g.set f (bits v lo n)).get f = bits v lo n := by
  rw [Gikan.get_set_same, hn, Nat.mod_eq_of_lt (bits_lt v lo n)]

/-- A read that takes the head of the check log latches its other words. -/
theorem Gikan.readHead_checkLog {g : Gikan} {c : CheckLog} {rest : List CheckLog} (h : g.flt.checkLog = c :: rest) {k : Gikan}
    (hk : k = g.readHead 0x1000A8) :
    k.get F.FLT_CHECK_LOG1_TICK = bits c.w1 0 40 ∧ k.get F.FLT_CHECK_LOG1_ACLK_MHZ = bits c.w1 40 10 ∧
    k.get F.FLT_CHECK_LOG1_ACTIVITY = bits c.w1 50 8 ∧ k.get F.FLT_CHECK_LOG2_WORK = bits c.w2 0 64 ∧
    k.flt.checkLog = rest ∧ k.out = g.out ∧ k.mem = g.mem := by
  simp only [Gikan.readHead, h, Gikan.setWord_checkLog1, Gikan.setWord_checkLog2] at hk
  subst hk
  refine ⟨?_, ?_, ?_, Gikan.get_set_bits _ _ _ _ _ rfl, rfl, rfl, rfl⟩
  · rw [Gikan.get_set_ne _ _ _ _ (by decide), Gikan.get_set_ne _ _ _ _ (by decide), Gikan.get_set_ne _ _ _ _ (by decide)]
    exact Gikan.get_set_bits _ _ _ _ _ rfl
  · rw [Gikan.get_set_ne _ _ _ _ (by decide), Gikan.get_set_ne _ _ _ _ (by decide)]
    exact Gikan.get_set_bits _ _ _ _ _ rfl
  · rw [Gikan.get_set_ne _ _ _ _ (by decide)]
    exact Gikan.get_set_bits _ _ _ _ _ rfl

/-! Reads of an empty queue -/

theorem Gikan.readHead_homeReq_nil {g : Gikan} (h : g.map.homeReq = []) : g.readHead 0x300090 = g := by
  rw [Gikan.readHead, h, List.drop_nil, ← h]

theorem Gikan.readHead_cand_nil {g : Gikan} (h : g.stk.cand = []) : g.readHead 0x6000B0 = g := by
  rw [Gikan.readHead, h, List.drop_nil, ← h]

theorem Gikan.readHead_posts_nil {g : Gikan} (h : g.red.posts = []) : g.readHead 0x900068 = g := by
  rw [Gikan.readHead, Gikan.takePost, h]

theorem Gikan.readHead_checkLog_nil {g : Gikan} (h : g.flt.checkLog = []) : g.readHead 0x1000A8 = g := by
  rw [Gikan.readHead, h]

theorem Gikan.homeReqWord_nil {g : Gikan} (h : g.map.homeReq = []) : g.homeReqWord = 0 := by rw [Gikan.homeReqWord, h]
theorem Gikan.candWord_nil {g : Gikan} (h : g.stk.cand = []) : g.candWord = 0 := by rw [Gikan.candWord, h]
theorem Gikan.stragglerWord_nil {g : Gikan} (h : g.red.posts = []) : g.stragglerWord = 0 := by rw [Gikan.stragglerWord, h]
theorem Gikan.checkWord_nil {g : Gikan} (h : g.flt.checkLog = []) : g.checkWord = 0 := by rw [Gikan.checkWord, h]

/-! The four registers -/

section
variable {s : State} {b : Bus} {off v : Nat}

/-- A 64-bit read, for a row that is a read of its register. -/
theorem exec_read_full {c : Half → Instr} (hc : ∀ x, exec (c x) s = s.done (s.g.busRead b x off)) (hw : s.g.regWord b off = (v, s.g))
    (h8 : off % 8 = 0) (hr : s.g.readable b off = true) : exec (c .full) s = .next (s.withG ((s.g.readHead off).emit (.busRead b off v))) :=
  (hc .full).trans (congrArg s.done (Gikan.busRead_full hr hw h8))

/-- A 32-bit read of either half, for a row that is a read of its register. -/
theorem exec_read_half {c : Half → Instr} (hc : ∀ x, exec (c x) s = s.done (s.g.busRead b x off)) (hw : s.g.regWord b off = (v, s.g))
    (h8 : off % 8 = 0) (hr : s.g.readable b off = true) :
    exec (c .low) s = .next (s.withG (s.g.emit (.busRead b off (v % 2 ^ 32)))) ∧
      exec (c .high) s = .next (s.withG (s.g.emit (.busRead b (off + 4) (v / 2 ^ 32 % 2 ^ 32)))) :=
  ⟨(hc .low).trans (congrArg s.done (Gikan.busRead_low hr hw h8)),
    (hc .high).trans (congrArg s.done (Gikan.busRead_high hw h8 ((s.g.readable_add_four b h8).trans hr)))⟩

theorem exec_mapHomeReqRead_full (hr : s.g.readable b 0x300090 = true) : exec (.mapHomeReqRead b .full) s =
    .next (s.withG ((s.g.readHead 0x300090).emit (.busRead b 0x300090 s.g.homeReqWord))) := exec_read_full (fun _ => rfl) rfl (by decide) hr

theorem exec_memRepairCandRead_full (hr : s.g.readable b 0x6000B0 = true) : exec (.memRepairCandRead b .full) s =
    .next (s.withG ((s.g.readHead 0x6000B0).emit (.busRead b 0x6000B0 s.g.candWord))) := exec_read_full (fun _ => rfl) rfl (by decide) hr

theorem exec_redStraggler0Read_full (hr : s.g.readable b 0x900068 = true) : exec (.redStraggler0Read b .full) s =
    .next (s.withG ((s.g.readHead 0x900068).emit (.busRead b 0x900068 s.g.stragglerWord))) := exec_read_full (fun _ => rfl) rfl (by decide) hr

theorem exec_fltCheckLog0Read_full (hr : s.g.readable b 0x1000A8 = true) : exec (.fltCheckLog0Read b .full) s =
    .next (s.withG ((s.g.readHead 0x1000A8).emit (.busRead b 0x1000A8 s.g.checkWord))) := exec_read_full (fun _ => rfl) rfl (by decide) hr

end

/-- Settles O12: a 64-bit read takes the head of its register's queue, whose VALID bit its word has set, and a read of a half takes nothing. -/
theorem queueReads : Obligations.QueueReads := by
  intro s bus gives
  refine ⟨fun hr => ⟨fun e n ep rest hq => ⟨Gikan.homeReqWord_valid hq, ?_⟩, fun hq => ?_⟩,
    fun hr => ⟨fun c rest hq => ⟨Gikan.candWord_valid hq, ?_⟩, fun hq => ?_⟩,
    fun hr => ⟨fun p rest hq => ⟨Gikan.stragglerWord_valid hq, ?_⟩, fun hq => ?_⟩,
    fun hr => ⟨fun c rest hq _ => ⟨_, exec_fltCheckLog0Read_full hr, ?_⟩, fun hq => ?_⟩, fun c hc hr => ?_⟩
  · rw [exec_mapHomeReqRead_full hr, Gikan.readHead, hq]; rfl
  · rw [exec_mapHomeReqRead_full hr, Gikan.readHead_homeReq_nil hq, Gikan.homeReqWord_nil hq]
  · rw [exec_memRepairCandRead_full hr, Gikan.readHead, hq]; rfl
  · rw [exec_memRepairCandRead_full hr, Gikan.readHead_cand_nil hq, Gikan.candWord_nil hq]
  · rw [exec_redStraggler0Read_full hr, Gikan.readHead, Gikan.takePost, hq]
  · rw [exec_redStraggler0Read_full hr, Gikan.readHead_posts_nil hq, Gikan.stragglerWord_nil hq]
  · obtain ⟨htick, hmhz, hact, hwork, hlog, hout, hmem⟩ := Gikan.readHead_checkLog hq rfl
    have hword : s.g.checkWord = c.w0 := by rw [Gikan.checkWord, hq]
    exact ⟨hlog, by rw [← hout, ← hword]; rfl, htick, hmhz, hact, hwork, hmem⟩
  · rw [exec_fltCheckLog0Read_full hr, Gikan.readHead_checkLog_nil hq, Gikan.checkWord_nil hq]
  · simp only [List.mem_cons, List.not_mem_nil, or_false] at hc
    rcases hc with rfl | rfl | rfl | rfl <;> dsimp only at hr ⊢
    · exact exec_read_half (fun _ => rfl) rfl (by decide) hr
    · exact exec_read_half (fun _ => rfl) rfl (by decide) hr
    · exact exec_read_half (fun _ => rfl) rfl (by decide) hr
    · exact exec_read_half (fun _ => rfl) rfl (by decide) hr

end Sys2Proof.Machine
end

section
namespace Sys2Proof.Machine

/-! ## What the crossbar, the links and the counters leave (R36, R69) -/

/-- What a Gikan is beside its register fields, its crossbar and its links. -/
def Gikan.inner (g : Gikan) : Gikan := { g with csr := [], xbar := XbarSt.reset, lnk := [] }

theorem Gikan.mem_of_inner {g h : Gikan} (e : h.inner = g.inner) : h.mem = g.mem := (congrArg Gikan.mem e :)
theorem Gikan.req_of_inner {g h : Gikan} (e : h.inner = g.inner) : h.req = g.req := (congrArg Gikan.req e :)

/-- A step that leaves what is beside registers, crossbar and links wants no line and no granule. -/
theorem Gikan.cohSettle_of_inner {g h : Gikan} (e : h.inner = g.inner) : g.cohSettle h = h :=
  have hc : h.coh = g.coh := (congrArg Gikan.coh e :)
  have ht : h.tier = g.tier := (congrArg Gikan.tier e :)
  Gikan.cohSettle_same g h (congrArg CohSt.want hc) (congrArg TierSt.stall ht) (congrArg CohSt.who hc)

@[simp] theorem Gikan.inner_set (g : Gikan) (f : Fld) (v : Nat) : (g.set f v).inner = g.inner := rfl
@[simp] theorem Gikan.inner_inc (g : Gikan) (f : Fld) (k : Nat) : (g.inc f k).inner = g.inner := rfl
@[simp] theorem Gikan.inner_setLink (g : Gikan) (p : Nat) (l : PortLnk) : (g.setLink p l).inner = g.inner := rfl
@[simp] theorem Gikan.inner_toInbox (g : Gikan) (x : Nat) (p : Packet) : (g.toInbox x p).inner = g.inner := rfl
@[simp] theorem Gikan.inner_enqueueCells (g : Gikan) (i o : Nat) (p : Packet) (n : Nat) : (g.enqueueCells i o p n).inner = g.inner := rfl

@[simp] theorem Gikan.inner_addUsed (g : Gikan) (i n : Nat) : (g.addUsed i n).inner = g.inner := by
  unfold Gikan.addUsed; dsimp only; split <;> rfl

@[simp] theorem Gikan.inner_enqueue (g : Gikan) (i o : Nat) (p : Packet) : (g.enqueue i o p).inner = g.inner := by
  unfold Gikan.enqueue; dsimp only
  split
  · rfl
  · exact (Gikan.inner_enqueueCells ..).trans (Gikan.inner_addUsed ..)

@[simp] theorem Gikan.inner_freeInput (g : Gikan) (i : Nat) (p : Packet) : (g.freeInput i p).inner = g.inner := by
  unfold Gikan.freeInput; dsimp only
  split
  · split <;> rfl
  · rfl

@[simp] theorem Gikan.inner_consumed (g : Gikan) (src : From) (x : Nat) (p : Packet) : (g.consumed src x p).inner = g.inner := by
  unfold Gikan.consumed
  split
  · exact Gikan.inner_freeInput ..
  · rfl

theorem Gikan.inner_takePkt {g k : Gikan} {x : Nat} {p : Packet} {src : From} (h : g.takePkt x p = (src, k)) : k.inner = g.inner := by
  have hk : k = (g.takePkt x p).2 := by rw [h]
  rw [hk]
  unfold Gikan.takePkt; dsimp only
  split
  · split <;> rfl
  · split <;> rfl

@[simp] theorem Gikan.inner_answerFrom (g : Gikan) (i x : Nat) (q : Req) (r : Resp) : (g.answerFrom i x q r).inner = g.inner := by
  unfold Gikan.answerFrom
  split
  · split
    · exact Gikan.inner_enqueue ..
    · split
      · exact Gikan.inner_enqueue ..
      · split
        · exact Gikan.inner_enqueue ..
        · rfl
  · exact Gikan.inner_enqueue ..

@[simp] theorem Gikan.inner_cohRefuse (g : Gikan) (q : Req) (st : Nat) : (g.cohRefuse q st).inner = g.inner := by
  unfold Gikan.cohRefuse; dsimp only
  split
  · rfl
  · split
    · exact Gikan.inner_enqueue ..
    · rfl

/-- A refusal changes registers, crossbar and links alone. -/
@[simp] theorem Gikan.inner_refuse (g : Gikan) (x : Nat) (q : Req) (st : Nat) : (g.refuse x q st).inner = g.inner := by
  unfold Gikan.refuse
  split
  · exact Gikan.inner_cohRefuse ..
  · exact Gikan.inner_answerFrom ..

/-! ## The checks of a request (R10, R58, R59) -/

theorem findIdx_of_find? {α : Type} {p : α → Bool} {l : List α} {a : α} (h : l.find? p = some a) : ∃ i, findIdx p l = some (i, a) := by
  induction l with
  | nil => cases h
  | cons b l ih =>
    rw [findIdx]
    rw [List.find?_cons] at h
    cases hb : p b with
    | true =>
      rw [hb] at h
      exact ⟨0, by rw [if_pos rfl, Option.some.inj h]⟩
    | false =>
      rw [hb] at h
      obtain ⟨i, hi⟩ := ih h
      exact ⟨i + 1, by rw [if_neg Bool.false_ne_true, hi]; rfl⟩

theorem findIdx_of_find?_none {α : Type} {p : α → Bool} {l : List α} (h : l.find? p = none) : findIdx p l = none := by
  induction l with
  | nil => rfl
  | cons b l ih =>
    rw [List.find?_cons] at h
    rw [findIdx]
    cases hb : p b with
    | true => rw [hb] at h; cases h
    | false => rw [hb] at h; rw [if_neg Bool.false_ne_true, ih h]; rfl

section
variable {g k : Gikan} {x : Nat} {q : Req} {src : From} (hn : nonIdem q.hdr.type = true)
include hn

theorem Gikan.dupLookup_pending (here : Bool) {r : DupRec} (hf : g.req.dups.find? (fun r => r.is q) = some r) (hr : r.done = none) :
    g.dupLookup x q here = (g.inc F.MAP_DUP_PENDING_DROPS 1, false) := by
  obtain ⟨i, hi⟩ := findIdx_of_find? hf
  simp only [Gikan.dupLookup, hn, hi, hr]; rfl

theorem Gikan.dupLookup_complete (here : Bool) {r : DupRec} {a : Resp} {b : Nat} (hf : g.req.dups.find? (fun r => r.is q) = some r)
    (hr : r.done = some (a, b)) (he : g.evictableRec r = false) :
    g.dupLookup x q here = (g.answerFrom 47 x q { a with dup := 1, retry := q.hdr.retry }, false) := by
  obtain ⟨i, hi⟩ := findIdx_of_find? hf
  simp only [Gikan.dupLookup, hn, hi, hr, he]; rfl

theorem Gikan.dupLookup_aged (hf : g.req.dups.find? (fun r => r.is q) = none) (ha : 4 ≤ g.reqAge q) :
    g.dupLookup x q true = ((g.inc F.MAP_DUP_AGED_OUT 1).refuse x q stTIMEOUT, false) := by
  simp only [Gikan.dupLookup, hn, findIdx_of_find?_none hf, ha]; rfl

end

section
variable {g k : Gikan} {x : Nat} {q : Req} {src : From} (hp : g.takePkt x (.req q) = (src, k))
include hp

theorem Gikan.receive_srcBad (hs : k.srcOk x q = false) : g.receive x q q.hdr.type false =
    .done (((k.consumed src x (.req q)).inc (F.LNK_COUNT2_SRC_DROPS x) 1).contained x 0xFF (offOf (F.LNK_COUNT2_SRC_DROPS x))) := by
  simp only [Gikan.receive, hp, hs, bne_self_eq_false, Bool.false_and]; rfl

theorem Gikan.receive_hasp (hs : k.srcOk x q = true) (hh : k.hasp = true) (hf : k.forSelf q = true) :
    g.receive x q q.hdr.type false = .done ((k.consumed src x (.req q)).refuse x q stHASP) := by
  simp only [Gikan.receive, hp, hs, hh, hf, bne_self_eq_false, Bool.false_and]; rfl

theorem Gikan.receive_quar (hs : k.srcOk x q = true) (hh : k.hasp = false) (hq : k.quarBad x q = true) :
    g.receive x q q.hdr.type false = .done ((k.consumed src x (.req q)).refuse x q stQUAR) := by
  simp only [Gikan.receive, hp, hs, hh, hq, bne_self_eq_false, Bool.false_and]; rfl

theorem Gikan.receive_unsup (hs : k.srcOk x q = true) (hh : k.hasp = false) (hq : k.quarBad x q = false) (hu : k.unsup x q false = true) :
    g.receive x q q.hdr.type false = .done ((k.consumed src x (.req q)).refuse x q stUNSUP) := by
  simp only [Gikan.receive, hp, hs, hh, hq, hu, bne_self_eq_false, Bool.false_and]; rfl

end

/-- A request that passes checks 1 to 3 and that its record answers is dealt with by the lookup. -/
theorem Gikan.receive_record {g k h : Gikan} {x : Nat} {q : Req} {src : From} (ha : g.arrives x q src k)
    (hd : k.dupLookup x q (k.forSelf q) = (h, false)) : g.receive x q q.hdr.type false = .done (h.consumed src x (.req q)) := by
  obtain ⟨hp, hs, hh, hq, hu⟩ := ha
  simp only [Gikan.receive, hp, hs, hh, hq, hu, hd, bne_self_eq_false, Bool.false_and]; rfl

/-! Checks 6 to 10 on an extent -/

section
variable {h : Gikan} {x : Nat} {q : Req} {i : Nat} {e : ExtW} (hc : q.hdr.type = tyATOMIC → e.comp = 0)
include hc

theorem Gikan.memRequest_revoked (hr : (h.map.revoked.get? i).isSome = true) : h.memRequest x q i e = h.refuse x q stREVOKED := by
  have hcomp : (q.hdr.type == tyATOMIC && e.comp != 0) = false := by simpa using hc
  simp only [Gikan.memRequest, hcomp, hr, Bool.false_eq_true, if_false, if_true]

variable (hr : h.map.revoked.get? i = none)
include hr

theorem Gikan.memRequest_ward (h7 : h.check7 q e ≠ 0) : h.memRequest x q i e = h.refuseWard x q (h.check7 q e) i := by
  have hcomp : (q.hdr.type == tyATOMIC && e.comp != 0) = false := by simpa using hc
  simp only [Gikan.memRequest, hcomp, hr, h7, Option.isSome_none, Bool.false_eq_true, if_false, ne_eq, not_false_eq_true, if_true]

variable (h7 : h.check7 q e = 0)
include h7

theorem Gikan.memRequest_length (hl : h.memLength q e = false) : h.memRequest x q i e = h.refuse x q stLENGTH := by
  have hcomp : (q.hdr.type == tyATOMIC && e.comp != 0) = false := by simpa using hc
  simp only [Gikan.memRequest, hcomp, hr, h7, hl, Option.isSome_none, Bool.false_eq_true, if_false, ne_eq, not_true_eq_false, Bool.not_false, if_true]

theorem Gikan.memRequest_busy (hl : h.memLength q e = true) {k : Gikan} (h10 : h.check10 q e = (false, k)) :
    h.memRequest x q i e = k.refuse x q stBUSY := by
  have hcomp : (q.hdr.type == tyATOMIC && e.comp != 0) = false := by simpa using hc
  simp only [Gikan.memRequest, hcomp, hr, h7, hl, h10, Option.isSome_none, Bool.false_eq_true, if_false, ne_eq, not_true_eq_false, Bool.not_true,
    Bool.not_false, if_true]

end

/-- A quiesced extent fails check 10 (R78). -/
theorem Gikan.check10_quiesced (h : Gikan) (q : Req) (e : ExtW) (hs : e.seated = true)
    (hm : (h.get F.MAP_QUIESCE_CMPT_MASK).testBit e.cmpt = true) : h.check10 q e = (false, h) := by
  rw [Gikan.check10]
  split
  · rfl
  · rw [hs, hm]; rfl

/-! ## The commands that bring a request -/

/-- A READ, WRITE, ATOMIC or PUBLISH is dealt with by its receipt, or goes on to the checks on its extent. -/
theorem exec_memArrive {s : State} {x : Fin 48} {q : Req} {c : Instr}
    (hc : (c = .read x q ∧ q.hdr.type = tyREAD) ∨ (c = .write x q ∧ q.hdr.type = tyWRITE) ∨ (c = .atomic x q ∧ q.hdr.type = tyATOMIC) ∨
      (c = .publish x q ∧ q.hdr.type = tyPUBLISH)) : exec c s = s.done (s.g.memArrive x q q.hdr.type) := by
  rcases hc with ⟨rfl, ht⟩ | ⟨rfl, ht⟩ | ⟨rfl, ht⟩ | ⟨rfl, ht⟩ <;> rw [ht] <;> rfl

theorem Gikan.memArrive_done {g h : Gikan} {x : Nat} {q : Req} {t : Nat} (hr : g.receive x q t false = .done h) : g.memArrive x q t = h := by
  rw [Gikan.memArrive, hr]

theorem Gikan.memArrive_go {g h : Gikan} {x : Nat} {q : Req} {t i : Nat} {e : ExtW} (hr : g.receive x q t false = .go h i e) :
    g.memArrive x q t = h.memRequest x q i e := by
  rw [Gikan.memArrive, hr]

/-- A non-idempotent request that its record answers. -/
theorem exec_record {s : State} {x : Fin 48} {q : Req} {src : From} {k h : Gikan} {c : Instr}
    (hc : (c = .atomic x q ∧ q.hdr.type = tyATOMIC) ∨ (c = .publish x q ∧ q.hdr.type = tyPUBLISH) ∨ (c = .msg x q ∧ q.hdr.type = tyMSG) ∨
      (c = .contrib x q ∧ q.hdr.type = tyCONTRIB))
    (ha : s.g.arrives x q src k) (hd : k.dupLookup x q (k.forSelf q) = (h, false)) (hi : h.inner = k.inner) :
    exec c s = .next (s.withG (h.consumed src x (.req q))) := by
  have hrec := Gikan.receive_record ha hd
  rcases hc with ⟨rfl, ht⟩ | ⟨rfl, ht⟩ | ⟨rfl, ht⟩ | ⟨rfl, ht⟩ <;> rw [ht] at hrec
  · exact congrArg s.done (Gikan.memArrive_done hrec)
  · exact congrArg s.done (Gikan.memArrive_done hrec)
  · exact congrArg s.done (by rw [Gikan.msgArrive, hrec])
  · refine congrArg s.done ?_
    rw [Gikan.contribArrive, hrec]
    exact Gikan.cohSettle_of_inner ((Gikan.inner_consumed ..).trans (hi.trans (Gikan.inner_takePkt ha.1)))

theorem nonIdem_of_recorded {x : Fin 48} {q : Req} {c : Instr}
    (hc : (c = .atomic x q ∧ q.hdr.type = tyATOMIC) ∨ (c = .publish x q ∧ q.hdr.type = tyPUBLISH) ∨ (c = .msg x q ∧ q.hdr.type = tyMSG) ∨
      (c = .contrib x q ∧ q.hdr.type = tyCONTRIB)) : nonIdem q.hdr.type = true := by
  rcases hc with ⟨-, ht⟩ | ⟨-, ht⟩ | ⟨-, ht⟩ | ⟨-, ht⟩ <;> rw [ht] <;> rfl

/-- Settles O21: the checks are made in the order of `Gikan.receive` and `Gikan.memRequest`, each refusal after the checks before it have passed,
and the record of a non-idempotent request is looked up before its place. -/
theorem admissionAndRecords : Obligations.AdmissionAndRecords := by
  refine ⟨fun s x q c _ hc => ⟨fun src k hp => ?_, fun h i e hr hcomp => ?_⟩, fun s x q src k c hc ha => ?_⟩
  · have hdone : ∀ {h : Gikan}, s.g.receive x q q.hdr.type false = .done h → exec c s = .next (s.withG h) :=
      fun hr => (exec_memArrive hc).trans (congrArg s.done (Gikan.memArrive_done hr))
    exact ⟨fun hs => hdone (Gikan.receive_srcBad hp hs), fun hs hh hf => hdone (Gikan.receive_hasp hp hs hh hf),
      fun hs hh hq => hdone (Gikan.receive_quar hp hs hh hq), fun hs hh hq hu => hdone (Gikan.receive_unsup hp hs hh hq hu)⟩
  · have hgo : ∀ {k : Gikan}, h.memRequest x q i e = k → exec c s = .next (s.withG k) :=
      fun hk => (exec_memArrive hc).trans (congrArg s.done ((Gikan.memArrive_go hr).trans hk))
    exact ⟨fun hrev => hgo (Gikan.memRequest_revoked hcomp hrev), fun hrev h7 => hgo (Gikan.memRequest_ward hcomp hrev h7),
      fun hrev h7 hl => hgo (Gikan.memRequest_length hcomp hrev h7 hl),
      fun hrev h7 hl hs hm => hgo (Gikan.memRequest_busy hcomp hrev h7 hl (h.check10_quiesced q e hs hm)),
      Gikan.mem_of_inner (Gikan.inner_refuse ..)⟩
  · have hn := nonIdem_of_recorded hc
    refine ⟨fun r hf hr => exec_record hc ha (Gikan.dupLookup_pending hn _ hf hr) rfl,
      fun r a b hf hr he => exec_record hc ha (Gikan.dupLookup_complete hn _ hf hr he) (Gikan.inner_answerFrom ..), fun hf hself hage => ?_⟩
    refine exec_record hc ha ?_ ((Gikan.inner_refuse ..).trans (Gikan.inner_inc ..))
    rw [hself]
    exact Gikan.dupLookup_aged hn hf hage

end Sys2Proof.Machine
end

section
namespace Sys2Proof.Machine

/-! ## The Gikan's own requests (R56 to R63) -/

theorem Gikan.csr_takePkt {g k : Gikan} {x : Nat} {p : Packet} {src : From} (h : g.takePkt x p = (src, k)) : k.csr = g.csr := by
  have hk : k = (g.takePkt x p).2 := by rw [h]
  rw [hk]
  unfold Gikan.takePkt; dsimp only
  split
  · split <;> rfl
  · split <;> rfl

theorem Gikan.hasp_of_csr {g h : Gikan} (e : h.csr = g.csr) : h.hasp = g.hasp := by
  simp only [Gikan.hasp, Gikan.phase, Gikan.get, e]

/-! Responses -/

/-- A response for this Gikan, of a type of its own, off a port that takes it, is matched here. -/
theorem Gikan.response_self {g k : Gikan} {x : Nat} {r : Resp} {src : From} (hh : g.hasp = false) (ht : r.type ≠ 0xC0)
    (hp : g.takePkt x (.resp r) = (src, k)) (hs : g.isSelf r.dst = true) (hc : k.codeBad x r = false)
    (hl : x < 32 → k.lnkState x ≠ 6 ∨ r.tc = 0) : g.response x r = g.cohSettle ((k.consumed src x (.resp r)).takeResp r) := by
  have hcsr := Gikan.csr_takePkt hp
  have hkh : k.hasp = false := (Gikan.hasp_of_csr hcsr).trans hh
  have hmap : k.map = g.map := (congrArg Gikan.map (Gikan.inner_takePkt hp) :)
  have hks : k.isSelf r.dst = true := by
    rw [← hs]; simp only [Gikan.isSelf, Gikan.node, Gikan.get, hcsr, hmap]
  have hquar : (decide (x < 32) && k.lnkState x == 6 && r.tc != 0) = false := by
    simp only [Bool.and_eq_false_iff, decide_eq_false_iff_not, beq_eq_false_iff_ne, bne_eq_false_iff_eq, or_assoc]
    exact or_iff_not_imp_left.mpr fun hx => hl (not_not.mp hx)
  simp only [Gikan.response, ht, hp, hkh, hks, hquar, hc, false_and, if_false, Bool.false_eq_true, if_true]

theorem Gikan.takeResp_unmatched {g : Gikan} {r : Resp} (h : ∀ o, g.req.outst.get? r.tag = some o → o.q.hdr.sentTick ≠ r.sentTick) :
    g.takeResp r = g.inc F.MAP_EVENTS2_LATE_DROPS 1 := by
  have hnone : g.answered r = none := by
    rw [Gikan.answered]
    cases hg : g.req.outst.get? r.tag with
    | none => rfl
    | some o => exact if_neg (h o hg)
  rw [Gikan.takeResp, hnone]

/-- A response that matches, to a request that no engine port sent. -/
theorem Gikan.takeResp_matched {g : Gikan} {r : Resp} {o : OutReq} (h : g.req.outst.get? r.tag = some o) (ht : o.q.hdr.sentTick = r.sentTick)
    (hp : o.port < 40 ∨ 45 < o.port) : g.takeResp r = g.endRequest r.tag o (respCode o r) r.payload (r.retry == 1) := by
  have hans : g.answered r = some o := by simp only [Gikan.answered, h, ht, if_true]
  have hport : ¬(40 ≤ o.port ∧ o.port ≤ 45) := by omega
  simp only [Gikan.takeResp, hans, if_neg hport]

/-! Resends and time-outs -/

theorem Gikan.requestResend_due {g : Gikan} {tag n : Nat} {o : OutReq} (hh : g.hasp = false) (ho : g.req.outst.get? tag = some o)
    (hn : (resendTicks o.q.hdr.type)[o.resends]? = some n) (h1 : n ≤ g.ticksOut o) (h2 : g.ticksOut o < timeoutTick o.q.hdr.type)
    (h3 : nonIdem o.q.hdr.type = true → g.sentAge o.q ≤ 3) : g.requestResend tag = g.resend tag := by
  have hage : (nonIdem o.q.hdr.type && decide (3 < g.sentAge o.q)) = false := by
    simp only [Bool.and_eq_false_imp, decide_eq_false_iff_not, Nat.not_lt]
    exact h3
  simp only [Gikan.requestResend, ho, hn, hh, h1, h2, hage, and_self, decide_true, Bool.not_false, Bool.and_self, if_true]

theorem Gikan.requestResend_early {g : Gikan} {tag n : Nat} {o : OutReq} (ho : g.req.outst.get? tag = some o)
    (hn : (resendTicks o.q.hdr.type)[o.resends]? = some n) (h1 : g.ticksOut o < n) : g.requestResend tag = g := by
  have hdue : ¬(n ≤ g.ticksOut o ∧ g.ticksOut o < timeoutTick o.q.hdr.type) := by omega
  simp only [Gikan.requestResend, ho, hn, hdue, decide_false, Bool.and_false, Bool.false_and, Bool.false_eq_true, if_false]

theorem Gikan.requestTimeout_due {g : Gikan} {tag : Nat} {o : OutReq} (hh : g.hasp = false) (ho : g.req.outst.get? tag = some o)
    (hc : isCtlType o.q.hdr.type = false) (h : timeoutTick o.q.hdr.type ≤ g.ticksOut o) :
    g.requestTimeout tag = g.cohSettle (g.endRequest tag o stTIMEOUT [] false) := by
  simp only [Gikan.requestTimeout, ho, hh, hc, h, decide_true, Bool.not_false, Bool.and_self, if_true]

theorem Gikan.requestTimeout_early {g : Gikan} {tag : Nat} {o : OutReq} (ho : g.req.outst.get? tag = some o)
    (h : g.ticksOut o < timeoutTick o.q.hdr.type) : g.requestTimeout tag = g := by
  simp only [Gikan.requestTimeout, ho, Nat.not_le.mpr h, decide_false, Bool.and_false, Bool.false_eq_true, if_false]

/-! Sent again after BUSY_RETRY -/

section
variable {g : Gikan} {n : Nat} {a : Again} (ha : g.req.again[n]? = some a)
include ha

theorem Gikan.busyResend_early (h : g.time < a.due) : g.busyResend n = g := by
  simp only [Gikan.busyResend, ha, h, true_or, if_true]

variable (hh : g.hasp = false) (hd : a.due ≤ g.time) {k : Gikan} (hk : k = { g with req := { g.req with again := g.req.again.eraseIdx n } })
include hh hd hk

theorem Gikan.busyResend_unwanted (hw : k.stillWanted a.consumer = false) : g.busyResend n = k := by
  have hgo : ¬(g.time < a.due ∨ g.hasp = true) := by rw [hh]; simpa using hd
  subst hk
  simp only [Gikan.busyResend, ha, if_neg hgo, hw, Bool.not_false, if_true]

variable (hw : k.stillWanted a.consumer = true)
include hw

theorem Gikan.busyResend_pin {core t id : Nat} (hc : a.consumer = .pin core t id) : g.busyResend n = g.cohSettle (k.pinAgain core t id a.q) := by
  have hgo : ¬(g.time < a.due ∨ g.hasp = true) := by rw [hh]; simpa using hd
  subst hk
  rw [hc] at hw
  simp only [Gikan.busyResend, ha, if_neg hgo, hw, hc, Bool.not_true, Bool.false_eq_true, if_false]

theorem Gikan.busyResend_command {kw idx : Nat} (hc : a.consumer = .command kw idx) :
    g.busyResend n = (k.issue a.port a.q a.consumer).commandRepeat kw idx a := by
  have hgo : ¬(g.time < a.due ∨ g.hasp = true) := by rw [hh]; simpa using hd
  subst hk
  rw [hc] at hw
  simp only [Gikan.busyResend, ha, if_neg hgo, hw, hc, Bool.not_true, Bool.false_eq_true, if_false]

theorem Gikan.busyResend_other (hpin : ∀ c t i, a.consumer ≠ .pin c t i) (hcmd : ∀ kw i, a.consumer ≠ .command kw i) :
    g.busyResend n = k.issue a.port a.q a.consumer := by
  have hgo : ¬(g.time < a.due ∨ g.hasp = true) := by rw [hh]; simpa using hd
  subst hk
  cases hc : a.consumer with
  | pin c t i => exact absurd hc (hpin c t i)
  | command kw i => exact absurd hc (hcmd kw i)
  | _ =>
    rw [hc] at hw
    simp only [Gikan.busyResend, ha, if_neg hgo, hw, hc, Bool.not_true, Bool.false_eq_true, if_false]

end

/-! Waiting for a tag -/

/-- Taking a tag uses up a free value, and changes nothing else. -/
theorem Gikan.takeTag_state {g k : Gikan} {tag : Nat} (h : g.takeTag = some (tag, k)) : k = g.next.2 := by
  unfold Gikan.takeTag at h
  dsimp only at h
  generalize (List.range 65536).filter g.tagFree = free at h
  cases free with
  | nil => cases h
  | cons t ts =>
    simp only [Option.some.injEq, Prod.mk.injEq] at h
    exact h.2.symm

@[simp] theorem Gikan.inner_sendOwn (g : Gikan) (x : Nat) (q : Req) : (g.sendOwn x q).inner = g.inner := by
  have hout : ∀ (b c : Bool) (e : Nat ⊕ Nat) (r1 r2 : Packet) (r3 : Nat → Packet),
      (if b = true then g.toInbox x r1 else if c = true then g.toInbox x r2
        else match e with | .inl p => g.enqueue x p (.req q) | .inr st => g.toInbox x (r3 st)).inner = g.inner := by
    intro b c e r1 r2 r3
    split
    · rfl
    · split
      · rfl
      · cases e with
        | inl p => exact Gikan.inner_enqueue ..
        | inr st => rfl
  unfold Gikan.sendOwn; dsimp only
  split
  · split
    · exact hout ..
    · rfl
  · split
    · rfl
    · split
      · exact hout ..
      · rfl

/-- A request's first send keeps it under its tag, with SRC, EPOCH, TAG and SENT_TICK filled in. -/
theorem Gikan.req_sendFirst (g : Gikan) (x : Nat) (q : Req) (c : Consumer) (tag : Nat) : (g.sendFirst x q c tag).req =
    { g.req with
      outst := g.req.outst.put tag ⟨g.stampHdr q tag, x, c, g.time, g.time, g.get F.TICK_PERIOD_PERIOD_US, 0⟩,
      lastUse := g.req.lastUse.put tag g.tickNo } :=
  Gikan.req_of_inner (Gikan.inner_sendOwn ..)

theorem Gikan.issueWaiting_cons {g k : Gikan} {w : TagWait} {ws : List TagWait} {tag : Nat} (hw : g.req.waiting = w :: ws)
    (ht : g.takeTag = some (tag, k)) :
    g.issueWaiting = ({ k with req := { k.req with waiting := ws } }).sendFirst w.port w.q w.consumer tag := by
  simp only [Gikan.issueWaiting, hw, ht]

/-- Settles O23: each command is the case of its function that its premises choose; a request that waited keeps the tag it was given, for its
sending changes registers, crossbar and links alone (`Gikan.inner_sendOwn`). -/
theorem requesterRules : Obligations.RequesterRules := by
  intro s hh
  refine ⟨?_, fun g tag u => ⟨Tbl.get?_del_same .., rfl, rfl⟩, fun tag o n ho hn => ⟨fun h1 h2 h3 => ?_, fun h1 => ?_⟩,
    fun tag o ho hc => ⟨fun h => ?_, fun h => ?_⟩, ?_, fun w ws tag k hw ht => ?_⟩
  · intro x r src k ht hp hs hc hl h
    have hexec : exec (.response x r) s = .next (s.withG (s.g.cohSettle (h.takeResp r))) :=
      congrArg s.done (Gikan.response_self hh ht hp hs hc hl)
    refine ⟨hexec, fun hno => ?_, fun o ho hsent hport => Gikan.takeResp_matched ho hsent hport⟩
    rw [hexec, Gikan.takeResp_unmatched hno]
    exact congrArg s.done (Gikan.cohSettle_of_inner ((Gikan.inner_consumed ..).trans (Gikan.inner_takePkt hp)))
  · refine congrArg s.done ((Gikan.requestResend_due hh ho hn h1 h2 h3).trans ?_)
    simp only [Gikan.resend, ho]
  · exact congrArg s.done (Gikan.requestResend_early ho hn h1)
  · exact congrArg s.done (Gikan.requestTimeout_due hh ho hc h)
  · exact congrArg s.done (Gikan.requestTimeout_early ho h)
  · intro n a ha h
    refine ⟨fun hd => congrArg s.done (Gikan.busyResend_early ha hd), fun hd => ?_⟩
    refine ⟨fun hw => congrArg s.done (Gikan.busyResend_unwanted ha hh hd rfl hw),
      fun hw => ⟨fun c t i hc => ?_, fun kw i hc => ?_, fun hpin hcmd => ?_⟩⟩
    · exact congrArg s.done (Gikan.busyResend_pin ha hh hd rfl hw hc)
    · exact congrArg s.done (Gikan.busyResend_command ha hh hd rfl hw hc)
    · exact congrArg s.done (Gikan.busyResend_other ha hh hd rfl hw hpin hcmd)
  · obtain rfl := Gikan.takeTag_state ht
    have hexec : exec .tagWaitIssue s = s.done s.g.issueWaiting := congrArg s.done (by rw [Gikan.tagWaitIssue, hh]; rfl)
    rw [hexec, Gikan.issueWaiting_cons hw ht]
    have hreq := Gikan.req_sendFirst { s.g.next.2 with req := { s.g.next.2.req with waiting := ws } } w.port w.q w.consumer tag
    have hget := (congrArg (fun r : ReqSt => r.outst.get? tag) hreq).trans (Tbl.get?_put_same ..)
    exact ⟨_, rfl, congrArg ReqSt.waiting hreq, _, hget, rfl, rfl, rfl, rfl, rfl, rfl, rfl, rfl⟩

end Sys2Proof.Machine
end

section
namespace Sys2Proof.Machine

/-! ## Landing zones (R253, R254) -/

/-- One byte of a write into a zone. -/
def Zone.putByte (off : Nat) (y : Zone) (d : Byte × Nat) : Zone :=
  { y with bytes := y.bytes.setD (off + d.2) 0 d.1, have_ := y.have_.put (off + d.2) true }

theorem Zone.write_eq (x : Zone) (off : Nat) (data : List Byte) : x.write off data = (data.zipIdx).foldl (Zone.putByte off) x := rfl

/-- The bytes of a zone once those from place `k` of a write on have been put. -/
theorem Zone.bytes_foldl_putByte (off : Nat) (b : List Byte) (k : Nat) (x : Zone) (i : Nat) :
    ((b.zipIdx k).foldl (Zone.putByte off) x).bytes.getD i 0 =
      if off + k ≤ i ∧ i < off + k + b.length then b.getD (i - (off + k)) 0 else x.bytes.getD i 0 := by
  induction b generalizing k x with
  | nil =>
    rw [List.zipIdx_nil, List.foldl_nil, List.length_nil, if_neg (by omega)]
  | cons a b ih =>
    rw [List.zipIdx_cons, List.foldl_cons, ih, List.length_cons]
    rcases lt_trichotomy i (off + k) with hlt | rfl | hgt
    · rw [if_neg (by omega), if_neg (by omega)]
      exact Tbl.getD_setD_ne _ _ _ _ (Nat.ne_of_lt hlt)
    · rw [if_neg (by omega), if_pos (by omega), Nat.sub_self]
      exact Tbl.getD_setD_same ..
    · obtain ⟨j, rfl⟩ : ∃ j, i = off + (k + 1) + j := ⟨i - (off + (k + 1)), by omega⟩
      rw [Nat.add_sub_cancel_left, show off + (k + 1) + j - (off + k) = j + 1 by omega, List.getD_cons_succ]
      refine if_congr (by omega) rfl ?_
      exact Tbl.getD_setD_ne _ _ _ _ (Nat.ne_of_gt hgt)

/-- A write puts its bytes at its offset and leaves every other. -/
theorem Zone.bytes_write (x : Zone) (o : Nat) (b : List Byte) (i : Nat) :
    (x.write o b).bytes.getD i 0 = if o ≤ i ∧ i < o + b.length then b.getD (i - o) 0 else x.bytes.getD i 0 := by
  rw [Zone.write_eq]
  exact Zone.bytes_foldl_putByte o b 0 x i

theorem Gikan.cohSettle_setZone (g : Gikan) (kw z : Nat) (o : Option Zone) : g.cohSettle (g.setZone kw z o) = g.setZone kw z o :=
  Gikan.cohSettle_same _ _ rfl rfl rfl

theorem Gikan.cohSettle_setZone_inc (g : Gikan) (kw z : Nat) (o : Option Zone) (f : Fld) (k : Nat) :
    g.cohSettle ((g.setZone kw z o).inc f k) = (g.setZone kw z o).inc f k :=
  Gikan.cohSettle_same _ _ rfl rfl rfl

/-! A zone after a write -/

section
variable (g : Gikan) (kw z : Nat) {x : Zone}

theorem Gikan.zoneNext_headless (hl : x.len = none) (h8 : x.has 8 = false) : g.zoneNext kw z x = g.setZone kw z (some x) := by
  simp only [Gikan.zoneNext, hl, h8, Bool.false_eq_true, if_false]

variable {n : Nat} (hl : x.len = some n ∨ (x.len = none ∧ x.has 8 = true ∧ n = field (x.packet 8) 4 2))
include hl

/-- What a zone whose packet's length is known comes to. -/
theorem Gikan.zoneNext_of_len : g.zoneNext kw z x =
    if n % 8 ≠ 0 ∨ n < 32 ∨ 4096 < n then (g.setZone kw z none).inc F.SUB_KW_EVENTS_BAD_LENGTH 1
    else if !x.has n then g.setZone kw z (some { x with len := some n })
    else if g.kwRoom kw then (g.setZone kw z none).accept kw (x.packet n) none
    else g.setZone kw z (some { x with len := some n, held := true }) := by
  rcases hl with hl | ⟨hl, h8, rfl⟩
  · simp only [Gikan.zoneNext, hl]
  · simp only [Gikan.zoneNext, hl, h8, if_true]

theorem Gikan.zoneNext_badLength (hn : n % 8 ≠ 0 ∨ n < 32 ∨ 4096 < n) :
    g.zoneNext kw z x = (g.setZone kw z none).inc F.SUB_KW_EVENTS_BAD_LENGTH 1 := by
  rw [Gikan.zoneNext_of_len g kw z hl, if_pos hn]

variable (h8 : n % 8 = 0) (hlo : 32 ≤ n) (hhi : n ≤ 4096)
include h8 hlo hhi

theorem Gikan.zoneNext_filling (hh : x.has n = false) : g.zoneNext kw z x = g.setZone kw z (some { x with len := some n }) := by
  rw [Gikan.zoneNext_of_len g kw z hl, if_neg (by omega), hh, if_pos (by decide)]

theorem Gikan.zoneNext_accepted (hh : x.has n = true) (hr : g.kwRoom kw = true) :
    g.zoneNext kw z x = (g.setZone kw z none).accept kw (x.packet n) none := by
  rw [Gikan.zoneNext_of_len g kw z hl, if_neg (by omega), hh, if_neg (by decide), if_pos hr]

theorem Gikan.zoneNext_held (hh : x.has n = true) (hr : g.kwRoom kw = false) :
    g.zoneNext kw z x = g.setZone kw z (some { x with len := some n, held := true }) := by
  rw [Gikan.zoneNext_of_len g kw z hl, if_neg (by omega), hh, if_neg (by decide), hr, if_neg (by decide)]

end

/-! Writes into BAR2 -/

theorem Gikan.keywayWrite_outside (g : Gikan) (b : Bus) {off width : Nat} (data : Nat)
    (h : (width ≠ 4 ∧ width ≠ 8) ∨ off % width ≠ 0 ∨ 0x8000 ≤ off % 0x10000) : g.keywayWrite b off width data = g := by
  refine if_pos ?_
  simp only [Bool.not_eq_true', decide_eq_false_iff_not, not_or]
  tauto

/-- A write that reaches a landing zone. -/
theorem Gikan.keywayWrite_zone (g : Gikan) {b : Bus} {off width : Nat} (data : Nat) (hb : b ≠ .i3c) (hh : g.hasp = false) (hp : 1 < g.phase)
    (hw : width = 4 ∨ width = 8) (ha : off % width = 0) (hoff : off < 0x100000) (ho : off % 0x10000 < 0x8000) {x : Zone}
    (hx : x = ((g.kway (off / 0x10000)).zones.get? (off % 0x10000 / 4096)).getD (Zone.empty g.now)) :
    g.keywayWrite b off width data =
      if g.scrubbing (off / 0x10000) then g.inc F.SEC_SCRUB_COUNTS_WRITES_DROPPED 1
      else if x.held then g.inc F.SUB_KW_EVENTS_OVERWRITES 1
      else g.cohSettle (g.zoneNext (off / 0x10000) (off % 0x10000 / 4096) (x.write (off % 0x10000 % 4096) (leBytes width data))) := by
  subst hx
  refine if_neg ?_
  simp only [Bool.not_eq_true', decide_eq_false_iff_not, hb, hh, hw, ha, Bool.false_eq_true, ne_eq, not_true_eq_false, false_or]
  omega

/-! Held zones and their timeout -/

section
variable {g : Gikan} {kw z : Nat} {x : Zone} (hx : (g.kway kw).zones.get? z = some x)
include hx

theorem Gikan.heldZone_waits (h : x.held = false ∨ g.kwRoom kw = false) : g.heldZone kw z = g := by
  have hno : (x.held && g.kwRoom kw && !g.hasp) = false := by
    rcases h with h | h <;> simp only [h, Bool.false_and, Bool.and_false]
  simp only [Gikan.heldZone, hx, hno, Bool.false_eq_true, if_false]

theorem Gikan.heldZone_accepted (hh : x.held = true) (hr : g.kwRoom kw = true) (hs : g.hasp = false) {h : Gikan}
    (e : h = (g.setZone kw z none).accept kw (x.packet (x.len.getD 0)) none) :
    g.heldZone kw z = g.cohSettle (if g.scrubbing kw then h.scrubCmd kw (g.kway kw).next else h) := by
  subst e
  simp only [Gikan.heldZone, hx, hh, hr, hs, Bool.not_false, Bool.and_self, if_true]

theorem Gikan.zoneTimeout_early (h : x.held = true ∨ g.now < x.since + 1000 * max 10 (g.get F.SUB_CTRL_ZONE_TIMEOUT_US)) :
    g.zoneTimeout kw z = g := by
  simp only [Gikan.zoneTimeout, hx, Bool.or_eq_true, decide_eq_true_eq, if_pos h]

theorem Gikan.zoneTimeout_due (hh : x.held = false) (h : x.since + 1000 * max 10 (g.get F.SUB_CTRL_ZONE_TIMEOUT_US) ≤ g.now) :
    g.zoneTimeout kw z = (g.setZone kw z none).inc F.SUB_KW_EVENTS_ABANDONED 1 := by
  simp only [Gikan.zoneTimeout, hx, hh, Bool.false_or, decide_eq_true_eq, if_neg (Nat.not_lt.mpr h)]

end

theorem exec_zoneTimeout {s : State} (c : Fin 16) (z : Fin 8) (hh : s.g.hasp = false) : exec (.zoneTimeout c z) s = s.done (s.g.zoneTimeout c z) :=
  congrArg s.done (by rw [Gikan.live, hh]; rfl)

/-- Settles O41: a write into BAR2 changes nothing, is dropped and counted, or leaves its zone as `Gikan.zoneNext` has it, case by case; no case but
the acceptance of a packet wants a line or a granule, so each of the others is settled as it is. -/
theorem landingZones : Obligations.LandingZones := by
  intro s
  refine ⟨?_, Zone.bytes_write, fun c z x hx => ⟨fun h => ?_, fun hh hr hs => ?_, fun hs => ⟨fun h => ?_, fun hh h => ?_⟩⟩⟩
  · intro bus off width data kw o z x y
    refine ⟨fun h => congrArg s.done (Gikan.keywayWrite_outside s.g bus _ h), fun hb hh hp hw ha hoff ho => ?_⟩
    have hexec : exec (.keywayWrite bus off width data) s = s.done (if s.g.scrubbing kw then s.g.inc F.SEC_SCRUB_COUNTS_WRITES_DROPPED 1
        else if x.held then s.g.inc F.SUB_KW_EVENTS_OVERWRITES 1 else s.g.cohSettle (s.g.zoneNext kw z y)) :=
      congrArg s.done (Gikan.keywayWrite_zone s.g _ hb hh hp hw ha hoff ho rfl)
    rw [hexec]
    refine ⟨fun hs => by rw [hs]; rfl, fun hs => ⟨fun hx => by rw [hs, hx]; rfl, fun hx => ?_⟩⟩
    rw [hs, hx, if_neg Bool.false_ne_true, if_neg Bool.false_ne_true]
    refine ⟨fun hl h8 => ?_, fun n hl => ⟨fun hn => ?_, fun h8 hlo hhi => ⟨fun hn => ?_, fun hn hr => ?_, fun hn hr => ?_⟩⟩⟩
    · rw [Gikan.zoneNext_headless _ _ _ hl h8, Gikan.cohSettle_setZone]; rfl
    · rw [Gikan.zoneNext_badLength _ _ _ hl hn, Gikan.cohSettle_setZone_inc]; rfl
    · rw [Gikan.zoneNext_filling _ _ _ hl h8 hlo hhi hn, Gikan.cohSettle_setZone]; rfl
    · rw [Gikan.zoneNext_accepted _ _ _ hl h8 hlo hhi hn hr]; rfl
    · rw [Gikan.zoneNext_held _ _ _ hl h8 hlo hhi hn hr, Gikan.cohSettle_setZone]; rfl
  · exact congrArg s.done (Gikan.heldZone_waits hx h)
  · exact congrArg s.done (Gikan.heldZone_accepted hx hh hr hs rfl)
  · rw [exec_zoneTimeout c z hs]
    exact congrArg s.done (Gikan.zoneTimeout_early hx h)
  · rw [exec_zoneTimeout c z hs]
    exact congrArg s.done (Gikan.zoneTimeout_due hx hh h)

end Sys2Proof.Machine
end

section
namespace Sys2Proof.Machine

/-! ## Steps and the passing of time (R6, R17, R18) -/

/-- Whole nanoseconds of a step of time: what was left over, 1 ns and the slew. -/
theorem Gikan.time_passNs (g : Gikan) :
    g.passNs.time = (g.time + ((g.tick.sub : Int) + 1000000 + g.tick.slew).toNat / 1000000) % 2 ^ 64 := Gikan.get_set_same ..

theorem Gikan.sub_passNs (g : Gikan) : g.passNs.tick.sub = ((g.tick.sub : Int) + 1000000 + g.tick.slew).toNat % 1000000 := rfl

theorem Gikan.get_passNs_ne (g : Gikan) (f : Fld) (hf : f.key ≠ F.TICK_TIME_TIME_NS.key) : g.passNs.get f = g.get f :=
  Gikan.get_set_ne g _ f _ hf

theorem step_idle {s : State} (h : s.pending = []) : step s = .next s.idle := by rw [step, h]

/-- Settles O7: a step unfolds to its command (`exec_eq_done`) or to `passNs`, whose sum of time stays below 3 ns and 2^64. -/
theorem stepRunsFront : Obligations.StepRunsFront := by
  refine ⟨fun _ _ => rfl, exec_eq_done, fun s hp hsub hlo hhi htime => ⟨s.idle, step_idle hp, hp, rfl, ?_, ?_, ?_, rfl, rfl⟩⟩
  · exact Nat.mod_lt _ (by decide)
  · have ht : s.idle.g.time = _ := Gikan.time_passNs s.g
    have hs : s.idle.g.tick.sub = _ := Gikan.sub_passNs s.g
    rw [ht, hs]
    omega
  · exact Gikan.get_passNs_ne s.g

/-! ## Starting ticks (R20) -/

/-! Setting fabric time -/

theorem Gikan.csr_setStamp (g : Gikan) (v : Nat) : (g.setStamp v).csr = (g.set F.TICK_TIME_TIME_NS (v / 256)).csr := rfl

theorem Gikan.time_setStamp (g : Gikan) (v : Nat) : (g.setStamp (256 * v)).time = v % 2 ^ 64 := by
  rw [Gikan.time, Gikan.get_of_csr (g.csr_setStamp _), Gikan.get_set_same, Nat.mul_div_cancel_left v (by decide)]
  rfl

theorem Gikan.get_setStamp_ne (g : Gikan) (v : Nat) (f : Fld) (hf : f.key ≠ F.TICK_TIME_TIME_NS.key) : (g.setStamp v).get f = g.get f :=
  (Gikan.get_of_csr (g.csr_setStamp v) f).trans (Gikan.get_set_ne g _ f _ hf)

/-! Ticks that run -/

section
variable (g : Gikan) (n b0 b per : Nat)

theorem Gikan.get_runTicks (f : Fld) : (g.runTicks n b0 b per).get f =
    (((g.set F.TICK_STATUS_RUNNING 1).set F.TICK_COUNT_TICK n).set F.TICK_PERIOD_PERIOD_US per).get f := rfl

theorem Gikan.get_runTicks_ne (f : Fld) (hf : ∀ e ∈ [F.TICK_STATUS_RUNNING, F.TICK_COUNT_TICK, F.TICK_PERIOD_PERIOD_US], f.key ≠ e.key) :
    (g.runTicks n b0 b per).get f = g.get f := by
  simp only [List.forall_mem_cons] at hf
  obtain ⟨hrun, hcount, hper, -⟩ := hf
  rw [Gikan.get_runTicks, Gikan.get_set_ne _ _ _ _ hper, Gikan.get_set_ne _ _ _ _ hcount, Gikan.get_set_ne _ _ _ _ hrun]

theorem Gikan.running_runTicks : (g.runTicks n b0 b per).running = true := by
  rw [Gikan.running, Gikan.on, Gikan.get_runTicks, Gikan.get_set_ne _ _ _ _ (by decide), Gikan.get_set_ne _ _ _ _ (by decide),
    Gikan.get_set_same]
  rfl

theorem Gikan.tickNo_runTicks : (g.runTicks n b0 b per).tickNo = n % 2 ^ 64 := by
  rw [Gikan.tickNo, Gikan.get_runTicks, Gikan.get_set_ne _ _ _ _ (by decide), Gikan.get_set_same]
  rfl

theorem Gikan.period_runTicks : (g.runTicks n b0 b per).get F.TICK_PERIOD_PERIOD_US = per % 128 := Gikan.get_set_same ..

end

/-- Fabric time as the master's first edge sets it: to TICK_TIME_SET, where that was written. -/
def Gikan.timeTaken (g : Gikan) : Gikan :=
  match g.tick.timeSet with
  | some v => g.setStamp (256 * v)
  | none => g

theorem Gikan.timeTaken_of_some {g : Gikan} {v : Nat} (h : g.tick.timeSet = some v) : g.timeTaken = g.setStamp (256 * v) := by
  rw [Gikan.timeTaken, h]

/-- The master starts ticks at the time so set, with tick 0 and the period of NEXT_US. -/
theorem Gikan.masterTickStart_due {g : Gikan} (hrun : g.on F.TICK_CTRL_RUN = true) (hm : g.on F.TICK_CTRL_MASTER = true)
    (hn : g.running = false) : ∃ k : Gikan, g.masterTickStart = k.runTicks 0 0 k.time (k.get F.TICK_PERIOD_NEXT_US) ∧
      k.csr = g.timeTaken.csr ∧ k.tick.timeSet = none ∧ k.mem = g.timeTaken.mem := by
  refine ⟨{ g.timeTaken with tick := { g.timeTaken.tick with
    timeSet := none, refNext := some (g.timeTaken.tick.refNext.getD (g.timeTaken.refCeil g.timeTaken.time)) } }, ?_, rfl, rfl, rfl⟩
  unfold Gikan.masterTickStart
  rw [hrun, hm, hn]
  rfl

/-- What the master's ticks start with. -/
theorem Gikan.masterTickStart_starts {g : Gikan} {v : Nat} (hrun : g.on F.TICK_CTRL_RUN = true) (hm : g.on F.TICK_CTRL_MASTER = true)
    (hn : g.running = false) (hv : v < 2 ^ 64) (hs : g.tick.timeSet = some v) :
    g.masterTickStart.time = v ∧ g.masterTickStart.running = true ∧ g.masterTickStart.tickNo = 0 ∧ g.masterTickStart.tick.base = v ∧
      g.masterTickStart.tick.baseTick = 0 ∧ g.masterTickStart.get F.TICK_PERIOD_PERIOD_US = g.get F.TICK_PERIOD_NEXT_US % 128 ∧
      g.masterTickStart.tick.timeSet = none ∧ g.masterTickStart.mem = g.mem := by
  obtain ⟨k, h, hcsr, hset, hmem⟩ := Gikan.masterTickStart_due hrun hm hn
  rw [Gikan.timeTaken_of_some hs] at hcsr hmem
  have htime : k.time = v := (Gikan.get_of_csr hcsr _).trans ((g.time_setStamp v).trans (Nat.mod_eq_of_lt hv))
  have hnext : k.get F.TICK_PERIOD_NEXT_US = g.get F.TICK_PERIOD_NEXT_US :=
    (Gikan.get_of_csr hcsr _).trans (g.get_setStamp_ne (256 * v) _ (by decide))
  rw [h]
  refine ⟨?_, Gikan.running_runTicks .., (Gikan.tickNo_runTicks ..).trans (Nat.zero_mod _), htime, rfl, ?_, hset, hmem⟩
  · exact (Gikan.get_runTicks_ne _ _ _ _ _ _ (by decide)).trans htime
  · rw [Gikan.period_runTicks, hnext]

/-- A child's ticks start at its boundary with its parent's schedule as it stands there. -/
theorem Gikan.tickStart_due {g : Gikan} {b n : Nat} {p : ParentSched} (hc : g.isChild = true) (hn : g.running = false)
    (ha : g.tick.startAt = some (b, n)) (hp : g.tick.parent = some p) (hb : b ≤ g.time) :
    g.tickStart = (g.armAs (p.inForce b)).runTicks n (p.inForce b).baseTick (p.inForce b).baseNs (p.inForce b).periodUs := by
  simp only [Gikan.tickStart, ha, hp, hc, hn, hb, decide_true]
  rfl

theorem Gikan.tickStart_early {g : Gikan} {b n : Nat} (ha : g.tick.startAt = some (b, n)) (hb : g.time < b) : g.tickStart = g := by
  unfold Gikan.tickStart
  rw [ha]
  split
  case h_1 heq _ =>
    obtain ⟨rfl, rfl⟩ := Prod.mk.inj (Option.some.inj heq)
    rw [decide_eq_false (Nat.not_le.mpr hb), Bool.and_false]
    rfl
  case h_2 => rfl

theorem Gikan.tickStart_starts {g : Gikan} {b n : Nat} {p0 : ParentSched} (hc : g.isChild = true) (hn : g.running = false)
    (ha : g.tick.startAt = some (b, n)) (hp : g.tick.parent = some p0) (hb : b ≤ g.time) :
    let p := p0.inForce b
    g.tickStart.running = true ∧ g.tickStart.tickNo = n % 2 ^ 64 ∧ g.tickStart.tick.base = p.baseNs ∧ g.tickStart.tick.baseTick = p.baseTick ∧
      g.tickStart.get F.TICK_PERIOD_PERIOD_US = p.periodUs % 128 ∧ g.tickStart.get F.TICK_SWITCH_SWITCH_AT = p.switchAt % 2 ^ 64 ∧
      g.tickStart.time = g.time ∧ g.tickStart.mem = g.mem := by
  intro p
  rw [Gikan.tickStart_due hc hn ha hp hb]
  refine ⟨Gikan.running_runTicks .., Gikan.tickNo_runTicks .., rfl, rfl, Gikan.period_runTicks .., ?_, ?_, rfl⟩
  · rw [Gikan.get_runTicks_ne _ _ _ _ _ _ (by decide), Gikan.armAs, Gikan.get_set_ne _ _ _ _ (by decide), Gikan.get_set_same]
    rfl
  · rw [Gikan.time, Gikan.get_runTicks_ne _ _ _ _ _ _ (by decide), Gikan.armAs, Gikan.get_set_ne _ _ _ _ (by decide),
      Gikan.get_set_ne _ _ _ _ (by decide)]
    rfl

/-! A write of RUN -/

/-- A write of TICK_CTRL leaves the slew or lets a master run free. -/
theorem Gikan.runFree_cases (g : Gikan) (was : Bool) :
    g.runFree was = g ∨ g.runFree was = { g with tick := { g.tick with slew := 0 } } := by
  unfold Gikan.runFree
  split
  · exact .inr rfl
  · exact .inl rfl

theorem Gikan.tick_of_body {g h : Gikan} (e : h.body = g.body) : h.tick = g.tick := (congrArg Gikan.tick e :)

theorem Gikan.tick_runFree (g : Gikan) (was : Bool) :
    ∃ v, (g.runFree was).tick = { g.tick with slew := v } ∧ (v = g.tick.slew ∨ v = 0) := by
  rcases g.runFree_cases was with h | h <;> rw [h]
  · exact ⟨_, rfl, .inl rfl⟩
  · exact ⟨_, rfl, .inr rfl⟩

theorem Gikan.get_runFree (g : Gikan) (was : Bool) (f : Fld) : (g.runFree was).get f = g.get f := by
  rcases g.runFree_cases was with h | h <;> rw [h]; rfl

theorem Gikan.mem_runFree (g : Gikan) (was : Bool) : (g.runFree was).mem = g.mem := by
  rcases g.runFree_cases was with h | h <;> rw [h]

/-- The counters of the tick block (R4). -/
def tickCounters : List Fld :=
  [F.TICK_EVENTS_SPLIT_ENTRIES, F.TICK_EVENTS_SWITCH_REFUSALS, F.TICK_EVENTS_REF_MISSED, F.TICK_EVENTS_BIG_ADMITS] ++
    (List.range 6).flatMap (fun i => [F.TICK_OVR_OVERRUNS i, F.TICK_OVR_LONG_OVERRUNS i])

/-- TICK_CTRL under a write that sets RUN, but for RUN and the counters. -/
def Gikan.tickCtrlPut (g : Gikan) (w : RegW) : Gikan :=
  (g.putFields w (offOf F.TICK_CTRL_RUN) [F.TICK_CTRL_MASTER, F.TICK_CTRL_REF_EN, F.TICK_CTRL_SERVO_FREEZE, F.TICK_CTRL_ADMIT_FREEZE]).runFree
    (g.on F.TICK_CTRL_MASTER)

theorem Gikan.wrTickCtrl_run (g : Gikan) {w : RegW} (h : wrOne w F.TICK_CTRL_RUN = true) : ∃ cs, (cs = [] ∨ cs = tickCounters) ∧
    g.wrTickCtrl w = ((g.tickCtrlPut w).set F.TICK_CTRL_RUN 1).clear cs := by
  rw [Gikan.wrTickCtrl, if_pos h, Gikan.clear_clear]
  split
  · exact ⟨_, .inr rfl, rfl⟩
  · exact ⟨[], .inl rfl, rfl⟩

/-- A write of RUN sets it, and leaves the tick but for the slew, memory, and every register but its own and the counters. -/
theorem Gikan.wrTickCtrl_run_sets (g : Gikan) {w : RegW} (h : wrOne w F.TICK_CTRL_RUN = true) :
    (g.wrTickCtrl w).get F.TICK_CTRL_RUN = 1 ∧ (g.wrTickCtrl w).mem = g.mem ∧
      (∃ v, (g.wrTickCtrl w).tick = { g.tick with slew := v } ∧ (v = g.tick.slew ∨ v = 0)) ∧
      ∀ f, offOf f ≠ offOf F.TICK_CTRL_RUN → g.regsBut (g.wrTickCtrl w) f tickCounters := by
  obtain ⟨cs, hcs, heq⟩ := g.wrTickCtrl_run h
  have hsub : ∀ c ∈ cs, c ∈ tickCounters := by rcases hcs with rfl | rfl <;> simp
  have hplace : ∀ e ∈ [F.TICK_CTRL_MASTER, F.TICK_CTRL_REF_EN, F.TICK_CTRL_SERVO_FREEZE, F.TICK_CTRL_ADMIT_FREEZE, F.TICK_CTRL_RUN],
      offOf e = offOf F.TICK_CTRL_RUN := by decide
  have hbody := Gikan.body_clear ((g.tickCtrlPut w).set F.TICK_CTRL_RUN 1) cs
  have hput := Gikan.body_putFields g w (offOf F.TICK_CTRL_RUN)
    [F.TICK_CTRL_MASTER, F.TICK_CTRL_REF_EN, F.TICK_CTRL_SERVO_FREEZE, F.TICK_CTRL_ADMIT_FREEZE]
  rw [heq]
  refine ⟨?_, ?_, ?_, fun f hoff hf hw hl => ?_⟩
  · have hne : ∀ c ∈ tickCounters, F.TICK_CTRL_RUN.key ≠ c.key := by decide
    rw [Gikan.get_clear_ne _ _ _ fun c hc => hne c (hsub c hc), Gikan.get_set_same]
    rfl
  · exact (Gikan.mem_of_body hbody).trans ((Gikan.mem_runFree ..).trans (Gikan.mem_of_body hput))
  · have ht := Gikan.tick_runFree (g.putFields w (offOf F.TICK_CTRL_RUN)
      [F.TICK_CTRL_MASTER, F.TICK_CTRL_REF_EN, F.TICK_CTRL_SERVO_FREEZE, F.TICK_CTRL_ADMIT_FREEZE]) (g.on F.TICK_CTRL_MASTER)
    rw [Gikan.tick_of_body hput] at ht
    rw [Gikan.tick_of_body hbody]
    exact ht
  · have hkey : ∀ e : Fld, offOf e = offOf F.TICK_CTRL_RUN → f.key ≠ e.key := fun e he h =>
      hoff ((congrArg (fun k => k / 64 * 8) h).trans he)
    rw [Gikan.get_clear_ne _ _ _ fun c hc => hf c (hsub c hc), Gikan.get_set_ne _ _ _ _ (hkey _ rfl), Gikan.tickCtrlPut, Gikan.get_runFree]
    exact Gikan.get_putFields_ne _ _ _ _ f ⟨hw, hl⟩ fun e he => hkey e (hplace e (by simp only [List.mem_cons] at he ⊢; tauto))

end Sys2Proof.Machine
end

section
namespace Sys2Proof.Machine

/-! ## The exchange with the parent (R17, R18, R288) -/

theorem Gikan.get_withTick (g : Gikan) (t : TickSt) (f : Fld) : ({ g with tick := t } : Gikan).get f = g.get f := rfl

theorem toBits_lt (i : Int) (w : Nat) : toBits i w < 2 ^ w := by
  have hpos : (0 : Int) < (2 ^ w : Nat) := Int.natCast_pos.mpr (Nat.two_pow_pos w)
  have := Int.emod_lt_of_pos i hpos
  have := Int.emod_nonneg i hpos.ne'
  unfold toBits
  omega

/-! Flits that carry a message -/

/-- The sender fills in the header and the CRC: kind and slots go as they are; tick and memory stay. -/
theorem Gikan.sendFlit_sends (g : Gikan) (p : Nat) (f : Flit) : (g.sendFlit p f).tick = g.tick ∧ (g.sendFlit p f).mem = g.mem ∧
    ∃ e, (g.sendFlit p f).out = g.out ++ [.flit p e] ∧ e.kind = f.kind ∧ e.crc = flitCrc e ∧ e.slots = f.slots := by
  unfold Gikan.sendFlit
  dsimp only
  split <;> exact ⟨rfl, rfl, _, rfl, rfl, rfl, rfl⟩

/-! SYNC_REQ -/

/-- What a time-sync message of this Gikan says beside its exchange and its times. -/
def Gikan.tsync (g : Gikan) (exch ta tb tick base : Nat) : TSync :=
  ⟨false, if g.running then 1 else 0, exch, ta, tb, tick, base, g.get F.TICK_PERIOD_PERIOD_US, g.get F.TICK_PERIOD_ARMED_US,
    g.get F.TICK_SWITCH_SWITCH_AT⟩

/-- The child's next exchange number. -/
def Gikan.nextExch (g : Gikan) : Nat := (g.tick.exchNo + 1) % 65536

theorem Gikan.syncReqSend_due {g : Gikan} {lead : Nat} (hc : g.isChild = true) (hp : g.carries (g.get F.TICK_PARENT_PORT) 0 = true)
    (hd : ∀ x, g.tick.sentAt = some x → x + 4000 ≤ g.now) (hl : lead ≤ 10280) :
    g.syncReqSend lead =
      { g.sendFlit (g.get F.TICK_PARENT_PORT) (msgFlit 2 (tsyncSlots 1
          (g.tsync g.nextExch (g.stampTx (g.get F.TICK_PARENT_PORT) lead) 0 0 0))) with
        tick := { g.tick with
          exchNo := g.nextExch, req := some (g.nextExch, g.stampTx (g.get F.TICK_PARENT_PORT) lead), sentAt := some g.now } } := by
  refine if_neg (?_ : ¬((!(g.isChild && g.carries _ 0 && _ && _)) = true))
  rw [hc, hp, decide_eq_true hl]
  split
  case h_1 x hx => rw [decide_eq_true (hd x hx)]; decide
  case h_2 => decide

theorem Gikan.syncReqSend_early {g : Gikan} {lead x : Nat} (hs : g.tick.sentAt = some x) (hd : g.now < x + 4000) : g.syncReqSend lead = g := by
  refine if_pos (?_ : (!(g.isChild && g.carries _ 0 && _ && _)) = true)
  rw [hs]
  dsimp only
  rw [decide_eq_false (Nat.not_le.mpr hd), Bool.and_false, Bool.false_and]
  rfl

theorem Gikan.syncReq_good {g : Gikan} {p since wait : Nat} {m : TSync} (hm : m.bad = false) (hp : g.carries p 0 = true) (hs : since ≤ 17920)
    (hw : since + wait ≤ 256000) : g.syncReq p m since wait = g.sendFlit p (msgFlit 2 (tsyncSlots 2
      (g.tsync m.exch (g.stampRx p since) (g.stampTx p wait) g.tickNo g.tick.base))) := by
  have hr : decide (receiveTime < since) = false := decide_eq_false (Nat.not_lt.mpr hs)
  have ha : decide (syncAnswer < since + wait) = false := decide_eq_false (Nat.not_lt.mpr hw)
  unfold Gikan.syncReq
  rw [hm, hp, hr, ha]
  rfl

/-! SYNC_RESP: the exchange is recorded, fabric time is set or steered, and then the parent's schedule is learnt -/

/-- The offset and the delay of an exchange, and the parent's schedule. -/
def Gikan.exchRecord (g : Gikan) (m : TSync) (off dly : Int) : Gikan :=
  let h := (g.set F.TICK_OFFSET_OFFSET_PS (toBits (off * 1000 / 512) 32)).set F.TICK_OFFSET_DELAY_PS (toBits (dly * 1000 / 512) 32)
  { h with tick := { h.tick with
      req := none
      parent := some (schedOf m)
      good := if decide (off.natAbs ≤ 12800) then h.tick.good + 1 else 0
      goodSplit := if decide (off.natAbs ≤ 12800) then h.tick.goodSplit + 1 else 0 } }

/-- The first exchange before ticks gives the time directly; any other steers it (R20). -/
def Gikan.exchSteer (g : Gikan) (off : Int) : Gikan :=
  if g.tick.lastExch.isNone && !g.running then g.setStamp ((g.stamp256 : Int) + off / 2).toNat else g.steer off

/-- The exchange is the last valid one, which ends holdover (R23). -/
def Gikan.exchDone (g : Gikan) : Gikan := { g with tick := { g.tick with lastExch := some g.time } }.set F.TICK_STATUS_HOLDOVER 0

/-- What the exchange says of the parent's ticks is acted on. -/
def Gikan.exchLearn (g : Gikan) (m : TSync) (off : Int) : Gikan :=
  if g.running then ((if decide (102400 < off.natAbs) then g.splitEntry else g).learnSched m).splitExit
  else (g.armAs (schedOf m)).planStart (schedOf m)

/-- All that a matching answer does. -/
def Gikan.exchange (g : Gikan) (m : TSync) (off dly : Int) : Gikan := (((g.exchRecord m off dly).exchSteer off).exchDone).exchLearn m off

/-- Whether a SYNC_RESP answers the request `e` of a child, on its parent port, in time and with a valid time. -/
def Gikan.respMatches (g : Gikan) (p : Nat) (m : TSync) (since e : Nat) : Bool :=
  g.isChild && p == g.get F.TICK_PARENT_PORT && g.carries p 0 && !m.bad && m.exch == e && m.timeValid == 1 && decide (since ≤ receiveTime)

section
variable {g : Gikan} {p since e t1 : Nat} {m : TSync}

theorem Gikan.syncResp_of_req (hr : g.tick.req = some (e, t1)) : g.syncResp p m since =
    if !g.respMatches p m since e then g
    else g.exchange m (offset2 t1 m.ta m.tb (g.stampRx p since)) (delay2 t1 m.ta m.tb (g.stampRx p since)) := by
  unfold Gikan.syncResp
  rw [hr]
  rfl

theorem Gikan.syncResp_good (hr : g.tick.req = some (e, t1)) (hc : g.isChild = true) (hp : p = g.get F.TICK_PARENT_PORT)
    (hl : g.carries p 0 = true) (hb : m.bad = false) (he : m.exch = e) (ht : m.timeValid = 1) (hs : since ≤ 17920) :
    g.syncResp p m since = g.exchange m (offset2 t1 m.ta m.tb (g.stampRx p since)) (delay2 t1 m.ta m.tb (g.stampRx p since)) := by
  have hans : g.respMatches p m since e = true := by simp [Gikan.respMatches, hc, ← hp, hl, hb, he, ht, hs]
  rw [Gikan.syncResp_of_req hr, hans]
  rfl

theorem Gikan.syncResp_unmatched (h : ∀ e t1, g.tick.req = some (e, t1) → m.bad = true ∨ m.exch ≠ e ∨ m.timeValid ≠ 1) :
    g.syncResp p m since = g := by
  cases hr : g.tick.req with
  | none => rw [Gikan.syncResp, hr]
  | some r =>
    obtain ⟨e, t1⟩ := r
    have hans : g.respMatches p m since e = false := by
      rcases h e t1 hr with h | h | h <;> simp [Gikan.respMatches, h]
    rw [Gikan.syncResp_of_req hr, hans]
    rfl

/-- A SYNC_RESP does all that a matching answer does, or nothing. -/
theorem Gikan.syncResp_cases : g.syncResp p m since = g ∨ ∃ off dly, g.syncResp p m since = g.exchange m off dly := by
  cases hr : g.tick.req with
  | none => exact .inl (by rw [Gikan.syncResp, hr])
  | some r => exact (Gikan.syncResp_of_req hr ▸ ite_eq_or_eq _ _ _).imp_right fun h => ⟨_, _, h⟩

end

end Sys2Proof.Machine
end

section
namespace Sys2Proof.Machine

/-! ## What steering and learning the schedule leave (R18, R22 to R25) -/

/-- The slew is as it was, `v`, or within the limit of R18. -/
def Gikan.slewOk (g : Gikan) (v : Int) : Prop :=
  g.tick.slew = v ∨ g.tick.slew.natAbs ≤ if g.on F.TICK_STATUS_SPLIT then 1000 else 100

theorem Gikan.slewOk_of {g h : Gikan} {v : Int} (hs : h.tick.slew = g.tick.slew)
    (hp : g.on F.TICK_STATUS_SPLIT = true → h.on F.TICK_STATUS_SPLIT = true) (hg : g.slewOk v) : h.slewOk v := by
  unfold Gikan.slewOk at *
  rw [hs]
  refine hg.imp_right fun hlim => hlim.trans ?_
  by_cases hsplit : g.on F.TICK_STATUS_SPLIT = true
  · rw [if_pos hsplit, if_pos (hp hsplit)]
  · rw [if_neg hsplit]
    split <;> decide

/-- What the parts of an exchange after its record leave: memory, the record, the servo's hold with the slew it holds, and the limit of R18. -/
structure Gikan.SyncKeeps (g h : Gikan) : Prop where
  mem : h.mem = g.mem
  req : h.tick.req = g.tick.req
  good : h.tick.good = g.tick.good
  offset : h.get F.TICK_OFFSET_OFFSET_PS = g.get F.TICK_OFFSET_OFFSET_PS
  delay : h.get F.TICK_OFFSET_DELAY_PS = g.get F.TICK_OFFSET_DELAY_PS
  holdover : h.get F.TICK_STATUS_HOLDOVER = g.get F.TICK_STATUS_HOLDOVER
  held : g.servoHeld = true → h.servoHeld = true ∧ h.tick.slew = g.tick.slew
  slew : ∀ v, g.slewOk v → h.slewOk v

namespace Gikan.SyncKeeps

theorem refl (g : Gikan) : g.SyncKeeps g := ⟨rfl, rfl, rfl, rfl, rfl, rfl, fun h => ⟨h, rfl⟩, fun _ h => h⟩

theorem trans {g h k : Gikan} (a : g.SyncKeeps h) (b : h.SyncKeeps k) : g.SyncKeeps k where
  mem := b.mem.trans a.mem
  req := b.req.trans a.req
  good := b.good.trans a.good
  offset := b.offset.trans a.offset
  delay := b.delay.trans a.delay
  holdover := b.holdover.trans a.holdover
  held hg := by
    obtain ⟨hh, hslew⟩ := a.held hg
    obtain ⟨hk, hslew'⟩ := b.held hh
    exact ⟨hk, hslew'.trans hslew⟩
  slew v hg := b.slew v (a.slew v hg)

/-- A field that none of this is read from. -/
theorem set (g : Gikan) {f : Fld} (v : Nat) (hf : ∀ e ∈ [F.TICK_OFFSET_OFFSET_PS, F.TICK_OFFSET_DELAY_PS, F.TICK_STATUS_HOLDOVER,
      F.TICK_STATUS_SPLIT, F.TICK_CTRL_SERVO_FREEZE, F.FLT_FREEZE_LOOPS], e.key ≠ f.key) : g.SyncKeeps (g.set f v) := by
  simp only [List.forall_mem_cons] at hf
  obtain ⟨hoff, hdly, hhold, hsplit, hfreeze, hloops, -⟩ := hf
  refine ⟨rfl, rfl, rfl, Gikan.get_set_ne _ _ _ _ hoff, Gikan.get_set_ne _ _ _ _ hdly, Gikan.get_set_ne _ _ _ _ hhold, fun hg => ⟨?_, rfl⟩,
    fun v => Gikan.slewOk_of rfl fun hg => ?_⟩
  · rw [Gikan.servoHeld, Gikan.on, Gikan.bitOf, Gikan.get_set_ne _ _ _ _ hfreeze, Gikan.get_set_ne _ _ _ _ hloops]
    exact hg
  · rw [Gikan.on, Gikan.get_set_ne _ _ _ _ hsplit]
    exact hg

/-- A change of the tick that keeps the record and the slew. -/
theorem withTick (g : Gikan) {t : TickSt} (hr : t.req = g.tick.req) (hg : t.good = g.tick.good) (hs : t.slew = g.tick.slew) :
    g.SyncKeeps { g with tick := t } :=
  ⟨rfl, hr, hg, rfl, rfl, rfl, fun h => ⟨h, hs⟩, fun _ => Gikan.slewOk_of hs id⟩

end Gikan.SyncKeeps

/-! Setting and steering fabric time -/

/-- The servo's answer is held within the limit. -/
theorem natAbs_clamp_le (lim : Nat) (x : Int) : (max (-(lim : Int)) (min (lim : Int) x)).natAbs ≤ lim := by omega

theorem Gikan.steer_held {g : Gikan} (off : Int) (h : g.servoHeld = true) : g.steer off = g := if_pos h

/-- A servo that is not held takes a slew within the limit. -/
theorem Gikan.steer_free {g : Gikan} (off : Int) (h : g.servoHeld = false) : ∃ x : Int,
    x.natAbs ≤ (if g.on F.TICK_STATUS_SPLIT then 1000 else 100) ∧
    g.steer off = { g with draw := g.draw + 1, tick := { g.tick with slew := x } } := by
  refine ⟨_, ?_, if_neg (by rw [h]; decide)⟩
  split
  · exact natAbs_clamp_le 1000 _
  · exact natAbs_clamp_le 100 _

theorem Gikan.SyncKeeps.steer (g : Gikan) (off : Int) : g.SyncKeeps (g.steer off) := by
  cases h : g.servoHeld with
  | true => rw [Gikan.steer_held off h]; exact .refl g
  | false =>
    obtain ⟨x, hx, heq⟩ := Gikan.steer_free off h
    rw [heq]
    exact ⟨rfl, rfl, rfl, rfl, rfl, rfl, fun hh => absurd (h.symm.trans hh) (by decide), fun _ _ => .inr hx⟩

theorem Gikan.setStamp_eq (g : Gikan) (v : Nat) :
    ∃ x, g.setStamp v = { g.set F.TICK_TIME_TIME_NS (v / 256) with tick := { g.tick with sub := x } } := ⟨_, rfl⟩

theorem Gikan.SyncKeeps.setStamp (g : Gikan) (v : Nat) : g.SyncKeeps (g.setStamp v) := by
  obtain ⟨x, h⟩ := g.setStamp_eq v
  rw [h]
  exact (Gikan.SyncKeeps.set g _ (by decide)).trans (.withTick _ (t := { g.tick with sub := x }) rfl rfl rfl)

/-! The time-split state -/

theorem Gikan.splitEntry_none {g : Gikan} (h : g.servoHeld = true ∨ g.on F.TICK_STATUS_SPLIT = true) : g.splitEntry = g :=
  if_pos (Bool.or_eq_true_iff.mpr h)

/-- Entry, before it is logged. -/
def Gikan.splitSet (g : Gikan) : Gikan :=
  { ((g.set F.TICK_STATUS_SPLIT 1).set F.TICK_STATUS_SPLIT_SEEN 1).inc F.TICK_EVENTS_SPLIT_ENTRIES 1 with
    tick := { g.tick with goodSplit := 0 } }

theorem Gikan.splitEntry_enters {g : Gikan} (hh : g.servoHeld = false) (hs : g.on F.TICK_STATUS_SPLIT = false) :
    g.splitEntry = g.splitSet.contained 58 (g.splitSet.get F.TICK_PARENT_PORT) (offOf F.TICK_EVENTS_SPLIT_ENTRIES) :=
  if_neg (by rw [hh, hs]; decide)

theorem Gikan.tick_of_quiet {g h : Gikan} (e : h.quiet = g.quiet) : h.tick = g.tick := congrArg (fun x => x.2.2.2.2.2.2.1) e
theorem Gikan.eng_of_quiet {g h : Gikan} (e : h.quiet = g.quiet) : h.eng = g.eng := congrArg (fun x => x.2.2.2.2.2.2.2.1) e

/-- A field of the tick block after entry is logged. -/
theorem Gikan.get_splitEntry {g : Gikan} (hh : g.servoHeld = false) (hs : g.on F.TICK_STATUS_SPLIT = false) (f : Fld) (hf : f.apart) :
    g.splitEntry.get f = g.splitSet.get f := by
  rw [Gikan.splitEntry_enters hh hs, Gikan.get_contained _ _ _ _ f hf]

theorem Gikan.get_splitSet (g : Gikan) (f : Fld) : g.splitSet.get f =
    (((g.set F.TICK_STATUS_SPLIT 1).set F.TICK_STATUS_SPLIT_SEEN 1).inc F.TICK_EVENTS_SPLIT_ENTRIES 1).get f := rfl

theorem Gikan.get_splitSet_ne (g : Gikan) (f : Fld)
    (hf : ∀ e ∈ [F.TICK_STATUS_SPLIT, F.TICK_STATUS_SPLIT_SEEN, F.TICK_EVENTS_SPLIT_ENTRIES], f.key ≠ e.key) : g.splitSet.get f = g.get f := by
  simp only [List.forall_mem_cons] at hf
  obtain ⟨hsplit, hseen, hcount, -⟩ := hf
  rw [Gikan.get_splitSet, Gikan.get_inc_ne _ _ _ _ hcount, Gikan.get_set_ne _ _ _ _ hseen, Gikan.get_set_ne _ _ _ _ hsplit]

theorem Gikan.split_splitSet (g : Gikan) : g.splitSet.get F.TICK_STATUS_SPLIT = 1 := by
  rw [Gikan.get_splitSet, Gikan.get_inc_ne _ _ _ _ (by decide), Gikan.get_set_ne _ _ _ _ (by decide), Gikan.get_set_same]
  rfl

theorem Gikan.SyncKeeps.splitEntry (g : Gikan) : g.SyncKeeps g.splitEntry := by
  by_cases h : g.servoHeld = true ∨ g.on F.TICK_STATUS_SPLIT = true
  · rw [Gikan.splitEntry_none h]; exact .refl g
  · obtain ⟨hh, hs⟩ := not_or.mp h
    rw [Bool.not_eq_true] at hh hs
    have hq : g.splitEntry.quiet = g.splitSet.quiet := by rw [Gikan.splitEntry_enters hh hs, Gikan.quiet_contained]
    have htick := Gikan.tick_of_quiet hq
    have hget : ∀ f : Fld, f.apart →
        (∀ e ∈ [F.TICK_STATUS_SPLIT, F.TICK_STATUS_SPLIT_SEEN, F.TICK_EVENTS_SPLIT_ENTRIES], f.key ≠ e.key) → g.splitEntry.get f = g.get f :=
      fun f ha hne => (Gikan.get_splitEntry hh hs f ha).trans (g.get_splitSet_ne f hne)
    have hon : g.splitEntry.on F.TICK_STATUS_SPLIT = true := by
      rw [Gikan.on, Gikan.get_splitEntry hh hs _ ⟨by decide, by decide⟩, Gikan.split_splitSet]
      rfl
    exact ⟨(Gikan.mem_of_quiet hq).trans rfl, by rw [htick]; rfl, by rw [htick]; rfl, hget _ ⟨by decide, by decide⟩ (by decide),
      hget _ ⟨by decide, by decide⟩ (by decide), hget _ ⟨by decide, by decide⟩ (by decide), fun h => absurd (hh.symm.trans h) (by decide),
      fun _ => Gikan.slewOk_of (by rw [htick]; rfl) fun _ => hon⟩

/-- The state is left with the slew held to the limit outside it. -/
theorem Gikan.splitExit_cases (g : Gikan) : g.splitExit = g ∨ g.servoHeld = false ∧
    g.splitExit = { g.set F.TICK_STATUS_SPLIT 0 with tick := { g.tick with slew := max (-100) (min 100 g.tick.slew) } } := by
  unfold Gikan.splitExit
  split
  case isTrue h =>
    simp only [Bool.and_eq_true, Bool.not_eq_true'] at h
    obtain ⟨⟨hheld, -⟩, -⟩ := h
    exact .inr ⟨hheld, rfl⟩
  case isFalse => exact .inl rfl

theorem Gikan.SyncKeeps.splitExit (g : Gikan) : g.SyncKeeps g.splitExit := by
  rcases g.splitExit_cases with h | ⟨hh, h⟩ <;> rw [h]
  · exact .refl g
  · have hget : ∀ f : Fld, f.key ≠ F.TICK_STATUS_SPLIT.key → (g.set F.TICK_STATUS_SPLIT 0).get f = g.get f := fun f => Gikan.get_set_ne g _ f 0
    exact ⟨rfl, rfl, rfl, hget _ (by decide), hget _ (by decide), hget _ (by decide), fun h => absurd (hh.symm.trans h) (by decide),
      fun _ _ => .inr ((natAbs_clamp_le 100 _).trans (by split <;> decide))⟩

/-! The parent's schedule -/

theorem Gikan.SyncKeeps.switchArmed (g : Gikan) (a b : Nat) :
    g.SyncKeeps ((g.set F.TICK_SWITCH_SWITCH_AT a).set F.TICK_PERIOD_ARMED_US b) :=
  (Gikan.SyncKeeps.set g _ (by decide)).trans (.set _ _ (by decide))

/-- A schedule that is learnt is armed or taken back, or makes this Gikan enter the time-split state. -/
theorem Gikan.learnSched_cases (g : Gikan) (m : TSync) : g.learnSched m = g ∨
    (∃ a b, g.learnSched m = (g.set F.TICK_SWITCH_SWITCH_AT a).set F.TICK_PERIOD_ARMED_US b) ∨
    g.learnSched m = ({ g with tick := { g.tick with late := true } } : Gikan).splitEntry := by
  unfold Gikan.learnSched
  split
  · exact .inl rfl
  · split
    · split
      · exact .inl rfl
      · exact .inr (.inr rfl)
    · split
      · exact .inl rfl
      · split <;> exact .inr (.inl ⟨_, _, rfl⟩)

theorem Gikan.SyncKeeps.learnSched (g : Gikan) (m : TSync) : g.SyncKeeps (g.learnSched m) := by
  rcases g.learnSched_cases m with h | ⟨a, b, h⟩ | h <;> rw [h]
  · exact .refl g
  · exact .switchArmed g a b
  · exact (Gikan.SyncKeeps.withTick g (t := { g.tick with late := true }) rfl rfl rfl).trans (.splitEntry _)

theorem Gikan.planStart_cases (g : Gikan) (p : ParentSched) :
    g.planStart p = g ∨ ∃ x, g.planStart p = { g with tick := { g.tick with startAt := some x } } := by
  unfold Gikan.planStart
  split
  · exact .inl rfl
  · exact .inr ⟨_, rfl⟩

theorem Gikan.SyncKeeps.planStart (g : Gikan) (p : ParentSched) : g.SyncKeeps (g.planStart p) := by
  rcases g.planStart_cases p with h | ⟨x, h⟩ <;> rw [h]
  · exact .refl g
  · exact .withTick g rfl rfl rfl

/-! The parts of an exchange -/

theorem Gikan.SyncKeeps.exchSteer (g : Gikan) (off : Int) : g.SyncKeeps (g.exchSteer off) := by
  unfold Gikan.exchSteer
  split
  · exact .setStamp ..
  · exact .steer ..

theorem Gikan.SyncKeeps.exchLearn (g : Gikan) (m : TSync) (off : Int) : g.SyncKeeps (g.exchLearn m off) := by
  unfold Gikan.exchLearn
  split
  · refine Gikan.SyncKeeps.trans (h := if decide (102400 < off.natAbs) then g.splitEntry else g) ?_
      ((Gikan.SyncKeeps.learnSched _ m).trans (.splitExit _))
    split
    · exact .splitEntry g
    · exact .refl g
  · exact (Gikan.SyncKeeps.switchArmed g _ _).trans (.planStart _ _)

/-- The end of holdover is no part of what is steered or held. -/
theorem Gikan.exchDone_keeps (g : Gikan) : (g.servoHeld = true → g.exchDone.servoHeld = true ∧ g.exchDone.tick.slew = g.tick.slew) ∧
    ∀ v, g.slewOk v → g.exchDone.slewOk v := by
  have hget : ∀ f : Fld, f.key ≠ F.TICK_STATUS_HOLDOVER.key → g.exchDone.get f = g.get f := fun f hf => Gikan.get_set_ne _ _ _ _ hf
  refine ⟨fun h => ⟨?_, rfl⟩, fun v => Gikan.slewOk_of rfl fun h => ?_⟩
  · rw [Gikan.servoHeld, Gikan.on, Gikan.bitOf, hget _ (by decide), hget _ (by decide)]; exact h
  · rw [Gikan.on, hget _ (by decide)]; exact h

end Sys2Proof.Machine
end

section
namespace Sys2Proof.Machine

section
variable (g : Gikan) (m : TSync) (off dly : Int)

theorem Gikan.offset_exchRecord : (g.exchRecord m off dly).get F.TICK_OFFSET_OFFSET_PS = toBits (off * 1000 / 512) 32 := by
  rw [Gikan.exchRecord, Gikan.get_withTick, Gikan.get_set_ne _ _ _ _ (by decide), Gikan.get_set_same]
  exact Nat.mod_eq_of_lt (toBits_lt _ 32)

theorem Gikan.delay_exchRecord : (g.exchRecord m off dly).get F.TICK_OFFSET_DELAY_PS = toBits (dly * 1000 / 512) 32 := by
  rw [Gikan.exchRecord, Gikan.get_withTick, Gikan.get_set_same]
  exact Nat.mod_eq_of_lt (toBits_lt _ 32)

theorem Gikan.get_exchRecord_ne (f : Fld) (hoff : f.key ≠ F.TICK_OFFSET_OFFSET_PS.key) (hdly : f.key ≠ F.TICK_OFFSET_DELAY_PS.key) :
    (g.exchRecord m off dly).get f = g.get f := by
  rw [Gikan.exchRecord, Gikan.get_withTick, Gikan.get_set_ne _ _ _ _ hdly, Gikan.get_set_ne _ _ _ _ hoff]

theorem Gikan.good_exchRecord : (g.exchRecord m off dly).tick.good = if off.natAbs ≤ 12800 then g.tick.good + 1 else 0 := by
  simp only [Gikan.exchRecord, decide_eq_true_eq, Gikan.tick_set]

/-- The record is no part of what is steered or held. -/
theorem Gikan.exchRecord_keeps : (g.servoHeld = true → (g.exchRecord m off dly).servoHeld = true) ∧
    (g.exchRecord m off dly).tick.slew = g.tick.slew := by
  refine ⟨fun h => ?_, rfl⟩
  rw [Gikan.servoHeld, Gikan.on, Gikan.bitOf, Gikan.get_exchRecord_ne _ _ _ _ _ (by decide) (by decide),
    Gikan.get_exchRecord_ne _ _ _ _ _ (by decide) (by decide)]
  exact h

/-- What an exchange leaves in the registers and the tick (R18, R20, R23). -/
theorem Gikan.exchange_records : (g.exchange m off dly).get F.TICK_OFFSET_OFFSET_PS = toBits (off * 1000 / 512) 32 ∧
    (g.exchange m off dly).get F.TICK_OFFSET_DELAY_PS = toBits (dly * 1000 / 512) 32 ∧
    (g.exchange m off dly).get F.TICK_STATUS_HOLDOVER = 0 ∧ (g.exchange m off dly).tick.req = none ∧
    (g.exchange m off dly).tick.good = (if off.natAbs ≤ 12800 then g.tick.good + 1 else 0) ∧ (g.exchange m off dly).mem = g.mem := by
  have hs := Gikan.SyncKeeps.exchSteer (g.exchRecord m off dly) off
  have hl := Gikan.SyncKeeps.exchLearn ((g.exchRecord m off dly).exchSteer off).exchDone m off
  have hdone : ∀ f : Fld, f.key ≠ F.TICK_STATUS_HOLDOVER.key →
      ((g.exchRecord m off dly).exchSteer off).exchDone.get f = ((g.exchRecord m off dly).exchSteer off).get f :=
    fun f hf => Gikan.get_set_ne _ _ _ _ hf
  refine ⟨?_, ?_, hl.holdover.trans (Gikan.get_set_same ..), hl.req.trans hs.req, ?_, hl.mem.trans hs.mem⟩
  · exact hl.offset.trans ((hdone _ (by decide)).trans (hs.offset.trans (g.offset_exchRecord m off dly)))
  · exact hl.delay.trans ((hdone _ (by decide)).trans (hs.delay.trans (g.delay_exchRecord m off dly)))
  · exact hl.good.trans (hs.good.trans (g.good_exchRecord m off dly))

/-- An exchange keeps the slew limit, and a held servo its slew (R18, R32). -/
theorem Gikan.exchange_slew : (g.servoHeld = true → (g.exchange m off dly).tick.slew = g.tick.slew) ∧
    (g.exchange m off dly).slewOk g.tick.slew := by
  obtain ⟨hheld, hslew⟩ := g.exchRecord_keeps m off dly
  have hs := Gikan.SyncKeeps.exchSteer (g.exchRecord m off dly) off
  obtain ⟨hdheld, hdslew⟩ := ((g.exchRecord m off dly).exchSteer off).exchDone_keeps
  have hl := Gikan.SyncKeeps.exchLearn ((g.exchRecord m off dly).exchSteer off).exchDone m off
  refine ⟨fun h => ?_, hl.slew _ (hdslew _ (hs.slew _ (.inl hslew)))⟩
  obtain ⟨h1, e1⟩ := hs.held (hheld h)
  obtain ⟨h2, e2⟩ := hdheld h1
  obtain ⟨-, e3⟩ := hl.held h2
  exact e3.trans (e2.trans (e1.trans hslew))

end

/-! ## Period changes (R26, R27) -/

theorem Gikan.wrTickPeriod_ok {g : Gikan} {w : RegW} (hc : wrCovers w F.TICK_PERIOD_NEXT_US = true)
    (hlo : 2 ≤ g.wrValue w F.TICK_PERIOD_NEXT_US) (hhi : g.wrValue w F.TICK_PERIOD_NEXT_US ≤ 64) :
    g.wrTickPeriod w = g.set F.TICK_PERIOD_NEXT_US (g.wrValue w F.TICK_PERIOD_NEXT_US) := by
  unfold Gikan.wrTickPeriod
  rw [hc]
  exact if_pos (And.intro hlo hhi)

theorem Gikan.wrTickPeriod_refused {g : Gikan} {w : RegW} (hc : wrCovers w F.TICK_PERIOD_NEXT_US = true)
    (h : g.wrValue w F.TICK_PERIOD_NEXT_US < 2 ∨ 64 < g.wrValue w F.TICK_PERIOD_NEXT_US) : g.wrTickPeriod w = g.switchRefused := by
  unfold Gikan.wrTickPeriod
  rw [hc]
  exact if_neg fun hin : 2 ≤ _ ∧ _ ≤ 64 => by omega

section
variable {g : Gikan} {w : RegW}

theorem Gikan.wrSwitchAt_arms (hv : g.wrValue w F.TICK_SWITCH_SWITCH_AT ≠ tickNone) (hm : g.on F.TICK_CTRL_MASTER = true)
    (hl : g.tickNo + 16 ≤ g.wrValue w F.TICK_SWITCH_SWITCH_AT) : g.wrSwitchAt w =
      (g.set F.TICK_SWITCH_SWITCH_AT (g.wrValue w F.TICK_SWITCH_SWITCH_AT)).set F.TICK_PERIOD_ARMED_US (g.get F.TICK_PERIOD_NEXT_US) := by
  rw [Gikan.wrSwitchAt, if_neg hv, hm, decide_eq_true hl]
  rfl

theorem Gikan.wrSwitchAt_refused (hv : g.wrValue w F.TICK_SWITCH_SWITCH_AT ≠ tickNone)
    (h : g.on F.TICK_CTRL_MASTER = false ∨ g.wrValue w F.TICK_SWITCH_SWITCH_AT < g.tickNo + 16) : g.wrSwitchAt w = g.switchRefused := by
  rw [Gikan.wrSwitchAt, if_neg hv]
  refine if_neg fun hand => ?_
  rw [Bool.and_eq_true, decide_eq_true_eq] at hand
  rcases h with h | h
  · exact absurd (h.symm.trans hand.1) (by decide)
  · omega

theorem Gikan.wrSwitchAt_disarms (hv : g.wrValue w F.TICK_SWITCH_SWITCH_AT = tickNone) (hm : g.on F.TICK_CTRL_MASTER = true) :
    g.wrSwitchAt w = (g.set F.TICK_SWITCH_SWITCH_AT tickNone).set F.TICK_PERIOD_ARMED_US 0 := by
  rw [Gikan.wrSwitchAt, if_pos hv, hm]
  rfl

end

/-- The period `per` in force from the boundary `b` on, which has the tick `n`, and nothing armed. -/
def Gikan.periodFrom (g : Gikan) (b n per : Nat) : Gikan :=
  ((Gikan.set { g with tick := { g.tick with base := b, baseTick := n } } F.TICK_PERIOD_PERIOD_US per).set F.TICK_SWITCH_SWITCH_AT tickNone).set
    F.TICK_PERIOD_ARMED_US 0

/-- Whether the armed change takes effect. -/
def Gikan.changes (g : Gikan) : Bool :=
  g.boundaryDue && !g.tick.late && decide (g.get F.TICK_SWITCH_SWITCH_AT ≠ tickNone) && decide (g.get F.TICK_SWITCH_SWITCH_AT ≤ g.nextTick) &&
    g.on F.TICK_PERIOD_ARMED_US

theorem Gikan.periodChange_eq (g : Gikan) :
    g.periodChange = if !g.changes then g else g.periodFrom g.frameEnd g.nextTick (g.get F.TICK_PERIOD_ARMED_US) := rfl

/-- At a boundary the armed change takes effect, or nothing does. -/
theorem Gikan.periodChange_cases (g : Gikan) :
    g.periodChange = g ∨ g.periodChange = g.periodFrom g.frameEnd g.nextTick (g.get F.TICK_PERIOD_ARMED_US) :=
  g.periodChange_eq ▸ ite_eq_or_eq ..

theorem Gikan.boundaryDue_of {g : Gikan} (hr : g.running = true) (he : g.frameEnd ≤ g.time) : g.boundaryDue = true := by
  rw [Gikan.boundaryDue, hr, decide_eq_true he]
  rfl

theorem Gikan.nextTick_of_noGap {g : Gikan} (h : g.tick.gap = none) : g.nextTick = g.tickNo + 1 := by rw [Gikan.nextTick, h]

/-- The armed change of a boundary that is due. -/
theorem Gikan.periodChange_due {g : Gikan} (hr : g.running = true) (he : g.frameEnd ≤ g.time) (hl : g.tick.late = false)
    (hg : g.tick.gap = none) (hx : g.get F.TICK_SWITCH_SWITCH_AT = g.tickNo + 1) (hn : g.get F.TICK_SWITCH_SWITCH_AT ≠ tickNone)
    (ha : g.on F.TICK_PERIOD_ARMED_US = true) :
    g.periodChange = g.periodFrom g.frameEnd (g.tickNo + 1) (g.get F.TICK_PERIOD_ARMED_US) := by
  rw [← Gikan.nextTick_of_noGap hg] at hx ⊢
  rw [Gikan.periodChange_eq, Gikan.changes, Gikan.boundaryDue_of hr he, hl, decide_eq_true hn, decide_eq_true hx.le, ha]
  rfl

theorem Gikan.period_periodFrom (g : Gikan) (b n per : Nat) : (g.periodFrom b n per).get F.TICK_PERIOD_PERIOD_US = per % 128 := by
  rw [Gikan.periodFrom, Gikan.get_set_ne _ _ _ _ (by decide), Gikan.get_set_ne _ _ _ _ (by decide), Gikan.get_set_same]
  rfl

theorem Gikan.switchAt_periodFrom (g : Gikan) (b n per : Nat) : (g.periodFrom b n per).get F.TICK_SWITCH_SWITCH_AT = 2 ^ 64 - 1 := by
  rw [Gikan.periodFrom, Gikan.get_set_ne _ _ _ _ (by decide), Gikan.get_set_same]
  rfl

theorem Gikan.armed_periodFrom (g : Gikan) (b n per : Nat) : (g.periodFrom b n per).get F.TICK_PERIOD_ARMED_US = 0 :=
  (Gikan.get_set_same ..).trans (Nat.zero_mod _)

/-- Settles O14: each row by the lemma that says what it does. -/
theorem ticksAndTimeSync : Obligations.TicksAndTimeSync := by
  refine ⟨fun s => ⟨fun w hw => ?_, fun hrun hm hn v hv hs => ?_, fun b n p0 hc hn ha hp => ⟨fun hb => ?_, fun hb => ?_⟩⟩,
    fun s => ⟨fun lead hc hp hd hl => ?_, fun lead x hs hd => ?_, fun p m since wait hm hp hs hw => ?_, fun p m since h => ?_,
      fun p m since e t1 hr hc hp hl hb he ht hs => ?_⟩,
    fun s => ⟨fun w hw hc => ⟨fun hlo hhi => ?_, fun h => ?_⟩, fun w hw => ⟨fun hv hm hl => ?_, fun hv h => ?_, fun hv hm => ?_⟩,
      fun hr he hl hg hx hn ha => ?_⟩⟩
  · exact ⟨_, exec_reaches rfl rfl hw, s.g.wrTickCtrl_run_sets (wrOne_trig w _ rfl)⟩
  · exact ⟨_, rfl, Gikan.masterTickStart_starts hrun hm hn hv hs⟩
  · exact ⟨_, rfl, Gikan.tickStart_starts hc hn ha hp hb⟩
  · exact congrArg s.done (Gikan.tickStart_early ha hb)
  · obtain ⟨-, hmem, hflit⟩ := s.g.sendFlit_sends _ _
    exact ⟨_, congrArg s.done (Gikan.syncReqSend_due hc hp hd hl), rfl, hflit, hmem⟩
  · exact congrArg s.done (Gikan.syncReqSend_early hs hd)
  · obtain ⟨htick, hmem, f, hout, hkind, hcrc, hslots⟩ := s.g.sendFlit_sends _ _
    exact ⟨_, f, congrArg s.done (Gikan.syncReq_good hm hp hs hw), hout, hkind, hcrc, hslots, htick, hmem⟩
  · exact congrArg s.done (Gikan.syncResp_unmatched h)
  · obtain ⟨hoff, hdly, hhold, hreq, hgood, hmem⟩ := s.g.exchange_records m _ _
    exact ⟨_, congrArg s.done (Gikan.syncResp_good hr hc hp hl hb he ht hs), hoff, hdly, hhold, hreq, hgood, hmem⟩
  · exact exec_reaches rfl (Gikan.wrTickPeriod_ok hc hlo hhi) hw
  · exact exec_reaches rfl (Gikan.wrTickPeriod_refused hc h) hw
  · exact exec_reaches rfl (Gikan.wrSwitchAt_arms hv hm hl) hw
  · exact exec_reaches rfl (Gikan.wrSwitchAt_refused hv h) hw
  · rw [hv]; exact exec_reaches rfl (Gikan.wrSwitchAt_disarms hv hm) hw
  · exact ⟨_, congrArg s.done (Gikan.periodChange_due hr he hl hg hx hn ha), Gikan.period_periodFrom .., rfl, hx.symm,
      Gikan.switchAt_periodFrom .., Gikan.armed_periodFrom .., rfl⟩

end Sys2Proof.Machine
end

section
namespace Sys2Proof.Machine

/-! ## The Fault Word of an event that is logged (R339 to R341) -/

/-! A notice changes no field but the count of interrupts -/

theorem Gikan.get_ibi_ne (g : Gikan) (n : Nat) (f : Fld) (hf : f.key ≠ F.MGT_I3C_IBIS.key) : (g.ibi n).get f = g.get f := by
  unfold Gikan.ibi
  split
  · rfl
  · split
    · rfl
    · rw [Gikan.get_emit, Gikan.get_inc_ne _ _ _ _ hf]; rfl

theorem Gikan.get_sendNotice_ne (g : Gikan) (f : Fld) (hf : f.key ≠ F.MGT_I3C_IBIS.key) : g.sendNotice.get f = g.get f := by
  unfold Gikan.sendNotice
  dsimp only
  split <;> split <;> split <;> simp only [Gikan.get_ibi_ne _ _ _ hf, Gikan.get_msix]

theorem Gikan.get_notice_ne (g : Gikan) (f : Fld) (hf : f.key ≠ F.MGT_I3C_IBIS.key) : g.notice.get f = g.get f := by
  unfold Gikan.notice
  split
  · rfl
  · exact (Gikan.get_of_csr (by rfl) f).trans (Gikan.get_sendNotice_ne g f hf)

/-! Bits -/

theorem Gikan.bitOf_setBitOf_same (g : Gikan) (f : Fld) {i : Nat} (hi : i < f.wid) : (g.setBitOf f i).bitOf f i = true := by
  rw [Gikan.bitOf, Gikan.setBitOf, Gikan.get_set_same, Nat.testBit_mod_two_pow, setBit, Nat.testBit_or, Nat.testBit_two_pow_self]
  simp [hi]

theorem Gikan.bitOf_setBitOf_ne (g : Gikan) (f h : Fld) (i j : Nat) (hk : h.key ≠ f.key) : (g.setBitOf f i).bitOf h j = g.bitOf h j := by
  rw [Gikan.bitOf, Gikan.setBitOf, Gikan.get_set_ne _ _ _ _ hk]
  rfl

theorem Gikan.bitOf_countFault (g : Gikan) (c : FClass) (n k : Nat) (f : Fld) (i : Nat) : (g.countFault c n k).bitOf f i = g.bitOf f i := by
  rw [Gikan.bitOf, Gikan.get_countFault]; rfl

theorem Gikan.bitOf_notice_ne (g : Gikan) (f : Fld) (i : Nat) (hf : f.key ≠ F.MGT_I3C_IBIS.key) : g.notice.bitOf f i = g.bitOf f i := by
  rw [Gikan.bitOf, Gikan.get_notice_ne g f hf]; rfl

/-! The two classes that are no entry to the Hasp state -/

section
variable (g : Gikan) (n u r : Nat)

/-- A corrected event, with or without its notice. -/
theorem Gikan.corrected_cases : ∃ k, k = (g.setBitOf (F.FLT_WORDS_GROUPS 0) n).countFault .corrected n 1 ∧
    (g.corrected n u r = k ∨ g.corrected n u r = k.notice) := by
  refine ⟨_, rfl, ?_⟩
  unfold Gikan.corrected Gikan.fault
  dsimp only
  rw [if_pos (rfl : 0 = 0)]
  split
  · exact .inl rfl
  · split
    · exact .inr rfl
    · exact .inl rfl

/-- A contained event, with or without its notice. -/
theorem Gikan.contained_cases : ∃ k, k = (((g.setBitOf (F.FLT_WORDS_GROUPS 0) n).countFault .contained n 1).setBitOf
      (F.FLT_WORDS_GROUPS 1) n).recordSyn n 2 r u ∧ (g.contained n u r = k ∨ g.contained n u r = k.notice) := by
  refine ⟨_, rfl, ?_⟩
  unfold Gikan.contained Gikan.fault
  dsimp only
  rw [if_pos (rfl : 0 = 0)]
  split
  · exact .inl rfl
  · split
    · exact .inr rfl
    · exact .inl rfl

theorem Gikan.faultWord_corrected (hn : n < 64) : (g.corrected n u r).bitOf (F.FLT_WORDS_GROUPS 0) n = true := by
  obtain ⟨k, rfl, h | h⟩ := g.corrected_cases n u r <;> rw [h]
  · rw [Gikan.bitOf_countFault]; exact Gikan.bitOf_setBitOf_same _ _ hn
  · rw [Gikan.bitOf_notice_ne _ _ _ (by decide), Gikan.bitOf_countFault]; exact Gikan.bitOf_setBitOf_same _ _ hn

theorem Gikan.faultWords_contained (hn : n < 64) : (g.contained n u r).bitOf (F.FLT_WORDS_GROUPS 0) n = true ∧
    (g.contained n u r).bitOf (F.FLT_WORDS_GROUPS 1) n = true := by
  obtain ⟨k, hk, h⟩ := g.contained_cases n u r
  have h0 : k.bitOf (F.FLT_WORDS_GROUPS 0) n = true := by
    rw [hk]
    refine (Gikan.bitOf_setBitOf_ne _ _ _ _ _ (by decide)).trans ?_
    rw [Gikan.bitOf_countFault]
    exact Gikan.bitOf_setBitOf_same _ _ hn
  have h1 : k.bitOf (F.FLT_WORDS_GROUPS 1) n = true := by
    rw [hk]
    exact Gikan.bitOf_setBitOf_same _ _ hn
  rcases h with h | h <;> rw [h]
  · exact ⟨h0, h1⟩
  · rw [Gikan.bitOf_notice_ne _ _ _ (by decide), Gikan.bitOf_notice_ne _ _ _ (by decide)]
    exact ⟨h0, h1⟩

end

/-! ## Holdover and the time-split state (R22, R23) -/

theorem satAdd_lt (w n k : Nat) : satAdd w n k < 2 ^ w := by
  have := Nat.two_pow_pos w
  unfold satAdd
  omega

theorem Gikan.get_inc_same (g : Gikan) (f : Fld) (k : Nat) : (g.inc f k).get f = satAdd f.wid (g.get f) k :=
  (Gikan.get_set_same ..).trans (Nat.mod_eq_of_lt (satAdd_lt ..))

theorem Gikan.holdover_due {g : Gikan} {x : Nat} (hc : g.isChild = true) (hx : g.tick.lastExch = some x) (ht : x + 12000 ≤ g.time) :
    g.holdover = g.set F.TICK_STATUS_HOLDOVER 1 := by
  have hage : g.exchAge = g.time - x := by rw [Gikan.exchAge, hx]
  refine if_pos ?_
  rw [hc, hx, hage, decide_eq_true (by omega)]
  rfl

theorem Gikan.holdoverErrorLimit_due {g : Gikan} (hr : g.running = true) (hh : g.on F.TICK_STATUS_HOLDOVER = true)
    (he : 200000000 < g.exchAge * max 1 (g.get F.TICK_LIMITS_HOLD_PPM)) : g.holdoverErrorLimit = g.splitEntry :=
  if_pos (by rw [hr, hh, decide_eq_true he]; rfl)

/-- Entry to the time-split state: its two bits, its count, its fault and the count of good exchanges begun anew. -/
theorem Gikan.splitEntry_sets {g : Gikan} (hh : g.servoHeld = false) (hs : g.on F.TICK_STATUS_SPLIT = false) :
    g.splitEntry.get F.TICK_STATUS_SPLIT = 1 ∧ g.splitEntry.get F.TICK_STATUS_SPLIT_SEEN = 1 ∧
      g.splitEntry.get F.TICK_EVENTS_SPLIT_ENTRIES = satAdd 16 (g.get F.TICK_EVENTS_SPLIT_ENTRIES) 1 ∧
      g.splitEntry.bitOf (F.FLT_WORDS_GROUPS 0) 58 = true ∧ g.splitEntry.bitOf (F.FLT_WORDS_GROUPS 1) 58 = true ∧
      g.splitEntry.mem = g.mem ∧ g.splitEntry.tick = { g.tick with goodSplit := 0 } := by
  have hq : g.splitEntry.quiet = g.splitSet.quiet := by rw [Gikan.splitEntry_enters hh hs, Gikan.quiet_contained]
  obtain ⟨hw0, hw1⟩ := Gikan.faultWords_contained g.splitSet 58 (g.splitSet.get F.TICK_PARENT_PORT) (offOf F.TICK_EVENTS_SPLIT_ENTRIES) (by decide)
  rw [← Gikan.splitEntry_enters hh hs] at hw0 hw1
  refine ⟨?_, ?_, ?_, hw0, hw1, (Gikan.mem_of_quiet hq).trans rfl, (Gikan.tick_of_quiet hq).trans rfl⟩
  · rw [Gikan.get_splitEntry hh hs _ ⟨by decide, by decide⟩, Gikan.split_splitSet]
  · rw [Gikan.get_splitEntry hh hs _ ⟨by decide, by decide⟩, Gikan.get_splitSet, Gikan.get_inc_ne _ _ _ _ (by decide), Gikan.get_set_same]
    rfl
  · rw [Gikan.get_splitEntry hh hs _ ⟨by decide, by decide⟩, Gikan.get_splitSet, Gikan.get_inc_same, Gikan.get_set_ne _ _ _ _ (by decide),
      Gikan.get_set_ne _ _ _ _ (by decide)]
    rfl

/-! ## TICK_REF (R33) -/

/-- The expected edge is missed: it is counted, and the master runs free until the next. -/
def Gikan.refMissed (g : Gikan) (t : Nat) : Gikan :=
  let h := (g.set F.TICK_STATUS_REF_MISSING 1).inc F.TICK_EVENTS_REF_MISSED 1
  { h with tick := { h.tick with refNext := some t, slew := if h.servoHeld then h.tick.slew else 0 } }

theorem Gikan.tickRefMissing_due {g : Gikan} {e : Nat} (hr : g.takesRef = true) (he : g.tick.refNext = some e)
    (ht : e + 1000 * max 1 (g.get F.TICK_REF_PERIOD_PERIOD_US) + 1000 ≤ g.time) : g.tickRefMissing =
      (g.refMissed (e + 1000 * max 1 (g.get F.TICK_REF_PERIOD_PERIOD_US))).corrected 58 0xFFFF (offOf F.TICK_EVENTS_REF_MISSED) := by
  unfold Gikan.tickRefMissing
  rw [he]
  exact if_neg (by rw [hr, decide_eq_true ht]; decide)

theorem Gikan.slew_refMissed {g : Gikan} (t : Nat) (h : g.servoHeld = false) : (g.refMissed t).tick.slew = 0 := by
  refine if_neg ?_
  rw [Gikan.servoHeld, Gikan.on, Gikan.bitOf, Gikan.get_inc_ne _ _ _ _ (by decide), Gikan.get_set_ne _ _ _ _ (by decide),
    Gikan.get_inc_ne _ _ _ _ (by decide), Gikan.get_set_ne _ _ _ _ (by decide)]
  exact Bool.eq_false_iff.mp h

theorem Gikan.tickRefMissing_misses {g : Gikan} {e : Nat} (hr : g.takesRef = true) (he : g.tick.refNext = some e)
    (ht : e + 1000 * max 1 (g.get F.TICK_REF_PERIOD_PERIOD_US) + 1000 ≤ g.time) :
    g.tickRefMissing.get F.TICK_STATUS_REF_MISSING = 1 ∧
      g.tickRefMissing.get F.TICK_EVENTS_REF_MISSED = satAdd 16 (g.get F.TICK_EVENTS_REF_MISSED) 1 ∧
      g.tickRefMissing.bitOf (F.FLT_WORDS_GROUPS 0) 58 = true ∧
      g.tickRefMissing.tick.refNext = some (e + 1000 * max 1 (g.get F.TICK_REF_PERIOD_PERIOD_US)) ∧
      (g.servoHeld = false → g.tickRefMissing.tick.slew = 0) ∧ g.tickRefMissing.mem = g.mem := by
  rw [Gikan.tickRefMissing_due hr he ht]
  generalize e + 1000 * max 1 (g.get F.TICK_REF_PERIOD_PERIOD_US) = n
  have hq := Gikan.quiet_corrected (g.refMissed n) 58 0xFFFF (offOf F.TICK_EVENTS_REF_MISSED)
  have htick := Gikan.tick_of_quiet hq
  refine ⟨?_, ?_, Gikan.faultWord_corrected _ _ _ _ (by decide), by rw [htick]; rfl, fun h => by rw [htick]; exact Gikan.slew_refMissed n h,
    (Gikan.mem_of_quiet hq).trans rfl⟩
  · rw [Gikan.get_corrected _ _ _ _ _ ⟨by decide, by decide⟩, Gikan.refMissed, Gikan.get_withTick, Gikan.get_inc_ne _ _ _ _ (by decide),
      Gikan.get_set_same]
    rfl
  · rw [Gikan.get_corrected _ _ _ _ _ ⟨by decide, by decide⟩, Gikan.refMissed, Gikan.get_withTick, Gikan.get_inc_same,
      Gikan.get_set_ne _ _ _ _ (by decide)]
    rfl

/-! Edges -/

section
variable {g : Gikan}

theorem Gikan.tickRefEdge_untaken (h : g.takesRef = false) : g.tickRefEdge = g := if_pos (by rw [h]; rfl)

/-- An edge that is taken sets the time at which the next is expected, and may set fabric time or steer. -/
theorem Gikan.tickRefEdge_cases (g : Gikan) :
    (∃ x, g.tickRefEdge = { g with tick := { g.tick with refNext := x } }) ∨
    (∃ v x y, g.tickRefEdge = { g.setStamp v with tick := { (g.setStamp v).tick with timeSet := x, refNext := y } }) ∨
    ∃ off x, g.tickRefEdge = { g.steer off with tick := { (g.steer off).tick with refNext := x } } := by
  unfold Gikan.tickRefEdge
  split
  · exact .inl ⟨_, rfl⟩
  · dsimp only
    split
    · split
      · exact .inr (.inl ⟨_, _, _, rfl⟩)
      · exact .inl ⟨_, rfl⟩
    · split
      · exact .inl ⟨_, rfl⟩
      · exact .inr (.inr ⟨_, _, rfl⟩)

/-- An edge keeps the slew limit, and a held servo its slew (R18, R32). -/
theorem Gikan.SyncKeeps.tickRefEdge (g : Gikan) : g.SyncKeeps g.tickRefEdge := by
  rcases g.tickRefEdge_cases with ⟨x, h⟩ | ⟨v, x, y, h⟩ | ⟨off, x, h⟩ <;> rw [h]
  · exact .withTick g (t := { g.tick with refNext := x }) rfl rfl rfl
  · exact (Gikan.SyncKeeps.setStamp g v).trans (.withTick _ (t := { (g.setStamp v).tick with timeSet := x, refNext := y }) rfl rfl rfl)
  · exact (Gikan.SyncKeeps.steer g off).trans (.withTick _ (t := { (g.steer off).tick with refNext := x }) rfl rfl rfl)

theorem Gikan.csr_steer (g : Gikan) (off : Int) : (g.steer off).csr = g.csr := by
  cases h : g.servoHeld with
  | true => rw [Gikan.steer_held off h]
  | false =>
    obtain ⟨x, -, heq⟩ := Gikan.steer_free off h
    rw [heq]

/-- While ticks run an edge steps nothing. -/
theorem Gikan.csr_tickRefEdge_running (ht : g.takesRef = true) (hrun : g.on F.TICK_CTRL_RUN = true) (hr : g.running = true) :
    g.tickRefEdge.csr = g.csr := by
  unfold Gikan.tickRefEdge
  rw [ht, hrun, hr]
  exact Gikan.csr_steer ..

/-- The first edge before RUN steps fabric time to the next multiple of the period. -/
theorem Gikan.tickRefEdge_first (ht : g.takesRef = true) (hrun : g.on F.TICK_CTRL_RUN = false) (hn : g.tick.refNext = none) :
    ∃ k t, k = g.setStamp (256 * g.refCeil g.time) ∧ g.tickRefEdge = { k with tick := t } ∧
      t.refNext = some (g.refCeil g.time + 1000 * max 1 (g.get F.TICK_REF_PERIOD_PERIOD_US)) := by
  unfold Gikan.tickRefEdge
  rw [ht, hrun, hn]
  exact ⟨_, _, rfl, rfl, rfl⟩

theorem Gikan.tickRefEdge_first_steps (ht : g.takesRef = true) (hrun : g.on F.TICK_CTRL_RUN = false) (hn : g.tick.refNext = none)
    (hv : g.refCeil g.time < 2 ^ 64) : g.tickRefEdge.time = g.refCeil g.time ∧
      g.tickRefEdge.tick.refNext = some (g.refCeil g.time + 1000 * max 1 (g.get F.TICK_REF_PERIOD_PERIOD_US)) ∧
      g.tickRefEdge.mem = g.mem := by
  obtain ⟨k, t, hk, h, hnext⟩ := Gikan.tickRefEdge_first ht hrun hn
  have htime := g.time_setStamp (g.refCeil g.time)
  have hmem := (Gikan.SyncKeeps.setStamp g (256 * g.refCeil g.time)).mem
  rw [← hk] at htime hmem
  rw [h]
  exact ⟨htime.trans (Nat.mod_eq_of_lt hv), hnext, hmem⟩

end

/-- An answer keeps the slew limit, and a held servo its slew (R18, R32). -/
theorem Gikan.syncResp_slew (g : Gikan) (p : Nat) (m : TSync) (since : Nat) :
    (g.servoHeld = true → (g.syncResp p m since).tick.slew = g.tick.slew) ∧ (g.syncResp p m since).slewOk g.tick.slew := by
  rcases Gikan.syncResp_cases (g := g) (p := p) (m := m) (since := since) with h | ⟨off, dly, h⟩ <;> rw [h]
  · exact ⟨fun _ => rfl, .inl rfl⟩
  · exact g.exchange_slew m off dly

theorem Gikan.tickRefEdge_slew (g : Gikan) :
    (g.servoHeld = true → g.tickRefEdge.tick.slew = g.tick.slew) ∧ g.tickRefEdge.slewOk g.tick.slew :=
  have h := Gikan.SyncKeeps.tickRefEdge g
  ⟨fun hh => (h.held hh).2, h.slew _ (.inl rfl)⟩

/-- Settles O15: an exchange and an edge keep the limit by what their parts keep (`Gikan.SyncKeeps`); each other row by its own lemma. -/
theorem clockSplits : Obligations.ClockSplits := by
  refine ⟨fun s t c hc ht => ?_, fun s => ⟨fun x hc hx ht => ?_, fun hr hh he hs hsp => ?_, fun hr e he => ?_, fun ht hrun hr => ?_,
    fun ht hrun hn => ?_, fun h => ?_⟩⟩
  · rcases hc with ⟨p, m, since, rfl⟩ | rfl
    · rw [← Host.Outcome.next.inj ht]; exact s.g.syncResp_slew p m since
    · rw [← Host.Outcome.next.inj ht]; exact s.g.tickRefEdge_slew
  · exact congrArg s.done (Gikan.holdover_due hc hx ht)
  · exact ⟨_, congrArg s.done (Gikan.holdoverErrorLimit_due hr hh he), Gikan.splitEntry_sets hs hsp⟩
  · intro p hp
    exact ⟨_, rfl, Gikan.tickRefMissing_misses hr he hp⟩
  · have hcsr := Gikan.csr_tickRefEdge_running ht hrun hr
    exact ⟨_, rfl, Gikan.get_of_csr hcsr _, hcsr, (Gikan.SyncKeeps.tickRefEdge s.g).mem⟩
  · intro p v hv
    exact ⟨_, rfl, Gikan.tickRefEdge_first_steps ht hrun hn hv⟩
  · exact congrArg s.done (Gikan.tickRefEdge_untaken h)

end Sys2Proof.Machine
end

section
namespace Sys2Proof.Machine

/-! ## The tick boundary (R26, R28, R344) -/

theorem Gikan.tickBoundary_due {g : Gikan} (hd : g.boundaryDue = true) (hh : g.hasp = false) : g.tickBoundary = g.boundary := by
  rw [Gikan.tickBoundary, hd, hh]
  rfl

theorem Gikan.tickBoundary_hasp {g : Gikan} (hd : g.boundaryDue = true) (hh : g.hasp = true) : g.tickBoundary =
    { g.periodChange.boundaryNumber with
      req := { g.periodChange.boundaryNumber.req with boundaries := g.periodChange.boundaryNumber.req.boundaries + 1 } } := by
  rw [Gikan.tickBoundary, hd, hh]
  rfl

theorem Gikan.tickBoundary_early {g : Gikan} (h : g.running = false ∨ g.time < g.frameEnd) : g.tickBoundary = g := by
  refine if_pos ?_
  rw [Gikan.boundaryDue]
  rcases h with h | h
  · rw [h]; rfl
  · rw [decide_eq_false (Nat.not_le.mpr h), Bool.and_false]; rfl

/-! The number of the new frame -/

theorem Gikan.boundaryNumber_next {g : Gikan} (hg : g.tick.gap = none) (hl : g.tick.late = false) :
    g.boundaryNumber = g.set F.TICK_COUNT_TICK (g.tickNo + 1) := by
  unfold Gikan.boundaryNumber
  rw [hg, hl]

/-- A period change leaves what it does not set: the wait of R22, memory, the engines, and every other field. -/
theorem Gikan.periodChange_keeps (g : Gikan) : g.periodChange.tick.gap = g.tick.gap ∧ g.periodChange.tick.late = g.tick.late ∧
    g.periodChange.mem = g.mem ∧ g.periodChange.eng = g.eng ∧
    ∀ f : Fld, (∀ e ∈ [F.TICK_PERIOD_PERIOD_US, F.TICK_SWITCH_SWITCH_AT, F.TICK_PERIOD_ARMED_US], f.key ≠ e.key) →
      g.periodChange.get f = g.get f := by
  rcases g.periodChange_cases with h | h <;> rw [h]
  · exact ⟨rfl, rfl, rfl, rfl, fun _ _ => rfl⟩
  · refine ⟨rfl, rfl, rfl, rfl, fun f hf => ?_⟩
    simp only [List.forall_mem_cons] at hf
    obtain ⟨hper, hat, harmed, -⟩ := hf
    rw [Gikan.periodFrom, Gikan.get_set_ne _ _ _ _ harmed, Gikan.get_set_ne _ _ _ _ hat, Gikan.get_set_ne _ _ _ _ hper]
    rfl

section
variable {g : Gikan} (hg : g.tick.gap = none) (hl : g.tick.late = false)
include hg hl

theorem Gikan.numbered_eq : g.periodChange.boundaryNumber = g.periodChange.set F.TICK_COUNT_TICK (g.tickNo + 1) := by
  obtain ⟨hgap, hlate, -, -, hget⟩ := g.periodChange_keeps
  have hno : g.periodChange.tickNo = g.tickNo := hget _ (by decide)
  rw [Gikan.boundaryNumber_next (hgap.trans hg) (hlate.trans hl), hno]

theorem Gikan.tickNo_numbered : g.periodChange.boundaryNumber.tickNo = (g.tickNo + 1) % 2 ^ 64 := by
  rw [Gikan.numbered_eq hg hl]
  exact Gikan.get_set_same ..

theorem Gikan.get_numbered_ne (f : Fld) (hf : f.key ≠ F.TICK_COUNT_TICK.key) :
    g.periodChange.boundaryNumber.get f = g.periodChange.get f := by
  rw [Gikan.numbered_eq hg hl, Gikan.get_set_ne _ _ _ _ hf]

/-- In the Hasp state the count alone goes on. -/
theorem Gikan.tickBoundary_hasp_counts (hd : g.boundaryDue = true) (hh : g.hasp = true) :
    g.tickBoundary.tickNo = (g.tickNo + 1) % 2 ^ 64 ∧ g.tickBoundary.eng = g.eng ∧ g.tickBoundary.mem = g.mem := by
  obtain ⟨-, -, hmem, heng, -⟩ := g.periodChange_keeps
  have hno := Gikan.tickNo_numbered hg hl
  have hnum := Gikan.numbered_eq hg hl
  rw [Gikan.tickBoundary_hasp hd hh]
  exact ⟨hno, (congrArg Gikan.eng hnum).trans heng, (congrArg Gikan.mem hnum).trans hmem⟩

end

/-! Length and budgets of the new frame -/

/-- The new frame has L cycles, and each class its budget of them. -/
theorem Gikan.budget_newFrame (g : Gikan) (c : UClass) : g.newFrame.budget c = g.budgetFor c g.frameLen := by cases c <;> rfl

/-- What the shares of the classes are read from. -/
theorem Gikan.share_congr {g h : Gikan} (c : UClass) (hget : ∀ f : Fld, f.key / 64 = 0x4000A → h.get f = g.get f) : h.share c = g.share c := by
  unfold Gikan.share
  cases c <;> exact congrArg (max 1) (hget _ (by decide))

theorem Gikan.budgetFor_congr {g h : Gikan} (c : UClass) (l : Nat) (hs : h.share c = g.share c)
    (ht : h.get F.PWR_STATE_THROTTLE = g.get F.PWR_STATE_THROTTLE) : h.budgetFor c l = l * g.share c / 64 * g.get F.PWR_STATE_THROTTLE / 64 := by
  rw [Gikan.budgetFor, Gikan.baseFor, hs, ht]

/-! What the overruns of the frame that ends leave of the new one -/

/-- A step that leaves the tick number, the frame's length and its budgets. -/
def Gikan.sameFrame (g h : Gikan) : Prop := h.tickNo = g.tickNo ∧ h.eng.len = g.eng.len ∧ h.eng.budget = g.eng.budget

theorem Gikan.sameFrame.refl (g : Gikan) : g.sameFrame g := ⟨rfl, rfl, rfl⟩

theorem Gikan.sameFrame.trans {g h k : Gikan} (a : g.sameFrame h) (b : h.sameFrame k) : g.sameFrame k := by
  obtain ⟨ha, la, ba⟩ := a
  obtain ⟨hb, lb, bb⟩ := b
  exact ⟨hb.trans ha, lb.trans la, bb.trans ba⟩

theorem Gikan.sameFrame.set (g : Gikan) {f : Fld} (v : Nat) (hf : F.TICK_COUNT_TICK.key ≠ f.key) : g.sameFrame (g.set f v) :=
  ⟨Gikan.get_set_ne _ _ _ _ hf, rfl, rfl⟩

theorem Gikan.sameFrame.foldl {α : Type} {f : Gikan → α → Gikan} (hf : ∀ (h : Gikan) (x : α), h.sameFrame (f h x)) (l : List α) (g : Gikan) :
    g.sameFrame (l.foldl f g) := by
  induction l generalizing g with
  | nil => exact .refl g
  | cons a l ih => exact (hf g a).trans (ih _)

theorem Gikan.sameFrame.setUnit (g : Gikan) (u : UnitId) (x : UnitSt) : g.sameFrame (g.setUnit u x) := ⟨rfl, rfl, rfl⟩

theorem Gikan.sameFrame.corrected (g : Gikan) (n u r : Nat) : g.sameFrame (g.corrected n u r) := by
  have heng := Gikan.eng_of_quiet (Gikan.quiet_corrected g n u r)
  exact ⟨Gikan.get_corrected _ _ _ _ _ ⟨by decide, by decide⟩, by rw [heng], by rw [heng]⟩

/-- The counts of a class's overruns stand behind TICK_COUNT. -/
theorem tickCount_ne_overruns (i : Nat) : F.TICK_COUNT_TICK.key ≠ (F.TICK_OVR_OVERRUNS i).key ∧
    F.TICK_COUNT_TICK.key ≠ (F.TICK_OVR_LONG_OVERRUNS i).key := by
  simp only [F.TICK_COUNT_TICK, F.TICK_OVR_OVERRUNS, F.TICK_OVR_LONG_OVERRUNS]
  omega

theorem Gikan.sameFrame.longOverrun (g : Gikan) (u : UnitId) (n : Nat) : g.sameFrame (g.longOverrun u n) := by
  have hcount : g.sameFrame (g.inc (F.TICK_OVR_LONG_OVERRUNS (classCode u.cls)) 1) := .set g _ (tickCount_ne_overruns _).2
  unfold Gikan.longOverrun
  refine (hcount.trans ?_).trans (.corrected _ _ _ _)
  split
  · exact .set _ _ (by decide)
  · exact (((Gikan.sameFrame.set _ _ (by decide)).trans (.set _ _ (by decide))).trans (.set _ _ (by decide))).trans (.set _ _ (by decide))

theorem Gikan.sameFrame.overrunOne (g : Gikan) (u : UnitId) (n : Nat) (r : RunItem) : g.sameFrame (g.overrunOne u n r) := by
  unfold Gikan.overrunOne
  split
  · exact Gikan.sameFrame.trans (h := g.inc (F.TICK_OVR_OVERRUNS (classCode u.cls)) 1) (.set g _ (tickCount_ne_overruns _).1) ⟨rfl, rfl, rfl⟩
  · exact .longOverrun g u n
  · exact .refl g

theorem Gikan.sameFrame.unitBoundary (g : Gikan) (u : UnitId) (n : Nat) : g.sameFrame (g.unitBoundary u n) := by
  have hover : ∀ x : UnitSt, g.sameFrame (x.run.foldl (fun h r => h.overrunOne u n r)
      (g.setUnit u { x with run := x.run.map (fun r => { r with late := min 2 (r.late + 1) }) })) := fun x =>
    (Gikan.sameFrame.setUnit g u _).trans (.foldl (fun h r => .overrunOne h u n r) _ _)
  unfold Gikan.unitBoundary
  dsimp only
  split
  · exact .setUnit ..
  · split
    · split
      · exact .setUnit ..
      · exact hover _
    · exact hover _

theorem Gikan.sameFrame.unitsBoundary (g : Gikan) (n : Nat) : g.sameFrame (g.unitsBoundary n) := by
  unfold Gikan.unitsBoundary
  refine Gikan.sameFrame.foldl (fun h e => ?_) _ g
  exact Gikan.sameFrame.unitBoundary h (unitOfKey e.1) n

/-! The samples of the frame that ends -/

theorem Gikan.foldl_withFlt {α : Type} {f : Gikan → α → Gikan} (hf : ∀ h x, ∃ fl, f h x = { h with flt := fl }) (l : List α) (g : Gikan) :
    ∃ fl, l.foldl f g = { g with flt := fl } := by
  induction l generalizing g with
  | nil => exact ⟨g.flt, rfl⟩
  | cons a l ih =>
    obtain ⟨fl, h⟩ := hf g a
    obtain ⟨fl', h'⟩ := ih (f g a)
    exact ⟨fl', h'.trans (by rw [h])⟩

theorem Gikan.slackSamples_eq (g : Gikan) : ∃ fl, g.slackSamples = { g with flt := fl } := by
  refine Gikan.foldl_withFlt (fun h m => ?_) _ g
  split
  · exact ⟨_, rfl⟩
  · exact ⟨h.flt, rfl⟩

theorem Gikan.periodChange_withFlt (g : Gikan) (fl : FltSt) :
    ({ g with flt := fl } : Gikan).periodChange = { g.periodChange with flt := fl } := by
  have hchanges : ({ g with flt := fl } : Gikan).changes = g.changes := rfl
  rw [Gikan.periodChange_eq, Gikan.periodChange_eq, hchanges]
  cases g.changes <;> rfl

/-! The tick's own part of a boundary -/

/-- The new frame of a boundary that no late period change disturbs. -/
theorem Gikan.tickFrame_frame {g : Gikan} (hg : g.tick.gap = none) (hl : g.tick.late = false) :
    g.tickFrame.tickNo = (g.tickNo + 1) % 2 ^ 64 ∧
      g.tickFrame.eng.len = g.periodChange.get F.TICK_PERIOD_PERIOD_US * g.get F.PWR_STATE_ACLK_MHZ ∧
      ∀ c, g.tickFrame.budget c = g.periodChange.get F.TICK_PERIOD_PERIOD_US * g.get F.PWR_STATE_ACLK_MHZ * g.share c / 64 *
        g.get F.PWR_STATE_THROTTLE / 64 := by
  obtain ⟨fl, hslack⟩ := g.slackSamples_eq
  obtain ⟨-, -, -, -, hkeep⟩ := g.periodChange_keeps
  have hgap : ({ g with flt := fl } : Gikan).tick.gap = none := hg
  have hlate : ({ g with flt := fl } : Gikan).tick.late = false := hl
  obtain ⟨k, hk⟩ : ∃ k, k = ({ g with flt := fl } : Gikan).periodChange.boundaryNumber := ⟨_, rfl⟩
  have hget : ∀ f : Fld, f.key ≠ F.TICK_COUNT_TICK.key → k.get f = g.periodChange.get f := fun f hf => by
    rw [hk, Gikan.get_numbered_ne hgap hlate f hf, Gikan.periodChange_withFlt]
    rfl
  have hno : k.tickNo = (g.tickNo + 1) % 2 ^ 64 := by rw [hk]; exact Gikan.tickNo_numbered hgap hlate
  have hlen : k.frameLen = g.periodChange.get F.TICK_PERIOD_PERIOD_US * g.get F.PWR_STATE_ACLK_MHZ := by
    rw [Gikan.frameLen, hget _ (by decide), hget _ (by decide), hkeep F.PWR_STATE_ACLK_MHZ (by decide)]
  have hshare : ∀ c, k.share c = g.share c := fun c => Gikan.share_congr c fun f hf => by
    have hne : ∀ e : Fld, e.key / 64 ≠ 0x4000A → f.key ≠ e.key := fun e he h => he (h ▸ hf)
    rw [hget f (hne _ (by decide)), hkeep f fun e he => hne e (by revert e; decide)]
  obtain ⟨htick, hl', hb⟩ := Gikan.sameFrame.unitsBoundary { k.newFrame with
    req := { k.newFrame.req with boundaries := k.newFrame.req.boundaries + 1 } } g.tickNo
  have hframe : g.tickFrame = Gikan.unitsBoundary { k.newFrame with
      req := { k.newFrame.req with boundaries := k.newFrame.req.boundaries + 1 } } g.tickNo := by
    rw [hk, ← hslack]
    rfl
  rw [hframe]
  refine ⟨htick.trans hno, hl'.trans hlen, fun c => ?_⟩
  calc Gikan.budget _ c = k.newFrame.budget c := congrArg (fun b => b.getD (classCode c) 0) hb
    _ = k.budgetFor c k.frameLen := k.budget_newFrame c
    _ = _ := by
      rw [hlen]
      refine Gikan.budgetFor_congr c _ (hshare c) ?_
      rw [hget _ (by decide), hkeep _ (by decide)]

/-- Settles O16: a boundary that is due is the chain of its blocks; what the new frame takes is `Gikan.tickFrame_frame`. -/
theorem tickBoundary : Obligations.TickBoundary := by
  refine fun s => ⟨fun hr he hh => ?_, fun hr he hh hg hl => ?_, fun h => ?_, fun hg hl => ?_⟩
  · exact congrArg s.done (Gikan.tickBoundary_due (Gikan.boundaryDue_of hr he) hh)
  · exact ⟨_, rfl, Gikan.tickBoundary_hasp_counts hg hl (Gikan.boundaryDue_of hr he) hh⟩
  · exact congrArg s.done (Gikan.tickBoundary_early h)
  · exact Gikan.tickFrame_frame hg hl

end Sys2Proof.Machine
end

section
namespace Sys2Proof.Machine

/-! ## Framed units (R28 to R31) -/

@[simp] theorem Gikan.unit_setUnit (g : Gikan) (u : UnitId) (x : UnitSt) : (g.setUnit u x).unit u = x := Tbl.getD_setD_same ..

theorem Gikan.unit_setUnit_ne (g : Gikan) {u v : UnitId} (x : UnitSt) (h : unitKey v ≠ unitKey u) : (g.setUnit u x).unit v = g.unit v :=
  Tbl.getD_setD_ne _ _ _ _ h

/-! What an admission leaves beside its unit -/

/-- A step that leaves the units, memory and the count of items above their budget. -/
def Gikan.sameUnits (g h : Gikan) : Prop :=
  (∀ u, h.unit u = g.unit u) ∧ h.mem = g.mem ∧ h.get F.TICK_EVENTS_BIG_ADMITS = g.get F.TICK_EVENTS_BIG_ADMITS

theorem Gikan.sameUnits.trans {g h k : Gikan} (a : g.sameUnits h) (b : h.sameUnits k) : g.sameUnits k := by
  obtain ⟨ua, ma, ca⟩ := a
  obtain ⟨ub, mb, cb⟩ := b
  exact ⟨fun u => (ub u).trans (ua u), mb.trans ma, cb.trans ca⟩

theorem Gikan.sameUnits.refl (g : Gikan) : g.sameUnits g := ⟨fun _ => rfl, rfl, rfl⟩

theorem Gikan.sameUnits.takeSample (g : Gikan) (u : UnitId) (i : Item) : g.sameUnits (g.takeSample u i) := by
  unfold Gikan.takeSample
  split
  · exact .refl g
  · split
    · exact ⟨fun _ => rfl, rfl, rfl⟩
    · exact ⟨fun _ => rfl, rfl, Gikan.get_inc_ne _ _ _ _ (by decide)⟩

theorem Gikan.sameUnits.viewed (g : Gikan) (c : Nat) (f : View → View) : g.sameUnits (g.viewed c f) := ⟨fun _ => rfl, rfl, rfl⟩

theorem Gikan.sameUnits.blocksRead (g : Gikan) (w : Work) (refs : Tbl Nat) : g.sameUnits (g.blocksRead w refs) := by
  unfold Gikan.blocksRead
  split
  · exact .refl g
  · exact ⟨fun _ => rfl, rfl, rfl⟩

/-! Admission (R29, R30) -/

section
variable {g : Gikan} {u : UnitId} {t : Nat} {i : Item} {rest : List Item} (hq : (g.unit u).queue = i :: rest)
include hq

/-- The head item fits behind what the unit has admitted. -/
theorem Gikan.unitAdmit_fits (ho : g.admitOpen u = true) (hc : (g.unit u).carried = false) (hb : i.cost ≤ g.budget u.cls)
    (hfit : max t (g.unit u).busy + i.cost ≤ g.budget u.cls) : g.unitAdmit u t =
      ((g.setUnit u { g.unit u with queue := rest, run := (g.unit u).run ++ [⟨i, 0⟩], busy := max t (g.unit u).busy + i.cost }).takeSample
        u i).viewed i.cmpt View.item := by
  unfold Gikan.unitAdmit
  dsimp only
  rw [hq]
  dsimp only
  rw [ho, hc, if_neg (Nat.not_lt.mpr hb), if_pos hfit]
  rfl

/-- The head item is above the budget: an idle unit takes it at the boundary, alone. -/
theorem Gikan.unitAdmit_big (ho : g.admitOpen u = true) (hc : (g.unit u).carried = false) (hb : g.budget u.cls < i.cost)
    (hrun : (g.unit u).run = []) (hbusy : (g.unit u).busy = 0) : g.unitAdmit u 0 =
      (((g.setUnit u { g.unit u with queue := rest, run := [⟨i, 0⟩], hold := some (i.cost, g.budget u.cls) }).inc
        F.TICK_EVENTS_BIG_ADMITS 1).takeSample u i).viewed i.cmpt View.item := by
  have hidle : (g.unit u).isIdle = true := by
    obtain ⟨hhold, -⟩ := Bool.or_eq_false_iff.mp hc
    rw [UnitSt.isIdle, hrun, ← Option.not_isSome, hhold]
    rfl
  unfold Gikan.unitAdmit
  dsimp only
  rw [hq]
  dsimp only
  rw [ho, hc, if_pos hb, hidle, hbusy]
  rfl

/-- A unit that is not open, still carries an earlier item or has no room leaves its head item where it is. -/
theorem Gikan.unitAdmit_waits (h : g.admitOpen u = false ∨ (g.unit u).carried = true ∨
      (i.cost ≤ g.budget u.cls ∧ g.budget u.cls < max t (g.unit u).busy + i.cost) ∨ (g.budget u.cls < i.cost ∧ t ≠ 0)) :
    g.unitAdmit u t = g := by
  unfold Gikan.unitAdmit
  dsimp only
  rw [hq]
  dsimp only
  rcases h with h | h | ⟨hb, h⟩ | ⟨hb, ht⟩
  · rw [h]; rfl
  · rw [h, Bool.or_true]; rfl
  · rw [if_neg (Nat.not_lt.mpr hb), if_neg (Nat.not_le.mpr h), ite_self]
  · rw [if_pos hb, decide_eq_false ht, Bool.false_and, Bool.false_and, if_neg Bool.false_ne_true, ite_self]

/-- An item of a command on a gather, filter or matrix engine counts on the blocks it reads from its admission. -/
theorem Gikan.admitAt_job {kw idx k : Nat} (hw : i.work = .job kw idx k) (hcls : u.cls ≠ .mov)
    (hlen : ((g.unitAdmit u t).unit u).run.length ≠ (g.unit u).run.length) :
    g.admitAt u t = (g.unitAdmit u t).blocksRead i.work ((g.unitAdmit u t).itemRefs (.cmd kw idx) k) := by
  unfold Gikan.admitAt
  rw [hq]
  dsimp only
  rw [if_neg hlen, hw]
  exact if_neg hcls

theorem Gikan.admitAt_waits (h : g.unitAdmit u t = g) : g.admitAt u t = g := by
  unfold Gikan.admitAt
  rw [hq]
  dsimp only
  rw [h]
  exact if_pos rfl

end

theorem Gikan.itemAdmit_engine {g : Gikan} {u : UnitId} {t : Nat} (hu : u.cls = .gth ∨ u.cls = .flt ∨ u.cls = .mtx) (hn : u.n < 32) :
    g.itemAdmit u t = g.admitAt u t := by
  have hex : unitExists u = true := by
    unfold unitExists
    rcases hu with h | h | h <;> rw [h] <;> exact decide_eq_true hn
  have hpin : u.cls ≠ .pin := by rcases hu with h | h | h <;> rw [h] <;> decide
  unfold Gikan.itemAdmit
  rw [hex, if_neg hpin]
  rfl

/-- An admission of an item of a command leaves what its unit's own step `k` leaves, the blocks that it will read apart. -/
theorem Gikan.itemAdmit_admits {g k : Gikan} {u : UnitId} {t : Nat} {i : Item} {rest : List Item} {kw idx j : Nat}
    (hu : u.cls = .gth ∨ u.cls = .flt ∨ u.cls = .mtx) (hn : u.n < 32) (hq : (g.unit u).queue = i :: rest) (hw : i.work = .job kw idx j)
    (hk : k.sameUnits (g.unitAdmit u t)) (hlen : (k.unit u).run.length ≠ (g.unit u).run.length) : k.sameUnits (g.itemAdmit u t) := by
  have hcls : u.cls ≠ .mov := by rcases hu with h | h | h <;> rw [h] <;> decide
  obtain ⟨hunit, -, -⟩ := id hk
  rw [← hunit] at hlen
  rw [Gikan.itemAdmit_engine hu hn, Gikan.admitAt_job hq hw hcls hlen]
  exact hk.trans (.blocksRead ..)

/-! The end of an item (R29, R31) -/

theorem Gikan.itemEnd_engine {g : Gikan} {u : UnitId} {t : Nat} (hu : u.cls = .gth ∨ u.cls = .flt ∨ u.cls = .mtx) (hh : g.hasp = false) :
    g.itemEnd u t = g.engineItemEnd u t := by
  unfold Gikan.itemEnd
  rw [hh]
  rcases hu with h | h | h <;> rw [h] <;> rfl

theorem Gikan.runHead_of_run {g : Gikan} {u : UnitId} {r : RunItem} {rest : List RunItem} (h : (g.unit u).run = r :: rest) :
    g.runHead u = some r := by rw [Gikan.runHead, h]; rfl

/-- What the item of an owner belongs to takes its end, settled. -/
theorem Gikan.engineItemEnd_owner {g : Gikan} {u : UnitId} {t k : Nat} {r : RunItem} {rest : List RunItem} {o : Owner}
    (hr : (g.unit u).run = r :: rest) (hw : r.item.work = o.work k) (hs : g.scanTurn o k = true) : g.engineItemEnd u t =
      (g.asItem (itemKey u r.item.work)).settleAlso (((g.asItem (itemKey u r.item.work)).unitFinish u t).gfsItemEnd o u k)
        (fun h => if u.cls = .mtx ∧ k < loadItem then h.keyWait else h) := by
  have howner : g.engineItemEnd u t = g.ownerItemEnd u t r.item.work o k := by
    unfold Gikan.engineItemEnd
    rw [Gikan.runHead_of_run hr]
    dsimp only
    rw [hw]
    cases o <;> rfl
  rw [howner, Gikan.ownerItemEnd, hs]
  rfl

theorem Gikan.itemEnd_left {g : Gikan} {u : UnitId} {t : Nat} (hu : u.cls = .gth ∨ u.cls = .flt ∨ u.cls = .mtx)
    (h : (g.unit u).run = [] ∨ g.hasp = true) : g.itemEnd u t = g := by
  cases hh : g.hasp with
  | true => exact if_pos hh
  | false =>
    have hrun : g.runHead u = none := by rw [Gikan.runHead, h.resolve_right (by rw [hh]; decide)]; rfl
    rw [Gikan.itemEnd_engine hu hh, Gikan.engineItemEnd, hrun]

/-- The unit is free of the item that it ran; one that had run over a boundary takes the cycle as its busy_until. -/
theorem Gikan.unitFinish_frees {g : Gikan} {u : UnitId} {r : RunItem} {rest : List RunItem} (t : Nat) (hr : (g.unit u).run = r :: rest) :
    ((g.unitFinish u t).unit u).run = rest ∧ ((g.unitFinish u t).unit u).queue = (g.unit u).queue ∧
      ((g.unit u).hold ≠ none → rest = [] → ((g.unitFinish u t).unit u).busy = t ∧ ((g.unitFinish u t).unit u).hold = none) := by
  unfold Gikan.unitFinish
  dsimp only
  rw [hr]
  dsimp only
  rw [Gikan.unit_setUnit]
  refine ⟨?_, ?_, fun hh hrest => ?_⟩
  · split <;> split <;> rfl
  · split <;> split <;> rfl
  · have hcarried : (g.unit u).carried = true := by rw [UnitSt.carried, Option.isSome_iff_ne_none.mpr hh]; rfl
    rw [hcarried, hrest]
    exact ⟨rfl, rfl⟩

/-! ## Steps that wait for nothing (R111, R150) -/

/-- A step that stalls on nothing has its effect whole, and its work item has gone on. -/
theorem Gikan.settleAlso_whole {g done : Gikan} (also : Gikan → Gikan) (h : g.stalls done = false) :
    g.settleAlso done also = (done.wentOn g.coh.who).asItem [] := by
  unfold Gikan.settleAlso
  rw [h]
  rfl

theorem Gikan.cohSettle_whole {g done : Gikan} (h : g.stalls done = false) : g.cohSettle done = done.asItem g.coh.who := by
  have hs : (g.asItem []).stalls done = false := h
  rw [Gikan.cohSettle, Gikan.settleAlso_whole _ hs]
  rfl

/-- Settles O17: an admission by the branch of `Gikan.unitAdmit` that its unit takes, an end by `Gikan.engineItemEnd_owner`, and a step that
waits for nothing by `Gikan.settleAlso_whole`. -/
theorem framedItems : Obligations.FramedItems := by
  refine ⟨fun s u t i rest kw idx k hu hn hq hw => ?_, fun s u t hu => ⟨fun r rest o k hh hr hw hs => ?_, fun h => ?_⟩,
    fun g done who f => ⟨Gikan.cohSettle_whole, Gikan.settleAlso_whole _⟩⟩
  · intro x b
    refine ⟨fun ho hc hb hfit => ?_, fun ho hc hb ht hrun hbusy => ?_, fun h => ?_⟩
    · obtain ⟨hunit, hmem, -⟩ := Gikan.itemAdmit_admits (t := t) hu hn hq hw
        (Gikan.unitAdmit_fits hq ho hc hb hfit ▸ (Gikan.sameUnits.takeSample _ _ _).trans (.viewed _ _ _))
        (by rw [Gikan.unit_setUnit, List.length_append]; exact Nat.succ_ne_self _)
      exact ⟨_, rfl, (hunit u).trans (Gikan.unit_setUnit ..), fun v hv => (hunit v).trans (Gikan.unit_setUnit_ne _ _ hv), hmem⟩
    · subst ht
      obtain ⟨hunit, hmem, hbig⟩ := Gikan.itemAdmit_admits (t := 0) hu hn hq hw
        (Gikan.unitAdmit_big hq ho hc hb hrun hbusy ▸ (Gikan.sameUnits.takeSample _ _ _).trans (.viewed _ _ _))
        (by rw [hrun]; exact (congrArg (fun y : UnitSt => y.run.length) (Gikan.unit_setUnit s.g u _)).trans_ne Nat.one_ne_zero)
      exact ⟨_, rfl, (hunit u).trans (Gikan.unit_setUnit ..), hbig.trans (Gikan.get_inc_same ..), hmem⟩
    · have hwaits := Gikan.unitAdmit_waits hq h
      exact congrArg s.done ((Gikan.itemAdmit_engine hu hn).trans (Gikan.admitAt_waits hq hwaits))
  · intro h done also
    obtain ⟨hrun, hqueue, hheld⟩ := Gikan.unitFinish_frees t hr
    exact ⟨congrArg s.done ((Gikan.itemEnd_engine hu hh).trans (Gikan.engineItemEnd_owner hr hw hs)), Gikan.settleAlso_whole also, hrun, hqueue,
      hheld⟩
  · exact congrArg s.done (Gikan.itemEnd_left hu h)

end Sys2Proof.Machine
end

section
namespace Sys2Proof.Machine

/-! ## Steps that stop in the Hasp state (R344) -/

/-- A row that stops in the Hasp state, outside it. -/
theorem exec_live {c : Instr} {s : State} {f : Gikan → Gikan} {k : Gikan} (hc : exec c s = s.done (s.g.live f)) (hh : s.g.hasp = false)
    (hk : f s.g = k) : exec c s = .next (s.withG k) := by
  rw [hc, Gikan.live, hh, if_neg Bool.false_ne_true, hk]; rfl

/-- Such a row has no effect where its step has none. -/
theorem exec_live_idle {c : Instr} {s : State} {f : Gikan → Gikan} (hc : exec c s = s.done (s.g.live f)) (hk : f s.g = s.g) :
    exec c s = .next s := by
  rw [hc, Gikan.live, hk, ite_self]; rfl

theorem Gikan.on_of_get {g : Gikan} {f : Fld} {n : Nat} (h : g.get f = n) : g.on f = (n != 0) := by rw [Gikan.on, h]

theorem Gikan.req_of_quiet {g h : Gikan} (e : h.quiet = g.quiet) : h.req = g.req := congrArg (fun x => x.2.2.2.2.2.2.2.2.1) e
theorem Gikan.req_of_body {g h : Gikan} (e : h.body = g.body) : h.req = g.req := (congrArg Gikan.req e :)
theorem Gikan.map_of_body {g h : Gikan} (e : h.body = g.body) : h.map = g.map := (congrArg Gikan.map e :)

/-! ## Quiesce (R78) -/

/-- MAP_QUIESCE with a new mask: no mask and a newly masked compartment clear DONE. -/
def Gikan.withMask (g : Gikan) (v : Nat) : Gikan :=
  let h := g.set F.MAP_QUIESCE_CMPT_MASK v
  if v % 65536 = 0 ∨ (v % 65536 &&& (v % 65536 ^^^ g.get F.MAP_QUIESCE_CMPT_MASK)) ≠ 0 then h.set F.MAP_QUIESCE_DONE 0 else h

/-- Beside the register, a write of it changes only which recalls are remembered. -/
theorem Gikan.wrQuiesce_eq (g : Gikan) (w : RegW) :
    ∃ c, g.wrQuiesce w = { g.withMask (g.wrValue w F.MAP_QUIESCE_CMPT_MASK) with coh := c } := by
  have hput : g.putField w F.MAP_QUIESCE_CMPT_MASK = g.set F.MAP_QUIESCE_CMPT_MASK (g.wrValue w F.MAP_QUIESCE_CMPT_MASK) := rfl
  have hnew : (g.putField w F.MAP_QUIESCE_CMPT_MASK).get F.MAP_QUIESCE_CMPT_MASK = g.wrValue w F.MAP_QUIESCE_CMPT_MASK % 65536 :=
    Gikan.get_set_same ..
  unfold Gikan.wrQuiesce Gikan.withMask
  dsimp only
  rw [hnew, hput]
  split <;> exact ⟨_, rfl⟩

theorem Gikan.body_withMask (g : Gikan) (v : Nat) : (g.withMask v).body = g.body := by
  unfold Gikan.withMask
  dsimp only
  split <;> rfl

theorem Gikan.mask_withMask (g : Gikan) (v : Nat) : (g.withMask v).get F.MAP_QUIESCE_CMPT_MASK = v % 65536 := by
  unfold Gikan.withMask
  dsimp only
  split
  · exact (Gikan.get_set_ne _ _ _ _ (by decide)).trans (Gikan.get_set_same ..)
  · exact Gikan.get_set_same ..

theorem Gikan.done_withMask (g : Gikan) (v : Nat) : (g.withMask v).get F.MAP_QUIESCE_DONE =
    if v % 65536 = 0 ∨ (v % 65536 &&& (v % 65536 ^^^ g.get F.MAP_QUIESCE_CMPT_MASK)) ≠ 0 then 0 else g.get F.MAP_QUIESCE_DONE := by
  unfold Gikan.withMask
  dsimp only
  split
  · exact Gikan.get_set_same ..
  · exact Gikan.get_set_ne _ _ _ _ (by decide)

theorem Gikan.get_withMask_ne (g : Gikan) (v : Nat) (f : Fld) (hm : f.key ≠ F.MAP_QUIESCE_CMPT_MASK.key) (hd : f.key ≠ F.MAP_QUIESCE_DONE.key) :
    (g.withMask v).get f = g.get f := by
  unfold Gikan.withMask
  dsimp only
  split
  · rw [Gikan.get_set_ne _ _ _ _ hd, Gikan.get_set_ne _ _ _ _ hm]
  · exact Gikan.get_set_ne _ _ _ _ hm

theorem Gikan.quiesceDone_drained {g : Gikan} (hm : g.get F.MAP_QUIESCE_CMPT_MASK ≠ 0) (hb : g.quiesceBusy = false) :
    g.quiesceDone = g.set F.MAP_QUIESCE_DONE 1 := if_pos ⟨hm, by rw [hb]; rfl⟩

theorem Gikan.quiesceDone_busy {g : Gikan} (hb : g.quiesceBusy = true) : g.quiesceDone = g :=
  if_neg fun h => by rw [hb] at h; exact absurd h.2 (by decide)

theorem Gikan.quiesceDone_unmasked {g : Gikan} (hm : g.get F.MAP_QUIESCE_CMPT_MASK = 0) : g.quiesceDone = g := if_neg fun h => h.1 hm

/-! ## Revoke (R79, R80) -/

/-! A write with GO -/

/-- A revoke that is committed: its drain begins. -/
def Gikan.revokeBegin (g : Gikan) (i : Nat) : Gikan :=
  let h := (((g.set F.MAP_REVOKE_STATUS_DRAINING 1).set F.MAP_REVOKE_STATUS_DONE 0).set F.MAP_REVOKE_STATUS_ABORTED 0).set
    F.MAP_REVOKE_STATUS_ENTRY i
  { h with map := { h.map with revoked := h.map.revoked.put i false, revokeAt := some (i, h.time) } }

theorem Gikan.get_revokeBegin (g : Gikan) (i : Nat) : (g.revokeBegin i).get F.MAP_REVOKE_STATUS_DRAINING = 1 ∧
    (g.revokeBegin i).get F.MAP_REVOKE_STATUS_DONE = 0 ∧ (g.revokeBegin i).get F.MAP_REVOKE_STATUS_ABORTED = 0 ∧
    (g.revokeBegin i).get F.MAP_REVOKE_STATUS_ENTRY = i % 65536 := by
  have hcsr (f : Fld) : (g.revokeBegin i).get f = ((((g.set F.MAP_REVOKE_STATUS_DRAINING 1).set F.MAP_REVOKE_STATUS_DONE 0).set
      F.MAP_REVOKE_STATUS_ABORTED 0).set F.MAP_REVOKE_STATUS_ENTRY i).get f := rfl
  refine ⟨?_, ?_, ?_, Gikan.get_set_same ..⟩ <;> rw [hcsr, Gikan.get_set_ne _ _ _ _ (by decide)]
  · rw [Gikan.get_set_ne _ _ _ _ (by decide), Gikan.get_set_ne _ _ _ _ (by decide), Gikan.get_set_same]; rfl
  · rw [Gikan.get_set_ne _ _ _ _ (by decide), Gikan.get_set_same]; rfl
  · rw [Gikan.get_set_same]; rfl

/-- The drain's time begins with the write. -/
theorem Gikan.map_revokeBegin (g : Gikan) (i : Nat) :
    (g.revokeBegin i).map = { g.map with revoked := g.map.revoked.put i false, revokeAt := some (i, g.time) } := by
  have htime : ((((g.set F.MAP_REVOKE_STATUS_DRAINING 1).set F.MAP_REVOKE_STATUS_DONE 0).set F.MAP_REVOKE_STATUS_ABORTED 0).set
      F.MAP_REVOKE_STATUS_ENTRY i).time = g.time := by
    simp only [Gikan.time]
    iterate 4 rw [Gikan.get_set_ne _ _ _ _ (by decide)]
  rw [← htime]; rfl

section
variable {g : Gikan} {w : RegW} {i : Nat} (hgo : wrOne w F.MAP_REVOKE_GO = true) (hi : bits w.data.toNat 0 16 = i)
include hgo hi

theorem Gikan.wrRevoke_commits (hd : g.on F.MAP_REVOKE_STATUS_DRAINING = false) (hr : g.map.revoked.get? i = none)
    (hh : g.map.hand.get? i = none) (hv : (g.map.cur.entry i).valid = true) (hn : (g.map.cur.entry i).home = g.node) :
    g.wrRevoke w = g.revokeBegin i := by
  subst hi
  simp only [Gikan.wrRevoke, hgo, hd, hr, hh, hv, hn, beq_self_eq_true]
  rfl

theorem Gikan.wrRevoke_repeated (h : g.on F.MAP_REVOKE_STATUS_DRAINING = true ∨ (g.map.revoked.get? i).isSome = true) :
    g.wrRevoke w = g.inc F.MAP_DUP_REVOKE_IGNORED 1 := by
  subst hi
  unfold Gikan.wrRevoke
  rw [hgo]
  exact if_pos (Bool.or_eq_true_iff.mpr h)

theorem Gikan.wrRevoke_elsewhere (hh : g.map.hand.get? i = none)
    (h : (g.map.cur.entry i).valid = false ∨ (g.map.cur.entry i).home ≠ g.node) : g.wrRevoke w = g.inc F.MAP_DUP_REVOKE_IGNORED 1 := by
  have hnot : ((g.map.cur.entry i).valid && (g.map.cur.entry i).home == g.node) = false := by
    rcases h with hv | hn
    · rw [hv]; rfl
    · rw [beq_false_of_ne hn, Bool.and_false]
  subst hi
  simp only [Gikan.wrRevoke, hgo, hh, hnot]
  exact ite_self _

end

/-! The end of a drain -/

theorem Gikan.get_revokeEnd (g : Gikan) (i : Nat) (f : Fld) : (g.revokeEnd i).get f =
    ((g.set F.MAP_REVOKE_STATUS_DRAINING 0).set F.MAP_REVOKE_STATUS_DONE 1).get f := rfl

theorem Gikan.draining_revokeEnd (g : Gikan) (i : Nat) : (g.revokeEnd i).on F.MAP_REVOKE_STATUS_DRAINING = false :=
  Gikan.on_of_get ((Gikan.get_revokeEnd ..).trans ((Gikan.get_set_ne _ _ _ _ (by decide)).trans (Gikan.get_set_same ..)))

theorem Gikan.done_revokeEnd (g : Gikan) (i : Nat) : (g.revokeEnd i).on F.MAP_REVOKE_STATUS_DONE = true :=
  Gikan.on_of_get ((Gikan.get_revokeEnd ..).trans (Gikan.get_set_same ..))

theorem Gikan.get_revokeEnd_ne (g : Gikan) (i : Nat) (f : Fld) (hr : f.key ≠ F.MAP_REVOKE_STATUS_DRAINING.key)
    (hd : f.key ≠ F.MAP_REVOKE_STATUS_DONE.key) : (g.revokeEnd i).get f = g.get f := by
  rw [Gikan.get_revokeEnd, Gikan.get_set_ne _ _ _ _ hd, Gikan.get_set_ne _ _ _ _ hr]

@[simp] theorem Gikan.req_revokeEnd (g : Gikan) (i : Nat) : (g.revokeEnd i).req = g.req := rfl

/-! DONE, and DRAIN_US -/

section
variable {g : Gikan}

theorem Gikan.revokeDone_none (h : g.map.revokeAt = none) : g.revokeDone = g := by rw [Gikan.revokeDone, h]
theorem Gikan.revokeTimeout_none (h : g.map.revokeAt = none) : g.revokeTimeout = g := by rw [Gikan.revokeTimeout, h]

variable {i t : Nat} (h : g.map.revokeAt = some (i, t))
include h

theorem Gikan.revokeDone_pending (hn : g.pendingCount i ≠ 0) : g.revokeDone = g := by
  rw [Gikan.revokeDone, h]; exact if_neg hn

theorem Gikan.revokeDone_drained (hn : g.pendingCount i = 0) : g.revokeDone = g.revokeEnd i := by
  rw [Gikan.revokeDone, h]; exact if_pos hn

theorem Gikan.revokeTimeout_early (ht : g.time < t + 1000 * max 10 (g.get F.MAP_REVOKE_DRAIN_DRAIN_US)) : g.revokeTimeout = g := by
  rw [Gikan.revokeTimeout, h]; exact if_pos ht

theorem Gikan.revokeTimeout_drained (ht : t + 1000 * max 10 (g.get F.MAP_REVOKE_DRAIN_DRAIN_US) ≤ g.time) (hn : g.pendingCount i = 0) :
    g.revokeTimeout = g.revokeEnd i := by
  rw [Gikan.revokeTimeout, h]
  exact (if_neg (Nat.not_lt.mpr ht)).trans (if_pos hn)

end

/-- What is pending on an extent is aborted: held requests, then agents' transactions, then jobs. -/
def Gikan.abortPending (g : Gikan) (i : Nat) : Gikan :=
  let g := (g.pendingOn i).foldl (fun h r => h.abortHeld r) g
  let g := (g.pendingTxns i).foldl (fun h t => h.abortTxn t) g
  (g.pendingJobs i).foldl (fun h j => h.abortJob j) g

/-- `n` aborts are counted, flagged and logged, and the drain ends. -/
def Gikan.abortsEnd (g : Gikan) (i n : Nat) : Gikan :=
  (((g.inc F.MAP_EVENTS2_REVOKE_ABORTS n).set F.MAP_REVOKE_STATUS_ABORTED 1).contained 62 0 (offOf F.MAP_EVENTS2_REVOKE_ABORTS)).revokeEnd i

theorem Gikan.revokeTimeout_aborts {g : Gikan} {i t : Nat} (h : g.map.revokeAt = some (i, t))
    (ht : t + 1000 * max 10 (g.get F.MAP_REVOKE_DRAIN_DRAIN_US) ≤ g.time) (hn : g.pendingCount i ≠ 0) :
    g.revokeTimeout = (g.abortPending i).abortsEnd i (g.pendingCount i) := by
  rw [Gikan.revokeTimeout, h]
  exact (if_neg (Nat.not_lt.mpr ht)).trans (if_neg hn)

section
variable (g : Gikan) (i n : Nat)

theorem Gikan.req_abortsEnd : (g.abortsEnd i n).req = g.req := by
  rw [Gikan.abortsEnd, Gikan.req_revokeEnd]
  exact Gikan.req_of_quiet (Gikan.quiet_contained ..)

/-- The log's fault leaves the registers of the map (`Gikan.get_contained`). -/
theorem Gikan.get_abortsEnd (f : Fld) (hf : f.apart) (hr : f.key ≠ F.MAP_REVOKE_STATUS_DRAINING.key) (hd : f.key ≠ F.MAP_REVOKE_STATUS_DONE.key) :
    (g.abortsEnd i n).get f = ((g.inc F.MAP_EVENTS2_REVOKE_ABORTS n).set F.MAP_REVOKE_STATUS_ABORTED 1).get f := by
  rw [Gikan.abortsEnd, Gikan.get_revokeEnd_ne _ _ _ hr hd, Gikan.get_contained _ _ _ _ _ hf]

theorem Gikan.aborted_abortsEnd : (g.abortsEnd i n).on F.MAP_REVOKE_STATUS_ABORTED = true :=
  Gikan.on_of_get ((Gikan.get_abortsEnd g i n _ ⟨by decide, by decide⟩ (by decide) (by decide)).trans (Gikan.get_set_same ..))

theorem Gikan.aborts_abortsEnd :
    (g.abortsEnd i n).get F.MAP_EVENTS2_REVOKE_ABORTS = satAdd 16 (g.get F.MAP_EVENTS2_REVOKE_ABORTS) n := by
  rw [Gikan.get_abortsEnd g i n _ ⟨by decide, by decide⟩ (by decide) (by decide), Gikan.get_set_ne _ _ _ _ (by decide), Gikan.get_inc_same]
  rfl

theorem Gikan.logged_abortsEnd : (g.abortsEnd i n).bitOf (F.FLT_WORDS_GROUPS 1) 62 = true := by
  rw [Gikan.bitOf, Gikan.abortsEnd, Gikan.get_revokeEnd_ne _ _ _ (by decide) (by decide)]
  exact (Gikan.faultWords_contained _ _ _ _ (by decide)).2

end

/-! The rows -/

/-- A write with GO that reaches MAP_REVOKE is what `Gikan.wrRevoke` makes of it. -/
theorem exec_mapRevokeGo {s : State} {w : RegW} {k : Gikan} (hr : s.g.reaches8 w (offOf F.MAP_REVOKE_GO))
    (hk : s.g.wrRevoke (trig w F.MAP_REVOKE_GO) = k) : exec (.mapRevokeGo w) s = .next (s.withG k) :=
  exec_reaches (w := trig w F.MAP_REVOKE_GO) rfl hk hr

/-- Settles O25: each row by the lemma that says what its step does in the case at hand; what the timeout leaves is `Gikan.abortsEnd`. -/
theorem quiesceAndRevoke : Obligations.QuiesceAndRevoke := by
  refine ⟨fun s => ⟨fun w hr _ => ?_, fun hh hm => ⟨fun hb => ?_, fun hb => ?_⟩, fun hm => ?_⟩,
    fun s => ⟨fun w hr => ?_, fun hh => ⟨fun h => ⟨?_, ?_⟩,
      fun i t h => ⟨fun hn => ?_, fun hn => ?_, fun ht => ?_, fun ht hn => ?_, fun ht hn => ?_⟩⟩⟩⟩
  · obtain ⟨c, hc⟩ := s.g.wrQuiesce_eq w
    have hbody := s.g.body_withMask (s.g.wrValue w F.MAP_QUIESCE_CMPT_MASK)
    have hmem := Gikan.mem_of_body hbody
    have hmap := Gikan.map_of_body hbody
    have hreq := Gikan.req_of_body hbody
    exact ⟨_, exec_reaches rfl hc hr, Gikan.mask_withMask .., Gikan.done_withMask .., Gikan.get_withMask_ne s.g _, hmem, hmap,
      hreq⟩
  · exact exec_live rfl hh (Gikan.quiesceDone_drained hm hb)
  · exact exec_live_idle rfl (Gikan.quiesceDone_busy hb)
  · exact exec_live_idle rfl (Gikan.quiesceDone_unmasked hm)
  · have hgo := wrOne_trig w F.MAP_REVOKE_GO rfl
    intro i e
    refine ⟨fun hd hrev hhand hv hn => ?_, fun h => exec_mapRevokeGo hr ?_⟩
    · obtain ⟨hdrain, hdone, habort, hentry⟩ := s.g.get_revokeBegin i
      have hmap := s.g.map_revokeBegin i
      have hi : i % 65536 = i := Nat.mod_eq_of_lt (bits_lt _ _ _)
      exact ⟨_, exec_mapRevokeGo hr (Gikan.wrRevoke_commits hgo rfl hd hrev hhand hv hn), Gikan.on_of_get hdrain, Gikan.on_of_get hdone,
        Gikan.on_of_get habort, hentry.trans hi, congrArg MapSt.revokeAt hmap, congrArg MapSt.revoked hmap, rfl, rfl, rfl⟩
    · rcases h with h | h | ⟨hhand, h⟩
      · exact Gikan.wrRevoke_repeated hgo rfl (.inl h)
      · exact Gikan.wrRevoke_repeated hgo rfl (.inr h)
      · exact Gikan.wrRevoke_elsewhere hgo rfl hhand h
  · exact exec_live_idle rfl (Gikan.revokeDone_none h)
  · exact exec_live_idle rfl (Gikan.revokeTimeout_none h)
  · exact exec_live_idle rfl (Gikan.revokeDone_pending h hn)
  · exact ⟨_, exec_live rfl hh (Gikan.revokeDone_drained h hn), Gikan.draining_revokeEnd .., Gikan.done_revokeEnd .., rfl, rfl, rfl, rfl⟩
  · exact exec_live_idle rfl (Gikan.revokeTimeout_early h ht)
  · exact ⟨_, exec_live rfl hh (Gikan.revokeTimeout_aborts h ht hn), Gikan.draining_revokeEnd .., Gikan.done_revokeEnd ..,
      Gikan.aborted_abortsEnd .., rfl, Gikan.req_abortsEnd .., Gikan.aborts_abortsEnd .., Gikan.logged_abortsEnd ..⟩
  · exact ⟨exec_live rfl hh (Gikan.revokeTimeout_drained h ht hn), rfl⟩

end Sys2Proof.Machine
end

section
namespace Sys2Proof.Machine

/-! ## What decoding and sending leave of the frames (R56, R90 to R102) -/

/-- The uses of the frames, and software's list of those that are to retire. -/
def Gikan.layout (g : Gikan) : Tbl FrameSt × List Nat := (g.stk.frames, g.stk.retiring)

theorem Gikan.layout_of_stk {g h : Gikan} (e : h.stk = g.stk) : h.layout = g.layout :=
  congrArg (fun k : StkSt => (k.frames, k.retiring)) e
theorem Gikan.frames_of_layout {g h : Gikan} (e : h.layout = g.layout) : h.stk.frames = g.stk.frames := congrArg Prod.fst e
theorem Gikan.retiring_of_layout {g h : Gikan} (e : h.layout = g.layout) : h.stk.retiring = g.stk.retiring := congrArg Prod.snd e
theorem Gikan.frame_of_layout {g h : Gikan} (e : h.layout = g.layout) (f : Nat) : h.frame f = g.frame f := by
  rw [Gikan.frame, Gikan.frames_of_layout e]; rfl

theorem Gikan.stk_of_quiet {g h : Gikan} (e : h.quiet = g.quiet) : h.stk = g.stk := congrArg (fun x => x.2.2.2.2.2.2.2.2.2.2.1) e
theorem Gikan.stk_of_inner {g h : Gikan} (e : h.inner = g.inner) : h.stk = g.stk := (congrArg Gikan.stk e :)
theorem Gikan.layout_of_quiet {g h : Gikan} (e : h.quiet = g.quiet) : h.layout = g.layout := Gikan.layout_of_stk (Gikan.stk_of_quiet e)
theorem Gikan.layout_of_inner {g h : Gikan} (e : h.inner = g.inner) : h.layout = g.layout := Gikan.layout_of_stk (Gikan.stk_of_inner e)

@[simp] theorem Gikan.layout_setBad (g : Gikan) (u n w : Nat) : (g.setBad u n w).layout = g.layout := rfl
@[simp] theorem Gikan.layout_forgetErrors (g : Gikan) (a n : Nat) : (g.forgetErrors a n).layout = g.layout := rfl

theorem Gikan.layout_foldl {α : Type} {f : Gikan → α → Gikan} (hf : ∀ h x, (f h x).layout = h.layout) (l : List α) (g : Gikan) :
    (l.foldl f g).layout = g.layout :=
  List.foldlRecOn (motive := fun h => h.layout = g.layout) l f rfl fun h e x _ => (hf h x).trans e

@[simp] theorem Gikan.layout_flipOn (g : Gikan) (h most : Nat) : (g.flipOn h most).2.layout = g.layout := by
  unfold Gikan.flipOn; split <;> rfl

@[simp] theorem Gikan.layout_flipWritten (g : Gikan) (s : Site) (u : Nat) : (g.flipWritten s u).layout = g.layout := by
  unfold Gikan.flipWritten; dsimp only
  split
  · split
    · split <;> simp
    · rfl
  · split <;> simp

@[simp] theorem Gikan.layout_written (g : Gikan) (s : Site) (u : Nat) : (g.written s u).layout = g.layout := by simp [Gikan.written]

@[simp] theorem Gikan.layout_poisonUnit (g : Gikan) (s : Site) (u : Nat) : (g.poisonUnit s u).layout = g.layout := Gikan.layout_written ..

@[simp] theorem Gikan.layout_detected (g : Gikan) (n : Nat) : (g.detected n).2.layout = g.layout := by
  unfold Gikan.detected; split <;> rfl

@[simp] theorem Gikan.layout_correctedAt (g : Gikan) (p : Nat × Nat × Nat × Nat) : (g.correctedAt p).layout = g.layout := by
  unfold Gikan.correctedAt
  exact (Gikan.layout_of_quiet (Gikan.quiet_corrected ..)).trans rfl

@[simp] theorem Gikan.layout_uncorrectable (g : Gikan) (s : Site) (u src : Nat) : (g.uncorrectable s u src).layout = g.layout :=
  (Gikan.layout_poisonUnit ..).trans (Gikan.layout_of_quiet (Gikan.quiet_logUe ..))

@[simp] theorem Gikan.layout_garble (g : Gikan) (s : Site) (u : Nat) : (g.garble s u).2.layout = g.layout := rfl

@[simp] theorem Gikan.layout_decode (g : Gikan) (s : Site) (u src : Nat) : (g.decode s u src).2.layout = g.layout := by
  unfold Gikan.decode; dsimp only
  split
  · split <;> rfl
  · split
    · simp
    · split
      · simp
      · split <;> simp

theorem Gikan.layout_decodeAll (s : Site) (src : Nat) (us : List Nat) (g : Gikan) : (g.decodeAll s src us).1.layout = g.layout := by
  induction us generalizing g with
  | nil => rfl
  | cons u us ih =>
    have h := (ih (g.decode s u src).2).trans (g.layout_decode s u src)
    unfold Gikan.decodeAll; dsimp only
    split <;> exact h

@[simp] theorem Gikan.layout_copyOut (g : Gikan) (s : Site) (a n : Nat) : (g.copyOut s a n).1.layout = g.layout := by
  have h := g.layout_decodeAll s 3 (s.units a n)
  unfold Gikan.copyOut Gikan.readMem; dsimp only
  split <;> exact h

/-- With no symbol in error, decoding a unit finds data or the signature and changes nothing. -/
theorem Gikan.decodeAll_errorless (s : Site) (src : Nat) {g : Gikan} (hb : g.bad = []) (us : List Nat) : (g.decodeAll s src us).1 = g := by
  have hd : ∀ u, (g.decode s u src).2 = g := by
    intro u
    have h0 : g.bad.getD u 0 = 0 := by rw [hb]; rfl
    unfold Gikan.decode; dsimp only
    rw [if_pos h0]
    split <;> rfl
  induction us with
  | nil => rfl
  | cons u us ih =>
    unfold Gikan.decodeAll; dsimp only
    rw [hd]
    split <;> exact ih

theorem Gikan.mem_copyOut_errorless {g : Gikan} (hb : g.bad = []) (s : Site) (a n : Nat) : (g.copyOut s a n).1.mem = g.mem := by
  unfold Gikan.copyOut Gikan.readMem; dsimp only
  rw [Gikan.decodeAll_errorless s 3 hb]
  split <;> rfl

theorem Gikan.layout_addErrors (g : Gikan) (us : List Nat) (which n : Nat) : (g.addErrors us which n).layout = g.layout := by
  unfold Gikan.addErrors
  split
  · split <;> rfl
  · split
    · rfl
    · exact (Gikan.layout_foldl (fun _ _ => Gikan.layout_setBad ..) _ _).trans rfl

theorem Gikan.layout_adoptErrors (g : Gikan) (entry p f n : Nat) : (g.adoptErrors entry p f n).layout = g.layout := by
  unfold Gikan.adoptErrors
  refine Gikan.layout_foldl (fun _ _ => ?_) _ _
  exact (Gikan.layout_addErrors ..).trans rfl

theorem Gikan.layout_stampHeader (g : Gikan) (s : Site) (p : Nat) : (g.stampHeader s p).layout = g.layout := by
  unfold Gikan.stampHeader; split <;> rfl

theorem Gikan.layout_sendFirst (g : Gikan) (x : Nat) (q : Req) (c : Consumer) (tag : Nat) : (g.sendFirst x q c tag).layout = g.layout := by
  unfold Gikan.sendFirst
  exact (Gikan.layout_of_inner (Gikan.inner_sendOwn ..)).trans rfl

theorem Gikan.layout_engOut (g : Gikan) (q : Req) (c : Consumer) : (g.engOut q c).layout = g.layout := by
  have h : ∀ (k : Gikan) (x : Nat), (k.issue x q c).layout = k.layout := by
    intro k x
    unfold Gikan.issue
    split
    · rfl
    · split
      next t g1 ht => rw [Gikan.layout_sendFirst, Gikan.takeTag_state ht]; rfl
      next => rfl
  unfold Gikan.engOut
  exact (h ..).trans rfl

end Sys2Proof.Machine
end

section
namespace Sys2Proof.Machine

/-! ## Frames (R97, R98, R103) -/

/-- A table in canonical form lists exactly what it holds. -/
theorem Tbl.mem_iff_get? {α : Type} {t : Tbl α} (hs : t.sorted = true) (k : Nat) (v : α) : (k, v) ∈ t ↔ t.get? k = some v := by
  induction t with
  | nil => simp
  | cons e t ih =>
    obtain ⟨j, w⟩ := e
    obtain ⟨hlt, ht⟩ := (Tbl.sorted_cons j w t).mp hs
    rw [List.mem_cons, ih ht, Tbl.get?]
    split
    next hj =>
      subst hj
      have hno : Tbl.get? t j ≠ some v := fun h => absurd (hlt _ ((ih ht).mpr h)) (lt_irrefl j)
      simp only [Prod.mk.injEq, true_and, Option.some.injEq, hno, or_false, eq_comm]
    next hj => simp [Ne.symm hj]

theorem Gikan.frame_setFrame (g : Gikan) (f : Nat) (x : FrameSt) (k : Nat) : (g.setFrame f x).frame k = if k = f then x else g.frame k := by
  split
  next h => rw [h]; exact Tbl.getD_setD_same ..
  next h => exact Tbl.getD_setD_ne _ _ _ _ h

/-- Putting several frames to one use. -/
theorem Gikan.frame_foldl {op : Gikan → Nat → Gikan} {x : FrameSt} (hop : ∀ h f k, (op h f).frame k = if k = f then x else h.frame k)
    (fs : List Nat) (g : Gikan) (k : Nat) : (fs.foldl op g).frame k = if k ∈ fs then x else g.frame k := by
  induction fs generalizing g with
  | nil => simp
  | cons f fs ih =>
    rw [List.foldl_cons, ih, hop]
    by_cases hk : k ∈ fs <;> by_cases hf : k = f <;> simp [hk, hf]

/-- The frames listed in a use, in the canonical form. -/
theorem Gikan.mem_framesIn {g : Gikan} (hs : Tbl.sorted g.stk.frames = true) {x : FrameSt} (hx : x ≠ .free) (k : Nat) :
    k ∈ (g.stk.frames.filter (fun c => c.2 == x)).map Prod.fst ↔ g.frame k = x := by
  have hget : g.frame k = x ↔ g.stk.frames.get? k = some x := by
    rw [Gikan.frame, Tbl.getD]
    cases g.stk.frames.get? k <;> simp [Ne.symm hx]
  rw [hget, ← Tbl.mem_iff_get? hs]
  simp only [List.mem_map, List.mem_filter, beq_iff_eq, Prod.exists]
  exact ⟨fun ⟨a, b, ⟨h, hb⟩, ha⟩ => ha ▸ hb ▸ h, fun h => ⟨k, x, ⟨h, rfl⟩, rfl⟩⟩

/-- Frames that are listed are in the use they are listed with, in the canonical form. -/
theorem Gikan.frame_of_mem {g : Gikan} (hs : Tbl.sorted g.stk.frames = true) {c : Nat × FrameSt} (hc : c ∈ g.stk.frames) : g.frame c.1 = c.2 := by
  rw [Gikan.frame, Tbl.getD, (Tbl.mem_iff_get? hs c.1 c.2).mp hc]; rfl

/-! What an allocation leaves -/

/-- A Gikan without its frames and the count of free values taken. -/
def Gikan.besideFrames (g : Gikan) : Gikan := { g with draw := 0, stk := { g.stk with frames := [] } }

theorem Gikan.get_of_besideFrames {g h : Gikan} (e : h.besideFrames = g.besideFrames) (f : Fld) : h.get f = g.get f :=
  (congrArg (fun k => Gikan.get k f) e :)

/-- Software's own list of frames to retire stays, and no retired frame is put to a use again. -/
structure Gikan.FramesKept (g h : Gikan) : Prop where
  retiring : h.stk.retiring = g.stk.retiring
  sorted : Tbl.sorted g.stk.frames = true → Tbl.sorted h.stk.frames = true
  retired : Tbl.sorted g.stk.frames = true → ∀ f, g.frame f = .retired → h.frame f = .retired

namespace Gikan.FramesKept

theorem of_layout {g h : Gikan} (e : h.layout = g.layout) : g.FramesKept h :=
  ⟨Gikan.retiring_of_layout e, fun hs => (Gikan.frames_of_layout e).symm ▸ hs, fun _ f hf => (Gikan.frame_of_layout e f).trans hf⟩

theorem of_stk {g h : Gikan} (e : h.stk = g.stk) : g.FramesKept h := of_layout (Gikan.layout_of_stk e)

theorem refl (g : Gikan) : g.FramesKept g := of_stk rfl

theorem trans {g h k : Gikan} (a : g.FramesKept h) (b : h.FramesKept k) : g.FramesKept k where
  retiring := b.retiring.trans a.retiring
  sorted hs := b.sorted (a.sorted hs)
  retired hs f hf := b.retired (a.sorted hs) f (a.retired hs f hf)

theorem foldl {α : Type} {g : Gikan} (l : List α) (f : Gikan → α → Gikan) (hf : ∀ h, ∀ x ∈ l, g.FramesKept h → h.FramesKept (f h x)) :
    g.FramesKept (l.foldl f g) :=
  List.foldlRecOn (motive := g.FramesKept) l f (refl g) fun h e x hx => e.trans (hf h x hx e)

theorem setFrame {g h : Gikan} (e : g.FramesKept h) {f : Nat} (hf : Tbl.sorted g.stk.frames = true → g.frame f ≠ .retired) (x : FrameSt) :
    g.FramesKept (h.setFrame f x) where
  retiring := e.retiring
  sorted hs := Tbl.sorted_setD _ _ _ _ (e.sorted hs)
  retired hs k hk := by
    rw [Gikan.frame_setFrame, if_neg fun hkf : k = f => hf hs (hkf ▸ hk)]
    exact e.retired hs k hk

theorem withTier {g h : Gikan} (e : g.FramesKept h) (t : TierSt) : g.FramesKept { h with tier := t } := e.trans (of_stk rfl)

theorem setPage {g h : Gikan} (e : g.FramesKept h) (entry p : Nat) (r : PageRec) : g.FramesKept (h.setPage entry p r) := e.withTier _

/-- Listed frames that are not retired are put to another use. -/
theorem foldl_setFrame (g : Gikan) (fs : List (Nat × FrameSt)) (hfs : ∀ c ∈ fs, c ∈ g.stk.frames ∧ c.2 ≠ .retired) (x : FrameSt) :
    g.FramesKept (fs.foldl (fun h c => h.setFrame c.1 x) g) := by
  refine List.foldlRecOn (motive := g.FramesKept) fs _ (refl g) fun h e c hc => ?_
  obtain ⟨hmem, hne⟩ := hfs c hc
  exact e.setFrame (fun hs => by rw [Gikan.frame_of_mem hs hmem]; exact hne) x

end Gikan.FramesKept

/-- An allocation takes frames that were free. -/
theorem Gikan.allocFrames_some {g h : Gikan} {n f : Nat} {x : FrameSt} (ha : g.allocFrames n x = some (f, h)) :
    h = (List.range n).foldl (fun h i => h.setFrame (f + i) x) g.next.2 ∧ ∀ i < n, g.frame (f + i) = .free := by
  unfold Gikan.allocFrames at ha
  dsimp only at ha
  split at ha
  · cases ha
  · generalize hfree : (List.range (30721 - n)).filter _ = free at ha
    cases free with
    | nil => cases ha
    | cons f0 fs =>
      simp only [Option.some.injEq, Prod.mk.injEq] at ha
      obtain ⟨hf, hh⟩ := ha
      have hmem : f ∈ f0 :: fs := by
        rw [← hf, List.getD_eq_getElem _ _ (Nat.mod_lt _ (by simp))]
        exact List.getElem_mem _
      rw [← hfree, List.mem_filter, List.all_eq_true] at hmem
      exact ⟨hh.symm.trans (by rw [hf]), fun i hi => beq_iff_eq.mp (hmem.2 i (List.mem_range.mpr hi))⟩

theorem Gikan.besideFrames_allocFrames {g h : Gikan} {n f : Nat} {x : FrameSt} (ha : g.allocFrames n x = some (f, h)) :
    h.besideFrames = g.besideFrames := by
  rw [(Gikan.allocFrames_some ha).1]
  exact List.foldlRecOn (motive := fun k : Gikan => k.besideFrames = g.besideFrames) _ _ rfl fun _ e _ _ => e

theorem Gikan.FramesKept.allocFrames {g h : Gikan} {n f : Nat} {x : FrameSt} (ha : g.allocFrames n x = some (f, h)) : g.FramesKept h := by
  obtain ⟨hh, hfree⟩ := Gikan.allocFrames_some ha
  rw [hh]
  refine List.foldlRecOn (motive := g.FramesKept) _ _ (.of_stk rfl) fun k e i hi => e.setFrame (fun _ => ?_) x
  rw [hfree i (List.mem_range.mp hi)]
  decide

/-- Frames taken one by one, as long as there are any. -/
def Gikan.takeFrame (x : FrameSt) (h : Gikan) (_ : Nat) : Gikan := match h.allocFrames 1 x with | some (_, h1) => h1 | none => h

theorem Gikan.takeFrame_keeps (x : FrameSt) (h : Gikan) (i : Nat) :
    (h.takeFrame x i).besideFrames = h.besideFrames ∧ h.FramesKept (h.takeFrame x i) := by
  unfold Gikan.takeFrame
  split
  next ha => exact ⟨Gikan.besideFrames_allocFrames ha, .allocFrames ha⟩
  next => exact ⟨rfl, .refl h⟩

theorem Gikan.foldl_takeFrame_keeps (x : FrameSt) (l : List Nat) (g : Gikan) :
    (l.foldl (Gikan.takeFrame x) g).besideFrames = g.besideFrames ∧ g.FramesKept (l.foldl (Gikan.takeFrame x) g) :=
  List.foldlRecOn (motive := fun k : Gikan => k.besideFrames = g.besideFrames ∧ g.FramesKept k) l _ ⟨rfl, .refl g⟩
    fun h e i _ => ⟨(h.takeFrame_keeps x i).1.trans e.1, e.2.trans (h.takeFrame_keeps x i).2⟩

/-! The Placer's records and the directory (R87, R108) -/

/-- Fitting the Placer's records changes frames, and the two fields that tell how many there are. -/
theorem Gikan.fitRecords_cases (g : Gikan) : g.fitRecords = g ∨ ∃ k a b, k.besideFrames = g.besideFrames ∧ g.FramesKept k ∧
    g.fitRecords = (k.set F.TIER_STATUS_FTL_MAP_FRAMES a).set F.TIER_STATUS_CHECK_FRAMES b := by
  unfold Gikan.fitRecords
  dsimp only
  split
  · exact .inl rfl
  · refine .inr ⟨_, _, _, ?_, ?_, rfl⟩
    all_goals split
    · exact (Gikan.foldl_takeFrame_keeps .record _ g).1
    · exact List.foldlRecOn (motive := fun k : Gikan => k.besideFrames = g.besideFrames) _ _ rfl fun _ e _ _ => e
    · exact (Gikan.foldl_takeFrame_keeps .record _ g).2
    · refine .foldl_setFrame g _ (fun c hc => ?_) _
      obtain ⟨hmem, hrec⟩ := List.mem_filter.mp (List.mem_of_mem_take hc)
      exact ⟨hmem, by rw [beq_iff_eq.mp hrec]; decide⟩

theorem Gikan.FramesKept.fitRecords (g : Gikan) : g.FramesKept g.fitRecords := by
  rcases g.fitRecords_cases with e | ⟨k, a, b, -, hk, e⟩ <;> rw [e]
  · exact .refl g
  · exact hk.trans (.of_stk rfl)

theorem Gikan.FramesKept.fitDir (g : Gikan) : g.FramesKept g.fitDir := by
  unfold Gikan.fitDir
  dsimp only
  split
  · refine .foldl _ _ fun h _ _ _ => ?_
    split
    next r ha => exact .allocFrames (f := r.1) ha
    next => exact .refl h
  · rw [← List.map_drop, List.foldl_map]
    refine .foldl_setFrame g _ (fun c hc => ?_) _
    obtain ⟨hmem, hdir⟩ := List.mem_filter.mp (List.mem_of_mem_drop hc)
    exact ⟨hmem, by rw [beq_iff_eq.mp hdir]; decide⟩

end Sys2Proof.Machine
end

section
namespace Sys2Proof.Machine

/-! ## What frames that have become free bring, no retired frame among them (R103, R108, R110, R114, R131) -/

namespace Gikan.FramesKept

theorem allocPage {g h : Gikan} {entry p : Nat} {e : ExtW} (ha : g.allocPage entry p e = some h) : g.FramesKept h := by
  unfold Gikan.allocPage at ha
  obtain ⟨r, hr, rfl⟩ := Option.map_eq_some_iff.mp ha
  exact (allocFrames (f := r.1) hr).trans (of_layout (Gikan.layout_adoptErrors ..))

/-! Eviction -/

theorem dropPage (g : Gikan) (entry p : Nat) : g.FramesKept (g.dropPage entry p) := by
  have hrel : g.FramesKept (g.releaseFrames entry p) := by
    refine foldl_setFrame g _ (fun c hc => ?_) _
    obtain ⟨hmem, hpage⟩ := List.mem_filter.mp hc
    refine ⟨hmem, fun hr => ?_⟩
    rw [hr] at hpage
    cases hpage
  exact hrel.trans (of_layout (Gikan.layout_forgetErrors ..)) |>.trans (of_stk rfl)

theorem evictClean (g : Gikan) (key : Nat) : g.FramesKept (g.evictClean key) := by
  unfold Gikan.evictClean
  dsimp only
  split
  · exact refl g
  · split
    · exact refl g
    · split
      · split
        · exact of_stk rfl
        · exact dropPage ..
      · exact dropPage ..

theorem evictDirty (g : Gikan) (key : Nat) : g.FramesKept (g.evictDirty key) := by
  have htarget : ∀ t l h, g.demoteTarget t = some (l, h) → h.stk = g.stk := by
    intro t l h ht
    unfold Gikan.demoteTarget at ht
    split at ht
    · cases ht
    · split at ht
      · cases ht; rfl
      · obtain ⟨_, -, he⟩ := Option.map_eq_some_iff.mp ht
        cases he; rfl
  unfold Gikan.evictDirty
  dsimp only
  split
  · exact refl g
  · split
    next l h ht => exact of_stk (htarget _ l h ht)
    next => exact refl g

theorem evict (g : Gikan) : g.FramesKept g.evict := by
  unfold Gikan.evict
  dsimp only
  split
  · exact refl g
  · have hclean : g.FramesKept ((g.byHeat .residentClean).foldl (fun h k => h.evictClean k) g) :=
      foldl _ _ fun h k _ _ => evictClean h k
    refine withTier ?_ _
    split
    · exact hclean
    · exact hclean.trans (foldl _ _ fun h k _ _ => evictDirty h k)

/-! The limit of R108, and OVERCOMMIT -/

theorem leaveUnplaced (g : Gikan) (entry : Nat) (e : ExtW) (n : Nat) : g.FramesKept (g.leaveUnplaced entry e n).2 := by
  refine List.foldlRecOn (motive := fun r : Nat × Gikan => g.FramesKept r.2) _ _ (refl g) fun r hr i _ => ?_
  dsimp only
  split
  · exact hr
  · exact hr.setPage ..

theorem fitTiered (g : Gikan) : g.FramesKept g.fitTiered := by
  unfold Gikan.fitTiered
  extract_lets tiered h excess mine
  have htiered : g.FramesKept h := foldl _ _ fun h k _ _ => (refl h).setPage ..
  split
  · exact htiered
  · refine List.foldlRecOn (motive := fun r : Nat × Gikan => g.FramesKept r.2) _ _ htiered fun (n, h) hr c _ => ?_
    dsimp only
    split
    · exact hr
    · exact hr.trans (leaveUnplaced ..)

theorem checkOvercommit (g : Gikan) : g.FramesKept g.checkOvercommit := by
  unfold Gikan.checkOvercommit
  dsimp only
  split
  · exact of_stk (Gikan.stk_of_quiet (Gikan.quiet_contained ..))
  · exact of_stk rfl

theorem placed (g : Gikan) : g.FramesKept g.placed := by
  unfold Gikan.placed
  dsimp only
  refine (fitTiered g).trans (trans ?_ (checkOvercommit _))
  split
  · exact refl _
  · exact evict _

/-! Pages and fetches that wait -/

theorem fetchNext (g : Gikan) (entry p : Nat) : g.FramesKept (g.fetchNext entry p) := by
  unfold Gikan.fetchNext
  dsimp only
  split
  · exact refl g
  · split
    · exact of_layout (Gikan.layout_engOut ..)
    · split
      · exact of_stk rfl
      · exact refl g

theorem startFetch (g : Gikan) (entry p first : Nat) (staged : Bool) : g.FramesKept (g.startFetch entry p first staged) := by
  unfold Gikan.startFetch
  dsimp only
  split
  · exact refl g
  · split
    next ha => exact ((allocPage ha).setPage ..).trans (fetchNext ..)
    next =>
      split
      · exact refl g
      · exact of_stk rfl

theorem placeWaiting (g : Gikan) : g.FramesKept g.placeWaiting := by
  unfold Gikan.placeWaiting
  dsimp only
  refine trans (trans (foldl _ _ fun h k _ _ => ?unplaced) (foldl _ _ fun h w _ _ => ?fetches)) (placed _)
  case unplaced =>
    split
    · exact refl h
    · split
      next ha =>
        split
        · exact ((allocPage ha).setPage ..).trans (of_layout (Gikan.layout_stampHeader ..))
        · exact (allocPage ha).setPage ..
      next => exact refl h
  case fetches =>
    split
    · exact refl h
    · exact ((refl h).withTier _).trans (startFetch ..)

/-! Moves off the frames that retire -/

theorem frameReplace {g : Gikan} {f : Nat} (hf : g.frame f ≠ .retired) (x : FrameSt) : g.FramesKept (g.frameReplace f x) := by
  unfold Gikan.frameReplace
  split
  next ha => exact (allocFrames ha).setFrame (fun _ => hf) _
  next => exact refl g

theorem frameMove (g : Gikan) (f : Nat) : g.FramesKept (g.frameMove f) := by
  have hreplace : ∀ x y, g.frame f = y → y ≠ .retired → g.FramesKept (g.frameReplace f x) := fun x _ hy hne => frameReplace (hy ▸ hne) x
  unfold Gikan.frameMove
  split
  next entry p hp =>
    dsimp only
    split
    · exact refl g
    · split
      next ha => exact (allocFrames ha).setPage ..
      next => exact refl g
  next h => exact hreplace _ _ h (by decide)
  next h => exact hreplace _ _ h (by decide)
  next h => exact hreplace _ _ h (by decide)
  next => exact refl g

theorem frameMoves (g : Gikan) : g.FramesKept g.frameMoves := foldl _ _ fun h f _ _ => frameMove h f

end Gikan.FramesKept

end Sys2Proof.Machine
end

section
namespace Sys2Proof.Machine

/-! ## Training and stamping (R86, R96, R103, R381) -/

/-! A stack that fails to train -/

theorem Gikan.hasp_enterHasp (g : Gikan) (c n : Nat) : (g.enterHasp c n).hasp = true := by
  rw [Gikan.hasp, Gikan.phase, Gikan.enterHasp, Gikan.get_ibi_ne _ _ _ (by decide), Gikan.get_sendNotice_ne _ _ (by decide),
    Gikan.get_set_same]
  rfl

theorem Gikan.bitOf_enterHasp (g : Gikan) (c : Nat) {n : Nat} (hn : n < 64) : (g.enterHasp c n).bitOf F.FLT_FATAL_GROUPS n = true := by
  have hrec : (g.enterHasp c n).get F.FLT_FATAL_GROUPS = (g.haspGroups n).get F.FLT_FATAL_GROUPS := by
    rw [Gikan.enterHasp, Gikan.get_ibi_ne _ _ _ (by decide), Gikan.get_sendNotice_ne _ _ (by decide), Gikan.get_set_ne _ _ _ _ (by decide)]
    unfold Gikan.haspRecord
    iterate 6 rw [Gikan.get_set_ne _ _ _ _ (by decide)]
  rw [Gikan.bitOf, hrec]
  exact Gikan.bitOf_setBitOf_same _ _ hn

/-- A fatal event outside the Hasp state enters it. -/
theorem Gikan.fatal_enters {g : Gikan} (hh : g.hasp = false) {n : Nat} (hn : n < 64) (u r : Nat) :
    (g.fatal n u r).hasp = true ∧ (g.fatal n u r).bitOf F.FLT_FATAL_GROUPS n = true := by
  have h : ∃ k, g.fatal n u r = Gikan.enterHasp k 1 n := by
    unfold Gikan.fatal Gikan.fault
    dsimp only
    rw [if_neg (by rw [hh]; decide)]
    exact ⟨_, rfl⟩
  obtain ⟨k, hk⟩ := h
  rw [hk]
  exact ⟨k.hasp_enterHasp 1 n, k.bitOf_enterHasp 1 hn⟩

theorem Gikan.mem_faultOpen (g : Gikan) (c : FClass) (n k r : Nat) : (g.faultOpen c n k r).mem = g.mem := by
  unfold Gikan.faultOpen
  exact Gikan.mem_of_quiet (g := g.next.2) (Gikan.quiet_fault ..)

theorem trained_ne_repairs (h : Nat) : F.MEM_STATUS_TRAINED.key ≠ (F.MEM_ERR_H_REPAIRS h).key := by
  simp only [F.MEM_STATUS_TRAINED, F.MEM_ERR_H_REPAIRS]; omega

section
variable {g : Gikan} {h : Nat} (n : Nat) (hp : g.phase = 4) (hs : g.stamped = false) (ht : g.bitOf F.MEM_STATUS_TRAINED h = false)
include hp hs ht

theorem Gikan.stackTrained_ok :
    g.stackTrained h true n = (g.set (F.MEM_ERR_H_REPAIRS h) (min n 256)).setBitOf F.MEM_STATUS_TRAINED h := by
  unfold Gikan.stackTrained
  rw [if_neg (by rw [hp, hs, ht]; decide)]
  exact if_pos rfl

theorem Gikan.stackTrained_fails (hh : h < 12) : (g.stackTrained h false n).hasp = true ∧
    (g.stackTrained h false n).bitOf F.FLT_FATAL_GROUPS (36 + h) = true ∧
    (g.stackTrained h false n).get F.MEM_STATUS_TRAINED = g.get F.MEM_STATUS_TRAINED ∧ (g.stackTrained h false n).mem = g.mem := by
  have he : g.stackTrained h false n =
      (g.set (F.MEM_ERR_H_REPAIRS h) (min n 256)).faultOpen .fatal (grpStack h) 32 (offOf F.MEM_STATUS_TRAINED) := by
    unfold Gikan.stackTrained
    rw [if_neg (by rw [hp, hs, ht]; decide)]
    exact if_neg Bool.false_ne_true
  have hlive : (g.set (F.MEM_ERR_H_REPAIRS h) (min n 256)).next.2.hasp = false := by
    have hkey : F.MGT_STATUS_PHASE.key ≠ (F.MEM_ERR_H_REPAIRS h).key := by
      simp only [F.MGT_STATUS_PHASE, F.MEM_ERR_H_REPAIRS]; omega
    have hphase : (g.set (F.MEM_ERR_H_REPAIRS h) (min n 256)).next.2.phase = g.phase := Gikan.get_set_ne _ _ _ _ hkey
    rw [Gikan.hasp, hphase, hp]
    rfl
  rw [he]
  obtain ⟨hhasp, hbit⟩ := Gikan.fatal_enters hlive (show grpStack h < 64 by simp only [grpStack]; omega)
    (Config.openValue (g.set (F.MEM_ERR_H_REPAIRS h) (min n 256)).next.1 % 32) (offOf F.MEM_STATUS_TRAINED)
  refine ⟨hhasp, hbit, ?_, Gikan.mem_faultOpen ..⟩
  rw [Gikan.get_faultOpen _ _ _ _ _ _ ⟨by decide, by decide⟩, Gikan.get_set_ne _ _ _ _ (trained_ne_repairs h)]

end

theorem Gikan.stackTrained_idle {g : Gikan} {h : Nat} (hi : g.phase ≠ 4 ∨ g.stamped = true ∨ g.bitOf F.MEM_STATUS_TRAINED h = true)
    (ok : Bool) (n : Nat) : g.stackTrained h ok n = g := by
  refine if_pos ?_
  rcases hi with hi | hi | hi
  · rw [bne_iff_ne.mpr hi]; rfl
  · rw [hi, Bool.or_true]; rfl
  · rw [hi, Bool.or_true]

/-! What stamping and the seal leave -/

/-- What holds bytes, poison, the extents and the node's own records. -/
def Gikan.contents (g : Gikan) := (g.mem, g.clean, g.bad, g.map, g.mgt)

theorem Gikan.contents_of_besideFrames {g h : Gikan} (e : h.besideFrames = g.besideFrames) : h.contents = g.contents :=
  (congrArg Gikan.contents e :)
theorem Gikan.contents_of_inner {g h : Gikan} (e : h.inner = g.inner) : h.contents = g.contents := (congrArg Gikan.contents e :)

/-- A frame of software's list is retired. -/
def Gikan.retireNow (h : Gikan) (f : Nat) : Gikan :=
  ({ h with stk := { h.stk with retiring := delNat h.stk.retiring f } }).setFrame f .retired

theorem Gikan.frame_retireNow (h : Gikan) (f k : Nat) : (h.retireNow f).frame k = if k = f then .retired else h.frame k :=
  Gikan.frame_setFrame ..

theorem Gikan.sorted_retireNow {h : Gikan} (hs : Tbl.sorted h.stk.frames = true) (f : Nat) :
    Tbl.sorted (h.retireNow f).stk.frames = true :=
  Tbl.sorted_setD h.stk.frames f .free .retired hs

/-- One frame of software's list, retired if it holds nothing. -/
def Gikan.retireFree (h : Gikan) (f : Nat) : Gikan := if h.frame f == .free then h.retireNow f else h

theorem Gikan.frame_retireFree (h : Gikan) (f k : Nat) :
    (h.retireFree f).frame k = if k = f ∧ h.frame k = .free then .retired else h.frame k := by
  unfold Gikan.retireFree
  split
  next hf =>
    rw [Gikan.frame_retireNow]
    by_cases hk : k = f
    · rw [hk, if_pos rfl, if_pos ⟨rfl, beq_iff_eq.mp hf⟩]
    · rw [if_neg hk, if_neg fun hkf : k = f ∧ h.frame k = .free => hk hkf.1]
  next hf =>
    rw [if_neg fun hkf : k = f ∧ h.frame k = .free => hf (beq_iff_eq.mpr (hkf.1 ▸ hkf.2))]

theorem Gikan.retireFree_keeps (h : Gikan) (f : Nat) : (h.retireFree f).csr = h.csr ∧ (h.retireFree f).contents = h.contents ∧
    (Tbl.sorted h.stk.frames = true → Tbl.sorted (h.retireFree f).stk.frames = true) := by
  unfold Gikan.retireFree
  split
  · exact ⟨rfl, rfl, fun hs => Gikan.sorted_retireNow hs f⟩
  · exact ⟨rfl, rfl, id⟩

/-- Every frame of the list that holds nothing is retired. -/
theorem Gikan.frame_foldl_retireFree (fs : List Nat) (g : Gikan) {k : Nat} (hk : k ∈ fs) (hf : g.frame k = .free) :
    (fs.foldl Gikan.retireFree g).frame k = .retired := by
  have hstay : ∀ (l : List Nat) (h : Gikan), h.frame k = .retired → (l.foldl Gikan.retireFree h).frame k = .retired := fun l h hr =>
    List.foldlRecOn (motive := fun h : Gikan => h.frame k = .retired) l _ hr fun h e f _ => by
      rw [Gikan.frame_retireFree, e, if_neg fun h => nomatch h.2]
  induction fs generalizing g with
  | nil => cases hk
  | cons f fs ih =>
    rw [List.foldl_cons]
    by_cases hkf : k = f
    · exact hstay _ _ (by rw [Gikan.frame_retireFree, if_pos ⟨hkf, hf⟩])
    · exact ih _ (List.mem_of_ne_of_mem hkf hk) (by rw [Gikan.frame_retireFree, if_neg fun h => hkf h.1, hf])

theorem Gikan.retireStamped_keeps (g : Gikan) : g.retireStamped.csr = g.csr ∧ g.retireStamped.contents = g.contents ∧
    (Tbl.sorted g.stk.frames = true → Tbl.sorted g.retireStamped.stk.frames = true) :=
  List.foldlRecOn (motive := fun h : Gikan => h.csr = g.csr ∧ h.contents = g.contents ∧
      (Tbl.sorted g.stk.frames = true → Tbl.sorted h.stk.frames = true)) _ Gikan.retireFree ⟨rfl, rfl, id⟩
    fun h ⟨hc, hm, hs⟩ f _ =>
      have ⟨hc', hm', hs'⟩ := h.retireFree_keeps f
      ⟨hc'.trans hc, hm'.trans hm, fun s => hs' (hs s)⟩

theorem Gikan.stampFlip_cases (g : Gikan) (f : Nat) : ∃ k t, (k = g ∨ k = g.set F.MEM_FLIP_ARM 0) ∧
    g.stampFlip f = { k with stk := { k.stk with freeBad := t } } := by
  have hflip : ∀ h most, (g.flipOn h most).2 = g ∨ (g.flipOn h most).2 = g.set F.MEM_FLIP_ARM 0 := by
    intro h most
    unfold Gikan.flipOn
    split
    · exact .inr rfl
    · exact .inl rfl
  unfold Gikan.stampFlip
  split
  · exact ⟨_, _, hflip .., rfl⟩
  · exact ⟨g, _, .inl rfl, rfl⟩

theorem Gikan.layout_stampFlip (g : Gikan) (f : Nat) : (g.stampFlip f).layout = g.layout := by
  obtain ⟨k, t, rfl | rfl, e⟩ := g.stampFlip_cases f <;> rw [e] <;> rfl

theorem Gikan.contents_stampFlip (g : Gikan) (f : Nat) : (g.stampFlip f).contents = g.contents := by
  obtain ⟨k, t, rfl | rfl, e⟩ := g.stampFlip_cases f <;> rw [e] <;> rfl

theorem Gikan.get_stampFlip_ne (g : Gikan) (f : Nat) (e : Fld) (he : e.key ≠ F.MEM_FLIP_ARM.key) : (g.stampFlip f).get e = g.get e := by
  obtain ⟨k, t, rfl | rfl, h⟩ := g.stampFlip_cases f <;> rw [h]
  · rfl
  · exact Gikan.get_set_ne g _ e 0 he

theorem Gikan.contents_fitRecords (g : Gikan) : g.fitRecords.contents = g.contents := by
  rcases g.fitRecords_cases with e | ⟨k, a, b, hk, -, e⟩ <;> rw [e]
  exact (Gikan.contents_of_besideFrames hk :)

theorem Gikan.get_fitRecords_ne (g : Gikan) (f : Fld) (hm : f.key ≠ F.TIER_STATUS_FTL_MAP_FRAMES.key)
    (hc : f.key ≠ F.TIER_STATUS_CHECK_FRAMES.key) : g.fitRecords.get f = g.get f := by
  rcases g.fitRecords_cases with e | ⟨k, a, b, hk, -, e⟩ <;> rw [e]
  rw [Gikan.get_set_ne _ _ _ _ hc, Gikan.get_set_ne _ _ _ _ hm, Gikan.get_of_besideFrames hk]

/-! The seal -/

/-- A field that the start of a port does not put. -/
def Fld.offPorts (f : Fld) : Prop := ∀ p, f.key ≠ (F.LNK_STATUS_STATE p).key

theorem Gikan.portsStart_keeps (g : Gikan) : g.portsStart.inner = g.inner ∧ ∀ f : Fld, f.offPorts → g.portsStart.get f = g.get f := by
  have hsignal : ∀ (h : Gikan) (p : Nat), (h.lnkSignal p).inner = h.inner ∧ ∀ f : Fld, f.offPorts → (h.lnkSignal p).get f = h.get f := by
    intro h p
    unfold Gikan.lnkSignal
    split
    · exact ⟨rfl, fun _ _ => rfl⟩
    · exact ⟨rfl, fun f hf => Gikan.get_set_ne h _ f 1 (hf p)⟩
  refine List.foldlRecOn (motive := fun h : Gikan => h.inner = g.inner ∧ ∀ f : Fld, f.offPorts → h.get f = g.get f) _ _
    ⟨rfl, fun _ _ => rfl⟩ fun h ⟨hi, hg⟩ p _ => ?_
  split
  · exact ⟨(hsignal h p).1.trans hi, fun f hf => ((hsignal h p).2 f hf).trans (hg f hf)⟩
  · exact ⟨hi, hg⟩

theorem Gikan.ibi_keeps (g : Gikan) (n : Nat) : (g.ibi n).contents = g.contents ∧ (g.ibi n).stk = g.stk := by
  unfold Gikan.ibi
  split
  · exact ⟨rfl, rfl⟩
  · split <;> exact ⟨rfl, rfl⟩

/-- The fields that the seal puts. -/
def sealFields : List Fld := [F.MGT_SEAL_SEALED, F.MGT_SEAL_PENDING, F.MGT_STATUS_PHASE, F.MGT_I3C_IBIS]

/-- What the seal has put before it reserves the host window. -/
def Gikan.sealPut (g : Gikan) : Gikan := ((g.set F.MGT_SEAL_SEALED 1).set F.MGT_SEAL_PENDING 0).set F.MGT_STATUS_PHASE 6

theorem Gikan.seal_keeps {g : Gikan} (hs : g.sealed = false) : g.seal.contents = g.contents ∧ g.FramesKept g.seal ∧
    ∀ f : Fld, f.key ≠ F.MGT_I3C_IBIS.key → f.offPorts → g.seal.get f = g.sealPut.get f := by
  have heq : g.seal = ((g.sealPut.reserveWindow).ibi 3).portsStart := by
    unfold Gikan.seal
    rw [if_neg (by rw [hs]; decide)]
    rfl
  obtain ⟨hwin, hkept⟩ := Gikan.foldl_takeFrame_keeps .window (List.range (min 1024 (g.sealPut.get F.SUB_HOSTWIN_FRAMES))) g.sealPut
  obtain ⟨hibi, hstk⟩ := g.sealPut.reserveWindow.ibi_keeps 3
  obtain ⟨hports, hget⟩ := (g.sealPut.reserveWindow.ibi 3).portsStart_keeps
  rw [heq]
  refine ⟨?_, ?_, fun f hi hp => ?_⟩
  · exact (Gikan.contents_of_inner hports).trans (hibi.trans (Gikan.contents_of_besideFrames (g := g.sealPut) hwin))
  · have hput : g.FramesKept g.sealPut := .of_stk rfl
    exact ((hput.trans hkept).trans (.of_stk hstk)).trans (.of_stk (Gikan.stk_of_inner hports))
  · rw [hget f hp, Gikan.get_ibi_ne _ _ _ hi]
    exact Gikan.get_of_besideFrames hwin f

theorem Gikan.sealed_seal (g : Gikan) : g.seal.sealed = true := by
  cases hs : g.sealed with
  | true => rw [show g.seal = g from if_pos hs, hs]
  | false =>
    obtain ⟨-, -, hget⟩ := Gikan.seal_keeps hs
    have hput : g.sealPut.get F.MGT_SEAL_SEALED = 1 := by
      rw [Gikan.sealPut, Gikan.get_set_ne _ _ _ _ (by decide), Gikan.get_set_ne _ _ _ _ (by decide), Gikan.get_set_same]
      rfl
    refine Gikan.on_of_get (n := 1) ((hget _ (by decide) fun p => ?_).trans hput)
    simp only [F.MGT_SEAL_SEALED, F.LNK_STATUS_STATE]; omega

/-- The seal and HOLD keep bytes, extents and retired frames, and every field but their own. -/
theorem Gikan.afterStamped_keeps (g : Gikan) : g.afterStamped.contents = g.contents ∧ g.FramesKept g.afterStamped ∧
    ∀ f : Fld, (∀ e ∈ sealFields, f.key ≠ e.key) → f.offPorts → g.afterStamped.get f = g.get f := by
  have hseal : g.seal.contents = g.contents ∧ g.FramesKept g.seal ∧
      ∀ f : Fld, (∀ e ∈ sealFields, f.key ≠ e.key) → f.offPorts → g.seal.get f = g.get f := by
    cases hs : g.sealed with
    | true => rw [show g.seal = g from if_pos hs]; exact ⟨rfl, .refl g, fun _ _ _ => rfl⟩
    | false =>
      obtain ⟨hc, hk, hget⟩ := Gikan.seal_keeps hs
      refine ⟨hc, hk, fun f hf hp => ?_⟩
      simp only [sealFields, List.forall_mem_cons, List.not_mem_nil, false_imp_iff, implies_true, and_true] at hf
      obtain ⟨hsealed, hpend, hphase, hibis⟩ := hf
      rw [hget f hibis hp, Gikan.sealPut, Gikan.get_set_ne _ _ _ _ hphase, Gikan.get_set_ne _ _ _ _ hpend, Gikan.get_set_ne _ _ _ _ hsealed]
  unfold Gikan.afterStamped
  split
  · exact ⟨rfl, .refl g, fun _ _ _ => rfl⟩
  · split
    · exact hseal
    · exact ⟨rfl, .of_stk rfl, fun f hf _ => Gikan.get_set_ne g _ f 5 (hf _ (by decide))⟩

/-! The end of stamping -/

/-- Memory as stamping leaves it: zero and poisoned throughout. -/
def Gikan.stampedZero (g : Gikan) : Gikan :=
  ({ g with mem := [], clean := [], bad := [], mgt := { g.mgt with stampedAt := some g.now },
            stk := { g.stk with freeBad := [], badAt := [] } }).set F.MEM_STATUS_STAMPED 1

/-- The stacks stamped, the frames of software's list retired and the records in their frames. -/
def Gikan.stampedStacks (g : Gikan) : Gikan := ((g.stampedZero.retireStamped).stampFlip 0).fitRecords

/-- The fields that the stacks put at the end of stamping. -/
def stampFields : List Fld := [F.MEM_STATUS_STAMPED, F.MEM_FLIP_ARM, F.TIER_STATUS_FTL_MAP_FRAMES, F.TIER_STATUS_CHECK_FRAMES]

theorem Gikan.get_flipped (g : Gikan) (f : Fld) (hf : f.key ≠ F.MEM_FLIP_ARM.key) :
    ((g.stampedZero.retireStamped).stampFlip 0).get f = g.stampedZero.get f := by
  rw [Gikan.get_stampFlip_ne _ _ _ hf, Gikan.get_of_csr g.stampedZero.retireStamped_keeps.1]

theorem Gikan.get_stampedStacks (g : Gikan) (f : Fld) (hf : ∀ e ∈ stampFields, f.key ≠ e.key) : g.stampedStacks.get f = g.get f := by
  simp only [stampFields, List.forall_mem_cons, List.not_mem_nil, false_imp_iff, implies_true, and_true] at hf
  obtain ⟨hstamped, harm, hmap, hcheck⟩ := hf
  rw [Gikan.stampedStacks, Gikan.get_fitRecords_ne _ _ hmap hcheck, Gikan.get_flipped g f harm]
  exact Gikan.get_set_ne _ _ _ _ hstamped

theorem Gikan.stamped_stampedStacks (g : Gikan) : g.stampedStacks.get F.MEM_STATUS_STAMPED = 1 := by
  rw [Gikan.stampedStacks, Gikan.get_fitRecords_ne _ _ (by decide) (by decide), Gikan.get_flipped g _ (by decide)]
  exact Gikan.get_set_same ..

theorem Gikan.contents_stampedStacks (g : Gikan) : g.stampedStacks.contents = g.stampedZero.contents := by
  rw [Gikan.stampedStacks, Gikan.contents_fitRecords, Gikan.contents_stampFlip, g.stampedZero.retireStamped_keeps.2.1]

/-- The frames that software has retired before and that hold nothing are retired. -/
theorem Gikan.frame_stampedStacks {g : Gikan} (hs : Tbl.sorted g.stk.frames = true) {f : Nat} (hf : g.stk.retiring.contains f = true)
    (hfree : g.frame f = .free) : Tbl.sorted g.stampedStacks.stk.frames = true ∧ g.stampedStacks.frame f = .retired := by
  have hr : g.stampedZero.retireStamped.frame f = .retired :=
    Gikan.frame_foldl_retireFree _ g.stampedZero (List.contains_iff_mem.mp hf) hfree
  have hsr := g.stampedZero.retireStamped_keeps.2.2 hs
  have hk : g.stampedZero.retireStamped.FramesKept g.stampedStacks := (FramesKept.of_layout (Gikan.layout_stampFlip ..)).trans (.fitRecords _)
  exact ⟨hk.sorted hsr, hk.retired hsr f hr⟩

theorem Gikan.stampEnd_due {g : Gikan} (hp : g.phase = 4) (hs : g.stamped = false) (ht : g.get F.MEM_STATUS_TRAINED = 4095) :
    g.stampEnd = g.stampedStacks.afterStamped := by
  have hend : g.stampingEnd = (g.stampedZero.retireStamped).stampFlip 0 := by
    unfold Gikan.stampingEnd
    rw [if_neg (by rw [hp, hs, ht]; decide)]
    rfl
  have hset : ((g.stampedZero.retireStamped).stampFlip 0).stamped = true :=
    Gikan.on_of_get ((Gikan.get_flipped g _ (by decide)).trans (Gikan.get_set_same ..))
  unfold Gikan.stampEnd
  rw [hend, hs]
  exact if_neg (by rw [hset]; decide)

theorem Gikan.stampEnd_untrained {g : Gikan} (ht : g.get F.MEM_STATUS_TRAINED ≠ 4095) : g.stampEnd = g := by
  have hend : g.stampingEnd = g := by
    refine if_pos ?_
    rw [bne_iff_ne.mpr ht, Bool.or_true]
  unfold Gikan.stampEnd
  rw [hend]
  refine if_pos ?_
  cases g.stamped <;> rfl

/-- Stamped in TRAINING, the Gikan seals at once, or with HOLD_MS holds unless a seal is pending outside factory test mode. -/
theorem Gikan.afterStamped_training {g : Gikan} (hp : g.phase = 4) (hs : g.stamped = true) :
    g.afterStamped = if g.mgt.holdMs = 0 ∨ g.on F.MGT_SEAL_PENDING = true ∧ g.on F.FLT_TEST_ACTIVE = false then g.seal
      else g.set F.MGT_STATUS_PHASE 5 := by
  unfold Gikan.afterStamped
  rw [if_neg (by rw [hp, hs]; decide)]
  simp only [Bool.or_eq_true, decide_eq_true_eq, Bool.and_eq_true, Bool.not_eq_true']

end Sys2Proof.Machine
end

section
namespace Sys2Proof.Machine

/-! ## The end of stamping at start, and of a released frame's (R96, R97, R103, R276, R381) -/

/-- What the Gikan holds once it is stamped: nothing but poison, the frames retired that were to retire, and the node as it was. -/
theorem Gikan.stamped_holds {g k : Gikan} (hk : g.stampedStacks.afterStamped = k) :
    k.stamped = true ∧ (∀ a, memGet k.mem a = 0) ∧ k.clean = [] ∧ k.bad = [] ∧
    (Tbl.sorted g.stk.frames = true → ∀ f, g.stk.retiring.contains f = true → g.frame f = .free → k.frame f = .retired) ∧
    k.mgt.stampedAt = some g.now ∧ k.map = g.map ∧ k.get F.GLB_NODE_CURRENT = g.get F.GLB_NODE_CURRENT := by
  obtain ⟨hc, hkept, hget⟩ := g.stampedStacks.afterStamped_keeps
  rw [hk] at hc hkept hget
  have hz := hc.trans g.contents_stampedStacks
  simp only [Gikan.contents, Prod.mk.injEq] at hz
  obtain ⟨hmem, hclean, hbad, hmap, hmgt⟩ := hz
  refine ⟨?_, fun a => by rw [hmem]; rfl, hclean, hbad, fun hs f hf hfree => ?_, by rw [hmgt]; rfl, hmap, ?_⟩
  · refine Gikan.on_of_get ((hget _ (by decide) fun p => ?_).trans g.stamped_stampedStacks)
    simp only [F.MEM_STATUS_STAMPED, F.LNK_STATUS_STATE]; omega
  · obtain ⟨hs', hr⟩ := Gikan.frame_stampedStacks hs hf hfree
    exact hkept.retired hs' f hr
  · refine (hget _ (by decide) fun p => ?_).trans (g.get_stampedStacks _ (by decide))
    simp only [F.GLB_NODE_CURRENT, F.LNK_STATUS_STATE]; omega

section
variable {g k : Gikan} (hp : g.phase = 4) (hk : g.stampedStacks.afterStamped = k)
include hp hk

theorem Gikan.stamped_goesOn : k =
    if g.mgt.holdMs = 0 ∨ g.on F.MGT_SEAL_PENDING = true ∧ g.on F.FLT_TEST_ACTIVE = false then g.stampedStacks.seal
      else g.stampedStacks.set F.MGT_STATUS_PHASE 5 := by
  have hphase : g.stampedStacks.phase = 4 := (g.get_stampedStacks _ (by decide)).trans hp
  have hhold : g.stampedStacks.mgt.holdMs = g.mgt.holdMs := congrArg (fun c => c.2.2.2.2.holdMs) g.contents_stampedStacks
  have hpend : g.stampedStacks.on F.MGT_SEAL_PENDING = g.on F.MGT_SEAL_PENDING := Gikan.on_of_get (g.get_stampedStacks _ (by decide))
  have htest : g.stampedStacks.on F.FLT_TEST_ACTIVE = g.on F.FLT_TEST_ACTIVE := Gikan.on_of_get (g.get_stampedStacks _ (by decide))
  rw [← hk, Gikan.afterStamped_training hphase (Gikan.on_of_get g.stamped_stampedStacks), hhold, hpend, htest]

theorem Gikan.stamped_seals (h : g.mgt.holdMs = 0 ∨ g.on F.MGT_SEAL_PENDING = true ∧ g.on F.FLT_TEST_ACTIVE = false) :
    k.sealed = true := by
  rw [Gikan.stamped_goesOn hp hk, if_pos h]
  exact Gikan.sealed_seal _

theorem Gikan.stamped_waits (hh : g.mgt.holdMs ≠ 0) (h : g.on F.MGT_SEAL_PENDING = false ∨ g.on F.FLT_TEST_ACTIVE = true) :
    k.phase = 5 ∧ k.sealed = g.sealed := by
  have hno : ¬ (g.mgt.holdMs = 0 ∨ g.on F.MGT_SEAL_PENDING = true ∧ g.on F.FLT_TEST_ACTIVE = false) := by
    rintro (h0 | ⟨hpend, htest⟩)
    · exact hh h0
    · rcases h with h | h
      · exact Bool.false_ne_true (h.symm.trans hpend)
      · exact Bool.false_ne_true (htest.symm.trans h)
  rw [Gikan.stamped_goesOn hp hk, if_neg hno]
  refine ⟨Gikan.get_set_same .., Gikan.on_of_get ?_⟩
  rw [Gikan.get_set_ne _ _ _ _ (by decide)]
  exact g.get_stampedStacks _ (by decide)

end

/-! Released frames -/

/-- A frame once it has been stamped. -/
def Gikan.freshFrame (g : Gikan) (f : Nat) : Gikan := (g.forgetFree f).stampFlip f

theorem Gikan.layout_freshFrame (g : Gikan) (f : Nat) : (g.freshFrame f).layout = g.layout := Gikan.layout_stampFlip ..

theorem Gikan.frameStamped_returns {g : Gikan} {f : Nat} (hr : g.stk.retiring.contains f = false) (k : Nat) :
    (g.frameStamped f).frame k = if k = f then (if g.frame f = .windowWait then .window else .free) else g.frame k := by
  have hl := g.layout_freshFrame f
  have hret : (g.freshFrame f).stk.retiring.contains f = false := by rw [Gikan.retiring_of_layout hl]; exact hr
  have heq : g.frameStamped f = (g.freshFrame f).setFrame f (if (g.freshFrame f).frame f == .windowWait then .window else .free) := by
    unfold Gikan.frameStamped
    exact if_neg (by rw [show ((g.forgetFree f).stampFlip f).stk.retiring.contains f = false from hret]; decide)
  rw [heq, Gikan.frame_setFrame, Gikan.frame_of_layout hl, Gikan.frame_of_layout hl]
  simp only [beq_iff_eq]

/-- A frame that was to retire is retired, whether or not another takes its place in the host window. -/
theorem Gikan.frameStamped_retires {g : Gikan} {f : Nat} (hr : g.stk.retiring.contains f = true) (hs : Tbl.sorted g.stk.frames = true) :
    (g.frameStamped f).frame f = .retired ∧ (g.frameStamped f).stk.retiring = g.stk.retiring.filter (fun y => y != f) ∧
      Tbl.sorted (g.frameStamped f).stk.frames = true := by
  have hl := g.layout_freshFrame f
  have hret : (g.freshFrame f).stk.retiring = g.stk.retiring := Gikan.retiring_of_layout hl
  have hkept : ((g.freshFrame f).retireNow f).FramesKept (g.frameStamped f) := by
    unfold Gikan.frameStamped
    extract_lets fresh window
    have hin : fresh.stk.retiring.contains f = true := by rw [show fresh.stk.retiring = g.stk.retiring from hret]; exact hr
    rw [if_pos hin]
    split
    next ha => exact .allocFrames ha
    next => exact .refl _
  have hsort := Gikan.sorted_retireNow ((FramesKept.of_layout hl).sorted hs) f
  refine ⟨hkept.retired hsort f (by rw [Gikan.frame_retireNow, if_pos rfl]), hkept.retiring.trans ?_, hkept.sorted hsort⟩
  rw [← hret]
  rfl

/-- What takes the frame of a release that has ended (R97). -/
def Gikan.frameFreed (g : Gikan) (f : Nat) : Gikan := (((g.frameStamped f).fitDir).fitRecords).placeWaiting.frameMoves

theorem Gikan.FramesKept.frameFreed (g : Gikan) (f : Nat) : (g.frameStamped f).FramesKept (g.frameFreed f) :=
  (((FramesKept.fitDir _).trans (.fitRecords _)).trans (.placeWaiting _)).trans (.frameMoves _)

theorem Gikan.releaseStampEnd_idle {g : Gikan} {f : Nat}
    (h : g.frame f ≠ .waiting ∧ g.frame f ≠ .windowWait ∨ 2 ≤ g.get F.PWR_STATE_STATE) : g.releaseStampEnd f = g := by
  refine if_pos ?_
  refine h.imp_right fun h => ?_
  rw [Gikan.stacksAwake, decide_eq_false (Nat.not_lt.mpr h)]; rfl

theorem Gikan.releaseStampEnd_due {g : Gikan} {f : Nat} (h : g.frame f = .waiting ∨ g.frame f = .windowWait)
    (ha : g.get F.PWR_STATE_STATE < 2) : g.releaseStampEnd f = g.frameFreed f := by
  refine if_neg ?_
  rw [Gikan.stacksAwake, decide_eq_true ha]
  rintro (⟨hw, hh⟩ | h)
  · exact h.elim hw hh
  · cases h

theorem Gikan.slackStampEnd_stamping {g : Gikan} {entry p : Nat} (h : (g.page entry p).state = .stamping) :
    g.slackStampEnd entry p = g.setPage entry p { g.page entry p with state := .resident, since := g.tickNo } :=
  if_pos (beq_iff_eq.mpr h)

theorem Gikan.slackStampEnd_idle {g : Gikan} {entry p : Nat} (h : (g.page entry p).state ≠ .stamping) : g.slackStampEnd entry p = g :=
  if_neg fun hb => h (beq_iff_eq.mp hb)

@[simp] theorem Gikan.page_setPage_same (g : Gikan) (entry p : Nat) (r : PageRec) : (g.setPage entry p r).page entry p = r :=
  Tbl.getD_setD_same ..

end Sys2Proof.Machine
end

section
namespace Sys2Proof.Machine

/-! ## Retirement of frames, and the end of a page's move (R97, R103, R131) -/

section
variable {g : Gikan} {w : RegW} {f : Nat} (hgo : wrOne w F.MEM_RETIRE_GO = true) (hw : (wrField w F.MEM_RETIRE_FRAME).1 = f)
include hgo hw

/-- A write with GO, when it names a frame that can be retired. -/
theorem Gikan.wrRetire_takes (hf : f < 30720) (hn : g.frame f ≠ .retired) (hc : g.stk.retiring.contains f = false) (h64 : g.retired < 64) :
    g.wrRetire w = if g.frame f == .free && g.stamped then g.setFrame f .retired
      else ({ g with stk := { g.stk with retiring := insNat g.stk.retiring f } }).frameMove f := by
  unfold Gikan.wrRetire
  rw [hw]
  refine if_neg ?_
  rw [hgo, decide_eq_false (Nat.not_le.mpr hf), beq_eq_false_iff_ne.mpr hn, hc, decide_eq_false (Nat.not_le.mpr h64)]
  decide

theorem Gikan.wrRetire_refuses (h : 30720 ≤ f ∨ g.frame f = .retired ∨ g.stk.retiring.contains f = true ∨ 64 ≤ g.retired) :
    g.wrRetire w = g := by
  unfold Gikan.wrRetire
  rw [hw]
  refine if_pos ?_
  simp only [Bool.or_eq_true, decide_eq_true_eq, beq_iff_eq, hgo]
  tauto

end

/-- Nothing moves off a frame that holds nothing. -/
theorem Gikan.frameMove_free {g : Gikan} {f : Nat} (h : g.frame f = .free) : g.frameMove f = g := by
  rw [Gikan.frameMove, h]

theorem exec_memRetire {s : State} {w : RegW} {k : Gikan} (hr : s.g.reaches8 w (offOf F.MEM_RETIRE_GO))
    (hk : s.g.wrRetire (trig w F.MEM_RETIRE_GO) = k) : exec (.memRetireWrite w) s = .next (s.withG k) :=
  exec_reaches (w := trig w F.MEM_RETIRE_GO) rfl hk hr

/-- The page moved from its old frames: they wait for their stamping, and the new ones hold it. -/
def Gikan.pageMoved (g : Gikan) (fs : Tbl FrameSt) (entry p : Nat) : Gikan :=
  (fs.filter (fun c => c.2 == .moveTo entry p)).foldl (fun h c => (h.setFrame c.1 (.page entry p)).forgetFree c.1)
    ((fs.filter (fun c => c.2 == .page entry p)).foldl (fun h c => h.setFrame c.1 .waiting) g)

theorem Gikan.pageMoved_keeps (g : Gikan) (fs : Tbl FrameSt) (entry p : Nat) : (g.pageMoved fs entry p).mem = g.mem :=
  List.foldlRecOn (motive := fun h : Gikan => h.mem = g.mem) _ _
    (List.foldlRecOn (motive := fun h : Gikan => h.mem = g.mem) _ _ rfl fun _ e _ _ => e) fun _ e _ _ => e

theorem Gikan.frame_pageMoved {g h : Gikan} (hs : Tbl.sorted g.stk.frames = true) (hh : ∀ k, h.frame k = g.frame k) (entry p k : Nat) :
    (h.pageMoved g.stk.frames entry p).frame k =
      if g.frame k = .page entry p then .waiting else if g.frame k = .moveTo entry p then .page entry p else g.frame k := by
  have hold := Gikan.mem_framesIn hs (x := .page entry p) (by simp) k
  have hnew := Gikan.mem_framesIn hs (x := .moveTo entry p) (by simp) k
  unfold Gikan.pageMoved
  rw [← List.foldl_map (f := Prod.fst) (g := fun h f => Gikan.setFrame h f .waiting),
    ← List.foldl_map (f := Prod.fst) (g := fun h f => (Gikan.setFrame h f (.page entry p)).forgetFree f),
    Gikan.frame_foldl (op := fun h f => (Gikan.setFrame h f (.page entry p)).forgetFree f) (fun h f k => Gikan.frame_setFrame h f (.page entry p) k),
    Gikan.frame_foldl (fun h f k => Gikan.frame_setFrame h f .waiting k), hh k]
  simp only [hold, hnew]
  by_cases hp : g.frame k = .page entry p
  · rw [if_pos hp, if_pos hp, hp, if_neg (by simp)]
  · rw [if_neg hp, if_neg hp]

/-- A page's units decoded for their copy; their old frames hold them no more. -/
def Gikan.pageCopied (g : Gikan) (entry p : Nat) : Gikan :=
  let e := g.map.cur.entry entry
  (g.copyOut ⟨entry, e⟩ (pageAddr e p) (min pageBytes (e.len - p * pageBytes))).1.forgetErrors (pageAddr e p) pageBytes

theorem Gikan.layout_pageCopied (g : Gikan) (entry p : Nat) : (g.pageCopied entry p).layout = g.layout := by
  unfold Gikan.pageCopied
  rw [Gikan.layout_forgetErrors, Gikan.layout_copyOut]

@[simp] theorem Gikan.mem_forgetErrors (g : Gikan) (a n : Nat) : (g.forgetErrors a n).mem = g.mem := rfl

theorem Gikan.mem_pageCopied {g : Gikan} (hb : g.bad = []) (entry p : Nat) : (g.pageCopied entry p).mem = g.mem := by
  unfold Gikan.pageCopied
  rw [Gikan.mem_forgetErrors, Gikan.mem_copyOut_errorless hb]

theorem Gikan.frameMoveEnd_moved {g : Gikan} {f entry p d : Nat} (hf : g.frame f = .page entry p) (hm : (g.page entry p).moving = .frame d 0)
    (hr : g.stk.retiring.contains f = true) : g.frameMoveEnd f =
      ((g.pageCopied entry p).pageMoved g.stk.frames entry p).setPage entry p { g.page entry p with moving := .none } := by
  unfold Gikan.frameMoveEnd
  rw [hf]
  dsimp only
  rw [hm, if_neg (by rw [hr]; decide)]
  rfl

/-- What a page's move leaves: the page at its new frames, its old ones to be stamped. -/
theorem Gikan.pageMoved_holds {g : Gikan} (hs : Tbl.sorted g.stk.frames = true) (entry p : Nat) (r : PageRec) {k : Gikan}
    (hk : ((g.pageCopied entry p).pageMoved g.stk.frames entry p).setPage entry p r = k) :
    k.page entry p = r ∧ (g.bad = [] → k.mem = g.mem) ∧ ∀ j, k.frame j =
      if g.frame j = .page entry p then .waiting else if g.frame j = .moveTo entry p then .page entry p else g.frame j := by
  have hcopied : ∀ j, (g.pageCopied entry p).frame j = g.frame j := Gikan.frame_of_layout (g.layout_pageCopied entry p)
  have hmoved := Gikan.pageMoved_keeps (g.pageCopied entry p) g.stk.frames entry p
  have hframe := Gikan.frame_pageMoved hs hcopied entry p
  generalize (g.pageCopied entry p).pageMoved g.stk.frames entry p = m at hk hmoved hframe
  subst hk
  exact ⟨Gikan.page_setPage_same .., fun hb => hmoved.trans (Gikan.mem_pageCopied hb entry p), hframe⟩

/-! ## Patrol scrub (R101, R102) -/

/-- A codeword has been read: the pass goes on, or is counted and begins anew once it has read every one. -/
def Gikan.scrubRead (h : Gikan) (read : List (Nat × Nat)) : Gikan :=
  if read = [(0, 30720 * 8192 * 128)] then ({ h with stk := { h.stk with scrubbed := [], rows := [] } }).inc F.MEM_SCRUB_PASSES 1
  else { h with stk := { h.stk with scrubbed := read } }

theorem Gikan.patrol_rests {g : Gikan} {cell : Nat} (n : Nat) (h : g.on F.MEM_CTRL_SCRUB_EN = false ∨ g.stamped = false ∨
    2 ≤ g.get F.PWR_STATE_STATE ∨ 30720 * 8192 * 128 ≤ cell) : g.patrol cell n = g := by
  refine if_pos ?_
  simp only [Bool.or_eq_true, Bool.not_eq_true', Gikan.stacksAwake, decide_eq_false_iff_not, decide_eq_true_eq, not_lt]
  tauto

section
variable {g : Gikan} {cell : Nat} (n : Nat) (he : g.on F.MEM_CTRL_SCRUB_EN = true) (hs : g.stamped = true)
  (ha : g.get F.PWR_STATE_STATE < 2) (hc : cell < 30720 * 8192 * 128)
include he hs ha hc

theorem Gikan.patrol_awake : (!g.on F.MEM_CTRL_SCRUB_EN || !g.stamped || !g.stacksAwake || decide (allCodewords ≤ cell)) = false := by
  rw [he, hs, Gikan.stacksAwake, decide_eq_true ha, decide_eq_false (Nat.not_le.mpr hc)]; rfl

theorem Gikan.patrol_page {entry p : Nat} (hf : g.frame (cell / 1048576) = .page entry p) {site : Site} {us : List Nat} {which : Nat}
    (hu : g.cellUnits entry p ((frameOf g.stk.frames entry p).getD 0) cell = (site, us, which)) :
    g.patrol cell n = (((g.addErrors us which n).decodeAll site 2 us).1).scrubRead (covAdd cell g.stk.scrubbed) := by
  unfold Gikan.patrol
  rw [Gikan.patrol_awake he hs ha hc, hf]
  dsimp only
  rw [hu]
  rfl

theorem Gikan.patrol_unpaged (hf : ∀ entry p, g.frame (cell / 1048576) ≠ .page entry p) :
    g.patrol cell n = (g.scrubFree cell n).scrubRead (covAdd cell g.stk.scrubbed) := by
  unfold Gikan.patrol
  rw [Gikan.patrol_awake he hs ha hc]
  cases h : g.frame (cell / 1048576) with
  | page entry p => exact absurd h (hf entry p)
  | _ => rfl

end

/-- A codeword read and found, or left, without symbols in error. -/
def Gikan.codewordRead (g : Gikan) (cell : Nat) : Gikan := { g with stk := { g.stk with freeBad := g.stk.freeBad.del cell } }

theorem FrameSt.holdsData_iff (x : FrameSt) : x.holdsData = true ↔ x = .dir ∨ x = .record ∨ x = .window := by
  cases x <;> simp [FrameSt.holdsData]

theorem Gikan.scrubFree_good {g : Gikan} {cell n : Nat} (h : g.stk.freeBad.getD cell 0 + n = 0) : g.scrubFree cell n = g.codewordRead cell :=
  if_pos h

theorem Gikan.scrubFree_corrects {g : Gikan} {cell n : Nat} (h : g.stk.freeBad.getD cell 0 + n = 1)
    (hd : (g.frame (cell / 1048576)).holdsData = true) : g.scrubFree cell n = (g.codewordRead cell).correctedAt (cellPlace cell) := by
  unfold Gikan.scrubFree
  rw [h]
  dsimp only
  rw [if_neg Nat.one_ne_zero]
  exact if_pos hd

theorem Gikan.scrubFree_logs {g : Gikan} {cell n : Nat} (h : g.stk.freeBad.getD cell 0 + n = 2 ∨
    g.stk.freeBad.getD cell 0 + n = 1 ∧ (g.frame (cell / 1048576)).holdsData = false) :
    g.scrubFree cell n = (g.codewordRead cell).logUeAt (cellPlace cell) 2 false := by
  unfold Gikan.scrubFree
  rcases h with h | ⟨h, hd⟩
  · rw [h]; rfl
  · rw [h]
    dsimp only
    rw [if_neg Nat.one_ne_zero]
    exact if_neg fun hd' => Bool.false_ne_true (hd.symm.trans hd')

/-- The numbers in a list of ranges. -/
def covers (l : List (Nat × Nat)) (x : Nat) : Prop := ∃ r ∈ l, r.1 ≤ x ∧ x < r.2

@[simp] theorem covers_nil (x : Nat) : ¬ covers [] x := fun ⟨_, h, _⟩ => nomatch h

@[simp] theorem covers_cons (a b : Nat) (t : List (Nat × Nat)) (x : Nat) : covers ((a, b) :: t) x ↔ (a ≤ x ∧ x < b) ∨ covers t x := by
  simp only [covers, List.mem_cons, exists_eq_or_imp]

/-- Putting a number into ranges adds it, and it alone. -/
theorem covers_covAdd (c x : Nat) (l : List (Nat × Nat)) (hl : ∀ r ∈ l, r.1 < r.2) : covers (covAdd c l) x ↔ x = c ∨ covers l x := by
  induction l with
  | nil => simp only [covAdd, covers_cons, covers_nil, or_false]; omega
  | cons r t ih =>
    obtain ⟨a, b⟩ := r
    rw [List.forall_mem_cons] at hl
    obtain ⟨hab, ht⟩ := hl
    dsimp only at hab
    unfold covAdd
    split
    · simp only [covers_cons, ← or_assoc]; exact or_congr_left (by omega)
    · split
      · simp only [covers_cons, ← or_assoc]; exact or_congr_left (by omega)
      · split
        · simp only [covers_cons, ← or_assoc]; exact or_congr_left (by omega)
        · split
          · cases t with
            | nil => simp only [covers_cons, covers_nil, or_false]; omega
            | cons r2 t2 =>
              obtain ⟨a2, b2⟩ := r2
              have hab2 : a2 < b2 := ht (a2, b2) (by simp)
              dsimp only
              split
              · simp only [covers_cons, ← or_assoc]; exact or_congr_left (by omega)
              · simp only [covers_cons, ← or_assoc]; exact or_congr_left (by omega)
          · rw [covers_cons, covers_cons, ih ht, or_left_comm]

/-! ## MEM_FLIP (R104) -/

/-- The fields of MEM_FLIP. -/
def flipFields : List Fld := [F.MEM_FLIP_STACK, F.MEM_FLIP_SYM_A, F.MEM_FLIP_SYM_B, F.MEM_FLIP_PATTERN, F.MEM_FLIP_ARM]

/-- A write that sets a one-bit field gives it the value 1. -/
theorem Gikan.wrValue_one (g : Gikan) {w : RegW} {f : Fld} (hf : f.wid = 1) (h : wrOne w f = true) : g.wrValue w f % 2 = 1 := by
  have hv : (wrField w f).1 < 2 := by have := bits_lt w.data.toNat (f.key % 64) f.wid; rw [hf] at this; rwa [wrField, hf]
  have hone : (wrField w f).1 &&& (wrField w f).2 = 1 := by
    have hne : (wrField w f).1 &&& (wrField w f).2 ≠ 0 := bne_iff_ne.mp h
    have hle : (wrField w f).1 &&& (wrField w f).2 ≤ (wrField w f).1 := Nat.and_le_left
    omega
  unfold Gikan.wrValue
  dsimp only
  rw [hone, Nat.or_mod_two_eq_one]
  exact .inl rfl

theorem Gikan.wrMemFlip_test {g : Gikan} (w : RegW) (ht : g.on F.FLT_TEST_ACTIVE = true) :
    (g.wrMemFlip w).mem = g.mem ∧ ∀ f ∈ flipFields, (g.wrMemFlip w).get f = g.wrValue w f % 2 ^ f.wid := by
  have heq : g.wrMemFlip w = g.putFields w (offOf F.MEM_FLIP_STACK) flipFields := if_pos ht
  have hplain : ∀ f ∈ flipFields, f.acc = .rw ∧ f.key ≠ F.MGT_SEAL_RWS_WRITES.key ∧ f.key ≠ F.MGT_SEAL_LAST_OFFSET.key := by decide
  rw [heq]
  refine ⟨Gikan.mem_of_body (Gikan.body_putFields ..), fun f hf => ?_⟩
  obtain ⟨hrw, hoff⟩ := hplain f hf
  rw [Gikan.get_putFields_mem g w _ flipFields f hf (by decide) (by decide) hoff]
  have hput : g.putField w f = g.set f (g.wrValue w f) := by unfold Gikan.putField; rw [hrw]
  rw [hput, Gikan.get_set_same]

theorem Gikan.wrMemFlip_mission {g : Gikan} (w : RegW) (ht : g.on F.FLT_TEST_ACTIVE = false) : g.wrMemFlip w = g :=
  if_neg (by rw [ht]; decide)

theorem exec_memFlip {s : State} {w : RegW} {k : Gikan} (hr : s.g.reaches8 w (offOf F.MEM_FLIP_ARM))
    (hk : s.g.wrMemFlip (trig w F.MEM_FLIP_ARM) = k) : exec (.memFlipArm w) s = .next (s.withG k) :=
  exec_reaches (w := trig w F.MEM_FLIP_ARM) rfl hk hr

end Sys2Proof.Machine
end

section
namespace Sys2Proof.Machine

/-! ## The stacks (chapter 6) -/

/-- A row of the stacks that the Hasp state does not stop. -/
theorem exec_done {c : Instr} {s : State} {g k : Gikan} (hc : exec c s = s.done g) (hk : g = k) : exec c s = .next (s.withG k) := by
  rw [hc, hk]; rfl

theorem exec_done_idle {c : Instr} {s : State} {g : Gikan} (hc : exec c s = s.done g) (hk : g = s.g) : exec c s = .next s := by
  rw [hc, hk]; rfl

/-- Settles O27: each row is the case of its function that its premises choose; that a retired frame stays retired while others are taken and given
back is `Gikan.FramesKept`, and what the end of stamping leaves of the node is read through `Gikan.afterStamped_keeps`. (Mathlib
makes a keyword of `stacks`.) -/
theorem stacksHold : Obligations.Stacks := by
  refine ⟨fun s => ⟨fun h n => ⟨fun hp hs ht => ⟨?okTrains, ?failTrains⟩, fun hi ok => ?noTraining⟩, fun hp hs ht => ⟨?stamps, ?stamped⟩,
      fun ht => ?untrained, fun f hh hs => ⟨fun hi => ?noRelease, fun hf ha => ⟨?releases, fun hr => ?retires, fun hr => ?returns⟩⟩,
      fun entry p hh => ⟨fun hst => ?slackEnds, fun hst => ?noSlack⟩⟩,
    fun s => ⟨fun w hr => ⟨fun hf hfree hst hc h64 => ?retiresNow, fun hf hfree hret hc h64 => ?begins, fun hf hfree hst hc h64 => ?marks,
        fun hi => ?refuses⟩,
      fun f entry p d hh hs hf hm hr => ?moves, fun cell n hh => ⟨fun hi => ?rests, fun he hs ha hc => ⟨fun entry p hf site us which hu => ?scrubsPage,
        fun hf => ⟨fun h0 => ?good, fun h1 hd => ?corrects, fun h2 => ?logs⟩⟩⟩,
      fun l c x hl => covers_covAdd c x l hl, fun w hr => ⟨fun ht => ?mission, fun ht => ?test⟩⟩⟩
  case okTrains => exact exec_done rfl (Gikan.stackTrained_ok n hp hs ht)
  case failTrains => exact ⟨_, rfl, Gikan.stackTrained_fails n hp hs ht h.isLt⟩
  case noTraining => exact exec_done_idle rfl (Gikan.stackTrained_idle hi ok n)
  case stamps => exact exec_done rfl (Gikan.stampEnd_due hp hs ht)
  case stamped =>
    obtain ⟨k, hk⟩ : ∃ k, s.g.stampedStacks.afterStamped = k := ⟨_, rfl⟩
    obtain ⟨hst, hmem, hclean, hbad, hret, hat, hmap, hnode⟩ := Gikan.stamped_holds hk
    exact ⟨_, exec_done rfl ((Gikan.stampEnd_due hp hs ht).trans hk), hst, hmem, hclean, hbad, hret, hat, hmap, hnode,
      fun _ => Gikan.stamped_seals hp hk, Gikan.stamped_waits hp hk⟩
  case untrained => exact exec_done_idle rfl (Gikan.stampEnd_untrained ht)
  case noRelease => exact exec_live_idle rfl (Gikan.releaseStampEnd_idle hi)
  case releases => exact exec_live rfl hh (Gikan.releaseStampEnd_due hf ha)
  case retires =>
    obtain ⟨hret, hlist, hsort⟩ := Gikan.frameStamped_retires hr hs
    have hk := Gikan.FramesKept.frameFreed s.g f
    have hend := Gikan.releaseStampEnd_due hf ha
    generalize s.g.frameFreed f = k at hk hend
    exact ⟨_, exec_live rfl hh hend, hk.retired hsort f hret, hk.retiring.trans hlist⟩
  case returns => exact Gikan.frameStamped_returns hr
  case slackEnds => exact ⟨_, exec_live rfl hh (Gikan.slackStampEnd_stamping hst), Gikan.page_setPage_same .., rfl⟩
  case noSlack => exact exec_live_idle rfl (Gikan.slackStampEnd_idle hst)
  case retiresNow =>
    refine exec_memRetire hr ((Gikan.wrRetire_takes (wrOne_trig w _ rfl) rfl hf (by rw [hfree]; decide) hc h64).trans (if_pos ?_))
    rw [hfree, hst]; rfl
  case begins =>
    refine exec_memRetire hr ((Gikan.wrRetire_takes (wrOne_trig w _ rfl) rfl hf hret hc h64).trans (if_neg ?_))
    rw [beq_eq_false_iff_ne.mpr hfree, Bool.false_and]; exact Bool.false_ne_true
  case marks =>
    refine exec_memRetire hr ((Gikan.wrRetire_takes (wrOne_trig w _ rfl) rfl hf (by rw [hfree]; decide) hc h64).trans ((if_neg ?_).trans ?_))
    · rw [hst, Bool.and_false]; exact Bool.false_ne_true
    · exact Gikan.frameMove_free hfree
  case refuses => exact exec_memRetire hr (Gikan.wrRetire_refuses (wrOne_trig w _ rfl) rfl hi)
  case moves =>
    exact ⟨_, exec_live rfl hh (Gikan.frameMoveEnd_moved hf hm hr), Gikan.pageMoved_holds hs entry p _ rfl⟩
  case rests => exact exec_live_idle rfl (Gikan.patrol_rests n hi)
  case scrubsPage => exact exec_live rfl hh (Gikan.patrol_page n he hs ha hc hf hu)
  case good => exact exec_live rfl hh ((Gikan.patrol_unpaged n he hs ha hc hf).trans (by rw [Gikan.scrubFree_good h0]; rfl))
  case corrects =>
    have hdata := (FrameSt.holdsData_iff _).mpr hd
    exact exec_live rfl hh ((Gikan.patrol_unpaged n he hs ha hc hf).trans (by rw [Gikan.scrubFree_corrects h1 hdata]; rfl))
  case logs =>
    have hdata : s.g.stk.freeBad.getD cell 0 + n = 2 ∨
        s.g.stk.freeBad.getD cell 0 + n = 1 ∧ (s.g.frame (cell / 1048576)).holdsData = false :=
      h2.imp_right fun ⟨h1, hdir, hrec, hwin⟩ => ⟨h1, Bool.eq_false_iff.mpr fun h => by
        rcases (FrameSt.holdsData_iff _).mp h with h | h | h
        · exact hdir h
        · exact hrec h
        · exact hwin h⟩
    exact exec_live rfl hh ((Gikan.patrol_unpaged n he hs ha hc hf).trans (by rw [Gikan.scrubFree_logs hdata]; rfl))
  case mission => exact exec_memFlip hr (Gikan.wrMemFlip_mission _ ht)
  case test =>
    obtain ⟨hmem, hget⟩ := Gikan.wrMemFlip_test (trig w F.MEM_FLIP_ARM) ht
    refine ⟨_, exec_memFlip hr rfl, ?_, hmem, hget _ (by decide), hget _ (by decide), hget _ (by decide), hget _ (by decide)⟩
    exact (hget _ (by decide)).trans (Gikan.wrValue_one _ rfl (wrOne_trig w _ rfl))

end Sys2Proof.Machine
end

section
namespace Sys2Proof.Machine

/-! ## Fetched granules (R106, R110, R135) -/

/-! What a read of flash counts, beside pages and bytes -/

/-- A step that leaves bytes, page records and the tick. -/
structure Gikan.PagesKept (g h : Gikan) : Prop where
  mem : h.mem = g.mem
  pages : h.tier.pages = g.tier.pages
  tick : h.tickNo = g.tickNo

namespace Gikan.PagesKept

theorem refl (g : Gikan) : g.PagesKept g := ⟨rfl, rfl, rfl⟩

theorem trans {g h k : Gikan} (a : g.PagesKept h) (b : h.PagesKept k) : g.PagesKept k :=
  ⟨b.mem.trans a.mem, b.pages.trans a.pages, b.tick.trans a.tick⟩

theorem page {g h : Gikan} (a : g.PagesKept h) (entry p : Nat) : h.page entry p = g.page entry p := by
  rw [Gikan.page, a.pages]; rfl

theorem inc (g : Gikan) {f : Fld} (k : Nat) (hf : F.TICK_COUNT_TICK.key ≠ f.key) : g.PagesKept (g.inc f k) :=
  ⟨rfl, rfl, Gikan.get_inc_ne g f _ k hf⟩

theorem threshold (g : Gikan) (b : Nat) : g.PagesKept (g.threshold b) := by
  unfold Gikan.threshold
  dsimp only
  split
  · exact refl g
  · split <;> exact ⟨rfl, rfl, rfl⟩

theorem blockRead (g : Gikan) (b : Nat) : g.PagesKept (g.blockRead b) :=
  trans (h := { g with tier := { g.tier with reads := g.tier.reads.put b (g.tier.reads.getD b 0 + 1) } }) ⟨rfl, rfl, rfl⟩ (threshold _ b)

theorem flashDecode (g : Gikan) (how : FlashDecode) : g.PagesKept (g.flashDecode how) := by
  have retried := inc g (f := F.TIER_FLASH_ERR_RETRIES) 1 (by decide)
  have soft := retried.trans (inc _ (f := F.TIER_FLASH_ERR_SOFT) 1 (by decide))
  cases how with
  | hard => exact refl g
  | retried => exact retried
  | soft => exact soft
  | failed => exact soft.trans (inc _ (f := F.TIER_FLASH_ERR_UNCORRECTABLE) 1 (by decide))

theorem monitor (g : Gikan) (src : Nat) (unit tc : Option Nat) (v : Nat) : g.PagesKept (g.monitor src unit tc v) :=
  have htake : ∀ (h : Gikan) (m : Nat) (takes : Bool), h.PagesKept (if takes then h.monTake m v else h) := fun h m takes => by
    cases takes
    · exact refl h
    · exact ⟨rfl, rfl, rfl⟩
  List.foldlRecOn (motive := g.PagesKept) _ _ (refl g) fun h e m _ => e.trans (htake h m _)

theorem fetchNext (g : Gikan) {entry p : Nat} (hl : (g.page entry p).lent = none) : g.PagesKept (g.fetchNext entry p) := by
  unfold Gikan.fetchNext
  dsimp only
  split
  · exact refl g
  · rw [hl]
    dsimp only
    split
    · exact ⟨rfl, rfl, rfl⟩
    · exact refl g

end Gikan.PagesKept

/-! The granule that comes next -/

section
variable {r : PageRec} {staged : Bool} {first : Nat} {got : List Nat} {dirty : Bool} (hm : r.moving = .fetch staged first got dirty)
  (hs : r.span = 1)
include hm hs

theorem PageRec.nextGranule_first (h : got.contains first = false) : r.nextGranule = some first := by
  unfold PageRec.nextGranule
  rw [hm, hs]
  simp only [List.range_one, List.map_singleton, Nat.div_one, Nat.mul_one, Nat.add_zero, List.find?_singleton, h, Bool.not_false, if_true]

theorem PageRec.nextGranule_rest (h : got.contains first = true) (n : Nat) :
    r.nextGranule = some n ↔ n < 8192 ∧ got.contains n = false ∧ ∀ k, k < n → got.contains k = true := by
  have hrest : r.nextGranule = (List.range 8192).find? (fun n => !got.contains n) := by
    unfold PageRec.nextGranule
    rw [hm, hs]
    simp only [List.range_one, List.map_singleton, Nat.div_one, Nat.mul_one, Nat.add_zero, List.find?_singleton, h, Bool.not_true,
      Bool.false_eq_true, if_false]
  rw [hrest, List.find?_range_eq_some]
  simp only [Bool.not_eq_true', List.mem_range, Bool.not_not]
  tauto

end

/-! A granule put in -/

section
variable {g : Gikan} {entry p n : Nat} {staged : Bool} {first : Nat} {got : List Nat} {dirty : Bool}
  (hm : (g.page entry p).moving = .fetch staged first got dirty)
include hm

/-- One of several granules is added to its fetch. -/
theorem Gikan.granuleIn_more (hl : (g.page entry p).lent = none) (h : (insNat got n).length ≠ 8192) :
    (g.granuleIn entry p n).mem = g.mem ∧
      (g.granuleIn entry p n).page entry p = { g.page entry p with moving := .fetch staged first (insNat got n) dirty } := by
  have heq : g.granuleIn entry p n = ((g.forgetErrors (pageAddr (g.map.cur.entry entry) p + n * 4096) 4096).setPage entry p
      { g.page entry p with moving := .fetch staged first (insNat got n) dirty }).fetchNext entry p := by
    unfold Gikan.granuleIn
    dsimp only
    rw [hm]
    exact if_neg h
  rw [heq]
  have hk := Gikan.PagesKept.fetchNext ((g.forgetErrors (pageAddr (g.map.cur.entry entry) p + n * 4096) 4096).setPage entry p
    { g.page entry p with moving := .fetch staged first (insNat got n) dirty }) (entry := entry) (p := p)
    (by rw [Gikan.page_setPage_same]; exact hl)
  exact ⟨hk.mem, (hk.page entry p).trans (Gikan.page_setPage_same ..)⟩

/-- The last granule ends the fetch. -/
theorem Gikan.granuleIn_last (h : (insNat got n).length = 8192) : g.granuleIn entry p n =
    (g.forgetErrors (pageAddr (g.map.cur.entry entry) p + n * 4096) 4096).fetchDone entry p (g.page entry p) dirty := by
  unfold Gikan.granuleIn
  dsimp only
  rw [hm]
  exact if_pos h

end

theorem Gikan.fetchDone_holds (g : Gikan) (entry p : Nat) (r : PageRec) (dirty : Bool) : (g.fetchDone entry p r dirty).mem = g.mem ∧
    (g.fetchDone entry p r dirty).page entry p =
      (if dirty then { r with state := .resident, lowerAt := .none, lent := none, moving := .none, since := g.tickNo }
        else { r with state := .residentClean, moving := .none, since := g.tickNo }) ∧
    (g.fetchDone entry p r dirty).get F.TIER_EVENTS_FETCHES = satAdd F.TIER_EVENTS_FETCHES.wid (g.get F.TIER_EVENTS_FETCHES) 1 := by
  refine ⟨rfl, (Gikan.page_setPage_same ..).trans ?_, Gikan.get_inc_same ..⟩
  cases dirty <;> rfl

/-! An arrival -/

theorem Gikan.flashBlockOf_unflashed {g : Gikan} {r : PageRec} {n : Nat} (h : ∀ d, r.lowerAt ≠ .flash d) : g.flashBlockOf r n = none := by
  unfold Gikan.flashBlockOf
  split
  next d hd => exact absurd hd (h d)
  next => rfl

section
variable {g : Gikan} {entry p n : Nat}

theorem Gikan.fetchArrive_other (how : FlashDecode) (h : (g.page entry p).nextGranule ≠ some n ∨ (g.page entry p).lent ≠ none) :
    g.fetchArrive entry p n how = g :=
  if_pos (Bool.or_eq_true_iff.mpr (h.imp decide_eq_true Option.isSome_iff_ne_none.mpr))

variable (hl : (g.page entry p).lent = none) (hn : (g.page entry p).nextGranule = some n)
include hl hn

theorem Gikan.fetchArrive_expected : (decide ((g.page entry p).nextGranule ≠ some n) || (g.page entry p).fromLent) = false := by
  rw [PageRec.fromLent, hl, decide_eq_false fun h => h hn]; rfl

/-- A granule that its source could read is put in, once a read of flash has been counted. -/
theorem Gikan.fetchArrive_read {how : FlashDecode} (hh : how ≠ .failed) :
    ∃ k, g.PagesKept k ∧ ((∀ d, (g.page entry p).lowerAt ≠ .flash d) → k = g) ∧ g.fetchArrive entry p n how = k.granuleIn entry p n := by
  unfold Gikan.fetchArrive
  dsimp only
  rw [Gikan.fetchArrive_expected hl hn, if_neg Bool.false_ne_true, beq_false_of_ne hh, if_neg Bool.false_ne_true]
  refine ⟨_, ?_, fun hf => ?_, rfl⟩
  · split
    · have hnext : ∀ h : Gikan, h.PagesKept h.next.2 := fun _ => ⟨rfl, rfl, rfl⟩
      exact (((Gikan.PagesKept.blockRead g _).trans (hnext _)).trans (.flashDecode _ how)).trans (.monitor ..)
    · exact .refl g
  · rw [Gikan.flashBlockOf_unflashed hf]

/-- What a pool of host memory could not read is left poisoned. -/
theorem Gikan.fetchArrive_lost (hf : ∀ d, (g.page entry p).lowerAt ≠ .flash d) :
    g.fetchArrive entry p n .failed = (g.granuleLost entry p n none).granuleIn entry p n := by
  unfold Gikan.fetchArrive
  dsimp only
  rw [Gikan.fetchArrive_expected hl hn, if_neg Bool.false_ne_true, Gikan.flashBlockOf_unflashed hf, beq_self_eq_true]
  simp only [if_true]

end

end Sys2Proof.Machine
end

section
namespace Sys2Proof.Machine

/-! ## Heat and demotions (R106, R112, R114, R137) -/

theorem Tbl.get?_mapV {α β : Type} (t : Tbl α) (f : Nat → α → β) (x : Nat) : (t.mapV f).get? x = (t.get? x).map (f x) := by
  induction t with
  | nil => rfl
  | cons e t ih =>
    obtain ⟨k, v⟩ := e
    by_cases h : k = x
    · subst h
      simp [Tbl.mapV, Tbl.get?]
    · simpa [Tbl.mapV, Tbl.get?, h] using ih

section
variable {g : Gikan}

theorem Gikan.heatDecay_due (hr : g.running = true) (hn : g.tickNo % (16 * max 1 (g.get F.TIER_HEAT_DECAY)) = 0)
    (hl : g.tier.lastDecay ≠ some g.tickNo) : g.heatDecay = { g with tier := { g.tier with
      pages := g.tier.pages.mapV (fun _ (r : PageRec) => { r with heat := r.heat / 2 })
      seenLast := g.tier.seen, seenByLast := g.tier.seenBy, seen := [], seenBy := [], lastDecay := some g.tickNo } } := by
  refine if_neg ?_
  rw [hr, hn, beq_false_of_ne hl]
  decide

theorem Gikan.heatDecay_early (h : g.tickNo % (16 * max 1 (g.get F.TIER_HEAT_DECAY)) ≠ 0 ∨ g.tier.lastDecay = some g.tickNo) :
    g.heatDecay = g := by
  refine if_pos ?_
  rcases h with h | h
  · rw [bne_iff_ne.mpr h, Bool.or_true, Bool.true_or]
  · rw [beq_iff_eq.mpr h, Bool.or_true]

/-- A decay halves the heat of every page; a page without a record has none. -/
theorem Gikan.page_halved (t : TierSt) (hp : t.pages = g.tier.pages.mapV (fun _ (r : PageRec) => { r with heat := r.heat / 2 })) (entry p : Nat) :
    ({ g with tier := t } : Gikan).page entry p = { g.page entry p with heat := (g.page entry p).heat / 2 } := by
  unfold Gikan.page
  dsimp only
  rw [hp, Tbl.getD, Tbl.getD, Tbl.get?_mapV]
  cases g.tier.pages.get? (pageKey entry p) <;> rfl

end

/-! What decoding leaves of the registers outside FLT, MEM and MGT (R90 to R102) -/

/-- A field of a block that neither decoding nor the faults and messages that it raises count in. -/
def Fld.offStacks (f : Fld) : Prop := f.apart ∧ f.key / 0x800000 ≠ 6

section
variable {f : Fld} (hf : f.offStacks)
include hf

theorem Gikan.get_set_offStacks (g : Gikan) {h : Fld} (v : Nat) (hh : h.key / 0x800000 = 6) : (g.set h v).get f = g.get f :=
  Gikan.get_set_ne g h f v fun e => hf.2 (e ▸ hh)

theorem Gikan.get_flipOn_offStacks (g : Gikan) (h most : Nat) : (g.flipOn h most).2.get f = g.get f := by
  unfold Gikan.flipOn
  split
  · exact Gikan.get_set_offStacks hf g 0 rfl
  · rfl

theorem Gikan.get_flipWritten_offStacks (g : Gikan) (s : Site) (u : Nat) : (g.flipWritten s u).get f = g.get f := by
  have hflip : ∀ (h most u i : Nat), (if (g.flipOn h most).1 = 0 then (g.flipOn h most).2
      else (g.flipOn h most).2.setBad u (g.flipOn h most).1 i).get f = g.get f := by
    intro h most u i
    split <;> exact Gikan.get_flipOn_offStacks hf g h most
  unfold Gikan.flipWritten
  dsimp only
  split
  · split
    · exact hflip ..
    · rfl
  · exact hflip ..

theorem Gikan.get_written_offStacks (g : Gikan) (s : Site) (u : Nat) : (g.written s u).get f = g.get f :=
  Gikan.get_flipWritten_offStacks hf _ s u

theorem Gikan.get_correctedAt_offStacks (g : Gikan) {p : Nat × Nat × Nat × Nat} (hp : p.1 < 12) : (g.correctedAt p).get f = g.get f := by
  obtain ⟨h, k, r, c⟩ := p
  refine (Gikan.get_corrected _ _ _ _ f hf.1).trans (Gikan.get_set_offStacks hf g _ ?_)
  simp only [F.MEM_ERR_H_CORRECTED]
  omega

theorem Gikan.get_logUeAt_offStacks (g : Gikan) {p : Nat × Nat × Nat × Nat} (src : Nat) (modeB : Bool) (hp : p.1 < 12) :
    (g.logUeAt p src modeB).get f = g.get f := by
  obtain ⟨h, k, r, c⟩ := p
  refine (Gikan.get_contained _ _ _ _ f hf.1).trans ((Gikan.get_set_offStacks hf _ _ ?_).trans ?_)
  · simp only [F.MEM_ERR_H_UNCORRECTED]
    omega
  · split
    · exact Gikan.get_set_offStacks hf g 1 rfl
    · simp (disch := decide) only [Gikan.setB, Gikan.get_set_offStacks hf]

theorem Gikan.get_uncorrectable_offStacks (g : Gikan) (s : Site) (u src : Nat) : (g.uncorrectable s u src).get f = g.get f := by
  have hlog : (g.logUe s u src).get f = g.get f := Gikan.get_logUeAt_offStacks hf g src _ (Nat.mod_lt _ (by decide))
  exact (Gikan.get_written_offStacks hf _ s u).trans ((Gikan.get_of_csr (g := g.logUe s u src) rfl f).trans hlog)

theorem Gikan.get_decode_offStacks (g : Gikan) (s : Site) (u src : Nat) : (g.decode s u src).2.get f = g.get f := by
  have hstack : ∀ h : Gikan, (h.errPlace s u).1 < 12 := fun h => Nat.mod_lt _ (by decide)
  have hdet : ∀ n, (g.detected n).2.get f = g.get f := by
    intro n
    unfold Gikan.detected
    split <;> rfl
  unfold Gikan.decode
  dsimp only
  split
  · split <;> rfl
  · split
    · exact (Gikan.get_written_offStacks hf _ s u).trans (Gikan.get_correctedAt_offStacks hf g (hstack g))
    · split
      · exact (Gikan.get_uncorrectable_offStacks hf _ s u src).trans (hdet _)
      · split
        · exact (Gikan.get_correctedAt_offStacks hf _ (hstack _)).trans (hdet _)
        · exact hdet _

theorem Gikan.get_decodeAll_offStacks (s : Site) (src : Nat) (us : List Nat) (g : Gikan) : (g.decodeAll s src us).1.get f = g.get f := by
  induction us generalizing g with
  | nil => rfl
  | cons u us ih =>
    have h := (ih (g.decode s u src).2).trans (Gikan.get_decode_offStacks hf g s u src)
    unfold Gikan.decodeAll
    dsimp only
    split <;> exact h

theorem Gikan.get_copyOut_offStacks (g : Gikan) (s : Site) (a n : Nat) : (g.copyOut s a n).1.get f = g.get f := by
  have h := Gikan.get_decodeAll_offStacks hf s 3 (s.units a n) g
  unfold Gikan.copyOut Gikan.readMem
  dsimp only
  split
  · exact (Gikan.get_set_offStacks hf _ _ rfl).trans h
  · exact h

end

/-! The end of a demotion -/

/-- Data copied out of a page is stored in its lower tier. -/
def Gikan.demotionPut (h : Gikan) (data : List Byte) : LowerAt → Gikan
  | .host s n => h.emit (.hostWrite s (h.poolAddr s n) data)
  | .flash d => h.closeBlocks (h.blocksOf d 0 2048)
  | .none => h

theorem Gikan.demotionPut_keeps (h : Gikan) (data : List Byte) (l : LowerAt) : (h.demotionPut data l).mem = h.mem ∧
    ∀ f : Fld, (h.demotionPut data l).get f = h.get f := by
  cases l <;> exact ⟨rfl, fun _ => rfl⟩

theorem Gikan.demotionPut_pool (h : Gikan) (data : List Byte) (side : Side) (n : Nat) :
    Out.hostWrite side (h.poolAddr side n) data ∈ (h.demotionPut data (.host side n)).out :=
  List.mem_append_right _ (List.mem_singleton_self _)

theorem Gikan.poolAddr_congr {g h : Gikan} (hg : ∀ f : Fld, f.offStacks → h.get f = g.get f) (side : Side) (n : Nat) :
    h.poolAddr side n = g.poolAddr side n := by
  unfold Gikan.poolAddr
  dsimp only
  rw [hg]
  cases side <;> exact ⟨⟨by decide, by decide⟩, by decide⟩

/-- What a page holds, copied out. -/
def Gikan.pageOut (g : Gikan) (entry p : Nat) : Gikan × List Byte :=
  g.copyOut ⟨entry, g.map.cur.entry entry⟩ (pageAddr (g.map.cur.entry entry) p) pageBytes

theorem Gikan.pageOut_keeps (g : Gikan) (entry p : Nat) : (g.bad = [] → (g.pageOut entry p).1.mem = g.mem) ∧
    ∀ f : Fld, f.offStacks → (g.pageOut entry p).1.get f = g.get f :=
  ⟨fun hb => Gikan.mem_copyOut_errorless hb .., fun _ hf => Gikan.get_copyOut_offStacks hf ..⟩

/-- Giving a page's frames back changes the frames alone. -/
theorem Gikan.releaseFrames_eq (g : Gikan) (entry p : Nat) : ∃ fs, g.releaseFrames entry p = { g with stk := { g.stk with frames := fs } } :=
  List.foldlRecOn (motive := fun h : Gikan => ∃ fs, h = { g with stk := { g.stk with frames := fs } }) _ _ ⟨_, rfl⟩
    fun _ ⟨_, e⟩ c _ => ⟨_, (congrArg (fun h : Gikan => h.setFrame c.1 .waiting) e).trans rfl⟩

/-- A page whose data `h` has stored goes to its lower tier: its frames are given back. -/
def Gikan.demotedPage (h : Gikan) (entry p a : Nat) (r : PageRec) : Gikan :=
  (((h.releaseFrames entry p).forgetErrors a pageBytes).setPage entry p { r with state := .lower, moving := .none }).inc
    F.TIER_EVENTS_DEMOTIONS 1

theorem Gikan.demotedPage_holds (h : Gikan) (entry p a : Nat) (r : PageRec) :
    (h.demotedPage entry p a r).page entry p = { r with state := .lower, moving := .none } ∧
      (h.demotedPage entry p a r).get F.TIER_EVENTS_DEMOTIONS = satAdd F.TIER_EVENTS_DEMOTIONS.wid (h.get F.TIER_EVENTS_DEMOTIONS) 1 ∧
      (h.demotedPage entry p a r).mem = h.mem ∧ (h.demotedPage entry p a r).out = h.out := by
  obtain ⟨fs, hfs⟩ := h.releaseFrames_eq entry p
  unfold Gikan.demotedPage
  rw [hfs]
  exact ⟨Gikan.page_setPage_same .., Gikan.get_inc_same .., rfl, rfl⟩

section
variable {g : Gikan} {entry p : Nat}

theorem Gikan.demotionEnd_stored (hm : (g.page entry p).moving = .demote 0)
    (hw : ∀ d, (g.page entry p).lowerAt = .flash d → g.flashWritable = true) : g.demotionEnd entry p =
      ((g.pageOut entry p).1.demotionPut (g.pageOut entry p).2 (g.page entry p).lowerAt).demotedPage entry p
        (pageAddr (g.map.cur.entry entry) p) (g.page entry p) := by
  have hheld : (match (g.page entry p).lowerAt with | .flash _ => !g.flashWritable | _ => false) = false := by
    split
    next d hd => rw [hw d hd]; rfl
    next => rfl
  obtain ⟨c, hc⟩ : ∃ c, g.pageOut entry p = c := ⟨_, rfl⟩
  unfold Gikan.demotionEnd
  extract_lets r held e
  rw [show r.moving = .demote 0 from hm, hc]
  refine (if_neg (by rw [show held = false from hheld]; exact Bool.false_ne_true)).trans ?_
  rw [show g.copyOut ⟨entry, e⟩ (pageAddr e p) pageBytes = c from hc]
  rfl

theorem Gikan.demotionEnd_held {d : Nat} (hm : (g.page entry p).moving = .demote 0) (hd : (g.page entry p).lowerAt = .flash d)
    (hw : g.flashWritable = false) : g.demotionEnd entry p = g := by
  unfold Gikan.demotionEnd
  extract_lets r held
  rw [show r.moving = .demote 0 from hm, show held = true by simp only [held, r, hd, hw, Bool.not_false]]
  rfl

theorem Gikan.demotionEnd_unwritten {n : Nat} (hm : (g.page entry p).moving = .demote (n + 1)) : g.demotionEnd entry p = g := by
  unfold Gikan.demotionEnd
  extract_lets r held
  rw [show r.moving = .demote (n + 1) from hm]
  rfl

/-- A demotion with nothing left to write makes its page LOWER and writes a host page to its pool. -/
theorem Gikan.demotionEnd_holds (hm : (g.page entry p).moving = .demote 0)
    (hw : ∀ d, (g.page entry p).lowerAt = .flash d → g.flashWritable = true) {k : Gikan} (hk : g.demotionEnd entry p = k) :
    k.page entry p = { g.page entry p with state := .lower, moving := .none } ∧
      k.get F.TIER_EVENTS_DEMOTIONS = satAdd F.TIER_EVENTS_DEMOTIONS.wid (g.get F.TIER_EVENTS_DEMOTIONS) 1 ∧ (g.bad = [] → k.mem = g.mem) ∧
      ∀ side n, (g.page entry p).lowerAt = .host side n → Out.hostWrite side (g.poolAddr side n) (g.pageOut entry p).2 ∈ k.out := by
  obtain ⟨hmem, hget⟩ := g.pageOut_keeps entry p
  rw [Gikan.demotionEnd_stored hm hw] at hk
  generalize g.pageOut entry p = c at hk hmem hget
  obtain ⟨hputMem, hputGet⟩ := c.1.demotionPut_keeps c.2 (g.page entry p).lowerAt
  obtain ⟨hpage, hcount, hkMem, hkOut⟩ := Gikan.demotedPage_holds (c.1.demotionPut c.2 (g.page entry p).lowerAt) entry p
    (pageAddr (g.map.cur.entry entry) p) (g.page entry p)
  rw [hk] at hpage hcount hkMem hkOut
  rw [hputGet, hget _ ⟨⟨by decide, by decide⟩, by decide⟩] at hcount
  refine ⟨hpage, hcount, fun hb => (hkMem.trans hputMem).trans (hmem hb), fun side n hl => ?_⟩
  rw [hkOut, hl, ← Gikan.poolAddr_congr hget]
  exact Gikan.demotionPut_pool ..

end

end Sys2Proof.Machine
end

section
namespace Sys2Proof.Machine

/-! ## Flash blocks (R113, R133 to R137) -/

theorem Tbl.ne_of_get?_none {α : Type} {t : Tbl α} {x : Nat} (h : t.get? x = none) : ∀ e ∈ t, e.1 ≠ x := by
  induction t with
  | nil => simp
  | cons e t ih =>
    obtain ⟨k, v⟩ := e
    rw [Tbl.get?] at h
    split at h
    · cases h
    next hk => exact List.forall_mem_cons.mpr ⟨hk, ih h⟩

/-- Putting an entry at a key that has none adds it between others. -/
theorem Tbl.put_splits {α : Type} {t : Tbl α} {x : Nat} (a : α) (h : t.get? x = none) : ∃ l r, t = l ++ r ∧ t.put x a = l ++ (x, a) :: r := by
  induction t with
  | nil => exact ⟨[], [], rfl, rfl⟩
  | cons e t ih =>
    obtain ⟨k, v⟩ := e
    rw [Tbl.get?] at h
    split at h
    · cases h
    next hk =>
      obtain ⟨l, r, ht, hp⟩ := ih h
      unfold Tbl.put
      split
      · exact ⟨[], (k, v) :: t, rfl, rfl⟩
      · exact ⟨(k, v) :: l, r, congrArg _ ht, congrArg _ hp⟩

/-! The turn of one block -/

/-- The granules of one block that the RELOC budget moves; a block whose pages have gone is erased, or retired. -/
def Gikan.relocOne (h : Gikan) (c : Nat × Nat × Bool) : Gikan :=
  let (k, h) := h.spend 3 c.2.1
  if c.2.1 ≤ k then
    let h := { h with tier := { h.tier with reloc := h.tier.reloc.del c.1 } }
    if c.2.2 then h.retireBlock c.1 else h.erased c.1
  else { h with tier := { h.tier with reloc := h.tier.reloc.put c.1 (c.2.1 - k, c.2.2) } }

theorem Gikan.relocStep_writable {g : Gikan} (h : g.flashWritable = true) : g.relocStep = g.tier.reloc.foldl Gikan.relocOne g := by
  unfold Gikan.relocStep
  rw [h]
  rfl

theorem Gikan.mem_relocOne (h : Gikan) (c : Nat × Nat × Bool) : (h.relocOne c).mem = h.mem := by
  unfold Gikan.relocOne
  dsimp only
  split
  · split <;> rfl
  · rfl

theorem Gikan.mem_relocStep (g : Gikan) : g.relocStep.mem = g.mem := by
  cases h : g.flashWritable with
  | false => rw [Gikan.relocStep, h]; rfl
  | true =>
    rw [Gikan.relocStep_writable h]
    exact List.foldlRecOn (motive := fun k : Gikan => k.mem = g.mem) _ _ rfl fun k e c _ => (k.mem_relocOne c).trans e

/-- The RELOC budget's granules left. -/
def Gikan.relocLeft (g : Gikan) : Nat := g.tier.budget.getD 3 0

/-- A step that adds nothing to the RELOC budget and leaves block `b` as it was. -/
structure Gikan.BlockKept (b : Nat) (g h : Gikan) : Prop where
  budget : h.relocLeft ≤ g.relocLeft
  erases : h.tier.erases.getD b 0 = g.tier.erases.getD b 0
  reloc : h.tier.reloc.get? b = g.tier.reloc.get? b

theorem Gikan.BlockKept.trans {b : Nat} {g h k : Gikan} (x : g.BlockKept b h) (y : h.BlockKept b k) : g.BlockKept b k :=
  ⟨y.budget.trans x.budget, y.erases.trans x.erases, y.reloc.trans x.reloc⟩

theorem Gikan.relocLeft_spend_le (g : Gikan) (n : Nat) : (g.spend 3 n).2.relocLeft ≤ g.relocLeft := by
  unfold Gikan.relocLeft Gikan.spend
  dsimp only
  rw [List.getD_eq_getElem?_getD, List.getD_eq_getElem?_getD, List.getElem?_set_self']
  cases g.tier.budget[3]? <;> simp

theorem Gikan.BlockKept.relocOne (h : Gikan) {c : Nat × Nat × Bool} {b : Nat} (hb : b ≠ c.1) : h.BlockKept b (h.relocOne c) := by
  have hle := h.relocLeft_spend_le c.2.1
  unfold Gikan.relocOne
  dsimp only
  split
  · split
    · exact ⟨hle, rfl, Tbl.get?_del_ne _ hb⟩
    · exact ⟨hle, Tbl.getD_put_ne _ _ _ hb, Tbl.get?_del_ne _ hb⟩
  · exact ⟨hle, rfl, Tbl.get?_put_ne _ _ hb⟩

theorem Gikan.BlockKept.foldl_relocOne {b : Nat} (l : List (Nat × Nat × Bool)) (hl : ∀ c ∈ l, c.1 ≠ b) (g : Gikan) :
    g.BlockKept b (l.foldl Gikan.relocOne g) :=
  List.foldlRecOn (motive := g.BlockKept b) l _ ⟨Nat.le_refl _, rfl, rfl⟩ fun _ e c hc => e.trans (.relocOne _ (hl c hc).symm)

/-- Block `b` has been erased once, or keeps granules to move before that. -/
def Gikan.blockMoved (g h : Gikan) (b : Nat) : Prop :=
  h.relocLeft ≤ g.relocLeft ∧
    (h.tier.erases.getD b 0 = g.tier.erases.getD b 0 + 1 ∧ h.tier.reloc.get? b = none ∨
     h.tier.erases.getD b 0 = g.tier.erases.getD b 0 ∧ ∃ left, 0 < left ∧ h.tier.reloc.get? b = some (left, false))

theorem Gikan.blockMoved_relocOne (h : Gikan) (b n : Nat) : h.blockMoved (h.relocOne (b, n, false)) b := by
  have hle := h.relocLeft_spend_le n
  unfold Gikan.relocOne
  dsimp only
  split
  · exact ⟨hle, .inl ⟨Tbl.getD_put_same .., Tbl.get?_del_same ..⟩⟩
  next hk => exact ⟨hle, .inr ⟨rfl, _, Nat.sub_pos_of_lt (Nat.lt_of_not_le hk), Tbl.get?_put_same ..⟩⟩

/-- The turns of other blocks, before and after, leave block `b` to its own. -/
theorem Gikan.blockMoved_foldl (g : Gikan) {b n : Nat} {l r : List (Nat × Nat × Bool)} (hl : ∀ c ∈ l, c.1 ≠ b) (hr : ∀ c ∈ r, c.1 ≠ b) :
    g.blockMoved ((l ++ (b, n, false) :: r).foldl Gikan.relocOne g) b := by
  rw [List.foldl_append, List.foldl_cons]
  have hbefore := Gikan.BlockKept.foldl_relocOne l hl g
  generalize l.foldl Gikan.relocOne g = h at hbefore ⊢
  obtain ⟨hle, hown⟩ := h.blockMoved_relocOne b n
  have hafter := Gikan.BlockKept.foldl_relocOne r hr (h.relocOne (b, n, false))
  refine ⟨(hafter.budget.trans hle).trans hbefore.budget, ?_⟩
  rw [hafter.erases, hafter.reloc, ← hbefore.erases]
  exact hown

/-! The relocation of a block -/

/-- A block's relocation is noted, with the granules to move and whether the block is retired then. -/
def Gikan.relocNoted (g : Gikan) (b : Nat) (x : Nat × Bool) : Gikan :=
  { g.next.2 with tier := { g.tier with reloc := g.tier.reloc.put b x } }

theorem Gikan.relocate_eq (g : Gikan) (b : Nat) (bad : Bool) : ∃ x : Nat × Bool,
    (g.relocate b bad = if g.flashWritable then (g.relocNoted b x).relocStep else (g.relocNoted b x).heldWrites) ∧
      (g.tier.reloc.get? b = none → x.2 = bad) := by
  refine ⟨_, rfl, fun h => ?_⟩
  show (bad || (g.tier.reloc.getD b (0, false)).2) = bad
  rw [Tbl.getD, h]
  exact Bool.or_false bad

section
variable {g : Gikan} {b : Nat}

theorem Gikan.mem_relocate (bad : Bool) : (g.relocate b bad).mem = g.mem := by
  obtain ⟨x, hx, -⟩ := g.relocate_eq b bad
  rw [hx]
  split
  · exact Gikan.mem_relocStep _
  · rfl

/-- While flash writes are held the program and the erase count as held. -/
theorem Gikan.relocate_held (bad : Bool) (hw : g.flashWritable = false) : (g.relocate b bad).tier.erases = g.tier.erases ∧
    (g.relocate b bad).get F.TIER_SAG_PROGRAMS_HELD = satAdd F.TIER_SAG_PROGRAMS_HELD.wid (g.get F.TIER_SAG_PROGRAMS_HELD) 1 ∧
    (g.relocate b bad).get F.TIER_SAG_ERASES_HELD = satAdd F.TIER_SAG_ERASES_HELD.wid (g.get F.TIER_SAG_ERASES_HELD) 1 := by
  obtain ⟨x, hx, -⟩ := g.relocate_eq b bad
  rw [hx, hw, if_neg Bool.false_ne_true]
  refine ⟨rfl, (Gikan.get_inc_ne _ _ _ _ (by decide)).trans (Gikan.get_inc_same ..), (Gikan.get_inc_same ..).trans ?_⟩
  exact congrArg (fun n => satAdd _ n 1) (Gikan.get_inc_ne _ _ _ _ (by decide))

theorem Gikan.relocate_moves (hw : g.flashWritable = true) (hr : g.tier.reloc.get? b = none) : g.blockMoved (g.relocate b false) b := by
  obtain ⟨⟨n, bad⟩, hx, hbad⟩ := g.relocate_eq b false
  obtain rfl : bad = false := hbad hr
  obtain ⟨l, r, hlr, hput⟩ := Tbl.put_splits (n, false) hr
  have hne := Tbl.ne_of_get?_none hr
  rw [hlr, List.forall_mem_append] at hne
  have hmoved := (g.relocNoted b (n, false)).blockMoved_foldl (n := n) hne.1 hne.2
  rw [hx, hw, if_pos rfl, Gikan.relocStep_writable (g := g.relocNoted b (n, false)) hw]
  rw [← hput] at hmoved
  obtain ⟨hle, hcases⟩ := hmoved
  exact ⟨hle, hcases⟩

theorem Gikan.blockRelocate_idle {c : RelocCause} (h : g.tier.badBlocks.contains b = true ∨ g.relocCause b c = false) :
    g.blockRelocate b c = g := by
  refine if_pos ?_
  rcases h with h | h
  · rw [h]; rfl
  · rw [h, Bool.not_false, Bool.or_true]

theorem Gikan.blockRelocate_due {c : RelocCause} (hb : g.tier.badBlocks.contains b = false) (hc : g.relocCause b c = true) :
    g.blockRelocate b c = g.relocate b false := by
  refine if_neg ?_
  rw [hb, hc]
  decide

end

/-- A failed program retires its block. -/
theorem Gikan.retireBlock_holds (g : Gikan) (b : Nat) : (g.retireBlock b).tier.badBlocks = insNat g.tier.badBlocks b ∧
    (g.retireBlock b).get F.TIER_FLASH_HEALTH_BAD_BLOCKS = min (insNat g.tier.badBlocks b).length (2 ^ 24 - 1) ∧
    (g.retireBlock b).mem = g.mem := by
  refine ⟨rfl, (Gikan.get_set_same ..).trans (Nat.mod_eq_of_lt ?_), rfl⟩
  exact lt_of_le_of_lt (Nat.min_le_right _ _) (by decide)

/-! The start of the translation layer -/

/-- Suspect blocks are taken: those that fail are retired, the others erased. -/
def Gikan.suspectsDone (g : Gikan) (ss failed : List Nat) : Gikan :=
  (ss.filter (fun b => !failed.contains b)).foldl (fun h b => h.erased b)
    ((ss.filter (fun b => failed.contains b)).foldl (fun h b => h.retireBlock b) { g with tier := { g.tier with openBlocks := [] } })

theorem Gikan.foldl_retireBlock_keeps (bs : List Nat) (g : Gikan) :
    let h := bs.foldl (fun h b => h.retireBlock b) g
    h.tier.badBlocks = bs.foldl insNat g.tier.badBlocks ∧ h.tier.erases = g.tier.erases ∧ h.tier.openBlocks = g.tier.openBlocks ∧
      h.mem = g.mem ∧ h.get F.MEM_STATUS_STAMPED = g.get F.MEM_STATUS_STAMPED := by
  induction bs generalizing g with
  | nil => exact ⟨rfl, rfl, rfl, rfl, rfl⟩
  | cons b bs ih =>
    obtain ⟨hbad, her, hopen, hmem, hget⟩ := ih (g.retireBlock b)
    exact ⟨hbad, her, hopen, hmem, hget.trans (Gikan.get_set_ne _ _ _ _ (by decide))⟩

theorem Gikan.foldl_erased_keeps (bs : List Nat) (g : Gikan) :
    let h := bs.foldl (fun h b => h.erased b) g
    h.tier.erases = bs.foldl (fun m b => m.put b (m.getD b 0 + 1)) g.tier.erases ∧ h.tier.badBlocks = g.tier.badBlocks ∧
      h.tier.openBlocks = g.tier.openBlocks ∧ h.mem = g.mem ∧ h.csr = g.csr := by
  induction bs generalizing g with
  | nil => exact ⟨rfl, rfl, rfl, rfl, rfl⟩
  | cons b bs ih => exact ih (g.erased b)

theorem Gikan.suspectsDone_holds (g : Gikan) (ss failed : List Nat) :
    let h := g.suspectsDone ss failed
    h.tier.badBlocks = (ss.filter (fun b => failed.contains b)).foldl insNat g.tier.badBlocks ∧
      h.tier.erases = (ss.filter (fun b => !failed.contains b)).foldl (fun m b => m.put b (m.getD b 0 + 1)) g.tier.erases ∧
      h.tier.openBlocks = [] ∧ h.mem = g.mem ∧ h.get F.MEM_STATUS_STAMPED = g.get F.MEM_STATUS_STAMPED := by
  obtain ⟨hbad, her, hopen, hmem, hget⟩ :=
    Gikan.foldl_retireBlock_keeps (ss.filter (fun b => failed.contains b)) { g with tier := { g.tier with openBlocks := [] } }
  obtain ⟨her', hbad', hopen', hmem', hcsr'⟩ := Gikan.foldl_erased_keeps (ss.filter (fun b => !failed.contains b))
    ((ss.filter (fun b => failed.contains b)).foldl (fun h b => h.retireBlock b) { g with tier := { g.tier with openBlocks := [] } })
  rw [her] at her'
  exact ⟨hbad'.trans hbad, her', hopen'.trans hopen, hmem'.trans hmem, (Gikan.get_of_csr hcsr' _).trans hget⟩

/-- The fields that the parameter pages give. -/
def geometryFields : List Fld :=
  [F.TIER_FLASH_GEOM_CHANNELS, F.TIER_FLASH_GEOM_TARGETS, F.TIER_FLASH_GEOM_LUNS, F.TIER_FLASH_GEOM_PLANES,
   F.TIER_FLASH_GEOM_PAGES_PER_BLOCK, F.TIER_FLASH_GEOM_BLOCKS_PER_PLANE, F.TIER_FLASH_HEALTH_UNUSED_TARGETS]

theorem Gikan.get_readGeometry_ne (g : Gikan) (f : Fld) (hf : ∀ e ∈ geometryFields, f.key ≠ e.key) : g.readGeometry.get f = g.get f := by
  simp only [geometryFields, List.forall_mem_cons, List.not_mem_nil, false_imp_iff, implies_true, and_true] at hf
  obtain ⟨hch, htg, hlun, hpl, hpg, hbl, hun⟩ := hf
  unfold Gikan.readGeometry
  dsimp only
  rw [Gikan.get_set_ne _ _ _ _ hun, Gikan.get_set_ne _ _ _ _ hbl, Gikan.get_set_ne _ _ _ _ hpg, Gikan.get_set_ne _ _ _ _ hpl,
    Gikan.get_set_ne _ _ _ _ hlun, Gikan.get_set_ne _ _ _ _ htg, Gikan.get_set_ne _ _ _ _ hch]

/-- The geometry read depends on the parameter pages alone. -/
theorem Gikan.get_readGeometry_congr (g h : Gikan) : ∀ f ∈ geometryFields, h.readGeometry.get f = g.readGeometry.get f := by
  simp only [geometryFields, List.forall_mem_cons, List.not_mem_nil, false_imp_iff, implies_true, and_true]
  unfold Gikan.readGeometry
  dsimp only
  simp (disch := decide) only [Gikan.get_set_ne, Gikan.get_set_same, and_self]

/-- The translation layer is ready, with its geometry and the count of suspects found. -/
def Gikan.ftlStarted (k : Gikan) (found : Nat) : Gikan :=
  (k.readGeometry.set F.TIER_SAG_SUSPECT_FOUND (min found 65535)).set F.TIER_STATUS_FTL_READY 1

theorem Gikan.ftlStarted_holds (k : Gikan) (found : Nat) : (k.ftlStarted found).mem = k.mem ∧ (k.ftlStarted found).tier = k.tier ∧
    (k.ftlStarted found).on F.TIER_STATUS_FTL_READY = true ∧ (k.ftlStarted found).get F.TIER_SAG_SUSPECT_FOUND = min found 65535 ∧
    ∀ f ∈ geometryFields, (k.ftlStarted found).get f = k.readGeometry.get f := by
  have hapart : ∀ f ∈ geometryFields, f.key ≠ F.TIER_STATUS_FTL_READY.key ∧ f.key ≠ F.TIER_SAG_SUSPECT_FOUND.key := by decide
  refine ⟨rfl, rfl, Gikan.on_of_get (Gikan.get_set_same ..), ?_, fun f hf => ?_⟩
  · refine (Gikan.get_set_ne _ _ _ _ (by decide)).trans ((Gikan.get_set_same ..).trans (Nat.mod_eq_of_lt ?_))
    exact lt_of_le_of_lt (Nat.min_le_right _ _) (by decide)
  · obtain ⟨hready, hfound⟩ := hapart f hf
    exact (Gikan.get_set_ne _ _ _ _ hready).trans (Gikan.get_set_ne _ _ _ _ hfound)

section
variable {g : Gikan} (suspects failed : List Nat)

theorem Gikan.ftlReady_idle (ok : Bool) (h : g.on F.TIER_STATUS_FTL_READY = true ∨ g.hasp = true) : g.ftlReady ok suspects failed = g :=
  if_pos (Bool.or_eq_true_iff.mpr h)

variable (hr : g.on F.TIER_STATUS_FTL_READY = false) (hh : g.hasp = false)
include hr hh

theorem Gikan.ftlReady_starting : (g.on F.TIER_STATUS_FTL_READY || g.hasp) = false := by rw [hr, hh]; rfl

theorem Gikan.ftlReady_unjournaled : g.ftlReady false suspects failed = g.contained 55 0xFFFF (offOf F.TIER_STATUS_FTL_READY) := by
  unfold Gikan.ftlReady
  rw [Gikan.ftlReady_starting hr hh]
  rfl

/-- The journal is rebuilt and the suspects are taken, before any frame of the stacks is stamped. -/
theorem Gikan.ftlReady_unstamped (hs : g.stamped = false) : g.ftlReady true suspects failed =
    (g.suspectsDone (suspects.foldl insNat g.tier.openBlocks) failed).ftlStarted (suspects.foldl insNat g.tier.openBlocks).length := by
  have heq : g.ftlReady true suspects failed = ((g.suspectsDone (suspects.foldl insNat g.tier.openBlocks) failed).ftlStarted
      (suspects.foldl insNat g.tier.openBlocks).length).fitRecords := by
    unfold Gikan.ftlReady
    rw [Gikan.ftlReady_starting hr hh]
    rfl
  obtain ⟨-, -, -, -, hget⟩ := g.suspectsDone_holds (suspects.foldl insNat g.tier.openBlocks) failed
  rw [heq]
  generalize g.suspectsDone (suspects.foldl insNat g.tier.openBlocks) failed = k at hget ⊢
  refine if_pos ?_
  rw [Gikan.stamped, Gikan.on, Gikan.ftlStarted, Gikan.get_set_ne _ _ _ _ (by decide), Gikan.get_set_ne _ _ _ _ (by decide),
    Gikan.get_readGeometry_ne _ _ (by decide), hget]
  exact (congrArg (!·) hs)

end

/-! The targets used -/

theorem flashUsed_bytes : flashUsed.length * (flashFirst.getD ⟨0, 0, 0, 0, 0, 0⟩).bytes ≤ 2 ^ 47 := by
  unfold flashUsed
  cases flashFirst with
  | none => exact (Nat.zero_mul _).trans_le (Nat.zero_le _)
  | some f =>
    dsimp only
    split
    · exact (Nat.zero_mul _).trans_le (Nat.zero_le _)
    · rw [List.length_map, Option.getD_some]
      have htake : ((flashFound.filter (fun x => decide (x.2 = f))).take (2 ^ 47 / max 1 f.bytes)).length ≤ 2 ^ 47 / max 1 f.bytes :=
        List.length_take_le ..
      calc _ ≤ 2 ^ 47 / max 1 f.bytes * max 1 f.bytes := Nat.mul_le_mul htake (Nat.le_max_right ..)
        _ ≤ 2 ^ 47 := Nat.div_mul_le_self ..

/-- A target found has its own parameter page's geometry. -/
theorem flashGeo_of_found {c : Nat} {x : FlashGeo} (h : (c, x) ∈ flashFound) : ∃ n, flashGeo c n = some x := by
  simp only [flashFound, List.mem_flatMap, List.mem_filterMap, Option.map_eq_some_iff, Prod.mk.injEq] at h
  obtain ⟨c', -, n, -, y, hy, rfl, rfl⟩ := h
  exact ⟨n, hy⟩

theorem flashUsed_first {c : Nat} (h : c ∈ flashUsed) : ∃ x n, flashFirst = some x ∧ x.ok = true ∧ flashGeo c n = some x := by
  unfold flashUsed at h
  cases hf : flashFirst with
  | none => rw [hf] at h; cases h
  | some x =>
    rw [hf] at h
    dsimp only at h
    split at h
    · cases h
    next hok =>
      obtain ⟨y, hy, rfl⟩ := List.mem_map.mp h
      obtain ⟨hfound, hx⟩ := List.mem_filter.mp (List.mem_of_mem_take hy)
      obtain ⟨n, hn⟩ := flashGeo_of_found hfound
      rw [of_decide_eq_true hx] at hn
      exact ⟨x, n, rfl, by simpa using hok, hn⟩

end Sys2Proof.Machine
end

section
namespace Sys2Proof.Machine

/-! ## Granules, heat, demotions, eviction and flash (chapter 7) -/

/-- A granule that could be read is added to its fetch, or ends it. -/
theorem Gikan.fetchArrive_holds {g k : Gikan} {entry p n : Nat} {how : FlashDecode} {staged : Bool} {first : Nat} {got : List Nat} {dirty : Bool}
    (hm : (g.page entry p).moving = .fetch staged first got dirty) (hl : (g.page entry p).lent = none)
    (hn : (g.page entry p).nextGranule = some n) (hh : how ≠ .failed) (hk : g.fetchArrive entry p n how = k) :
    ((insNat got n).length ≠ 8192 → k.mem = g.mem ∧
      k.page entry p = { g.page entry p with moving := .fetch staged first (insNat got n) dirty }) ∧
    ((insNat got n).length = 8192 → k.mem = g.mem ∧
      (dirty = false → k.page entry p = { g.page entry p with state := .residentClean, moving := .none, since := g.tickNo }) ∧
      (dirty = true → k.page entry p = { g.page entry p with state := .resident, moving := .none, lowerAt := .none, since := g.tickNo }) ∧
      ((∀ d, (g.page entry p).lowerAt ≠ .flash d) →
        k.get F.TIER_EVENTS_FETCHES = satAdd F.TIER_EVENTS_FETCHES.wid (g.get F.TIER_EVENTS_FETCHES) 1)) := by
  obtain ⟨h, hkept, hsame, heq⟩ := Gikan.fetchArrive_read hl hn hh
  have hpage := hkept.page entry p
  rw [← hpage] at hm hl
  rw [heq] at hk
  subst hk
  refine ⟨fun hmore => ?_, fun hlast => ?_⟩
  · obtain ⟨hmem, hin⟩ := Gikan.granuleIn_more hm hl hmore
    exact ⟨hmem.trans hkept.mem, by rw [hin, hpage]⟩
  · rw [Gikan.granuleIn_last hm hlast]
    obtain ⟨hmem, hdone, hcount⟩ := Gikan.fetchDone_holds
      (h.forgetErrors (pageAddr (h.map.cur.entry entry) p + n * 4096) 4096) entry p (h.page entry p) dirty
    have htick : (h.forgetErrors (pageAddr (h.map.cur.entry entry) p + n * 4096) 4096).tickNo = g.tickNo := hkept.tick
    refine ⟨hmem.trans hkept.mem, fun hd => ?_, fun hd => ?_, fun hf => hcount.trans ?_⟩
    · rw [hdone, hd, htick, if_neg Bool.false_ne_true, hpage]
    · rw [hdone, hd, htick, if_pos rfl, ← hpage]
      simp only [hl]
    · rw [hsame hf]; rfl

/-- Settles O28: each row is the case of its function that its premises choose; a read of flash and the copy of a demotion leave what the
statement looks at (`Gikan.PagesKept`, `Gikan.pageOut_keeps`), and a block's relocation is its own turn among those of others
(`Gikan.blockMoved_foldl`). -/
theorem pageMovesAndFlash : Obligations.PageMovesAndFlash := by
  refine ⟨fun s hh => ⟨fun entry p n how => ⟨fun staged first got dirty hm hl hn hhow => ?arrives,
        fun hl hn hf => ⟨exec_live rfl hh (Gikan.fetchArrive_lost hl hn hf), fun hhow => ?arrivesUnflashed⟩,
        fun h => exec_live_idle rfl (Gikan.fetchArrive_other how h)⟩,
      fun r staged first got dirty hm hs => ⟨PageRec.nextGranule_first hm hs, PageRec.nextGranule_rest hm hs⟩,
      ⟨fun hr hn hl => ?decays, fun h => exec_live_idle rfl (Gikan.heatDecay_early h)⟩,
      fun entry p => ⟨fun hm hw => ?demotes, fun d hm hd hw => exec_live_idle rfl (Gikan.demotionEnd_held hm hd hw),
        fun n hm => exec_live_idle rfl (Gikan.demotionEnd_unwritten hm)⟩,
      exec_live rfl hh rfl⟩,
    fun s => ⟨fun b cause hh => ⟨fun h => exec_live_idle rfl (Gikan.blockRelocate_idle h), fun hb hc => ?relocates⟩, fun b => ⟨rfl, rfl⟩,
      fun b hh => ?retires, fun ok suspects failed => ⟨fun h => exec_done_idle rfl (Gikan.ftlReady_idle suspects failed ok h),
        fun hr hh => ⟨exec_done rfl (Gikan.ftlReady_unjournaled suspects failed hr hh), fun hs => ?starts⟩⟩,
      flashUsed_bytes, fun c hc => flashUsed_first hc⟩⟩
  case arrives =>
    obtain ⟨hmore, hlast⟩ := Gikan.fetchArrive_holds hm hl hn hhow rfl
    exact ⟨fun h => ⟨_, exec_live rfl hh rfl, hmore h⟩, fun h => ⟨_, exec_live rfl hh rfl, hlast h⟩⟩
  case arrivesUnflashed =>
    obtain ⟨k, -, hsame, heq⟩ := Gikan.fetchArrive_read hl hn hhow
    exact exec_live rfl hh (hsame hf ▸ heq)
  case decays =>
    exact ⟨_, exec_live rfl hh (Gikan.heatDecay_due hr hn hl), Gikan.page_halved _ rfl, rfl, rfl, rfl, rfl⟩
  case demotes =>
    obtain ⟨hpage, hcount, hmem, hpool⟩ := Gikan.demotionEnd_holds hm hw rfl
    exact ⟨_, exec_live rfl hh rfl, hpage, hcount, hmem, hpool⟩
  case relocates =>
    have hexec := exec_live (c := .blockRelocate b cause) rfl hh (Gikan.blockRelocate_due hb hc)
    exact ⟨hexec, _, hexec, Gikan.mem_relocate false, Gikan.relocate_held false, Gikan.relocate_moves⟩
  case retires =>
    obtain ⟨hbad, hcount, hmem⟩ := s.g.retireBlock_holds b
    exact ⟨_, exec_live rfl hh rfl, hbad, hcount, hmem⟩
  case starts =>
    obtain ⟨hbad, her, hopen, hmem, -⟩ := s.g.suspectsDone_holds (suspects.foldl insNat s.g.tier.openBlocks) failed
    obtain ⟨hmem', htier, hready, hfound, hgeo⟩ := Gikan.ftlStarted_holds
      (s.g.suspectsDone (suspects.foldl insNat s.g.tier.openBlocks) failed) (suspects.foldl insNat s.g.tier.openBlocks).length
    rw [← htier] at hbad her hopen
    exact ⟨_, exec_done rfl (Gikan.ftlReady_unstamped suspects failed hr hh hs), hready, hfound, hmem'.trans hmem, hopen, hbad, her,
      fun f hf => (hgeo f hf).trans (Gikan.get_readGeometry_congr _ _ f hf)⟩

end Sys2Proof.Machine
end

section
namespace Sys2Proof.Machine

/-! ## Hints (R116) -/

/-! The write that gives a hint -/

/-- A field that a write covers whole takes the bits written, cut to its width. -/
theorem Gikan.wrValue_covered (g : Gikan) {w : RegW} {f : Fld} (hm : (wrField w f).2 = 2 ^ f.wid - 1) :
    g.wrValue w f % 2 ^ f.wid = bits w.data.toNat (f.key % 64) f.wid := by
  have hv : bits w.data.toNat (f.key % 64) f.wid < 2 ^ f.wid := bits_lt ..
  have hold : (g.get f - g.get f % 2 ^ f.wid) % 2 ^ f.wid = 0 := Nat.sub_mod_eq_zero_of_mod_eq (Nat.mod_mod ..).symm
  unfold Gikan.wrValue
  dsimp only
  rw [hm, Nat.and_two_pow_sub_one_eq_mod, Nat.and_two_pow_sub_one_eq_mod, Nat.or_mod_two_pow, hold, Nat.or_zero, Nat.mod_mod]
  exact Nat.mod_eq_of_lt hv

/-- A hint's write covers OP, which lies in the low half beside GO. -/
theorem wrField_hintOp (w : RegW) (op : Nat) : (wrField (trig (withOp w op) F.TIER_HINT1_GO) F.TIER_HINT1_OP).2 = 7 := by
  have hmask : ∀ h : Half, (halfMask h).testBit 19 = true → bits (halfMask h) 16 3 = 7 := fun h => by cases h <;> decide
  show bits (halfMask (if (halfMask (withOp w op).half).testBit 19 then (withOp w op).half else .full)) 16 3 = 7
  split
  next h => exact hmask _ h
  next => exact hmask .full (by decide)

/-- The operation code written. -/
theorem bits_hintOp (w : RegW) {op : Nat} (ho : op < 8) : bits (trig (withOp w op) F.TIER_HINT1_GO).data.toNat 16 3 = op := by
  have hbit : ∀ x, bits (x ||| 2 ^ 19) 16 3 = bits x 16 3 := fun x => by
    rw [bits, Nat.shiftRight_or_distrib, Nat.or_mod_two_pow]
    exact Nat.or_zero _
  have hd := w.data.isLt
  rw [trig, withOp, BitVec.toNat_or, BitVec.toNat_ofNat, BitVec.toNat_ofNat]
  refine (hbit _).trans ?_
  simp only [bits, Nat.shiftRight_eq_div_pow]
  omega

/-- The fields of TIER_HINT1 that a write puts. -/
def hintFields : List Fld := [F.TIER_HINT1_PAGES, F.TIER_HINT1_OP, F.TIER_HINT1_REFUSED]

/-- The Gikan once the fields of a hint have been written. -/
def Gikan.hintWritten (g : Gikan) (w : RegW) (op : Nat) : Gikan :=
  g.putFields (trig (withOp w op) F.TIER_HINT1_GO) (offOf F.TIER_HINT1_PAGES) hintFields

section
variable (g : Gikan) (w : RegW)

theorem Gikan.op_hintWritten {op : Nat} (ho : op < 8) : (g.hintWritten w op).get F.TIER_HINT1_OP = op := by
  refine (Gikan.get_putFields_mem g _ _ hintFields _ (by decide) (by decide) (by decide) ⟨by decide, by decide⟩).trans ?_
  refine (Gikan.get_set_same ..).trans ((Gikan.wrValue_covered g (wrField_hintOp w op)).trans ?_)
  exact bits_hintOp w ho

theorem Gikan.body_hintWritten (op : Nat) : (g.hintWritten w op).body = g.body := Gikan.body_putFields ..

theorem Gikan.get_hintWritten_ne (op : Nat) (f : Fld) (hf : f.offSeal) (hk : ∀ e ∈ hintFields, f.key ≠ e.key) :
    (g.hintWritten w op).get f = g.get f := Gikan.get_putFields_ne g _ _ _ f hf hk

theorem Gikan.wrHint1_go {op : Nat} (ho : op < 8) : g.wrHint1 (trig (withOp w op) F.TIER_HINT1_GO) =
    (g.hintWritten w op).hint op ((g.hintWritten w op).get F.TIER_HINT1_PAGES) := by
  unfold Gikan.wrHint1
  dsimp only
  rw [wrOne_trig _ _ rfl, if_pos rfl]
  exact congrArg (fun o => (g.hintWritten w op).hint o _) (g.op_hintWritten w ho)

end

/-- A row that gives a hint. -/
theorem exec_hint {s : State} {w : RegW} {op : Nat} {c : Instr} (hr : s.g.reaches8 w (offOf F.TIER_HINT1_GO))
    (hc : (op = 1 ∧ c = .hintPrefetch w) ∨ (op = 2 ∧ c = .hintCold w) ∨ (op = 3 ∧ c = .hintKeep w) ∨ (op = 4 ∧ c = .hintUnkeep w) ∨
      (op = 5 ∧ c = .hintDrop w)) {k : Gikan} (hk : (s.g.hintWritten w op).hint op ((s.g.hintWritten w op).get F.TIER_HINT1_PAGES) = k) :
    exec c s = .next (s.withG k) := by
  have ho : op < 8 := by omega
  have hexec : exec c s = s.done (s.g.regWrite (offOf F.TIER_HINT1_GO) (trig (withOp w op) F.TIER_HINT1_GO)) := by
    rcases hc with ⟨rfl, rfl⟩ | ⟨rfl, rfl⟩ | ⟨rfl, rfl⟩ | ⟨rfl, rfl⟩ | ⟨rfl, rfl⟩ <;> rfl
  exact exec_reaches hexec ((Gikan.wrHint1_go s.g w ho).trans hk) hr

/-! What a hint does -/

/-- The pages of a hint. -/
def hintPages (first n : Nat) : List Nat := (List.range n).map (fun i => first + i)

section
variable {g : Gikan} {op n : Nat} (ho : 0 < op ∧ op ≤ 5)

theorem Gikan.hint_empty : g.hint op 0 = g.set F.TIER_HINT1_REFUSED 1 := by
  unfold Gikan.hint
  exact if_pos (.inl rfl)

variable (hn : n ≠ 0) {entry first : Nat} (he : g.get F.TIER_HINT0_EXTENT = entry) (hf : g.get F.TIER_HINT0_FIRST_PAGE = first)
  {e : ExtW} (hx : g.map.cur.entry entry = e)
include ho hn he hf hx

theorem Gikan.hint_named : g.hint op n =
    if !e.valid || e.home != g.node || e.tier == 0 then g.inc F.TIER_HINT1_IGNORED 1
    else if e.pages < first + n then g.set F.TIER_HINT1_REFUSED 1
    else if op = 3 ∧ 4096 < g.keptPages + ((hintPages first n).filter (fun p => !(g.page entry p).kept)).length then g.set F.TIER_HINT1_REFUSED 1
    else (hintPages first n).foldl (fun h p => h.hintPage op entry e p) g := by
  subst he hf hx
  exact if_neg (by omega)

theorem Gikan.hint_ignored (hg : ¬ (e.valid = true ∧ e.home = g.node ∧ e.tier ≠ 0)) : g.hint op n = g.inc F.TIER_HINT1_IGNORED 1 := by
  rw [Gikan.hint_named ho hn he hf hx]
  refine if_pos ?_
  simp only [Bool.or_eq_true, Bool.not_eq_true', bne_iff_ne, beq_iff_eq, ← Bool.not_eq_true]
  tauto

variable (hg : e.valid = true ∧ e.home = g.node ∧ e.tier ≠ 0)
include hg

theorem Gikan.hint_homed : g.hint op n = if e.pages < first + n then g.set F.TIER_HINT1_REFUSED 1
    else if op = 3 ∧ 4096 < g.keptPages + ((hintPages first n).filter (fun p => !(g.page entry p).kept)).length then g.set F.TIER_HINT1_REFUSED 1
    else (hintPages first n).foldl (fun h p => h.hintPage op entry e p) g := by
  obtain ⟨hvalid, hhome, htier⟩ := hg
  rw [Gikan.hint_named ho hn he hf hx]
  refine if_neg ?_
  rw [hvalid, hhome, bne_self_eq_false, beq_false_of_ne htier]
  decide

theorem Gikan.hint_past (hp : e.pages < first + n) : g.hint op n = g.set F.TIER_HINT1_REFUSED 1 := by
  rw [Gikan.hint_homed ho hn he hf hx hg, if_pos hp]

variable (hp : first + n ≤ e.pages)
include hp

theorem Gikan.hint_overkept (h3 : op = 3) (hk : 4096 < g.keptPages + ((hintPages first n).filter (fun p => !(g.page entry p).kept)).length) :
    g.hint op n = g.set F.TIER_HINT1_REFUSED 1 := by
  rw [Gikan.hint_homed ho hn he hf hx hg, if_neg (Nat.not_lt.mpr hp), if_pos ⟨h3, hk⟩]

theorem Gikan.hint_taken (hk : op ≠ 3 ∨ g.keptPages + ((hintPages first n).filter (fun p => !(g.page entry p).kept)).length ≤ 4096) :
    g.hint op n = (hintPages first n).foldl (fun h p => h.hintPage op entry e p) g := by
  rw [Gikan.hint_homed ho hn he hf hx hg, if_neg (Nat.not_lt.mpr hp), if_neg (by omega)]

end

/-! A page under a hint -/

section
variable (h : Gikan) (entry : Nat) (e : ExtW) (p : Nat)

theorem Gikan.hintPage_cold : (h.hintPage 2 entry e p).page entry p = { h.page entry p with heat := 0 } := Gikan.page_setPage_same ..

theorem Gikan.hintPage_keep : (h.hintPage 3 entry e p).page entry p = { h.page entry p with kept := true } := Gikan.page_setPage_same ..

theorem Gikan.hintPage_unkeep : (h.hintPage 4 entry e p).page entry p = { h.page entry p with kept := false } := Gikan.page_setPage_same ..

theorem Gikan.hintPage_drop : (h.hintPage 5 entry e p).page entry p =
    { PageRec.unbacked with kept := (h.page entry p).kept, heat := (h.page entry p).heat } := Gikan.page_setPage_same ..

end

end Sys2Proof.Machine
end

section
namespace Sys2Proof.Machine

/-! ## Layer schedules (R115, R118 to R121) -/

/-! The schedule that comes in force next (R119) -/

/-- Of a place kept and another schedule, the place of the earlier: the one kept, of equals. -/
def earlierSched (b : Option (Nat × Nat)) (x : Nat × Sched) : Option (Nat × Nat) :=
  match b with
  | some (_, t) => if x.2.baseTick < t then some (x.1, x.2.baseTick) else b
  | none => some (x.1, x.2.baseTick)

/-- The schedules with their places whose BASE_TICK has come. -/
def Gikan.dueScheds (g : Gikan) (ss : List (Nat × Sched)) : List (Nat × Sched) :=
  ss.filter (fun x => g.running && decide (x.2.baseTick ≤ g.tickNo))

theorem Gikan.schedDue_eq (g : Gikan) (ss : List Sched) :
    g.schedDue ss = ((g.dueScheds (ss.mapIdx (fun i s => (i, s)))).foldl earlierSched none).map (fun x => x.1) := rfl

/-- The first of the earliest schedules is kept: those before it are later, those after it are not earlier. -/
theorem foldl_earlierSched {l r : List (Nat × Sched)} {x : Nat × Sched} (hl : ∀ y ∈ l, x.2.baseTick < y.2.baseTick)
    (hr : ∀ y ∈ r, x.2.baseTick ≤ y.2.baseTick) : (l ++ x :: r).foldl earlierSched none = some (x.1, x.2.baseTick) := by
  have hbefore : ∀ i t, l.foldl earlierSched none = some (i, t) → x.2.baseTick < t := by
    refine List.foldlRecOn (motive := fun b : Option (Nat × Nat) => ∀ i t, b = some (i, t) → x.2.baseTick < t) l _ (by simp) ?_
    intro b hb y hy i t h
    unfold earlierSched at h
    split at h
    · split at h
      · cases h; exact hl y hy
      · exact hb _ _ h
    · cases h; exact hl y hy
  have hown : earlierSched (l.foldl earlierSched none) x = some (x.1, x.2.baseTick) := by
    cases hb : l.foldl earlierSched none with
    | none => rfl
    | some b => exact if_pos (hbefore b.1 b.2 hb)
  rw [List.foldl_append, List.foldl_cons, hown]
  refine List.foldlRecOn (motive := fun b => b = some (x.1, x.2.baseTick)) r _ rfl fun b hb y hy => ?_
  rw [hb]
  exact if_neg (Nat.not_lt.mpr (hr y hy))

section
variable {g : Gikan} {l : List Sched}

theorem Gikan.schedDue_earliest (hr : g.running = true) {i : Nat} {n : Sched} (hn : l[i]? = some n) (ht : n.baseTick ≤ g.tickNo)
    (hmin : ∀ j m, l[j]? = some m → m.baseTick ≤ g.tickNo → n.baseTick < m.baseTick ∨ n.baseTick = m.baseTick ∧ i ≤ j) :
    g.schedDue l = some i := by
  obtain ⟨hi, hget⟩ := List.getElem?_eq_some_iff.mp hn
  have hsplit : l = l.take i ++ n :: l.drop (i + 1) := by
    rw [← hget, ← List.drop_eq_getElem_cons hi, List.take_append_drop]
  have hlen : (l.take i).length = i := List.length_take_of_le hi.le
  have hidx : l.mapIdx (fun i s => (i, s)) = (l.take i).mapIdx (fun j s => (j, s)) ++
      (i, n) :: (l.drop (i + 1)).mapIdx (fun j s => (j + 1 + i, s)) := by
    conv_lhs => rw [hsplit, List.mapIdx_append, List.mapIdx_cons, hlen, Nat.zero_add]
  have hself : g.dueScheds [(i, n)] = [(i, n)] := List.filter_cons_of_pos (by rw [hr, decide_eq_true ht]; rfl)
  have hdue : g.dueScheds (l.mapIdx (fun i s => (i, s))) = g.dueScheds ((l.take i).mapIdx (fun j s => (j, s))) ++
      (i, n) :: g.dueScheds ((l.drop (i + 1)).mapIdx (fun j s => (j + 1 + i, s))) := by
    rw [hidx]
    unfold Gikan.dueScheds at hself ⊢
    rw [List.filter_append, ← List.singleton_append, List.filter_append, hself]
    rfl
  rw [Gikan.schedDue_eq, hdue, foldl_earlierSched]
  · rfl
  · intro y hy
    obtain ⟨hmem, hcome⟩ := List.mem_filter.mp hy
    obtain ⟨j, hj, rfl⟩ := List.mem_mapIdx.mp hmem
    have hji : j < i := hlen ▸ hj
    have hm : l[j]? = some (l.take i)[j] := by rw [List.getElem_take, List.getElem?_eq_getElem]
    rcases hmin j _ hm (of_decide_eq_true (Bool.and_eq_true_iff.mp hcome).2) with h | ⟨-, hij⟩
    · exact h
    · exact absurd hij (Nat.not_le.mpr hji)
  · intro y hy
    obtain ⟨hmem, hcome⟩ := List.mem_filter.mp hy
    obtain ⟨j, hj, rfl⟩ := List.mem_mapIdx.mp hmem
    have hm : l[i + 1 + j]? = some (l.drop (i + 1))[j] := by rw [List.getElem_drop, List.getElem?_eq_getElem]
    rcases hmin _ _ hm (of_decide_eq_true (Bool.and_eq_true_iff.mp hcome).2) with h | ⟨h, -⟩
    · exact h.le
    · exact h.le

theorem Gikan.schedReplace_earliest (c : Nat) (hr : g.running = true) {i : Nat} {n : Sched} (hn : (g.tier.nextSched.getD c [])[i]? = some n)
    (ht : n.baseTick ≤ g.tickNo)
    (hmin : ∀ j m, (g.tier.nextSched.getD c [])[j]? = some m → m.baseTick ≤ g.tickNo →
      n.baseTick < m.baseTick ∨ n.baseTick = m.baseTick ∧ i ≤ j) :
    g.schedReplace c = { g with tier := { g.tier with
      sched := g.tier.sched.put c (g.planSched n)
      nextSched := if ((g.tier.nextSched.getD c []).drop (i + 1)).isEmpty then g.tier.nextSched.del c
        else g.tier.nextSched.put c ((g.tier.nextSched.getD c []).drop (i + 1)) } } := by
  unfold Gikan.schedReplace
  dsimp only
  rw [Gikan.schedDue_earliest hr hn ht hmin]
  dsimp only
  rw [List.getD_eq_getElem?_getD, hn]
  rfl

theorem Gikan.schedReplace_early (c : Nat) (h : ∀ n ∈ g.tier.nextSched.getD c [], g.tickNo < n.baseTick) : g.schedReplace c = g := by
  have hnone : g.dueScheds ((g.tier.nextSched.getD c []).mapIdx (fun i s => (i, s))) = [] := by
    refine List.filter_eq_nil_iff.mpr fun x hx => ?_
    obtain ⟨j, hj, rfl⟩ := List.mem_mapIdx.mp hx
    have hlt := h _ (List.getElem_mem hj)
    rw [decide_eq_false (Nat.not_le.mpr hlt), Bool.and_false]
    exact Bool.false_ne_true
  unfold Gikan.schedReplace
  dsimp only
  rw [Gikan.schedDue_eq, hnone]
  rfl

end

/-! Staging (R120) -/

theorem Sched.roll_unstaged (s : Sched) (now : Nat) {t : Tile} (h : t.staging = false) : s.roll now t = t := by
  unfold Sched.roll
  rw [h]
  rfl

theorem Sched.set_self {s : Sched} {i : Nat} {t : Tile} (h : s.tiles[i]? = some t) : ({ s with tiles := s.tiles.set i t } : Sched) = s := by
  obtain ⟨hi, rfl⟩ := List.getElem?_eq_some_iff.mp h
  rw [List.set_getElem_self]

/-- The pages of a tile are fetched. -/
def Gikan.tileFetched (g : Gikan) (t : Tile) : Gikan := (List.range t.pages).foldl (fun h k => h.startFetch t.entry (t.first + k) 0 true) g

section
variable {g : Gikan} (waiting : Option Nat) (c : Nat) {i : Nat} {s : Sched} {t : Tile} (ht : s.tiles[i]? = some t) (hst : t.staging = false)
include ht hst

theorem Gikan.stageIn_unstaged : g.stageIn waiting c i s =
    if !t.due g.tickNo || !g.running || s.behind i g.tickNo t then none else
    if g.delays 1 then some (g.wakeFor 1).2 else some ((g.setTile waiting c i s { t with staging := true }).tileFetched t) := by
  unfold Gikan.stageIn
  rw [ht]
  dsimp only
  rw [s.roll_unstaged _ hst, Sched.set_self ht, if_pos rfl, List.getD_eq_getElem?_getD, ht]
  rfl

theorem Gikan.stageIn_due (hsk : t.skipped = false) (hd : t.done = false) (hs : t.start ≤ g.tickNo) (hb : s.behind i g.tickNo t = false)
    (hr : g.running = true) (hw : g.delays 1 = false) :
    g.stageIn waiting c i s = some ((g.setTile waiting c i s { t with staging := true }).tileFetched t) := by
  have hdue : t.due g.tickNo = true := by rw [Tile.due, hsk, hd, hst, decide_eq_true hs]; rfl
  rw [Gikan.stageIn_unstaged waiting c ht hst, hdue, hr, hb, hw]
  rfl

theorem Gikan.stageIn_waits (h : g.tickNo < t.start ∨ s.behind i g.tickNo t = true) : g.stageIn waiting c i s = none := by
  rw [Gikan.stageIn_unstaged waiting c ht hst]
  refine if_pos ?_
  rcases h with h | h
  · rw [Tile.due, decide_eq_false (Nat.not_le.mpr h), Bool.and_false]; rfl
  · rw [h, Bool.or_true]

end

theorem Gikan.stagingStart_inForce {g k : Gikan} {c i : Nat} {s : Sched} (hs : g.tier.sched.get? c = some s) (hk : g.stageIn none c i s = some k) :
    g.stagingStart c i = k := by
  unfold Gikan.stagingStart
  rw [hs]
  dsimp only
  rw [hk]

theorem Gikan.stagingStart_ahead {g k : Gikan} {c i : Nat} {s : Sched} (hs : g.tier.sched.get? c = none)
    (hn : g.tier.nextSched.getD c [] = [s]) (hk : g.stageIn (some 0) c i s = some k) : g.stagingStart c i = k := by
  unfold Gikan.stagingStart
  rw [hs, hn, List.mapIdx_singleton, hk]
  rfl

theorem Gikan.setTile_first {g : Gikan} {c : Nat} {s : Sched} (hn : g.tier.nextSched.getD c [] = [s]) (i : Nat) (t : Tile) :
    g.setTile (some 0) c i s t =
      { g with tier := { g.tier with nextSched := g.tier.nextSched.put c [{ s with tiles := s.tiles.set i t }] } } := by
  unfold Gikan.setTile
  dsimp only
  rw [hn]
  rfl

theorem Gikan.stagingStart_waits {g : Gikan} {c i : Nat} {s : Sched} (hs : g.tier.sched.get? c = some s) (hn : g.tier.nextSched.getD c [] = [])
    (hk : g.stageIn none c i s = none) : g.stagingStart c i = g := by
  unfold Gikan.stagingStart
  rw [hs, hn]
  dsimp only
  rw [hk]
  rfl

/-! A tile's deadline and release (R118, R121) -/

section
variable {g : Gikan} {c i : Nat} {s : Sched} {t : Tile} (hs : g.tier.sched.get? c = some s) (ht : s.tiles[i]? = some t)
include hs ht

theorem Gikan.tileLate_here (h : g.tickNo ≠ s.deadlineOf t ∨ g.tileHere t = true) : g.tileLate c i = g := by
  unfold Gikan.tileLate
  rw [hs]
  dsimp only
  rw [ht]
  refine if_pos ?_
  rcases h with h | h
  · rw [bne_iff_ne.mpr h, Bool.or_true, Bool.true_or]
  · rw [h, Bool.or_true]

variable (hsk : t.skipped = false) (hd : t.done = false) (hr : g.running = true)
include hsk hd hr

theorem Gikan.tileLate_due (hl : t.late = false) (hn : g.tickNo = s.deadlineOf t) (hh : g.tileHere t = false) : g.tileLate c i =
    ((g.setTile none c i s { t with late := true }).inc F.TIER_SCHED_STATUS_LATE 1).set F.TIER_SCHED_STATUS_LAST_LATE i := by
  unfold Gikan.tileLate
  rw [hs]
  dsimp only
  rw [ht]
  refine if_neg ?_
  rw [hsk, hd, hl, hr, ← hn, bne_self_eq_false, hh]
  decide

end

/-- The next repetition of a tile released, or its end. -/
def Sched.released (s : Sched) (t : Tile) : Tile :=
  if s.again t then { t with rep := t.rep + 1, staging := false, late := false } else { t with done := true }

/-- A tile is put in its schedule, which is planned anew. -/
def Gikan.tileReplanned (g : Gikan) (c i : Nat) (s : Sched) (t : Tile) : Gikan :=
  { g with tier := { g.tier with sched := g.tier.sched.put c (g.planSched { s with tiles := s.tiles.set i t }) } }

/-- The clean copies of a tile's pages that nothing moves are dropped. -/
def Gikan.tileDropped (g : Gikan) (t : Tile) : Gikan :=
  (List.range t.pages).foldl (fun h k =>
    let r := h.page t.entry (t.first + k)
    if r.state == .residentClean && r.moving == .none then h.dropPage t.entry (t.first + k) else h) g

section
variable {g : Gikan} {c i : Nat} {s : Sched} {t : Tile} (hs : g.tier.sched.get? c = some s) (ht : s.tiles[i]? = some t)
  {rel : Nat} (hrel : s.releaseOf t = some rel)
include hs ht hrel

theorem Gikan.tileRelease_named : g.tileRelease c i =
    if t.skipped || t.done || !g.running || decide (g.tickNo < rel) then g
    else (if t.drop && g.mayMigrate then g.tileDropped t else g).tileReplanned c i s (s.released t) := by
  unfold Gikan.tileRelease
  rw [hs]
  dsimp only
  rw [ht]
  dsimp only
  rw [hrel]
  rfl

theorem Gikan.tileRelease_early (h : g.tickNo < rel) : g.tileRelease c i = g := by
  rw [Gikan.tileRelease_named hs ht hrel, decide_eq_true h, Bool.or_true]
  rfl

variable (hsk : t.skipped = false) (hd : t.done = false) (hr : g.running = true) (h : rel ≤ g.tickNo)
include hsk hd hr h

theorem Gikan.tileRelease_due : g.tileRelease c i =
    (if t.drop && g.mayMigrate then g.tileDropped t else g).tileReplanned c i s (s.released t) := by
  rw [Gikan.tileRelease_named hs ht hrel, hsk, hd, hr, decide_eq_false (Nat.not_lt.mpr h)]
  rfl

theorem Gikan.tileRelease_keeps (hk : t.drop = false ∨ g.mayMigrate = false) : g.tileRelease c i = g.tileReplanned c i s (s.released t) := by
  rw [Gikan.tileRelease_due hs ht hrel hsk hd hr h, Bool.and_eq_false_iff.mpr hk, if_neg Bool.false_ne_true]

theorem Gikan.tileRelease_drops (hk : t.drop = true) (hm : g.mayMigrate = true) :
    g.tileRelease c i = (g.tileDropped t).tileReplanned c i s (s.released t) := by
  rw [Gikan.tileRelease_due hs ht hrel hsk hd hr h, hk, hm, Bool.and_self, if_pos rfl]

end

end Sys2Proof.Machine
end

section
namespace Sys2Proof.Machine

/-! ## Placement hints and layer schedules (chapter 7) -/

/-- Settles O29: a hint by the case of `Gikan.hint` that its register and extent choose, and each step of a schedule by the case that its tick
and tile choose; the schedule in force next is the first of the earliest (`Gikan.schedDue_earliest`). -/
theorem hintsAndSchedules : Obligations.HintsAndSchedules := by
  refine ⟨fun s w op c hr hc => ?hint, fun s c hh hr => ⟨⟨fun i n hn ht hmin => ?replaces, fun h => ?waits,
      fun n i t hs hl ht hsk hd hst hstart hb hw => ?ahead⟩,
    fun sc i t hs ht hsk hd => ⟨fun hst hstart hb hw => ?stages, fun hst h hl => ?unstaged, fun hl hn hhere => ?late, fun h => ?here,
      fun rel hrel => ⟨fun h => ?unreleased, fun h => ⟨fun hk => ?keeps, fun hk hm => ?drops⟩⟩⟩⟩⟩
  case hint =>
    have ho : 0 < op ∧ op ≤ 5 := by omega
    have hbody := s.g.body_hintWritten w op
    have hmap := Gikan.map_of_body hbody
    have hentry := s.g.get_hintWritten_ne w op F.TIER_HINT0_EXTENT ⟨by decide, by decide⟩ (by decide)
    have hfirst := s.g.get_hintWritten_ne w op F.TIER_HINT0_FIRST_PAGE ⟨by decide, by decide⟩ (by decide)
    have hnode : (s.g.hintWritten w op).node = s.g.node :=
      s.g.get_hintWritten_ne w op F.GLB_NODE_CURRENT ⟨by decide, by decide⟩ (by decide)
    have hx : (s.g.hintWritten w op).map.cur.entry (s.g.get F.TIER_HINT0_EXTENT) = s.g.map.cur.entry (s.g.get F.TIER_HINT0_EXTENT) := by
      rw [hmap]
    intro g entry first n e ps good
    refine ⟨s.g.op_hintWritten w (by omega), Gikan.mem_of_body hbody, hmap, (congrArg Gikan.tier hbody :),
      fun hn => exec_hint hr hc ((congrArg _ hn).trans Gikan.hint_empty),
      fun hn hg => exec_hint hr hc (Gikan.hint_ignored ho hn hentry hfirst hx (hnode ▸ hg)),
      fun hn hg hp => exec_hint hr hc (Gikan.hint_past ho hn hentry hfirst hx (hnode ▸ hg) hp),
      fun hn hg hp => ⟨fun h3 hk => exec_hint hr hc (Gikan.hint_overkept ho hn hentry hfirst hx (hnode ▸ hg) hp h3 hk),
        fun hk => exec_hint hr hc (Gikan.hint_taken ho hn hentry hfirst hx (hnode ▸ hg) hp hk)⟩,
      fun h p => ⟨h.hintPage_cold entry e p, h.hintPage_keep entry e p, h.hintPage_unkeep entry e p, h.hintPage_drop entry e p⟩⟩
  case replaces => exact exec_live rfl hh (Gikan.schedReplace_earliest c hr hn ht hmin)
  case waits => exact exec_live_idle rfl (Gikan.schedReplace_early c h)
  case ahead =>
    refine exec_live rfl hh ((Gikan.stagingStart_ahead hs hl (Gikan.stageIn_due (some 0) c ht hst hsk hd hstart hb hr hw)).trans ?_)
    rw [Gikan.setTile_first hl]
    rfl
  case stages =>
    exact exec_live rfl hh (Gikan.stagingStart_inForce hs (Gikan.stageIn_due none c ht hst hsk hd hstart hb hr hw))
  case unstaged => exact exec_live_idle rfl (Gikan.stagingStart_waits hs hl (Gikan.stageIn_waits none c ht hst h))
  case late =>
    exact ⟨_, exec_live rfl hh (Gikan.tileLate_due hs ht hsk hd hr hl hn hhere), Gikan.get_set_same ..,
      (Gikan.get_set_ne _ _ _ _ (by decide)).trans (Gikan.get_inc_same ..), rfl, rfl, rfl⟩
  case here => exact exec_live_idle rfl (Gikan.tileLate_here hs ht h)
  case unreleased => exact exec_live_idle rfl (Gikan.tileRelease_early hs ht hrel h)
  case keeps => exact exec_live rfl hh (Gikan.tileRelease_keeps hs ht hrel hsk hd hr h hk)
  case drops => exact exec_live rfl hh (Gikan.tileRelease_drops hs ht hrel hsk hd hr h hk hm)

end Sys2Proof.Machine
end

section
namespace Sys2Proof.Machine

/-! ## The directory and its table of transactions (R142, R145, R153) -/

/-! The stacks leave them as they are -/

theorem Gikan.coh_flipOn (g : Gikan) (h most : Nat) : (g.flipOn h most).2.coh = g.coh := by
  unfold Gikan.flipOn; split <;> rfl

theorem Gikan.coh_flipWritten (g : Gikan) (s : Site) (u : Nat) : (g.flipWritten s u).coh = g.coh := by
  unfold Gikan.flipWritten; dsimp only
  split
  · split
    · split <;> exact Gikan.coh_flipOn ..
    · rfl
  · split <;> exact Gikan.coh_flipOn ..

theorem Gikan.coh_poisonUnit (g : Gikan) (s : Site) (u : Nat) : (g.poisonUnit s u).coh = g.coh := Gikan.coh_flipWritten ..

theorem Gikan.coh_poisonLine (g : Gikan) (entry line : Nat) : (g.poisonLine entry line).coh = g.coh :=
  List.foldlRecOn (motive := fun h : Gikan => h.coh = g.coh) _ _ rfl fun h e _ _ => (h.coh_poisonUnit _ _).trans e

/-! One entry -/

theorem Gikan.dir_of_coh {g h : Gikan} (e : h.coh = g.coh) (a : Nat) : h.dir a = g.dir a := congrArg (fun c : CohSt => c.dir.getD a Dir.u) e

theorem Gikan.dir_setDir_same (g : Gikan) (a : Nat) (d : Dir) : (g.setDir a d).dir a = d := Tbl.getD_setD_same ..

theorem Gikan.dir_setDir_ne (g : Gikan) {a b : Nat} (d : Dir) (h : b ≠ a) : (g.setDir a d).dir b = g.dir b := Tbl.getD_setD_ne _ _ _ _ h

/-- An entry in any state but X records no owner. -/
theorem Dir.owner_of_st_ne {d : Dir} (h : d.st ≠ 2) : d.owner = none := if_neg h

/-- Clearing a pointer leaves the state, or leaves U. -/
theorem Dir.owner_clearPtr {d : Dir} (n : Nat) (h : d.st ≠ 2) : (d.clearPtr n).owner = none := by
  unfold Dir.clearPtr
  split
  · exact Dir.owner_of_st_ne h
  · dsimp only
    split
    · rfl
    · exact Dir.owner_of_st_ne (d := ⟨d.w0, _⟩) h

/-! The sweep for a dead agent, at one line (R153) -/

/-- What a sweep leaves of the directory and its agents: all but entries and the count of lines lost. -/
def CohSt.besideEntries (c : CohSt) : CohSt := { c with dir := [], sweepLost := 0 }

section
variable (g : Gikan) (n entry line : Nat)

theorem Gikan.besideEntries_sweepLine : (g.sweepLine n entry line).coh.besideEntries = g.coh.besideEntries := by
  unfold Gikan.sweepLine; dsimp only
  split
  · rw [Gikan.coh_poisonLine]; rfl
  · split <;> rfl

theorem Gikan.dir_sweepLine_ne {a : Nat} (h : a ≠ line) : (g.sweepLine n entry line).dir a = g.dir a := by
  unfold Gikan.sweepLine; dsimp only
  split
  · exact (Gikan.dir_of_coh (Gikan.coh_poisonLine ..) a).trans (g.dir_setDir_ne _ h)
  · split
    · exact g.dir_setDir_ne _ h
    · rfl

/-- The line's owner is gone, or it stays and is not the dead agent. -/
theorem Gikan.owner_sweepLine : ((g.sweepLine n entry line).dir line).owner = none ∨
    ((g.sweepLine n entry line).dir line).owner = (g.dir line).owner ∧ (g.dir line).owner ≠ some n := by
  unfold Gikan.sweepLine; dsimp only
  split
  · have e := Gikan.dir_of_coh ((g.setDir line Dir.u).coh_poisonLine entry line) line
    exact .inl (congrArg Dir.owner (e.trans (g.dir_setDir_same ..)))
  case isFalse ho =>
    split
    case isTrue h1 =>
      rw [Gikan.dir_setDir_same]
      exact .inl (Dir.owner_clearPtr n (by omega))
    case isFalse => exact .inr ⟨rfl, ho⟩

end

/-- The same after sweeps for several agents. -/
theorem Gikan.owner_foldl_sweepLine (entry line : Nat) (l : List Nat) (g : Gikan) :
    ((l.foldl (fun h n => h.sweepLine n entry line) g).dir line).owner = none ∨
    ((l.foldl (fun h n => h.sweepLine n entry line) g).dir line).owner = (g.dir line).owner ∧ ∀ n ∈ l, (g.dir line).owner ≠ some n := by
  induction l generalizing g with
  | nil => exact .inr ⟨rfl, nofun⟩
  | cons m l ih =>
    rw [List.foldl_cons]
    rcases ih (g.sweepLine m entry line) with h | ⟨h, hl⟩
    · exact .inl h
    · rcases g.owner_sweepLine m entry line with hm | ⟨hm, hne⟩
      · exact .inl (h.trans hm)
      · rw [hm] at h hl
        exact .inr ⟨h, List.forall_mem_cons.mpr ⟨hne, hl⟩⟩

theorem Gikan.besideEntries_foldl {α : Type} {f : Gikan → α → Gikan} (hf : ∀ h x, (f h x).coh.besideEntries = h.coh.besideEntries)
    (l : List α) (g : Gikan) : (l.foldl f g).coh.besideEntries = g.coh.besideEntries :=
  List.foldlRecOn (motive := fun h => h.coh.besideEntries = g.coh.besideEntries) l f rfl fun h e x _ => (hf h x).trans e

/-! The table of transactions (R145) -/

/-- What the table of transactions leaves: all but itself and its two counts. -/
def Gikan.tableOnly (g h : Gikan) : Prop :=
  h.mem = g.mem ∧ { h.coh with txns := g.coh.txns } = g.coh ∧
  ∀ f : Fld, f.key ≠ F.COH_TXN_ACTIVE.key → f.key ≠ F.COH_TXN_PEAK.key → h.get f = g.get f

theorem Gikan.tableOnly.refl (g : Gikan) : g.tableOnly g := ⟨rfl, rfl, fun _ _ _ => rfl⟩

theorem Gikan.tableOnly.trans {g h k : Gikan} (a : g.tableOnly h) (b : h.tableOnly k) : g.tableOnly k := by
  obtain ⟨am, ac, ag⟩ := a
  obtain ⟨bm, bc, bg⟩ := b
  refine ⟨bm.trans am, ?_, fun f ha hp => (bg f ha hp).trans (ag f ha hp)⟩
  rw [← ac, ← bc]

theorem Gikan.coh_setTxns (g : Gikan) (ts : List Txn) : (g.setTxns ts).coh = { g.coh with txns := ts } := by
  unfold Gikan.setTxns; dsimp only
  split <;> rfl

theorem Gikan.setTxns_tableOnly (g : Gikan) (ts : List Txn) : g.tableOnly (g.setTxns ts) := by
  refine ⟨?_, congrArg (fun c : CohSt => { c with txns := g.coh.txns }) (g.coh_setTxns ts), fun f ha hp => ?_⟩
  · unfold Gikan.setTxns; dsimp only
    split <;> rfl
  · unfold Gikan.setTxns; dsimp only
    split
    · rw [Gikan.get_set_ne _ _ _ _ hp, Gikan.get_set_ne _ _ _ _ ha]; rfl
    · exact Gikan.get_set_ne _ _ _ _ ha

theorem Gikan.recallLines_tableOnly (g : Gikan) (entry : Nat) : g.tableOnly (g.recallLines entry) := by
  refine List.foldlRecOn (motive := g.tableOnly) _ _ (.refl g) fun h e a _ => ?_
  split
  · exact e.trans (h.setTxns_tableOnly _)
  · exact e

/-! Closing (R146, R153) -/

section
variable (h : Gikan) (t : Txn)

/-- The state in which the open transaction of a line has left the table, with its final entry. -/
def Gikan.leftTable : Gikan := (h.setTxns (h.coh.txns.filter (fun x => !(x.opened && x.line == t.line)))).setDir t.line t.final

theorem Gikan.closeTxn_eq : h.closeTxn t = h.coh.dead.foldl (fun k n => k.sweepLine n t.entry t.line) (h.leftTable t) := by
  unfold Gikan.closeTxn; dsimp only
  rw [Gikan.coh_setTxns]; rfl

theorem Gikan.dir_leftTable_ne {a : Nat} (ha : a ≠ t.line) : (h.leftTable t).dir a = h.dir a := by
  refine (Gikan.dir_setDir_ne _ _ ha).trans ?_
  rw [Gikan.dir, Gikan.coh_setTxns]; rfl

theorem Gikan.dir_closeTxn_final (hd : h.coh.dead = []) : (h.closeTxn t).dir t.line = t.final := by
  rw [Gikan.closeTxn_eq, hd]
  exact Gikan.dir_setDir_same ..

theorem Gikan.dir_closeTxn_ne {a : Nat} (ha : a ≠ t.line) : (h.closeTxn t).dir a = h.dir a := by
  rw [Gikan.closeTxn_eq]
  exact List.foldlRecOn (motive := fun k : Gikan => k.dir a = h.dir a) _ _ (h.dir_leftTable_ne t ha)
    fun k e n _ => (k.dir_sweepLine_ne n t.entry t.line ha).trans e

theorem Gikan.owner_closeTxn {n : Nat} (hn : n ∈ h.coh.dead) : ((h.closeTxn t).dir t.line).owner ≠ some n := by
  rw [Gikan.closeTxn_eq]
  rcases Gikan.owner_foldl_sweepLine t.entry t.line h.coh.dead (h.leftTable t) with e | ⟨e, hl⟩
  · rw [e]; exact nofun
  · exact e ▸ hl n hn

theorem Gikan.txns_closeTxn : (h.closeTxn t).coh.txns = h.coh.txns.filter (fun x => !(x.opened && x.line == t.line)) := by
  have e : (h.closeTxn t).coh.besideEntries = (h.leftTable t).coh.besideEntries := by
    rw [Gikan.closeTxn_eq]
    exact Gikan.besideEntries_foldl (fun k n => k.besideEntries_sweepLine n t.entry t.line) _ _
  refine (congrArg CohSt.txns e :).trans ?_
  exact congrArg CohSt.txns (Gikan.coh_setTxns ..)

theorem Gikan.openOn_closeTxn : (h.closeTxn t).openOn t.line = none := by
  rw [Gikan.openOn, Gikan.txns_closeTxn, List.find?_eq_none]
  intro x hx
  simpa only [Bool.not_eq_true, Bool.not_eq_true'] using (List.mem_filter.mp hx).2

end

/-! What ends a transaction (R146, R147, R151) -/

/-- A transaction of an agent's request closes once its COMPLETE was the last thing awaited. -/
theorem Gikan.tryClose_completed (h : Gikan) {t : Txn} (ha : t.await = []) (hk : t.kind = .rdShared ∨ t.kind = .rdOwn ∨ t.kind = .upgrade) :
    h.tryClose { t with needComplete := false } = h.closeTxn { t with needComplete := false } := by
  unfold Gikan.tryClose
  rcases hk with hk | hk | hk <;> simp [ha, hk]

/-- While answers to its snoops are awaited, a transaction stays in the table. -/
theorem Gikan.tryClose_awaits (h : Gikan) {t : Txn} (ha : t.await ≠ []) : h.tryClose t = h.putTxn t := by
  unfold Gikan.tryClose
  simp [ha]

section
variable {g : Gikan} {line : Nat} {t : Txn} (ho : g.openOn line = some t)
include ho

theorem Gikan.snoopTimeout_due {node : Nat} (ha : t.await.contains node = true)
    (ht : 1000 * max 10 (g.get F.COH_TIMERS_SNOOP_US) ≤ g.time - t.snoopAt) : g.snoopTimeout line node = g.declareDead node true := by
  simp only [Gikan.snoopTimeout, ho, ha, ht, decide_true, Bool.and_self, if_true]

theorem Gikan.snoopTimeout_early {node : Nat}
    (h : t.await.contains node = false ∨ g.time - t.snoopAt < 1000 * max 10 (g.get F.COH_TIMERS_SNOOP_US)) : g.snoopTimeout line node = g := by
  have hf : (t.await.contains node && decide (1000 * max 10 (g.get F.COH_TIMERS_SNOOP_US) ≤ g.time - t.snoopAt)) = false :=
    Bool.and_eq_false_iff.mpr (h.imp_right fun h => decide_eq_false (Nat.not_le.mpr h))
  simp only [Gikan.snoopTimeout, ho, hf, Bool.false_eq_true, if_false]

theorem Gikan.completeTimeout_due (hn : t.needComplete = true)
    (ht : 1000 * max 10 (g.get F.COH_TIMERS_COMPLETE_US) ≤ g.time - t.grantAt) :
    g.completeTimeout line = (g.inc F.COH_EVENTS2_COMPLETE_TIMEOUTS 1).tryClose { t with needComplete := false } := by
  simp only [Gikan.completeTimeout, ho, hn, ht, decide_true, Bool.and_self, if_true]

theorem Gikan.completeTimeout_early
    (h : t.needComplete = false ∨ g.time - t.grantAt < 1000 * max 10 (g.get F.COH_TIMERS_COMPLETE_US)) : g.completeTimeout line = g := by
  have hf : (t.needComplete && decide (1000 * max 10 (g.get F.COH_TIMERS_COMPLETE_US) ≤ g.time - t.grantAt)) = false :=
    Bool.and_eq_false_iff.mpr (h.imp_right fun h => decide_eq_false (Nat.not_le.mpr h))
  simp only [Gikan.completeTimeout, ho, hf, Bool.false_eq_true, if_false]

theorem Gikan.openTxn_busy (ok : Bool) : g.openTxn line ok = g := by
  rw [Gikan.openTxn, ho, Option.isSome_some, if_pos rfl]

end

theorem Gikan.openTxn_unwanted {g : Gikan} {line : Nat} (h : ∀ t ∈ g.coh.txns, t.line ≠ line) (ok : Bool) : g.openTxn line ok = g := by
  have hn : findIdx (fun t : Txn => !t.opened && t.line == line) g.coh.txns = none :=
    findIdx_of_find?_none (List.find?_eq_none.mpr fun t ht => by simp [h t ht])
  unfold Gikan.openTxn
  rw [hn]
  exact ite_self g

/-! A COMPLETE or an SNP_RSP at the home -/

/-- One that is for the home has its effect there, and what has become ready is performed. -/
theorem Gikan.cohClosing_home {g k : Gikan} {x : Nat} {q : Req} (h : g.closing x q k) (f : Gikan → Gikan) :
    g.cohClosing x q q.hdr.type f = (f k).cohDrain := by
  obtain ⟨src, h, htake, rfl, hsrc, hhasp, hquar, hunsup, hhome, hdead, hagent, hlen⟩ := h
  unfold Gikan.cohClosing
  rw [if_neg (not_not.mpr rfl), htake]
  dsimp only
  rw [hsrc, hhasp, hquar, hunsup, hdead, hagent, hlen]
  cases hroute : h.resolve ((h.liveMap q.hdr.epoch).getD h.map.cur) q.hdr.addr with
  | send n p => exact absurd hroute (hhome n p)
  | home i e => rfl
  | refuse st => rfl

section
variable {k : Gikan} {src tag line : Nat}

theorem Gikan.cohComplete_unmatched
    (h : k.coh.txns.find? (fun t => t.opened && t.line == line && t.node == src && t.tag == tag && t.needComplete) = none) :
    k.cohComplete src tag line = k.inc F.COH_EVENTS_LATE_DROPS 1 := by
  rw [Gikan.cohComplete, h]

theorem Gikan.cohComplete_matched {t : Txn}
    (h : k.coh.txns.find? (fun t => t.opened && t.line == line && t.node == src && t.tag == tag && t.needComplete) = some t) :
    k.cohComplete src tag line = k.tryClose { t with needComplete := false } := by
  rw [Gikan.cohComplete, h]

theorem Gikan.snpRsp_unmatched (had dirty : Bool) (data : List Byte)
    (h : k.coh.txns.find? (fun t => t.opened && t.homeTag == tag && t.line == line && t.await.contains src) = none) :
    k.snpRsp src tag line had dirty data = k.inc F.COH_EVENTS_LATE_DROPS 1 := by
  rw [Gikan.snpRsp, h]

theorem Gikan.snpRsp_matched (had dirty : Bool) (data : List Byte) {t : Txn}
    (h : k.coh.txns.find? (fun t => t.opened && t.homeTag == tag && t.line == line && t.await.contains src) = some t) :
    k.snpRsp src tag line had dirty data =
      (if dirty then k.writeMem (k.siteOf t.entry) t.line (fit data (min 128 ((k.siteOf t.entry).e.base + (k.siteOf t.entry).e.len - t.line)))
        else k).snoopAnswered t src had := by
  rw [Gikan.snpRsp, h]

end

/-! An agent's request as it arrives -/

/-- A RD_SHARED, RD_OWN, UPGRADE or WB_DIRTY of its own command. -/
theorem exec_cohArrive {s : State} {x : Fin 48} {q : Req} {c : Instr} {kind : CohKind}
    (hc : (c = .rdShared x q ∧ q.hdr.type = tyRDSHARED ∧ kind = .rdShared) ∨ (c = .rdOwn x q ∧ q.hdr.type = tyRDOWN ∧ kind = .rdOwn) ∨
      (c = .upgrade x q ∧ q.hdr.type = tyUPGRADE ∧ kind = .upgrade) ∨ (c = .wbDirty x q ∧ q.hdr.type = tyWBDIRTY ∧ kind = .writeBack)) :
    exec c s = s.done (s.g.cohArrive x q q.hdr.type kind) := by
  rcases hc with ⟨rfl, ht, rfl⟩ | ⟨rfl, ht, rfl⟩ | ⟨rfl, ht, rfl⟩ | ⟨rfl, ht, rfl⟩ <;> rw [ht] <;> rfl

theorem Gikan.cohArrive_dead {g k : Gikan} {x : Nat} {q : Req} {src : From} (kind : CohKind) (hf : g.forSelf q = true) (hs : g.srcOk x q = true)
    (hh : g.hasp = false) (hd : g.deadSrc q = true) (ht : g.takePkt x (.req q) = (src, k)) :
    g.cohArrive x q q.hdr.type kind = (k.consumed src x (.req q)).inc F.COH_EVENTS_LATE_DROPS 1 := by
  unfold Gikan.cohArrive
  rw [if_pos ⟨rfl, hf, hs, by rw [hh]; rfl, hd⟩, ht]

theorem Gikan.cohArrive_go {g h : Gikan} {x : Nat} {q : Req} {i : Nat} {e : ExtW} (kind : CohKind) (hd : g.deadSrc q = false)
    (hr : g.receive x q q.hdr.type (cohBodyBad q || (g.forSelf q && !g.isAgent q.hdr.src)) = .go h i e) :
    g.cohArrive x q q.hdr.type kind = h.cohAdmit x q i e kind := by
  unfold Gikan.cohArrive
  rw [if_neg (fun a => Bool.false_ne_true (hd.symm.trans a.2.2.2.2)), hr]

section
variable {h : Gikan} {x : Nat} {q : Req} {i : Nat} {e : ExtW} {kind : CohKind}

theorem Gikan.cohAdmit_revoked (hr : (h.map.revoked.get? i).isSome = true) : h.cohAdmit x q i e kind = h.refuse x q stREVOKED := if_pos hr

variable (hr : h.map.revoked.get? i = none) (hm : h.match3 q e.cmpt (some e.ward) = 0)
include hr hm

theorem Gikan.cohAdmit_length (hl : cohLength q = false) : h.cohAdmit x q i e kind = h.refuse x q stLENGTH := by
  simp only [Gikan.cohAdmit, hr, hm, hl, Option.isSome_none, Bool.false_eq_true, if_false, ne_eq, not_true_eq_false, Bool.not_false, if_true]

variable (hl : cohLength q = true)
include hl

/-- A request that waits for nothing at its home is refused with BUSY_RETRY while check 10 fails. -/
theorem Gikan.cohAdmit_busy (hk : kind ≠ .writeBack) {j : Gikan} (h10 : h.check10 q e = (false, j)) :
    h.cohAdmit x q i e kind = j.refuse x q stBUSY := by
  simp only [Gikan.cohAdmit, hr, hm, hl, hk, h10, Option.isSome_none, Bool.false_eq_true, if_false, ne_eq, not_true_eq_false, Bool.not_true,
    Bool.not_false, Bool.or_true, if_true]

/-- So is one whose page is not there. -/
theorem Gikan.cohAdmit_pageless (hk : kind ≠ .writeBack) {j k : Gikan} (h10 : h.check10 q e = (true, j))
    (hp : j.admitPages ⟨i, e⟩ (j.realAddr q.hdr.addr) 128 false = (false, k)) : h.cohAdmit x q i e kind = k.refuse x q stBUSY := by
  simp only [Gikan.cohAdmit, siteFor, hr, hm, hl, hk, h10, hp, Option.isSome_none, Bool.false_eq_true, if_false, ne_eq, not_true_eq_false,
    Bool.not_true, Bool.not_false, Bool.or_self, decide_false, if_true]

/-- A request that has passed check 10, or a WB_DIRTY, which is spared it, needs room in the table and a coherent extent. -/
theorem Gikan.cohAdmit_ready {k : Gikan} (hready : kind = .writeBack ∧ k = h ∨ kind ≠ .writeBack ∧
      ∃ j, h.check10 q e = (true, j) ∧ j.admitPages ⟨i, e⟩ (j.realAddr q.hdr.addr) 128 false = (true, k)) :
    h.cohAdmit x q i e kind =
      if !k.cohRoom 1 then (k.inc F.COH_EVENTS_BUSY_REFUSALS 1).refuse x q stBUSY
      else if !e.coh then k.refuse x q stUNSUP
      else (k.admitted x i q).queueTxn (Txn.new (k.realAddr q.hdr.addr) i kind q.hdr.src q.hdr.tag 0 (fit q.payload 128)) := by
  rcases hready with ⟨rfl, rfl⟩ | ⟨hk, j, h10, hp⟩
  · simp only [Gikan.cohAdmit, hr, hm, hl, Option.isSome_none, Bool.false_eq_true, if_false, ne_eq, not_true_eq_false, Bool.not_true,
      decide_true, Bool.true_or, if_true]
  · simp only [Gikan.cohAdmit, siteFor, hr, hm, hl, hk, h10, hp, Option.isSome_none, Bool.false_eq_true, if_false, ne_eq, not_true_eq_false,
      Bool.not_true, Bool.or_self, decide_false]

end

theorem Gikan.cohRoom_one (k : Gikan) : k.cohRoom 1 = decide (k.coh.txns.length < 16384) := rfl

/-! The snoops of a transaction (R146, R150) -/

section
variable (g : Gikan) (t : Txn) (d : Dir)

theorem Gikan.snoopsFor_owned {o : Nat} (ho : d.owner = some o) (hne : o ≠ t.node) :
    (t.kind = .rdShared → g.snoopsFor t d = (0x2A, [o], true)) ∧
    (t.kind = .rdOwn ∨ t.kind = .upgrade → g.snoopsFor t d = (0x2B, [o], true)) ∧
    (t.kind = .homeRead ∨ t.kind = .engineRead → g.snoopsFor t d = (0x29, [o], false)) := by
  refine ⟨fun hk => ?_, fun hk => ?_, fun hk => ?_⟩
  · simp only [Gikan.snoopsFor, hk, ho, hne, if_false]
  · rcases hk with hk | hk <;> simp only [Gikan.snoopsFor, hk, ho, hne, if_false]
  · rcases hk with hk | hk <;> simp only [Gikan.snoopsFor, hk, ho]

theorem Gikan.snoopsFor_unowned (ho : d.owner = none) :
    (t.kind = .rdShared ∨ t.kind = .homeRead → (g.snoopsFor t d).2.1 = []) ∧
    (t.kind = .rdOwn ∨ t.kind = .upgrade → g.snoopsFor t d = (0x28, (g.recorded d).filter (fun n => n != t.node), false)) ∧
    (t.kind = .homeWrite ∨ t.kind = .recall → g.snoopsFor t d = (0x28, g.recorded d, false)) := by
  refine ⟨fun hk => ?_, fun hk => ?_, fun hk => ?_⟩
  · rcases hk with hk | hk <;> simp only [Gikan.snoopsFor, hk, ho]
  · rcases hk with hk | hk <;> simp only [Gikan.snoopsFor, hk, ho]
  · rcases hk with hk | hk <;> simp only [Gikan.snoopsFor, hk]

end

/-! Rows that stop in the Hasp state (R344) -/

theorem exec_transactionOpen {s : State} (hh : s.g.hasp = false) (line : Nat) (ok : Bool) :
    exec (.transactionOpen line ok) s = .next (s.withG ((s.g.openTxn line ok).cohDrain)) :=
  exec_live (f := fun g => (g.openTxn line ok).cohDrain) rfl hh rfl

theorem exec_snoopTimeout {s : State} (hh : s.g.hasp = false) {line node : Nat} {k : Gikan} (hk : s.g.snoopTimeout line node = k) :
    exec (.snoopTimeout line node) s = .next (s.withG k.cohDrain) :=
  exec_live (f := fun g => (g.snoopTimeout line node).cohDrain) rfl hh (congrArg _ hk)

theorem exec_completeTimeout {s : State} (hh : s.g.hasp = false) {line : Nat} {k : Gikan} (hk : s.g.completeTimeout line = k) :
    exec (.completeTimeout line) s = .next (s.withG k.cohDrain) :=
  exec_live (f := fun g => (g.completeTimeout line).cohDrain) rfl hh (congrArg _ hk)

/-! A COMPLETE and an SNP_RSP that reach their home -/

theorem exec_complete {s : State} {x : Fin 48} {q : Req} {k h : Gikan} (hq : s.g.closing x q k) (ht : q.hdr.type = tyCOMPLETE)
    (hk : k.cohComplete q.hdr.src q.hdr.tag (k.realAddr q.hdr.addr) = h) : exec (.complete x q) s = .next (s.withG h.cohDrain) := by
  have e := Gikan.cohClosing_home hq (fun h => h.cohComplete q.hdr.src q.hdr.tag (h.realAddr q.hdr.addr))
  rw [ht] at e
  exact congrArg s.done (e.trans (congrArg _ hk))

theorem exec_snpRsp {s : State} {x : Fin 48} {q : Req} {k h : Gikan} (hq : s.g.closing x q k) (ht : q.hdr.type = tySNPRSP)
    (hk : k.snpRsp q.hdr.src q.hdr.tag (k.realAddr q.hdr.addr) (bit (bodyField q 45 1) 1) (bit (bodyField q 45 1) 2) (fit q.payload 128) = h) :
    exec (.snpRsp x q) s = .next (s.withG h.cohDrain) := by
  have e := Gikan.cohClosing_home hq (fun h => h.snpRsp q.hdr.src q.hdr.tag (h.realAddr q.hdr.addr) (bit (bodyField q 45 1) 1)
    (bit (bodyField q 45 1) 2) (fit q.payload 128))
  rw [ht] at e
  exact congrArg s.done (e.trans (congrArg _ hk))

/-- Settles O31: a request by the checks of `Gikan.cohAdmit` in their order, a transaction's snoops by the owner of its entry, and its end by
the transaction that the message or the timer finds; what its close leaves of the directory is that of `Gikan.leftTable`, swept for each dead agent. -/
theorem coherenceTransactions : Obligations.CoherenceTransactions := by
  refine ⟨fun s x q c kind hc => ⟨fun src k hf hs hh hd ht => ?dead, fun h i e hd hr => ?request⟩,
    fun s => ⟨fun t d o ho hne => s.g.snoopsFor_owned t d ho hne, fun t d ho => s.g.snoopsFor_unowned t d ho,
      fun hh => ⟨fun line ok => ?opens, fun line node t ho => ?snoopTimer, fun line t ho => ?completeTimer⟩,
      fun h t => ⟨h.dir_closeTxn_final t, fun n hn => h.owner_closeTxn t hn, h.openOn_closeTxn t, fun a ha => h.dir_closeTxn_ne t ha⟩,
      fun x q k hq => ⟨fun ht => ?complete, fun ht => ?snpRsp⟩⟩⟩
  case dead => exact (exec_cohArrive hc).trans (congrArg s.done (Gikan.cohArrive_dead kind hf hs hh hd ht))
  case request =>
    have hgo : ∀ {k : Gikan}, h.cohAdmit x q i e kind = k → exec c s = .next (s.withG k) :=
      fun hk => (exec_cohArrive hc).trans (congrArg s.done ((Gikan.cohArrive_go kind hd hr).trans hk))
    refine ⟨fun hrev => hgo (Gikan.cohAdmit_revoked hrev), fun hrev hm hl => hgo (Gikan.cohAdmit_length hrev hm hl),
      fun j k hrev hm hl hk => ⟨fun h10 => hgo (Gikan.cohAdmit_busy hrev hm hl hk h10),
        fun h10 hp => hgo (Gikan.cohAdmit_pageless hrev hm hl hk h10 hp)⟩,
      fun k hrev hm hl hready => ?_⟩
    have hadmit := Gikan.cohAdmit_ready (x := x) hrev hm hl hready
    rw [Gikan.cohRoom_one] at hadmit
    refine ⟨fun hroom => hgo ?_, fun hroom hcoh => hgo ?_, fun hroom hcoh => hgo ?_⟩
    · rw [hadmit, decide_eq_false (Nat.not_lt.mpr hroom)]; rfl
    · rw [hadmit, decide_eq_true hroom, hcoh]; rfl
    · rw [hadmit, decide_eq_true hroom, hcoh]; rfl
  case opens =>
    refine ⟨exec_transactionOpen hh line ok, fun hb => ?_, fun hn => Gikan.openTxn_unwanted hn ok⟩
    obtain ⟨t, ht⟩ := Option.isSome_iff_exists.mp hb
    exact Gikan.openTxn_busy ht ok
  case snoopTimer =>
    exact ⟨fun ha ht => exec_snoopTimeout hh (Gikan.snoopTimeout_due ho ha ht), fun h => exec_snoopTimeout hh (Gikan.snoopTimeout_early ho h)⟩
  case completeTimer =>
    exact ⟨fun hn ha hk ht => exec_completeTimeout hh ((Gikan.completeTimeout_due ho hn ht).trans (Gikan.tryClose_completed _ ha hk)),
      fun h => exec_completeTimeout hh (Gikan.completeTimeout_early ho h)⟩
  case complete =>
    exact ⟨fun hn => exec_complete hq ht (Gikan.cohComplete_unmatched hn),
      fun t hm => ⟨fun ha hk => exec_complete hq ht ((Gikan.cohComplete_matched hm).trans (k.tryClose_completed ha hk)),
        fun ha => exec_complete hq ht ((Gikan.cohComplete_matched hm).trans (k.tryClose_awaits (t := { t with needComplete := false }) ha))⟩⟩
  case snpRsp =>
    exact ⟨fun hn => exec_snpRsp hq ht (Gikan.snpRsp_unmatched _ _ _ hn), fun t hm => exec_snpRsp hq ht (Gikan.snpRsp_matched _ _ _ hm)⟩

end Sys2Proof.Machine
end

section
namespace Sys2Proof.Machine

/-! ## The registers of the coherence block (R142, R152, R153) -/

/-! Recall -/

/-- The recall of an extent as it starts, before its lines are queued. -/
def Gikan.recallBegun (g : Gikan) (i : Nat) : Gikan :=
  let h := (({ g with coh := { g.coh with recalling := some i } }.set F.COH_RECALL_STATUS_BUSY 1).set F.COH_RECALL_STATUS_ENTRY i)
  h.set F.COH_RECALL_STATUS_LINES (min (h.heldLines i).length (2 ^ 32 - 1))

/-- The recall of an extent as it ends: under a quiesce of its compartment the extent is noted. -/
def Gikan.recallEnded (g : Gikan) (i : Nat) : Gikan :=
  let rs := if (g.get F.MAP_QUIESCE_CMPT_MASK).testBit (g.map.cur.entry i).cmpt then insNat g.coh.recalled i else g.coh.recalled
  ({ g with coh := { g.coh with recalling := none, recalled := rs } }.set F.COH_RECALL_STATUS_BUSY 0).set F.COH_RECALL_STATUS_DONE 1

section
variable {g : Gikan} {w : RegW} (hgo : wrOne w F.COH_RECALL_GO = true)
include hgo

theorem Gikan.wrRecall_refused (hb : g.on F.COH_RECALL_STATUS_BUSY = true) : g.wrRecall w = g.inc F.COH_EVENTS_BUSY_REFUSALS 1 := by
  unfold Gikan.wrRecall
  rw [hgo, hb]; rfl

theorem Gikan.wrRecall_starts (hb : g.on F.COH_RECALL_STATUS_BUSY = false) :
    g.wrRecall w = (g.recallBegun (wrField w F.COH_RECALL_ENTRY).1).recallLines (wrField w F.COH_RECALL_ENTRY).1 := by
  unfold Gikan.wrRecall
  rw [hgo, hb]; rfl

end

theorem Gikan.get_recallBegun (g : Gikan) (i : Nat) : (g.recallBegun i).get F.COH_RECALL_STATUS_BUSY = 1 ∧
    (g.recallBegun i).get F.COH_RECALL_STATUS_ENTRY = i % 2 ^ F.COH_RECALL_STATUS_ENTRY.wid :=
  ⟨(Gikan.get_set_ne _ _ _ _ (by decide)).trans ((Gikan.get_set_ne _ _ _ _ (by decide)).trans (Gikan.get_set_same ..)),
    (Gikan.get_set_ne _ _ _ _ (by decide)).trans (Gikan.get_set_same ..)⟩

theorem Gikan.recallDone_idle {g : Gikan} (h : g.coh.recalling = none) : g.recallDone = g := by rw [Gikan.recallDone, h]

section
variable {g : Gikan} {i : Nat} (h : g.coh.recalling = some i)
include h

theorem Gikan.recallDone_held (hl : g.heldLines i ≠ []) : g.recallDone = g.recallLines i := by
  rw [Gikan.recallDone, h]
  exact if_pos hl

theorem Gikan.recallDone_ends (hl : g.heldLines i = []) (ht : ∀ t ∈ g.coh.txns, t.kind ≠ .recall) : g.recallDone = g.recallEnded i := by
  have hany : g.coh.txns.any (fun t => t.kind == .recall) = false :=
    List.any_eq_false.mpr fun t hm => by simpa using ht t hm
  rw [Gikan.recallDone, h]
  dsimp only
  rw [if_neg (not_not.mpr hl), hany]; rfl

end

/-! An agent declared dead -/

/-- The agent leaves the registry, and its death is counted. -/
def Gikan.unregistered (g : Gikan) (n : Nat) : Gikan :=
  { g with coh := { g.coh with agents := delNat g.coh.agents n, dead := insNat g.coh.dead n } }.inc F.COH_EVENTS2_DEAD_DECLARED 1

/-- The snoops that the agent has not answered are taken as answered. -/
def Gikan.snoopsWaived (g : Gikan) (n : Nat) : Gikan :=
  (g.coh.txns.filter (fun t => t.opened && t.await.contains n)).foldl (fun h t0 =>
    match h.openOn t0.line with
    | some t => h.snoopAnswered { t with lost := t.lost || ((h.dir t.line).owner == some n && !t.recover) } n false
    | none => h) g

/-- The COMPLETEs that the agent has not sent are taken as sent. -/
def Gikan.completesWaived (g : Gikan) (n : Nat) : Gikan :=
  (g.coh.txns.filter (fun t => t.opened && t.node == n && t.needComplete)).foldl (fun h t0 =>
    match h.openOn t0.line with
    | some t => h.tryClose { t with needComplete := false }
    | none => h) g

theorem Gikan.snoopsWaived_unawaited {g : Gikan} {n : Nat} (h : ∀ t ∈ g.coh.txns, t.opened = true → n ∉ t.await) : g.snoopsWaived n = g := by
  have hnil : g.coh.txns.filter (fun t => t.opened && t.await.contains n) = [] :=
    List.filter_eq_nil_iff.mpr fun t ht => by simpa using h t ht
  rw [Gikan.snoopsWaived, hnil]; rfl

theorem Gikan.completesWaived_undue {g : Gikan} {n : Nat} (h : ∀ t ∈ g.coh.txns, t.opened = true → t.node ≠ n ∨ t.needComplete = false) :
    g.completesWaived n = g := by
  have hnil : g.coh.txns.filter (fun t => t.opened && t.node == n && t.needComplete) = [] := by
    refine List.filter_eq_nil_iff.mpr fun t ht => ?_
    simp only [Bool.and_eq_true, beq_iff_eq, not_and, Bool.not_eq_true, and_imp]
    exact fun ho hn => (h t ht ho).resolve_left (not_not.mpr hn)
  rw [Gikan.completesWaived, hnil]; rfl

/-- A declaration finishes what awaits the agent; its sweep begins, or waits while another runs. -/
theorem Gikan.declareDead_eq (g : Gikan) (n : Nat) (auto : Bool) : g.declareDead n auto =
    (let k := ((g.unregistered n).snoopsWaived n).completesWaived n
     if k.coh.sweep.isSome then { k with coh := { k.coh with sweepWait := k.coh.sweepWait ++ [(n, auto)] } } else k.sweepStart n auto) := rfl

/-- Where no transaction awaits the agent and no sweep runs, the sweep for it begins at once. -/
theorem Gikan.declareDead_unawaited {g : Gikan} {n : Nat} (auto : Bool)
    (h : ∀ t ∈ g.coh.txns, t.opened = true → n ∉ t.await ∧ (t.node ≠ n ∨ t.needComplete = false)) (hs : g.coh.sweep = none) :
    g.declareDead n auto = (g.unregistered n).sweepStart n auto := by
  have hsweep : (g.unregistered n).coh.sweep = none := hs
  rw [Gikan.declareDead_eq, Gikan.snoopsWaived_unawaited (g := g.unregistered n) fun t ht ho => (h t ht ho).1,
    Gikan.completesWaived_undue (g := g.unregistered n) fun t ht ho => (h t ht ho).2]
  dsimp only
  rw [hsweep]; rfl

theorem mem_insNat {l : List Nat} {a x : Nat} : x ∈ insNat l a ↔ x = a ∨ x ∈ l := by
  induction l with
  | nil => rw [insNat, List.mem_singleton]; simp
  | cons k t ih =>
    unfold insNat
    split
    · exact List.mem_cons
    · split
      next h => subst h; simp
      next => simp only [List.mem_cons, ih]; tauto

theorem mem_foldl_insNat {l new : List Nat} {x : Nat} : x ∈ new.foldl insNat l ↔ x ∈ l ∨ x ∈ new := by
  induction new generalizing l with
  | nil => simp
  | cons a new ih => rw [List.foldl_cons, ih, mem_insNat, List.mem_cons]; tauto

/-! The end of a sweep -/

/-- The change of the sweep for an agent, at every line. -/
def Gikan.swept (g : Gikan) (n : Nat) : Gikan := g.dirLines.foldl (fun h x => h.sweepLine n x.1 x.2) g

/-- The registers of a sweep that has ended, and its event. -/
def Gikan.sweepReported (g : Gikan) : Gikan :=
  ((({ g with coh := { g.coh with sweep := none } }.set F.COH_DEAD_STATUS_SWEEPING 0).set F.COH_DEAD_STATUS_DONE 1).set
    F.COH_DEAD_STATUS_LINES_POISONED (min g.coh.sweepLost (2 ^ 32 - 1))).faultOpen .contained 54 2 (offOf F.COH_DEAD_STATUS_SWEEPING)

theorem Gikan.coh_of_quiet {g h : Gikan} (e : h.quiet = g.quiet) : h.coh = g.coh := congrArg (fun x => x.2.2.2.2.2.2.2.2.2.2.2.2.1) e

theorem Gikan.coh_faultOpen (g : Gikan) (c : FClass) (n k r : Nat) : (g.faultOpen c n k r).coh = g.coh :=
  Gikan.coh_of_quiet (g := g.next.2) (Gikan.quiet_fault ..)

theorem Gikan.coh_sweepReported (g : Gikan) : g.sweepReported.coh = { g.coh with sweep := none } := Gikan.coh_faultOpen ..

theorem Gikan.besideEntries_swept (g : Gikan) (n : Nat) : (g.swept n).coh.besideEntries = g.coh.besideEntries :=
  Gikan.besideEntries_foldl (f := fun h (x : Nat × Nat) => h.sweepLine n x.1 x.2) (fun h x => h.besideEntries_sweepLine n x.1 x.2) _ _

theorem Gikan.sweepReported_reports (g : Gikan) : g.sweepReported.on F.COH_DEAD_STATUS_SWEEPING = false ∧
    g.sweepReported.on F.COH_DEAD_STATUS_DONE = true ∧ g.sweepReported.bitOf (F.FLT_WORDS_GROUPS 1) 54 = true := by
  refine ⟨Gikan.on_of_get (n := 0) ?_, Gikan.on_of_get (n := 1) ?_, (Gikan.faultWords_contained _ 54 _ _ (by decide)).2⟩
  · refine (Gikan.get_faultOpen _ _ _ _ _ _ ⟨by decide, by decide⟩).trans ?_
    rw [Gikan.get_set_ne _ _ _ _ (by decide), Gikan.get_set_ne _ _ _ _ (by decide)]
    exact Gikan.get_set_same ..
  · refine (Gikan.get_faultOpen _ _ _ _ _ _ ⟨by decide, by decide⟩).trans ?_
    rw [Gikan.get_set_ne _ _ _ _ (by decide)]
    exact Gikan.get_set_same ..

theorem Gikan.sweepEnd_idle {g : Gikan} (h : g.coh.sweep = none) : g.sweepEnd = g := by rw [Gikan.sweepEnd, h]

/-- The end of a sweep for which no other waits. -/
theorem Gikan.sweepEnd_last {g : Gikan} {n : Nat} (h : g.coh.sweep = some n) (hw : g.coh.sweepWait = []) :
    g.sweepEnd = (g.swept n).sweepReported := by
  have hwait : (g.swept n).sweepReported.coh.sweepWait = [] := by
    rw [Gikan.coh_sweepReported]
    exact (congrArg CohSt.sweepWait (g.besideEntries_swept n) :).trans hw
  rw [Gikan.sweepEnd, h]
  change (match (g.swept n).sweepReported.coh.sweepWait with | [] => (g.swept n).sweepReported | (m, a) :: rest => _) = _
  rw [hwait]

/-! A look at an entry -/

/-- A write of COH_PEEK puts the place that it names, whose entry is then copied. -/
def Gikan.peekPlaced (g : Gikan) (w : RegW) : Gikan := g.putFields w (offOf F.COH_PEEK_ENTRY) [F.COH_PEEK_ENTRY, F.COH_PEEK_LINE]

/-- The entry of a line of an extent, U where there is no such coherent line. -/
def Gikan.dirAt (g : Gikan) (i line : Nat) : Dir :=
  let e := g.map.cur.entry i
  if e.valid && e.coh && decide (128 * line < e.len) then g.dir (e.base + 128 * line) else Dir.u

/-- An entry as it stands in COH_PEEK_DATA. -/
def Gikan.peekShown (g : Gikan) (d : Dir) : Gikan := (g.set (F.COH_PEEK_DATA_WORD 0) d.w0).set (F.COH_PEEK_DATA_WORD 1) d.w1

theorem Gikan.wrPeek_go {g : Gikan} {w : RegW} (hgo : wrOne w F.COH_PEEK_GO = true) : g.wrPeek w =
    (g.peekPlaced w).peekShown ((g.peekPlaced w).dirAt ((g.peekPlaced w).get F.COH_PEEK_ENTRY) ((g.peekPlaced w).get F.COH_PEEK_LINE)) := by
  unfold Gikan.wrPeek
  dsimp only
  rw [hgo]; rfl

theorem Gikan.body_peekPlaced (g : Gikan) (w : RegW) : (g.peekPlaced w).body = g.body := Gikan.body_putFields ..

theorem Gikan.get_peekPlaced (g : Gikan) (w : RegW) :
    (g.peekPlaced w).get F.COH_PEEK_ENTRY = g.wrValue w F.COH_PEEK_ENTRY % 2 ^ F.COH_PEEK_ENTRY.wid ∧
    (g.peekPlaced w).get F.COH_PEEK_LINE = g.wrValue w F.COH_PEEK_LINE % 2 ^ F.COH_PEEK_LINE.wid :=
  ⟨(Gikan.get_putFields_mem g w _ _ _ (by decide) (by decide) (by decide) ⟨by decide, by decide⟩).trans (Gikan.get_set_same ..),
    (Gikan.get_putFields_mem g w _ _ _ (by decide) (by decide) (by decide) ⟨by decide, by decide⟩).trans (Gikan.get_set_same ..)⟩

theorem Gikan.dirAt_eq (g : Gikan) (i line : Nat) : g.dirAt i line =
    (let e := g.map.cur.entry i
     if e.valid = true ∧ e.coh = true ∧ 128 * line < e.len then g.dir (e.base + 128 * line) else ⟨0, 0⟩) := by
  simp only [Gikan.dirAt, Bool.and_eq_true, decide_eq_true_eq, and_assoc, Dir.u]

theorem Gikan.dirAt_of_body {g h : Gikan} (e : h.body = g.body) (i line : Nat) : h.dirAt i line = g.dirAt i line :=
  (congrArg (fun k : Gikan => k.dirAt i line) e :)

/-! Registration -/

/-- The agents that a write of COH_AGENT_DATA registers: those of the bits that are written as 1, but for the ones whose sweep has not ended. -/
def Gikan.registers (g : Gikan) (w : RegW) : List Nat :=
  (((List.range 64).filter (fun b => ((wrField w F.COH_AGENT_DATA_REGISTERED).1 &&& (wrField w F.COH_AGENT_DATA_REGISTERED).2).testBit b)).map
    (fun b => 64 * g.get F.COH_AGENT_INDEX_WORD + b)).filter (fun n => !g.sweepOpen n)

theorem Gikan.wrAgentData_eq (g : Gikan) (w : RegW) : g.wrAgentData w = { g with coh := { g.coh with
    agents := (g.registers w).foldl insNat g.coh.agents, dead := g.coh.dead.filter (fun n => !(g.registers w).contains n) } } := rfl

theorem Gikan.mem_registers (g : Gikan) (w : RegW) (n : Nat) : n ∈ g.registers w ↔
    64 * g.get F.COH_AGENT_INDEX_WORD ≤ n ∧ n < 64 * g.get F.COH_AGENT_INDEX_WORD + 64 ∧
      (w.data.toNat &&& halfMask w.half).testBit (n - 64 * g.get F.COH_AGENT_INDEX_WORD) = true ∧ g.sweepOpen n = false := by
  have hbit : ∀ b, b < 64 → ((wrField w F.COH_AGENT_DATA_REGISTERED).1 &&& (wrField w F.COH_AGENT_DATA_REGISTERED).2).testBit b =
      (w.data.toNat &&& halfMask w.half).testBit b := by
    intro b hb
    have h0 : F.COH_AGENT_DATA_REGISTERED.key % 64 = 0 := rfl
    have h64 : F.COH_AGENT_DATA_REGISTERED.wid = 64 := rfl
    simp only [wrField, bits, h0, h64, Nat.shiftRight_zero, Nat.testBit_and, Nat.testBit_mod_two_pow, hb, decide_true, Bool.true_and]
  unfold Gikan.registers
  simp only [List.mem_filter, List.mem_map, List.mem_range, Bool.not_eq_true']
  constructor
  · rintro ⟨⟨b, ⟨hb, ht⟩, rfl⟩, ho⟩
    rw [hbit b hb] at ht
    exact ⟨by omega, by omega, by rwa [Nat.add_sub_cancel_left], ho⟩
  · rintro ⟨hlo, hhi, ht, ho⟩
    have hb : n - 64 * g.get F.COH_AGENT_INDEX_WORD < 64 := by omega
    exact ⟨⟨_, ⟨hb, (hbit _ hb).trans ht⟩, by omega⟩, ho⟩

/-- Settles O32: each register by what a write that reaches it makes of the block, and the two ends by whether a recall or a sweep runs. -/
theorem coherenceRegisters : Obligations.CoherenceRegisters := by
  refine fun s => ⟨fun w hr => ?recalls, fun hh => ⟨fun h => ?noRecall, fun i h => ⟨fun hl => ?held, fun hl ht => ?recalled⟩, fun h => ?noSweep,
    fun n h hw => ?swept⟩, fun w hr => ?dead, fun w hr => ?peek, fun w hr => ?agents⟩
  case recalls =>
    have hgo := wrOne_trig w F.COH_RECALL_GO rfl
    intro i
    refine ⟨fun hb => exec_reaches rfl (Gikan.wrRecall_refused hgo hb) hr, fun hb => ?_⟩
    obtain ⟨hbusy, hentry⟩ := s.g.get_recallBegun i
    obtain ⟨hmem, hcoh, hget⟩ := (s.g.recallBegun i).recallLines_tableOnly i
    exact ⟨_, exec_reaches rfl (Gikan.wrRecall_starts hgo hb) hr, Gikan.on_of_get ((hget _ (by decide) (by decide)).trans hbusy),
      (hget _ (by decide) (by decide)).trans hentry, (congrArg CohSt.recalling hcoh :), (congrArg CohSt.dir hcoh :), hmem⟩
  case noRecall => exact exec_live_idle (f := Gikan.recallDone) rfl (Gikan.recallDone_idle h)
  case held => exact exec_live (f := Gikan.recallDone) rfl hh (Gikan.recallDone_held h hl)
  case recalled =>
    exact ⟨_, exec_live (f := Gikan.recallDone) rfl hh (Gikan.recallDone_ends h hl ht),
      Gikan.on_of_get ((Gikan.get_set_ne _ _ _ _ (by decide)).trans (Gikan.get_set_same ..)), Gikan.on_of_get (Gikan.get_set_same ..), rfl, rfl⟩
  case noSweep => exact exec_live_idle (f := Gikan.sweepEnd) rfl (Gikan.sweepEnd_idle h)
  case swept =>
    have hcoh := (s.g.swept n).coh_sweepReported
    obtain ⟨hsweeping, hdone, hlogged⟩ := (s.g.swept n).sweepReported_reports
    exact ⟨_, exec_live (f := Gikan.sweepEnd) rfl hh (Gikan.sweepEnd_last h hw), (congrArg CohSt.sweep hcoh :), hsweeping, hdone, hlogged,
      (congrArg CohSt.agents hcoh :).trans (congrArg CohSt.agents (s.g.besideEntries_swept n) :)⟩
  case dead =>
    have hgo := wrOne_trig w F.COH_DEAD_GO rfl
    intro n
    refine ⟨exec_reaches rfl (congrArg Gikan.cohDrain (if_pos hgo)) hr, fun h hs => ?_⟩
    rw [Gikan.declareDead_unawaited false h hs]
    refine ⟨rfl, mem_insNat.mpr (.inl rfl), rfl, Gikan.on_of_get (n := 1) ?_, Gikan.get_set_same .., ?_, rfl⟩
    · exact (Gikan.get_set_ne _ _ _ _ (by decide)).trans ((Gikan.get_set_ne _ _ _ _ (by decide)).trans (Gikan.get_set_same ..))
    · exact (Gikan.get_set_ne _ _ _ _ (by decide)).trans ((Gikan.get_set_ne _ _ _ _ (by decide)).trans
        ((Gikan.get_set_ne _ _ _ _ (by decide)).trans (Gikan.get_inc_same ..)))
  case peek =>
    have hgo := wrOne_trig w F.COH_PEEK_GO rfl
    have hbody := s.g.body_peekPlaced (trig w F.COH_PEEK_GO)
    have hcoh : (s.g.peekPlaced (trig w F.COH_PEEK_GO)).coh = s.g.coh := (congrArg Gikan.coh hbody :)
    have hmem := Gikan.mem_of_body hbody
    obtain ⟨hentry, hline⟩ := s.g.get_peekPlaced (trig w F.COH_PEEK_GO)
    have hpeek := Gikan.wrPeek_go (g := s.g) hgo
    rw [hentry, hline, Gikan.dirAt_of_body hbody, Gikan.dirAt_eq] at hpeek
    exact ⟨_, exec_reaches rfl hpeek hr, (Gikan.get_set_ne _ _ _ _ (by decide)).trans (Gikan.get_set_same ..), Gikan.get_set_same .., hcoh, hmem⟩
  case agents =>
    refine ⟨_, exec_reaches rfl (s.g.wrAgentData_eq w) hr, rfl, rfl, rfl, fun n => ?_⟩
    exact mem_foldl_insNat.trans (or_congr_right (s.g.mem_registers w n))

end Sys2Proof.Machine
end

section
namespace Sys2Proof.Machine

/-! ## REDUCE_SETUP (R155, R156) -/

/-! Its checks -/

section
variable {g : Gikan} {kw : Nat} {b : List Byte}

/-- A create that passes causes 1 to 3 is refused only while its stream is there or the store has no room for its reservation. -/
theorem Gikan.setupCheck_create (ha : setupAction b = 1) (hu : g.setupUnsup b = false) (hp : g.setupAbsent kw (descrOf b) = false)
    (hr : g.setupRange b = false) : g.setupCheck kw b =
      if (g.red.streams.get? (descrOf b).stream).isSome ∨ g.storeFree < (descrOf b).slots * (descrOf b).slotBytes then stBUSY else stOK := by
  simp only [Gikan.setupCheck, ha, hu, hp, hr, if_true, Bool.false_eq_true, if_false, Bool.or_eq_true, decide_eq_true_eq]

/-- A rekey of a live stream of its own compartment is refused only where the stream is no relay. -/
theorem Gikan.setupCheck_rekey {x : Stream} (ha : setupAction b = 3) (hv : field b 0 2 = 1) (hz : setupRestBad b = false)
    (hn : (descrOf b).stream ≤ 1023) (hx : g.liveStream (descrOf b).stream = some x) (hc : x.cmpt = kw) :
    g.setupCheck kw b = if x.d.relay = true then stOK else stUNSUP := by
  simp only [Gikan.setupCheck, ha, hv, hz, bne_self_eq_false, Bool.or_self, Bool.false_eq_true, if_false, if_neg (Nat.not_lt.mpr hn), hx, hc,
    ne_eq, not_true_eq_false, true_and, or_true, if_true]
  cases x.d.relay <;> rfl

end

/-! Its outcome -/

section
variable {g : Gikan} {k : CmdRef} {c : Cmd} {create : Bool} {action : Nat} (hc : g.cmdReady k opSETUP = some c)
  (ha : setupAction c.body = action) (hcr : create = true → action = 1) (body : Gikan → Cmd → Descr → Gikan)
include hc ha hcr

/-- The command of a row's own action is checked, and carried out when no code applies. -/
theorem Gikan.setup_checked : g.setup k create action body =
    if g.setupCheck k.kw c.body ≠ stOK then g.cmdDone k.kw c.idx (g.setupCheck k.kw c.body) else body g c (descrOf c.body) := by
  have hmine : (if create then action != 2 && action != 3 else action == action) = true := by
    cases create with
    | false => exact beq_self_eq_true action
    | true => rw [hcr rfl]; rfl
  simp only [Gikan.setup, hc, ha, hmine, Bool.not_true, Bool.false_eq_true, if_false]

theorem Gikan.setup_refused (hst : g.setupCheck k.kw c.body ≠ stOK) :
    g.setup k create action body = g.cmdDone k.kw c.idx (g.setupCheck k.kw c.body) := by
  rw [Gikan.setup_checked hc ha hcr, if_pos hst]

theorem Gikan.setup_carried (hst : g.setupCheck k.kw c.body = stOK) : g.setup k create action body = body g c (descrOf c.body) := by
  rw [Gikan.setup_checked hc ha hcr, if_neg (not_not.mpr hst)]

end

theorem Gikan.setupRekey_known {g : Gikan} {k : CmdRef} {c : Cmd} {x : Stream} (hc : g.cmdReady k opSETUP = some c) (ha : setupAction c.body = 3)
    (hst : g.setupCheck k.kw c.body = stOK) (hx : g.red.streams.get? (descrOf c.body).stream = some x) :
    g.setupRekey k = (g.setStream (descrOf c.body).stream { x with d := { x.d with parentWard := (descrOf c.body).parentWard } }).cmdDone
      k.kw c.idx stOK := by
  refine (Gikan.setup_carried hc ha (by decide) _ hst).trans ?_
  simp only [hx]

/-- Settles O33: each row is its check (`Gikan.setup_checked`), and a create or rekey is checked by the causes that are left of it. -/
theorem reduceSetup : Obligations.ReduceSetup := by
  intro s k c hc d a st
  refine ⟨fun hst ha => ?created, fun hst ha => ?createRefused, fun hst ha => ?destroyed, fun hst ha => ?destroyRefused, fun x hst ha hx => ?rekeyed,
    fun hst ha => ?rekeyRefused, fun ha hu hp hr => ?createCheck, fun ha x hv hz hn hx hcmpt => Gikan.setupCheck_rekey ha hv hz hn hx hcmpt⟩
  case created => exact congrArg s.done (Gikan.setup_carried hc ha (by decide) _ hst)
  case createRefused => exact congrArg s.done (Gikan.setup_refused hc ha (by decide) _ hst)
  case destroyed => exact congrArg s.done (Gikan.setup_carried hc ha (by decide) _ hst)
  case destroyRefused => exact congrArg s.done (Gikan.setup_refused hc ha (by decide) _ hst)
  case rekeyed => exact congrArg s.done (Gikan.setupRekey_known hc ha hst hx)
  case rekeyRefused => exact congrArg s.done (Gikan.setup_refused hc ha (by decide) _ hst)
  case createCheck =>
    have hcheck := Gikan.setupCheck_create ha hu hp hr
    refine ⟨fun h => hcheck.trans (if_pos h), fun hnone hroom => hcheck.trans (if_neg ?_)⟩
    rw [hnone]
    exact not_or.mpr ⟨nofun, Nat.not_lt.mpr hroom⟩

end Sys2Proof.Machine
end

section
namespace Sys2Proof.Machine

/-! ## Contributions, deadlines and software aborts of rounds (R163, R164, R171) -/

/-! The parts of a CONTRIB's checks (R164) -/

/-- A CONTRIB that a relay takes as a result from its parent. -/
def contribRes (d : Descr) (q : Req) : Bool := q.hdr.subop == 0x40 && d.relay

/-- A SUBOP that is neither the stream's format nor a result of its parent. -/
def contribSubBad (d : Descr) (q : Req) : Bool :=
  if q.hdr.subop = 0x40 then !(d.relay && q.hdr.src == d.parentNode) else q.hdr.subop != d.inFmt

/-- Whether a slot or a place at the lane is missing for a CONTRIB of a round that the stream knows. -/
def Gikan.contribFull (h : Gikan) (q : Req) (st : Stream) (r : Round) : Bool :=
  if contribRes st.d q then st.noSlot none (conChunk q)
  else r.st == .open && (st.noSlot (some r) (conChunk q) || decide (256 ≤ h.laneLoad (h.laneOf (conStream q) (conChunk q))))

/-- The end of the checks: check 10, a missing slot or place, the SUBOP; one that passes them has its effect. -/
def Gikan.contribLast (h : Gikan) (x : Nat) (q : Req) (i : Nat) (e : ExtW) (st : Stream) (es : List (Nat × Nat)) (full : Bool) : Gikan :=
  if !(h.check10 q e).1 || full then ((h.check10 q e).2.inc F.RED_EVENTS_BUSY 1).refuse x q stBUSY
  else if contribSubBad st.d q then (h.check10 q e).2.refuse x q stUNSUP
  else (h.check10 q e).2.contribDo x q i (conStream q) st es (contribRes st.d q)

/-- A CONTRIB passes checks 5 to 8 as far as they do not depend on its round: its live stream's results lie in an extent of this Gikan, neither
revoked nor of another compartment or ward, and the stream has its contributor. -/
structure Gikan.ContribPasses (h : Gikan) (q : Req) (st : Stream) (i : Nat) (e : ExtW) : Prop where
  live : h.liveStream (conStream q) = some st
  seated : ∃ m, h.liveMap q.hdr.epoch = some m ∧ m.extentAt (h.realAddr st.d.result) = some (i, e)
  home : e.home = h.node
  unrevoked : h.map.revoked.get? i = none
  matched : h.match3 q e.cmpt (some e.ward) = 0
  contributor : conContributor q < st.d.contributors

theorem Gikan.contribHere_absent {h : Gikan} {q : Req} (x : Nat) (hn : h.liveStream (conStream q) = none) :
    h.contribHere x q = h.refuse x q stNOTPRES := by
  simp only [Gikan.contribHere, hn]

section
variable {h : Gikan} {x : Nat} {q : Req} {st : Stream} {i : Nat} {e : ExtW} (hp : h.ContribPasses q st i e)
include hp

theorem Gikan.contribHere_stale (hk : st.kindOf (conRound q) = .stale) (h0 : 0 < q.hdr.length) (hl : q.hdr.length ≤ 4096) :
    h.contribHere x q = h.contribLast x q i e st [] false := by
  obtain ⟨hs, ⟨m, hm, he⟩, hhome, hrev, h3, hc⟩ := hp
  have hlen : ¬ (q.hdr.length = 0 ∨ 4096 < q.hdr.length) := by omega
  simp only [Gikan.contribHere, hs, hm, he, hhome, hrev, h3, hk, if_neg (Nat.not_le.mpr hc), if_neg hlen, ne_eq, not_true_eq_false, if_false,
    Option.isSome_none, Bool.false_eq_true]
  rfl

theorem Gikan.contribHere_knownLong {r : Round} (hk : st.kindOf (conRound q) = .known r)
    (hl : contribLong st.d q r.count (contribRes st.d q) = true) : h.contribHere x q = h.refuse x q stLENGTH := by
  obtain ⟨hs, ⟨m, hm, he⟩, hhome, hrev, h3, hc⟩ := hp
  rw [contribRes] at hl
  simp only [Gikan.contribHere, hs, hm, he, hhome, hrev, h3, hk, hl, if_neg (Nat.not_le.mpr hc), ne_eq, not_true_eq_false, if_false,
    Option.isSome_none, Bool.false_eq_true, if_true]

/-- One of an aborted round takes no slot. -/
theorem Gikan.contribHere_known {r : Round} (hk : st.kindOf (conRound q) = .known r)
    (hl : contribLong st.d q r.count (contribRes st.d q) = false) :
    h.contribHere x q = h.contribLast x q i e st [] (r.st != .aborted && h.contribFull q st r) := by
  obtain ⟨hs, ⟨m, hm, he⟩, hhome, hrev, h3, hc⟩ := hp
  rw [contribRes] at hl
  simp only [Gikan.contribHere, hs, hm, he, hhome, hrev, h3, hk, hl, if_neg (Nat.not_le.mpr hc), ne_eq, not_true_eq_false, if_false,
    Option.isSome_none, Bool.false_eq_true]
  by_cases ha : r.st = .aborted
  · simp only [ha, if_true]; rfl
  · have hb : (r.st != .aborted) = true := bne_iff_ne.mpr ha
    rw [hb, Bool.true_and, Gikan.contribFull]
    simp only [ha, if_false]
    split
    next hres => rw [if_pos (c := contribRes st.d q = true) hres]; rfl
    next hres => rw [if_neg (c := contribRes st.d q = true) hres]; rfl

section
variable {f : Nat} {l : Gikan} (hk : st.kindOf (conRound q) = .fresh f) (hf : st.openCount + f ≤ st.d.maxOpen)
include hk hf

theorem Gikan.contribHere_unreadable (hr : h.readEntries st.d f st.next = (l, none)) : h.contribHere x q = l.refuse x q stLENGTH := by
  obtain ⟨hs, ⟨m, hm, he⟩, hhome, hrev, h3, hc⟩ := hp
  simp only [Gikan.contribHere, hs, hm, he, hhome, hrev, h3, hk, hf, hr, if_neg (Nat.not_le.mpr hc), ne_eq, not_true_eq_false, if_false,
    Option.isSome_none, Bool.false_eq_true, decide_true, if_true]

variable {es : List (Nat × Nat)} (hr : h.readEntries st.d f st.next = (l, some es)) (hres : contribRes st.d q = false)
  (hl : contribLong st.d q (es.getLastD (0, 0)).2 false = false)
include hr hres hl

/-- One that would open its round and those before it opens none while the Gikan is SPLIT. -/
theorem Gikan.contribHere_fresh : h.contribHere x q =
    if l.on F.TICK_STATUS_SPLIT then (l.inc F.RED_EVENTS2_SPLIT_REFUSALS 1).refuse x q stSPLIT
    else l.contribLast x q i e st es (st.noSlot none (conChunk q) && st.d.update == 0 || st.noRoom es ||
      decide (256 ≤ l.laneLoad (h.laneOf (conStream q) (conChunk q)))) := by
  obtain ⟨hs, ⟨m, hm, he⟩, hhome, hrev, h3, hc⟩ := hp
  simp only [Gikan.contribLast, contribSubBad, hres]
  rw [contribRes] at hres
  simp only [Gikan.contribHere, hs, hm, he, hhome, hrev, h3, hk, hf, hr, hres, hl, if_neg (Nat.not_le.mpr hc), ne_eq, not_true_eq_false, if_false,
    Option.isSome_none, Bool.false_eq_true, decide_true, if_true, Bool.not_true, Bool.false_or]

end
end

/-! Check 10 and after it -/

section
variable {h j : Gikan} {x : Nat} {q : Req} {i : Nat} {e : ExtW} (h10 : h.check10 q e = (true, j)) (st : Stream) (es : List (Nat × Nat))
include h10

theorem Gikan.contribLast_full : h.contribLast x q i e st es true = (j.inc F.RED_EVENTS_BUSY 1).refuse x q stBUSY := by
  rw [Gikan.contribLast, h10, Bool.or_true, if_pos rfl]

theorem Gikan.contribLast_subBad {full : Bool} (hf : full = false) (hs : contribSubBad st.d q = true) :
    h.contribLast x q i e st es full = j.refuse x q stUNSUP := by
  simp only [Gikan.contribLast, h10, hf, hs, Bool.not_true, Bool.or_self, Bool.false_eq_true, if_false, if_true]

theorem Gikan.contribLast_passed {full : Bool} (hf : full = false) (hs : contribSubBad st.d q = false) :
    h.contribLast x q i e st es full = j.contribDo x q i (conStream q) st es (contribRes st.d q) := by
  simp only [Gikan.contribLast, h10, hf, hs, Bool.not_true, Bool.or_self, Bool.false_eq_true, if_false]

end

/-! The effect, by the round (the table of R164). What the round is to the stream is put in before anything else is reduced: to evaluate
`Stream.kindOf` would be to count to 2 ^ 31. -/

section
variable {j k : Gikan} {x : Nat} {q : Req} {i p : Nat} (hp : (j.admitted x i q).engPort = (p, k)) (n : Nat) {st : Stream}
include hp

theorem Gikan.contribDo_stale (es : List (Nat × Nat)) (res : Bool) (hk : st.kindOf (conRound q) = .stale) :
    j.contribDo x q i n st es res = (k.inc F.RED_EVENTS_STALE 1).answer p x q stABORT [] := by
  conv in @Gikan.contribDo => delta Gikan.contribDo
  rw [hk]
  simp only [hp]

/-- One of a round that the stream knows: a result from the parent is for the down entries. -/
theorem Gikan.contribDo_known (es : List (Nat × Nat)) (res : Bool) {r : Round} (hk : st.kindOf (conRound q) = .known r) :
    j.contribDo x q i n st es res =
      if r.st = .aborted then (k.inc F.RED_EVENTS2_ABORT_ANSWERS 1).answer p x q stABORT []
      else if res then k.takeResult x q n st r
      else if r.st = .committed then (k.inc F.RED_EVENTS_LATE_DONE 1).answer p x q stOK []
      else k.takeContrib x q i n r := by
  conv in @Gikan.contribDo => delta Gikan.contribDo
  rw [hk]
  simp only [hp]

theorem Gikan.contribDo_fresh {es : List (Nat × Nat)} (res : Bool) {f : Nat} {r : Round} (hk : st.kindOf (conRound q) = .fresh f)
    (hr : ((k.openRounds n st es).red.streams.get? n).bind (fun t => t.round (conRound q)) = some r) :
    j.contribDo x q i n st es res = (k.openRounds n st es).takeContrib x q i n r := by
  conv in @Gikan.contribDo => delta Gikan.contribDo
  rw [hk]
  simp only [hp, hr]

end

/-- A chunk that an open round has from its contributor already is answered OK, and counted. -/
theorem Gikan.takeContrib_again {k k2 : Gikan} {x : Nat} {q : Req} (i n : Nat) {r : Round} {p2 : Nat} {b : Chunk}
    (hb : r.chunks.get? (conChunk q) = some b) (hw : b.bits.contains (conContributor q) = true) (hp : k.engPort = (p2, k2)) :
    k.takeContrib x q i n r = (k2.inc F.RED_EVENTS_DUP_BITMAP 1).answer p2 x q stOK [] := by
  simp only [Gikan.takeContrib, hp, hb, hw, if_true]

theorem exec_contrib {s : State} {x : Fin 48} {q : Req} {h k : Gikan} {i0 : Nat} {e0 : ExtW} (hr : s.g.receive x q tyCONTRIB false = .go h i0 e0)
    (hk : h.contribHere x q = k) : exec (.contrib x q) s = .next (s.withG (s.g.cohSettle k)) := by
  refine congrArg s.done (?_ : s.g.contribArrive x q = s.g.cohSettle k)
  rw [Gikan.contribArrive, hr, ← hk]

/-! Deadlines and RED_ABORT (R171) -/

section
variable {g : Gikan} {n r : Nat} {st : Stream} {x : Round} (hs : g.red.streams.get? n = some st) (hx : st.round r = some x)
include hs hx

/-- The last contribution of a round that arrived by its deadline wins over it. -/
theorem Gikan.roundDeadline_won (hm : missingOf st.d x = []) (ha : ∃ a ∈ x.arrived, x.openTick + st.d.deadline ≤ a.2) :
    g.roundDeadline n r = g := by
  have hany : x.arrived.any (fun a => decide (x.openTick + st.d.deadline ≤ a.2)) = true :=
    List.any_eq_true.mpr (ha.imp fun _ h => ⟨h.1, decide_eq_true h.2⟩)
  simp only [Gikan.roundDeadline, hs, hx, hm, hany, List.isEmpty_nil, Bool.and_self, Bool.or_true, Bool.true_or, if_true]

theorem Gikan.roundDeadline_early (h : x.st ≠ .open ∨ g.tickNo < x.openTick + st.d.deadline) : g.roundDeadline n r = g := by
  simp only [Gikan.roundDeadline, hs, hx]
  refine if_pos ?_
  rcases h with h | h
  · rw [decide_eq_true h, Bool.or_true]
  · simp only [decide_eq_true h, Bool.or_true, Bool.true_or]

theorem Gikan.roundDeadline_due (hh : g.hasp = false) (hr : g.running = true) (ho : x.st = .open) (hd : x.openTick + st.d.deadline ≤ g.tickNo)
    (hm : missingOf st.d x ≠ []) : g.roundDeadline n r = g.cohSettle (g.abortRound n r causeDeadline) := by
  have hmiss : (missingOf st.d x).isEmpty = false := List.isEmpty_eq_false_iff.mpr hm
  simp only [Gikan.roundDeadline, hs, hx, hh, hr, ho, decide_eq_false (Nat.not_lt.mpr hd), hmiss, Bool.false_and, Bool.not_true, Bool.or_self,
    ne_eq, not_true_eq_false, decide_false, Bool.false_eq_true, if_false]

end

/-- The value that a write puts into a field of RED_ABORT. -/
def abortField (w : RegW) (f : Fld) : Nat := (wrField w f).1 &&& (wrField w f).2

/-- The round that a write of RED_ABORT names. -/
def Gikan.abortNamed (g : Gikan) (w : RegW) : Option Round :=
  (g.red.streams.get? (abortField w F.RED_ABORT_STREAM)).bind (fun st => st.round (abortField w F.RED_ABORT_ROUND))

section
variable {g : Gikan} {w : RegW} (hgo : wrOne w F.RED_ABORT_GO = true)
include hgo

theorem Gikan.wrRedAbort_open {x : Round} (hx : g.abortNamed w = some x) (ho : x.st = .open) :
    g.wrRedAbort w = g.cohSettle (g.abortRound (abortField w F.RED_ABORT_STREAM) (abortField w F.RED_ABORT_ROUND) causeSoftware) := by
  simp only [Gikan.abortNamed, abortField] at hx
  simp only [Gikan.wrRedAbort, hgo, hx, ho, Bool.not_true, Bool.false_eq_true, if_false, if_true, abortField]

theorem Gikan.wrRedAbort_ignored (h : ∀ x, g.abortNamed w = some x → x.st ≠ .open) : g.wrRedAbort w = g.inc F.RED_ABORT_CAUSE_IGNORED 1 := by
  simp only [Gikan.abortNamed, abortField] at h
  simp only [Gikan.wrRedAbort, hgo, Bool.not_true, Bool.false_eq_true, if_false]
  split
  next x hx => exact if_neg (h x hx)
  next => rfl

end

/-- Settles O35: a CONTRIB by what its round is to the stream, through the end of the checks (`Gikan.contribLast`) and the effect
(`Gikan.contribDo`); a deadline and RED_ABORT by whether the round is open. -/
theorem contributionsAndAborts : Obligations.ContributionsAndAborts := by
  refine ⟨?contribs, fun s =>
    ⟨fun n r st x hs hx hh hrun => ⟨fun ho hd hm => ?due, fun hm ha => ?won, fun h => ?early⟩, fun w hw => ?redAbort⟩⟩
  case contribs =>
    intro s x q h i0 e0 hr n c ends
    refine ⟨fun hn => exec_contrib hr (Gikan.contribHere_absent _ hn), ?_⟩
    intro st m i e hs hm he hhome hrev h3 hcon res subBad
    have hp : h.ContribPasses q st i e := ⟨hs, ⟨m, hm, he⟩, hhome, hrev, h3, hcon⟩
    refine ⟨fun j k p h10 hport => ⟨fun h0 hlen hk => ⟨fun hsub => ?stale, fun hsub => ?staleSubop⟩, fun r hk hl => ?known,
        fun r hk hl => exec_contrib hr (Gikan.contribHere_knownLong hp hk hl)⟩,
      fun f l hk hf hres => ⟨fun hent => exec_contrib hr (Gikan.contribHere_unreadable hp hk hf hent), fun es hent hl => ?fresh⟩⟩
    case stale =>
      exact exec_contrib hr ((Gikan.contribHere_stale hp hk h0 hlen).trans
        ((Gikan.contribLast_passed h10 st [] rfl hsub).trans (Gikan.contribDo_stale hport n [] res hk)))
    case staleSubop => exact exec_contrib hr ((Gikan.contribHere_stale hp hk h0 hlen).trans (Gikan.contribLast_subBad h10 st [] rfl hsub))
    case known =>
      have hhere := Gikan.contribHere_known (x := x) hp hk hl
      have hdo := Gikan.contribDo_known (x := x) hport n [] res hk
      have hspare : r.st = .aborted ∨ h.contribFull q st r = false → (r.st != .aborted && h.contribFull q st r) = false := fun hr =>
        Bool.and_eq_false_iff.mpr (hr.imp_left bne_eq_false_iff_eq.mpr)
      intro full
      refine ⟨fun ha hsub => ?aborted, fun ha hfull => ?busy, fun hfull hsub => ?subop, fun ha hfull hsub => ?alive⟩
      case aborted =>
        exact exec_contrib hr (hhere.trans ((Gikan.contribLast_passed h10 st [] (hspare (.inl ha)) hsub).trans (hdo.trans (if_pos ha))))
      case busy =>
        have hneeds : (r.st != .aborted && h.contribFull q st r) = true := Bool.and_eq_true_iff.mpr ⟨bne_iff_ne.mpr ha, hfull⟩
        rw [hneeds] at hhere
        exact exec_contrib hr (hhere.trans (Gikan.contribLast_full h10 st []))
      case subop =>
        exact exec_contrib hr (hhere.trans (Gikan.contribLast_subBad h10 st [] (hspare hfull) hsub))
      case alive =>
        have hpass := hhere.trans ((Gikan.contribLast_passed h10 st [] (hspare (.inr hfull)) hsub).trans (hdo.trans (if_neg ha)))
        refine ⟨fun hres => exec_contrib hr (hpass.trans (if_pos hres)), fun hres hc => ?_, fun hres ho => ⟨?_, fun b hb hw p2 k2 hp2 => ?_⟩⟩
        · exact exec_contrib hr (hpass.trans ((if_neg (Bool.eq_false_iff.mp hres)).trans (if_pos hc)))
        · have hc : r.st ≠ .committed := by rw [ho]; decide
          exact exec_contrib hr (hpass.trans ((if_neg (Bool.eq_false_iff.mp hres)).trans (if_neg hc)))
        · exact Gikan.takeContrib_again i n hb hw hp2
    case fresh =>
      have hhere := Gikan.contribHere_fresh (x := x) hp hk hf hent hres hl
      refine ⟨fun hsplit => exec_contrib hr (hhere.trans (if_pos hsplit)),
        fun j k p r hsplit h10 hport hsub hlane hroom hslot hround => ?_⟩
      have hfull : (st.noSlot none c && st.d.update == 0 || st.noRoom es || decide (256 ≤ l.laneLoad (h.laneOf n c))) = false := by
        rw [hroom, decide_eq_false (Nat.not_le.mpr hlane), Bool.or_false, Bool.or_false, Bool.and_eq_false_iff, beq_eq_false_iff_ne]
        exact hslot
      exact exec_contrib hr (hhere.trans ((if_neg (Bool.eq_false_iff.mp hsplit)).trans
        ((Gikan.contribLast_passed h10 st es hfull hsub).trans (Gikan.contribDo_fresh hport n _ hk hround))))
  case due => exact congrArg s.done (Gikan.roundDeadline_due hs hx hh hrun ho hd hm)
  case won => exact congrArg s.done (Gikan.roundDeadline_won hs hx hm ha)
  case early => exact congrArg s.done (Gikan.roundDeadline_early hs hx h)
  case redAbort =>
    have hgo := wrOne_trig w F.RED_ABORT_GO rfl
    intro v n r found
    refine ⟨fun x hx ho => exec_reaches rfl (Gikan.wrRedAbort_open hgo hx ho) hw, fun x hx ho => ?other, fun hnone => ?noRound⟩
    case other =>
      exact exec_reaches rfl (Gikan.wrRedAbort_ignored hgo fun y hy => Option.some.inj (hx.symm.trans hy) ▸ ho) hw
    case noRound =>
      exact exec_reaches rfl (Gikan.wrRedAbort_ignored hgo fun y hy => nomatch hnone.symm.trans hy) hw

end Sys2Proof.Machine
end

section
namespace Sys2Proof.Machine

/-! ## GATHER, FILTER and SCORE commands (R191 to R196) -/

/-! A command that is ready: refused, waiting or started -/

section
variable {g : Gikan} {k : CmdRef} {c : Cmd}

section
variable (hc : g.cmdReady k opGATHER = some c)
include hc

theorem Gikan.gatherJob_refused (hst : g.jobCheck k.kw c ≠ stOK) : g.gatherJob k = g.jobRefused k.kw c.idx (g.jobCheck k.kw c) := by
  simp only [Gikan.gatherJob, hc, if_pos hst]

theorem Gikan.gatherJob_starts {g1 : Gikan} {p : GatherP} {bad : Bool} (hst : g.jobCheck k.kw c = stOK) (hg : g.cmdGather c = (g1, p, bad)) :
    g.gatherJob k = g.cohSettle ((((g1.dealItems (.cmd k.kw c.idx) k.kw .gth (List.replicate (c.f 8 4 / p.group) p.cost)).addJob
      { EngJob.start (.cmd k.kw c.idx) k.kw (c.f 8 4 / p.group) 0 none with idx := p.idx, idxBad := bad }).cmdRun k.kw c.idx
        (c.f 8 4 / p.group)).updCmd k.kw c.idx (fun d => { d with detail := c.f 8 4 / p.group })) := by
  simp only [Gikan.gatherJob, hc, if_neg (not_not.mpr hst), hg]

end

section
variable (hc : g.cmdReady k opFILTER = some c)
include hc

theorem Gikan.filterJob_refused (hst : g.jobCheck k.kw c ≠ stOK) : g.filterJob k = g.jobRefused k.kw c.idx (g.jobCheck k.kw c) := by
  simp only [Gikan.filterJob, hc, if_pos hst]

/-- A FILTER that passes its checks goes by the selection entries of the one engine that takes it. -/
theorem Gikan.filterJob_passed {p : FilterP} {costs : List Nat} {f need : Nat} (hst : g.jobCheck k.kw c = stOK) (hp : p = c.filterP)
    (hcosts : costs = p.costs p.count) (hf : f = g.pickFilter (costs.headD 0)) (hneed : need = if 512 < p.k then p.k else 0) :
    g.filterJob k = if g.selectFree f < need then g else
      ((costs.zipIdx.foldl (fun h y => h.queueWork (.cmd k.kw c.idx) k.kw .flt f y.2 y.1) g).addJob
        (EngJob.start (.cmd k.kw c.idx) k.kw costs.length need (some f))).cmdRun k.kw c.idx costs.length := by
  subst hneed hf hcosts hp
  simp only [Gikan.filterJob, hc, if_neg (not_not.mpr hst)]

end

section
variable (hc : g.cmdReady k opSCORE = some c)
include hc

theorem Gikan.scoreJob_refused (hst : g.jobCheck k.kw c ≠ stOK) : g.scoreJob k = g.jobRefused k.kw c.idx (g.jobCheck k.kw c) := by
  simp only [Gikan.scoreJob, hc, if_pos hst]

theorem Gikan.scoreJob_waits (hst : g.jobCheck k.kw c = stOK) (hs : g.selectLeast < c.scoreP.queries * c.scoreP.k) : g.scoreJob k = g := by
  simp only [Gikan.scoreJob, hc, if_neg (not_not.mpr hst), if_pos hs]

theorem Gikan.scoreJob_starts {n : Nat} {g4 : Gikan} (hst : g.jobCheck k.kw c = stOK) (hs : c.scoreP.queries * c.scoreP.k ≤ g.selectLeast)
    (hd : g.dealScore (.cmd k.kw c.idx) k.kw c.scoreP = (n, g4)) :
    g.scoreJob k = (g4.addJob { EngJob.start (.cmd k.kw c.idx) k.kw n (c.scoreP.queries * c.scoreP.k) none with
      merges := g4.scoreMerges c.scoreP }).cmdRun k.kw c.idx n := by
  simp only [Gikan.scoreJob, hc, if_neg (not_not.mpr hst), if_neg (Nat.not_lt.mpr hs), hd]

end

end

/-- Selection entries that come free try the waiting SCORE as its own row does, outside the Hasp state. -/
theorem exec_score_or_entriesFree {row : Instr} {k : CmdRef} {s : State} {g : Gikan}
    (hrow : row = .score k ∨ row = .selectionEntriesFree k ∧ s.g.hasp = false) (hg : s.g.scoreJob k = g) : exec row s = .next (s.withG g) := by
  obtain rfl | ⟨rfl, hh⟩ := hrow
  · exact congrArg s.done hg
  · exact exec_live (f := fun g => g.scoreJob k) rfl hh hg

/-! Its merges -/

theorem Gikan.mergeStart_known {g : Gikan} {k : CmdRef} {j : EngJob} (hj : g.jobOf (.cmd k.kw k.idx) = some j) :
    g.mergeStart k = if j.left = 0 ∧ j.merges ≠ [] then g.formMerges j else g := by
  rw [Gikan.mergeStart, hj]

/-! The end of a gather item -/

/-- A table that is not compressed, or lies in host memory, has no tensor header to read. -/
theorem Gikan.jobTensor_uncompressed (g : Gikan) (j : EngJob) {site : Option Site} (a : Nat) (h : ∀ x, site = some x → x.e.comp = 0) :
    g.jobTensor j site a = (g, j, none) := by
  cases site with
  | none => rfl
  | some x => exact if_pos (h x rfl)

/-- Output of a command's item goes to its place in OUT, or leaves poison there (R99). -/
theorem Gikan.jobWrite_cmd {g : Gikan} {j : EngJob} {kw idx : Nat} {c : Cmd} (ho : j.owner = .cmd kw idx) (hc : g.cmd? kw idx = some c)
    (off : Nat) (data : List Byte) (bad : Bool) :
    g.jobWrite j off data bad = if bad then g.cmdPoison kw c (c.outAt + off) data.length else g.cmdWrite kw c (c.outAt + off) data := by
  simp only [Gikan.jobWrite, ho, hc]

/-- A gather item on a table that is not compressed writes the row it has gathered. -/
theorem Gikan.gatherItem_uncompressed {g g1 : Gikan} {j : EngJob} {i : Nat} {p : GatherP} {rd : Reader} {site : Option Site} {b : List Byte}
    {bad : Bool} {refs : Tbl Nat} (h : ∀ x, site = some x → x.e.comp = 0)
    (hr : g.gatherRow rd { p with tensor := none } ((p.idx.drop (i * p.group)).take p.group) (j.lost.contains i || j.idxBad) = (g1, b, bad, refs)) :
    (g.gatherItem j i p rd site).1 = g1.jobWrite j (i * p.rowBytes) b bad := by
  simp only [Gikan.gatherItem, Gikan.jobTensor_uncompressed g j p.table h, hr]

/-- Settles O37: each command by whether its check and the selection entries let it start, the merges by whether the job's items have ended, and a
gather item by the row that it writes. -/
theorem engineJobs : Obligations.EngineJobs := by
  intro s k c kw st refused
  refine ⟨fun hc => ⟨fun hst => ?gatherRefused, fun g1 p bad hst hg => ?gatherStarts⟩, fun hc => ?filter, fun row hrow hc => ?score,
    fun hh j hj => ⟨fun hl hm => ?mergesFormed, fun h => ?mergesIdle⟩, fun g g1 j i p rd site b bad refs ho hu _ hc1 hr => ?gatherItem⟩
  case gatherRefused => exact congrArg s.done (Gikan.gatherJob_refused hc hst)
  case gatherStarts => exact congrArg s.done (Gikan.gatherJob_starts hc hst hg)
  case filter =>
    refine ⟨fun hst => congrArg s.done (Gikan.filterJob_refused hc hst), fun hst hs => ?waits, fun hst hs => ?starts⟩
    case waits => exact congrArg s.done ((Gikan.filterJob_passed hc hst rfl rfl rfl rfl).trans (if_pos hs))
    case starts => exact congrArg s.done ((Gikan.filterJob_passed hc hst rfl rfl rfl rfl).trans (if_neg (Nat.not_lt.mpr hs)))
  case score =>
    exact ⟨fun hst => exec_score_or_entriesFree hrow (Gikan.scoreJob_refused hc hst),
      fun hst hs => exec_score_or_entriesFree hrow (Gikan.scoreJob_waits hc hst hs),
      fun n g4 hst hs hd => exec_score_or_entriesFree hrow (Gikan.scoreJob_starts hc hst hs hd)⟩
  case mergesFormed =>
    exact exec_live (f := fun g => g.mergeStart k) rfl hh ((Gikan.mergeStart_known hj).trans (if_pos ⟨hl, hm⟩))
  case mergesIdle =>
    refine exec_live_idle (f := fun g => g.mergeStart k) rfl ((Gikan.mergeStart_known hj).trans (if_neg ?_))
    exact fun hboth => h.elim (fun hl => hl hboth.1) hboth.2
  case gatherItem =>
    rw [Gikan.gatherItem_uncompressed hu hr]
    exact Gikan.jobWrite_cmd ho hc1 (i * p.rowBytes) b bad

end Sys2Proof.Machine
end

section
namespace Sys2Proof.Machine

/-! ## Table loads, slots and table errors of the expanders (R217 to R221) -/

/-! A write of CMP_TABLE_LOAD (R219, R325) -/

/-- The value that a write puts into a field of CMP_TABLE_LOAD. -/
def loadField (w : RegW) (f : Fld) : Nat := (wrField w f).1 &&& (wrField w f).2

/-- CMP_TABLE_STATUS with the table and version that a write of CMP_TABLE_LOAD names. -/
def Gikan.tableNamed (g : Gikan) (w : RegW) : Gikan :=
  (g.set F.CMP_TABLE_STATUS_TABLE (loadField w F.CMP_TABLE_LOAD_TABLE)).set F.CMP_TABLE_STATUS_VERSION (loadField w F.CMP_TABLE_LOAD_VERSION)

/-- A load that waits with BUSY set: its source, table, version and compartment. -/
def Gikan.tableWaits (g : Gikan) (l : Nat × Nat × Nat × Nat) : Gikan :=
  { g.set F.CMP_TABLE_STATUS_BUSY 1 with cmp := { g.cmp with wait := some l } }

section
variable (g : Gikan) (a table version cmpt : Nat)

theorem Gikan.tableRead_done (hs : g.stalls (g.tableLoad a table version cmpt) = false) :
    g.tableRead a table version cmpt = g.cohSettle (g.tableLoad a table version cmpt) := by
  simp only [Gikan.tableRead, hs, Bool.false_eq_true, if_false]

theorem Gikan.tableRead_waits (hs : g.stalls (g.tableLoad a table version cmpt) = true) :
    g.tableRead a table version cmpt = (g.cohSettle (g.tableLoad a table version cmpt)).tableWaits (a, table, version, cmpt) := by
  simp only [Gikan.tableRead, hs, if_true, Gikan.tableWaits]

end

section
variable {g : Gikan} {w : RegW} (hgo : wrOne w F.CMP_TABLE_LOAD_GO = true)
include hgo

theorem Gikan.wrTableLoad_refused (h : g.on F.CMP_TABLE_STATUS_BUSY = true ∨ g.on F.CMP_TABLE_STATUS_PENDING = true) :
    g.wrTableLoad w = g.tableRefused 7 := by
  simp only [Gikan.wrTableLoad, hgo, Bool.or_eq_true_iff.mpr h, Bool.not_true, Bool.false_eq_true, if_false, if_true]

/-- A load that finds no other is held back by a scrub of its compartment, and otherwise reads its image. -/
theorem Gikan.wrTableLoad_free (hb : g.on F.CMP_TABLE_STATUS_BUSY = false) (hp : g.on F.CMP_TABLE_STATUS_PENDING = false) :
    g.wrTableLoad w = if (g.tableNamed w).scrubbing (loadField w F.CMP_TABLE_LOAD_CMPT) then
        (g.tableNamed w).tableWaits (g.get F.CMP_TABLE_SRC_ADDR, loadField w F.CMP_TABLE_LOAD_TABLE, loadField w F.CMP_TABLE_LOAD_VERSION,
          loadField w F.CMP_TABLE_LOAD_CMPT)
      else (g.tableNamed w).tableRead (g.get F.CMP_TABLE_SRC_ADDR) (loadField w F.CMP_TABLE_LOAD_TABLE) (loadField w F.CMP_TABLE_LOAD_VERSION)
        (loadField w F.CMP_TABLE_LOAD_CMPT) := by
  have hsrc : (g.tableNamed w).get F.CMP_TABLE_SRC_ADDR = g.get F.CMP_TABLE_SRC_ADDR :=
    (Gikan.get_set_ne _ _ _ _ (by decide)).trans (Gikan.get_set_ne _ _ _ _ (by decide))
  rw [← hsrc]
  simp only [Gikan.wrTableLoad, hgo, hb, hp, Bool.or_self, Bool.not_true, Bool.false_eq_true, if_false]
  rfl

end

theorem Gikan.tableRefused_reports (g : Gikan) {cause : Nat} (hc : cause < 16) : (g.tableRefused cause).on F.CMP_TABLE_STATUS_REFUSED = true ∧
    (g.tableRefused cause).get F.CMP_TABLE_STATUS_CAUSE = cause ∧ (g.tableRefused cause).get F.CMP_TABLE_STATUS_REFUSALS =
      satAdd F.CMP_TABLE_STATUS_REFUSALS.wid (g.get F.CMP_TABLE_STATUS_REFUSALS) 1 := by
  refine ⟨Gikan.on_of_get (n := 1) ?_, ?_, ?_⟩
  · exact (Gikan.get_inc_ne _ _ _ _ (by decide)).trans ((Gikan.get_set_ne _ _ _ _ (by decide)).trans (Gikan.get_set_same ..))
  · exact (Gikan.get_inc_ne _ _ _ _ (by decide)).trans ((Gikan.get_set_same ..).trans (Nat.mod_eq_of_lt hc))
  · refine (Gikan.get_inc_same ..).trans ?_
    rw [Gikan.get_set_ne _ _ _ _ (by decide), Gikan.get_set_ne _ _ _ _ (by decide)]

theorem Gikan.get_withCmp (g : Gikan) (c : CmpSt) (f : Fld) : ({ g with cmp := c } : Gikan).get f = g.get f := rfl

/-! The slot of a load (R219, R220) -/

section
variable {g : Gikan} {l : TabLoad}

theorem Gikan.takeSlot_empty {j : Nat} (h : g.emptySlot l.table = some j) : (g.takeSlot l).on F.CMP_TABLE_STATUS_BUSY = true ∧
    (g.takeSlot l).on F.CMP_TABLE_STATUS_PENDING = false ∧ (g.takeSlot l).cmp.load = some { l with slot := some j } := by
  simp only [Gikan.takeSlot, h, and_true]
  constructor
  · refine Gikan.on_of_get (n := 1) ?_
    exact (Gikan.get_set_ne _ _ _ _ (by decide)).trans ((Gikan.get_set_ne _ _ _ _ (by decide)).trans (Gikan.get_set_same ..))
  · exact Gikan.on_of_get (n := 0) ((Gikan.get_set_ne _ _ _ _ (by decide)).trans (Gikan.get_set_same ..))

/-- A wait that is not counted is one that PENDING showed already. -/
theorem Gikan.takeSlot_full (h : g.emptySlot l.table = none) :
    (g.takeSlot l).on F.CMP_TABLE_STATUS_PENDING = true ∧ (g.takeSlot l).cmp.load = some { l with slot := none } := by
  simp only [Gikan.takeSlot, h, and_true]
  refine Gikan.on_of_get (n := 1) ?_
  refine (Gikan.get_withCmp ..).trans ?_
  split
  · exact Gikan.get_set_same ..
  · exact (Gikan.get_inc_ne _ _ _ _ (by decide)).trans (Gikan.get_set_same ..)

variable (hl : g.cmp.load = some l)
include hl

theorem Gikan.tableSlotTake_known : g.tableSlotTake = if l.slot.isNone && (g.emptySlot l.table).isSome then g.takeSlot l else g := by
  simp only [Gikan.tableSlotTake, hl]

theorem Gikan.tableLoadEnd_pending (hs : l.slot = none) : g.tableLoadEnd = g := by
  simp only [Gikan.tableLoadEnd, hl, hs]

/-- The end of a load in its slot. -/
theorem Gikan.tableLoadEnd_loads {j : Nat} (hs : l.slot = some j) :
    g.tableLoadEnd.on F.CMP_TABLE_STATUS_BUSY = false ∧ g.tableLoadEnd.on F.CMP_TABLE_STATUS_DONE = true ∧ g.tableLoadEnd.cmp.load = none ∧
    g.tableLoadEnd.mem = g.mem ∧
    g.tableLoadEnd.cmp.slots.get? (2 * l.table + j) = some ⟨false, l.kind, l.entry, l.cmpt, l.version, l.data⟩ := by
  simp only [Gikan.tableLoadEnd, hl, hs]
  refine ⟨Gikan.on_of_get (n := 0) ?_, Gikan.on_of_get (n := 1) (Gikan.get_set_same ..), rfl, rfl, Tbl.get?_put_same ..⟩
  exact (Gikan.get_set_ne _ _ _ _ (by decide)).trans ((Gikan.get_withCmp ..).trans (Gikan.get_set_same ..))

end

/-! A slot that becomes EMPTY (R220, R221) -/

theorem Gikan.cmp_of_quiet {g h : Gikan} (e : h.quiet = g.quiet) : h.cmp = g.cmp :=
  congrArg (fun x => x.2.2.2.2.2.2.2.2.2.2.2.2.2.2.2.2.2.1) e

theorem Gikan.cmp_faultOpen (g : Gikan) (c : FClass) (n k r : Nat) : (g.faultOpen c n k r).cmp = g.cmp :=
  Gikan.cmp_of_quiet (g := g.next.2) (Gikan.quiet_fault ..)

/-- The places of a table's two slots. -/
theorem slotKey_eq {table slot : Nat} (ht : table < 32) (hs : slot < 2) : 2 * (table % 32) + slot % 2 = 2 * table + slot := by
  rw [Nat.mod_eq_of_lt ht, Nat.mod_eq_of_lt hs]

section
variable {g : Gikan} {table slot : Nat} (ht : table < 32) (hs : slot < 2)
include ht hs

theorem Gikan.slotEmpty_known {x : TabSlot} (hx : g.cmp.slots.get? (2 * table + slot) = some x) : g.slotEmpty table slot =
    if x.retiring = true ∧ g.slotRefs (2 * table + slot) = 0 then { g with cmp := { g.cmp with slots := g.cmp.slots.del (2 * table + slot) } }
    else g := by
  simp only [Gikan.slotEmpty, slotKey_eq ht hs, hx, Bool.and_eq_true, beq_iff_eq]

/-- An error in table memory leaves its slot EMPTY, and is logged. -/
theorem Gikan.tableEcc_empties : (g.tableEcc table slot).cmp.slots.get? (2 * table + slot) = none ∧
    (g.tableEcc table slot).bitOf (F.FLT_WORDS_GROUPS 1) 51 = true ∧ (g.tableEcc table slot).mem = g.mem := by
  rw [Gikan.tableEcc, slotKey_eq ht hs]
  refine ⟨?_, (Gikan.faultWords_contained _ 51 _ _ (by decide)).2, Gikan.mem_faultOpen ..⟩
  rw [Gikan.cmp_faultOpen]
  exact Tbl.get?_del_same ..

end

/-- Settles O38: a write of CMP_TABLE_LOAD by whether a load, a scrub or its image holds it back (`Gikan.wrTableLoad_free`, `Gikan.tableRead`), a
load by the slot that it finds or has, and a slot by what counts on it. -/
theorem expanderTables : Obligations.ExpanderTables := by
  refine fun s => ⟨fun w hr => ?write, fun g l j h => Gikan.takeSlot_empty h, fun g l h => Gikan.takeSlot_full h,
    fun hh l hl => ⟨fun hn he => ?takes, fun hn he => ?pends, fun hn => ?unslotted, fun j hj _ => ?ends⟩,
    fun hh table slot x ht hs hx => ⟨fun hret hrefs => ?empties, fun h => ?keeps⟩, fun table slot ht hs =>
      ⟨_, rfl, Gikan.tableEcc_empties ht hs⟩⟩
  case write =>
    have hgo := wrOne_trig w F.CMP_TABLE_LOAD_GO rfl
    refine ⟨fun h => ?refused, fun hb hp => ?free⟩
    case refused =>
      obtain ⟨hrefused, hcause, hcount⟩ := s.g.tableRefused_reports (cause := 7) (by decide)
      exact ⟨_, exec_reaches rfl (Gikan.wrTableLoad_refused hgo h) hr, hrefused, hcause, hcount, rfl, rfl⟩
    case free =>
      have hfree := Gikan.wrTableLoad_free hgo hb hp
      refine ⟨fun hs => exec_reaches rfl (hfree.trans (if_pos hs)) hr, fun hs hd => ?there, fun hs hd => ?absent⟩
      case there => exact exec_reaches rfl (hfree.trans ((if_neg (Bool.eq_false_iff.mp hs)).trans (Gikan.tableRead_done _ _ _ _ _ hd))) hr
      case absent => exact exec_reaches rfl (hfree.trans ((if_neg (Bool.eq_false_iff.mp hs)).trans (Gikan.tableRead_waits _ _ _ _ _ hd))) hr
  case takes =>
    exact exec_live (f := Gikan.tableSlotTake) rfl hh ((Gikan.tableSlotTake_known hl).trans (if_pos (by rw [hn, he]; rfl)))
  case pends =>
    exact exec_live_idle (f := Gikan.tableSlotTake) rfl ((Gikan.tableSlotTake_known hl).trans (if_neg (by rw [hn, he]; decide)))
  case unslotted => exact exec_live_idle (f := Gikan.tableLoadEnd) rfl (Gikan.tableLoadEnd_pending hl hn)
  case ends => exact ⟨_, exec_live (f := Gikan.tableLoadEnd) rfl hh rfl, Gikan.tableLoadEnd_loads hl hj⟩
  case empties => exact exec_live (f := fun g => g.slotEmpty table slot) rfl hh ((Gikan.slotEmpty_known ht hs hx).trans (if_pos ⟨hret, hrefs⟩))
  case keeps =>
    refine exec_live_idle (f := fun g => g.slotEmpty table slot) rfl ((Gikan.slotEmpty_known ht hs hx).trans (if_neg fun hboth => ?_))
    exact h.elim (fun hret => Bool.eq_false_iff.mp hret hboth.1) (fun hrefs => hrefs hboth.2)

end Sys2Proof.Machine
end

section
namespace Sys2Proof.Machine

/-! ## How the commands of a Keyway start (R199, R259 to R265) -/

/-! The items of a MOVE or FILL (R261) -/

/-- A byte of the destination lies in the item of its aligned 64 KiB. -/
theorem Cmd.itemSpan_holds {c : Cmd} {o : Nat} (hx : c.expands = false) (ho : o < c.moveBytes) :
    let j := (c.moveDst % 65536 + o) / 65536
    j < c.itemCount ∧ (c.itemSpan j).1 ≤ o ∧ o < (c.itemSpan j).1 + (c.itemSpan j).2 := by
  simp only [Cmd.itemCount, Cmd.itemSpan, hx, Bool.false_eq_true, if_false]
  omega

/-- The check of a MOVE or FILL. -/
def Gikan.moverCheck (g : Gikan) (op : Nat) (c : Cmd) : Nat := if op = opMOVE then g.moveCheck c else fillCheck c

/-- What a MOVE or FILL that starts in `g` leaves, once its header, if it expands, has been read: `b`, and the tensor that the header describes. -/
def Gikan.moverDealt (g b : Gikan) (kw : Nat) (c : Cmd) (t : Option Tensor) : Gikan :=
  let ms := b.engines .mov
  g.cohSettle ((List.range c.itemCount).foldl (fun h j =>
    h.queueItem ⟨.mov, ms.getD (j % ms.length) 0⟩ ⟨ceilDiv (c.itemSpan j).2 256 +
      (if h.itemLocal c (c.itemSpan j).1 (c.itemSpan j).2 then 32 else h.get F.SUB_MOVER_REMOTE_CYCLES), .job kw c.idx j, kw, none⟩)
    ((b.cmdRun kw c.idx c.itemCount).updCmd kw c.idx (fun d => { d with tensor := t })))

section
variable {g : Gikan} {k : CmdRef} {c : Cmd} {op : Nat} (hc : g.cmdReady k op = some c)
include hc

theorem Gikan.moverStart_refused {st : Nat} (hcheck : g.moverCheck op c = st) (hst : st ≠ stOK) :
    g.moverStart k op = g.cmdRefused k.kw c st := by
  rw [← hcheck, Gikan.moverCheck] at hst
  rw [← hcheck, Gikan.moverCheck]
  simp only [Gikan.moverStart, hc, if_pos hst]

theorem Gikan.moverStart_plain (hst : g.moverCheck op c = stOK) (hx : c.expands = false) : g.moverStart k op = g.moverDealt g k.kw c none := by
  rw [Gikan.moverCheck] at hst
  simp only [Gikan.moverStart, hc, if_neg (not_not.mpr hst), hx, Bool.false_eq_true, if_false, Gikan.moverDealt]

theorem Gikan.moverStart_expands {b : Gikan} {si : Site} {t : Tensor} (hst : g.moverCheck op c = stOK) (hx : c.expands = true)
    (hs : g.siteAt (c.f 0 8) = some si) (ht : g.openTensor si (g.realAddr (c.f 0 8)) = (b, t)) :
    g.moverStart k op = g.moverDealt b k.kw c (some t) := by
  rw [Gikan.moverCheck] at hst
  simp only [Gikan.moverStart, hc, if_neg (not_not.mpr hst), hx, hs, ht, if_true, Gikan.moverDealt]

end

/-! PUBLISH (R262) -/

/-- The payload of a PUBLISH command, and whether it is poisoned. -/
def Gikan.pubData (g : Gikan) (c : Cmd) : Gikan × List Byte × Bool :=
  if c.f 20 2 = 0 then (g, [], false) else g.cmdRead c (c.f 8 8) (c.f 20 2)

/-- The request of a PUBLISH command; check 7 passes the ward of a region that is homed here (R258). -/
def Gikan.pubRequest (g : Gikan) (kw : Nat) (c : Cmd) (a : Nat) (data : List Byte) : Req :=
  ⟨ownHdr tyPUBLISH 3 kw a (c.f 20 2) 0 (match g.siteAt a with | some t => t.e.ward | none => c.f 24 8), leBytes 4 (c.f 16 4) ++ zeros 4, data⟩

section
variable {g h : Gikan} {k : CmdRef} {c : Cmd} {data : List Byte} (hc : g.cmdReady k opPUBLISH = some c)
include hc

theorem Gikan.publishCommand_refused (hst : g.pubCheck k.kw c ≠ stOK) : g.publishCommand k = g.cmdRefused k.kw c (g.pubCheck k.kw c) := by
  simp only [Gikan.publishCommand, hc, if_pos hst]

variable (hst : g.pubCheck k.kw c = stOK)
include hst

theorem Gikan.publishCommand_poisoned (hd : g.pubData c = (h, data, true)) :
    g.publishCommand k = g.cohSettle (h.cmdDone k.kw c.idx stPOISONED) := by
  rw [Gikan.pubData] at hd
  simp only [Gikan.publishCommand, hc, if_neg (not_not.mpr hst), hd, if_true]

theorem Gikan.publishCommand_sends {a : Nat} (hd : g.pubData c = (h, data, false)) (ha : c.loc (c.f 0 8) = .fab a) :
    g.publishCommand k = g.cohSettle ((h.cmdRun k.kw c.idx 1).engIssue (g.pubRequest k.kw c a data) (.command k.kw c.idx)) := by
  rw [Gikan.pubData] at hd
  simp only [Gikan.publishCommand, hc, if_neg (not_not.mpr hst), hd, ha, Bool.false_eq_true, if_false]
  rfl

end

/-! SCHEDULE (R264) -/

section
variable {g : Gikan} {k : CmdRef} {c : Cmd} (hc : g.cmdReady k opSCHEDULE = some c)
include hc

theorem Gikan.scheduleCommand_refused (hst : g.schedCheck k.kw c ≠ stOK) : g.scheduleCommand k = g.cmdRefused k.kw c (g.schedCheck k.kw c) := by
  simp only [Gikan.scheduleCommand, hc, if_pos hst]

variable (hst : g.schedCheck k.kw c = stOK)
include hst

theorem Gikan.scheduleCommand_unspanned (hcode : g.spanCode k.kw c (c.f 0 8) (c.f 8 4) false ≠ stOK) :
    g.scheduleCommand k = g.cmdRefused k.kw c (g.spanCode k.kw c (c.f 0 8) (c.f 8 4) false) := by
  simp only [Gikan.scheduleCommand, hc, if_neg (not_not.mpr hst), if_pos hcode]

/-- A body that can be read is taken or refused whole. -/
theorem Gikan.scheduleCommand_read {h : Gikan} {b : List Byte} {bad : Bool} {no : Nat}
    (hcode : g.spanCode k.kw c (c.f 0 8) (c.f 8 4) false = stOK) (hr : g.cmdRead c (c.f 0 8) (c.f 8 4) = (h, b, bad))
    (hno : no = if bad then stPOISONED else if c.f 8 4 ≠ 32 + 32 * field b 4 4 then stLENGTH else h.schedRefusal b) :
    g.scheduleCommand k = g.cohSettle (if no ≠ stOK then h.cmdDone k.kw c.idx no else (h.acceptSched k.kw b).cmdDone k.kw c.idx stOK) := by
  subst hno
  simp only [Gikan.scheduleCommand, hc, if_neg (not_not.mpr hst), if_neg (not_not.mpr hcode), hr]

end

/-! LEND (R263) -/

section
variable {g : Gikan} {k : CmdRef} {c : Cmd} {action : Nat} (hc : g.cmdReady k opLEND = some c) (ha : c.f 2 1 = action)
  (hact : action = 1 ∨ action = 2)
include hc ha hact

/-- A LEND command of a row's own action is checked, and its request sent when no code applies. -/
theorem Gikan.lendStart_checked : g.lendStart k action = if g.lendCheck k.kw c ≠ stOK then g.cmdRefused k.kw c (g.lendCheck k.kw c) else
    ((g.cmdRun k.kw c.idx 1).updCmd k.kw c.idx (fun d => { d with sentAt := g.time })).engIssue (lendRequest k.kw c) (.command k.kw c.idx) := by
  have hmine : (if action = 1 then action == 2 else action != 2) = false := by rcases hact with rfl | rfl <;> rfl
  simp only [Gikan.lendStart, hc, ha, hmine, Bool.false_eq_true, if_false]

theorem Gikan.lendStart_refused (hst : g.lendCheck k.kw c ≠ stOK) : g.lendStart k action = g.cmdRefused k.kw c (g.lendCheck k.kw c) :=
  (Gikan.lendStart_checked hc ha hact).trans (if_pos hst)

theorem Gikan.lendStart_sends (hst : g.lendCheck k.kw c = stOK) : g.lendStart k action =
    ((g.cmdRun k.kw c.idx 1).updCmd k.kw c.idx (fun d => { d with sentAt := g.time })).engIssue (lendRequest k.kw c) (.command k.kw c.idx) :=
  (Gikan.lendStart_checked hc ha hact).trans (if_neg (not_not.mpr hst))

end

/-! FENCE (R265) -/

/-- What a FENCE command fences: the nodes that it names in a reach, and else everything. -/
def Gikan.fenceTargets (g : Gikan) (c : Cmd) : List (Option Nat) := if g.on F.MAP_CTRL_REACH then c.fenceNodes.map some else [none]

/-- A FENCE command has begun its fences. -/
def Gikan.fencesBegun (g : Gikan) (kw idx : Nat) (targets : List (Option Nat)) : Gikan :=
  { g with req := { g.req with fences := g.req.fences ++ targets.map (fun t => (⟨kw, idx, g.fenceTags kw t, false⟩ : FenceSt)) } }

section
variable {g : Gikan} {k : CmdRef} {c : Cmd} (hc : g.cmdReady k opFENCE = some c)
include hc

theorem Gikan.fenceCommand_refused (hst : fenceCheck c ≠ stOK) : g.fenceCommand k = g.cmdRefused k.kw c (fenceCheck c) := by
  simp only [Gikan.fenceCommand, hc, if_pos hst]

variable (hst : fenceCheck c = stOK)
include hst

theorem Gikan.fenceCommand_waits (he : g.earlierDone k.kw c.idx = false) : g.fenceCommand k = g := by
  simp only [Gikan.fenceCommand, hc, if_neg (not_not.mpr hst), he, Bool.not_false, if_true]

theorem Gikan.fenceCommand_goes (he : g.earlierDone k.kw c.idx = true) : g.fenceCommand k =
    if (g.fenceTargets c).isEmpty then (g.cmdRun k.kw c.idx 0).fencesMet k.kw c.idx false
    else ((g.cmdRun k.kw c.idx 0).fencesBegun k.kw c.idx (g.fenceTargets c)).fencesSettle := by
  simp only [Gikan.fenceCommand, hc, if_neg (not_not.mpr hst), he, Bool.not_true, Bool.false_eq_true, if_false]
  rfl

end

/-- Settles O42: each command by the first check that it fails, and one that passes by what its start does: the items of a MOVE or FILL
(`Gikan.moverDealt`, `Cmd.itemSpan_holds`), the one request of a PUBLISH or LEND, the body of a SCHEDULE, and the targets of a FENCE. -/
theorem commandStarts : Obligations.CommandStarts := by
  intro s k c kw
  refine ⟨fun op row st hrow hc => ?mover, fun o hx ho => Cmd.itemSpan_holds hx ho,
    fun hc => ⟨fun hst => ?pubRefused, fun h data hst hd => ?pubPoisoned, fun h data a hst hd ha => ?pubSends⟩,
    fun hc => ⟨fun hst => ?schedRefused, fun hst hcode => ?schedUnspanned, fun h b bad hst hcode hr => ⟨fun hno => ?schedBad, fun hno => ?schedTaken⟩⟩,
    fun row hrow hc => ?lend,
    fun hc => ⟨fun hst => ?fenceRefused, fun hst he => ?fenceWaits, fun hst he => ⟨fun hreach hn => ?fenceNone, fun targets ht hne => ?fenceBegins⟩⟩⟩
  case mover =>
    have hrows : exec row s = s.done (s.g.moverStart k op) ∧ s.g.moverCheck op c = st := by
      obtain ⟨rfl, rfl, hst⟩ | ⟨rfl, rfl, hst⟩ := hrow
      · exact ⟨rfl, (if_pos rfl).trans hst.symm⟩
      · exact ⟨rfl, (if_neg (by decide)).trans hst.symm⟩
    obtain ⟨hexec, hcheck⟩ := hrows
    refine ⟨fun hst => hexec.trans (congrArg s.done (Gikan.moverStart_refused hc hcheck hst)), fun b t hst hb => ?_⟩
    obtain ⟨hx, rfl, rfl⟩ | ⟨hx, si, u, hs, hu, rfl⟩ := hb
    · exact hexec.trans (congrArg s.done (Gikan.moverStart_plain hc (hcheck.trans hst) hx))
    · exact hexec.trans (congrArg s.done (Gikan.moverStart_expands hc (hcheck.trans hst) hx hs hu))
  case pubRefused => exact congrArg s.done (Gikan.publishCommand_refused hc hst)
  case pubPoisoned => exact congrArg s.done (Gikan.publishCommand_poisoned hc hst hd)
  case pubSends => exact congrArg s.done (Gikan.publishCommand_sends hc hst hd ha)
  case schedRefused => exact congrArg s.done (Gikan.scheduleCommand_refused hc hst)
  case schedUnspanned => exact congrArg s.done (Gikan.scheduleCommand_unspanned hc hst hcode)
  case schedBad => exact congrArg s.done ((Gikan.scheduleCommand_read hc hst hcode hr rfl).trans (congrArg s.g.cohSettle (if_pos hno)))
  case schedTaken => exact congrArg s.done ((Gikan.scheduleCommand_read hc hst hcode hr rfl).trans (congrArg s.g.cohSettle (if_neg (not_not.mpr hno))))
  case lend =>
    obtain ⟨rfl, ha⟩ | ⟨rfl, ha⟩ := hrow
    · exact ⟨fun hst => congrArg s.done (Gikan.lendStart_refused hc ha (.inl rfl) hst),
        fun hst => congrArg s.done (Gikan.lendStart_sends hc ha (.inl rfl) hst)⟩
    · exact ⟨fun hst => congrArg s.done (Gikan.lendStart_refused hc ha (.inr rfl) hst),
        fun hst => congrArg s.done (Gikan.lendStart_sends hc ha (.inr rfl) hst)⟩
  case fenceRefused => exact congrArg s.done (Gikan.fenceCommand_refused hc hst)
  case fenceWaits => exact congrArg s.done (Gikan.fenceCommand_waits hc hst he)
  case fenceNone =>
    have hnone : s.g.fenceTargets c = [] := by rw [Gikan.fenceTargets, if_pos hreach, hn]; rfl
    exact congrArg s.done ((Gikan.fenceCommand_goes hc hst he).trans (if_pos (by rw [hnone]; rfl)))
  case fenceBegins =>
    subst ht
    exact congrArg s.done ((Gikan.fenceCommand_goes hc hst he).trans (if_neg fun h => hne (List.isEmpty_iff.mp h)))

end Sys2Proof.Machine
end

section
namespace Sys2Proof.Machine

/-! ## Instruction words (R239) -/

theorem bits_eq_div_mod (n lo w : Nat) : bits n lo w = n / 2 ^ lo % 2 ^ w := by rw [bits, Nat.shiftRight_eq_div_pow]

section
variable {i : TI} (hop : i.op < 256) (hpg : i.pg < 8) (hpn : i.pn < 2) (hrd : i.rd < 32) (hra : i.ra < 32) (hrb : i.rb < 32)
  (hrc : i.rc < 32) (himm : i.imm < 2 ^ 32)
include hop hpg hpn hrd hra hrb hrc himm

theorem tiWord_lt : tiWord i < 2 ^ 64 := by rw [tiWord]; omega

/-- The fields that a word holds are those that it was made of. -/
theorem tiOf_tiWord : tiOf (tiWord i) = i := by
  obtain ⟨op, pg, pn, rd, ra, rb, rc, imm⟩ := i
  simp only at hop hpg hpn hrd hra hrb hrc himm
  simp only [tiOf, tiWord, bits_eq_div_mod, TI.mk.injEq]
  refine ⟨?_, ?_, ?_, ?_, ?_, ?_, ?_, ?_⟩ <;> omega

end

theorem tiWord_tiOf {w : Nat} (hw : w < 2 ^ 64) : tiWord (tiOf w) = w := by
  simp only [tiOf, tiWord, bits_eq_div_mod]; omega

/-- Settles O6: the fields lie one above the other in the word, so that each is read back by its place (`tiOf_tiWord`, `tiWord_tiOf`). -/
theorem tumblerWordRoundTrip : Obligations.TumblerWordRoundTrip :=
  ⟨fun _ hop hpg hpn hrd hra hrb hrc himm => ⟨tiWord_lt hop hpg hpn hrd hra hrb hrc himm, tiOf_tiWord hop hpg hpn hrd hra hrb hrc himm⟩,
    fun _ hw => tiWord_tiOf hw⟩

end Sys2Proof.Machine
end

section
namespace Sys2Proof.Machine

/-! ## Scalar instructions (R239 to R243) -/

theorem bit_eq_div_mod (n k : Nat) : bit n k = decide (n / 2 ^ k % 2 = 1) := Nat.testBit_eq_decide_div_mod_eq ..

/-- A row whose instruction only changes its thread. -/
theorem exec_tumbleReg {c : Instr} {core : Fin 2048} {t : Fin 8} {s : State} {th th' : Thread} {i : TI} {op : Nat} {guarded : Bool} {ok : TI → Bool}
    {f : Thread → TI → Thread} (hc : exec c s = s.done (s.g.tumbleReg core t op guarded ok f)) (hop : tumblerOp op = true) (hf : f th.issued i = th')
    (h : s.g.issues core t th i) (hg : guarded = true → bit (th.guard i) 0 = true) (hok : ok i = true) (ho : i.op = op) :
    exec c s = .next (s.withThread core t th') := by
  rw [hc, Gikan.tumbleReg_issues s.g core t op th i guarded ok f h ho hop hg hok, hf]; rfl

theorem okAlu_iff (i : TI) : okAlu i = true ↔ (i.rc = 0 ∧ i.imm = 0) ∨ (i.rc = 1 ∧ i.rb = 0) := by simp [okAlu]

theorem allZero_nil : allZero [] = true := rfl

theorem allZero_cons (n : Nat) (l : List Nat) : allZero (n :: l) = true ↔ n = 0 ∧ allZero l = true := by simp [allZero]

/-- The width that an immediate of one bit selects. -/
theorem dFmt_bit {n : Nat} (h : n ≤ 1) : dFmt (bit n 0) = if n = 1 then .fp64 else .fp32 := by
  interval_cases n <;> rfl

/-- Settles O1: every row is the result that its own function gives for the thread that has issued (`exec_tumbleReg`), the fields that it does
not use being zero. -/
theorem tumblerScalarResults : Obligations.TumblerScalarResults := by
  constructor
  case left =>
    intro core t s th i h hg a b res
    refine ⟨fun hok => ?alu, fun ⟨hrb, hrc, himm⟩ => ?unary, fun ⟨hrb, hrc⟩ => ?immediate⟩
    case alu =>
      have alu {c : Instr} {op v : Nat} {f : Nat → Nat → Nat} (hc : exec c s = s.done (s.g.tAlu core t op f)) (hop : tumblerOp op = true)
          (hf : f a b = v) (ho : i.op = op) : exec c s = res v :=
        exec_tumbleReg hc hop (congrArg (th.issued.setX i.rd) hf) h (fun _ => hg) ((okAlu_iff i).mpr hok) ho
      exact ⟨alu rfl rfl rfl, alu rfl rfl rfl, alu rfl rfl rfl, alu rfl rfl rfl, alu rfl rfl rfl, alu rfl rfl rfl, alu rfl rfl rfl, alu rfl rfl rfl,
        alu rfl rfl rfl, alu rfl rfl rfl, alu rfl rfl rfl, alu rfl rfl rfl, alu rfl rfl rfl, alu rfl rfl rfl⟩
    case unary =>
      have hok : okUn i = true := by simp only [okUn, allZero_cons, allZero_nil, hrb, hrc, himm, and_self]
      refine ⟨fun ho => ?_, fun ho => ?_, fun ho hrd hra => ?_⟩
      · exact exec_tumbleReg rfl rfl rfl h (fun _ => hg) hok ho
      · exact exec_tumbleReg rfl rfl rfl h (fun _ => hg) hok ho
      · exact exec_tumbleReg rfl rfl rfl h (fun _ => hg) (by simp only [allZero_cons, allZero_nil, hrd, hra, hrb, hrc, himm, and_self]) ho
    case immediate =>
      refine ⟨fun ho hra => ?_, fun ho => ?_⟩
      · exact exec_tumbleReg rfl rfl rfl h (fun _ => hg) (by simp only [allZero_cons, allZero_nil, hra, hrb, hrc, and_self]) ho
      · exact exec_tumbleReg rfl rfl rfl h (fun _ => hg) (by simp only [allZero_cons, allZero_nil, hrb, hrc, and_self]) ho
  case right =>
    intro core t s th i h hg himm f x res
    have hfmt : dFmt (bit i.imm 0) = f := dFmt_bit himm
    have harg (r : Nat) : fpArg (bit i.imm 0) (th.issued.xr r) = x r := by rw [fpArg, hfmt]; rfl
    have hres (v : FVal) : fpRes (bit i.imm 0) v = f.encode .ieee v none := by rw [fpRes, hfmt]
    refine ⟨fun ho => ?_, fun hrc => ?_⟩
    · exact exec_tumbleReg rfl rfl (by simp only [harg, hres]) h (fun _ => hg) (decide_eq_true himm) ho
    · have hok : okF2 i = true := by simp only [okF2, hrc, himm, BEq.rfl, decide_true, Bool.and_self]
      have fp2 {c : Instr} {op : Nat} {F : FVal → FVal → FVal} (hc : exec c s = s.done (s.g.tFp2 core t op F)) (hop : tumblerOp op = true)
          (ho : i.op = op) : exec c s = res (F (x i.ra) (x i.rb)) :=
        exec_tumbleReg hc hop (by simp only [harg, hres]) h (fun _ => hg) hok ho
      refine ⟨fp2 rfl rfl, fp2 rfl rfl, fp2 rfl rfl, fp2 rfl rfl, fun ho hrb => ?_, fp2 rfl rfl, fp2 rfl rfl⟩
      exact exec_tumbleReg rfl rfl (by simp only [harg, hres]) h (fun _ => hg) (by rw [hrb, hok]; rfl) ho

end Sys2Proof.Machine
end

section
namespace Sys2Proof.Machine

/-! ## Comparisons, predicates and conversions (R242, R243) -/

theorem bits_zero_of_lt {n w : Nat} (h : n < 2 ^ w) : bits n 0 w = n := by rw [bits_eq_div_mod, pow_zero, Nat.div_one, Nat.mod_eq_of_lt h]

/-! The condition of CMP (R242) -/

section
variable {i : TI} (hrd : i.rd ≤ 7) (hrc : i.rc = 0)
include hrd hrc

theorem okCmp_int (h : i.imm < 8) : okCmp i = true := by
  have h3 : bit i.imm 3 = false := Nat.testBit_lt_two_pow h
  have h4 : bit i.imm 4 = false := Nat.testBit_lt_two_pow (Nat.lt_trans h (by decide))
  have hhigh : i.imm / 32 = 0 := by omega
  simp [okCmp, allZero, hrd, hrc, h3, h4, hhigh]

theorem okCmp_fp (h3 : bit i.imm 3 = true) (h : i.imm < 32) (hne4 : i.imm % 8 ≠ 4) (hne5 : i.imm % 8 ≠ 5) : okCmp i = true := by
  have hhigh : i.imm / 32 = 0 := by omega
  have hc : bits i.imm 0 3 = i.imm % 8 := by rw [bits_eq_div_mod]; omega
  simp [okCmp, allZero, hrd, hrc, h3, hhigh, hc, hne4, hne5]

end

theorem cmpOf_int (th : Thread) {i : TI} (h : i.imm < 8) : cmpOf th i = condInt 64 i.imm (th.xr i.ra) (th.xr i.rb) := by
  have h3 : bit i.imm 3 = false := Nat.testBit_lt_two_pow h
  simp only [cmpOf, h3, bits_zero_of_lt (w := 3) h, Bool.false_eq_true, if_false]

theorem cmpOf_fp (th : Thread) {i : TI} (h3 : bit i.imm 3 = true) (h : i.imm < 32) : cmpOf th i =
    condFp (i.imm % 8) (fpArg (decide (16 ≤ i.imm)) (th.xr i.ra)) (fpArg (decide (16 ≤ i.imm)) (th.xr i.rb)) := by
  have h4 : bit i.imm 4 = decide (16 ≤ i.imm) := by rw [bit_eq_div_mod]; exact decide_eq_decide.mpr (by omega)
  have hc : bits i.imm 0 3 = i.imm % 8 := by rw [bits_eq_div_mod]; omega
  simp only [cmpOf, h3, h4, hc, if_true]

/-- The modes of FCVT (R243): IMM[3:1] is at most 4, and 3 and 4 have IMM[0] clear. -/
theorem okFcvt_modes {i : TI} (hrb : i.rb = 0) (hrc : i.rc = 0) (h : i.imm ≤ 5 ∨ i.imm = 6 ∨ i.imm = 8) : okFcvt i = true := by
  have hm : bits i.imm 1 3 = i.imm / 2 := by rw [bits_eq_div_mod]; omega
  have hhigh : i.imm / 16 = 0 := by omega
  have hle : i.imm / 2 ≤ 4 := by omega
  have h0 : i.imm / 2 ≤ 2 ∨ bit i.imm 0 = false := by
    rw [bit_eq_div_mod, decide_eq_false_iff_not]; omega
  simp [okFcvt, allZero, hrb, hrc, hm, hhigh, hle, h0]

/-! What stops an instruction (R236, R239, R240) -/

/-- A word of another opcode is not the row's, and a guard that is off only moves the PC on. -/
theorem Gikan.tIssue_guardOff {g : Gikan} {core t op : Nat} {th : Thread} {i : TI} (ok : TI → Bool) (run : Gikan → Thread → TI → Gikan)
    (h : g.issues core t th i) (hop : tumblerOp op = true) (hg : bit (th.guard i) 0 = false) :
    g.tIssue core t op true ok run = if i.op = op then g.setThread core t th.issued else if tumblerOp i.op then g
      else g.cohSettle ((g.setThread core t th.issued).pinExc core t 1 stUNSUP) := by
  obtain ⟨hth, hwait, hhasp, hpower, ⟨im, him, hlo, hhi⟩, hi⟩ := h
  have hpc : ¬(th.pc < im.base ∨ im.base + im.count ≤ th.pc) := by omega
  have hstate : decide (2 ≤ g.get F.PWR_STATE_STATE) = false := decide_eq_false (by omega)
  have hwaits : decide (th.wait ≠ .none) = false := decide_eq_false (not_not.mpr hwait)
  simp only [Gikan.tIssue, hth, hwaits, hhasp, hstate, him, hpc, hi, hg, Bool.or_self, Bool.false_eq_true, if_false, Bool.not_false, Bool.and_self,
    if_true]
  by_cases ho : i.op = op
  · simp only [ho, hop, Bool.not_true, Bool.false_eq_true, ne_eq, not_true, if_false, if_true, Thread.issued]
  · cases hany : tumblerOp i.op
    · simp only [ho, Bool.not_false, if_true, if_false, Bool.false_eq_true, Thread.issued]
    · simp only [ho, Bool.not_true, Bool.false_eq_true, ne_eq, not_false_iff, if_true, if_false]

theorem exec_guardOff {c : Instr} {core : Fin 2048} {t : Fin 8} {s : State} {th : Thread} {i : TI} {op : Nat} {ok : TI → Bool}
    {run : Gikan → Thread → TI → Gikan} (hc : exec c s = s.done (s.g.tIssue core t op true ok run)) (hop : tumblerOp op = true)
    (h : s.g.issues core t th i) (hg : bit (th.guard i) 0 = false) :
    exec c s = if i.op = op then .next (s.withThread core t th.issued)
      else if tumblerOp i.op then .next s
      else .next (s.withG (s.g.cohSettle ((s.g.setThread core t th.issued).pinExc core t 1 stUNSUP))) := by
  rw [hc, Gikan.tIssue_guardOff ok run h hop hg]
  split
  · rfl
  · split <;> rfl

/-- Settles O2: each row is what its function gives for the thread that has issued (`exec_tumbleReg`), the condition of CMP by IMM[4:3]
(`cmpOf_int`, `cmpOf_fp`); with the guard off every row comes to the same (`exec_guardOff`). -/
theorem tumblerPredicates : Obligations.TumblerPredicates := by
  constructor
  case left =>
    intro core t s th i h hg hrc all res
    have row {c : Instr} {op : Nat} {ok : TI → Bool} {f : Thread → TI → Thread} {th' : Thread}
        (hc : exec c s = s.done (s.g.tumbleReg core t op true ok f)) (hop : tumblerOp op = true) (hok : ok i = true) (ho : i.op = op)
        (hf : f th.issued i = th') : exec c s = .next (s.withThread core t th') :=
      exec_tumbleReg hc hop hf h (fun _ => hg) hok ho
    refine ⟨fun hrd => ⟨fun ho himm => ?cmpInt, fun ho himm hne4 hne5 => ?cmpFp, fun ho hrb himm => ?cmpi, fun ho hra hrb himm => ?pand,
      fun ho hra hrb himm => ?por, fun ho hra hrb himm => ?pnot, fun ho hrb himm => ?pset⟩, fun ho hra hrb himm => ?pget, fun ho hrb himm => ?fcvt⟩
    case cmpInt => exact row rfl rfl (okCmp_int hrd hrc himm) ho (congrArg (fun b => th.issued.setP i.rd (all b)) (cmpOf_int th himm))
    case cmpFp =>
      have h3 : bit i.imm 3 = true := by rw [bit_eq_div_mod]; exact decide_eq_true (by omega)
      have hlt : i.imm < 32 := by omega
      exact row rfl rfl (okCmp_fp hrd hrc h3 hlt hne4 hne5) ho (congrArg (fun b => th.issued.setP i.rd (all b)) (cmpOf_fp th h3 hlt))
    case cmpi =>
      have hc : bits i.imm 0 3 = i.imm % 8 := by rw [bits_eq_div_mod]; omega
      exact row rfl rfl (by simp [allZero, hrd, hrb, hrc, himm]) ho (by rw [hc]; rfl)
    case pand => exact row rfl rfl (by simp [okP3, allZero, hrd, hra, hrb, hrc, himm]) ho rfl
    case por => exact row rfl rfl (by simp [okP3, allZero, hrd, hra, hrb, hrc, himm]) ho rfl
    case pnot => exact row rfl rfl (by simp [okP3, allZero, hrd, hra, hrb, hrc, himm]) ho rfl
    case pset => exact row rfl rfl (by simp [okUn, allZero, hrd, hrb, hrc, himm]) ho rfl
    case pget => exact row rfl rfl (by simp [okUn, allZero, hra, hrb, hrc, himm]) ho rfl
    case fcvt => exact row rfl rfl (okFcvt_modes hrb hrc himm) ho rfl
  case right =>
    intro core t s th i h hg
    have row {c : Instr} {op : Nat} {ok : TI → Bool} {run : Gikan → Thread → TI → Gikan}
        (hc : exec c s = s.done (s.g.tIssue core t op true ok run)) (hop : tumblerOp op = true) := exec_guardOff hc hop h hg
    have reg {c : Instr} {op : Nat} {ok : TI → Bool} {f : Thread → TI → Thread}
        (hc : exec c s = s.done (s.g.tumbleReg core t op true ok f)) (hop : tumblerOp op = true) := row hc hop
    have inCore {c : Instr} {op : Nat} {ok : TI → Bool} {f : Gikan → Thread → TI → Gikan ⊕ (Nat × Nat)}
        (hc : exec c s = s.done (s.g.tumbleOr core t op true ok f)) (hop : tumblerOp op = true) := row hc hop
    have item {c : Instr} {op : Nat} {ok : TI → Bool} {f : Gikan → Thread → TI → Gikan}
        (hc : exec c s = s.done (s.g.tumble core t op true ok f)) (hop : tumblerOp op = true) := row hc hop
    simp only [List.forall_mem_cons]
    exact ⟨reg rfl rfl, reg rfl rfl, reg rfl rfl, reg rfl rfl, reg rfl rfl, reg rfl rfl, inCore rfl rfl, inCore rfl rfl, row rfl rfl, inCore rfl rfl,
      inCore rfl rfl, inCore rfl rfl, item rfl rfl, item rfl rfl, item rfl rfl, item rfl rfl, inCore rfl rfl,
      fun _ hnil => absurd hnil List.not_mem_nil⟩

end Sys2Proof.Machine
end

section
namespace Sys2Proof.Machine

/-! ## Control instructions (R235, R236, R240, R243) -/

section
variable {c : Instr} {core : Fin 2048} {t : Fin 8} {s : State} {th : Thread} {i : TI} {op : Nat} {guarded : Bool} {ok : TI → Bool}

/-- A row whose instruction issues. -/
theorem exec_tIssue {run : Gikan → Thread → TI → Gikan} {k : Gikan} (hc : exec c s = s.done (s.g.tIssue core t op guarded ok run))
    (hop : tumblerOp op = true) (hk : run s.g th.issued i = k)
    (h : s.g.issues core t th i) (hg : guarded = true → bit (th.guard i) 0 = true) (hok : ok i = true) (ho : i.op = op) :
    exec c s = .next (s.withG k) := by
  rw [hc, Gikan.tIssue_issues s.g core t op th i guarded ok run h ho hop hg hok, hk]; rfl

variable {f : Gikan → Thread → TI → Gikan ⊕ (Nat × Nat)} (hc : exec c s = s.done (s.g.tumbleOr core t op guarded ok f))
include hc

/-- A row whose instruction stays within its core and has its effect. -/
theorem exec_tumbleOr {k : Gikan} (hop : tumblerOp op = true) (hf : f (s.g.setThread core t th.issued) th.issued i = .inl k)
    (h : s.g.issues core t th i) (hg : guarded = true → bit (th.guard i) 0 = true) (hok : ok i = true) (ho : i.op = op) :
    exec c s = .next (s.withG k) := by
  rw [hc, Gikan.tumbleOr_issues s.g core t op th i guarded ok f k h ho hop hg hok hf]; rfl

/-- Such a row that changes its thread alone. -/
theorem exec_tumbleOr_thread {th' : Thread} (hop : tumblerOp op = true)
    (hf : f (s.g.setThread core t th.issued) th.issued i = .inl ((s.g.setThread core t th.issued).setThread core t th'))
    (h : s.g.issues core t th i) (hg : guarded = true → bit (th.guard i) 0 = true) (hok : ok i = true) (ho : i.op = op) :
    exec c s = .next (s.withThread core t th') :=
  (exec_tumbleOr hc hop hf h hg hok ho).trans (by rw [Gikan.setThread_setThread]; rfl)

/-- Such a row that raises an exception. -/
theorem exec_tumbleOr_raises {cause status : Nat} (hop : tumblerOp op = true)
    (hf : f (s.g.setThread core t th.issued) th.issued i = .inr (cause, status))
    (h : s.g.issues core t th i) (hg : guarded = true → bit (th.guard i) 0 = true) (hok : ok i = true) (ho : i.op = op) :
    exec c s = .next (s.withG (s.g.cohSettle ((s.g.setThread core t th.issued).pinExc core t cause status))) :=
  exec_tIssue hc hop (by rw [hf]) h hg hok ho

end

/-! Jumps -/

section
variable {g : Gikan} {th : Thread} {im : KImage} {target : Int} (core t : Nat) (him : g.pin.images.get? th.item.e.slot = some im)
  (hin : (im.base : Int) ≤ target ∧ target < (im.base + im.count : Nat))
include him hin

theorem Gikan.tJump_plain : g.tJump core t th target none = .inl (g.setThread core t { th with pc := target.toNat }) := by
  simp only [Gikan.tJump, him, if_neg (not_or.mpr ⟨not_lt.mpr hin.1, not_le.mpr hin.2⟩)]

theorem Gikan.tJump_link (r : Nat) :
    g.tJump core t th target (some r) = .inl (g.setThread core t { th.setX r (th.last + 1) with pc := target.toNat }) := by
  simp only [Gikan.tJump, him, if_neg (not_or.mpr ⟨not_lt.mpr hin.1, not_le.mpr hin.2⟩)]

end

/-! END (R235) -/

/-- A thread that waits for its stores to end its item. -/
def Thread.ends (th : Thread) (i : TI) : Thread :=
  { th with wait := .ending 0 (bits i.imm 0 8) (th.xr i.ra) (endBytes th (bits i.imm 8 8)) }

section
variable (g : Gikan) (core t : Nat) {th : Thread} {i : TI} (hs : th.storeFault = none)
include hs

theorem Gikan.endItem_waits (ha : th.acc ≠ []) : (g.setThread core t th).endItem core t th i = g.setThread core t (th.ends i) := by
  simp only [Gikan.endItem, hs, Gikan.setThread_setThread, Gikan.tryEnd, Gikan.thread_setThread, List.isEmpty_eq_false_iff.mpr ha, Bool.not_false,
    if_true, Thread.ends]

theorem Gikan.endItem_ends (ha : th.acc = []) : (g.setThread core t th).endItem core t th i =
    (g.setThread core t (th.ends i)).pinFinish core t (bits i.imm 0 8) (th.xr i.ra) (endBytes th (bits i.imm 8 8)) := by
  simp only [Gikan.endItem, hs, Gikan.setThread_setThread, Gikan.tryEnd, Gikan.thread_setThread, ha, List.isEmpty_nil, Bool.not_true,
    Bool.false_eq_true, if_false, if_true, Thread.ends]

end

/-- Settles O3: a jump inside the image (`Gikan.tJump_plain`, `Gikan.tJump_link`), a CSR and a TRAP are what their function gives in the state in
which the thread has issued; END by whether accesses are outstanding (`Gikan.endItem_waits`, `Gikan.endItem_ends`). -/
theorem tumblerControl : Obligations.TumblerControl := by
  constructor
  case left =>
    intro core t s th i im h him hg hrb hrc inside rel
    have hg' : true = true → bit (th.guard i) 0 = true := fun _ => hg
    have him' : (s.g.setThread core t th.issued).pin.images.get? th.issued.item.e.slot = some im := him
    refine ⟨fun ho hrd hra hin => ?br, fun ho hra hin => ?jal, fun ho hrd himm hin => ?jr, fun ho hra v himm hv => ?csrr, fun ho hrd => ?csrw,
      fun ho hrd hra himm => ?trap⟩
    case br =>
      exact exec_tumbleOr_thread rfl rfl (Gikan.tJump_plain core t him' hin) h hg' (by simp [allZero, hrd, hra, hrb, hrc]) ho
    case jal =>
      exact exec_tumbleOr_thread rfl rfl (Gikan.tJump_link core t him' hin i.rd) h hg' (by simp [allZero, hra, hrb, hrc]) ho
    case jr =>
      exact exec_tumbleOr_thread rfl rfl (Gikan.tJump_plain core t him' hin) h hg' (by simp [allZero, hrd, hrb, hrc, himm]) ho
    case csrr =>
      have hcsr : (s.g.setThread core t th.issued).csrValue core t th.issued i.imm = some v := hv
      exact exec_tumbleOr_thread rfl rfl (by rw [hcsr]) h hg' (by simp [allZero, hra, hrb, hrc, himm]) ho
    case csrw =>
      have put {th' : Thread} (himm : i.imm < 256) (hput : th.issued.csrPut i.imm (th.xr i.ra) = some th') :
          exec (.tCsrw core t) s = .next (s.withThread core t th') :=
        exec_tumbleOr_thread rfl rfl (by rw [show th.issued.xr i.ra = th.xr i.ra from rfl, hput]) h hg'
          (by simp [allZero, hrd, hrb, hrc, himm]) ho
      refine ⟨fun himm => put (by omega) (by rw [himm]; rfl), fun himm => put (by omega) (by rw [himm]; rfl), fun n hn himm => put (by omega) ?_⟩
      rw [himm]
      interval_cases n <;> rfl
    case trap =>
      exact exec_tumbleOr_raises rfl rfl rfl h hg' (by simp [allZero, hrd, hra, hrb, hrc, himm]) ho
  case right =>
    intro core t s th i h hg ho hrd hrb hrc hhigh hst hn hs bytes ending
    have hlow : bits i.imm 0 8 = i.imm % 256 := by rw [bits_eq_div_mod]; omega
    have hlen : bits i.imm 8 8 = i.imm / 256 := by rw [bits_eq_div_mod]; omega
    have hends : th.issued.ends i = ending := by rw [Thread.ends, hlow, hlen]; rfl
    have hok : okEnd i = true := by simp [okEnd, allZero, hrd, hrb, hrc, hhigh, hlow, hlen, hst, hn]
    have hs' : th.issued.storeFault = none := hs
    refine ⟨fun ha => ?waits, fun ha => ?ends⟩
    case waits =>
      have hne : th.issued.acc.isEmpty = false := List.isEmpty_eq_false_iff.mpr ha
      refine exec_tIssue rfl rfl ?_ h (fun _ => hg) hok ho
      rw [hne, if_neg Bool.false_ne_true, Gikan.endItem_waits s.g core t hs' ha, hends]
    case ends =>
      have he : th.issued.acc.isEmpty = true := List.isEmpty_iff.mpr ha
      refine exec_tIssue rfl rfl ?_ h (fun _ => hg) hok ho
      simp only [he, if_true, fun g : Gikan => Gikan.endItem_ends (i := i) g core t hs' ha, hends, hlow, hlen]
      rfl

end Sys2Proof.Machine
end

section
namespace Sys2Proof.Machine

/-! ## Scratch (R236, R240, R243) -/

/-- What a store of bytes leaves of a memory. -/
theorem memGet_memPutN (m : List Host.Cell) (a : Nat) (b : List Byte) (x : Nat) :
    memGet (memPutN m a b) x = if a ≤ x ∧ x < a + b.length then b.getD (x - a) 0 else memGet m x := by
  split
  case isTrue h =>
    have := memGet_memPutN_inside m a b (x - a) (by omega)
    rwa [Nat.add_sub_cancel' h.1] at this
  case isFalse h => exact memGet_memPutN_outside m a b (by omega)

@[simp] theorem Gikan.scratch_setThread (g : Gikan) (core t : Nat) (th : Thread) :
    ((g.setThread core t th).pinCore core).scratch = (g.pinCore core).scratch := by
  simp only [Gikan.setThread, Gikan.pinCore_setPinCore]

theorem Gikan.getScratch_setThread (g : Gikan) (core t : Nat) (th : Thread) (a n : Nat) :
    (g.setThread core t th).getScratch core a n = memGetN (g.pinCore core).scratch a n := by
  rw [Gikan.getScratch, Gikan.scratch_setThread]

theorem Gikan.scratch_putScratch (g : Gikan) (core a : Nat) (b : List Byte) :
    ((g.putScratch core a b).pinCore core).scratch = memPutN (g.pinCore core).scratch a b := by
  simp only [Gikan.putScratch, Gikan.pinCore_setPinCore]

theorem Gikan.pinCore_putScratch_ne (g : Gikan) {core c : Nat} (a : Nat) (b : List Byte) (h : c ≠ core) :
    (g.putScratch core a b).pinCore c = g.pinCore c := Gikan.pinCore_setPinCore_ne _ _ h

/-- A scratch instruction at a naturally aligned address within the 64 KiB. -/
theorem tScratch_inside {n a : Nat} {x : Int} (f : Nat → Gikan) (hx : x = a) (ha : a % n = 0) (hn : a + n ≤ 65536) : tScratch n x f = .inl (f a) := by
  subst hx
  have hgood : ¬((a : Int) < 0 ∨ 65536 < (a : Int) + n ∨ (a : Int) % n ≠ 0) := by
    rw [← Int.natCast_emod, ha]; omega
  rw [tScratch, if_neg hgood, Int.toNat_natCast]

/-! ## Memory accesses (R236, R245, R246) -/

/-- A row whose effect is a step of the thread's work item. -/
theorem exec_tumble {c : Instr} {core : Fin 2048} {t : Fin 8} {s : State} {th : Thread} {i : TI} {op : Nat} {guarded : Bool} {ok : TI → Bool}
    {eff : Gikan → Thread → TI → Gikan} {f : Gikan → Gikan} (hc : exec c s = s.done (s.g.tumble core t op guarded ok eff))
    (hop : tumblerOp op = true) (hf : eff ((s.g.asItem (threadKey core t th.item.id)).setThread core t th.issued) th.issued i =
      f ((s.g.asItem (threadKey core t th.item.id)).setThread core t th.issued))
    (h : s.g.issues core t th i) (hg : guarded = true → bit (th.guard i) 0 = true) (hok : ok i = true) (ho : i.op = op) :
    exec c s = .next (s.withG (s.g.itemStep (threadKey core t th.item.id) (fun h => f (h.setThread core t th.issued)))) := by
  rw [hc, Gikan.tumble_issues s.g core t op th i guarded ok eff h ho hop hg hok, Gikan.itemStep, hf]; rfl

/-! Addresses -/

theorem Thread.memAddr_inside {th : Thread} {i : TI} {o : Nat} (ho : (addrOff (th.xr i.ra) : Int) + sext i.imm 32 = o) (hlt : o < 2 ^ 48) :
    th.memAddr i = some (mkAddr (addrNode (th.xr i.ra)) o) := by
  have hin : ¬((o : Int) < 0 ∨ ((2 ^ 48 : Nat) : Int) ≤ o) := by omega
  rw [Thread.memAddr, ho]
  exact (if_neg hin).trans (by rw [Int.toNat_natCast])

/-- The node bits leave an address as aligned as its sum was. -/
theorem mkAddr_aligned {x o n : Nat} {d : Int} (ho : (addrOff x : Int) + d = o) (hn : n ∣ 2 ^ 48) (ha : ((x : Int) + d) % n = 0) :
    mkAddr (addrNode x) o % n = 0 := by
  have hx : n ∣ 2 ^ 48 * (x / 2 ^ 48) := hn.mul_right _
  have hsum : (n : Int) ∣ (o : Int) + ((2 ^ 48 * (x / 2 ^ 48) : Nat) : Int) := by
    have : (o : Int) + ((2 ^ 48 * (x / 2 ^ 48) : Nat) : Int) = (x : Int) + d := by
      rw [← ho, addrOff, bits_eq_div_mod]; omega
    rw [this]; exact Int.dvd_of_emod_eq_zero ha
  have hoff : n ∣ o := Int.natCast_dvd_natCast.mp ((Int.dvd_add_left (Int.natCast_dvd_natCast.mpr hx)).mp hsum)
  exact Nat.mod_eq_zero_of_dvd (Nat.dvd_add (hn.mul_left _) ((Nat.dvd_mod_iff hn).mpr hoff))

/-! An access that nothing stops -/

section
variable (g : Gikan) (core t : Nat) {th : Thread} {posts : Bool} (hs : th.storeFault = none)
  (hroom : posts = true → (th.acc.filter (fun a => a.kind == .store)).length < 16)
include hs hroom

theorem Gikan.tMem_goes {align a : Nat} (ha : a % align = 0) (f : Nat → Gikan) :
    g.tMem core t th posts false align false (some a) f = f a := by
  have hfree : (posts && decide (16 ≤ (th.acc.filter (fun a => a.kind == .store)).length)) = false := by
    cases posts
    case false => rfl
    case true => exact decide_eq_false (Nat.not_le.mpr (hroom rfl))
  simp only [Gikan.tMem, hs, hfree, Bool.false_eq_true, if_false, ha, ne_eq, not_true]

theorem Gikan.tAligned_goes {i : TI} {n a : Nat} (hal : th.addr i % n = 0) (hm : th.memAddr i = some a) (ha : a % n = 0) (f : Nat → Gikan) :
    g.tAligned core t th i posts n f = f a := by
  simp only [Gikan.tAligned, hal, ne_eq, not_true, decide_false, Bool.and_false, Bool.false_eq_true, if_false, hm]
  exact Gikan.tMem_goes g core t hs hroom ha f

end

/-! The access controls in RB (R245) -/

section
variable {i : TI} (h : i.rb < 16)
include h

theorem rbTc_eq : rbTc i = if i.rb < 8 then 2 else 3 := by
  have h3 : bit i.rb 3 = !decide (i.rb < 8) := by rw [bit_eq_div_mod, ← decide_not]; exact decide_eq_decide.mpr (by omega)
  rw [rbTc, h3]; by_cases hlt : i.rb < 8 <;> simp [hlt]

theorem okRb_lt : okRb i = true := by
  rw [okRb, show bit i.rb 4 = false from Nat.testBit_lt_two_pow h]; rfl

end

theorem rbWs_eq (i : TI) : rbWs i = i.rb % 4 := by rw [rbWs, bits_eq_div_mod]; omega

/-! The rows that make an access -/

/-- The state in which a thread that has issued makes an access, as a step of its work item. -/
def State.accesses (s : State) (core t : Nat) (th : Thread) (k : AccKind) (q : Bool) (r : Req) : State :=
  s.withG (s.g.itemStep (threadKey core t th.item.id) (fun h => (h.setThread core t th.issued).pinAccess core t k q r))

section
variable {c : Instr} {core : Fin 2048} {t : Fin 8} {s : State} {th : Thread} {i : TI} {op : Nat} {ok : TI → Bool} {posts q : Bool}
  {kind : AccKind} {r : Nat → Req} {a : Nat} {eff : Gikan → Thread → TI → Gikan} (hc : exec c s = s.done (s.g.tumble core t op true ok eff))
  (hop : tumblerOp op = true) (h : s.g.issues core t th i) (hg : bit (th.guard i) 0 = true) (hok : ok i = true) (ho : i.op = op)
  (hs : th.storeFault = none) (hroom : posts = true → (th.acc.filter (fun c => c.kind == .store)).length < 16)
include hc hop h hg hok ho hs hroom

theorem exec_tMem {align : Nat}
    (heff : ∀ k, (k.pinCore core).scratch = (s.g.pinCore core).scratch → eff k th.issued i =
      k.tMem core t th.issued posts false align false (some a) (fun a => k.pinAccess core t kind q (r a))) (ha : a % align = 0) :
    exec c s = .next (s.accesses core t th kind q (r a)) :=
  exec_tumble (f := fun k => k.pinAccess core t kind q (r a)) hc hop 
    ((heff _ (Gikan.scratch_setThread (s.g.asItem (threadKey core t th.item.id)) core t th.issued)).trans
      (Gikan.tMem_goes _ core t (th := th.issued) hs hroom ha _)) h (fun _ => hg) hok ho

theorem exec_tAligned {n : Nat} (heff : ∀ k, eff k th.issued i =
      k.tAligned core t th.issued i posts n (fun a => k.pinAccess core t kind q (r a)))
    (hm : th.memAddr i = some a) (ha : a % n = 0) (hal : th.addr i % n = 0) :
    exec c s = .next (s.accesses core t th kind q (r a)) :=
  exec_tumble (f := fun k => k.pinAccess core t kind q (r a)) hc hop ((heff _).trans (Gikan.tAligned_goes _ core t (th := th.issued) hs hroom hal hm ha _)) h (fun _ => hg) hok ho

end

/-- Settles O4: a scratch instruction is its effect at its address (`tScratch_inside`), a store there by what storing bytes leaves of a memory
(`memGet_memPutN`); a memory instruction that nothing stops makes its access (`exec_tMem`, `exec_tAligned`) at an address that is as aligned as
its sum (`mkAddr_aligned`). -/
theorem tumblerMemoryAndScratch : Obligations.TumblerMemoryAndScratch := by
  refine ⟨?scratch, fun g core a b x => ⟨?_, rfl, rfl, fun c hc => g.pinCore_putScratch_ne a b hc⟩, ?memory⟩
  case scratch =>
    intro core t s th i a h hg hrb ha n
    have hg' : true = true → bit (th.guard i) 0 = true := fun _ => hg
    have haddr : th.issued.addr i = a := ha
    refine ⟨fun hrc hal hin ho => ?sld, fun hrc hal hin ho => ?sst, fun hrc hrd hal hin ho => ?vsld, fun hrc hrd hal hin ho => ?vsst⟩
    case sld =>
      have hsext : bit i.rc 2 = decide (4 ≤ i.rc) := by rw [bit_eq_div_mod]; exact decide_eq_decide.mpr (by omega)
      refine exec_tumbleOr_thread rfl rfl ((tScratch_inside _ haddr hal hin).trans ?_) h hg' (by simp [allZero, hrb]; omega) ho
      simp only [hsext, decide_eq_true_eq, Gikan.getScratch_setThread]
      rfl
    case sst => exact exec_tumbleOr rfl rfl (tScratch_inside _ haddr hal hin) h hg' (by simp [allZero, hrb]; omega) ho
    case vsld =>
      refine exec_tumbleOr_thread rfl rfl ((tScratch_inside _ haddr hal hin).trans ?_) h hg' (by simp [vregs, allZero, hrb, hrc, hrd]) ho
      rw [Gikan.getScratch_setThread]
    case vsst => exact exec_tumbleOr rfl rfl (tScratch_inside _ haddr hal hin) h hg' (by simp [vregs, allZero, hrb, hrc, hrd]) ho
  · rw [g.scratch_putScratch]; exact memGet_memPutN ..
  case memory =>
    intro core t s th i o h hg hs step a n len ward tc q req goes room
    have hg' : true = true → bit (th.guard i) 0 = true := fun _ => hg
    have free : false = true → (th.acc.filter (fun c => c.kind == .store)).length < 16 := fun hf => absurd hf Bool.false_ne_true
    refine ⟨fun hoff hlt hrb => ?access, fun ho hrc himm hal => ?atom, fun ho hrb hrc hrd acc elems hslot hsum hlt hal => ?ldslot,
      fun ho hrd hra hrb hrc himm => ?fence⟩
    case access =>
      have hm : th.memAddr i = some a := Thread.memAddr_inside hoff hlt
      have hreq (type m : Nat) (data : List Byte) : accReq th type (rbTc i) a m 0 (rbWs i) [] data = req type m data := by
        rw [accReq, rbTc_eq hrb, rbWs_eq]
      have hgoes {k : AccKind} {r r' : Req} (hr : r = r') : Host.Outcome.next (s.accesses core t th k (rbQ i) r) = goes k r' := by
        rw [hr]; rfl
      have hpow : n ∣ 2 ^ 48 := Nat.pow_dvd_pow 2 (by omega)
      have hrb' := okRb_lt hrb
      have hspan (hlong : len ≤ 4096) (h0 : 0 < len) (hin : th.xr i.rd + len ≤ 65536) (k : Gikan) (posts : Bool) (f : Nat → Gikan) :
          k.tMem core t th.issued posts (decide (65536 < th.xr i.rd + len)) 1 (len == 0 || decide (4096 < len)) (th.memAddr i) f =
            k.tMem core t th.issued posts false 1 false (some a) f := by
        have hrange : (len == 0 || decide (4096 < len)) = false := by simp; omega
        rw [hm, hrange, decide_eq_false (Nat.not_lt.mpr hin)]
      refine ⟨fun ho hrc hal => ?ld, fun ho hrc hr hal => ?st, fun ho hrc hrd hal => ?vld, fun ho hrc hrd hr hal => ?vst,
        fun ho h0 hlong hin => ?get, fun ho h0 hlong hin hr => ?put⟩
      case ld =>
        have hsext : bit i.rc 2 = decide (4 ≤ i.rc) := by rw [bit_eq_div_mod]; exact decide_eq_decide.mpr (by omega)
        rw [← hsext]
        exact (exec_tAligned rfl rfl h hg (by simp [hrb']; omega) ho hs free (fun k => rfl) hm (mkAddr_aligned hoff hpow hal) hal).trans
          (hgoes (hreq ..))
      case st =>
        exact (exec_tAligned rfl rfl h hg (by simp [hrb']; omega) ho hs (fun _ => hr) (fun k => rfl) hm (mkAddr_aligned hoff hpow hal) hal).trans
          (hgoes (hreq ..))
      case vld =>
        exact (exec_tAligned rfl rfl h hg (by simp [vregs, hrb', hrc, hrd]) ho hs free (fun k => rfl) hm
          (mkAddr_aligned hoff (by decide) hal) hal).trans (hgoes (hreq ..))
      case vst =>
        exact (exec_tAligned rfl rfl h hg (by simp [vregs, hrb', hrc, hrd]) ho hs (fun _ => hr) (fun k => rfl) hm
          (mkAddr_aligned hoff (by decide) hal) hal).trans (hgoes (hreq ..))
      case get =>
        exact (exec_tMem rfl rfl h hg hrb' ho hs free (fun k _ => hspan hlong h0 hin k _ _) (Nat.mod_one _)).trans (hgoes (hreq ..))
      case put =>
        refine (exec_tMem (posts := true) (r := fun a => accReq th tyWRITE (rbTc i) a len 0 (rbWs i) [] (memGetN (s.g.pinCore core).scratch (th.xr i.rd) len))
          rfl rfl h hg hrb' ho hs (fun _ => hr) (fun k hk => ?_) (Nat.mod_one _)).trans (hgoes (hreq ..))
        rw [← hk]
        exact hspan hlong h0 hin k _ _
    case atom =>
      have hn : 2 ^ i.rc = n := congrArg (2 ^ ·) (by omega)
      have hq : bit i.imm 10 = decide (1024 ≤ i.imm) := by rw [bit_eq_div_mod]; exact decide_eq_decide.mpr (by omega)
      have hsub : bits i.imm 0 8 = i.imm % 256 := by rw [bits_eq_div_mod]; omega
      have hward : bits i.imm 8 2 = i.imm / 256 % 4 := by rw [bits_eq_div_mod]; omega
      rw [← hn] at hal
      refine (exec_tMem rfl rfl h hg (by simp; omega) ho hs free (fun k _ => rfl) hal).trans ?_
      rw [hq, hsub, hward, atomBody, hsub, hn]
      rfl
    case ldslot =>
      have hslot' : (s.g.setThread core t th.issued).slotOf th.issued = some (acc, elems) := hslot
      have haddr : th.issued.addr i = o := hsum
      have hin : ¬((o : Int) < 0 ∨ ((4 * elems : Nat) : Int) ≤ o ∨ (o : Int) % 32 ≠ 0) := by omega
      refine exec_tumbleOr_thread rfl rfl ?_ h hg' (by simp [vregs, allZero, hrb, hrc, hrd]) ho
      simp only [hslot', haddr, if_neg hin, Int.toNat_natCast]
    case fence =>
      have hok : allZero [i.rd, i.ra, i.rb, i.rc, i.imm] = true := by simp [allZero, hrd, hra, hrb, hrc, himm]
      have hs' : th.issued.storeFault = none := hs
      refine ⟨fun ha => ?goesOn, fun ha => ?parks⟩
      case goesOn =>
        have he : th.issued.acc.isEmpty = true := List.isEmpty_iff.mpr ha
        refine exec_tumbleOr rfl rfl ?_ h hg' hok ho
        simp only [he, Bool.not_true, Bool.false_eq_true, if_false, hs']
      case parks =>
        have hne : th.issued.acc.isEmpty = false := List.isEmpty_eq_false_iff.mpr ha
        refine exec_tumbleOr_thread rfl rfl ?_ h hg' hok ho
        simp only [hne, Bool.not_false, if_true]

end Sys2Proof.Machine
end

section
namespace Sys2Proof.Machine

/-! ## Elements (R240, R241) -/

theorem velem_lt (w v k : Nat) : velem w v k < 2 ^ w := bits_lt ..

theorem bit_seven {b : Nat} (h : b < 2 ^ 8) : bit b 7 = decide (128 ≤ b) := by
  rw [bit_eq_div_mod]; exact decide_eq_decide.mpr (by omega)

theorem etOf_eq (i : TI) : etOf i = i.imm % 16 := by rw [etOf, bits_eq_div_mod, pow_zero, Nat.div_one]; rfl

theorem shlElem_mod (w n a : Nat) : shlElem w n a % 2 ^ w = (if w ≤ n then 0 else a * 2 ^ n) % 2 ^ w := by
  rw [shlElem]
  split
  · rfl
  · exact Nat.mod_mod ..

theorem etFmt_int {e : Nat} (h : e ≤ 3) : etFmt e = none := by interval_cases e <;> rfl

theorem elem2_int {e : Nat} (h : e ≤ 3) (fi : Int → Int → Int) (ff : FVal → FVal → FVal) (a b : Nat) :
    elem2 e fi ff a b = toBits (fi (sext a (etBits e)) (sext b (etBits e))) (etBits e) := by rw [elem2, etFmt_int h]

theorem elem2_fp {e : Nat} {f : FFmt} (h : etFmt e = some f) (fi : Int → Int → Int) (ff : FVal → FVal → FVal) (a b : Nat) :
    elem2 e fi ff a b = f.encode .ieee (ff (f.decode a) (f.decode b)) none := by rw [elem2, h]

/-! Integers wrap at their width -/

theorem sext_modEq (n w : Nat) : sext n w ≡ n [ZMOD (2 ^ w : Nat)] := by
  have hn : ((n % 2 ^ w : Nat) : Int) ≡ n [ZMOD (2 ^ w : Nat)] := by rw [Int.natCast_emod]; exact Int.mod_modEq ..
  simp only [sext]
  split
  · exact hn
  · refine Int.ModEq.trans (Int.modEq_iff_dvd.mpr ⟨1, ?_⟩) hn
    push_cast; ring

theorem toBits_of_modEq {x : Int} {n w : Nat} (h : x ≡ n [ZMOD (2 ^ w : Nat)]) : toBits x w = n % 2 ^ w := by
  rw [toBits, h, ← Int.natCast_emod, Int.toNat_natCast]

theorem toBits_add (a b w : Nat) : toBits (sext a w + sext b w) w = (a + b) % 2 ^ w :=
  toBits_of_modEq (by rw [Nat.cast_add]; exact (sext_modEq a w).add (sext_modEq b w))

theorem toBits_mul (a b w : Nat) : toBits (sext a w * sext b w) w = a * b % 2 ^ w :=
  toBits_of_modEq (by rw [Nat.cast_mul]; exact (sext_modEq a w).mul (sext_modEq b w))

theorem toBits_sub {a b w : Nat} (hb : b < 2 ^ w) : toBits (sext a w - sext b w) w = (a + 2 ^ w - b) % 2 ^ w := by
  refine toBits_of_modEq (((sext_modEq a w).sub (sext_modEq b w)).trans ?_)
  rw [Nat.cast_sub (by omega), Nat.cast_add, Int.modEq_iff_dvd]
  exact ⟨1, by ring⟩

theorem toBits_sext (a w : Nat) : toBits (sext a w) w = a % 2 ^ w := toBits_of_modEq (sext_modEq a w)

theorem toBits_min (a b w : Nat) : toBits (min (sext a w) (sext b w)) w = (if sext a w ≤ sext b w then a else b) % 2 ^ w := by
  split
  case isTrue h => rw [min_eq_left h, toBits_sext]
  case isFalse h => rw [min_eq_right (le_of_not_ge h), toBits_sext]

theorem toBits_max (a b w : Nat) : toBits (max (sext a w) (sext b w)) w = (if sext a w ≤ sext b w then b else a) % 2 ^ w := by
  split
  case isTrue h => rw [max_eq_right h, toBits_sext]
  case isFalse h => rw [max_eq_left (le_of_not_ge h), toBits_sext]

/-! Predicates of one bit an element (R242) -/

/-- The predicate whose bits below `n` are those for which `p` holds. -/
def predBits (n : Nat) (p : Nat → Bool) : Nat := (List.range n).foldl (fun v k => if p k then v + 2 ^ k else v) 0

theorem predBits_succ (n : Nat) (p : Nat → Bool) : predBits (n + 1) p = if p n then predBits n p + 2 ^ n else predBits n p := by
  rw [predBits, List.range_succ, List.foldl_append]; rfl

theorem predBits_lt (n : Nat) (p : Nat → Bool) : predBits n p < 2 ^ n := by
  induction n with
  | zero => exact Nat.one_pos
  | succ n ih => rw [predBits_succ, Nat.pow_succ]; split <;> omega

theorem testBit_predBits (n : Nat) (p : Nat → Bool) (k : Nat) : (predBits n p).testBit k = (decide (k < n) && p k) := by
  induction n with
  | zero => simp [predBits]
  | succ n ih =>
    have hset : (predBits n p + 2 ^ n).testBit k = (decide (n = k) || (predBits n p).testBit k) := by
      have hor := Nat.two_pow_add_eq_or_of_lt (predBits_lt n p) 1
      rw [Nat.mul_one] at hor
      rw [Nat.add_comm, hor, Nat.testBit_or, Nat.testBit_two_pow]
    have hlow : (predBits n p).testBit n = false := Nat.testBit_lt_two_pow (predBits_lt n p)
    rw [predBits_succ]
    by_cases hk : n = k
    case pos => subst hk; split <;> simp_all
    case neg =>
      have hlt : k < n + 1 ↔ k < n := by omega
      split <;> simp [hset, ih, hk, hlt]

/-! ## Vector instructions (R240 to R244) -/

section
variable {c : Instr} {core : Fin 2048} {t : Fin 8} {s : State} {th : Thread} {i : TI} {op : Nat} {ok : TI → Bool}

/-- A row whose instruction puts new elements where the guard is 1. -/
theorem exec_lanes {F : Thread → TI → Thread} {w : Nat} {f' f : Nat → Nat} (hc : exec c s = s.done (s.g.tumbleReg core t op false ok F))
    (hop : tumblerOp op = true) (hF : F th.issued i = th.issued.setV i.rd (vput w (th.guard i) (th.vr i.rd) f')) (hw : w ∣ 256)
    (hf : ∀ k, f' k % 2 ^ w = f k % 2 ^ w) (h : s.g.issues core t th i) (hok : ok i = true) (ho : i.op = op) : s.lanes core t th i c w f := by
  refine ⟨vput w (th.guard i) (th.vr i.rd) f', vput_lt _ _ _ _ hw, fun k hk => ?_,
    exec_tumbleReg hc hop hF h (fun hg => absurd hg Bool.false_ne_true) hok ho⟩
  rw [velem_vput _ _ _ _ _ hk, hf]

/-- A two-source row. -/
theorem exec_tVec2 {types : Nat → Bool} {F : Nat → Nat → Nat → Nat} {f : Nat → Nat} (hc : exec c s = s.done (s.g.tVec2 core t op types F))
    (hop : tumblerOp op = true)
    (hf : ∀ k, F i.imm (velem (etBits i.imm) (th.vr i.ra) k) (velem (etBits i.imm) (th.vr i.rb) k) % 2 ^ etBits i.imm = f k % 2 ^ etBits i.imm)
    (htypes : types i.imm = true) (h : s.g.issues core t th i) (hrd : i.rd ≤ 15) (hra : i.ra ≤ 15) (hrb : i.rb ≤ 15) (hrc : i.rc = 0)
    (himm : i.imm < 16) (ho : i.op = op) : s.lanes core t th i c (etBits i.imm) f := by
  have he : etOf i = i.imm := (etOf_eq i).trans (Nat.mod_eq_of_lt himm)
  have hhigh : i.imm / 16 = 0 := by omega
  refine exec_lanes hc hop (by simp only [he]; rfl) (etBits_dvd _) hf h ?_ ho
  simp [vregs, allZero, hrd, hra, hrb, hrc, hhigh, he, htypes]

end

/-- Settles O5: an instruction on elements by what it puts into each active one (`exec_lanes`), integers wrapping at their width (`toBits_of_modEq`);
VCMP by the bits of its predicate (`testBit_predBits`); VEXT, VRED and VCVT are what their function gives. -/
theorem tumblerVectors : Obligations.TumblerVectors := by
  refine ⟨?two, ?one, ?across⟩
  case two =>
    intro core t s th i h hrd hra hrb hrc himm w a b
    have row {c : Instr} {op : Nat} {types : Nat → Bool} {F : Nat → Nat → Nat → Nat} {f : Nat → Nat}
        (hc : exec c s = s.done (s.g.tVec2 core t op types F)) (hop : tumblerOp op = true) (htypes : types i.imm = true)
        (hf : ∀ k, F i.imm (a k) (b k) % 2 ^ w = f k % 2 ^ w) (ho : i.op = op) : s.lanes core t th i c w f :=
      exec_tVec2 hc hop hf htypes h hrd hra hrb hrc himm ho
    refine ⟨fun he => ?ints, fun f hlo hhi hf => ?floats⟩
    case ints =>
      have hint : isInt i.imm = true := decide_eq_true he
      have het : isEt i.imm = true := decide_eq_true (Nat.le_trans he (by decide))
      refine ⟨row rfl rfl het fun k => ?add, row rfl rfl het fun k => ?sub, row rfl rfl het fun k => ?mul, row rfl rfl het fun k => ?min,
        row rfl rfl het fun k => ?max, row rfl rfl hint fun k => rfl, row rfl rfl hint fun k => rfl, row rfl rfl hint fun k => rfl⟩
      case add => rw [elem2_int he, toBits_add, Nat.mod_mod]
      case sub => rw [elem2_int he, toBits_sub (velem_lt ..), Nat.mod_mod]
      case mul => rw [elem2_int he, toBits_mul, Nat.mod_mod]
      case min => rw [elem2_int he, toBits_min, Nat.mod_mod]
      case max => rw [elem2_int he, toBits_max, Nat.mod_mod]
    case floats =>
      intro x y r
      have het : isEt i.imm = true := decide_eq_true hhi
      have hfp : isFp i.imm = true := Bool.and_eq_true_iff.mpr ⟨decide_eq_true hlo, decide_eq_true hhi⟩
      have arith {c : Instr} {op : Nat} {types : Nat → Bool} {fi : Int → Int → Int} {ff : FVal → FVal → FVal}
          (hc : exec c s = s.done (s.g.tVec2 core t op types (fun e => elem2 e fi ff))) (hop : tumblerOp op = true) (htypes : types i.imm = true) :
          i.op = op → s.lanes core t th i c w (fun k => r (ff (x k) (y k))) :=
        row hc hop htypes (fun k => by rw [elem2_fp hf])
      refine ⟨arith rfl rfl het, arith rfl rfl het, arith rfl rfl het, arith rfl rfl het, arith rfl rfl het, arith rfl rfl hfp, fun ho hrb0 => ?sqrt⟩
      have he : etOf i = i.imm := (etOf_eq i).trans (Nat.mod_eq_of_lt himm)
      have hhigh : i.imm / 16 = 0 := by omega
      refine exec_lanes rfl rfl (by simp only [he, hf]; rfl) (etBits_dvd _) (fun k => rfl) h ?_ ho
      simp [vregs, allZero, hrd, hra, hrb0, hrc, hhigh, he, hfp]
  case one =>
    intro core t s th i h hrd w a n
    have he : etOf i = i.imm % 16 := etOf_eq i
    have hcount : bits i.imm 8 6 = n := bits_eq_div_mod ..
    refine ⟨fun hra hrb hrc het hmid => ?unary, fun hrb hrc himm ho => ?splat, fun hra hrb hrc himm ho => ?perm,
      fun f hra hrb hrc hlo hhi hf ho => ?fma, fun hra hrb hrc himm ho => ?dot⟩
    case unary =>
      have het' : isEt (i.imm % 16) = true := decide_eq_true het
      have hmid' : bits i.imm 4 4 = 0 := (bits_eq_div_mod ..).trans hmid
      refine ⟨fun ho himm => ?shl, fun ho himm => ?shr, fun ho hbit himm => ?sar, fun ho himm => ?mov, fun ho himm hlt hg => ?ins⟩
      case shl =>
        have hhigh : i.imm < 16384 := himm
        refine exec_lanes rfl rfl rfl (etBits_dvd _) (fun k => ?_) h (by simp [vregs, allZero, hrd, hra, hrb, hrc, hmid', hhigh, he, het']) ho
        rw [hcount]
        exact shlElem_mod ..
      case shr =>
        have hhigh : i.imm < 32768 := by omega
        have hfill : bit i.imm 14 = false := Nat.testBit_lt_two_pow himm
        refine exec_lanes rfl rfl rfl (etBits_dvd _) (fun k => ?_) h (by simp [vregs, allZero, hrd, hra, hrb, hrc, hmid', hhigh, he, het']) ho
        rw [hcount, hfill]; rfl
      case sar =>
        have hhigh : i.imm < 32768 := by omega
        have hfill : bit i.imm 14 = true := by rw [bit_eq_div_mod]; exact decide_eq_true (by omega)
        refine exec_lanes rfl rfl rfl (etBits_dvd _) (fun k => ?_) h (by simp [vregs, allZero, hrd, hra, hrb, hrc, hmid', hhigh, he, het']) ho
        rw [hcount, hfill]; rfl
      case mov =>
        have hhigh : i.imm / 16 = 0 := by omega
        exact exec_lanes rfl rfl rfl (etBits_dvd _) (fun k => rfl) h (by simp [vregs, allZero, hrd, hra, hrb, hrc, hhigh, he, het']) ho
      case ins =>
        have hhigh : i.imm < 8192 := himm
        have hidx : bits i.imm 8 5 = i.imm / 256 := by rw [bits_eq_div_mod]; omega
        have hok : (vregs [i.rd] && okIndex i) = true := by
          simp [vregs, okIndex, allZero, hrd, hrb, hrc, hmid', hhigh, he, het', hidx, hlt]
        refine ⟨vput w (2 ^ (i.imm / 256)) (th.vr i.rd) (fun _ => th.xr i.ra), vput_lt _ _ _ _ (etBits_dvd _), fun k hk => ?_,
          exec_tumbleReg rfl rfl ?_ h (fun hf => absurd hf Bool.false_ne_true) hok ho⟩
        · rw [velem_vput _ _ _ _ _ hk, bit, Nat.testBit_two_pow]
          simp only [decide_eq_true_eq, @eq_comm _ (i.imm / 256)]
        · have hg' : bit (th.issued.guard i) (i.imm / 256) = true := hg
          simp only [hidx, hg', if_true, he]
          rfl
    case splat =>
      have hhigh : i.imm / 16 = 0 := by omega
      have het : isEt (etOf i) = true := decide_eq_true (by omega)
      exact exec_lanes rfl rfl rfl (etBits_dvd _) (fun k => rfl) h (by simp [vregs, allZero, hrd, hrb, hrc, hhigh, het]) ho
    case perm =>
      refine exec_lanes rfl rfl rfl (by decide) (fun k => ?_) h (by simp [vregs, allZero, hrd, hra, hrb, hrc, himm]) ho
      simp only [bit_seven (velem_lt 8 _ k), decide_eq_true_eq]
      rfl
    case fma =>
      have hi : etOf i = i.imm := he.trans (Nat.mod_eq_of_lt (by omega))
      have hhigh : i.imm / 16 = 0 := by omega
      have hfp : isFp (etOf i) = true := by rw [hi]; exact Bool.and_eq_true_iff.mpr ⟨decide_eq_true hlo, decide_eq_true hhi⟩
      have hfmt : etFmt (etOf i) = some f := by rw [hi]; exact hf
      refine exec_lanes rfl rfl (by simp only [hfmt]; rfl) (etBits_dvd _) (fun k => rfl) h ?_ ho
      simp [vregs, hrd, hra, hrb, hrc, hhigh, hfp]
    case dot =>
      have hi : etOf i = i.imm := he.trans (Nat.mod_eq_of_lt (by omega))
      have hhigh : i.imm / 16 = 0 := by omega
      refine exec_lanes rfl rfl (by simp only [hi]; rfl) (by decide) (fun k => rfl) h ?_ ho
      simp [vregs, allZero, hrd, hra, hrb, hrc, hhigh, hi]
      omega
  case across =>
    intro core t s th i h hra hrc e w a
    have he : etOf i = e := etOf_eq i
    have row {c : Instr} {op : Nat} {ok : TI → Bool} {F : Thread → TI → Thread} {th' : Thread}
        (hc : exec c s = s.done (s.g.tumbleReg core t op false ok F)) (hop : tumblerOp op = true) (hF : F th.issued i = th') (hok : ok i = true)
        (ho : i.op = op) : exec c s = .next (s.withThread core t th') :=
      exec_tumbleReg hc hop hF h (fun hf => absurd hf Bool.false_ne_true) hok ho
    refine ⟨fun ho hrd hrb himm hint => ?cmpInt, fun ho hrd hrb himm hlo hhi hne4 hne5 f hf => ?cmpFp, fun ho hrb hmid himm het hlt hg => ?ext,
      fun ho hrb himm het => ?red, fun ho hrd hrb himm hsrc hdst hrange => ?cvt⟩
    case cmpInt =>
      have hc : bits i.imm 4 3 = i.imm / 16 := by rw [bits_eq_div_mod]; omega
      have hin : isInt e = true := decide_eq_true hint
      have het : isEt e = true := decide_eq_true (by omega)
      refine ⟨predBits (etCount e) (fun k => bit (th.guard i) k && condInt w (i.imm / 16) (a k) (velem w (th.vr i.rb) k)),
        fun k => by rw [testBit_predBits, Bool.and_assoc], row rfl rfl ?_ ?_ ho⟩
      · simp only [he, hc, etFmt_int hint]; rfl
      · simp [vregs, allZero, hrd, hra, hrb, hrc, himm, he, hin, het]
    case cmpFp =>
      have hc : bits i.imm 4 3 = i.imm / 16 := by rw [bits_eq_div_mod]; omega
      have het : isEt e = true := decide_eq_true hhi
      refine ⟨predBits (etCount e) (fun k => bit (th.guard i) k && condFp (i.imm / 16) (f.decode (a k)) (f.decode (velem w (th.vr i.rb) k))),
        fun k => by rw [testBit_predBits, Bool.and_assoc], row rfl rfl ?_ ?_ ho⟩
      · simp only [he, hc, hf]; rfl
      · simp [vregs, allZero, hrd, hra, hrb, hrc, himm, he, het, hc, hne4, hne5]
    case ext =>
      have hidx : bits i.imm 8 5 = i.imm / 256 := by rw [bits_eq_div_mod]; omega
      have hmid' : bits i.imm 4 4 = 0 := (bits_eq_div_mod ..).trans hmid
      have hhigh : i.imm < 8192 := himm
      have het' : isEt e = true := decide_eq_true het
      have hg' : bit (th.issued.guard i) (i.imm / 256) = true := hg
      refine row rfl rfl ?_ ?_ ho
      · simp only [hidx, hg', if_true, he]; rfl
      · simp [vregs, okIndex, allZero, hra, hrb, hrc, hmid', hhigh, he, het', hidx, hlt]
    case red =>
      have hmode : bits i.imm 4 2 = i.imm / 16 := by rw [bits_eq_div_mod]; omega
      have hhigh : i.imm < 64 := by omega
      have hle : i.imm / 16 ≤ 2 := by omega
      have het' : isEt e = true := decide_eq_true het
      refine row rfl rfl ?_ ?_ ho
      · simp only [hmode, he]; rfl
      · simp [vregs, allZero, hra, hrb, hrc, hhigh, hmode, hle, he, het']
    case cvt =>
      have hd : bits i.imm 4 4 = i.imm / 16 % 16 := bits_eq_div_mod ..
      have hpart : bits i.imm 8 2 = i.imm / 256 % 4 := bits_eq_div_mod ..
      have hhigh : i.imm < 2048 := himm
      refine row rfl rfl rfl ?_ ho
      simp [vregs, allZero, hrd, hra, hrb, hrc, hhigh, he, hd, hpart, hsrc, hdst, hrange]

end Sys2Proof.Machine
end

section
namespace Sys2Proof.Machine

/-! ## What reading memory and waiting for its pages leave of the pin cores (R90 to R114, R150) -/

theorem Gikan.pin_of_quiet {g h : Gikan} (e : h.quiet = g.quiet) : h.pin = g.pin :=
  congrArg (fun x => x.2.2.2.2.2.2.2.2.2.2.2.2.2.2.2.2.2.2.1) e
theorem Gikan.pin_of_inner {g h : Gikan} (e : h.inner = g.inner) : h.pin = g.pin := (congrArg Gikan.pin e :)
theorem Gikan.pin_of_besideFrames {g h : Gikan} (e : h.besideFrames = g.besideFrames) : h.pin = g.pin := (congrArg Gikan.pin e :)

theorem Gikan.pin_foldl {α : Type} {f : Gikan → α → Gikan} (hf : ∀ h x, (f h x).pin = h.pin) (l : List α) (g : Gikan) :
    (l.foldl f g).pin = g.pin :=
  List.foldlRecOn (motive := fun h => h.pin = g.pin) l f rfl fun h e x _ => (hf h x).trans e

/-! Decoding -/

@[simp] theorem Gikan.pin_setBad (g : Gikan) (u n w : Nat) : (g.setBad u n w).pin = g.pin := rfl

@[simp] theorem Gikan.pin_flipOn (g : Gikan) (h most : Nat) : (g.flipOn h most).2.pin = g.pin := by
  unfold Gikan.flipOn; split <;> rfl

@[simp] theorem Gikan.pin_flipWritten (g : Gikan) (s : Site) (u : Nat) : (g.flipWritten s u).pin = g.pin := by
  unfold Gikan.flipWritten; dsimp only
  split
  · split
    · split <;> simp
    · rfl
  · split <;> simp

@[simp] theorem Gikan.pin_written (g : Gikan) (s : Site) (u : Nat) : (g.written s u).pin = g.pin := Gikan.pin_flipWritten ..

@[simp] theorem Gikan.pin_poisonUnit (g : Gikan) (s : Site) (u : Nat) : (g.poisonUnit s u).pin = g.pin := Gikan.pin_written ..

@[simp] theorem Gikan.pin_detected (g : Gikan) (n : Nat) : (g.detected n).2.pin = g.pin := by
  unfold Gikan.detected; split <;> rfl

@[simp] theorem Gikan.pin_correctedAt (g : Gikan) (p : Nat × Nat × Nat × Nat) : (g.correctedAt p).pin = g.pin :=
  (Gikan.pin_of_quiet (Gikan.quiet_corrected ..)).trans rfl

@[simp] theorem Gikan.pin_uncorrectable (g : Gikan) (s : Site) (u src : Nat) : (g.uncorrectable s u src).pin = g.pin :=
  (Gikan.pin_poisonUnit ..).trans (Gikan.pin_of_quiet (Gikan.quiet_logUe ..))

@[simp] theorem Gikan.pin_garble (g : Gikan) (s : Site) (u : Nat) : (g.garble s u).2.pin = g.pin := rfl

theorem Gikan.pin_decode (g : Gikan) (s : Site) (u src : Nat) : (g.decode s u src).2.pin = g.pin := by
  unfold Gikan.decode; dsimp only
  split
  · split <;> rfl
  · split
    · rw [Gikan.pin_written, Gikan.pin_correctedAt]
    · split
      · rw [Gikan.pin_uncorrectable, Gikan.pin_detected]
      · split
        · rw [Gikan.pin_correctedAt, Gikan.pin_garble, Gikan.pin_detected]
        · rw [Gikan.pin_garble, Gikan.pin_detected]

theorem Gikan.pin_decodeAll (s : Site) (src : Nat) (us : List Nat) (g : Gikan) : (g.decodeAll s src us).1.pin = g.pin := by
  induction us generalizing g with
  | nil => rfl
  | cons u us ih =>
    have h := (ih (g.decode s u src).2).trans (g.pin_decode s u src)
    unfold Gikan.decodeAll; dsimp only
    split <;> exact h

theorem Gikan.pin_readMem (g : Gikan) (s : Site) (a n src : Nat) : (g.readMem s a n src).1.pin = g.pin := by
  have h := Gikan.pin_decodeAll s src (s.units a n) g
  unfold Gikan.readMem; dsimp only
  split <;> exact h

/-! An engine's read -/

theorem Gikan.pin_dirCache (g : Gikan) (entry a : Nat) : (g.dirCache entry a).pin = g.pin := by
  unfold Gikan.dirCache; dsimp only
  split <;> split <;> rfl

theorem Gikan.pin_quickTxn (g : Gikan) (entry line : Nat) : (g.quickTxn entry line).pin = g.pin := by
  unfold Gikan.quickTxn; dsimp only
  rw [Gikan.pin_dirCache]
  split <;> rfl

theorem Gikan.pin_cohTouch (g : Gikan) (s : Site) (a n : Nat) (write : Bool) : (g.cohTouch s a n write).pin = g.pin := by
  unfold Gikan.cohTouch
  split
  · rfl
  · refine Gikan.pin_foldl (fun h l => ?_) _ _
    split
    · rfl
    · split
      · exact Gikan.pin_quickTxn ..
      · rfl

theorem Gikan.pin_engineTouch (g : Gikan) (s : Site) (a n : Nat) (write : Bool) : (g.engineTouch s a n write).pin = g.pin :=
  Gikan.pin_foldl (fun _ _ => Gikan.pin_setPage ..) _ _

theorem Gikan.pin_engRead (g : Gikan) (s : Site) (a n : Nat) : (g.engRead s a n).1.pin = g.pin :=
  (Gikan.pin_readMem ..).trans ((Gikan.pin_engineTouch ..).trans (Gikan.pin_cohTouch ..))

/-! Frames, fetches and evictions -/

theorem Gikan.pin_addErrors (g : Gikan) (us : List Nat) (which n : Nat) : (g.addErrors us which n).pin = g.pin := by
  unfold Gikan.addErrors
  split
  · split <;> rfl
  · split
    · rfl
    · exact (Gikan.pin_foldl (fun _ _ => Gikan.pin_setBad ..) _ _).trans rfl

theorem Gikan.pin_adoptErrors (g : Gikan) (entry p f n : Nat) : (g.adoptErrors entry p f n).pin = g.pin := by
  unfold Gikan.adoptErrors
  refine Gikan.pin_foldl (fun _ _ => ?_) _ _
  exact (Gikan.pin_addErrors ..).trans rfl

theorem Gikan.pin_allocPage {g h : Gikan} {entry p : Nat} {e : ExtW} (ha : g.allocPage entry p e = some h) : h.pin = g.pin := by
  unfold Gikan.allocPage at ha
  obtain ⟨r, hr, rfl⟩ := Option.map_eq_some_iff.mp ha
  exact (Gikan.pin_adoptErrors ..).trans (Gikan.pin_of_besideFrames (Gikan.besideFrames_allocFrames (f := r.1) hr))

theorem Gikan.pin_issue (g : Gikan) (x : Nat) (q : Req) (c : Consumer) : (g.issue x q c).pin = g.pin := by
  unfold Gikan.issue
  split
  · rfl
  · split
    next t g1 ht =>
      unfold Gikan.sendFirst
      refine (Gikan.pin_of_inner (Gikan.inner_sendOwn ..)).trans ?_
      rw [Gikan.takeTag_state ht]
      rfl
    next => rfl

theorem Gikan.pin_engOut (g : Gikan) (q : Req) (c : Consumer) : (g.engOut q c).pin = g.pin := by
  unfold Gikan.engOut
  exact (Gikan.pin_issue ..).trans rfl

theorem Gikan.pin_fetchNext (g : Gikan) (entry p : Nat) : (g.fetchNext entry p).pin = g.pin := by
  unfold Gikan.fetchNext; dsimp only
  split
  · rfl
  · split
    · exact Gikan.pin_engOut ..
    · split <;> rfl

theorem Gikan.pin_startFetch (g : Gikan) (entry p first : Nat) (staged : Bool) : (g.startFetch entry p first staged).pin = g.pin := by
  unfold Gikan.startFetch; dsimp only
  split
  · rfl
  · split
    next ha => exact (Gikan.pin_fetchNext ..).trans ((Gikan.pin_setPage ..).trans (Gikan.pin_allocPage ha))
    next => split <;> rfl

theorem Gikan.pin_stampHeader (g : Gikan) (s : Site) (p : Nat) : (g.stampHeader s p).pin = g.pin := by
  unfold Gikan.stampHeader; split <;> rfl

theorem Gikan.pin_bringIn (g : Gikan) (s : Site) (p k : Nat) (write : Bool) : (g.bringIn s p k write).pin = g.pin := by
  unfold Gikan.bringIn
  split
  · exact Gikan.pin_startFetch ..
  · split
    · exact (Gikan.pin_stampHeader ..).trans rfl
    · rfl
  · rfl

theorem Gikan.pin_dropPage (g : Gikan) (entry p : Nat) : (g.dropPage entry p).pin = g.pin :=
  Gikan.pin_foldl (fun _ _ => Gikan.pin_setFrame ..) _ g

theorem Gikan.pin_evictClean (g : Gikan) (key : Nat) : (g.evictClean key).pin = g.pin := by
  unfold Gikan.evictClean; dsimp only
  split
  · rfl
  · split
    · rfl
    · split
      · split
        · rfl
        · exact Gikan.pin_dropPage ..
      · exact Gikan.pin_dropPage ..

theorem Gikan.pin_demoteTarget {g h : Gikan} {t : Nat} {l : LowerAt} (ht : g.demoteTarget t = some (l, h)) : h.pin = g.pin := by
  unfold Gikan.demoteTarget at ht
  split at ht
  · cases ht
  · split at ht
    · cases ht; rfl
    · obtain ⟨_, -, he⟩ := Option.map_eq_some_iff.mp ht
      cases he; rfl

theorem Gikan.pin_evictDirty (g : Gikan) (key : Nat) : (g.evictDirty key).pin = g.pin := by
  unfold Gikan.evictDirty; dsimp only
  split
  · rfl
  · split
    next l h ht => exact (Gikan.pin_setPage ..).trans (Gikan.pin_demoteTarget ht)
    next => rfl

theorem Gikan.pin_evict (g : Gikan) : g.evict.pin = g.pin := by
  unfold Gikan.evict; dsimp only
  split
  · rfl
  · have hclean := Gikan.pin_foldl Gikan.pin_evictClean (g.byHeat .residentClean) g
    split
    · exact hclean
    · exact (Gikan.pin_foldl Gikan.pin_evictDirty _ _).trans hclean

/-! A step that waits -/

theorem Gikan.pin_stallOnce (g : Gikan) (cls : Nat) {count : Gikan → Gikan} (hc : ∀ h, (count h).pin = h.pin) :
    (g.stallOnce cls count).pin = g.pin := by
  unfold Gikan.stallOnce; dsimp only
  split
  · rfl
  · exact hc _

theorem Gikan.pin_stallPages (g : Gikan) (gs : List (Nat × Nat × Nat × Bool)) : (g.stallPages gs).pin = g.pin := by
  refine Gikan.pin_foldl (fun h c => ?_) _ _
  obtain ⟨entry, p, k, write⟩ := c
  have hstall := h.pin_stallOnce (stallClass (h.page entry p)) (count := fun h => h.countStall entry (stallClass (h.page entry p))) fun _ => rfl
  dsimp only
  split
  · exact (Gikan.pin_evict _).trans hstall
  · exact (Gikan.pin_bringIn ..).trans hstall

theorem Gikan.pin_setTxns (g : Gikan) (ts : List Txn) : (g.setTxns ts).pin = g.pin := by
  unfold Gikan.setTxns; dsimp only
  split <;> rfl

/-- A step that is no work item's holds no lines. -/
theorem Gikan.letGo_nil (g : Gikan) : g.letGo [] = g := by
  simp only [Gikan.letGo, List.isEmpty_nil, Bool.not_true, Bool.and_false, Bool.false_and, List.filter_false, List.foldl_nil]

theorem Gikan.pin_queueLines {g : Gikan} (hw : g.coh.who = []) (ws : List (Nat × Nat × Bool)) : (g.queueLines ws).pin = g.pin := by
  unfold Gikan.queueLines; dsimp only
  split
  · rfl
  · rw [hw, Gikan.letGo_nil]
    refine Gikan.pin_foldl (fun h w => ?_) _ _
    split
    · exact Gikan.pin_setTxns ..
    · rfl

/-- A step that is no work item's and waits has no effect on the pin cores. -/
theorem Gikan.pin_cohSettle_waits {g done : Gikan} (h : g.stalls done = true) : (g.cohSettle done).pin = g.pin := by
  have hs : (g.asItem []).stalls done = true := h
  have honce (cls : Nat) (count : Gikan → Gikan) : (g.asItem []).stallOnce cls count = g.asItem [] := by
    unfold Gikan.stallOnce; exact if_pos rfl
  unfold Gikan.cohSettle Gikan.settleAlso
  simp only [hs, Bool.not_true, Bool.false_eq_true, if_false, honce, ite_self]
  exact (Gikan.pin_stallPages ..).trans (Gikan.pin_queueLines rfl _)

end Sys2Proof.Machine
end

section
namespace Sys2Proof.Machine

/-! ## Kernel images (R248 to R250) -/

/-! The checks of a load (R249) -/

theorem Gikan.imageRefused_reports (g : Gikan) {cause : Nat} (hc : cause < 16) : (g.imageRefused cause).on F.PIN_IMAGE_STATUS_REFUSED = true ∧
    (g.imageRefused cause).get F.PIN_IMAGE_STATUS_CAUSE = cause ∧ (g.imageRefused cause).pin = g.pin := by
  refine ⟨Gikan.on_of_get (n := 1) ?_, ?_, rfl⟩
  · exact (Gikan.get_inc_ne _ _ _ _ (by decide)).trans ((Gikan.get_set_ne _ _ _ _ (by decide)).trans (Gikan.get_set_same ..))
  · exact (Gikan.get_inc_ne _ _ _ _ (by decide)).trans ((Gikan.get_set_same ..).trans (Nat.mod_eq_of_lt hc))

/-- What a load that fails a check leaves. -/
def Gikan.loadFails (g h : Gikan) : Prop :=
  h.pin = g.pin ∧ h.on F.PIN_IMAGE_STATUS_REFUSED = true ∧ 1 ≤ h.get F.PIN_IMAGE_STATUS_CAUSE ∧ h.get F.PIN_IMAGE_STATUS_CAUSE ≤ 7

theorem Gikan.loadFails_imageRefused {g k : Gikan} (hk : k.pin = g.pin) {cause : Nat} (h1 : 1 ≤ cause) (h7 : cause ≤ 7) :
    g.loadFails (k.imageRefused cause) := by
  obtain ⟨hrefused, hcause, hpin⟩ := k.imageRefused_reports (Nat.lt_of_le_of_lt h7 (by decide : 7 < 16))
  exact ⟨hpin.trans hk, hrefused, h1.trans_eq hcause.symm, hcause.trans_le h7⟩

/-- An entry record that is registered as it stands: its number is in range and free, and its entry point lies in the image. -/
def Gikan.imageEntryFits (g : Gikan) (slot base cmpt n : Nat) (e : Nat × EntryPt) : Prop :=
  e.1 ≤ 4095 ∧ g.pin.entries.get? e.1 = none ∧ e.2.slot = slot ∧ e.2.cmpt = cmpt ∧ e.2.pc < base + n ∧ 0 < e.2.cycles

/-- What a load that passes the checks leaves: an image to be written. -/
def Gikan.loadPasses (g h : Gikan) (slot base cmpt : Nat) : Prop :=
  ∃ l, h.pin = { g.pin with load := some l } ∧ l.slot = slot ∧ l.base = base ∧ l.cmpt = cmpt ∧ h.on F.PIN_IMAGE_STATUS_BUSY = true ∧
    base + l.words.length ≤ 32768 ∧ g.pin.images.get? slot = none ∧ (∀ i ∈ g.pin.images, meets base l.words.length i.2.base i.2.count = false) ∧
    ∀ e ∈ l.entries, g.imageEntryFits slot base cmpt l.words.length e

/-- A load either fails a check or passes them all. -/
def Gikan.loadOutcome (g : Gikan) (slot base cmpt : Nat) (h : Gikan) : Prop := g.loadFails h ∨ g.loadPasses h slot base cmpt

theorem Gikan.loadOutcome_imageRefused {g k : Gikan} (hk : k.pin = g.pin) {slot base cmpt cause : Nat} (h1 : 1 ≤ cause) (h7 : cause ≤ 7) :
    g.loadOutcome slot base cmpt (k.imageRefused cause) :=
  Or.inl (Gikan.loadFails_imageRefused hk h1 h7)

theorem Gikan.loadOutcome_check {g k x : Gikan} {c : Bool} (hk : k.pin = g.pin) {slot base cmpt cause : Nat}
    (hcause : 1 ≤ cause ∧ cause ≤ 7) (rest : ¬c = true → g.loadOutcome slot base cmpt x) :
    g.loadOutcome slot base cmpt (if c then k.imageRefused cause else x) :=
  iteInduction (fun _ => Gikan.loadOutcome_imageRefused hk hcause.1 hcause.2) rest

theorem site_cases {p : Gikan → Prop} {o : Option Site} {x : Gikan} {f : Site → Gikan} (hnone : p x) (hsome : ∀ s, p (f s)) :
    p (match o with | none => x | some s => f s) := by
  cases o with
  | none => exact hnone
  | some s => exact hsome s

/-- The records of a load are those of its own slot and compartment. -/
theorem entryRecords_own {recs : List Byte} {bad : Bool} {n slot base cmpt : Nat} {e : Nat × EntryPt × Bool}
    (he : e ∈ if bad = true then [] else (List.range n).map (fun i => entryRecord (slice recs (16 * i) 16) slot cmpt base)) :
    e.2.1.slot = slot ∧ e.2.1.cmpt = cmpt := by
  cases bad
  case true => exact absurd he List.not_mem_nil
  case false =>
    obtain ⟨i, -, rfl⟩ := List.mem_map.mp he
    exact ⟨rfl, rfl⟩

/-- What the checks of causes 2, 4, 5 and 6 leave true of a load that passes them. -/
theorem Gikan.loadOutcome_taken {g k k' : Gikan} (hk : k.pin = g.pin) (hk' : k'.pin = g.pin) {slot base cmpt nc : Nat} {bad : Bool}
    {words : List Nat} {es : List (Nat × EntryPt × Bool)} (hwords : words.length = nc)
    (hown : ∀ e ∈ es, e.2.1.slot = slot ∧ e.2.1.cmpt = cmpt)
    (hrange : ¬(bad || es.any (fun e => decide (4095 < e.1) || decide (base + nc ≤ e.2.1.pc) || e.2.1.cycles == 0)) = true)
    (hroom : ¬(decide (32768 < base + nc) || k.pin.images.any (fun i => meets base nc i.2.base i.2.count)) = true)
    (hslot : ¬(g.pin.images.get? slot).isSome = true)
    (hnums : ¬((es.map (fun e => e.1)).any (fun n => (k.pin.entries.get? n).isSome) ||
      decide ((es.map (fun e => e.1)).dedup.length < (es.map (fun e => e.1)).length)) = true) :
    g.loadOutcome slot base cmpt { ((k'.set F.PIN_IMAGE_STATUS_BUSY 1).set F.PIN_IMAGE_STATUS_SLOT slot) with
      pin := { k'.pin with load := some ⟨slot, base, cmpt, words, es.map (fun e => (e.1, e.2.1))⟩ } } := by
  subst hwords
  simp only [hk, Bool.or_eq_true, not_or, decide_eq_true_eq, not_lt, List.any_eq_true, not_exists, not_and, not_le] at hrange hroom hnums
  refine Or.inr ⟨⟨slot, base, cmpt, words, es.map (fun e => (e.1, e.2.1))⟩, ?_, rfl, rfl, rfl, ?_, hroom.1, ?_, ?_, ?_⟩
  · simp only [hk']
  · exact Gikan.on_of_get (n := 1) ((Gikan.get_set_ne _ _ _ _ (by decide)).trans (Gikan.get_set_same ..))
  · simpa using hslot
  · simpa using hroom.2
  · intro e he
    obtain ⟨r, hr, rfl⟩ := List.mem_map.mp he
    obtain ⟨⟨hnum, hpc⟩, hcycles⟩ := hrange.2 r hr
    obtain ⟨hs, hc⟩ := hown r hr
    have hfree := hnums.1 r.1 (List.mem_map.mpr ⟨r, hr, rfl⟩)
    exact ⟨hnum, by simpa using hfree, hs, hc, hpc, Nat.pos_of_ne_zero (by simpa using hcycles)⟩

theorem Gikan.imageLoad_outcome (g : Gikan) (a slot base cmpt : Nat) : g.loadOutcome slot base cmpt (g.imageLoad a slot base cmpt) := by
  unfold Gikan.imageLoad
  refine site_cases (p := g.loadOutcome slot base cmpt) (Gikan.loadOutcome_imageRefused rfl (by decide) (by decide)) fun s => ?_
  extract_lets ra taken
  have hpin1 := g.pin_engRead s ra 64
  generalize g.engRead s ra 64 = r at hpin1 ⊢
  obtain ⟨g1, h, hbad⟩ := r
  refine Gikan.loadOutcome_check hpin1 ?_ fun _ => ?_
  · split_ifs <;> decide
  refine Gikan.loadOutcome_check hpin1 (by decide) fun _ => ?_
  have hpin2 : (if s.e.covers ra (field h 16 4 + 16 * field h 6 2) then g1.engRead s (ra + field h 16 4) (16 * field h 6 2)
      else (g1, [], true)).1.pin = g.pin := by
    split
    · exact (g1.pin_engRead ..).trans hpin1
    · exact hpin1
  generalize (if s.e.covers ra (field h 16 4 + 16 * field h 6 2) then g1.engRead s (ra + field h 16 4) (16 * field h 6 2)
      else (g1, [], true)) = r at hpin2 ⊢
  obtain ⟨g2, recs, rbad⟩ := r
  refine Gikan.loadOutcome_check hpin2 (by decide) fun _ => ?_
  refine Gikan.loadOutcome_check hpin2 (by decide) fun hrange => ?_
  refine Gikan.loadOutcome_check hpin2 (by decide) fun _ => ?_
  refine Gikan.loadOutcome_check hpin2 (by decide) fun hroom => ?_
  refine Gikan.loadOutcome_check hpin2 (by decide) fun hslot => ?_
  refine Gikan.loadOutcome_check hpin2 (by decide) fun hnums => ?_
  have hpin3 := (g2.pin_engRead s (ra + field h 12 4) (8 * field h 8 4)).trans hpin2
  generalize g2.engRead s (ra + field h 12 4) (8 * field h 8 4) = r at hpin3 ⊢
  obtain ⟨g3, code, cbad⟩ := r
  refine Gikan.loadOutcome_check hpin3 (by decide) fun _ => ?_
  exact Gikan.loadOutcome_taken hpin2 hpin3 (by simp) (fun e => entryRecords_own) hrange hroom hslot hnums

/-! A write of PIN_IMAGE_LOAD (R248, R325) -/

/-- A load that waits with BUSY set: its source, slot, base and compartment. -/
def Gikan.imageWaits (g : Gikan) (l : Nat × Nat × Nat × Nat) : Gikan :=
  { g.set F.PIN_IMAGE_STATUS_BUSY 1 with pin := { g.pin with wait := some l } }

theorem Gikan.on_imageWaits (g : Gikan) (l : Nat × Nat × Nat × Nat) : (g.imageWaits l).on F.PIN_IMAGE_STATUS_BUSY = true :=
  Gikan.on_of_get (n := 1) (show (g.set F.PIN_IMAGE_STATUS_BUSY 1).get F.PIN_IMAGE_STATUS_BUSY = 1 from Gikan.get_set_same ..)

theorem Gikan.pin_imageWaits {g k : Gikan} (h : k.pin = g.pin) (l : Nat × Nat × Nat × Nat) :
    (k.imageWaits l).pin = { g.pin with wait := some l } := by
  rw [← h]; rfl

section
variable (g : Gikan) (a slot base cmpt : Nat)

theorem Gikan.imageRead_done (hs : g.stalls (g.imageLoad a slot base cmpt) = false) :
    g.imageRead a slot base cmpt = g.cohSettle (g.imageLoad a slot base cmpt) := by
  simp only [Gikan.imageRead, hs, Bool.false_eq_true, if_false]

theorem Gikan.imageRead_waits (hs : g.stalls (g.imageLoad a slot base cmpt) = true) :
    g.imageRead a slot base cmpt = (g.cohSettle (g.imageLoad a slot base cmpt)).imageWaits (a, slot, base, cmpt) := by
  simp only [Gikan.imageRead, hs, if_true, Gikan.imageWaits]

end

section
variable {g : Gikan} {w : RegW}

theorem Gikan.wrImageLoad_refused (h : wrOne w F.PIN_IMAGE_LOAD_GO = true ∨ wrOne w F.PIN_IMAGE_LOAD_UNLOAD = true)
    (hb : g.on F.PIN_IMAGE_STATUS_BUSY = true) : g.wrImageLoad w = g.imageRefused 8 := by
  have hcmd : (!wrOne w F.PIN_IMAGE_LOAD_GO && !wrOne w F.PIN_IMAGE_LOAD_UNLOAD) = false := by
    rcases h with h | h <;> rw [h]
    · rfl
    · exact Bool.and_false _
  simp only [Gikan.wrImageLoad, hcmd, hb, Bool.false_eq_true, if_false, if_true]

theorem Gikan.wrImageLoad_go (hgo : wrOne w F.PIN_IMAGE_LOAD_GO = true) (hun : wrOne w F.PIN_IMAGE_LOAD_UNLOAD = false)
    (hb : g.on F.PIN_IMAGE_STATUS_BUSY = false) (hs : g.scrubbing (loadField w F.PIN_IMAGE_LOAD_CMPT) = false) :
    g.wrImageLoad w = g.imageRead (g.get F.PIN_IMAGE_SRC_ADDR) (loadField w F.PIN_IMAGE_LOAD_SLOT) (loadField w F.PIN_IMAGE_LOAD_BASE)
      (loadField w F.PIN_IMAGE_LOAD_CMPT) := by
  rw [loadField] at hs
  simp only [Gikan.wrImageLoad, hgo, hun, hb, hs, Bool.not_true, Bool.false_and, Bool.false_eq_true, if_false, loadField]

theorem Gikan.wrImageLoad_unload (hun : wrOne w F.PIN_IMAGE_LOAD_UNLOAD = true) (hb : g.on F.PIN_IMAGE_STATUS_BUSY = false) :
    g.wrImageLoad w = g.unloadSlot (loadField w F.PIN_IMAGE_LOAD_SLOT) := by
  simp only [Gikan.wrImageLoad, hun, hb, Bool.not_true, Bool.and_false, Bool.false_eq_true, if_false, if_true, loadField]

end

/-! Entries and code words by their number -/

section
variable {α : Type} {t : Tbl α}

theorem Tbl.mem_of_get? {x : Nat} {a : α} (h : t.get? x = some a) : (x, a) ∈ t := by
  induction t with
  | nil => cases h
  | cons e t ih =>
    obtain ⟨k, v⟩ := e
    rw [Tbl.get?] at h
    split at h
    next hk =>
      cases h
      exact hk ▸ List.mem_cons_self
    next => exact List.mem_cons_of_mem _ (ih h)

theorem Tbl.get?_filter_key (t : Tbl α) (p : Nat → Bool) (x : Nat) : Tbl.get? (t.filter (fun e => p e.1)) x = if p x then t.get? x else none := by
  induction t with
  | nil => exact (ite_self _).symm
  | cons e t ih =>
    obtain ⟨k, v⟩ := e
    by_cases hk : k = x
    · subst hk
      cases hp : p k <;> simp [hp, ih, Tbl.get?]
    · cases hp : p k <;> simp [hp, ih, Tbl.get?, hk]

theorem Tbl.getD_filter_key (t : Tbl α) (p : Nat → Bool) (x : Nat) (d : α) :
    Tbl.getD (t.filter (fun e => p e.1)) x d = if p x then t.getD x d else d := by
  rw [Tbl.getD, Tbl.get?_filter_key]
  split <;> rfl

theorem Tbl.get?_foldl_put_ne (es : List (Nat × α)) {x : Nat} (h : ∀ e ∈ es, x ≠ e.1) (t : Tbl α) :
    (es.foldl (fun (t : Tbl α) e => t.put e.1 e.2) t).get? x = t.get? x := by
  induction es generalizing t with
  | nil => rfl
  | cons e es ih =>
    obtain ⟨hx, hes⟩ := List.forall_mem_cons.mp h
    exact (ih hes _).trans (Tbl.get?_put_ne _ _ hx)

theorem Tbl.get?_foldl_put_mem {es : List (Nat × α)} (hn : (es.map (fun e => e.1)).Nodup) (t : Tbl α) {e : Nat × α} (he : e ∈ es) :
    (es.foldl (fun (t : Tbl α) e => t.put e.1 e.2) t).get? e.1 = some e.2 := by
  induction es generalizing t with
  | nil => cases he
  | cons b es ih =>
    obtain ⟨hb, hn⟩ := List.nodup_cons.mp hn
    rcases List.mem_cons.mp he with rfl | he
    · exact (Tbl.get?_foldl_put_ne es (fun f hf h => hb (List.mem_map.mpr ⟨f, hf, h.symm⟩)) _).trans (Tbl.get?_put_same ..)
    · exact ih hn _ he

/-- The words from place `k` of a list on, put one by one from number `b` on. -/
theorem Tbl.getD_foldl_setD (b : Nat) (ws : List Nat) (k : Nat) (t : Tbl Nat) (i : Nat) :
    ((ws.zipIdx k).foldl (fun (t : Tbl Nat) w => t.setD (b + w.2) 0 w.1) t).getD i 0 =
      if b + k ≤ i ∧ i < b + k + ws.length then ws.getD (i - (b + k)) 0 else t.getD i 0 := by
  induction ws generalizing k t with
  | nil => rw [List.zipIdx_nil, List.foldl_nil, List.length_nil, if_neg (by omega)]
  | cons w ws ih =>
    rw [List.zipIdx_cons, List.foldl_cons, ih, List.length_cons]
    by_cases hi : i = b + k
    · subst hi
      rw [if_neg (by omega), if_pos (by omega), Nat.sub_self]
      exact Tbl.getD_setD_same ..
    · rw [Tbl.getD_setD_ne _ _ _ _ hi]
      by_cases hin : b + k < i ∧ i < b + k + (ws.length + 1)
      · rw [if_pos (by omega), if_pos (by omega), show i - (b + k) = i - (b + (k + 1)) + 1 by omega, List.getD_cons_succ]
      · rw [if_neg (by omega), if_neg (by omega)]

end

/-! The end of a load, an unload and its end (R249, R250) -/

theorem Gikan.get_withPin (g : Gikan) (p : PinSt) (f : Fld) : ({ g with pin := p } : Gikan).get f = g.get f := rfl

/-- The end of a load: what becomes of BUSY, DONE, the load, memory, the slot, the code words and the entries. -/
theorem Gikan.imageLoadEnd_loads {g : Gikan} {l : KLoad} (hl : g.pin.load = some l) (hh : g.hasp = false) :
    g.imageLoadEnd.on F.PIN_IMAGE_STATUS_BUSY = false ∧ g.imageLoadEnd.on F.PIN_IMAGE_STATUS_DONE = true ∧ g.imageLoadEnd.pin.load = none ∧
    g.imageLoadEnd.mem = g.mem ∧ g.imageLoadEnd.pin.images.get? l.slot = some ⟨l.cmpt, l.base, l.words.length, l.entries.length, false⟩ ∧
    g.imageLoadEnd.pin.code = l.words.zipIdx.foldl (fun (t : Tbl Nat) w => t.setD (l.base + w.2) 0 w.1) g.pin.code ∧
    g.imageLoadEnd.pin.entries = l.entries.foldl (fun (t : Tbl EntryPt) e => t.put e.1 e.2) g.pin.entries := by
  simp only [Gikan.imageLoadEnd, hl, hh, Bool.false_eq_true, if_false]
  refine ⟨Gikan.on_of_get (n := 0) ?_, Gikan.on_of_get (n := 1) ?_, rfl, rfl, Tbl.get?_put_same .., rfl, rfl⟩
  · exact (Gikan.get_inc_ne _ _ _ _ (by decide)).trans ((Gikan.get_set_ne _ _ _ _ (by decide)).trans (Gikan.get_set_same ..))
  · exact (Gikan.get_inc_ne _ _ _ _ (by decide)).trans (Gikan.get_set_same ..)

/-- An unload leaves its slot UNLOADING and none of the slot's entries. -/
theorem Gikan.unloadSlot_unloads {g : Gikan} {slot : Nat} {i : KImage} (hi : g.pin.images.get? slot = some i) (hu : i.unloading = false) :
    (g.unloadSlot slot).on F.PIN_IMAGE_STATUS_UNLOADING = true ∧
    (g.unloadSlot slot).pin.images.get? slot = some { i with unloading := true } ∧ (g.unloadSlot slot).pin.code = g.pin.code ∧
    ∀ n e, (g.unloadSlot slot).pin.entries.get? n = some e → e.slot ≠ slot := by
  simp only [Gikan.unloadSlot, hi, hu, Bool.false_eq_true, if_false]
  refine ⟨Gikan.on_of_get (n := 1) ?_, Tbl.get?_put_same .., trivial, fun n e he => ?_⟩
  · exact (Gikan.get_withPin ..).trans ((Gikan.get_set_ne _ _ _ _ (by decide)).trans (Gikan.get_set_same ..))
  · exact bne_iff_ne.mp (List.mem_filter.mp (Tbl.mem_of_get? he)).2

/-- A slot that is free again has no image, and its code words are zero. -/
theorem Gikan.dropImage_frees {g : Gikan} {slot : Nat} {i : KImage} (hi : g.pin.images.get? slot = some i) :
    (g.dropImage slot).pin.images.get? slot = none ∧ (g.dropImage slot).on F.PIN_IMAGE_STATUS_DONE = true ∧
    (g.dropImage slot).pin.entries = g.pin.entries ∧
    ∀ n, (g.dropImage slot).pin.code.getD n 0 = if i.base ≤ n ∧ n < i.base + i.count then 0 else g.pin.code.getD n 0 := by
  simp only [Gikan.dropImage, hi]
  refine ⟨Tbl.get?_del_same .., Gikan.on_of_get (n := 1) (Gikan.get_set_same ..), rfl, fun n => ?_⟩
  refine (Tbl.getD_filter_key g.pin.code (fun c => !(decide (i.base ≤ c) && decide (c < i.base + i.count))) n 0).trans ?_
  by_cases h : i.base ≤ n ∧ n < i.base + i.count <;> simp [h]

theorem Gikan.unloadEnd_free {g : Gikan} {x : Nat × KImage} (hf : g.pin.images.find? (fun i => i.2.unloading && g.slotItems i.1 == 0) = some x) :
    g.unloadEnd = g.dropImage x.1 := by
  simp only [Gikan.unloadEnd, hf]

theorem Gikan.unloadEnd_idle {g : Gikan} (hf : g.pin.images.find? (fun i => i.2.unloading && g.slotItems i.1 == 0) = none) :
    g.unloadEnd = g := by
  simp only [Gikan.unloadEnd, hf]

/-- Settles O40: a write of PIN_IMAGE_LOAD by BUSY and by whether its image is there (`Gikan.wrImageLoad_go`), a load by its checks in order
(`Gikan.imageLoad_outcome`), and the ends of a load and of an unload by what they leave in the pin cores' tables. -/
theorem kernelImages : Obligations.KernelImages := by
  refine fun s => ⟨fun w row t ht hr => ⟨fun hb => ?busy, fun hb hgo hun hs => ?go, fun i hb hun hi hu => ?unload⟩,
    fun g a slot base cmpt => g.imageLoad_outcome a slot base cmpt, fun l hh hl => ?loadEnd,
    fun hh => ⟨fun i slot im hf hslot him => ?freed, fun hf => ?idle⟩⟩
  case busy =>
    have hbusy : s.g.writeReg (offOf t) (trig w t) = s.g.imageRefused 8 := by
      rcases ht with ⟨-, rfl⟩ | ⟨-, rfl⟩
      · exact Gikan.wrImageLoad_refused (.inl (wrOne_trig w F.PIN_IMAGE_LOAD_GO rfl)) hb
      · exact Gikan.wrImageLoad_refused (.inr (wrOne_trig w F.PIN_IMAGE_LOAD_UNLOAD rfl)) hb
    refine ⟨?_, s.g.imageRefused_reports (by decide)⟩
    rcases ht with ⟨rfl, rfl⟩ | ⟨rfl, rfl⟩ <;> exact exec_reaches rfl hbusy hr
  case go =>
    obtain ⟨rfl, -⟩ | ⟨-, rfl⟩ := ht
    · subst hgo
      have hread := Gikan.wrImageLoad_go (wrOne_trig w F.PIN_IMAGE_LOAD_GO rfl) hun hb hs
      refine ⟨fun hd => exec_reaches rfl (hread.trans (Gikan.imageRead_done _ _ _ _ _ hd)) hr, fun hd => ?_⟩
      refine ⟨_, exec_reaches rfl (hread.trans (Gikan.imageRead_waits _ _ _ _ _ hd)) hr, Gikan.on_imageWaits .., ?_⟩
      exact Gikan.pin_imageWaits (Gikan.pin_cohSettle_waits hd) _
    · exact absurd hgo (by decide)
  case unload =>
    obtain ⟨-, rfl⟩ | ⟨rfl, -⟩ := ht
    · exact absurd hun (by decide)
    · subst hun
      exact ⟨_, exec_reaches rfl (Gikan.wrImageLoad_unload (wrOne_trig w F.PIN_IMAGE_LOAD_UNLOAD rfl) hb) hr, Gikan.unloadSlot_unloads hi hu⟩
  case loadEnd =>
    obtain ⟨hbusy, hdone, hload, hmem, hslot, hcode, hentries⟩ := Gikan.imageLoadEnd_loads hl hh
    refine ⟨_, exec_live (f := Gikan.imageLoadEnd) rfl hh rfl, hbusy, hdone, hload, hmem, hslot, fun i hi => ?_, fun n hn => ?_, fun hn e he => ?_⟩
    · refine ((congrArg (fun t : Tbl Nat => t.getD (l.base + i) 0) hcode).trans (Tbl.getD_foldl_setD ..)).trans ?_
      rw [if_pos (by omega), Nat.add_zero, Nat.add_sub_cancel_left]
    · refine ((congrArg (fun t : Tbl Nat => t.getD n 0) hcode).trans (Tbl.getD_foldl_setD ..)).trans (if_neg ?_)
      omega
    · exact (congrArg (fun t : Tbl EntryPt => t.get? e.1) hentries).trans (Tbl.get?_foldl_put_mem hn _ he)
  case freed =>
    subst hslot
    obtain ⟨himages, hdone, hentries, hcode⟩ := Gikan.dropImage_frees him
    refine ⟨_, exec_live (f := Gikan.unloadEnd) rfl hh (Gikan.unloadEnd_free hf), himages, hdone, hentries, fun n h1 h2 => ?_, fun n hn => ?_⟩
    · exact (hcode n).trans (if_pos ⟨h1, h2⟩)
    · exact (hcode n).trans (if_neg (by omega))
  case idle => exact exec_live_idle (f := Gikan.unloadEnd) rfl (Gikan.unloadEnd_idle hf)

end Sys2Proof.Machine
end

section
namespace Sys2Proof.Machine

/-! ## Dynamic addresses and the sequence pins (R387, R388) -/

theorem Gikan.get_emit_field (g : Gikan) (o : Out) (f : Fld) : (g.emit o).get f = g.get f := rfl

theorem Gikan.on_set_ne (g : Gikan) (f h : Fld) (v : Nat) (hk : h.key ≠ f.key) : (g.set f v).on h = g.on h := by
  rw [Gikan.on, Gikan.get_set_ne _ _ _ _ hk]; rfl

theorem Gikan.on_set_same (g : Gikan) (f : Fld) (v : Nat) : (g.set f v).on f = (v % 2 ^ f.wid != 0) := by
  rw [Gikan.on, Gikan.get_set_same]

theorem Gikan.on_setB (g : Gikan) (f : Fld) (b : Bool) (hw : f.wid = 1) : (g.setB f b).on f = b := by
  rw [Gikan.setB, Gikan.on_set_same, hw]; cases b <;> rfl

/-- Settling the node number puts CURRENT and nothing else. -/
theorem Gikan.nodeSoon_cases (g : Gikan) : (g.running = true ∧ g.nodeSoon = g) ∨ (g.running = false ∧ g.nodeSoon =
    g.set F.GLB_NODE_CURRENT (if g.get F.GLB_NODE_NODE = 0xFFFE then g.get F.GLB_NODE_PROVISIONAL else g.get F.GLB_NODE_NODE)) := by
  unfold Gikan.nodeSoon
  cases g.running with
  | true => exact .inl ⟨rfl, rfl⟩
  | false => exact .inr ⟨rfl, rfl⟩

@[simp] theorem Gikan.get_nodeSoon_ne (g : Gikan) (f : Fld) (hf : f.key ≠ F.GLB_NODE_CURRENT.key) : g.nodeSoon.get f = g.get f := by
  rcases g.nodeSoon_cases with ⟨-, e⟩ | ⟨-, e⟩ <;> rw [e]
  exact Gikan.get_set_ne _ _ _ _ hf

@[simp] theorem Gikan.body_nodeSoon (g : Gikan) : g.nodeSoon.body = g.body := by
  rcases g.nodeSoon_cases with ⟨-, e⟩ | ⟨-, e⟩ <;> rw [e]
  rfl

/-- SEQ_OUT driven to a level. -/
def Gikan.driveSeqOut (g : Gikan) (b : Bool) : Gikan := { g with pins := { g.pins with seqOut := b } }

theorem Gikan.get_driveSeqOut (g : Gikan) (b : Bool) (f : Fld) : (g.driveSeqOut b).get f = g.get f := rfl

/-- An address taken by ENTDAA, before the node number settles. -/
def Gikan.addressed (g : Gikan) (da : Nat) : Gikan :=
  ((((g.driveSeqOut true).set F.MGT_I3C_DA da).set F.MGT_I3C_DA_VALID 1).set F.MGT_I3C_SEQ_OUT 1).set F.GLB_NODE_PROVISIONAL
    (0x2000 + 128 * g.get F.GLB_STRAPS_TRAY_ID + da)

/-- An address given up by RSTDAA, before the node number settles. -/
def Gikan.unaddressed (g : Gikan) : Gikan :=
  ((((g.driveSeqOut false).set F.MGT_I3C_DA 0).set F.MGT_I3C_DA_VALID 0).set F.MGT_I3C_SEQ_OUT 0).set F.GLB_NODE_PROVISIONAL 0xFFFE

theorem Gikan.entdaa_takes {g : Gikan} {da : Nat} (hi : g.on F.MGT_I3C_SEQ_IN = true) (hv : g.on F.MGT_I3C_DA_VALID = false) (hlo : 8 ≤ da)
    (hhi : da ≤ 0x7D) : g.entdaa da = (g.addressed da).nodeSoon := by
  unfold Gikan.entdaa
  rw [hi, hv, decide_eq_false (by omega), decide_eq_false (by omega)]
  have hstraps : (((g.set F.MGT_I3C_DA da).set F.MGT_I3C_DA_VALID 1).set F.MGT_I3C_SEQ_OUT 1).get F.GLB_STRAPS_TRAY_ID =
      g.get F.GLB_STRAPS_TRAY_ID := by
    simp (disch := decide) only [Gikan.get_set_ne]
  exact congrArg (fun n => ((((((g.set F.MGT_I3C_DA da).set F.MGT_I3C_DA_VALID 1).set F.MGT_I3C_SEQ_OUT 1).driveSeqOut true).set
    F.GLB_NODE_PROVISIONAL (0x2000 + 128 * n + da)).nodeSoon)) hstraps

theorem Gikan.entdaa_idle {g : Gikan} (h : g.on F.MGT_I3C_SEQ_IN = false ∨ g.on F.MGT_I3C_DA_VALID = true) (da : Nat) : g.entdaa da = g := by
  unfold Gikan.entdaa
  rcases h with h | h <;> simp [h]

theorem Gikan.rstdaa_eq (g : Gikan) : g.rstdaa = g.unaddressed.nodeSoon := rfl

/-! ## Resets (R345, R372, R403) -/

/-- Register fields put one after another. -/
def Gikan.sets (g : Gikan) (l : List (Fld × Nat)) : Gikan := l.foldl (fun h x => h.set x.1 x.2) g

@[simp] theorem Gikan.body_sets (g : Gikan) (l : List (Fld × Nat)) : (g.sets l).body = g.body := by
  unfold Gikan.sets
  induction l generalizing g with
  | nil => rfl
  | cons x l ih => exact (ih _).trans (Gikan.body_set ..)

theorem Gikan.get_sets_ne (g : Gikan) (l : List (Fld × Nat)) (f : Fld) (hf : f.key ∉ l.map (fun x => x.1.key)) : (g.sets l).get f = g.get f := by
  unfold Gikan.sets
  induction l generalizing g with
  | nil => rfl
  | cons x l ih =>
    rw [List.map_cons, List.mem_cons, not_or] at hf
    exact (ih _ hf.2).trans (Gikan.get_set_ne _ _ _ _ hf.1)

/-- Of fields at places of their own, each ends with its value. -/
theorem Gikan.get_sets_mem (g : Gikan) {l : List (Fld × Nat)} {f : Fld} {v : Nat} (hn : (l.map (fun x => x.1.key)).Nodup) (hf : (f, v) ∈ l) :
    (g.sets l).get f = v % 2 ^ f.wid := by
  obtain ⟨a, b, rfl⟩ := List.append_of_mem hf
  have hb : f.key ∉ b.map (fun x => x.1.key) := by
    rw [List.map_append, List.map_cons] at hn
    exact (List.nodup_cons.mp (List.Nodup.of_append_right hn)).1
  have hsplit : g.sets (a ++ (f, v) :: b) = ((g.sets a).set f v).sets b := by
    simp only [Gikan.sets, List.foldl_append, List.foldl_cons]
  rw [hsplit, Gikan.get_sets_ne _ _ _ hb, Gikan.get_set_same]

theorem Gikan.sets_sets (g : Gikan) (l m : List (Fld × Nat)) : (g.sets l).sets m = g.sets (l ++ m) := List.foldl_append.symm

theorem Gikan.carry_eq_sets (g old : Gikan) (fs : List Fld) : g.carry old fs = g.sets (fs.map (fun f => (f, old.get f))) := by
  rw [Gikan.carry, Gikan.sets, List.foldl_map]

/-- The part at its reset, but for what lies beside the registers and stays. -/
def Gikan.restartBase (g : Gikan) (cause : Nat) : Gikan :=
  let m := cutUpdate g.mgt
  let warm := cause != 1
  let r := Gikan.reset
  { r with
    now := if warm then g.now else 0
    draw := g.draw
    out := g.out
    pins := ⟨false, warm && g.pins.thermtrip⟩
    mgt := { r.mgt with slot0 := m.slot0, slot1 := m.slot1, cfg := m.cfg }
    tier := { r.tier with badBlocks := g.tier.badBlocks, erases := g.tier.erases, reads := g.tier.reads, openBlocks := g.tier.openBlocks }
    sec := { r.sec with lmsSeq := g.sec.lmsSeq, lmsNext := g.sec.lmsNext, lmsUse := g.sec.lmsNext }
    pwr := { r.pwr with avs := if warm then g.pwr.avs else [] } }

/-- The fields that a reset does not leave at the reset values of their tables, but for its cause. -/
def Gikan.restartFlds (g : Gikan) (cause : Nat) (keep : Bool) : List (Fld × Nat) :=
  fixedFlds.map (fun f => (f, g.get f)) ++
  (List.range 32).flatMap (fun p => [(F.LNK_TS_DELAY_TX_PS p, g.get (F.LNK_TS_CAL_TX_PS p)), (F.LNK_TS_DELAY_RX_PS p, g.get (F.LNK_TS_CAL_RX_PS p))]) ++
  (if cause != 1 then warmFlds else []).map (fun f => (f, g.get f)) ++ (if keep then haspFlds else []).map (fun f => (f, g.get f)) ++
  [(F.GLB_RESET_CAUSE_CAUSE, cause), (F.GLB_RESET_CAUSE_HASP_KEPT, if keep && g.on F.FLT_HASP0_VALID then 1 else 0)]

theorem Gikan.restart_eq (g : Gikan) (cause : Nat) (keep : Bool) : g.restart cause keep = (g.restartBase cause).sets (g.restartFlds cause keep) := by
  have hdelay : ∀ h : Gikan, (List.range 32).foldl (fun h p =>
      (h.set (F.LNK_TS_DELAY_TX_PS p) (g.get (F.LNK_TS_CAL_TX_PS p))).set (F.LNK_TS_DELAY_RX_PS p) (g.get (F.LNK_TS_CAL_RX_PS p))) h =
      h.sets ((List.range 32).flatMap (fun p =>
        [(F.LNK_TS_DELAY_TX_PS p, g.get (F.LNK_TS_CAL_TX_PS p)), (F.LNK_TS_DELAY_RX_PS p, g.get (F.LNK_TS_CAL_RX_PS p))])) := fun h => by
    rw [Gikan.sets, List.foldl_flatMap]; rfl
  have hif : ∀ (c : Bool) (h : Gikan) (fs : List Fld),
      (if c then h.carry g fs else h) = h.sets ((if c then fs else []).map (fun f => (f, g.get f))) := fun c h fs => by
    cases c
    · rfl
    · exact Gikan.carry_eq_sets ..
  simp only [Gikan.restartFlds, ← Gikan.sets_sets, ← hif, ← hdelay, ← Gikan.carry_eq_sets]
  rfl

@[simp] theorem Gikan.body_restart (g : Gikan) (cause : Nat) (keep : Bool) : (g.restart cause keep).body = (g.restartBase cause).body := by
  rw [Gikan.restart_eq, Gikan.body_sets]

/-- The places of those fields, whatever they hold. -/
def restartKeys (warm keep : Bool) : List Nat :=
  (fixedFlds ++ (List.range 32).flatMap (fun p => [F.LNK_TS_DELAY_TX_PS p, F.LNK_TS_DELAY_RX_PS p]) ++ (if warm then warmFlds else []) ++
    (if keep then haspFlds else []) ++ [F.GLB_RESET_CAUSE_CAUSE, F.GLB_RESET_CAUSE_HASP_KEPT]).map Fld.key

theorem Gikan.restartFlds_keys (g : Gikan) (cause : Nat) (keep : Bool) :
    (g.restartFlds cause keep).map (fun x => x.1.key) = restartKeys (cause != 1) keep := by
  simp [Gikan.restartFlds, restartKeys, List.map_flatMap, Function.comp_def]

theorem restartKeys_nodup (warm keep : Bool) : (restartKeys warm keep).Nodup := by
  cases warm <;> cases keep <;> decide +kernel

/-- A field that no reset carries over is at its reset value. -/
theorem Gikan.get_restart_reset (g : Gikan) (cause : Nat) (keep : Bool) {f : Fld} (hf : f.key ∉ restartKeys (cause != 1) keep) :
    (g.restart cause keep).get f = f.rst := by
  rw [Gikan.restart_eq, Gikan.get_sets_ne _ _ _ (by rwa [Gikan.restartFlds_keys])]
  rfl

theorem Gikan.get_restart_mem (g : Gikan) {cause : Nat} {keep : Bool} {f : Fld} {v : Nat} (hf : (f, v) ∈ g.restartFlds cause keep) :
    (g.restart cause keep).get f = v % 2 ^ f.wid := by
  rw [Gikan.restart_eq]
  exact Gikan.get_sets_mem _ (by rw [Gikan.restartFlds_keys]; exact restartKeys_nodup ..) hf

/-- A field outside every list that a reset carries over. -/
theorem Gikan.get_restart_plain (g : Gikan) (cause : Nat) (keep : Bool) {f : Fld} (hf : f.key ∉ restartKeys true true) :
    (g.restart cause keep).get f = f.rst := by
  refine Gikan.get_restart_reset g cause keep fun h => hf ?_
  revert h
  simp only [restartKeys, List.map_append, List.mem_append, if_true]
  exact Or.imp_left (Or.imp (Or.imp_right fun h => by split at h <;> [exact h; cases h]) fun h => by split at h <;> [exact h; cases h])

/-- A fused field, or one of the boot record, is kept. -/
theorem Gikan.get_restart_fixed (g : Gikan) (cause : Nat) (keep : Bool) {f : Fld} (hf : f ∈ fixedFlds) :
    (g.restart cause keep).get f = g.get f % 2 ^ f.wid :=
  Gikan.get_restart_mem g (by
    simp only [Gikan.restartFlds, List.mem_append]
    exact .inl (.inl (.inl (.inl (List.mem_map_of_mem hf)))))

/-- The Hasp record is kept where the reset keeps it. -/
theorem Gikan.get_restart_hasp (g : Gikan) (cause : Nat) {f : Fld} (hf : f ∈ haspFlds) : (g.restart cause true).get f = g.get f % 2 ^ f.wid :=
  Gikan.get_restart_mem g (by
    simp only [Gikan.restartFlds, List.mem_append]
    exact .inl (.inr (List.mem_map_of_mem hf)))

theorem Gikan.on_restart_haspKept (g : Gikan) (cause : Nat) (keep : Bool) :
    (g.restart cause keep).on F.GLB_RESET_CAUSE_HASP_KEPT = (keep && g.on F.FLT_HASP0_VALID) := by
  rw [Gikan.on, Gikan.get_restart_mem g (v := if keep && g.on F.FLT_HASP0_VALID then 1 else 0) (by simp [Gikan.restartFlds])]
  cases keep && g.on F.FLT_HASP0_VALID <;> rfl

/-- Settles O60: ENTDAA takes an address where its premises let it (`Gikan.entdaa_takes`), and a reset leaves SEQ_OUT at its reset value. -/
theorem sequencePins : Obligations.SequencePins := by
  intro s
  refine ⟨fun da => ⟨fun h => congrArg s.done (Gikan.entdaa_idle h _), fun hi hv hlo hhi => ?_⟩, ?_, fun g cause keep => ⟨?_, ?_⟩, rfl, rfl⟩
  · refine ⟨s.withG _, congrArg s.done (Gikan.entdaa_takes hi hv hlo hhi), ?_, ?_, ?_, ?_⟩
    · have hfit : da.toNat % 2 ^ F.MGT_I3C_DA.wid = da.toNat := Nat.mod_eq_of_lt da.isLt
      simp (disch := decide) only [State.withG, Gikan.addressed, Gikan.get_nodeSoon_ne, Gikan.get_set_ne, Gikan.get_set_same, hfit]
    · simp (disch := decide) only [State.withG, Gikan.addressed, Gikan.on, Gikan.get_nodeSoon_ne, Gikan.get_set_ne, Gikan.get_set_same]
      rfl
    · simp (disch := decide) only [State.withG, Gikan.addressed, Gikan.on, Gikan.get_nodeSoon_ne, Gikan.get_set_ne, Gikan.get_set_same]
      rfl
    · exact (congrArg (fun b : Gikan => b.pins.seqOut) (Gikan.body_nodeSoon (s.g.addressed da.toNat)) :)
  · refine ⟨s.withG _, congrArg s.done s.g.rstdaa_eq, ?_, ?_, ?_⟩
    · simp (disch := decide) only [State.withG, Gikan.unaddressed, Gikan.on, Gikan.get_nodeSoon_ne, Gikan.get_set_ne, Gikan.get_set_same]
      rfl
    · simp (disch := decide) only [State.withG, Gikan.unaddressed, Gikan.on, Gikan.get_nodeSoon_ne, Gikan.get_set_ne, Gikan.get_set_same]
      rfl
    · exact (congrArg (fun b : Gikan => b.pins.seqOut) (Gikan.body_nodeSoon s.g.unaddressed) :)
  · exact (congrArg (fun b : Gikan => b.pins.seqOut) (g.body_restart cause keep) :)
  · rw [Gikan.on, Gikan.get_restart_plain g cause keep (by decide +kernel)]; rfl

end Sys2Proof.Machine
end

section
namespace Sys2Proof.Machine

/-- MGT_RESET with GO written resets by its KEY. -/
theorem Gikan.wrReset_go (g : Gikan) (w : RegW) {n : Nat}
    (hn : (wrField (trig w F.MGT_RESET_GO) F.MGT_RESET_KEY).1 &&& (wrField (trig w F.MGT_RESET_GO) F.MGT_RESET_KEY).2 = n) :
    g.wrReset (trig w F.MGT_RESET_GO) = if n = 0xA5 then g.restart 4 true else g := by
  unfold Gikan.wrReset
  dsimp only
  rw [wrOne_trig w _ rfl, hn, Bool.true_and]
  simp only [beq_iff_eq]

/-- What the pins' resets sample of the straps (R403). -/
theorem Gikan.get_strap_trayId (g : Gikan) (tray : BitVec 6) (ft : Bool) : (g.strap tray.toNat ft).get F.GLB_STRAPS_TRAY_ID = tray.toNat := by
  unfold Gikan.strap Gikan.setB
  simp (disch := decide) only [Gikan.get_set_ne, Gikan.get_set_same]
  exact Nat.mod_eq_of_lt tray.isLt

theorem Gikan.on_strap_test (g : Gikan) (n : Nat) (ft : Bool) : (g.strap n ft).on F.FLT_TEST_STRAP = ft := Gikan.on_setB _ _ _ rfl

/-- A reset empties every record of the work, the maps and the links. -/
theorem Gikan.restart_empties (g : Gikan) (cause : Nat) (keep : Bool) :
    let h := g.restart cause keep
    let r := State.reset.g
    (∀ a, memGet h.mem a = 0) ∧ h.req = r.req ∧ h.map = r.map ∧ h.sub = r.sub ∧ h.lnk = r.lnk ∧ h.xbar = r.xbar ∧ h.eng = r.eng ∧ h.pin = r.pin ∧
      h.red = r.red ∧ h.gfs = r.gfs ∧ h.coh = r.coh ∧ h.flt = r.flt := by
  have hb := g.body_restart cause keep
  have hmem : (g.restart cause keep).mem = [] := (congrArg Gikan.mem hb :)
  refine ⟨fun a => by rw [hmem]; rfl, ?_⟩
  exact ⟨(congrArg Gikan.req hb :), (congrArg Gikan.map hb :), (congrArg Gikan.sub hb :), (congrArg Gikan.lnk hb :), (congrArg Gikan.xbar hb :),
    (congrArg Gikan.eng hb :), (congrArg Gikan.pin hb :), (congrArg Gikan.red hb :), (congrArg Gikan.gfs hb :), (congrArg Gikan.coh hb :),
    (congrArg Gikan.flt hb :)⟩

/-- The boot flash stays, but for an area that an update was writing. -/
theorem Gikan.restart_flash (g : Gikan) (cause : Nat) (keep : Bool) :
    let h := g.restart cause keep
    h.sec.lmsNext = g.sec.lmsNext ∧ h.sec.lmsUse = g.sec.lmsNext ∧
      (g.mgt.upd = none → h.mgt.slot0 = g.mgt.slot0 ∧ h.mgt.slot1 = g.mgt.slot1 ∧ h.mgt.cfg = g.mgt.cfg) := by
  have hb := g.body_restart cause keep
  have hmgt : (g.restart cause keep).mgt =
      { MgtSt.reset with slot0 := (cutUpdate g.mgt).slot0, slot1 := (cutUpdate g.mgt).slot1, cfg := (cutUpdate g.mgt).cfg } :=
    (congrArg Gikan.mgt hb :)
  have hsec := (congrArg Gikan.sec hb :)
  refine ⟨(congrArg SecSt.lmsNext hsec :), (congrArg SecSt.lmsUse hsec :), fun hu => ?_⟩
  have hcut : cutUpdate g.mgt = g.mgt := by unfold cutUpdate; rw [hu]
  rw [hmgt, hcut]
  exact ⟨rfl, rfl, rfl⟩

theorem Gikan.phase_restart (g : Gikan) (cause : Nat) (keep : Bool) : (g.restart cause keep).phase = 0 :=
  g.get_restart_plain cause keep (by decide +kernel)

/-- Settles O56: the fields that a reset puts are a list (`Gikan.restart_eq`), every other field being at its reset value, and so is every record
beside the registers but for the flash's. -/
theorem resets : Obligations.Resets := by
  intro s
  refine ⟨fun tray ft held => ⟨rfl, rfl, Gikan.get_strap_trayId .., Gikan.on_strap_test ..⟩, rfl, fun w hr => ⟨fun hk => ?_, fun hk => ?_⟩,
    fun g cause keep hc => ?_⟩
  · exact exec_reaches rfl ((s.g.wrReset_go w hk).trans (if_pos rfl)) hr
  · exact exec_reaches rfl ((s.g.wrReset_go w rfl).trans (if_neg hk)) hr
  · obtain ⟨hmem, hreq, hmap, hsub, hlnk, hxbar, heng, hpin, hred, hgfs, hcoh, hflt⟩ := g.restart_empties cause keep
    obtain ⟨hnext, huse, hareas⟩ := g.restart_flash cause keep
    refine ⟨g.phase_restart cause keep, ?_, ?_, ?_, ?_, hmem, hreq, hmap, hsub, hlnk, hxbar, heng, hpin, hred, hgfs, hcoh, hflt, ?_, ?_, hnext, huse,
      hareas, fun hk => ?_, fun hk => ?_⟩
    · rw [Gikan.sealed, Gikan.on, g.get_restart_plain cause keep (by decide +kernel)]; rfl
    · rw [Gikan.hasp, g.phase_restart cause keep]; rfl
    · rw [Gikan.running, Gikan.on, g.get_restart_plain cause keep (by decide +kernel)]; rfl
    · rw [g.get_restart_mem (v := cause) (by simp [Gikan.restartFlds])]
      exact Nat.mod_eq_of_lt hc
    · exact g.get_restart_fixed cause keep (by simp [fixedFlds])
    · exact g.get_restart_fixed cause keep (by simp [fixedFlds])
    · subst hk
      exact ⟨g.get_restart_hasp cause (by simp [haspFlds]), g.on_restart_haspKept cause true⟩
    · subst hk
      refine ⟨?_, g.on_restart_haspKept cause false⟩
      rw [Gikan.on, g.get_restart_reset cause false (by cases (cause != 1) <;> decide +kernel)]; rfl

/-! ## Writes that the gate holds back (R3, R345, R373, R385, R389) -/

/-- A PCIe write in the Hasp state, or to another block before CONFIG. -/
theorem Gikan.gate_none {g : Gikan} {b : Bus} {off : Nat} (hb : b ≠ .i3c) (h : g.hasp = true ∨ (g.phase ≤ 1 ∧ mgmtBlock off = false)) :
    g.gate b off = .none := by
  unfold Gikan.gate
  cases b with
  | i3c => exact absurd rfl hb
  | pcieA | pcieB => rcases h with h | ⟨hp, hm⟩ <;> simp_all

/-- Under ENFORCE, a PCIe write of the port that does not hold the part. -/
theorem Gikan.gate_dropped {g : Gikan} {b : Bus} {off : Nat} (hb : b ≠ .i3c) (hh : g.hasp = false) (hp : 1 < g.phase ∨ mgmtBlock off = true)
    (he : g.on F.MGT_OWNER_ENFORCE = true) (ho : g.owns b = false) (hf : enforceFree off = false) : g.gate b off = .dropped := by
  have hearly : (decide (g.phase ≤ 1) && !mgmtBlock off) = false := by
    rcases hp with hp | hp
    · rw [decide_eq_false (by omega), Bool.false_and]
    · rw [hp, Bool.not_true, Bool.and_false]
  unfold Gikan.gate
  cases b with
  | i3c => exact absurd rfl hb
  | pcieA | pcieB => simp only [hh, hearly, he, ho, hf]; rfl

theorem Gikan.regWrite_none {g : Gikan} {w : RegW} {off : Nat} (h : g.gate w.bus off = .none) : g.regWrite off w = g := by
  rw [Gikan.regWrite, Gikan.gated, h]

theorem Gikan.regWrite_dropped {g : Gikan} {w : RegW} {off : Nat} (h : g.gate w.bus off = .dropped) :
    g.regWrite off w = g.inc F.MGT_OWNER_DROPPED 1 := by
  rw [Gikan.regWrite, Gikan.gated, h]

theorem Gikan.regWrite_refused {g : Gikan} {w : RegW} {off : Nat} (h : g.gate w.bus off = .i3cRefused) :
    g.regWrite off w = g.inc F.MGT_I3C_REFUSED 1 := by
  rw [Gikan.regWrite, Gikan.gated, h]

theorem Gikan.registerWrite_whole (g : Gikan) (b : Bus) {off : Nat} (data : Word) (h : off % 8 = 0) :
    g.registerWrite b off 8 data = g.regWrite off ⟨b, .full, data⟩ := by
  rw [Gikan.registerWrite, if_pos ⟨rfl, h⟩]

theorem Gikan.registerWrite_malformed (g : Gikan) (b : Bus) {off width : Nat} (data : Word)
    (h : (width ≠ 4 ∧ width ≠ 8) ∨ (width = 8 ∧ off % 8 ≠ 0) ∨ (width = 4 ∧ off % 4 ≠ 0)) : g.registerWrite b off width data = g := by
  unfold Gikan.registerWrite
  rw [if_neg (by omega), if_neg (by omega), if_neg (by omega)]

/-- An I3C write of a register that I3C may not write, aligned or not. -/
theorem Gikan.i3cWrite_refused {g : Gikan} {off : Nat} (data : Word) (hv : g.on F.MGT_I3C_DA_VALID = true) (hm : i3cMay off = false) :
    g.i3cWrite off data = g.inc F.MGT_I3C_REFUSED 1 := by
  have hgate : g.gate .i3c off = .i3cRefused := by unfold Gikan.gate; simp only [hm, Bool.false_eq_true, if_false]
  unfold Gikan.i3cWrite
  rw [hv, Bool.not_true, if_neg Bool.false_ne_true]
  split
  · rfl
  · exact Gikan.regWrite_refused hgate

/-- Settles O11: each write by what the gate makes of it (`Gikan.gate_none`, `Gikan.gate_dropped`, `Gikan.i3cWrite_refused`). -/
theorem writesHeldBack : Obligations.WritesHeldBack := by
  refine ⟨fun s bus off data ha => ⟨fun hb h => congrArg s.done ?_, fun hb hh hp he ho hf => congrArg s.done ?_, fun hv hm => ?_⟩,
    fun s bus off width data h => congrArg s.done (Gikan.registerWrite_malformed _ _ _ h)⟩
  · exact (Gikan.registerWrite_whole _ _ _ ha).trans (Gikan.regWrite_none (Gikan.gate_none hb h))
  · exact (Gikan.registerWrite_whole _ _ _ ha).trans (Gikan.regWrite_dropped (Gikan.gate_dropped hb hh hp he ho hf))
  · exact congrArg s.done (Gikan.i3cWrite_refused data hv hm)

end Sys2Proof.Machine
end

section
namespace Sys2Proof.Machine

/-! ## What the fault collector makes of an event (R339 to R344) -/

/-- What the collector has counted, and the syndromes it keeps. -/
def Gikan.faultLog (g : Gikan) := (g.flt.corrected, g.flt.contained, g.flt.fatal, g.flt.syn)

theorem Gikan.faultLog_setPort (g : Gikan) (s : Side) (p : PciePort) : (g.setPort s p).faultLog = g.faultLog := by cases s <;> rfl

theorem Gikan.faultLog_msix (g : Gikan) (s : Side) (v : Nat) : (g.msix s v).faultLog = g.faultLog := by
  unfold Gikan.msix
  dsimp only
  split
  · rfl
  · split
    · exact Gikan.faultLog_setPort ..
    · rfl

theorem Gikan.faultLog_ibi (g : Gikan) (n : Nat) : (g.ibi n).faultLog = g.faultLog := by
  unfold Gikan.ibi
  split
  · rfl
  · split <;> rfl

theorem Gikan.faultLog_sendNotice (g : Gikan) : g.sendNotice.faultLog = g.faultLog := by
  unfold Gikan.sendNotice
  dsimp only
  split <;> split <;> split <;> simp only [Gikan.faultLog_ibi, Gikan.faultLog_msix]

theorem Gikan.faultLog_notice (g : Gikan) : g.notice.faultLog = g.faultLog := by
  unfold Gikan.notice
  split
  · rfl
  · exact g.faultLog_sendNotice

theorem Gikan.faultLog_set (g : Gikan) (f : Fld) (v : Nat) : (g.set f v).faultLog = g.faultLog := rfl

theorem Gikan.faultLog_enterHasp (g : Gikan) (c n : Nat) : (g.enterHasp c n).faultLog = g.faultLog := by
  rw [Gikan.enterHasp, Gikan.faultLog_ibi, Gikan.faultLog_sendNotice, Gikan.haspRecord, Gikan.haspGroups]
  iterate 7 rw [Gikan.faultLog_set]
  unfold Gikan.setBitOf
  iterate 3 rw [Gikan.faultLog_set]

/-! The event before it is told of -/

/-- The bits of its group that an event sets, its count, and its syndrome; a further event of the class with it meets a syndrome. -/
def Gikan.logged (g : Gikan) (c : FClass) (n unit reg others : Nat) : Gikan :=
  let h := (g.setBitOf (F.FLT_WORDS_GROUPS 0) n).countFault c n (1 + others)
  let k := match c with
    | .corrected => h
    | .contained => (h.setBitOf (F.FLT_WORDS_GROUPS 1) n).recordSyn n 2 reg unit
    | .fatal => ((h.setBitOf (F.FLT_WORDS_GROUPS 1) n).setBitOf F.FLT_FATAL_GROUPS n).recordSyn n 3 reg unit
  if others = 0 then k else match c with
    | .corrected => k
    | .contained => k.recordSyn n 2 reg unit
    | .fatal => k.recordSyn n 3 reg unit

/-- How an event is told of: not at all in the Hasp state, by entry to it, or by a notice where one is due. -/
theorem Gikan.fault_cases (g : Gikan) (c : FClass) (n u r o : Nat) :
    (g.hasp = true ∧ g.fault c n u r o = g.logged c n u r o) ∨
    (g.hasp = false ∧ c = .fatal ∧ g.fault c n u r o = (g.logged c n u r o).enterHasp 1 n) ∨
    (g.hasp = false ∧ c ≠ .fatal ∧ (g.fault c n u r o = g.logged c n u r o ∨ g.fault c n u r o = (g.logged c n u r o).notice)) := by
  unfold Gikan.fault Gikan.logged
  cases c with
  | fatal =>
    dsimp only
    cases g.hasp with
    | true => exact .inl ⟨rfl, if_pos rfl⟩
    | false => exact .inr (.inl ⟨rfl, rfl, if_neg Bool.false_ne_true⟩)
  | corrected | contained =>
    dsimp only
    cases g.hasp with
    | true => exact .inl ⟨rfl, if_pos rfl⟩
    | false =>
      refine .inr (.inr ⟨rfl, by decide, ?_⟩)
      rw [if_neg Bool.false_ne_true]
      split <;>
      · split
        · exact .inr rfl
        · exact .inl rfl

theorem Gikan.faultLog_fault (g : Gikan) (c : FClass) (n u r o : Nat) : (g.fault c n u r o).faultLog = (g.logged c n u r o).faultLog := by
  rcases g.fault_cases c n u r o with ⟨-, h⟩ | ⟨-, -, h⟩ | ⟨-, -, h | h⟩ <;> rw [h]
  · exact Gikan.faultLog_enterHasp ..
  · exact Gikan.faultLog_notice _

/-! Fields -/

section
variable (g : Gikan) (c : FClass) (n u r o : Nat)

theorem Gikan.get_logged_ne (f : Fld) (h0 : f.key ≠ (F.FLT_WORDS_GROUPS 0).key) (h1 : f.key ≠ (F.FLT_WORDS_GROUPS 1).key)
    (hf : c = .fatal → f.key ≠ F.FLT_FATAL_GROUPS.key) : (g.logged c n u r o).get f = g.get f := by
  unfold Gikan.logged Gikan.setBitOf
  cases c with
  | corrected => dsimp only; split <;> rw [Gikan.get_countFault, Gikan.get_set_ne _ _ _ _ h0]
  | contained =>
    dsimp only
    split <;> simp only [Gikan.get_recordSyn] <;> rw [Gikan.get_set_ne _ _ _ _ h1, Gikan.get_countFault, Gikan.get_set_ne _ _ _ _ h0]
  | fatal =>
    dsimp only
    split <;> simp only [Gikan.get_recordSyn] <;>
      rw [Gikan.get_set_ne _ _ _ _ (hf rfl), Gikan.get_set_ne _ _ _ _ h1, Gikan.get_countFault, Gikan.get_set_ne _ _ _ _ h0]

theorem Gikan.bitOf_recordSyn (k : Gikan) (cls : Nat) (f : Fld) (i : Nat) : (k.recordSyn n cls r u).bitOf f i = k.bitOf f i := rfl

/-- The bits that a logged event sets. -/
theorem Gikan.bitOf_logged (hn : n < 64) : (g.logged c n u r o).bitOf (F.FLT_WORDS_GROUPS 0) n = true ∧
    (c ≠ .corrected → (g.logged c n u r o).bitOf (F.FLT_WORDS_GROUPS 1) n = true) ∧
    (c = .fatal → (g.logged c n u r o).bitOf F.FLT_FATAL_GROUPS n = true) := by
  have h0 : ((g.setBitOf (F.FLT_WORDS_GROUPS 0) n).countFault c n (1 + o)).bitOf (F.FLT_WORDS_GROUPS 0) n = true := by
    rw [Gikan.bitOf_countFault]; exact Gikan.bitOf_setBitOf_same _ _ hn
  have h1 : ∀ k : Gikan, (k.setBitOf (F.FLT_WORDS_GROUPS 1) n).bitOf (F.FLT_WORDS_GROUPS 1) n = true :=
    fun k => Gikan.bitOf_setBitOf_same _ _ hn
  unfold Gikan.logged
  cases c with
  | corrected =>
    dsimp only
    split <;> exact ⟨h0, fun h => absurd rfl h, fun h => nomatch h⟩
  | contained =>
    dsimp only
    split <;> simp only [Gikan.bitOf_recordSyn] <;>
      exact ⟨(Gikan.bitOf_setBitOf_ne _ _ _ _ _ (by decide)).trans h0, fun _ => h1 _, fun h => nomatch h⟩
  | fatal =>
    dsimp only
    split <;> simp only [Gikan.bitOf_recordSyn] <;>
      exact ⟨(Gikan.bitOf_setBitOf_ne _ _ _ _ _ (by decide)).trans ((Gikan.bitOf_setBitOf_ne _ _ _ _ _ (by decide)).trans h0),
        fun _ => (Gikan.bitOf_setBitOf_ne _ _ _ _ _ (by decide)).trans (h1 _), fun _ => Gikan.bitOf_setBitOf_same _ _ hn⟩

/-- An event that is not fatal leaves every field but the Fault Word and the count of interrupts. -/
theorem Gikan.get_fault_mild {c : FClass} (hc : c ≠ .fatal) (f : Fld) (h0 : f.key ≠ (F.FLT_WORDS_GROUPS 0).key)
    (h1 : f.key ≠ (F.FLT_WORDS_GROUPS 1).key) (hi : f.key ≠ F.MGT_I3C_IBIS.key) : (g.fault c n u r o).get f = g.get f := by
  have hk := g.get_logged_ne c n u r o f h0 h1 (fun h => absurd h hc)
  rcases g.fault_cases c n u r o with ⟨-, h⟩ | ⟨-, h, -⟩ | ⟨-, -, h | h⟩
  · rw [h, hk]
  · exact absurd h hc
  · rw [h, hk]
  · rw [h, Gikan.get_notice_ne _ _ hi, hk]

theorem Gikan.get_contained_mild (f : Fld) (h0 : f.key ≠ (F.FLT_WORDS_GROUPS 0).key) (h1 : f.key ≠ (F.FLT_WORDS_GROUPS 1).key)
    (hi : f.key ≠ F.MGT_I3C_IBIS.key) : (g.contained n u r).get f = g.get f := g.get_fault_mild n u r 0 (by decide) f h0 h1 hi

theorem Gikan.phase_contained : (g.contained n u r).phase = g.phase := g.get_contained_mild n u r _ (by decide) (by decide) (by decide)

theorem Gikan.hasp_contained : (g.contained n u r).hasp = g.hasp := by rw [Gikan.hasp, Gikan.phase_contained]; rfl

/-- Entry to the Hasp state leaves the Fault Word's and the fatal bits that are set. -/
theorem Gikan.bitOf_enterHasp_of (k : Gikan) (x n : Nat) (f : Fld) (i : Nat) (hf : f.key ≠ F.MGT_I3C_IBIS.key)
    (hp : f.key ≠ F.MGT_STATUS_PHASE.key) (hr : ∀ e ∈ haspFlds, f.key ≠ e.key) :
    (k.enterHasp x n).bitOf f i = (k.haspGroups n).bitOf f i := by
  have hrec : ((k.haspGroups n).haspRecord x n).get f = (k.haspGroups n).get f := by
    simp only [haspFlds, List.forall_mem_cons, List.not_mem_nil, false_imp_iff, implies_true, and_true] at hr
    obtain ⟨hv, hc, hg, -, h0, h1, h2⟩ := hr
    unfold Gikan.haspRecord
    rw [Gikan.get_set_ne _ _ _ _ h2, Gikan.get_set_ne _ _ _ _ h1, Gikan.get_set_ne _ _ _ _ h0, Gikan.get_set_ne _ _ _ _ hg,
      Gikan.get_set_ne _ _ _ _ hc, Gikan.get_set_ne _ _ _ _ hv]
  rw [Gikan.bitOf, Gikan.enterHasp, Gikan.get_ibi_ne _ _ _ hf, Gikan.get_sendNotice_ne _ _ hf, Gikan.get_set_ne _ _ _ _ hp, hrec]
  rfl

theorem Gikan.bitOf_setBitOf_of (k : Gikan) (f h : Fld) (i j : Nat) (hb : k.bitOf f j = true) (hk : f.key = h.key → f = h) (hj : j < f.wid) :
    (k.setBitOf h i).bitOf f j = true := by
  by_cases e : f.key = h.key
  · obtain rfl := hk e
    rw [Gikan.bitOf, Gikan.setBitOf, Gikan.get_set_same, Nat.testBit_mod_two_pow, setBit, Nat.testBit_or]
    rw [Gikan.bitOf] at hb
    simp [hb, hj]
  · rw [Gikan.bitOf_setBitOf_ne _ _ _ _ _ e, hb]

/-- What entry to the Hasp state records (R344). -/
theorem Gikan.enterHasp_records (k : Gikan) (x : Nat) (hn : n < 64) : (k.enterHasp x n).on F.FLT_HASP0_VALID = true ∧
    (k.enterHasp x n).get F.FLT_HASP0_CAUSE = x % 4 ∧ (k.enterHasp x n).get F.FLT_HASP0_GROUP = n ∧
    (k.enterHasp x n).get (F.FLT_HASPN_WORD 0) = k.time % 2 ^ (F.FLT_HASPN_WORD 0).wid := by
  have htime : (k.haspGroups n).time = k.time := by
    unfold Gikan.time Gikan.haspGroups Gikan.setBitOf
    simp (disch := decide) only [Gikan.get_set_ne]
  have hfld : ∀ f : Fld, f.key ≠ F.MGT_I3C_IBIS.key → f.key ≠ F.MGT_STATUS_PHASE.key →
      (k.enterHasp x n).get f = ((k.haspGroups n).haspRecord x n).get f := fun f hf hp => by
    rw [Gikan.enterHasp, Gikan.get_ibi_ne _ _ _ hf, Gikan.get_sendNotice_ne _ _ hf, Gikan.get_set_ne _ _ _ _ hp]
  refine ⟨?_, ?_, ?_, ?_⟩
  · rw [Gikan.on, hfld _ (by decide) (by decide), Gikan.haspRecord]
    simp (disch := decide) only [Gikan.get_set_ne, Gikan.get_set_same]
    rfl
  · rw [hfld _ (by decide) (by decide), Gikan.haspRecord]
    simp (disch := decide) only [Gikan.get_set_ne, Gikan.get_set_same]
    rfl
  · rw [hfld _ (by decide) (by decide), Gikan.haspRecord]
    simp (disch := decide) only [Gikan.get_set_ne, Gikan.get_set_same]
    exact Nat.mod_eq_of_lt hn
  · rw [hfld _ (by decide) (by decide), Gikan.haspRecord]
    simp (disch := decide) only [Gikan.get_set_ne, Gikan.get_set_same]
    rw [htime]

end

/-! Counts and syndromes -/

theorem Gikan.syn_setBitOf (g : Gikan) (f : Fld) (i n : Nat) : (g.setBitOf f i).syn n = g.syn n := rfl

theorem Gikan.syn_countFault (g : Gikan) (c : FClass) (m k n : Nat) : (g.countFault c m k).syn n = g.syn n := by cases c <;> rfl

theorem Gikan.syn_recordSyn (g : Gikan) (n cls r u : Nat) : (g.recordSyn n cls r u).syn n =
    (if !(g.syn n).valid then ⟨true, (g.syn n).overflow, cls, r, u, g.time⟩
    else if cls == 3 && (g.syn n).cls == 2 then ⟨true, true, cls, r, u, g.time⟩ else { g.syn n with overflow := true }) := by
  unfold Gikan.recordSyn
  exact Tbl.getD_setD_same ..

section
variable (g : Gikan) (n u r o : Nat)

theorem Gikan.corrected_logged : (g.logged .corrected n u r o).flt.corrected.getD n 0 = satAdd 32 (g.flt.corrected.getD n 0) (1 + o) ∧
    (g.logged .corrected n u r o).syn n = g.syn n := by
  unfold Gikan.logged
  dsimp only
  rw [ite_self]
  exact ⟨Tbl.getD_setD_same .., rfl⟩

theorem Gikan.contained_logged : (g.logged .contained n u r o).flt.contained.getD n 0 = satAdd 16 (g.flt.contained.getD n 0) (1 + o) := by
  unfold Gikan.logged
  dsimp only
  split <;> exact Tbl.getD_setD_same ..

theorem Gikan.fatal_logged : (g.logged .fatal n u r o).flt.fatal.getD n 0 = satAdd 16 (g.flt.fatal.getD n 0) (1 + o) := by
  unfold Gikan.logged
  dsimp only
  split <;> exact Tbl.getD_setD_same ..

/-- The first event of a group without a syndrome becomes its syndrome (R341). -/
theorem Gikan.syn_logged_first {c : FClass} (hc : c ≠ .corrected) (hv : (g.syn n).valid = false) :
    (g.logged c n u r 0).syn n = ⟨true, (g.syn n).overflow, if c = .fatal then 3 else 2, r, u, g.time⟩ := by
  have hfirst : ∀ k : Gikan, k.syn n = g.syn n → k.time = g.time → ∀ cls,
      (k.recordSyn n cls r u).syn n = ⟨true, (g.syn n).overflow, cls, r, u, g.time⟩ := fun k hk ht cls => by
    rw [Gikan.syn_recordSyn, hk, hv, ht]; rfl
  unfold Gikan.logged
  cases c with
  | corrected => exact absurd rfl hc
  | contained | fatal =>
    dsimp only
    rw [if_pos (rfl : 0 = 0)]
    refine hfirst _ (by simp only [Gikan.syn_setBitOf, Gikan.syn_countFault]) ?_ _
    unfold Gikan.time Gikan.setBitOf
    simp (disch := decide) only [Gikan.get_set_ne, Gikan.get_countFault]

/-- A contained event of a group with a syndrome is the sign that one was lost (R341). -/
theorem Gikan.syn_logged_lost (hv : (g.syn n).valid = true) : (g.logged .contained n u r o).syn n = { g.syn n with overflow := true } := by
  have hover : ∀ (k : Gikan) (x : Syn), k.syn n = x → x.valid = true → (k.recordSyn n 2 r u).syn n = { x with overflow := true } :=
    fun k x hk hx => by
      rw [Gikan.syn_recordSyn, hk, if_neg (by rw [hx]; decide)]; rfl
  have hsyn : (((g.setBitOf (F.FLT_WORDS_GROUPS 0) n).countFault .contained n (1 + o)).setBitOf (F.FLT_WORDS_GROUPS 1) n).syn n = g.syn n := by
    simp only [Gikan.syn_setBitOf, Gikan.syn_countFault]
  unfold Gikan.logged
  dsimp only
  split
  · exact hover _ _ hsyn hv
  · exact hover _ { g.syn n with overflow := true } (hover _ _ hsyn hv) hv

end

section
variable {g h : Gikan} (e : h.faultLog = g.faultLog)
include e

theorem Gikan.corrected_of_faultLog : h.flt.corrected = g.flt.corrected := (congrArg (fun x => x.1) e :)
theorem Gikan.contained_of_faultLog : h.flt.contained = g.flt.contained := (congrArg (fun x => x.2.1) e :)
theorem Gikan.fatal_of_faultLog : h.flt.fatal = g.flt.fatal := (congrArg (fun x => x.2.2.1) e :)
theorem Gikan.synTbl_of_faultLog : h.flt.syn = g.flt.syn := (congrArg (fun x => x.2.2.2) e :)
theorem Gikan.syn_of_faultLog (n : Nat) : h.syn n = g.syn n := by rw [Gikan.syn, Gikan.synTbl_of_faultLog e]; rfl

end

/-! What a fault leaves -/

theorem Gikan.phase_enterHasp (g : Gikan) (x n : Nat) : (g.enterHasp x n).phase = 7 := by
  rw [Gikan.phase, Gikan.enterHasp, Gikan.get_ibi_ne _ _ _ (by decide), Gikan.get_sendNotice_ne _ _ (by decide), Gikan.get_set_same]
  rfl

theorem Gikan.bitOf_haspGroups (g : Gikan) {n : Nat} (hn : n < 64) : (g.haspGroups n).bitOf (F.FLT_WORDS_GROUPS 0) n = true ∧
    (g.haspGroups n).bitOf (F.FLT_WORDS_GROUPS 1) n = true := by
  unfold Gikan.haspGroups
  constructor
  · rw [Gikan.bitOf_setBitOf_ne _ _ _ _ _ (by decide), Gikan.bitOf_setBitOf_ne _ _ _ _ _ (by decide)]
    exact Gikan.bitOf_setBitOf_same _ _ hn
  · rw [Gikan.bitOf_setBitOf_ne _ _ _ _ _ (by decide)]
    exact Gikan.bitOf_setBitOf_same _ _ hn

section
variable (g : Gikan) (c : FClass) {n : Nat} (u r o : Nat)

/-- Every event sets its group's bit of the Fault Word, and one that is not corrected the second bit too. -/
theorem Gikan.bitOf_fault (hn : n < 64) : (g.fault c n u r o).bitOf (F.FLT_WORDS_GROUPS 0) n = true ∧
    (c ≠ .corrected → (g.fault c n u r o).bitOf (F.FLT_WORDS_GROUPS 1) n = true) ∧
    (c = .fatal → (g.fault c n u r o).bitOf F.FLT_FATAL_GROUPS n = true) := by
  obtain ⟨h0, h1, hf⟩ := g.bitOf_logged c n u r o hn
  rcases g.fault_cases c n u r o with ⟨-, h⟩ | ⟨-, -, h⟩ | ⟨-, hc, h | h⟩ <;> rw [h]
  · exact ⟨h0, h1, hf⟩
  · have hword : ∀ i, i = 0 ∨ i = 1 → ((g.logged c n u r o).enterHasp 1 n).bitOf (F.FLT_WORDS_GROUPS i) n =
        ((g.logged c n u r o).haspGroups n).bitOf (F.FLT_WORDS_GROUPS i) n := by
      rintro i (rfl | rfl) <;> exact Gikan.bitOf_enterHasp_of _ _ _ _ _ (by decide) (by decide) (by decide)
    obtain ⟨hw0, hw1⟩ := (g.logged c n u r o).bitOf_haspGroups hn
    exact ⟨(hword 0 (.inl rfl)).trans hw0, fun _ => (hword 1 (.inr rfl)).trans hw1, fun _ => Gikan.bitOf_enterHasp _ _ hn⟩
  · exact ⟨h0, h1, hf⟩
  · refine ⟨?_, fun hx => ?_, fun hx => absurd hx hc⟩
    · rw [Gikan.bitOf_notice_ne _ _ _ (by decide), h0]
    · rw [Gikan.bitOf_notice_ne _ _ _ (by decide), h1 hx]

theorem Gikan.hasp_fault_mild {c : FClass} (hc : c ≠ .fatal) : (g.fault c n u r o).hasp = g.hasp := by
  rw [Gikan.hasp, Gikan.phase, g.get_fault_mild n u r o hc _ (by decide) (by decide) (by decide)]; rfl

/-- A fatal event outside the Hasp state enters it and records it there; within it the state stays. -/
theorem Gikan.fatal_fault (hn : n < 64) : (g.fault .fatal n u r o).hasp = true ∧ (g.hasp = false →
    (g.fault .fatal n u r o).on F.FLT_HASP0_VALID = true ∧ (g.fault .fatal n u r o).get F.FLT_HASP0_CAUSE = 1 ∧
    (g.fault .fatal n u r o).get F.FLT_HASP0_GROUP = n ∧
    (g.fault .fatal n u r o).get (F.FLT_HASPN_WORD 0) = g.time % 2 ^ (F.FLT_HASPN_WORD 0).wid) := by
  rcases g.fault_cases .fatal n u r o with ⟨hh, h⟩ | ⟨-, -, h⟩ | ⟨-, hc, -⟩
  · refine ⟨?_, fun hx => absurd hh (by rw [hx]; decide)⟩
    rw [h, Gikan.hasp, Gikan.phase, g.get_logged_ne _ _ _ _ _ _ (by decide) (by decide) fun _ => by decide]
    exact hh
  · rw [h]
    obtain ⟨hv, hcause, hgroup, htime⟩ := Gikan.enterHasp_records n (g.logged .fatal n u r o) 1 hn
    refine ⟨Gikan.hasp_enterHasp .., fun _ => ⟨hv, hcause, hgroup, htime.trans ?_⟩⟩
    rw [Gikan.time, g.get_logged_ne _ _ _ _ _ _ (by decide) (by decide) fun _ => by decide]; rfl
  · exact absurd rfl hc

end

/-! Rows -/

/-- An error of the collector outside the Hasp state enters it with cause 2, and no syndrome is kept (R342). -/
theorem Gikan.collectorFault_enters {g : Gikan} (hh : g.hasp = false) : g.collectorFault.hasp = true ∧ g.collectorFault.get F.FLT_HASP0_CAUSE = 2 ∧
    g.collectorFault.get F.FLT_HASP0_GROUP = 63 ∧ g.collectorFault.mem = g.mem ∧ g.collectorFault.flt.syn = g.flt.syn := by
  have heq : g.collectorFault = g.enterHasp 2 63 := by rw [Gikan.collectorFault, hh, if_neg Bool.false_ne_true]
  obtain ⟨-, hcause, hgroup, -⟩ := Gikan.enterHasp_records 63 g 2 (by decide)
  rw [heq]
  exact ⟨Gikan.hasp_enterHasp .., hcause, hgroup, Gikan.mem_of_quiet (Gikan.quiet_enterHasp ..),
    Gikan.synTbl_of_faultLog (Gikan.faultLog_enterHasp ..)⟩

/-- A write of FLT_INJECT in factory test mode: the miscompare is armed, and the event of its class raised. -/
theorem Gikan.wrInject_active {g : Gikan} (v : RegW) (ha : g.on F.FLT_TEST_ACTIVE = true) : g.wrInject v =
    (let at_ := fun (f : Fld) => (wrField v f).1 &&& (wrField v f).2
     let group := at_ F.FLT_INJECT_GROUP
     let mis := wrOne v F.FLT_INJECT_MISCOMPARE && (group == 48 || group == 50)
     let l := if mis then insNat g.flt.miscompare (group * 65536 + at_ F.FLT_INJECT_UNIT) else g.flt.miscompare
     let g1 : Gikan := { g with flt := { g.flt with miscompare := l } }
     let k : Gikan := { g1 with draw := g.draw + 1 }
     let reg := Config.openValue g.draw % 2 ^ 26
     if !wrOne v F.FLT_INJECT_GO then g1 else
     match at_ F.FLT_INJECT_CLASS with
     | 1 => k.fault .corrected group (at_ F.FLT_INJECT_UNIT) reg 0
     | 2 => k.fault .contained group (at_ F.FLT_INJECT_UNIT) reg 0
     | 3 => k.fault .fatal group (at_ F.FLT_INJECT_UNIT) reg 0
     | _ => g1) := by
  unfold Gikan.wrInject
  dsimp only
  rw [ha, Bool.not_true, if_neg Bool.false_ne_true]
  generalize (wrOne v F.FLT_INJECT_MISCOMPARE && _) = mis
  cases mis <;> rfl

theorem Gikan.wrInject_inactive {g : Gikan} (v : RegW) (ha : g.on F.FLT_TEST_ACTIVE = false) : g.wrInject v = g := by
  unfold Gikan.wrInject
  rw [ha]; rfl

/-- Settles O52: an event by how it is told of (`Gikan.fault_cases`) once it is logged, an injection by its class. -/
theorem faultCollector : Obligations.FaultCollector := by
  intro s
  refine ⟨fun g cls n unit reg others hn => ?_, fun _ _ _ _ _ => rfl, fun hh => congrArg s.done (if_pos hh),
    fun hh => ⟨_, rfl, Gikan.collectorFault_enters hh⟩, fun w v row hr hrow => ?_⟩
  · have hlog := g.faultLog_fault cls n unit reg others
    obtain ⟨hb0, hb1, hbf⟩ := g.bitOf_fault cls unit reg others hn
    refine ⟨hb0, Gikan.mem_of_quiet (Gikan.quiet_fault ..), ?_, ?_, ?_, fun hc => g.hasp_fault_mild unit reg others hc,
      fun hc => ⟨hb1 hc, fun hv ho => ?_, fun hv hcls => ?_⟩⟩
    · rintro rfl
      rw [Gikan.corrected_of_faultLog hlog, Gikan.syn_of_faultLog hlog]
      exact g.corrected_logged n unit reg others
    · rintro rfl
      rw [Gikan.contained_of_faultLog hlog]
      exact g.contained_logged n unit reg others
    · rintro rfl
      rw [Gikan.fatal_of_faultLog hlog]
      obtain ⟨hh, hrec⟩ := g.fatal_fault unit reg others hn
      exact ⟨g.fatal_logged n unit reg others, hbf rfl, hh, hrec⟩
    · subst ho
      exact (Gikan.syn_of_faultLog hlog n).trans (g.syn_logged_first n unit reg hc hv)
    · subst hcls
      exact (Gikan.syn_of_faultLog hlog n).trans (g.syn_logged_lost n unit reg others hv)
  · have hexec : ∀ k, s.g.wrInject v = k → exec row s = .next (s.withG k) := fun k hk => by
      rcases hrow with ⟨rfl, rfl⟩ | ⟨rfl, rfl⟩ <;> exact exec_reaches rfl hk hr
    refine ⟨fun ha => hexec _ (Gikan.wrInject_inactive v ha), fun ha => ⟨fun hgo => hexec _ ?_, fun hgo cls hcls => hexec _ ?_⟩⟩
    · rw [Gikan.wrInject_active v ha]
      dsimp only
      rcases hgo with hgo | hgo
      · rw [hgo]; rfl
      · dsimp only at hgo
        rw [hgo]
        exact ite_self _
    · rw [Gikan.wrInject_active v ha]
      dsimp only
      rw [hgo, Bool.not_true, if_neg Bool.false_ne_true]
      rcases hcls with ⟨hn, rfl⟩ | ⟨hn, rfl⟩ | ⟨hn, rfl⟩ <;>
        simp only [hn]

end Sys2Proof.Machine
end

section
namespace Sys2Proof.Machine

/-! ## What every fault keeps (R339 to R345, R383, R390) -/

section
variable {M : Gikan → Prop} (hset : ∀ h f v, M h → M (h.set f v)) (hport : ∀ h s p, M h → M (h.setPort s p)) (hemit : ∀ h o, M h → M (h.emit o))
  (hflt : ∀ (h : Gikan) x, M h → M { h with flt := x })

section
include hport hemit

theorem Gikan.msix_induction (g : Gikan) (s : Side) (v : Nat) (hg : M g) : M (g.msix s v) := by
  unfold Gikan.msix
  dsimp only
  split
  · exact hg
  · split
    · exact hport _ _ _ hg
    · exact hemit _ _ hg

end

section
include hset hemit hflt

theorem Gikan.ibi_induction (g : Gikan) (n : Nat) (hg : M g) : M (g.ibi n) := by
  unfold Gikan.ibi
  split
  · exact hg
  · split
    · exact hg
    · exact hemit _ _ (hset _ _ _ (hflt _ _ hg))

end

include hset hport hemit hflt

theorem Gikan.sendNotice_induction (g : Gikan) (hg : M g) : M g.sendNotice := by
  have hmsix : ∀ (c : Bool) (h : Gikan) s v, M h → M (if c then h.msix s v else h) := fun c h s v hh => by
    cases c
    · exact hh
    · exact Gikan.msix_induction hport hemit h s v hh
  have hibi : ∀ (c : Bool) (h : Gikan), M h → M (if c then h.ibi 1 else h) := fun c h hh => by
    cases c
    · exact hh
    · exact Gikan.ibi_induction hset hemit hflt h 1 hh
  exact hibi _ _ (hmsix _ _ _ _ (hmsix _ _ _ _ hg))

theorem Gikan.enterHasp_induction (g : Gikan) (x n : Nat) (hg : M g) : M (g.enterHasp x n) := by
  unfold Gikan.enterHasp
  refine Gikan.ibi_induction hset hemit hflt _ _ (Gikan.sendNotice_induction hset hport hemit hflt _ (hset _ _ _ ?_))
  unfold Gikan.haspRecord Gikan.haspGroups
  iterate 6 refine hset _ _ _ ?_
  exact hset _ _ _ (hset _ _ _ (hset _ _ _ hg))

/-- Whatever the puts of fields, the ports, what is sent and the collector's own records keep, every fault keeps. -/
theorem Gikan.fault_induction (g : Gikan) (c : FClass) (n u r o : Nat) (hg : M g) : M (g.fault c n u r o) := by
  have hcount : ∀ (h : Gikan) k, M h → M (h.countFault c n k) := fun h k hh => by cases c <;> exact hflt _ _ hh
  have hsyn : ∀ (h : Gikan) x, M h → M (h.recordSyn n x r u) := fun h x hh => hflt _ _ hh
  have hlog : M (g.logged c n u r o) := by
    have h0 : M ((g.setBitOf (F.FLT_WORDS_GROUPS 0) n).countFault c n (1 + o)) := hcount _ _ (hset _ _ _ hg)
    unfold Gikan.logged
    cases c with
    | corrected => dsimp only; split <;> exact h0
    | contained => dsimp only; split <;> [exact hsyn _ _ (hset _ _ _ h0); exact hsyn _ _ (hsyn _ _ (hset _ _ _ h0))]
    | fatal =>
      dsimp only
      split <;> [exact hsyn _ _ (hset _ _ _ (hset _ _ _ h0)); exact hsyn _ _ (hsyn _ _ (hset _ _ _ (hset _ _ _ h0)))]
  rcases g.fault_cases c n u r o with ⟨-, h⟩ | ⟨-, -, h⟩ | ⟨-, -, h | h⟩ <;> rw [h]
  · exact hlog
  · exact Gikan.enterHasp_induction hset hport hemit hflt _ _ _ hlog
  · exact hlog
  · unfold Gikan.notice
    split
    · exact hlog
    · exact hflt _ _ (Gikan.sendNotice_induction hset hport hemit hflt _ hlog)

end

/-- What the boot flash holds, and the update that writes it. -/
def Gikan.bootFlash (g : Gikan) := (g.mgt.slot0, g.mgt.slot1, g.mgt.cfg, g.mgt.upd)

theorem Gikan.bootFlash_fault (g : Gikan) (c : FClass) (n u r o : Nat) : (g.fault c n u r o).bootFlash = g.bootFlash :=
  Gikan.fault_induction (M := fun h => h.bootFlash = g.bootFlash) (fun _ _ _ h => h) (fun _ s _ h => by cases s <;> exact h) (fun _ _ h => h)
    (fun _ _ h => h) g c n u r o rfl

theorem Gikan.bootFlash_corrected (g : Gikan) (n u r : Nat) : (g.corrected n u r).bootFlash = g.bootFlash := Gikan.bootFlash_fault ..
theorem Gikan.bootFlash_contained (g : Gikan) (n u r : Nat) : (g.contained n u r).bootFlash = g.bootFlash := Gikan.bootFlash_fault ..

theorem Gikan.upd_of_bootFlash {g h : Gikan} (e : h.bootFlash = g.bootFlash) : h.mgt.upd = g.mgt.upd := congrArg (fun x => x.2.2.2) e

/-- A fault takes back nothing that was sent. -/
theorem Gikan.out_fault (g : Gikan) (c : FClass) (n u r o : Nat) : ∀ x ∈ g.out, x ∈ (g.fault c n u r o).out := by
  refine Gikan.fault_induction (M := fun h => ∀ x ∈ g.out, x ∈ h.out) (fun _ _ _ h => h) (fun _ s _ h => by cases s <;> exact h) (fun _ _ h => ?_)
    (fun _ _ h => h) g c n u r o fun _ hx => hx
  exact fun x hx => List.mem_append_left _ (h x hx)

theorem Gikan.pwr_of_quiet {g h : Gikan} (e : h.quiet = g.quiet) : h.pwr = g.pwr :=
  congrArg (fun x => x.2.2.2.2.2.2.2.2.2.2.2.2.2.2.2.2.2.2.2.2.2) e

theorem Gikan.pins_of_quiet {g h : Gikan} (e : h.quiet = g.quiet) : h.pins = g.pins := congrArg (fun x => x.2.2.2.2.2.1) e

/-! ## The throttle factor (R363 to R365, R370) -/

/-- T follows its parts: the time at TMIN and three fields change. -/
theorem Gikan.setT_sets (g : Gikan) : ∃ m, g.setT.pwr = { g.pwr with minSince := m } ∧ g.setT.mem = g.mem ∧ g.setT.out = g.out ∧
    g.setT.flt = g.flt ∧ ∀ f : Fld, f.key ≠ F.PWR_STATE_THROTTLE.key → f.key ≠ F.PWR_STATE_POWER_THROTTLE.key →
      f.key ≠ F.PWR_STATE_THERM_THROTTLE.key → g.setT.get f = g.get f := by
  refine ⟨_, rfl, rfl, rfl, rfl, fun f h1 h2 h3 => ?_⟩
  unfold Gikan.setT Gikan.setB
  rw [Gikan.get_set_ne _ _ _ _ h3, Gikan.get_set_ne _ _ _ _ h2]
  exact Gikan.get_set_ne _ _ _ _ h1

theorem Gikan.tMin_of_get {g h : Gikan} (e : h.get F.PWR_LIMIT_TMIN = g.get F.PWR_LIMIT_TMIN) : h.tMin = g.tMin := by
  unfold Gikan.tMin; rw [e]

theorem Gikan.throttle_setT (g : Gikan) : g.setT.get F.PWR_STATE_THROTTLE = g.setT.tInForce % 128 := by
  obtain ⟨m, hpwr, -, -, -, hget⟩ := g.setT_sets
  have hforce : g.setT.tInForce = g.tInForce := by
    unfold Gikan.tInForce
    rw [hpwr, Gikan.tMin_of_get (hget _ (by decide) (by decide) (by decide))]
  rw [hforce]
  unfold Gikan.setT Gikan.setB
  rw [Gikan.get_set_ne _ _ _ _ (by decide), Gikan.get_set_ne _ _ _ _ (by decide)]
  exact Gikan.get_set_same g F.PWR_STATE_THROTTLE g.tInForce

/-- The supply records at a lowering (R364). -/
def Gikan.lowered (g : Gikan) (avg : Nat) : PwrSt :=
  let down := fun (t : Nat) => if g.tMin < t then t - 1 else t
  let p := g.pwr
  { p with lowerAt := g.now, tPower := if g.capW < avg then down p.tPower else p.tPower, tTherm := if p.hot = [] then p.tTherm else down p.tTherm }

/-- The supply records at a raising (R364, R370). -/
def Gikan.raised (g : Gikan) (avg : Nat) : PwrSt :=
  let shed := g.on F.PWR_SAG_WARN && g.on F.PWR_LIMIT_SHED_ON_SAG
  let p := g.pwr
  { p with raiseAt := g.now, tPower := if avg + g.get F.PWR_LIMIT_HYST_W < g.capW ∧ !shed then min 64 (p.tPower + 1) else p.tPower,
           tTherm := if p.hot = [] then min 64 (p.tTherm + 1) else p.tTherm }

section
variable {g : Gikan} (hh : g.hasp = false) (avg : Nat)
include hh

theorem Gikan.throttleLower_due (ht : g.pwr.lowerAt + 100000 ≤ g.now) : g.throttleLower avg = ({ g with pwr := g.lowered avg }).setT := by
  unfold Gikan.throttleLower
  rw [hh, decide_eq_false (by omega), Bool.or_false, if_neg Bool.false_ne_true]
  rfl

theorem Gikan.throttleRaise_due (ht : g.pwr.raiseAt + 1000000 ≤ g.now) : g.throttleRaise avg = ({ g with pwr := g.raised avg }).setT := by
  unfold Gikan.throttleRaise
  rw [hh, decide_eq_false (by omega), Bool.or_false, if_neg Bool.false_ne_true]
  rfl

theorem Gikan.throttleFault_due {t : Nat} (hm : g.pwr.minSince = some t) (ht : t + 100000000 ≤ g.now) (hc : g.capW < avg) :
    g.throttleFault avg = ({ g with pwr := { g.pwr with minSince := none } }).faultOpen .contained 60 10 (offOf F.PWR_STATE_THROTTLE) := by
  unfold Gikan.throttleFault
  rw [hm]
  dsimp only
  rw [hh, decide_eq_false (by omega), decide_eq_false (by omega)]
  rfl

theorem Gikan.fastTrip_due (hc : g.capW * 105 < avg * 100) :
    g.fastTrip avg = ({ g with pwr := { g.pwr with shed := true } }).inc F.PWR_EVENTS_FAST_TRIPS 1 := by
  unfold Gikan.fastTrip
  rw [hh, decide_eq_false (by omega)]
  rfl

end

section
variable {g : Gikan} {avg : Nat}

theorem Gikan.throttleLower_early (ht : g.now < g.pwr.lowerAt + 100000) : g.throttleLower avg = g :=
  if_pos (by rw [decide_eq_true ht, Bool.or_true])

theorem Gikan.throttleRaise_early (ht : g.now < g.pwr.raiseAt + 1000000) : g.throttleRaise avg = g :=
  if_pos (by rw [decide_eq_true ht, Bool.or_true])

theorem Gikan.throttleFault_idle (h : ∀ t, g.pwr.minSince = some t → g.now < t + 100000000 ∨ avg ≤ g.capW) : g.throttleFault avg = g := by
  unfold Gikan.throttleFault
  split
  case h_1 => rfl
  case h_2 t hm =>
    refine if_pos ?_
    rcases h t hm with h | h
    · rw [decide_eq_true h, Bool.or_true, Bool.true_or]
    · rw [decide_eq_true h, Bool.or_true]

theorem Gikan.fastTrip_idle (hc : avg * 100 ≤ g.capW * 105) : g.fastTrip avg = g :=
  if_pos (by rw [decide_eq_true hc, Bool.or_true])

end

/-- A contained event of a unit that is open sets its group's bits, and touches nothing that faults leave. -/
theorem Gikan.faultOpen_contained (g : Gikan) {n : Nat} (hn : n < 64) (k r : Nat) :
    (g.faultOpen .contained n k r).bitOf (F.FLT_WORDS_GROUPS 1) n = true ∧ (g.faultOpen .contained n k r).pwr = g.pwr := by
  unfold Gikan.faultOpen
  obtain ⟨-, h1, -⟩ := g.next.2.bitOf_fault .contained (Config.openValue g.next.1 % k) r 0 hn
  exact ⟨h1 (by decide), Gikan.pwr_of_quiet (g := g.next.2) (Gikan.quiet_fault ..)⟩

theorem Gikan.shedBoundary_sheds {g : Gikan} (hs : g.pwr.shed = true) :
    g.shedBoundary.pwr.tPower = min g.pwr.tPower g.tMin ∧ g.shedBoundary.pwr.shed = false := by
  have heq : g.shedBoundary = ({ g with pwr := { g.pwr with shed := false, tPower := min g.pwr.tPower g.tMin } }).setT :=
    if_neg (by rw [hs]; decide)
  obtain ⟨m, hpwr, -⟩ := Gikan.setT_sets { g with pwr := { g.pwr with shed := false, tPower := min g.pwr.tPower g.tMin } }
  rw [heq, hpwr]
  exact ⟨rfl, rfl⟩

/-! ## The voltage loop (R366, R401) -/

theorem mem_delNat {l : List Nat} {a x : Nat} : x ∈ delNat l a ↔ x ∈ l ∧ x ≠ a := by
  unfold delNat
  rw [List.mem_filter, bne_iff_ne]

theorem setMv_key (rail : Nat) {f : Fld} (h0 : f.key ≠ F.PWR_AVS_SET_C0_MV.key) (h1 : f.key ≠ F.PWR_AVS_SET_C1_MV.key) :
    f.key ≠ (setMv rail).key := by
  unfold setMv; split
  · exact h0
  · exact h1

/-- Where the loop moves a rail (R366). -/
def avsNext (v : Nat) (margin target : Int) : Nat := if margin < target then min 8500 (v + 25) else if target < margin then max 6500 (v - 25) else v

/-- A rail's step, before the margin rule. -/
def Gikan.avsMoved (g : Gikan) (rail to_ : Nat) : Gikan :=
  if to_ = g.avsOf rail || g.avsFrozen rail then { g with pwr := { g.pwr with avsAt := g.pwr.avsAt.put rail g.now } }
  else (g.avsWrite rail to_).inc F.PWR_AVS_STEPS 1

theorem Gikan.avsStep_due {g : Gikan} {rail : Nat} (hh : g.hasp = false) (hp : g.phase ≠ 0) (ht : g.pwr.avsAt.getD rail 0 + 10000 ≤ g.now)
    (margin target floorM : Int) :
    g.avsStep rail margin target floorM = (g.avsMoved rail (avsNext (g.avsOf rail) margin target)).avsMargin rail (decide (margin < floorM)) := by
  unfold Gikan.avsStep
  rw [hh, beq_eq_false_iff_ne.mpr hp, decide_eq_false (by omega)]
  rfl

theorem Gikan.avsStep_idle {g : Gikan} {rail : Nat} (h : g.phase = 0 ∨ g.now < g.pwr.avsAt.getD rail 0 + 10000) (margin target floorM : Int) :
    g.avsStep rail margin target floorM = g := by
  refine if_pos ?_
  rcases h with h | h
  · rw [h]; simp
  · rw [decide_eq_true h, Bool.or_true]

/-- What a step leaves beside its rail: it takes the time of its step, and a rail that does not move keeps its voltage. -/
theorem Gikan.avsMoved_moves (g : Gikan) (rail to_ : Nat) :
    (g.avsMoved rail to_).avsOf rail = (if g.avsFrozen rail then g.avsOf rail else to_) ∧
    (g.avsMoved rail to_).pwr.avsAt.get? rail = some g.now ∧ (g.avsMoved rail to_).mem = g.mem ∧
    (g.avsMoved rail to_).pwr.margin = g.pwr.margin ∧
    (to_ ≠ g.avsOf rail → g.avsFrozen rail = false → Out.avs rail to_ ∈ (g.avsMoved rail to_).out) := by
  unfold Gikan.avsMoved
  by_cases hto : to_ = g.avsOf rail
  · rw [if_pos (by rw [decide_eq_true hto, Bool.true_or])]
    exact ⟨by rw [hto, ite_self]; rfl, Tbl.get?_put_same .., rfl, rfl, fun h => absurd hto h⟩
  · cases hf : g.avsFrozen rail with
    | true =>
      rw [if_pos (Bool.or_true _)]
      exact ⟨rfl, Tbl.get?_put_same .., rfl, rfl, fun _ h => nomatch h⟩
    | false =>
      rw [if_neg (by rw [decide_eq_false hto]; decide)]
      exact ⟨Tbl.getD_put_same .., Tbl.get?_put_same .., rfl, rfl, fun _ _ => List.mem_append_right _ (List.mem_singleton_self _)⟩

/-- The margin rule: it changes which margins are lost, and logs a margin that is newly lost. -/
theorem Gikan.avsMargin_rule (g : Gikan) (rail : Nat) (low : Bool) :
    (g.avsMargin rail low).pwr.avs = g.pwr.avs ∧ (g.avsMargin rail low).pwr.avsAt = g.pwr.avsAt ∧ (g.avsMargin rail low).mem = g.mem ∧
    (∀ x ∈ g.out, x ∈ (g.avsMargin rail low).out) ∧ (low = false → rail ∉ (g.avsMargin rail low).pwr.margin) ∧
    (low = true → 8500 ≤ g.avsOf rail → rail ∈ (g.avsMargin rail low).pwr.margin ∧
      (rail ∉ g.pwr.margin → (g.avsMargin rail low).bitOf (F.FLT_WORDS_GROUPS 1) 60 = true)) := by
  cases low with
  | false =>
    obtain ⟨m, hpwr, hmem, hout, -⟩ := Gikan.setT_sets { g with pwr := { g.pwr with margin := delNat g.pwr.margin rail } }
    have heq : g.avsMargin rail false = Gikan.setT { g with pwr := { g.pwr with margin := delNat g.pwr.margin rail } } := rfl
    rw [heq, hpwr, hmem, hout]
    exact ⟨rfl, rfl, rfl, fun _ h => h, fun _ h => (mem_delNat.mp h).2 rfl, fun h => nomatch h⟩
  | true =>
    by_cases hlost : (g.avsOf rail < 8500 || g.pwr.margin.contains rail) = true
    · have heq : g.avsMargin rail true = g := (if_neg Bool.false_ne_true).trans (if_pos hlost)
      rw [heq]
      refine ⟨rfl, rfl, rfl, fun _ h => h, fun h => (nomatch h), fun _ hv => ?_⟩
      have hmem : rail ∈ g.pwr.margin := by
        rw [decide_eq_false (by omega), Bool.false_or, List.contains_iff_mem] at hlost
        exact hlost
      exact ⟨hmem, fun h => absurd hmem h⟩
    · obtain ⟨m, hpwr, hmem, hout, -⟩ := Gikan.setT_sets { g with pwr := { g.pwr with margin := insNat g.pwr.margin rail } }
      obtain ⟨k, hk⟩ : ∃ k : Gikan, k = (Gikan.setT { g with pwr := { g.pwr with margin := insNat g.pwr.margin rail } }).inc
        F.PWR_AVS_MARGIN_FAULTS 1 := ⟨_, rfl⟩
      have heq : g.avsMargin rail true = k.contained 60 rail (offOf F.PWR_AVS_MARGIN_FAULTS) := by
        rw [hk]
        exact (if_neg Bool.false_ne_true).trans (if_neg hlost)
      have hq : (g.avsMargin rail true).quiet = k.quiet := by rw [heq, Gikan.quiet_contained]
      have hkpwr : k.pwr = { g.pwr with margin := insNat g.pwr.margin rail, minSince := m } := by rw [hk]; exact hpwr
      have hkmem : k.mem = g.mem := by rw [hk]; exact hmem
      have hkout : k.out = g.out := by rw [hk]; exact hout
      rw [Gikan.pwr_of_quiet hq, Gikan.mem_of_quiet hq, hkpwr]
      refine ⟨rfl, rfl, hkmem, fun x hx => ?_, fun h => (nomatch h), fun _ _ => ⟨mem_insNat.mpr (.inl rfl), fun _ => ?_⟩⟩
      · rw [heq]
        exact k.out_fault .contained _ _ _ _ x (hkout ▸ hx)
      · rw [heq]
        exact (k.faultWords_contained 60 rail _ (by decide)).2

/-- A rail whose regulator does not answer is held, and logged. -/
theorem Gikan.avsNoAnswer_holds {g : Gikan} {rail : Nat} (h : g.pwr.avsHeld.contains rail = false) :
    (g.avsNoAnswer rail).avsFrozen rail = true ∧ (g.avsNoAnswer rail).bitOf (F.FLT_WORDS_GROUPS 1) 60 = true ∧
      (g.avsNoAnswer rail).mem = g.mem := by
  obtain ⟨k, hk⟩ : ∃ k : Gikan, k = { g with pwr := { g.pwr with avsHeld := insNat g.pwr.avsHeld rail } } := ⟨_, rfl⟩
  have heq : g.avsNoAnswer rail = k.contained 60 rail (offOf F.PWR_AVS_MARGIN_FAULTS) := by
    rw [hk]
    exact if_neg (by rw [h]; decide)
  have hq : (g.avsNoAnswer rail).quiet = k.quiet := by rw [heq, Gikan.quiet_contained]
  have hheld : k.pwr.avsHeld.contains rail = true := by
    rw [hk, List.contains_iff_mem]
    exact mem_insNat.mpr (.inl rfl)
  refine ⟨?_, ?_, ?_⟩
  · rw [Gikan.avsFrozen, Gikan.pwr_of_quiet hq, hheld, Bool.or_true]
  · rw [heq]
    exact (k.faultWords_contained 60 rail _ (by decide)).2
  · rw [Gikan.mem_of_quiet hq, hk]

/-! ## Temperature (R367, R368) -/

/-- The sensors that throttle, after a reading. -/
def Gikan.throttled (g : Gikan) (x q : Nat) : Gikan :=
  if g.throttleQ x ≤ q then
    if g.pwr.hot.contains x then g
    else ({ g with pwr := { g.pwr with hot := insNat g.pwr.hot x } }).corrected 61 x (offOf F.PWR_THERM_HOTTEST)
  else if q + 12 ≤ g.throttleQ x then { g with pwr := { g.pwr with hot := delNat g.pwr.hot x } }
  else g

theorem Gikan.thermalReading_eq (g : Gikan) (x q : Nat) : g.thermalReading x q =
    (let h := (g.keepTemp x q).throttled x q
     if tripQ x ≤ q then
       let k : Gikan := { h with pins := { h.pins with thermtrip := true } }
       if g.tempQ x < tripQ x || !h.hasp then k.fatal 61 x (offOf F.PWR_THERM_HOTTEST) else k
     else h) := rfl

/-- A reading leaves every field but those of the hottest sensor, and everything beside the supply's records. -/
theorem Gikan.keepTemp_keeps (g : Gikan) (x q : Nat) : (g.keepTemp x q).tempQ x = min q 65535 ∧ (g.keepTemp x q).mem = g.mem ∧
    (g.keepTemp x q).pins = g.pins ∧ (g.keepTemp x q).hasp = g.hasp ∧ (g.keepTemp x q).throttleQ x = g.throttleQ x := by
  have hget : ∀ f : Fld, f.key ≠ F.PWR_THERM_HOTTEST.key → f.key ≠ F.PWR_THERM_HOTTEST_Q.key → (g.keepTemp x q).get f = g.get f :=
    fun f h1 h2 => (Gikan.get_set_ne _ _ _ _ h2).trans (Gikan.get_set_ne _ _ _ _ h1)
  refine ⟨?_, rfl, rfl, ?_, ?_⟩
  · rw [Gikan.tempQ]
    exact congrArg Prod.fst (Tbl.getD_put_same ..)
  · rw [Gikan.hasp, Gikan.phase, hget _ (by decide) (by decide)]; rfl
  · unfold Gikan.throttleQ
    rw [hget _ (by decide) (by decide), hget _ (by decide) (by decide)]

/-- What throttling leaves, and whether the sensor is among those that throttle. -/
theorem Gikan.throttled_keeps (g : Gikan) (x q : Nat) : (g.throttled x q).tempQ x = g.tempQ x ∧ (g.throttled x q).mem = g.mem ∧
    (g.throttled x q).pins = g.pins ∧ (g.throttled x q).hasp = g.hasp ∧ (g.throttleQ x ≤ q → x ∈ (g.throttled x q).pwr.hot) ∧
    (q + 12 ≤ g.throttleQ x → x ∉ (g.throttled x q).pwr.hot) := by
  unfold Gikan.throttled
  split
  case isTrue h =>
    split
    case isTrue hc => exact ⟨rfl, rfl, rfl, rfl, fun _ => List.contains_iff_mem.mp hc, fun _ => by omega⟩
    case isFalse =>
      obtain ⟨k, hk⟩ : ∃ k : Gikan, k = { g with pwr := { g.pwr with hot := insNat g.pwr.hot x } } := ⟨_, rfl⟩
      have hq := k.quiet_corrected 61 x (offOf F.PWR_THERM_HOTTEST)
      rw [← hk, Gikan.tempQ, Gikan.pwr_of_quiet hq, Gikan.mem_of_quiet hq, Gikan.pins_of_quiet hq, Gikan.corrected,
        k.hasp_fault_mild x _ 0 (by decide), hk]
      exact ⟨rfl, rfl, rfl, rfl, fun _ => mem_insNat.mpr (.inl rfl), fun _ => by omega⟩
  case isFalse h =>
    split
    · exact ⟨rfl, rfl, rfl, rfl, fun h' => absurd h' h, fun _ hx => (mem_delNat.mp hx).2 rfl⟩
    · exact ⟨rfl, rfl, rfl, rfl, fun h' => absurd h' h, fun _ => by omega⟩

theorem Gikan.thermalReading_effect (g : Gikan) (x q : Nat) : (g.thermalReading x q).tempQ x = min q 65535 ∧ (g.thermalReading x q).mem = g.mem ∧
    (g.throttleQ x ≤ q → x ∈ (g.thermalReading x q).pwr.hot) ∧ (q + 12 ≤ g.throttleQ x → x ∉ (g.thermalReading x q).pwr.hot) ∧
    (tripQ x ≤ q → (g.thermalReading x q).pins.thermtrip = true ∧ (g.tempQ x < tripQ x ∨ g.hasp = false →
      (g.thermalReading x q).bitOf F.FLT_FATAL_GROUPS 61 = true ∧ (g.thermalReading x q).hasp = true)) ∧
    (q < tripQ x → (g.thermalReading x q).pins = g.pins ∧ (g.thermalReading x q).hasp = g.hasp) := by
  obtain ⟨ktemp, kmem, kpins, khasp, kthr⟩ := g.keepTemp_keeps x q
  obtain ⟨htemp, hmem, hpins, hhasp, hhot, hcold⟩ := (g.keepTemp x q).throttled_keeps x q
  rw [kthr] at hhot hcold
  rw [Gikan.thermalReading_eq]
  generalize (g.keepTemp x q).throttled x q = h at *
  dsimp only
  split
  case isFalse ht =>
    exact ⟨htemp.trans ktemp, hmem.trans kmem, hhot, hcold, fun h' => absurd h' ht, fun _ => ⟨hpins.trans kpins, hhasp.trans khasp⟩⟩
  case isTrue ht =>
    obtain ⟨k, hk⟩ : ∃ k : Gikan, k = { h with pins := { h.pins with thermtrip := true } } := ⟨_, rfl⟩
    rw [← hk]
    have hkpwr : k.pwr = h.pwr := by rw [hk]
    have hkmem : k.mem = h.mem := by rw [hk]
    have hktrip : k.pins.thermtrip = true := by rw [hk]
    split
    case isTrue hf =>
      have hq := k.quiet_fatal 61 x (offOf F.PWR_THERM_HOTTEST)
      rw [Gikan.tempQ, Gikan.pwr_of_quiet hq, Gikan.mem_of_quiet hq, Gikan.pins_of_quiet hq, hkpwr, hkmem]
      refine ⟨htemp.trans ktemp, hmem.trans kmem, hhot, hcold, fun _ => ⟨hktrip, fun _ => ⟨?_, ?_⟩⟩, fun h' => by omega⟩
      · exact (k.bitOf_fault .fatal x _ 0 (by decide)).2.2 rfl
      · exact (k.fatal_fault x _ 0 (by decide)).1
    case isFalse hf =>
      rw [Gikan.tempQ, hkpwr, hkmem]
      refine ⟨htemp.trans ktemp, hmem.trans kmem, hhot, hcold, fun _ => ⟨hktrip, fun hw => absurd ?_ hf⟩, fun h' => by omega⟩
      rcases hw with hw | hw
      · rw [decide_eq_true hw, Bool.true_or]
      · rw [hhasp, khasp, hw]; simp

/-! ## Sag (R369 to R371) -/

/-- The fields that a commit of the SVN under way puts when it stops early. -/
def svnFlds : List Fld := [F.SEC_SVN_FUSED, F.SEC_KEYS_ECDSA_REVOKED, F.SEC_KEYS_LMS_REVOKED, F.SEC_SVN_BUSY, F.SEC_SVN_REFUSED, F.SEC_SVN_CAUSE]

/-- The fields that a sag warning puts as it stops the writes of flash and fuses. -/
def sagFlds : List Fld := svnFlds ++ [F.MGT_UPD_BUSY, F.MGT_UPD_REFUSED, F.MGT_UPD_CAUSE, F.TIER_STATUS_SAG_HOLD, F.TIER_SAG_DEMOTIONS_PAUSED]

/-- The writes of fuses, boot flash and tier flash stop. -/
def Gikan.sagStops (g : Gikan) : Gikan := ((g.svnSag).updSag).holdFlash

theorem Gikan.svnPart_sets (g : Gikan) : ∃ a b c, g.svnPart =
    ((({ g with draw := g.draw + 1 } : Gikan).set F.SEC_SVN_FUSED a).set F.SEC_KEYS_ECDSA_REVOKED b).set F.SEC_KEYS_LMS_REVOKED c :=
  ⟨_, _, _, rfl⟩

/-- A sag warning stops a commit of the SVN: fields and the count of free values change. -/
theorem Gikan.svnSag_stops (g : Gikan) : g.svnSag.mem = g.mem ∧ g.svnSag.mgt = g.mgt ∧ g.svnSag.pwr = g.pwr ∧
    g.svnSag.on F.SEC_SVN_BUSY = false ∧ ∀ f : Fld, (∀ e ∈ svnFlds, f.key ≠ e.key) → g.svnSag.get f = g.get f := by
  unfold Gikan.svnSag
  cases hb : g.on F.SEC_SVN_BUSY with
  | false => exact ⟨rfl, rfl, rfl, hb, fun _ _ => rfl⟩
  | true =>
    obtain ⟨a, b, c, hp⟩ := g.svnPart_sets
    rw [if_pos rfl, hp, Gikan.svnRefused]
    refine ⟨rfl, rfl, rfl, ?_, fun f hf => ?_⟩
    · rw [Gikan.on]
      simp (disch := decide) only [Gikan.get_set_ne, Gikan.get_set_same]
      rfl
    · simp only [svnFlds, List.forall_mem_cons, List.not_mem_nil, false_imp_iff, implies_true, and_true] at hf
      obtain ⟨hfused, he, hl, hbusy, hr, hcause⟩ := hf
      rw [Gikan.get_set_ne _ _ _ _ hcause, Gikan.get_set_ne _ _ _ _ hr, Gikan.get_set_ne _ _ _ _ hbusy, Gikan.get_set_ne _ _ _ _ hl,
        Gikan.get_set_ne _ _ _ _ he, Gikan.get_set_ne _ _ _ _ hfused]
      rfl

/-- It stops an update of the boot flash, whose area is left empty. -/
theorem Gikan.updSag_stops (g : Gikan) : g.updSag.mem = g.mem ∧ g.updSag.mgt.upd = none ∧ g.updSag.pwr = g.pwr ∧
    ∀ f : Fld, f.key ≠ F.MGT_UPD_BUSY.key → f.key ≠ F.MGT_UPD_REFUSED.key → f.key ≠ F.MGT_UPD_CAUSE.key → g.updSag.get f = g.get f := by
  unfold Gikan.updSag
  split
  case h_1 hu => exact ⟨rfl, hu, rfl, fun _ _ _ _ => rfl⟩
  case h_2 u hu =>
    refine ⟨rfl, ?_, rfl, fun f hb hr hc => ?_⟩
    · dsimp only [Gikan.mgt_set]
      split <;> rfl
    · dsimp only
      rw [Gikan.get_set_ne _ _ _ _ hc, Gikan.get_set_ne _ _ _ _ hr, Gikan.get_set_ne _ _ _ _ hb]
      rfl

theorem Gikan.sagStops_stops (g : Gikan) : g.sagStops.mem = g.mem ∧ g.sagStops.mgt.upd = none ∧ g.sagStops.pwr = g.pwr ∧
    g.sagStops.on F.SEC_SVN_BUSY = false ∧ g.sagStops.on F.TIER_STATUS_SAG_HOLD = true ∧
    ∀ f : Fld, (∀ e ∈ sagFlds, f.key ≠ e.key) → g.sagStops.get f = g.get f := by
  obtain ⟨smem, -, spwr, sbusy, sget⟩ := g.svnSag_stops
  obtain ⟨umem, uupd, upwr, uget⟩ := g.svnSag.updSag_stops
  have hget : ∀ f : Fld, f.key ≠ F.TIER_STATUS_SAG_HOLD.key → f.key ≠ F.TIER_SAG_DEMOTIONS_PAUSED.key →
      g.sagStops.get f = g.svnSag.updSag.get f := fun f h1 h2 =>
    (Gikan.get_inc_ne _ _ _ _ h2).trans (Gikan.get_set_ne _ _ _ _ h1)
  refine ⟨umem.trans smem, uupd, upwr.trans spwr, ?_, ?_, fun f hf => ?_⟩
  · rw [Gikan.on, hget _ (by decide) (by decide), uget _ (by decide) (by decide) (by decide)]
    exact sbusy
  · rw [Gikan.on, Gikan.sagStops, Gikan.holdFlash, Gikan.get_inc_ne _ _ _ _ (by decide), Gikan.get_set_same]
    rfl
  · rw [hget f (hf _ (by decide)) (hf _ (by decide)), uget f (hf _ (by decide)) (hf _ (by decide)) (hf _ (by decide))]
    exact sget f fun e he => hf e (List.mem_append_left _ he)

/-- What a sag warning records, before it stops any write. -/
def Gikan.sagNoted (g : Gikan) (rail : Nat) : Gikan :=
  let h := (((g.set F.PWR_SAG_WARN 1).set F.PWR_SAG_SEEN 1).set F.PWR_SAG_LAST_RAIL rail).inc F.PWR_SAG_WARNINGS 1
  let k := if rail = 15 then h.set F.PWR_SAG_SAG_N 1 else h
  if k.on F.PWR_LIMIT_SHED_ON_SAG then { k with pwr := { k.pwr with shed := true } } else k

theorem Gikan.sagNoted_notes (g : Gikan) (rail : Nat) : (g.sagNoted rail).mem = g.mem ∧ (g.sagNoted rail).on F.PWR_SAG_WARN = true ∧
    (g.sagNoted rail).on F.PWR_SAG_SEEN = true ∧ (g.sagNoted rail).get F.PWR_SAG_LAST_RAIL = rail % 16 ∧
    (g.on F.PWR_LIMIT_SHED_ON_SAG = true → (g.sagNoted rail).pwr.shed = true) := by
  obtain ⟨h, hh⟩ : ∃ h, h = (((g.set F.PWR_SAG_WARN 1).set F.PWR_SAG_SEEN 1).set F.PWR_SAG_LAST_RAIL rail).inc F.PWR_SAG_WARNINGS 1 := ⟨_, rfl⟩
  obtain ⟨k, hk⟩ : ∃ k, k = if rail = 15 then h.set F.PWR_SAG_SAG_N 1 else h := ⟨_, rfl⟩
  have hkh : k.mem = h.mem ∧ ∀ f : Fld, f.key ≠ F.PWR_SAG_SAG_N.key → k.get f = h.get f := by
    rw [hk]
    split
    · exact ⟨rfl, fun f hf => Gikan.get_set_ne _ _ _ _ hf⟩
    · exact ⟨rfl, fun _ _ => rfl⟩
  obtain ⟨hmem, hget⟩ := hkh
  have hres : (g.sagNoted rail).mem = k.mem ∧ (∀ f, (g.sagNoted rail).get f = k.get f) ∧
      (k.on F.PWR_LIMIT_SHED_ON_SAG = true → (g.sagNoted rail).pwr.shed = true) := by
    have heq : g.sagNoted rail = if k.on F.PWR_LIMIT_SHED_ON_SAG then { k with pwr := { k.pwr with shed := true } } else k := by
      unfold Gikan.sagNoted
      rw [hk, hh]
    rw [heq]
    split
    · exact ⟨rfl, fun _ => rfl, fun _ => rfl⟩
    · exact ⟨rfl, fun _ => rfl, fun h' => absurd h' (by assumption)⟩
  obtain ⟨rmem, rget, rshed⟩ := hres
  refine ⟨rmem.trans (hmem.trans (by rw [hh]; rfl)), ?_, ?_, ?_, fun hs => rshed ?_⟩
  · rw [Gikan.on, rget, hget _ (by decide), hh, Gikan.inc]
    simp (disch := decide) only [Gikan.get_set_ne, Gikan.get_set_same]
    rfl
  · rw [Gikan.on, rget, hget _ (by decide), hh, Gikan.inc]
    simp (disch := decide) only [Gikan.get_set_ne, Gikan.get_set_same]
    rfl
  · rw [rget, hget _ (by decide), hh, Gikan.inc]
    simp (disch := decide) only [Gikan.get_set_ne, Gikan.get_set_same]
    rfl
  · rw [Gikan.on, hget _ (by decide), hh, Gikan.inc]
    simp (disch := decide) only [Gikan.get_set_ne]
    exact hs

theorem Gikan.sagWarning_new {g : Gikan} (hw : g.on F.PWR_SAG_WARN = false) (rail : Nat) :
    g.sagWarning rail = (g.sagNoted rail).sagStops.corrected 60 rail (offOf F.PWR_SAG_WARN) := by
  unfold Gikan.sagWarning
  rw [hw, if_neg Bool.false_ne_true]
  unfold Gikan.sagNoted Gikan.sagStops
  dsimp only

/-- A warning is noted and logged, and stops the writes of flash and fuses (R369, R370). -/
theorem Gikan.sagWarning_effect {g : Gikan} (hw : g.on F.PWR_SAG_WARN = false) (rail : Nat) :
    let t := g.sagWarning rail
    t.on F.PWR_SAG_WARN = true ∧ t.on F.PWR_SAG_SEEN = true ∧ t.get F.PWR_SAG_LAST_RAIL = rail % 16 ∧ t.on F.TIER_STATUS_SAG_HOLD = true ∧
      t.mgt.upd = none ∧ t.on F.SEC_SVN_BUSY = false ∧ t.bitOf (F.FLT_WORDS_GROUPS 0) 60 = true ∧
      (g.on F.PWR_LIMIT_SHED_ON_SAG = true → t.pwr.shed = true) ∧ t.mem = g.mem := by
  obtain ⟨nmem, nwarn, nseen, nrail, nshed⟩ := g.sagNoted_notes rail
  obtain ⟨smem, supd, spwr, sbusy, shold, sget⟩ := (g.sagNoted rail).sagStops_stops
  have hq := (g.sagNoted rail).sagStops.quiet_corrected 60 rail (offOf F.PWR_SAG_WARN)
  have hget : ∀ f : Fld, f.apart → ((g.sagNoted rail).sagStops.corrected 60 rail (offOf F.PWR_SAG_WARN)).get f = (g.sagNoted rail).sagStops.get f :=
    fun f hf => Gikan.get_corrected _ _ _ _ f hf
  dsimp only
  rw [Gikan.sagWarning_new hw, Gikan.pwr_of_quiet hq, Gikan.mem_of_quiet hq, spwr, smem]
  refine ⟨?_, ?_, ?_, ?_, ?_, ?_, ?_, nshed, nmem⟩
  · rw [Gikan.on, hget _ ⟨by decide, by decide⟩, sget _ (by decide)]; exact nwarn
  · rw [Gikan.on, hget _ ⟨by decide, by decide⟩, sget _ (by decide)]; exact nseen
  · rw [hget _ ⟨by decide, by decide⟩, sget _ (by decide)]; exact nrail
  · rw [Gikan.on, hget _ ⟨by decide, by decide⟩]; exact shold
  · exact (Gikan.upd_of_bootFlash (Gikan.bootFlash_corrected ..)).trans supd
  · rw [Gikan.on, hget _ ⟨by decide, by decide⟩]; exact sbusy
  · exact Gikan.faultWord_corrected _ 60 rail _ (by decide)

/-- A critical sag enters the Hasp state with cause 3 (R371). -/
theorem Gikan.sagCritical_enters {g : Gikan} (hh : g.hasp = false) (rail : Nat) : (g.sagCritical rail).hasp = true ∧
    (g.sagCritical rail).get F.FLT_HASP0_CAUSE = 3 ∧ (g.sagCritical rail).get F.FLT_HASP0_GROUP = 60 ∧
    (g.sagCritical rail).bitOf F.FLT_FATAL_GROUPS 60 = true ∧ (g.sagCritical rail).mem = g.mem := by
  have heq : ∃ k : Gikan, g.sagCritical rail = k.enterHasp 3 60 ∧ k.mem = g.mem := ⟨_, if_neg (by rw [hh]; decide), rfl⟩
  obtain ⟨k, heq, hmem⟩ := heq
  obtain ⟨-, hcause, hgroup, -⟩ := Gikan.enterHasp_records 60 k 3 (by decide)
  rw [heq]
  exact ⟨Gikan.hasp_enterHasp .., hcause, hgroup, Gikan.bitOf_enterHasp _ _ (by decide), (Gikan.mem_of_quiet (Gikan.quiet_enterHasp ..)).trans hmem⟩

/-- Settles O55: each row is the case of its function that its premises choose. -/
theorem supplyAndHeat : Obligations.SupplyAndHeat := by
  intro s
  refine ⟨fun avg hh => ⟨fun ht => congrArg s.done (Gikan.throttleLower_early ht), fun ht => ?_,
      fun ht => congrArg s.done (Gikan.throttleRaise_early ht), fun ht => ?_, fun hm => congrArg s.done ?_, fun t hm => ⟨fun ht => congrArg s.done ?_,
      fun ht hc => ?_⟩, fun hc => congrArg s.done (Gikan.fastTrip_idle hc), fun hc => congrArg s.done (Gikan.fastTrip_due hh avg hc)⟩,
    fun g hs => Gikan.shedBoundary_sheds hs, fun rail margin target floorM hh => ⟨fun h => congrArg s.done (Gikan.avsStep_idle h _ _ _),
      fun hp ht => ?_⟩, fun rail => ⟨fun h => congrArg s.done (if_pos h), fun h => ⟨_, rfl, Gikan.avsNoAnswer_holds h⟩⟩,
    fun x q => ⟨_, rfl, s.g.thermalReading_effect x q⟩, fun rail => ⟨fun hw => congrArg s.done (if_pos hw),
      fun hw => ⟨_, rfl, Gikan.sagWarning_effect hw rail⟩, fun hh => ⟨_, rfl, Gikan.sagCritical_enters hh rail⟩,
      fun hh => congrArg s.done (if_pos hh)⟩, rfl⟩
  · obtain ⟨m, hpwr, hmem, -⟩ := Gikan.setT_sets { s.g with pwr := s.g.lowered avg }
    refine ⟨s.withG _, congrArg s.done (Gikan.throttleLower_due hh avg ht), ?_⟩
    dsimp only [State.withG]
    rw [hpwr]
    exact ⟨rfl, rfl, rfl, Gikan.throttle_setT _, hmem⟩
  · obtain ⟨m, hpwr, hmem, -⟩ := Gikan.setT_sets { s.g with pwr := s.g.raised avg }
    refine ⟨s.withG _, congrArg s.done (Gikan.throttleRaise_due hh avg ht), ?_⟩
    dsimp only [State.withG]
    rw [hpwr]
    refine ⟨rfl, ?_, rfl, Gikan.throttle_setT _, hmem⟩
    simp only [Gikan.raised, Bool.not_eq_true']
  · exact Gikan.throttleFault_idle fun t h => by rw [hm] at h; cases h
  · exact Gikan.throttleFault_idle fun t' h => by rw [hm] at h; cases h; exact ht
  · obtain ⟨hbit, hpwr⟩ := Gikan.faultOpen_contained { s.g with pwr := { s.g.pwr with minSince := none } } (n := 60) (by decide) 10
      (offOf F.PWR_STATE_THROTTLE)
    refine ⟨s.withG _, congrArg s.done (Gikan.throttleFault_due hh avg hm ht hc), ?_, hbit, Gikan.mem_faultOpen ..⟩
    exact congrArg PwrSt.minSince hpwr
  · obtain ⟨k, hk⟩ : ∃ k, k = s.g.avsMoved rail (avsNext (s.g.avsOf rail) margin target) := ⟨_, rfl⟩
    obtain ⟨mavs, mat, mmem, mmargin, mout⟩ := s.g.avsMoved_moves rail (avsNext (s.g.avsOf rail) margin target)
    obtain ⟨ravs, rat, rmem, rout, rkept, rlost⟩ := k.avsMargin_rule rail (decide (margin < floorM))
    rw [← hk] at mavs mat mmem mmargin mout
    have hv : (k.avsMargin rail (decide (margin < floorM))).avsOf rail = k.avsOf rail := by rw [Gikan.avsOf, ravs]; rfl
    have hstep : s.g.avsStep rail margin target floorM = k.avsMargin rail (decide (margin < floorM)) := by
      rw [Gikan.avsStep_due hh hp ht, hk]
    refine ⟨s.withG (k.avsMargin rail (decide (margin < floorM))), congrArg s.done hstep, hv.trans mavs, (congrArg (Tbl.get? · rail) rat).trans mat,
      rmem.trans mmem, fun h1 h2 => rout _ (mout h1 h2), fun hm => rkept (decide_eq_false (by omega)), fun hm h8 => ?_⟩
    obtain ⟨hin, hnew⟩ := rlost (decide_eq_true hm) (hv ▸ h8)
    exact ⟨hin, fun h => hnew (mmargin ▸ h)⟩

end Sys2Proof.Machine
end

section
namespace Sys2Proof.Machine

/-! ## Fences, checks and test mode (R346 to R353) -/

/-- A one-bit field is written 1 where its bit is, and is covered. -/
theorem wrOne_iff (w : RegW) (f : Fld) (h : f.wid = 1) :
    wrOne w f = true ↔ w.data.toNat.testBit (f.key % 64) = true ∧ (halfMask w.half).testBit (f.key % 64) = true := by
  have hbit : ∀ n i : Nat, bits n i 1 = if n.testBit i then 1 else 0 := fun n i => by
    rw [bits, Nat.pow_one, Nat.testBit, Nat.and_comm, Nat.and_one_is_mod]
    rcases Nat.mod_two_eq_zero_or_one (n >>> i) with h | h <;> rw [h] <;> rfl
  simp only [wrOne, wrField, h, hbit]
  split <;> split <;> simp_all

/-- A bit that is written 1 stays so beside a trigger. -/
theorem wrOne_trig_of (w : RegW) (f e : Fld) (h : e.wid = 1) (he : wrOne w e = true) : wrOne (trig w f) e = true := by
  have hl : e.key % 64 < 64 := Nat.mod_lt _ (by decide)
  rw [wrOne_iff _ _ h] at he ⊢
  obtain ⟨hd, hm⟩ := he
  refine ⟨?_, ?_⟩
  · rw [trig, BitVec.toNat_or, Nat.testBit_or, hd]; rfl
  · unfold trig
    dsimp only
    split
    · exact hm
    · rw [halfMask, Nat.testBit_two_pow_sub_one, decide_eq_true hl]

section
variable (g : Gikan) (w : RegW)

/-- A write of FLT_FENCE, before any unit moves. -/
def Gikan.fencePut (g : Gikan) (w : RegW) : Gikan := g.putFields w (offOf F.FLT_FENCE_REFUSED) [F.FLT_FENCE_REFUSED]

variable (hgo : wrOne w F.FLT_FENCE_GO = true)
include hgo

theorem Gikan.wrFence_fence {kind unit : Nat} (hk : (wrField w F.FLT_FENCE_KIND).1 &&& (wrField w F.FLT_FENCE_KIND).2 = kind)
    (hu : (wrField w F.FLT_FENCE_UNIT).1 &&& (wrField w F.FLT_FENCE_UNIT).2 = unit) (h : wrOne w F.FLT_FENCE_UNFENCE = false) :
    ((g.fencePut w).fence kind unit = none → g.wrFence w = (g.fencePut w).set F.FLT_FENCE_REFUSED 1) ∧
    ∀ k, (g.fencePut w).fence kind unit = some k → g.wrFence w = (g.fencePut w).cohSettle k := by
  have heq : g.wrFence w = (g.fencePut w).cohSettle (((g.fencePut w).fence kind unit).getD ((g.fencePut w).set F.FLT_FENCE_REFUSED 1)) := by
    unfold Gikan.wrFence
    dsimp only
    rw [hgo, h, hk, hu]; rfl
  refine ⟨fun hf => ?_, fun k hf => ?_⟩ <;> rw [heq, hf]
  · exact Gikan.cohSettle_same _ _ rfl rfl rfl
  · rfl

theorem Gikan.wrFence_unfence {kind unit : Nat} (hk : (wrField w F.FLT_FENCE_KIND).1 &&& (wrField w F.FLT_FENCE_KIND).2 = kind)
    (hu : (wrField w F.FLT_FENCE_UNIT).1 &&& (wrField w F.FLT_FENCE_UNIT).2 = unit) (h : wrOne w F.FLT_FENCE_UNFENCE = true) :
    g.wrFence w = (g.fencePut w).unfence kind unit := by
  unfold Gikan.wrFence
  dsimp only
  rw [hgo, h, hk, hu]; rfl

end

/-- A fence bit lies within its register. -/
theorem fenceBit_lt {kind unit : Nat} {f : Fld} {b : Nat} (h : fenceBit kind unit = some (f, b)) : b < f.wid := by
  have hmod : unit % 64 < 64 := Nat.mod_lt _ (by decide)
  unfold fenceBit at h
  split at h <;> simp only [Option.ite_none_right_eq_some, Option.some.injEq, Prod.mk.injEq, reduceCtorEq] at h <;> obtain ⟨hu, rfl, rfl⟩ := h
  case h_1 | h_3 => exact hmod
  all_goals exact hu

theorem clrBit_testBit (n i : Nat) : (clrBit n i).testBit i = false := by
  unfold clrBit
  split
  case isTrue h =>
    have hle : 2 ^ i ≤ n := Nat.ge_two_pow_of_testBit h
    have hadd := Nat.testBit_two_pow_add_eq (n - 2 ^ i) i
    rw [Nat.add_sub_cancel' hle, h] at hadd
    cases hb : (n - 2 ^ i).testBit i with
    | false => rfl
    | true => rw [hb] at hadd; cases hadd
  case isFalse h => exact Bool.eq_false_iff.mpr h

theorem Gikan.bitOf_putBitOf_false (g : Gikan) (f : Fld) (i : Nat) : (g.putBitOf f i false).bitOf f i = false := by
  rw [Gikan.bitOf, Gikan.putBitOf, Gikan.get_set_same, Nat.testBit_mod_two_pow, putBit, if_neg Bool.false_ne_true, clrBit_testBit, Bool.and_false]

section
variable (g : Gikan) {kind unit : Nat}

theorem Gikan.fence_of_none (h : fenceBit kind unit = none) : g.fence kind unit = none ∧ g.unfence kind unit = g := by
  unfold Gikan.fence Gikan.unfence
  rw [h]
  exact ⟨rfl, rfl⟩

/-- A fence is made only where it leaves enough in service (R346). -/
theorem Gikan.fence_of_some {f : Fld} {b : Nat} (h : fenceBit kind unit = some (f, b)) : g.fence kind unit =
    if (g.setBitOf f b).fenceLeaves kind unit then some ((g.setBitOf f b).moveQueued kind unit) else none := by
  unfold Gikan.fence
  rw [h]
  dsimp only
  cases (g.setBitOf f b).fenceLeaves kind unit <;> rfl

/-- A unit's return clears its fence bit and its mismatches. -/
theorem Gikan.unfence_clears {f : Fld} {b : Nat} (h : fenceBit kind unit = some (f, b)) :
    (g.unfence kind unit).bitOf f b = false ∧ (g.unfence kind unit).flt.mismatch.get? (mismatchKey kind unit) = none := by
  unfold Gikan.unfence
  rw [h]
  exact ⟨g.bitOf_putBitOf_false f b, Tbl.get?_del_same ..⟩

end

/-! Checks (R348, R349) -/

/-- A check that has started: it is counted, and its sample and the miscompare armed for its unit are taken. -/
def Gikan.checkStarted (g : Gikan) (u : UnitId) : Gikan :=
  let k := (g.dropSample u).inc F.FLT_CHECK_STATS_CHECKED 1
  { k with flt := { k.flt with miscompare := k.flt.miscompare.filter (fun n => n != kindGroup (kindOf u) * 65536 + u.n) } }

section
variable {g : Gikan} {u : UnitId}

theorem Gikan.check_none (h : g.sampleOf u = none) : g.checkDrop u = g ∧ ∀ a b c, g.checkRun u a b c = g := by
  refine ⟨?_, fun a b c => ?_⟩
  · rw [Gikan.checkDrop, h]
  · unfold Gikan.checkRun; dsimp only; rw [h]

variable {m : Sample} (hm : g.sampleOf u = some m)
include hm

/-- A check that has still its frames is not dropped. -/
theorem Gikan.checkDrop_early (ht : g.req.boundaries ≤ m.boundary + g.waitFrames) : g.checkDrop u = g := by
  unfold Gikan.checkDrop
  rw [hm]
  exact if_pos (by rw [decide_eq_true ht, Bool.or_true])

variable (hh : g.hasp = false)
include hh

/-- One that has not started in its frames is dropped, and runs no more (R348). -/
theorem Gikan.check_late (ht : m.boundary + g.waitFrames < g.req.boundaries) : (∀ a b c, g.checkRun u a b c = g) ∧
    g.checkDrop u = (g.dropSample u).inc F.FLT_CHECK_STATS_SKIPPED 1 := by
  refine ⟨fun a b c => ?_, ?_⟩
  · unfold Gikan.checkRun
    dsimp only
    rw [hm]
    exact if_pos (by rw [decide_eq_true ht, Bool.or_true])
  · rw [Gikan.checkDrop, hm]
    exact if_neg (by rw [hh, decide_eq_false (by omega)]; decide)

theorem Gikan.checkRun_due {c : Nat} (agrees wu wc : Bool) (ht : g.req.boundaries ≤ m.boundary + g.waitFrames)
    (hc : g.nextUnit u u.n [u.n] = some c) : g.checkRun u agrees wu wc =
    (let armed := g.flt.miscompare.contains (kindGroup (kindOf u) * 65536 + u.n)
     if agrees && !armed then g.checkStarted u else
     match (g.checkStarted u).nextUnit u c [u.n, c] with
     | none => (g.checkStarted u).inc F.FLT_CHECK_STATS_SKIPPED 1
     | some t => g.cohSettle ((g.checkStarted u).checkVote m c t (wu && !armed) (wc || armed))) := by
  unfold Gikan.checkRun
  dsimp only
  rw [hm]
  dsimp only
  rw [hh, decide_eq_false (by omega), hc]
  rfl

end

/-! Factory test mode (R353) -/

/-- The cause of a refusal rests on the token and on fields that neither the seal's counts nor REFUSED are. -/
theorem Gikan.testCause_congr {g h : Gikan} (hb : h.body = g.body)
    (hg : ∀ f : Fld, f.offSeal → f.key ≠ F.FLT_TEST_REFUSED.key → h.get f = g.get f) : h.testCause = g.testCause := by
  have htok : h.token4k = g.token4k := by
    unfold Gikan.token4k
    rw [show h.flt = g.flt from (congrArg Gikan.flt hb :)]
  have hstrap : h.on F.FLT_TEST_STRAP = g.on F.FLT_TEST_STRAP := by rw [Gikan.on, hg _ ⟨by decide, by decide⟩ (by decide)]; rfl
  have hseal : h.sealed = g.sealed := by rw [Gikan.sealed, Gikan.on, hg _ ⟨by decide, by decide⟩ (by decide)]; rfl
  have hrev : ∀ kind slot, h.keyRevoked kind slot = g.keyRevoked kind slot := fun kind slot => by
    unfold Gikan.keyRevoked
    split <;> rw [hg _ ⟨by decide, by decide⟩ (by decide)]
  have hdev : ∀ i, h.get (F.SEC_DEVICE_ID_WORD i) = g.get (F.SEC_DEVICE_ID_WORD i) := fun i =>
    hg _ ⟨by simp only [F.SEC_DEVICE_ID_WORD, F.MGT_SEAL_RWS_WRITES]; omega, by simp only [F.SEC_DEVICE_ID_WORD, F.MGT_SEAL_LAST_OFFSET]; omega⟩
      (by simp only [F.SEC_DEVICE_ID_WORD, F.FLT_TEST_REFUSED]; omega)
  unfold Gikan.testCause
  simp only [htok, hstrap, hseal, hrev, hdev]

/-- The causes fit their field. -/
theorem Gikan.testCause_lt (g : Gikan) : g.testCause < 16 := by
  unfold Gikan.testCause
  dsimp only
  iterate 7
    split
    · decide
  decide

theorem Gikan.wrFltTest_enter (g : Gikan) (w : RegW) : ∃ k : Gikan, k.body = g.body ∧
    (∀ f : Fld, f.offSeal → f.key ≠ F.FLT_TEST_REFUSED.key → k.get f = g.get f) ∧ g.wrFltTest (trig w F.FLT_TEST_ENTER) =
      if g.testCause = 0 then (k.set F.FLT_TEST_ACTIVE 1).set F.SEC_STATUS_FACTORY_TEST 1
      else (k.set F.FLT_TEST_REFUSED 1).set F.FLT_TEST_CAUSE g.testCause := by
  obtain ⟨k, hk⟩ : ∃ k, k = g.putFields (trig w F.FLT_TEST_ENTER) (offOf F.FLT_TEST_REFUSED) [F.FLT_TEST_REFUSED] := ⟨_, rfl⟩
  have hb : k.body = g.body := by rw [hk, Gikan.body_putFields]
  have hg : ∀ f : Fld, f.offSeal → f.key ≠ F.FLT_TEST_REFUSED.key → k.get f = g.get f := fun f ho hf => by
    rw [hk]; exact Gikan.get_putFields_ne _ _ _ _ _ ho fun e he => by rw [List.mem_singleton.mp he]; exact hf
  refine ⟨k, hb, hg, ?_⟩
  unfold Gikan.wrFltTest
  dsimp only
  rw [wrOne_trig w _ rfl, ← hk, Gikan.testCause_congr hb hg]
  rfl

/-- A monitor's results of the window that ends (R352). -/
def Gikan.monLatch (g : Gikan) (m : Nat) : Gikan :=
  { g with flt := { g.flt with
    done := g.flt.done.put m (g.flt.live.getD m MonWin.zero)
    live := g.flt.live.del m
    monLeft := g.flt.monLeft.put m (max 1 (g.get (F.MON_SEL_WINDOW_TICKS m))) } }

theorem Gikan.monEnd_due {g : Gikan} {m : Nat} (h : g.flt.monLeft.get? m = some 0) :
    let x := g.flt.live.getD m MonWin.zero
    let k := g.monLatch m
    ∃ n, g.monEnd m = (((k.set (F.MON_MINMAX_MIN m) (min x.lo (2 ^ 32 - 1))).set (F.MON_MINMAX_MAX m) (min x.hi (2 ^ 32 - 1))).set
      (F.MON_STATUS_SAMPLES m) (min x.n (2 ^ 32 - 1))).set (F.MON_STATUS_END_TICK m) n := by
  dsimp only
  unfold Gikan.monEnd
  rw [h, if_neg (not_not_intro rfl)]
  exact ⟨_, rfl⟩

theorem mon_keys (m : Nat) : (F.MON_MINMAX_MIN m).key ≠ (F.MON_MINMAX_MAX m).key ∧ (F.MON_MINMAX_MIN m).key ≠ (F.MON_STATUS_SAMPLES m).key ∧
    (F.MON_MINMAX_MIN m).key ≠ (F.MON_STATUS_END_TICK m).key ∧ (F.MON_MINMAX_MAX m).key ≠ (F.MON_STATUS_SAMPLES m).key ∧
    (F.MON_MINMAX_MAX m).key ≠ (F.MON_STATUS_END_TICK m).key ∧ (F.MON_STATUS_SAMPLES m).key ≠ (F.MON_STATUS_END_TICK m).key := by
  simp only [F.MON_MINMAX_MIN, F.MON_MINMAX_MAX, F.MON_STATUS_SAMPLES, F.MON_STATUS_END_TICK]
  omega

theorem Gikan.monEnd_shows {g : Gikan} {m : Nat} (h : g.flt.monLeft.get? m = some 0) :
    let x := g.flt.live.getD m MonWin.zero
    (g.monEnd m).get (F.MON_MINMAX_MIN m) = min x.lo (2 ^ 32 - 1) ∧ (g.monEnd m).get (F.MON_MINMAX_MAX m) = min x.hi (2 ^ 32 - 1) ∧
      (g.monEnd m).get (F.MON_STATUS_SAMPLES m) = min x.n (2 ^ 32 - 1) := by
  obtain ⟨h1, h2, h3, h4, h5, h6⟩ := mon_keys m
  have hfit : ∀ n : Nat, min n (2 ^ 32 - 1) % 2 ^ 32 = min n (2 ^ 32 - 1) := fun n => Nat.mod_eq_of_lt (by omega)
  obtain ⟨n, heq⟩ := Gikan.monEnd_due h
  dsimp only
  rw [heq]
  refine ⟨?_, ?_, ?_⟩
  · rw [Gikan.get_set_ne _ _ _ _ h3, Gikan.get_set_ne _ _ _ _ h2, Gikan.get_set_ne _ _ _ _ h1, Gikan.get_set_same]
    exact hfit _
  · rw [Gikan.get_set_ne _ _ _ _ h5, Gikan.get_set_ne _ _ _ _ h4, Gikan.get_set_same]
    exact hfit _
  · rw [Gikan.get_set_ne _ _ _ _ h6, Gikan.get_set_same]
    exact hfit _

/-- Settles O53: each row is the case of its function that its premises choose. -/
theorem fencesAndChecks : Obligations.FencesAndChecks := by
  intro s
  refine ⟨fun w v hr => ⟨?_, ?_⟩, fun g kind unit => ⟨g.fence_of_none, fun f b hb => ⟨fun hl => ?_, fun hl => ?_, g.unfence_clears hb⟩⟩, fun u => ⟨?_, ?_⟩,
    fun w hr => ?_, fun m => ⟨fun hm => congrArg s.done (if_pos hm), fun hm => ?_⟩⟩
  · rintro rfl hun
    have hw := s.g.wrFence_fence _ (wrOne_trig w F.FLT_FENCE_GO rfl) rfl rfl hun
    refine ⟨fun hf => exec_reaches rfl (hw.1 hf) hr, fun k hf => exec_reaches rfl (hw.2 k hf) hr⟩
  · rintro rfl
    have hun := wrOne_trig_of _ F.FLT_FENCE_GO _ rfl (wrOne_trig w F.FLT_FENCE_UNFENCE rfl)
    exact exec_reaches rfl (s.g.wrFence_unfence _ (wrOne_trig _ F.FLT_FENCE_GO rfl) rfl rfl hun) hr
  · rw [g.fence_of_some hb, hl]; rfl
  · rw [g.fence_of_some hb, hl]; rfl
  · intro hn
    obtain ⟨hd, hrun⟩ := Gikan.check_none hn
    exact ⟨congrArg s.done hd, fun a b c => congrArg s.done (hrun a b c)⟩
  · intro m hm hh
    refine ⟨fun ht => congrArg s.done (Gikan.checkDrop_early hm ht), fun ht => ?_, fun c agrees wu wc ht hc => ?_⟩
    · obtain ⟨hrun, hd⟩ := Gikan.check_late hm hh ht
      exact ⟨fun a b c => congrArg s.done (hrun a b c), congrArg s.done hd⟩
    · have hrun := Gikan.checkRun_due hm hh agrees wu wc ht hc
      dsimp only at hrun
      refine ⟨fun ha harm => congrArg s.done (hrun.trans (if_pos ?_)), fun hw => ?_⟩
      · rw [ha, harm]; rfl
      · rw [if_neg (by rcases hw with hw | hw <;> rw [hw] <;> simp)] at hrun
        refine ⟨fun ht => congrArg s.done (hrun.trans ?_), fun t ht => congrArg s.done (hrun.trans ?_)⟩ <;>
        · rw [show (s.g.checkStarted u).nextUnit u c [u.n, c] = _ from ht]
          rfl
  · obtain ⟨k, hb, hg, hw⟩ := s.g.wrFltTest_enter w
    refine ⟨s.withG _, exec_reaches rfl hw hr, ?_, fun h0 => ?_, fun h0 => ?_⟩
    · refine Eq.trans ?_ (Gikan.mem_of_body hb)
      dsimp only [State.withG]
      split <;> rfl
    · dsimp only [State.withG]
      rw [if_pos h0, Gikan.on_set_ne _ _ _ _ (by decide), Gikan.on_set_same, Gikan.on_set_same]
      exact ⟨rfl, rfl⟩
    · dsimp only [State.withG]
      rw [if_neg h0, Gikan.on_set_ne _ _ _ _ (by decide), Gikan.on_set_same, Gikan.get_set_same, Gikan.on_set_ne _ _ _ _ (by decide),
        Gikan.on_set_ne _ _ _ _ (by decide), Gikan.on, hg _ ⟨by decide, by decide⟩ (by decide)]
      exact ⟨rfl, Nat.mod_eq_of_lt s.g.testCause_lt, rfl⟩
  · obtain ⟨n, heq⟩ := Gikan.monEnd_due hm
    refine ⟨s.withG (s.g.monEnd m), rfl, ?_, ?_, ?_, Gikan.monEnd_shows hm⟩ <;> dsimp only [State.withG] <;> rw [heq]
    · exact Tbl.get?_put_same ..
    · exact Tbl.get?_del_same ..
    · exact Tbl.get?_put_same ..

end Sys2Proof.Machine
end

section
namespace Sys2Proof.Machine

/-! ## The boot ROM, the configuration check and the seal (R373 to R381) -/

section
variable (g : Gikan)

theorem Gikan.bootRomEnd_badFuses (h : g.phase = 0) : g.bootRomEnd false = g.faultOpen .fatal 62 65536 (offOf F.MGT_STATUS_PHASE) := by
  rw [Gikan.bootRomEnd, if_neg (not_not_intro h), if_pos (show (!false) = true from rfl)]

/-- What the boot ROM chooses a slot from: the rails at their setpoints, and the device's identity. -/
def Gikan.bootReady (g : Gikan) : Gikan :=
  (List.range 6).foldl (fun (h : Gikan) i => h.set (F.SEC_DEVICE_ID_WORD i) (Config.deviceIdHash 0 / 2 ^ (64 * i) % 2 ^ 64)) g.avsBoot

theorem Gikan.bootRomEnd_choice (h : g.phase = 0) : g.bootRomEnd true = if g.bootReady.chooseSlot.1 then g.bootReady.chooseSlot.2.set F.MGT_STATUS_PHASE 2
    else (g.bootReady.chooseSlot.2.set F.MGT_STATUS_PHASE 1).contained 62 0 (offOf F.SEC_STATUS_LAST_REFUSAL) := by
  unfold Gikan.bootRomEnd
  rw [h]; rfl

/-- A fatal event of a unit that is open enters the Hasp state, with its group's bit set. -/
theorem Gikan.faultOpen_fatal {n : Nat} (hn : n < 64) (k r : Nat) : (g.faultOpen .fatal n k r).hasp = true ∧
    (g.faultOpen .fatal n k r).bitOf F.FLT_FATAL_GROUPS n = true := by
  unfold Gikan.faultOpen
  exact ⟨(g.next.2.fatal_fault (Config.openValue g.next.1 % k) r 0 hn).1, (g.next.2.bitOf_fault .fatal (Config.openValue g.next.1 % k) r 0 hn).2.2 rfl⟩

/-- The records of a slot whose image passes every check (R373). -/
def Gikan.slotTaken (g : Gikan) (slot : Nat) (trial : Bool) : Gikan :=
  let im := g.slotImage slot
  g.sets [(F.MGT_STATUS_SLOT, slot), (F.MGT_STATUS_TRIAL, if trial then 1 else 0), (F.SEC_STATUS_BOOTED, 1), (F.SEC_STATUS_ECDSA_KEY, im.ecdsaKey),
    (F.SEC_STATUS_LMS_KEY, im.lmsKey), (F.SEC_STATUS_FW_SVN, im.svn), (F.GLB_FW_FW_VERSION, Config.fwVersion im.digest),
    (F.GLB_COMPAT_FW_MIN, Config.fwMin im.digest), (F.GLB_COMPAT_FW_MAX, Config.fwMax im.digest), (F.SEC_STATUS_UDS_LOCKED, 1)]

theorem Gikan.trySlot_eq (slot : Nat) (trial : Bool) : g.trySlot slot trial =
    (let c := g.imageCause (g.slotImage slot) [1] slotSpace
     if c ≠ 0 then (false, g.imageRefusal (g.slotImage slot) c) else (true, g.slotTaken slot trial)) := rfl

theorem Gikan.slotTaken_shows (slot : Nat) (trial : Bool) : (g.slotTaken slot trial).on F.SEC_STATUS_BOOTED = true ∧
    (g.slotTaken slot trial).on F.MGT_STATUS_TRIAL = trial ∧
    (g.slotTaken slot trial).get F.SEC_STATUS_FW_SVN = (g.slotImage slot).svn % 2 ^ F.SEC_STATUS_FW_SVN.wid := by
  have hn : ∀ v1 v2 v3 v4 v5 v6 v7 v8 v9 v10 : Nat, (List.map (fun x : Fld × Nat => x.1.key) [(F.MGT_STATUS_SLOT, v1), (F.MGT_STATUS_TRIAL, v2),
      (F.SEC_STATUS_BOOTED, v3), (F.SEC_STATUS_ECDSA_KEY, v4), (F.SEC_STATUS_LMS_KEY, v5), (F.SEC_STATUS_FW_SVN, v6), (F.GLB_FW_FW_VERSION, v7),
      (F.GLB_COMPAT_FW_MIN, v8), (F.GLB_COMPAT_FW_MAX, v9), (F.SEC_STATUS_UDS_LOCKED, v10)]).Nodup := fun _ _ _ _ _ _ _ _ _ _ =>
    (by decide : ([F.MGT_STATUS_SLOT.key, F.MGT_STATUS_TRIAL.key, F.SEC_STATUS_BOOTED.key, F.SEC_STATUS_ECDSA_KEY.key, F.SEC_STATUS_LMS_KEY.key,
      F.SEC_STATUS_FW_SVN.key, F.GLB_FW_FW_VERSION.key, F.GLB_COMPAT_FW_MIN.key, F.GLB_COMPAT_FW_MAX.key, F.SEC_STATUS_UDS_LOCKED.key] : List Nat).Nodup)
  unfold Gikan.slotTaken
  refine ⟨?_, ?_, ?_⟩
  · rw [Gikan.on, Gikan.get_sets_mem g (v := 1) (hn ..) (by simp)]; rfl
  · rw [Gikan.on, Gikan.get_sets_mem g (v := if trial then 1 else 0) (hn ..) (by simp)]
    cases trial <;> rfl
  · rw [Gikan.get_sets_mem g (v := (g.slotImage slot).svn) (hn ..) (by simp)]

theorem Gikan.chooseSlot_plain (h : g.on F.MGT_BOOT_TRIAL_VALID = false) : g.chooseSlot =
    if (g.trySlot (g.get F.MGT_BOOT_ACTIVE) false).1 then (true, (g.trySlot (g.get F.MGT_BOOT_ACTIVE) false).2)
    else (g.trySlot (g.get F.MGT_BOOT_ACTIVE) false).2.trySlot (1 - g.get F.MGT_BOOT_ACTIVE) false := by
  unfold Gikan.chooseSlot
  rw [h]; rfl

/-- A refused configuration image leaves NO_CONFIG (R380). -/
def Gikan.cfgRefused (g : Gikan) : Gikan := (g.set F.MGT_STATUS_PHASE 3).contained 62 0 (offOf F.MGT_STATUS_PHASE)

theorem Gikan.configCheckEnd_eq (h : g.phase = 2) : g.configCheckEnd =
    (let im := g.mgt.cfg.getD (blankImage 2)
     let c := g.imageCause im [2] cfgSpace
     if c ≠ 0 then (g.imageRefusal im c).cfgRefused else
     match cfgCause (im.content.take im.contentBytes) with
     | some (k, o) => ((g.set F.MGT_STATUS_CFG_CAUSE k).set F.MGT_STATUS_CFG_OFFSET o).cfgRefused
     | none => g.cfgApply im (im.content.take im.contentBytes)) := by
  unfold Gikan.configCheckEnd
  rw [if_neg (not_not_intro h)]
  rfl

theorem Gikan.phase_cfgRefused : g.cfgRefused.phase = 3 := by
  rw [Gikan.cfgRefused, Gikan.phase_contained, Gikan.phase, Gikan.get_set_same]; rfl

/-- GO does nothing after the seal, in NO_CONFIG, in RECOVERY and in factory test mode; else it seals once STAMPED, and is PENDING before (R381). -/
theorem Gikan.wrSeal_go (w : RegW) : g.wrSeal (trig w F.MGT_SEAL_GO) =
    if g.sealed || g.phase == 3 || g.phase == 1 || g.on F.FLT_TEST_ACTIVE then g else if g.stamped then g.seal else g.set F.MGT_SEAL_PENDING 1 := by
  unfold Gikan.wrSeal
  rw [wrOne_trig w _ rfl, Bool.not_true, Bool.false_or]

theorem Gikan.sealHoldExpiry_of {t : Nat} (h : g.mgt.stampedAt = some t) :
    g.sealHoldExpiry = if g.phase == 5 && decide (t + 1000000 * g.mgt.holdMs ≤ g.now) then g.seal else g := by
  unfold Gikan.sealHoldExpiry
  rw [h]

theorem Gikan.seal_phase (hs : g.sealed = false) : g.seal.phase = 6 ∧ g.seal.on F.MGT_SEAL_PENDING = false := by
  obtain ⟨-, -, hget⟩ := Gikan.seal_keeps hs
  refine ⟨?_, ?_⟩
  · rw [Gikan.phase, hget _ (by decide) (fun p => by simp only [F.MGT_STATUS_PHASE, F.LNK_STATUS_STATE]; omega), Gikan.sealPut, Gikan.get_set_same]
    rfl
  · rw [Gikan.on, hget _ (by decide) (fun p => by simp only [F.MGT_SEAL_PENDING, F.LNK_STATUS_STATE]; omega), Gikan.sealPut,
      Gikan.get_set_ne _ _ _ _ (by decide), Gikan.get_set_same]
    rfl

end

/-- Settles O57: each row is the case of its function that its premises choose. -/
theorem bootAndSeal : Obligations.BootAndSeal := by
  intro s
  refine ⟨fun ok => ⟨fun h => congrArg s.done (if_pos h), fun h0 hok => ?_, fun h h0 hok hc => ?_, fun h h0 hok hc => ?_⟩, fun g slot trial => ⟨fun hc => if_pos hc, fun hc => ?_⟩,
    fun g hv => g.chooseSlot_plain hv, ⟨fun h => congrArg s.done (if_pos h), fun h hc => ?_, fun h hc n o hn => ?_, fun h hc hn => ?_, Gikan.phase_cfgRefused⟩,
    fun w hr => ⟨fun h => ?_, fun h hst => ?_, fun h hst => ?_⟩, fun t ht => ⟨fun hp hn => ?_, fun h => ?_⟩, fun g hs => ⟨g.sealed_seal, g.seal_phase hs⟩⟩
  · subst hok
    exact ⟨_, congrArg s.done (s.g.bootRomEnd_badFuses h0), Gikan.faultOpen_fatal _ (by decide) _ _⟩
  · subst hok
    have heq := s.g.bootRomEnd_choice h0
    rw [show s.g.bootReady.chooseSlot = _ from hc] at heq
    exact ⟨congrArg s.done heq, Gikan.get_set_same h F.MGT_STATUS_PHASE 2⟩
  · subst hok
    have heq := s.g.bootRomEnd_choice h0
    rw [show s.g.bootReady.chooseSlot = _ from hc] at heq
    exact congrArg s.done heq
  · rw [g.trySlot_eq]
    dsimp only
    rw [if_neg (not_not_intro hc)]
    exact ⟨rfl, g.slotTaken_shows slot trial⟩
  · exact congrArg s.done ((s.g.configCheckEnd_eq h).trans (if_pos hc))
  · have heq := (s.g.configCheckEnd_eq h).trans (if_neg (not_not_intro hc))
    rw [hn] at heq
    exact congrArg s.done heq
  · have heq := (s.g.configCheckEnd_eq h).trans (if_neg (not_not_intro hc))
    rw [hn] at heq
    exact congrArg s.done heq
  · exact exec_reaches rfl ((s.g.wrSeal_go w).trans (if_pos h)) hr
  · exact exec_reaches rfl ((s.g.wrSeal_go w).trans ((if_neg (by rw [h]; decide)).trans (if_pos hst))) hr
  · exact exec_reaches rfl ((s.g.wrSeal_go w).trans ((if_neg (by rw [h]; decide)).trans (if_neg (by rw [hst]; decide)))) hr
  · exact congrArg s.done ((s.g.sealHoldExpiry_of ht).trans (if_pos (by rw [hp, decide_eq_true hn]; rfl)))
  · refine congrArg s.done ((s.g.sealHoldExpiry_of ht).trans (if_neg ?_))
    rcases h with h | h
    · simp [h]
    · simp [Nat.not_le.mpr h]

/-! ## Updates of the boot flash (R382) -/

section
variable {g h : Gikan}

/-- An image is checked against the keys and the fused number alone. -/
theorem Gikan.imageCause_congr (hf : h.get F.SEC_SVN_FUSED = g.get F.SEC_SVN_FUSED) (he : h.get F.SEC_KEYS_ECDSA_REVOKED = g.get F.SEC_KEYS_ECDSA_REVOKED)
    (hl : h.get F.SEC_KEYS_LMS_REVOKED = g.get F.SEC_KEYS_LMS_REVOKED) (im : Image) (kinds : List Nat) (space : Nat) :
    h.imageCause im kinds space = g.imageCause im kinds space := by
  have hrev : ∀ kind slot, h.keyRevoked kind slot = g.keyRevoked kind slot := fun kind slot => by
    unfold Gikan.keyRevoked
    split <;> [rw [he]; rw [hl]]
  unfold Gikan.imageCause
  rw [hf, hrev, hrev]

/-- What an update reads of a Gikan that a write of MGT_UPD does not put. -/
theorem Gikan.updCause_congr (hg : ∀ f : Fld, f.offSeal → f.key ≠ F.MGT_UPD_DONE.key → f.key ≠ F.MGT_UPD_REFUSED.key → f.key ≠ F.MGT_UPD_PORT.key →
    h.get f = g.get f) (target : Nat) (image : Option Image) : h.updCause target image = g.updCause target image := by
  have hput : ∀ f : Fld, f.key ∈ [F.SEC_SVN_FUSED.key, F.SEC_KEYS_ECDSA_REVOKED.key, F.SEC_KEYS_LMS_REVOKED.key, F.SEC_STATUS_BOOTED.key,
      F.MGT_STATUS_SLOT.key, F.PWR_SAG_WARN.key, F.MGT_UPD_BUSY.key] → h.get f = g.get f := fun f hf => by
    refine hg f ⟨fun e => ?_, fun e => ?_⟩ (fun e => ?_) (fun e => ?_) (fun e => ?_) <;> rw [e] at hf <;> revert hf <;> decide
  have hon : ∀ f : Fld, h.get f = g.get f → h.on f = g.on f := fun f e => by rw [Gikan.on, e]; rfl
  have hcause := Gikan.imageCause_congr (hput F.SEC_SVN_FUSED (by decide)) (hput F.SEC_KEYS_ECDSA_REVOKED (by decide))
    (hput F.SEC_KEYS_LMS_REVOKED (by decide))
  unfold Gikan.updCause
  simp only [hcause, hput F.MGT_STATUS_SLOT (by decide), hon _ (hput F.SEC_STATUS_BOOTED (by decide)), hon _ (hput F.PWR_SAG_WARN (by decide)),
    hon _ (hput F.MGT_UPD_BUSY (by decide))]

end

/-- The first cause that refuses an update is one of six, and there is an image where none does. -/
theorem Gikan.updCause_cases (g : Gikan) (target : Nat) (image : Option Image) :
    g.updCause target image ≤ 6 ∧ (g.updCause target image = 0 → image ≠ none) := by
  obtain ⟨bad, kind, heq⟩ : ∃ (bad : Nat) (kind : Bool), g.updCause target image =
      if bad ≠ 0 then 1 else if target == 3 || kind then 2 else if g.on F.SEC_STATUS_BOOTED ∧ target = g.get F.MGT_STATUS_SLOT then 3
      else if g.on F.PWR_SAG_WARN then 4 else if g.on F.MGT_UPD_BUSY then 5 else if image.isNone then 6 else 0 := ⟨_, _, rfl⟩
  rw [heq]
  iterate 5
    split
    · exact ⟨by decide, fun h => absurd h (by decide)⟩
  cases image with
  | none => exact ⟨by decide, fun h => absurd h (by decide)⟩
  | some im => exact ⟨Nat.zero_le 6, fun _ => nofun⟩

section
variable (g : Gikan) (w : RegW) (image : Option Image)

/-- The side of a port. -/
def sideOf (b : Bus) : Side := if b = .pcieB then .b else .a

/-- The fields that the start of an update puts before its image is looked at. -/
def Gikan.updPut (g : Gikan) (w : RegW) : Gikan :=
  (g.putFields w (offOf F.MGT_UPD_GO) [F.MGT_UPD_DONE, F.MGT_UPD_REFUSED]).set F.MGT_UPD_PORT (sideNo (sideOf w.bus))

theorem Gikan.body_updPut : (g.updPut w).body = g.body := Gikan.body_putFields ..

theorem Gikan.get_updPut (f : Fld) (ho : f.offSeal) (hd : f.key ≠ F.MGT_UPD_DONE.key) (hr : f.key ≠ F.MGT_UPD_REFUSED.key)
    (hp : f.key ≠ F.MGT_UPD_PORT.key) : (g.updPut w).get f = g.get f := by
  rw [Gikan.updPut, Gikan.get_set_ne _ _ _ _ hp]
  refine Gikan.get_putFields_ne _ _ _ _ _ ho fun e he => ?_
  rcases List.mem_cons.mp he with rfl | he
  · exact hd
  · rw [List.mem_singleton.mp he]; exact hr

/-- An update once its cause is known. -/
def Gikan.updGo (k : Gikan) (s : Side) (target c : Nat) (image : Option Image) : Gikan :=
  match image with
  | some im =>
    let k := if c = 1 then k.imageRefusal im (k.imageCause im [1, 2] (areaSpace target)) else k
    if c ≠ 0 then (k.set F.MGT_UPD_REFUSED 1).set F.MGT_UPD_CAUSE c
    else
      let k := (k.set F.MGT_UPD_BUSY 1).set F.MGT_UPD_PROGRESS_KIB 0
      ({ k with mgt := { k.mgt with upd := some ⟨s, target, im⟩ } }).emit (.hostRead s (k.get F.MGT_UPD_SRC_ADDR) (4096 + im.contentBytes))
  | none => (k.set F.MGT_UPD_REFUSED 1).set F.MGT_UPD_CAUSE c

theorem Gikan.wrUpd_go (hgo : wrOne w F.MGT_UPD_GO = true) (hp : g.phase ≠ 0) (hh : g.hasp = false) : g.wrUpd w image =
    (g.updPut w).updGo (sideOf w.bus) ((wrField w F.MGT_UPD_TARGET).1 &&& (wrField w F.MGT_UPD_TARGET).2)
      (g.updCause ((wrField w F.MGT_UPD_TARGET).1 &&& (wrField w F.MGT_UPD_TARGET).2) image) image := by
  obtain ⟨h, hput⟩ : ∃ h, h = g.putFields w (offOf F.MGT_UPD_GO) [F.MGT_UPD_DONE, F.MGT_UPD_REFUSED] := ⟨_, rfl⟩
  have hphase : h.phase = g.phase := by
    rw [hput]; exact Gikan.get_putFields_ne _ _ _ _ _ ⟨by decide, by decide⟩ (by decide)
  have hhasp : h.hasp = false := by rw [Gikan.hasp, hphase]; exact hh
  have hcause := Gikan.updCause_congr (h := g.updPut w) (g.get_updPut w)
    ((wrField w F.MGT_UPD_TARGET).1 &&& (wrField w F.MGT_UPD_TARGET).2) image
  rw [← hcause]
  unfold Gikan.wrUpd Gikan.updPut
  dsimp only
  rw [← hput, hgo, hhasp, beq_eq_false_iff_ne.mpr (hphase ▸ hp)]
  rfl

variable (k : Gikan) (s : Side) (target : Nat)

theorem Gikan.updGo_refused {c : Nat} (hc : c ≠ 0) (h6 : c ≤ 6) : (k.updGo s target c image).on F.MGT_UPD_REFUSED = true ∧
    (k.updGo s target c image).get F.MGT_UPD_CAUSE = c ∧ (k.updGo s target c image).mgt = k.mgt ∧ (k.updGo s target c image).mem = k.mem := by
  have hset : ∀ h : Gikan, h.body = k.body → ∀ r, r = (h.set F.MGT_UPD_REFUSED 1).set F.MGT_UPD_CAUSE c →
      r.on F.MGT_UPD_REFUSED = true ∧ r.get F.MGT_UPD_CAUSE = c ∧ r.mgt = k.mgt ∧ r.mem = k.mem := fun h hb r hr => by
    subst hr
    refine ⟨?_, ?_, (congrArg Gikan.mgt hb :), Gikan.mem_of_body hb⟩
    · rw [Gikan.on_set_ne _ _ _ _ (by decide), Gikan.on_set_same]; rfl
    · rw [Gikan.get_set_same]
      exact Nat.mod_eq_of_lt (show c < 2 ^ 4 by omega)
  cases image with
  | none => exact hset k rfl _ rfl
  | some im => exact hset _ (by split <;> rfl) _ (if_pos hc)

theorem Gikan.updGo_starts (im : Image) : (k.updGo s target 0 (some im)).on F.MGT_UPD_BUSY = true ∧
    (k.updGo s target 0 (some im)).mgt = { k.mgt with upd := some ⟨s, target, im⟩ } ∧
    (k.updGo s target 0 (some im)).out = k.out ++ [.hostRead s (k.get F.MGT_UPD_SRC_ADDR) (4096 + im.contentBytes)] := by
  have heq : k.updGo s target 0 (some im) = (let h := (k.set F.MGT_UPD_BUSY 1).set F.MGT_UPD_PROGRESS_KIB 0
      ({ h with mgt := { h.mgt with upd := some ⟨s, target, im⟩ } }).emit (.hostRead s (h.get F.MGT_UPD_SRC_ADDR) (4096 + im.contentBytes))) := rfl
  have hsrc : ((k.set F.MGT_UPD_BUSY 1).set F.MGT_UPD_PROGRESS_KIB 0).get F.MGT_UPD_SRC_ADDR = k.get F.MGT_UPD_SRC_ADDR := by
    rw [Gikan.get_set_ne _ _ _ _ (by decide), Gikan.get_set_ne _ _ _ _ (by decide)]
  rw [heq]
  dsimp only
  rw [hsrc]
  refine ⟨?_, rfl, rfl⟩
  exact (Gikan.on_set_ne (k.set F.MGT_UPD_BUSY 1) F.MGT_UPD_PROGRESS_KIB F.MGT_UPD_BUSY 0 (by decide)).trans (Gikan.on_set_same k _ _)

end

/-- The boot flash with an area's image put, or taken out. -/
def MgtSt.withArea (m : MgtSt) (target : Nat) (im : Option Image) : MgtSt :=
  match target with
  | 0 => { m with slot0 := im }
  | 1 => { m with slot1 := im }
  | _ => { m with cfg := im }

theorem MgtSt.withArea_areas (m : MgtSt) (target : Nat) (im : Option Image) : (m.withArea target im).upd = m.upd ∧
    (m.withArea target im).slot0 = (if target = 0 then im else m.slot0) ∧ (m.withArea target im).slot1 = (if target = 1 then im else m.slot1) ∧
    (m.withArea target im).cfg = (if target = 0 ∨ target = 1 then m.cfg else im) := by
  match target with
  | 0 => exact ⟨rfl, rfl, rfl, rfl⟩
  | 1 => exact ⟨rfl, rfl, rfl, rfl⟩
  | n + 2 => exact ⟨rfl, rfl, rfl, by rw [if_neg (by omega)]; rfl⟩

/-- The areas after an update has ended, its image in its area or none. -/
def Gikan.areaDone (g : Gikan) (u : Upd) (ok : Bool) : Gikan :=
  ({ g with mgt := ({ g.mgt with upd := none }).withArea u.target (if ok then some u.image else none) }).set F.MGT_UPD_BUSY 0

section
variable {g : Gikan} {u : Upd} (hu : g.mgt.upd = some u) (hh : g.hasp = false)
include hu hh

theorem Gikan.flashUpdateEnd_ok : ∃ n, g.flashUpdateEnd true = ((g.areaDone u true).set F.MGT_UPD_DONE 1).set F.MGT_UPD_PROGRESS_KIB n := by
  unfold Gikan.flashUpdateEnd
  rw [hu]
  dsimp only
  rw [if_neg (by rw [hh]; decide), if_pos rfl]
  exact ⟨_, rfl⟩

theorem Gikan.flashUpdateEnd_failed : ∃ n, g.flashUpdateEnd false = ((({ g.areaDone u false with draw := (g.areaDone u false).draw + 1 }.set F.MGT_UPD_REFUSED 1).set
    F.MGT_UPD_CAUSE 7).set F.MGT_UPD_PROGRESS_KIB n).contained 62 1 (offOf F.MGT_UPD_GO) := by
  unfold Gikan.flashUpdateEnd
  rw [hu]
  dsimp only
  rw [if_neg (by rw [hh]; decide), if_neg Bool.false_ne_true]
  exact ⟨_, rfl⟩

end

theorem Gikan.areaDone_areas (g : Gikan) (u : Upd) (ok : Bool) : (g.areaDone u ok).mgt.upd = none ∧
    (g.areaDone u ok).mgt.slot0 = (if u.target = 0 then if ok then some u.image else none else g.mgt.slot0) ∧
    (g.areaDone u ok).mgt.slot1 = (if u.target = 1 then if ok then some u.image else none else g.mgt.slot1) ∧
    (g.areaDone u ok).mgt.cfg = (if u.target = 0 ∨ u.target = 1 then g.mgt.cfg else if ok then some u.image else none) :=
  MgtSt.withArea_areas { g.mgt with upd := none } u.target (if ok then some u.image else none)

theorem Gikan.on_areaDone_busy (g : Gikan) (u : Upd) (ok : Bool) : (g.areaDone u ok).on F.MGT_UPD_BUSY = false := by
  rw [Gikan.areaDone, Gikan.on_set_same]; rfl

/-- The areas of the boot flash follow from what it holds. -/
theorem Gikan.areas_of_bootFlash {g h : Gikan} (e : h.bootFlash = g.bootFlash) :
    h.mgt.upd = g.mgt.upd ∧ h.mgt.slot0 = g.mgt.slot0 ∧ h.mgt.slot1 = g.mgt.slot1 ∧ h.mgt.cfg = g.mgt.cfg :=
  ⟨congrArg (fun x => x.2.2.2) e, congrArg (fun x => x.1) e, congrArg (fun x => x.2.1) e, congrArg (fun x => x.2.2.1) e⟩

/-- What the end of an update leaves: its image in its area, or none there and cause 7 (R382). -/
theorem Gikan.flashUpdateEnd_effect {g : Gikan} {u : Upd} (hu : g.mgt.upd = some u) (hh : g.hasp = false) (ok : Bool) :
    let t := g.flashUpdateEnd ok
    t.bootFlash = (g.areaDone u ok).bootFlash ∧ t.on F.MGT_UPD_BUSY = false ∧ t.mem = g.mem ∧ (ok = true → t.on F.MGT_UPD_DONE = true) ∧
      (ok = false → t.on F.MGT_UPD_REFUSED = true ∧ t.get F.MGT_UPD_CAUSE = 7 ∧ t.bitOf (F.FLT_WORDS_GROUPS 1) 62 = true) := by
  have hbusy := g.on_areaDone_busy u ok
  obtain ⟨a, ha⟩ : ∃ a, a = g.areaDone u ok := ⟨_, rfl⟩
  have hmem : a.mem = g.mem := by rw [ha]; rfl
  dsimp only
  cases ok with
  | true =>
    obtain ⟨n, hk⟩ := Gikan.flashUpdateEnd_ok hu hh
    rw [hk, ← ha]
    rw [← ha] at hbusy
    refine ⟨rfl, ?_, hmem, fun _ => ?_, nofun⟩
    · rw [Gikan.on_set_ne _ _ _ _ (by decide), Gikan.on_set_ne _ _ _ _ (by decide), hbusy]
    · rw [Gikan.on_set_ne _ _ _ _ (by decide), Gikan.on_set_same]; rfl
  | false =>
    obtain ⟨n, hk⟩ := Gikan.flashUpdateEnd_failed hu hh
    rw [← ha] at hk hbusy
    obtain ⟨k, he⟩ : ∃ k, k = (({ a with draw := a.draw + 1 }.set F.MGT_UPD_REFUSED 1).set F.MGT_UPD_CAUSE 7).set F.MGT_UPD_PROGRESS_KIB n := ⟨_, rfl⟩
    have hkflash : k.bootFlash = a.bootFlash := by rw [he]; rfl
    have hkmem : k.mem = a.mem := by rw [he]; rfl
    have hkbusy : k.on F.MGT_UPD_BUSY = a.on F.MGT_UPD_BUSY := by
      rw [he, Gikan.on_set_ne _ _ _ _ (by decide), Gikan.on_set_ne _ _ _ _ (by decide), Gikan.on_set_ne _ _ _ _ (by decide)]; rfl
    have hkref : k.on F.MGT_UPD_REFUSED = true := by
      rw [he, Gikan.on_set_ne _ _ _ _ (by decide), Gikan.on_set_ne _ _ _ _ (by decide), Gikan.on_set_same]; rfl
    have hkcause : k.get F.MGT_UPD_CAUSE = 7 := by rw [he, Gikan.get_set_ne _ _ _ _ (by decide), Gikan.get_set_same]; rfl
    obtain ⟨x, hx⟩ : ∃ x, x = k.contained 62 1 (offOf F.MGT_UPD_GO) := ⟨_, rfl⟩
    have hget : ∀ f : Fld, f.key ≠ (F.FLT_WORDS_GROUPS 0).key → f.key ≠ (F.FLT_WORDS_GROUPS 1).key → f.key ≠ F.MGT_I3C_IBIS.key →
        x.get f = k.get f := fun f h0 h1 hi => by rw [hx]; exact k.get_contained_mild 62 1 _ f h0 h1 hi
    have hxbusy : x.on F.MGT_UPD_BUSY = k.on F.MGT_UPD_BUSY := by rw [Gikan.on, hget _ (by decide) (by decide) (by decide)]; rfl
    have hxref : x.on F.MGT_UPD_REFUSED = k.on F.MGT_UPD_REFUSED := by rw [Gikan.on, hget _ (by decide) (by decide) (by decide)]; rfl
    have hxcause : x.get F.MGT_UPD_CAUSE = k.get F.MGT_UPD_CAUSE := hget _ (by decide) (by decide) (by decide)
    rw [hk, ← ha, ← he, ← hx, hxbusy, hxref, hxcause, hkbusy, hbusy, hkref, hkcause, hx]
    exact ⟨(k.bootFlash_contained 62 1 _).trans hkflash, rfl, (Gikan.mem_of_quiet (k.quiet_contained 62 1 _)).trans (hkmem.trans hmem), nofun,
      fun _ => ⟨rfl, rfl, (k.bitOf_fault .contained 1 _ 0 (by decide)).2.1 (by decide)⟩⟩

/-! ## The boot record (R375) -/

section
variable (g : Gikan) (active : Nat) (valid : Bool) (slot attempts : Nat)

theorem Gikan.bootRecord_shows : (g.bootRecord active valid slot attempts).get F.MGT_BOOT_ACTIVE = active % 2 ∧
    (g.bootRecord active valid slot attempts).on F.MGT_BOOT_TRIAL_VALID = valid ∧
    (g.bootRecord active valid slot attempts).get F.MGT_BOOT_TRIAL_SLOT = slot % 2 ∧
    (g.bootRecord active valid slot attempts).get F.MGT_BOOT_ATTEMPTS = attempts % 8 ∧
    (g.bootRecord active valid slot attempts).get F.MGT_BOOT_SEQ = (g.get F.MGT_BOOT_SEQ + 1) % 2 ^ 32 := by
  unfold Gikan.bootRecord
  refine ⟨?_, ?_, ?_, ?_, Gikan.get_set_same ..⟩
  · unfold Gikan.setB
    simp (disch := decide) only [Gikan.get_set_ne, Gikan.get_set_same]
    rfl
  · rw [Gikan.on_set_ne _ _ _ _ (by decide), Gikan.on_set_ne _ _ _ _ (by decide), Gikan.on_set_ne _ _ _ _ (by decide), Gikan.on_setB _ _ _ rfl]
  · rw [Gikan.get_set_ne _ _ _ _ (by decide), Gikan.get_set_ne _ _ _ _ (by decide), Gikan.get_set_same]
    rfl
  · rw [Gikan.get_set_ne _ _ _ _ (by decide), Gikan.get_set_same]
    rfl

end

section
variable {g : Gikan}

theorem Gikan.bootConfirm_idle (h : g.on F.MGT_STATUS_TRIAL = false ∨ g.on F.MGT_BOOT_TRIAL_VALID = false) : g.bootConfirm = g :=
  if_pos (by rcases h with h | h <;> simp [h])

theorem Gikan.bootConfirm_due (ht : g.on F.MGT_STATUS_TRIAL = true) (hv : g.on F.MGT_BOOT_TRIAL_VALID = true) (hs : g.on F.PWR_SAG_WARN = false) :
    g.bootConfirm = g.bootRecord (g.get F.MGT_BOOT_TRIAL_SLOT) false (g.get F.MGT_BOOT_TRIAL_SLOT) (g.get F.MGT_BOOT_ATTEMPTS) := by
  unfold Gikan.bootConfirm
  rw [ht, hv, hs]; rfl

theorem Gikan.bootTrial_eq (n : Nat) : g.bootTrial n = if g.on F.PWR_SAG_WARN = true ∨ n = g.get F.MGT_STATUS_SLOT then g.set F.MGT_BOOT_REFUSED 1
    else g.bootRecord (g.get F.MGT_BOOT_ACTIVE) true n 3 := by
  unfold Gikan.bootTrial
  simp only [Bool.or_eq_true, beq_iff_eq]

end

/-- A write of MGT_BOOT that the boot ROM does not answer (R373). -/
theorem Gikan.wrBoot_early (g : Gikan) (w : RegW) (hp : g.phase ≤ 1) :
    g.wrBoot w = g.putFields w (offOf F.MGT_BOOT_REFUSED) [F.MGT_BOOT_REFUSED] := by
  refine if_pos ?_
  rw [Gikan.phase, Gikan.get_putFields_ne _ _ _ _ _ ⟨by decide, by decide⟩ (by decide)]
  exact hp

theorem Gikan.wrBoot_late (g : Gikan) (w : RegW) (hp : 1 < g.phase) : g.wrBoot w =
    (let h := g.putFields w (offOf F.MGT_BOOT_REFUSED) [F.MGT_BOOT_REFUSED]
     let k := if wrOne w F.MGT_BOOT_CONFIRM then h.bootConfirm else h
     if wrOne w F.MGT_BOOT_SET_TRIAL then k.bootTrial (if wrOne w F.MGT_BOOT_TARGET then 1 else 0) else k) := by
  refine if_neg ?_
  rw [Gikan.phase, Gikan.get_putFields_ne _ _ _ _ _ ⟨by decide, by decide⟩ (by decide)]
  exact Nat.not_le.mpr hp

/-! ## Ownership (R385) -/

section
variable (g : Gikan) {b : Bus} {n : Nat} (hn : holderNo b = n)
include hn

theorem Gikan.claim_taken (h0 : n ≠ 0) (h2 : n ≤ 2)
    (h : g.get F.MGT_OWNER_HOLDER = 0 ∨ g.get F.MGT_OWNER_HOLDER = n ∨ g.mgt.lapsed = true ∨ g.mgt.leaseAt ≤ g.now) :
    (g.claim b).get F.MGT_OWNER_HOLDER = n ∧ (g.claim b).mgt.lapsed = false ∧
      (g.claim b).mgt.leaseAt = g.now + 1000000 * max 10 (g.get F.MGT_OWNER_LEASE_MS) := by
  obtain ⟨k, hk⟩ : ∃ k, k = g.set F.MGT_OWNER_HOLDER n := ⟨_, rfl⟩
  have heq : g.claim b = { k with mgt := { k.mgt with leaseAt := k.now + 1000000 * max 10 (k.get F.MGT_OWNER_LEASE_MS), lapsed := false } } := by
    unfold Gikan.claim
    rw [hn, hk]
    exact if_pos ⟨h0, h⟩
  have hlease : k.get F.MGT_OWNER_LEASE_MS = g.get F.MGT_OWNER_LEASE_MS := by rw [hk, Gikan.get_set_ne _ _ _ _ (by decide)]
  have hnow : k.now = g.now := by rw [hk]; rfl
  rw [heq, hlease, hnow]
  refine ⟨?_, rfl, rfl⟩
  have hput : k.get F.MGT_OWNER_HOLDER = n % 4 := by rw [hk]; exact Gikan.get_set_same ..
  exact hput.trans (Nat.mod_eq_of_lt (by omega))

theorem Gikan.claim_held (h0 : g.get F.MGT_OWNER_HOLDER ≠ 0) (hne : g.get F.MGT_OWNER_HOLDER ≠ n) (hl : g.mgt.lapsed = false)
    (ht : g.now < g.mgt.leaseAt) : g.claim b = g := by
  unfold Gikan.claim
  rw [hn]
  refine if_neg fun h => ?_
  rcases h.2 with h | h | h | h
  · exact h0 h
  · exact hne h
  · rw [hl] at h; cases h
  · omega

theorem Gikan.release_held (h0 : n ≠ 0) (h : g.get F.MGT_OWNER_HOLDER = n) : (g.release_ b).get F.MGT_OWNER_HOLDER = 0 := by
  unfold Gikan.release_
  rw [hn, if_pos ⟨h0, h⟩, Gikan.get_set_same]; rfl

theorem Gikan.release_other (h : g.get F.MGT_OWNER_HOLDER ≠ n) : g.release_ b = g := by
  unfold Gikan.release_
  rw [hn]
  exact if_neg fun e => h e.2

end

theorem Gikan.gated_reaches {g : Gikan} {w : RegW} {off : Nat} (h : g.reaches8 w off) (f : Gikan → Gikan) : g.gated w.bus off f = f g := by
  rw [Gikan.gated, h.1]

/-- An update asked for by a write of GO, by its cause (R382). -/
theorem mgtUpdGo_exec {s : State} (w : RegW) (image : Option Image) (hr : s.g.reaches8 w (offOf F.MGT_UPD_GO)) (hp : s.g.phase ≠ 0)
    (hh : s.g.hasp = false) : ∃ k : Gikan, k.body = s.g.body ∧ k.get F.MGT_UPD_SRC_ADDR = s.g.get F.MGT_UPD_SRC_ADDR ∧
      (let target := (wrField (trig w F.MGT_UPD_GO) F.MGT_UPD_TARGET).1 &&& (wrField (trig w F.MGT_UPD_GO) F.MGT_UPD_TARGET).2
       exec (.mgtUpdGo w image) s = .next (s.withG (k.updGo (sideOf w.bus) target (s.g.updCause target image) image))) :=
  ⟨s.g.updPut (trig w F.MGT_UPD_GO), s.g.body_updPut _, s.g.get_updPut _ _ ⟨by decide, by decide⟩ (by decide) (by decide) (by decide),
    congrArg s.done ((Gikan.gated_reaches hr _).trans (s.g.wrUpd_go (trig w F.MGT_UPD_GO) image (wrOne_trig w _ rfl) hp hh))⟩

/-- Settles O58: an update by its cause and its area, a trial by its record, ownership by its holder. -/
theorem updatesAndOwnership : Obligations.UpdatesAndOwnership := by
  intro s
  refine ⟨fun w image hr hp hh => ?_, fun ok hh => ⟨fun hu => congrArg s.done ?_, fun u hu => ?_⟩, fun w v row hr hrow => ⟨fun hp => ?_, fun hp => ?_⟩,
    fun g n => ⟨Gikan.bootConfirm_idle, fun ht hv hs => ?_, fun h => (g.bootTrial_eq n).trans (if_pos h), fun hs hn => ?_⟩, fun w v row hr hrow => ?_,
    fun g b n hb => ?_, fun h0 ht => congrArg s.done (if_pos ⟨h0, ht⟩), fun h => congrArg s.done (if_neg fun e => ?_)⟩
  · obtain ⟨k, hb, hsrc, hexec⟩ := mgtUpdGo_exec w image hr hp hh
    dsimp only at hexec ⊢
    generalize (wrField (trig w F.MGT_UPD_GO) F.MGT_UPD_TARGET).1 &&& (wrField (trig w F.MGT_UPD_GO) F.MGT_UPD_TARGET).2 = target at *
    obtain ⟨h6, -⟩ := s.g.updCause_cases target image
    have hmgt : k.mgt = s.g.mgt := (congrArg Gikan.mgt hb :)
    have hout : k.out = s.g.out := (congrArg Gikan.out hb :)
    refine ⟨fun hc => ?_, fun im hc him => ?_⟩
    · obtain ⟨hon, hcause, hm, hmem⟩ := Gikan.updGo_refused image k (sideOf w.bus) target hc h6
      exact ⟨s.withG _, hexec, hon, hcause, hm.trans hmgt, hmem.trans (Gikan.mem_of_body hb)⟩
    · rw [hc, him] at hexec
      obtain ⟨hbusy, hm, hsent⟩ := Gikan.updGo_starts k (sideOf w.bus) target im
      rw [hmgt] at hm
      rw [hout, hsrc] at hsent
      exact ⟨s.withG (k.updGo (sideOf w.bus) target 0 (some im)), him ▸ hexec, hbusy, (congrArg MgtSt.upd hm :),
        (congrArg MgtSt.slot0 hm :), (congrArg MgtSt.slot1 hm :), (congrArg MgtSt.cfg hm :), hsent⟩
  · unfold Gikan.flashUpdateEnd; rw [hu]
  · obtain ⟨harea, hbusy, hmem, hdone, hfail⟩ := Gikan.flashUpdateEnd_effect hu hh ok
    obtain ⟨aupd, aslot0, aslot1, acfg⟩ := s.g.areaDone_areas u ok
    obtain ⟨fupd, fslot0, fslot1, fcfg⟩ := Gikan.areas_of_bootFlash harea
    exact ⟨s.withG _, rfl, fupd.trans aupd, hbusy, hmem, fslot0.trans aslot0, fslot1.trans aslot1, fcfg.trans acfg, hdone, hfail⟩
  · rcases hrow with ⟨rfl, rfl⟩ | ⟨rfl, rfl⟩ <;> exact exec_reaches rfl (s.g.wrBoot_early _ hp) hr
  · rcases hrow with ⟨rfl, rfl⟩ | ⟨rfl, rfl⟩ <;> exact exec_reaches rfl (s.g.wrBoot_late _ hp) hr
  · obtain ⟨ha, hvalid, -, -, hseq⟩ := g.bootRecord_shows (g.get F.MGT_BOOT_TRIAL_SLOT) false (g.get F.MGT_BOOT_TRIAL_SLOT) (g.get F.MGT_BOOT_ATTEMPTS)
    rw [Gikan.bootConfirm_due ht hv hs]
    exact ⟨ha, hvalid, hseq⟩
  · obtain ⟨-, hvalid, hslot, hatt, hseq⟩ := g.bootRecord_shows (g.get F.MGT_BOOT_ACTIVE) true n 3
    rw [g.bootTrial_eq, if_neg (by rw [hs]; rintro (h | h) <;> [cases h; exact hn h])]
    exact ⟨hvalid, hslot, hatt, hseq⟩
  · rcases hrow with ⟨rfl, rfl⟩ | ⟨rfl, rfl⟩ <;> exact exec_reaches rfl rfl hr
  · obtain ⟨hn, h0, h2⟩ : holderNo b = n ∧ n ≠ 0 ∧ n ≤ 2 := by rcases hb with ⟨rfl, rfl⟩ | ⟨rfl, rfl⟩ <;> decide
    exact ⟨g.claim_taken hn h0 h2, g.claim_held hn, g.release_held hn h0, g.release_other hn⟩
  · rcases h with h | h
    · exact e.1 h
    · exact absurd e.2 (by omega)

end Sys2Proof.Machine
end

section
namespace Sys2Proof.Machine

/-! ## BAR4 windows, PCIe ports and messages (R383, R384) -/

section
variable {g : Gikan} {s : Side} (off len : Nat) (data : List Byte)

theorem Gikan.bar4_down (h : (g.port s).up = false) : g.bar4Read s off len = g ∧ g.bar4Write s off data = g := by
  unfold Gikan.bar4Read Gikan.bar4Write
  rw [h]
  exact ⟨rfl, rfl⟩

theorem Gikan.bar4Dead_of (h : g.hasp = true ∨ g.phase ≤ 1) : g.bar4Dead = true := by
  unfold Gikan.bar4Dead
  rcases h with h | h <;> simp [h]

theorem Gikan.bar4Live_of (hh : g.hasp = false) (hp : 1 < g.phase) : g.bar4Dead = false := by
  unfold Gikan.bar4Dead
  rw [hh, decide_eq_false (by omega)]; rfl

variable (hu : (g.port s).up = true)
include hu

theorem Gikan.bar4_dead (hd : g.bar4Dead = true) : g.bar4Read s off len = g.emit (.bar4 s (zeros len) false) ∧ g.bar4Write s off data = g := by
  unfold Gikan.bar4Read Gikan.bar4Write
  rw [hu, hd]
  exact ⟨rfl, rfl⟩

theorem Gikan.bar4_shut (hd : g.bar4Dead = false) (he : g.on (F.MGT_WIN_EN (sideNo s)) = false) :
    g.bar4Read s off len = (g.set (F.MGT_WIN_STATUS_ERROR (sideNo s)) 1).emit (.bar4 s (List.replicate len 0xFF) false) ∧
    g.bar4Write s off data = g.set (F.MGT_WIN_STATUS_ERROR (sideNo s)) 1 := by
  unfold Gikan.bar4Read Gikan.bar4Write
  rw [hu, hd, he]
  exact ⟨rfl, rfl⟩

theorem Gikan.bar4_open (hd : g.bar4Dead = false) (he : g.on (F.MGT_WIN_EN (sideNo s)) = true) :
    g.bar4Read s off len = g.issue 46 (g.winReq s tyREAD off len []) (.bar4 s len true) ∧
    g.bar4Write s off data = g.issue 46 (g.winReq s tyWRITE off data.length data) (.bar4 s data.length false) := by
  unfold Gikan.bar4Read Gikan.bar4Write
  rw [hu, hd, he]
  exact ⟨rfl, rfl⟩

end

/-! Whether the links are up -/

/-- The two ports' links. -/
def Gikan.ups (g : Gikan) : Bool × Bool := (g.mgt.portA.up, g.mgt.portB.up)

theorem Gikan.up_of_ups {g h : Gikan} (e : h.ups = g.ups) (s : Side) : (h.port s).up = (g.port s).up := by
  cases s <;> [exact congrArg Prod.fst e; exact congrArg Prod.snd e]

theorem Gikan.ups_msix (g : Gikan) (s : Side) (v : Nat) : (g.msix s v).ups = g.ups := by
  unfold Gikan.msix
  dsimp only
  split
  · rfl
  · split
    · cases s <;> rfl
    · rfl

theorem Gikan.ups_ibi (g : Gikan) (n : Nat) : (g.ibi n).ups = g.ups := by
  unfold Gikan.ibi
  split
  · rfl
  · split <;> rfl

theorem Gikan.ups_notice (g : Gikan) : g.notice.ups = g.ups := by
  have hsend : g.sendNotice.ups = g.ups := by
    unfold Gikan.sendNotice
    dsimp only
    split <;> split <;> split <;> simp only [Gikan.ups_ibi, Gikan.ups_msix]
  unfold Gikan.notice
  split
  · rfl
  · exact hsend

/-- A contained event leaves the links as they are. -/
theorem Gikan.ups_contained (g : Gikan) (n u r : Nat) : (g.contained n u r).ups = g.ups := by
  rcases g.fault_cases .contained n u r 0 with ⟨-, h⟩ | ⟨-, h, -⟩ | ⟨-, -, h | h⟩
  · rw [Gikan.contained, h]; rfl
  · cases h
  · rw [Gikan.contained, h]; rfl
  · rw [Gikan.contained, h, Gikan.ups_notice]; rfl

theorem Gikan.port_setPort (g : Gikan) (s : Side) (p : PciePort) : (g.setPort s p).port s = p := by cases s <;> rfl

section
variable (g : Gikan) (s : Side) (perst : Bool)

/-- A port whose link is lost, or whose PERST is asserted, which also resets its function state. -/
def PciePort.downed (p : PciePort) (perst : Bool) : PciePort := if perst then { PciePort.reset with perst := true } else { p with up := false, pend := [] }

/-- A port's loss as it is logged. -/
def Gikan.portLost (g : Gikan) (s : Side) (perst : Bool) : Gikan :=
  (g.setPort s ((g.port s).downed perst)).contained (56 + sideNo s) 0 (offOf F.MGT_STATUS_PHASE)

theorem Gikan.pcieLinkDown_eq : g.pcieLinkDown s perst =
    if !(g.port s).up && !(perst && !(g.port s).perst) then g
    else if (g.portLost s perst).hasp then g.portLost s perst
    else (g.portLost s perst).cohSettle (((g.portLost s perst).poolLost s).hostLost) := rfl

theorem Gikan.hasp_portLost : (g.portLost s perst).hasp = g.hasp := by
  rw [Gikan.portLost, Gikan.hasp_contained]
  cases s <;> rfl

theorem Gikan.portLost_logged : ((g.portLost s perst).port s).up = ((g.port s).downed perst).up ∧
    (g.portLost s perst).bitOf (F.FLT_WORDS_GROUPS 1) (56 + sideNo s) = true := by
  refine ⟨?_, ?_⟩
  · rw [Gikan.portLost, Gikan.up_of_ups (Gikan.ups_contained ..), Gikan.port_setPort]
  · exact ((g.setPort s _).bitOf_fault .contained 0 _ 0 (by cases s <;> decide)).2.1 (by decide)

end

/-- Messages that nothing holds back go out; the others stay (R383). -/
theorem Gikan.msixRelease_effect {g : Gikan} {s : Side} (hu : (g.port s).up = true) :
    ((g.msixRelease s).port s).pend = (g.port s).pend.filter (fun v => msixMasked (g.port s) v) ∧
    ∀ v ∈ (g.port s).pend, msixMasked (g.port s) v = false → msixOut s (g.port s) v ∈ (g.msixRelease s).out := by
  have heq : g.msixRelease s = ((g.port s).pend.filter (not ∘ fun v => msixMasked (g.port s) v)).foldl (fun h v => h.emit (msixOut s (g.port s) v))
      (g.setPort s { g.port s with pend := (g.port s).pend.filter (fun v => msixMasked (g.port s) v) }) := by
    unfold Gikan.msixRelease
    simp only [hu, List.partition_eq_filter_filter]
    rfl
  have hsend : ∀ (l : List Nat) (h : Gikan), (l.foldl (fun h v => h.emit (msixOut s (g.port s) v)) h).mgt = h.mgt ∧
      (l.foldl (fun h v => h.emit (msixOut s (g.port s) v)) h).out = h.out ++ l.map (msixOut s (g.port s)) := by
    intro l
    induction l with
    | nil => exact fun h => ⟨rfl, (List.append_nil _).symm⟩
    | cons v l ih =>
      intro h
      obtain ⟨hm, ho⟩ := ih (h.emit (msixOut s (g.port s) v))
      exact ⟨hm, ho.trans (List.append_assoc ..)⟩
  obtain ⟨hm, ho⟩ := hsend ((g.port s).pend.filter (not ∘ fun v => msixMasked (g.port s) v))
    (g.setPort s { g.port s with pend := (g.port s).pend.filter (fun v => msixMasked (g.port s) v) })
  have hport : ∀ h k : Gikan, h.mgt = k.mgt → h.port s = k.port s := fun h k e => by
    cases s <;> [exact congrArg MgtSt.portA e; exact congrArg MgtSt.portB e]
  rw [heq]
  refine ⟨?_, fun v hv hf => ?_⟩
  · rw [hport _ _ hm, Gikan.port_setPort]
  · rw [ho]
    refine List.mem_append_right _ (List.mem_map_of_mem (List.mem_filter.mpr ⟨hv, ?_⟩))
    rw [Function.comp_apply, hf]; rfl

/-! ## The node number and I3C (R386 to R390) -/

theorem Gikan.nodeSoon_current (g : Gikan) : (g.running = true → g.nodeSoon.get F.GLB_NODE_CURRENT = g.get F.GLB_NODE_CURRENT) ∧
    (g.running = false → g.nodeSoon.get F.GLB_NODE_CURRENT =
      (if g.nodeSoon.get F.GLB_NODE_NODE = 0xFFFE then g.nodeSoon.get F.GLB_NODE_PROVISIONAL else g.nodeSoon.get F.GLB_NODE_NODE) % 65536) := by
  rcases g.nodeSoon_cases with ⟨hr, e⟩ | ⟨hr, e⟩
  · exact ⟨fun _ => by rw [e], fun h => absurd hr (by rw [h]; decide)⟩
  · refine ⟨fun h => absurd hr (by rw [h]; decide), fun _ => ?_⟩
    rw [g.get_nodeSoon_ne F.GLB_NODE_NODE (by decide), g.get_nodeSoon_ne F.GLB_NODE_PROVISIONAL (by decide), e, Gikan.get_set_same]
    rfl

/-- A node number written (R388). -/
theorem Gikan.wrNode_eq (g : Gikan) (w : RegW) : g.wrNode w = if wrCovers w F.GLB_NODE_NODE = true ∧
    (g.wrValue w F.GLB_NODE_NODE ≤ 0x3FFF ∨ g.wrValue w F.GLB_NODE_NODE = 0xFFFE) then
      (g.set F.GLB_NODE_NODE (g.wrValue w F.GLB_NODE_NODE)).nodeSoon else g := by
  unfold Gikan.wrNode
  have hcond : (!wrCovers w F.GLB_NODE_NODE || !(decide (g.wrValue w F.GLB_NODE_NODE ≤ 0x3FFF) || g.wrValue w F.GLB_NODE_NODE == 0xFFFE)) = true ↔
      ¬(wrCovers w F.GLB_NODE_NODE = true ∧ (g.wrValue w F.GLB_NODE_NODE ≤ 0x3FFF ∨ g.wrValue w F.GLB_NODE_NODE = 0xFFFE)) := by
    cases wrCovers w F.GLB_NODE_NODE <;> simp
  dsimp only
  simp only [hcond, ite_not]

theorem Gikan.i3cSend_unaddressed {g : Gikan} (h : g.on F.MGT_I3C_DA_VALID = false) (b : List Byte) : g.i3cSend b = g := by
  rw [Gikan.i3cSend, h]; rfl

theorem Gikan.i3cSend_addressed {g : Gikan} (h : g.on F.MGT_I3C_DA_VALID = true) (b : List Byte) : g.i3cSend b = g.emit (.i3c b) := by
  rw [Gikan.i3cSend, h]; rfl

theorem Gikan.i3cRead_unaddressed {g : Gikan} (h : g.on F.MGT_I3C_DA_VALID = false) (off : Nat) : g.i3cRead off = g := by
  rw [Gikan.i3cRead, h]; rfl

/-- A private read shows a register's 8 bytes (R389). -/
theorem Gikan.i3cRead_addressed {g : Gikan} (h : g.on F.MGT_I3C_DA_VALID = true) (off : Nat) : g.i3cRead off =
    (let k : Gikan := { g with mgt := { g.mgt with i3cOff := off } }
     if off % 8 ≠ 0 then k.emit (.i3c (List.replicate 8 0xFF)) else (k.read64 .i3c off).2.emit (.i3c (leBytes 8 (k.read64 .i3c off).1))) := by
  rw [Gikan.i3cRead, h]; rfl

theorem Gikan.running_of_get {g h : Gikan} (e : h.get F.TICK_STATUS_RUNNING = g.get F.TICK_STATUS_RUNNING) : h.running = g.running := by
  rw [Gikan.running, Gikan.on, e]; rfl

/-- With an address goes the provisional node number, which settles as the ticks let it (R387, R388). -/
theorem Gikan.addressed_node (g : Gikan) (da : Nat) :
    let t := (g.addressed da).nodeSoon
    t.get F.GLB_NODE_PROVISIONAL = (0x2000 + 128 * g.get F.GLB_STRAPS_TRAY_ID + da) % 65536 ∧
    (g.running = false → t.get F.GLB_NODE_CURRENT =
      (if t.get F.GLB_NODE_NODE = 0xFFFE then t.get F.GLB_NODE_PROVISIONAL else t.get F.GLB_NODE_NODE) % 65536) ∧
    (g.running = true → t.get F.GLB_NODE_CURRENT = g.get F.GLB_NODE_CURRENT) := by
  have hput : ∀ f : Fld, f.key ≠ F.GLB_NODE_PROVISIONAL.key → f.key ≠ F.MGT_I3C_SEQ_OUT.key → f.key ≠ F.MGT_I3C_DA_VALID.key →
      f.key ≠ F.MGT_I3C_DA.key → (g.addressed da).get f = g.get f := fun f h1 h2 h3 h4 => by
    rw [Gikan.addressed, Gikan.get_set_ne _ _ _ _ h1, Gikan.get_set_ne _ _ _ _ h2, Gikan.get_set_ne _ _ _ _ h3, Gikan.get_set_ne _ _ _ _ h4]
    rfl
  have hrun := Gikan.running_of_get (hput F.TICK_STATUS_RUNNING (by decide) (by decide) (by decide) (by decide))
  obtain ⟨hstay, hsettle⟩ := (g.addressed da).nodeSoon_current
  rw [hrun] at hstay hsettle
  refine ⟨?_, hsettle, fun h => (hstay h).trans (hput _ (by decide) (by decide) (by decide) (by decide))⟩
  rw [Gikan.get_nodeSoon_ne _ _ (by decide), Gikan.addressed, Gikan.get_set_same]
  rfl

/-- A node number in range is taken, at once or at the next boundary. -/
theorem Gikan.nodeTaken (g : Gikan) {v : Nat} (hv : v ≤ 0x3FFF ∨ v = 0xFFFE) :
    let t := (g.set F.GLB_NODE_NODE v).nodeSoon
    t.get F.GLB_NODE_NODE = v ∧ t.mem = g.mem ∧ (g.running = true → t.get F.GLB_NODE_CURRENT = g.get F.GLB_NODE_CURRENT) ∧
    (g.running = false → t.get F.GLB_NODE_CURRENT =
      (if t.get F.GLB_NODE_NODE = 0xFFFE then t.get F.GLB_NODE_PROVISIONAL else t.get F.GLB_NODE_NODE) % 65536) := by
  have hrun := Gikan.running_of_get (Gikan.get_set_ne g F.GLB_NODE_NODE F.TICK_STATUS_RUNNING v (by decide))
  obtain ⟨hstay, hsettle⟩ := (g.set F.GLB_NODE_NODE v).nodeSoon_current
  rw [hrun] at hstay hsettle
  refine ⟨?_, Gikan.mem_of_body (Gikan.body_nodeSoon _), fun h => (hstay h).trans (Gikan.get_set_ne _ _ _ _ (by decide)), hsettle⟩
  rw [Gikan.get_nodeSoon_ne _ _ (by decide), Gikan.get_set_same]
  exact Nat.mod_eq_of_lt (show v < 65536 by omega)

/-- What a port's events do (R383). -/
theorem hostPorts_port (s : State) (side : Side) (perst : Bool) :
    let p := s.g.port side
    (p.up = false → perst = false ∨ p.perst = true → exec (.pcieLinkDown side perst) s = .next s) ∧
    (p.up = true ∨ (perst = true ∧ p.perst = false) →
      (s.g.hasp = true → exec (.pcieLinkDown side perst) s = .next (s.withG (s.g.portLost side perst))) ∧
      (s.g.hasp = false → exec (.pcieLinkDown side perst) s =
        .next (s.withG ((s.g.portLost side perst).cohSettle (((s.g.portLost side perst).poolLost side).hostLost))))) := by
  dsimp only
  refine ⟨fun hu hp => congrArg s.done ((s.g.pcieLinkDown_eq side perst).trans (if_pos ?_)), fun hd => ?_⟩
  · rw [hu]
    rcases hp with hp | hp <;> simp [hp]
  · have hneg : ¬(!(s.g.port side).up && !(perst && !(s.g.port side).perst)) = true := by
      rcases hd with hd | ⟨hp, hd⟩
      · simp [hd]
      · simp [hp, hd]
    refine ⟨fun hh => congrArg s.done ?_, fun hh => congrArg s.done ?_⟩
    · rw [s.g.pcieLinkDown_eq, if_neg hneg, s.g.hasp_portLost, hh, if_pos rfl]
    · rw [s.g.pcieLinkDown_eq, if_neg hneg, s.g.hasp_portLost, hh, if_neg Bool.false_ne_true]

/-- Settles O59: a window access and a port's event by the port, the node number and the answers on I3C by the address. -/
theorem hostPorts : Obligations.HostPorts := by
  refine ⟨fun s side => ⟨fun off len => ⟨fun hu => ?_, fun hu hd => ?_, fun hu hh hp => ⟨fun he => ?_, fun he => ?_⟩⟩,
      fun off data => ⟨fun h => ?_, fun hu hh hp => ⟨fun he => ?_, fun he => ?_⟩⟩, fun perst => ?_, rfl, fun hp => congrArg s.done (if_pos hp),
      fun hp => congrArg s.done (if_neg (by rw [hp]; decide)), fun c hu => congrArg s.done (if_pos (by rw [hu]; rfl)), fun hu => ?_, fun g v hu hv => ?_⟩,
    fun s => ⟨fun da hi hv hlo hhi => ⟨s.withG _, congrArg s.done (Gikan.entdaa_takes hi hv hlo hhi), s.g.addressed_node da.toNat⟩,
      ⟨s.withG _, congrArg s.done s.g.rstdaa_eq, ?_⟩, rfl, rfl, fun hv => ⟨fun c hc => ?_, ?_⟩, fun hv => ⟨?_, ?_, ?_, ?_, fun off => ⟨fun ho => ?_, fun ho hr => ?_, fun v h ho hr hw => ?_⟩⟩,
      fun w hr => ⟨fun h => ?_, fun hc hv => ?_⟩⟩⟩
  · exact congrArg s.done (Gikan.bar4_down off len [] hu).1
  · exact congrArg s.done (Gikan.bar4_dead off len [] hu (Gikan.bar4Dead_of hd)).1
  · exact congrArg s.done (Gikan.bar4_shut off len [] hu (Gikan.bar4Live_of hh hp) he).1
  · exact congrArg s.done (Gikan.bar4_open off len [] hu (Gikan.bar4Live_of hh hp) he).1
  · cases hu : (s.g.port side).up with
    | false => exact congrArg s.done (Gikan.bar4_down off 0 data hu).2
    | true => exact congrArg s.done (Gikan.bar4_dead off 0 data hu (Gikan.bar4Dead_of (h.resolve_left (by rw [show (s.g.port side).up = true from hu]; decide)))).2
  · exact congrArg s.done (Gikan.bar4_shut off 0 data hu (Gikan.bar4Live_of hh hp) he).2
  · exact congrArg s.done (Gikan.bar4_open off 0 data hu (Gikan.bar4Live_of hh hp) he).2
  · obtain ⟨hstay, hlost⟩ := hostPorts_port s side perst
    exact ⟨hstay, hlost, s.g.portLost_logged side perst⟩
  · have hup : ¬(!(s.g.port side).up) = true := by rw [show (s.g.port side).up = true from hu]; decide
    refine ⟨fun on => congrArg s.done (if_neg hup), fun on => congrArg s.done (if_neg hup), fun v on hv => congrArg s.done ((if_neg hup).trans ?_)⟩
    dsimp only
    rw [if_pos hv]
  · obtain ⟨hp, ho⟩ := Gikan.msixRelease_effect hu
    rw [hp]
    exact ⟨fun hm => List.mem_filter.mpr ⟨hv, hm⟩, fun hm => ⟨fun e => absurd (List.mem_filter.mp e).2 (by rw [hm]; decide), ho v hv hm⟩⟩
  · simp (disch := decide) only [State.withG, Gikan.unaddressed, Gikan.get_nodeSoon_ne, Gikan.get_set_same]
    rfl
  · rcases hc with rfl | rfl | rfl | ⟨off, rfl⟩
    · exact congrArg s.done (Gikan.i3cSend_unaddressed hv _)
    · exact congrArg s.done (Gikan.i3cSend_unaddressed hv _)
    · exact congrArg s.done (Gikan.i3cSend_unaddressed hv _)
    · exact congrArg s.done (Gikan.i3cRead_unaddressed hv off)
  · exact congrArg s.done (Gikan.i3cSend_unaddressed (g := s.g.next.2) hv _)
  · exact congrArg s.done (Gikan.i3cSend_addressed hv _)
  · exact congrArg s.done (Gikan.i3cSend_addressed hv _)
  · exact congrArg s.done (Gikan.i3cSend_addressed hv _)
  · exact congrArg s.done (Gikan.i3cSend_addressed (g := s.g.next.2) hv _)
  · exact congrArg s.done ((Gikan.i3cRead_addressed hv off).trans (if_pos ho))
  · have hread : ({ s.g with mgt := { s.g.mgt with i3cOff := off } } : Gikan).read64 .i3c off = (0, { s.g with mgt := { s.g.mgt with i3cOff := off } }) := by
      unfold Gikan.read64
      exact if_pos (by rw [show Gikan.readable _ _ _ = false from hr]; rfl)
    refine congrArg s.done ((Gikan.i3cRead_addressed hv off).trans ((if_neg (not_not_intro ho)).trans ?_))
    rw [hread, show leBytes 8 0 = zeros 8 by decide]
  · have hread : ({ s.g with mgt := { s.g.mgt with i3cOff := off } } : Gikan).read64 .i3c off = (v, h.readHead off) := by
      unfold Gikan.read64
      rw [show Gikan.readable _ _ _ = true from hr, show Gikan.regWord _ _ _ = _ from hw]
      rfl
    refine congrArg s.done ((Gikan.i3cRead_addressed hv off).trans ((if_neg (not_not_intro ho)).trans ?_))
    rw [hread]
  · refine exec_reaches rfl ((s.g.wrNode_eq w).trans (if_neg fun e => ?_)) hr
    rcases h with h | ⟨h1, h2⟩
    · rw [h] at e; exact nomatch e.1
    · rcases e.2 with e | e
      · exact absurd e (Nat.not_le.mpr h1)
      · exact h2 e
  · exact ⟨s.withG _, exec_reaches rfl ((s.g.wrNode_eq w).trans (if_pos ⟨hc, hv⟩)) hr, s.g.nodeTaken hv⟩

end Sys2Proof.Machine
end

section
namespace Sys2Proof.Machine

/-! ## Commits of the SVN (R333) -/

/-- A field that a commit's write puts, beside the seal's counts, is DONE or REFUSED. -/
def Fld.offCommit (f : Fld) : Prop := f.offSeal ∧ f.key ≠ F.SEC_SVN_DONE.key ∧ f.key ≠ F.SEC_SVN_REFUSED.key

section
variable {g h : Gikan} (hb : h.body = g.body) (hg : ∀ f : Fld, f.offCommit → h.get f = g.get f)
include hg

theorem Gikan.on_offCommit {f : Fld} (hf : f.offCommit) : h.on f = g.on f := by rw [Gikan.on, hg f hf]; rfl

theorem Gikan.svnTarget_congr : h.svnTarget = g.svnTarget := by
  unfold Gikan.svnTarget
  rw [hg _ ⟨⟨by decide, by decide⟩, by decide, by decide⟩, hg _ ⟨⟨by decide, by decide⟩, by decide, by decide⟩,
    hg _ ⟨⟨by decide, by decide⟩, by decide, by decide⟩]

include hb

/-- The running firmware, and the keys it revokes, follow from the boot flash, BOOTED and SLOT. -/
theorem Gikan.revokes_congr : h.revokes = g.revokes := by
  unfold Gikan.revokes Gikan.firmware
  rw [Gikan.on_offCommit hg ⟨⟨by decide, by decide⟩, by decide, by decide⟩, Gikan.on_offCommit hg ⟨⟨by decide, by decide⟩, by decide, by decide⟩,
    show h.mgt = g.mgt from (congrArg Gikan.mgt hb :)]

end

/-- What a commit does once its write has been taken, by the first cause that applies (R333). -/
def Gikan.svnCommit (k g : Gikan) : Gikan :=
  if g.on F.SEC_SVN_BUSY then k.svnRefused 4
  else if g.on F.PWR_SAG_WARN then k.svnRefused 1
  else if g.on F.SEC_STATUS_FACTORY_TEST then k.svnRefused 2
  else if g.revokes.1.testBit (g.get F.SEC_STATUS_ECDSA_KEY) || g.revokes.2.testBit (g.get F.SEC_STATUS_LMS_KEY) then k.svnRefused 3
  else if g.svnTarget = g.get F.SEC_SVN_FUSED ∧ (g.revokes.1 ||| g.get F.SEC_KEYS_ECDSA_REVOKED) = g.get F.SEC_KEYS_ECDSA_REVOKED ∧
      (g.revokes.2 ||| g.get F.SEC_KEYS_LMS_REVOKED) = g.get F.SEC_KEYS_LMS_REVOKED then k.set F.SEC_SVN_DONE 1
  else k.set F.SEC_SVN_BUSY 1

theorem Gikan.wrSvn_commit (g : Gikan) (w : RegW) : ∃ k : Gikan, (∀ f : Fld, f.offCommit → k.get f = g.get f) ∧
    g.wrSvn (trig w F.SEC_SVN_COMMIT) = k.svnCommit g := by
  obtain ⟨k, hk⟩ : ∃ k, k = g.putFields (trig w F.SEC_SVN_COMMIT) (offOf F.SEC_SVN_FUSED) [F.SEC_SVN_DONE, F.SEC_SVN_REFUSED] := ⟨_, rfl⟩
  have hb : k.body = g.body := by rw [hk, Gikan.body_putFields]
  have hg : ∀ f : Fld, f.offCommit → k.get f = g.get f := fun f ⟨ho, hd, hr⟩ => by
    rw [hk]
    refine Gikan.get_putFields_ne _ _ _ _ _ ho fun e he => ?_
    rcases List.mem_cons.mp he with rfl | he
    · exact hd
    · rw [List.mem_singleton.mp he]; exact hr
  refine ⟨k, hg, ?_⟩
  unfold Gikan.wrSvn Gikan.svnCommit
  rw [← hk, ← Gikan.revokes_congr hb hg, ← Gikan.svnTarget_congr hg,
    ← Gikan.on_offCommit hg (f := F.SEC_SVN_BUSY) ⟨⟨by decide, by decide⟩, by decide, by decide⟩,
    ← Gikan.on_offCommit hg (f := F.PWR_SAG_WARN) ⟨⟨by decide, by decide⟩, by decide, by decide⟩,
    ← Gikan.on_offCommit hg (f := F.SEC_STATUS_FACTORY_TEST) ⟨⟨by decide, by decide⟩, by decide, by decide⟩,
    ← hg F.SEC_STATUS_ECDSA_KEY ⟨⟨by decide, by decide⟩, by decide, by decide⟩, ← hg F.SEC_STATUS_LMS_KEY ⟨⟨by decide, by decide⟩, by decide, by decide⟩,
    ← hg F.SEC_SVN_FUSED ⟨⟨by decide, by decide⟩, by decide, by decide⟩, ← hg F.SEC_KEYS_ECDSA_REVOKED ⟨⟨by decide, by decide⟩, by decide, by decide⟩,
    ← hg F.SEC_KEYS_LMS_REVOKED ⟨⟨by decide, by decide⟩, by decide, by decide⟩]
  dsimp only
  rw [wrOne_trig w _ rfl]
  rfl

theorem Gikan.svnRefused_shows (k : Gikan) {n : Nat} (hn : n < 16) : (k.svnRefused n).on F.SEC_SVN_REFUSED = true ∧
    (k.svnRefused n).get F.SEC_SVN_CAUSE = n ∧ (k.svnRefused n).get F.SEC_SVN_FUSED = k.get F.SEC_SVN_FUSED := by
  unfold Gikan.svnRefused
  refine ⟨?_, ?_, ?_⟩
  · rw [Gikan.on_set_ne _ _ _ _ (by decide), Gikan.on_set_same]; rfl
  · rw [Gikan.get_set_same]; exact Nat.mod_eq_of_lt hn
  · rw [Gikan.get_set_ne _ _ _ _ (by decide), Gikan.get_set_ne _ _ _ _ (by decide)]

theorem Gikan.svnTarget_ge (g : Gikan) : g.get F.SEC_SVN_FUSED ≤ g.svnTarget := Nat.le_max_left ..

section
variable {g : Gikan} (hh : g.hasp = false) (hbusy : g.on F.SEC_SVN_BUSY = true) (ht : g.svnTarget < 128)
include hh hbusy

theorem Gikan.svnCommitEnd_ok : g.svnCommitEnd true = ((((g.set F.SEC_SVN_BUSY 0).set F.SEC_SVN_FUSED g.svnTarget).set F.SEC_KEYS_ECDSA_REVOKED
    (g.get F.SEC_KEYS_ECDSA_REVOKED ||| g.revokes.1)).set F.SEC_KEYS_LMS_REVOKED (g.get F.SEC_KEYS_LMS_REVOKED ||| g.revokes.2)).set F.SEC_SVN_DONE 1 := by
  unfold Gikan.svnCommitEnd
  dsimp only
  rw [hbusy, hh]
  simp (disch := decide) only [Bool.not_true, Bool.or_false, Bool.false_eq_true, if_false, if_true, Gikan.get_set_ne]

theorem Gikan.svnCommitEnd_failed : g.svnCommitEnd false = ((g.svnPart.set F.SEC_SVN_BUSY 0).svnRefused 5).contained 59 0 (offOf F.SEC_SVN_FUSED) := by
  unfold Gikan.svnCommitEnd
  dsimp only
  rw [hbusy, hh]
  rfl

end

/-- A commit that stops early leaves FUSED between the two. -/
theorem Gikan.svnPart_between (g : Gikan) (ht : g.svnTarget < 128) : g.get F.SEC_SVN_FUSED ≤ g.svnPart.get F.SEC_SVN_FUSED ∧
    g.svnPart.get F.SEC_SVN_FUSED ≤ g.svnTarget ∧ g.svnPart.mem = g.mem := by
  have hge := g.svnTarget_ge
  have hlt := Nat.mod_lt (Config.openValue g.draw) (show 0 < g.svnTarget - g.get F.SEC_SVN_FUSED + 1 by omega)
  have hget : g.svnPart.get F.SEC_SVN_FUSED =
      (g.get F.SEC_SVN_FUSED + Config.openValue g.draw % (g.svnTarget - g.get F.SEC_SVN_FUSED + 1)) % 128 := by
    unfold Gikan.svnPart
    dsimp only
    rw [Gikan.get_set_ne _ _ _ _ (by decide), Gikan.get_set_ne _ _ _ _ (by decide), Gikan.get_set_same]
    rfl
  rw [hget, Nat.mod_eq_of_lt (by omega)]
  exact ⟨by omega, by omega, rfl⟩

/-- The end of a commit (R333). -/
theorem Gikan.svnCommitEnd_effect {g : Gikan} (hh : g.hasp = false) (hbusy : g.on F.SEC_SVN_BUSY = true) (ht : g.svnTarget < 128) (ok : Bool) :
    let t := g.svnCommitEnd ok
    t.on F.SEC_SVN_BUSY = false ∧ g.get F.SEC_SVN_FUSED ≤ t.get F.SEC_SVN_FUSED ∧ t.get F.SEC_SVN_FUSED ≤ g.svnTarget ∧ t.mem = g.mem ∧
      (ok = true → t.get F.SEC_SVN_FUSED = g.svnTarget ∧ t.on F.SEC_SVN_DONE = true ∧
        t.get F.SEC_KEYS_ECDSA_REVOKED = (g.get F.SEC_KEYS_ECDSA_REVOKED ||| g.revokes.1) % 16 ∧
        t.get F.SEC_KEYS_LMS_REVOKED = (g.get F.SEC_KEYS_LMS_REVOKED ||| g.revokes.2) % 16) ∧
      (ok = false → t.on F.SEC_SVN_REFUSED = true ∧ t.get F.SEC_SVN_CAUSE = 5 ∧ t.bitOf (F.FLT_WORDS_GROUPS 1) 59 = true) := by
  dsimp only
  cases ok with
  | true =>
    have hge := g.svnTarget_ge
    have hfused : (g.svnCommitEnd true).get F.SEC_SVN_FUSED = g.svnTarget := by
      rw [Gikan.svnCommitEnd_ok hh hbusy]
      simp (disch := decide) only [Gikan.get_set_ne, Gikan.get_set_same]
      exact Nat.mod_eq_of_lt ht
    rw [hfused]
    refine ⟨?_, hge, le_rfl, ?_, fun _ => ⟨rfl, ?_, ?_, ?_⟩, nofun⟩ <;> rw [Gikan.svnCommitEnd_ok hh hbusy]
    · simp (disch := decide) only [Gikan.on, Gikan.get_set_ne, Gikan.get_set_same]; rfl
    · rfl
    · rw [Gikan.on_set_same]; rfl
    · simp (disch := decide) only [Gikan.get_set_ne, Gikan.get_set_same]; rfl
    · simp (disch := decide) only [Gikan.get_set_ne, Gikan.get_set_same]; rfl
  | false =>
    obtain ⟨hlo, hhi, hmem⟩ := g.svnPart_between ht
    obtain ⟨k, hk⟩ : ∃ k, k = (g.svnPart.set F.SEC_SVN_BUSY 0).svnRefused 5 := ⟨_, rfl⟩
    obtain ⟨href, hcause, hfused⟩ := (g.svnPart.set F.SEC_SVN_BUSY 0).svnRefused_shows (n := 5) (by decide)
    have hbusy0 : k.on F.SEC_SVN_BUSY = false := by
      rw [hk, Gikan.svnRefused, Gikan.on_set_ne _ _ _ _ (by decide), Gikan.on_set_ne _ _ _ _ (by decide), Gikan.on_set_same]; rfl
    have hkmem : k.mem = g.svnPart.mem := by rw [hk]; rfl
    rw [← hk] at href hcause hfused
    have hget : ∀ f : Fld, f.apart → (k.contained 59 0 (offOf F.SEC_SVN_FUSED)).get f = k.get f := fun f hf => Gikan.get_contained _ _ _ _ f hf
    have hon : ∀ f : Fld, f.apart → (k.contained 59 0 (offOf F.SEC_SVN_FUSED)).on f = k.on f := fun f hf => by rw [Gikan.on, hget f hf]; rfl
    rw [Gikan.svnCommitEnd_failed hh hbusy, ← hk, hget F.SEC_SVN_FUSED ⟨by decide, by decide⟩, hfused, Gikan.get_set_ne _ _ _ _ (by decide)]
    exact ⟨(hon _ ⟨by decide, by decide⟩).trans hbusy0, hlo, hhi, (Gikan.mem_of_quiet (k.quiet_contained 59 0 _)).trans (hkmem.trans hmem), nofun,
      fun _ => ⟨(hon _ ⟨by decide, by decide⟩).trans href, (hget _ ⟨by decide, by decide⟩).trans hcause, (k.bitOf_fault .contained 0 _ 0 (by decide)).2.1 (by decide)⟩⟩

/-! ## SPDM requests (R335 to R338) -/

/-- A request taken on a port: counted, the signed response before it no longer the last. -/
def Gikan.spdmTaken (g : Gikan) (s : Side) : Gikan :=
  (g.inc (F.SEC_SPDM_REQUESTS (sideNo s)) 1).setSpdm s { g.spdm s with signed := none }

section
variable (g : Gikan) (s : Side)

theorem Gikan.spdmReq_down (hu : (g.port s).up = false) (f : Gikan → SpdmSt → Gikan) : g.spdmReq s f = g := by
  rw [Gikan.spdmReq, hu]; rfl

theorem Gikan.spdmReq_up (hu : (g.port s).up = true) (f : Gikan → SpdmSt → Gikan) : g.spdmReq s f = f (g.spdmTaken s) (g.spdm s) := by
  rw [Gikan.spdmReq, hu]; rfl

theorem Gikan.spdm_setSpdm (x : SpdmSt) : (g.setSpdm s x).spdm s = x := by cases s <;> rfl

theorem Gikan.get_setSpdm (x : SpdmSt) (f : Fld) : (g.setSpdm s x).get f = g.get f := by cases s <;> rfl

/-- The fields and records beside its port's that a request leaves. -/
theorem Gikan.spdmTaken_keeps : (g.spdmTaken s).sec.lmsUse = g.sec.lmsUse ∧ (g.spdmTaken s).sec.lmsNext = g.sec.lmsNext ∧
    (g.spdmTaken s).out = g.out ∧ ∀ f : Fld, f.key ≠ (F.SEC_SPDM_REQUESTS (sideNo s)).key → (g.spdmTaken s).get f = g.get f := by
  refine ⟨by cases s <;> rfl, by cases s <;> rfl, by cases s <;> rfl, fun f hf => ?_⟩
  rw [Gikan.spdmTaken, Gikan.get_setSpdm, Gikan.get_inc_ne _ _ _ _ hf]

end

/-- The next index signs the hash, and is used (R337, R338). -/
def Gikan.lmsSigned (r : Gikan) (s : Side) (d : Nat) : Gikan :=
  let i := r.sec.lmsUse
  (({ r.inc F.SEC_LMS_COUNT_SIGNATURES 1 with sec := { r.sec with lmsUse := i + 1 } } : Gikan).emit (.signed i)).emit
    (.spdm s (leBytes 2 1 ++ leBytes 2 0 ++ leBytes 4 i ++ leBytes 48 d ++ fit (Config.lmsSign i d) 1772))

theorem Gikan.lmsSigned_effect (r : Gikan) (s : Side) (d : Nat) : (r.lmsSigned s d).sec.lmsUse = r.sec.lmsUse + 1 ∧
    (r.lmsSigned s d).sec.lmsNext = r.sec.lmsNext ∧ (r.lmsSigned s d).spdm s = r.spdm s ∧
    (r.lmsSigned s d).out = r.out ++ [.signed r.sec.lmsUse, .spdm s (leBytes 2 1 ++ leBytes 2 0 ++ leBytes 4 r.sec.lmsUse ++ leBytes 48 d ++
      fit (Config.lmsSign r.sec.lmsUse d) 1772)] :=
  ⟨rfl, rfl, by cases s <;> rfl, List.append_assoc ..⟩

/-! Each request, once it is taken on a port whose link is up -/

section
variable (g : Gikan) (s : Side) (hu : (g.port s).up = true)
include hu

theorem Gikan.getVersion_up : ∃ v, (v = 2 ∨ v = 3) ∧ g.getVersion s =
    ((({ g.spdmTaken s with draw := (g.spdmTaken s).draw + 1 } : Gikan).setSpdm s ⟨v, false, false, none⟩).set (F.SEC_SPDM_VERSION (sideNo s)) v).spdmSend
      s 0x04 [] :=
  ⟨2 + Config.openValue (g.spdmTaken s).draw % 2, by omega, (g.spdmReq_up s hu _).trans rfl⟩

theorem Gikan.getVersion_effect : ∃ v, (v = 2 ∨ v = 3) ∧ (g.getVersion s).spdm s = ⟨v, false, false, none⟩ ∧
    (g.getVersion s).get (F.SEC_SPDM_VERSION (sideNo s)) = v ∧ (g.getVersion s).get (F.SEC_SPDM_REQUESTS (sideNo s)) =
      satAdd (F.SEC_SPDM_REQUESTS (sideNo s)).wid (g.get (F.SEC_SPDM_REQUESTS (sideNo s))) 1 := by
  obtain ⟨v, hv, heq⟩ := g.getVersion_up s hu
  obtain ⟨k, hk⟩ : ∃ k : Gikan, k = { g.spdmTaken s with draw := (g.spdmTaken s).draw + 1 } := ⟨_, rfl⟩
  have hreq : k.get (F.SEC_SPDM_REQUESTS (sideNo s)) = satAdd (F.SEC_SPDM_REQUESTS (sideNo s)).wid (g.get (F.SEC_SPDM_REQUESTS (sideNo s))) 1 := by
    have hget : k.get (F.SEC_SPDM_REQUESTS (sideNo s)) = (g.spdmTaken s).get (F.SEC_SPDM_REQUESTS (sideNo s)) := by rw [hk]; rfl
    rw [hget, Gikan.spdmTaken, Gikan.get_setSpdm, Gikan.get_inc_same]
  have hkeys : (F.SEC_SPDM_REQUESTS (sideNo s)).key ≠ (F.SEC_SPDM_VERSION (sideNo s)).key := by cases s <;> decide
  have hget : ∀ f, (g.getVersion s).get f = ((k.setSpdm s ⟨v, false, false, none⟩).set (F.SEC_SPDM_VERSION (sideNo s)) v).get f := fun f => by
    rw [heq, ← hk]; rfl
  refine ⟨v, hv, ?_, ?_, ?_⟩
  · rw [heq, ← hk]
    exact k.spdm_setSpdm s _
  · rw [hget, Gikan.get_set_same]
    exact Nat.mod_eq_of_lt (show v < 2 ^ 4 by omega)
  · rw [hget, Gikan.get_set_ne _ _ _ _ hkeys, Gikan.get_setSpdm, hreq]

variable {d : Nat} {vendor code : Nat} (hv : vendor = g.get F.GLB_ID_PCI_VENDOR) (hc : code = 1)

theorem Gikan.vendorRequest_other (h : vendor ≠ g.get F.GLB_ID_PCI_VENDOR ∨ code ≠ 1) : g.vendorRequest s vendor code = (g.spdmTaken s).spdmError s := by
  obtain ⟨-, -, -, hget⟩ := g.spdmTaken_keeps s
  refine (g.spdmReq_up s hu _).trans (if_pos ?_)
  rwa [hget _ (by cases s <;> decide)]

include hv hc

/-- The LMS request of Omurn, by the hash that the last signed response left (R337). -/
theorem Gikan.vendorRequest_lms : ((g.spdm s).signed = none → g.vendorRequest s vendor code = (g.spdmTaken s).lmsAnswer s 1 none) ∧
    ∀ d, (g.spdm s).signed = some d → g.vendorRequest s vendor code =
      (let k := g.spdmTaken s
       if g.lmsLeft = 0 ∧ lmsIndices ≤ g.sec.lmsNext then k.lmsExhausted.lmsAnswer s 2 (some d)
       else if g.lmsLeft = 0 ∧ (g.on F.PWR_SAG_WARN = true ∨ g.hasp = true) then (k.inc F.SEC_LMS_COUNT_BUSY_ANSWERS 1).lmsAnswer s 3 (some d)
       else (if g.lmsLeft = 0 then k.lmsReserve else k).lmsSigned s d) := by
  obtain ⟨huse, hnext, -, hget⟩ := g.spdmTaken_keeps s
  have hleft : (g.spdmTaken s).lmsLeft = g.lmsLeft := by rw [Gikan.lmsLeft, huse, hnext]; rfl
  have hsag : (g.spdmTaken s).on F.PWR_SAG_WARN = g.on F.PWR_SAG_WARN := by rw [Gikan.on, hget _ (by cases s <;> decide)]; rfl
  have hhasp : (g.spdmTaken s).hasp = g.hasp := by rw [Gikan.hasp, Gikan.phase, hget _ (by cases s <;> decide)]; rfl
  have hours : ¬(vendor ≠ (g.spdmTaken s).get F.GLB_ID_PCI_VENDOR ∨ code ≠ 1) := by
    rw [hget _ (by cases s <;> decide)]
    exact not_or.mpr ⟨not_not_intro hv, not_not_intro hc⟩
  refine ⟨fun hd => ?_, fun d hd => ?_⟩ <;> refine (g.spdmReq_up s hu _).trans ((if_neg hours).trans ?_) <;> rw [hd]
  dsimp only
  rw [hleft, hnext, hsag, hhasp]
  rfl

/-- An index is reserved before it is used, and used once and in order (R338). -/
theorem Gikan.vendorRequest_signs (hd : (g.spdm s).signed = some d) (hle : g.sec.lmsUse ≤ g.sec.lmsNext)
    (hroom : 0 < g.lmsLeft ∨ (g.sec.lmsNext < 1048576 ∧ g.on F.PWR_SAG_WARN = false ∧ g.hasp = false)) :
    let t := g.vendorRequest s vendor code
    t.sec.lmsUse = g.sec.lmsUse + 1 ∧ t.sec.lmsUse ≤ t.sec.lmsNext ∧ t.spdm s = { g.spdm s with signed := none } ∧
      t.out = g.out ++ [.signed g.sec.lmsUse, .spdm s (leBytes 2 1 ++ leBytes 2 0 ++ leBytes 4 g.sec.lmsUse ++ leBytes 48 d ++
        fit (Config.lmsSign g.sec.lmsUse d) 1772)] := by
  obtain ⟨huse, hnext, hout, -⟩ := g.spdmTaken_keeps s
  obtain ⟨r, hr⟩ : ∃ r, r = if g.lmsLeft = 0 then (g.spdmTaken s).lmsReserve else g.spdmTaken s := ⟨_, rfl⟩
  have hfacts : r.sec.lmsUse = g.sec.lmsUse ∧ g.sec.lmsUse + 1 ≤ r.sec.lmsNext ∧ r.out = g.out ∧ r.spdm s = { g.spdm s with signed := none } := by
    rw [hr]
    split
    case isTrue h0 =>
      have h0' : g.sec.lmsNext - g.sec.lmsUse = 0 := h0
      obtain ⟨hlt, -⟩ := hroom.resolve_left (by omega)
      refine ⟨?_, ?_, hout, ?_⟩
      · exact hnext.trans (by omega)
      · show _ ≤ min lmsIndices ((g.spdmTaken s).sec.lmsNext + 4096)
        rw [hnext]
        show _ ≤ min 1048576 _
        omega
      · cases s <;> rfl
    case isFalse h0 =>
      have h0' : ¬ g.sec.lmsNext - g.sec.lmsUse = 0 := h0
      exact ⟨huse, by rw [hnext]; omega, hout, Gikan.spdm_setSpdm ..⟩
  obtain ⟨ruse, rnext, rout, rspdm⟩ := hfacts
  have heq : g.vendorRequest s vendor code = r.lmsSigned s d := by
    rw [(g.vendorRequest_lms s hu hv hc).2 d hd]
    dsimp only
    rw [if_neg, if_neg, ← hr]
    · rintro ⟨h0, hs⟩
      obtain ⟨-, hsag, hhasp⟩ := hroom.resolve_left (by omega)
      rw [hsag, hhasp] at hs
      simp at hs
    · rintro ⟨h0, hs⟩
      obtain ⟨hlt, -⟩ := hroom.resolve_left (by omega)
      exact absurd hs (Nat.not_le.mpr hlt)
  obtain ⟨tuse, tnext, tspdm, tout⟩ := r.lmsSigned_effect s d
  dsimp only
  rw [heq, tuse, tnext, tspdm, tout, ruse, rout, rspdm]
  exact ⟨rfl, rnext, rfl, rfl⟩

end

/-- Each SPDM request but the LMS one, as its order, its slot and its index let it be answered (R335, R336). -/
theorem Gikan.spdm_answers (g : Gikan) (s : Side) (hu : (g.port s).up = true) :
    let x := g.spdm s
    let h := g.spdmTaken s
    (∀ v, (x.version = 0 ∨ (v ≠ 0x12 ∧ v ≠ 0x13) → g.getCapabilities s v = h.spdmError s) ∧
      (x.version ≠ 0 → v = 0x12 ∨ v = 0x13 →
        g.getCapabilities s v = ((h.setSpdm s ⟨v % 16, true, false, none⟩).set (F.SEC_SPDM_VERSION (sideNo s)) (v % 16)).spdmSend s 0x61 [])) ∧
    (x.caps = false → g.negotiateAlgorithms s = h.spdmError s) ∧
    (x.caps = true → g.negotiateAlgorithms s = (h.setSpdm s { x with algs := true, signed := none }).spdmSend s 0x63 []) ∧
    (x.algs = false → g.getDigests s = h.spdmError s) ∧ (x.algs = true → g.getDigests s = h.spdmSend s 0x01 []) ∧
    (∀ slot o n nonce, (x.algs = false ∨ slot ≠ 0 → g.getCertificate s slot o n = h.spdmError s ∧ g.challenge s slot nonce = h.spdmError s) ∧
      (x.algs = true → slot = 0 → g.getCertificate s slot o n = h.spdmSend s 0x02 [] ∧ g.challenge s slot nonce = h.spdmSigned s 0x03 [])) ∧
    (∀ i nonce, (x.algs = false ∨ (4 < i ∧ i ≠ 0xFF) → g.getMeasurements s i nonce = h.spdmError s) ∧
      (x.algs = true → i ≤ 4 ∨ i = 0xFF → g.getMeasurements s i nonce = h.spdmSigned s 0x60
        ((if i = 0xFF then [1, 2, 3, 4] else if 1 ≤ i ∧ i ≤ 4 then [i] else []).flatMap h.measurement))) := by
  have hreq := g.spdmReq_up s hu
  have hblocks : ∀ i, (if i = 0xFF then [1, 2, 3, 4] else if 1 ≤ i ∧ i ≤ 4 then [i] else []) = [] ∧ i ≠ 0 ↔ 4 < i ∧ i ≠ 0xFF := fun i => by
    split
    · simp_all
    · split
      · simp; omega
      · simp; omega
  refine ⟨fun v => ⟨fun h => ?_, fun h0 hv => ?_⟩, fun h => ?_, fun h => ?_, fun h => ?_, fun h => ?_, fun slot o n nonce => ⟨fun h => ?_, fun ha hs => ?_⟩,
    fun i nonce => ⟨fun h => ?_, fun ha hi => ?_⟩⟩
  · refine (hreq _).trans (if_pos ?_)
    rcases h with h | ⟨h1, h2⟩
    · exact .inl h
    · exact .inr (by simp [h1, h2])
  · exact (hreq _).trans (if_neg (by rcases hv with rfl | rfl <;> simp [h0]))
  · exact (hreq _).trans (if_pos (by rw [h]; rfl))
  · exact (hreq _).trans (if_neg (by rw [h]; decide))
  · exact (hreq _).trans (if_pos (by rw [h]; rfl))
  · exact (hreq _).trans (if_neg (by rw [h]; decide))
  · have hc : (!(g.spdm s).algs) = true ∨ slot ≠ 0 := h.imp_left fun h => by rw [h]; rfl
    exact ⟨(hreq _).trans (if_pos hc), (hreq _).trans (if_pos hc)⟩
  · have hc : ¬((!(g.spdm s).algs) = true ∨ slot ≠ 0) := by rw [ha, hs]; decide
    exact ⟨(hreq _).trans (if_neg hc), (hreq _).trans (if_neg hc)⟩
  · exact (hreq _).trans (if_pos (h.imp (fun h => by rw [h]; rfl) (hblocks i).mpr))
  · refine (hreq _).trans (if_neg (not_or.mpr ⟨by rw [ha]; decide, fun h => ?_⟩))
    have := (hblocks i).mp h
    omega

/-- The LMS request where no index is left, or none can be reserved. -/
theorem Gikan.vendorRequest_none {g : Gikan} {s : Side} {vendor code d : Nat} (hu : (g.port s).up = true) (hv : vendor = g.get F.GLB_ID_PCI_VENDOR)
    (hc : code = 1) (hd : (g.spdm s).signed = some d) (h0 : g.lmsLeft = 0) :
    (1048576 ≤ g.sec.lmsNext → g.vendorRequest s vendor code = (g.spdmTaken s).lmsExhausted.lmsAnswer s 2 (some d)) ∧
    (g.sec.lmsNext < 1048576 → g.on F.PWR_SAG_WARN = true ∨ g.hasp = true →
      g.vendorRequest s vendor code = ((g.spdmTaken s).inc F.SEC_LMS_COUNT_BUSY_ANSWERS 1).lmsAnswer s 3 (some d)) := by
  have hlms := (g.vendorRequest_lms s hu hv hc).2 d hd
  exact ⟨fun hn => hlms.trans (if_pos ⟨h0, hn⟩), fun hn hw => hlms.trans ((if_neg fun e => absurd e.2 (Nat.not_le.mpr hn)).trans (if_pos ⟨h0, hw⟩))⟩

/-- Settles O51: a commit by the first cause that applies, a request by what its port's order and the indices left allow. -/
theorem svnAndSpdm : Obligations.SvnAndSpdm := by
  refine ⟨fun s => ⟨fun w hr => ?_, fun ok hh => ⟨fun hb => congrArg s.done (if_pos (by rw [hb]; rfl)),
    fun hb ht => ⟨s.withG _, rfl, Gikan.svnCommitEnd_effect hh hb ht ok⟩⟩⟩, fun s side => ⟨fun c hc hu => ?_, fun hu => ?_⟩⟩
  · obtain ⟨k, hg, heq⟩ := s.g.wrSvn_commit w
    have hexec : ∀ h, k.svnCommit s.g = h → exec (.secSvnCommit w) s = .next (s.withG h) := fun h hk => exec_reaches rfl (heq.trans hk) hr
    have hfused := hg F.SEC_SVN_FUSED ⟨⟨by decide, by decide⟩, by decide, by decide⟩
    have hrefused : ∀ n, n < 16 → k.svnCommit s.g = k.svnRefused n → ∃ t, exec (.secSvnCommit w) s = .next t ∧ t.g.on F.SEC_SVN_REFUSED = true ∧
        t.g.get F.SEC_SVN_CAUSE = n ∧ t.g.get F.SEC_SVN_FUSED = s.g.get F.SEC_SVN_FUSED := fun n hn hk => by
      obtain ⟨href, hcause, hf⟩ := k.svnRefused_shows hn
      exact ⟨_, hexec _ hk, href, hcause, hf.trans hfused⟩
    unfold Gikan.svnCommit at hrefused hexec
    refine ⟨fun hb => hrefused 4 (by decide) (if_pos hb), fun hb => ⟨fun hs => hrefused 1 (by decide) ?_, fun hs => ⟨fun hf => hrefused 2 (by decide) ?_,
      fun hf => ⟨fun hk => hrefused 3 (by decide) ?_, fun he hl => ⟨fun hn => ?_, fun hn => ?_⟩⟩⟩⟩⟩
    · rw [hb, if_neg Bool.false_ne_true, if_pos hs]
    · rw [hb, hs, if_neg Bool.false_ne_true, if_neg Bool.false_ne_true, if_pos hf]
    · rw [hb, hs, hf]
      exact if_pos (Bool.or_eq_true_iff.mpr hk)
    · rw [hb, hs, hf, he, hl] at hexec
      refine ⟨_, hexec _ (if_pos hn), ?_, ?_⟩
      · exact (Gikan.on_set_same k F.SEC_SVN_DONE 1).trans rfl
      · exact (Gikan.on_set_ne k _ _ _ (by decide)).trans ((Gikan.on_offCommit hg ⟨⟨by decide, by decide⟩, by decide, by decide⟩).trans hb)
    · rw [hb, hs, hf, he, hl] at hexec
      refine ⟨_, hexec _ (if_neg hn), ?_, ?_⟩
      · exact (Gikan.on_set_same k F.SEC_SVN_BUSY 1).trans rfl
      · exact (Gikan.get_set_ne k _ _ _ (by decide)).trans hfused
  · rcases hc with rfl | ⟨v, rfl⟩ | rfl | rfl | ⟨a, b, n, rfl⟩ | ⟨a, b, rfl⟩ | ⟨a, b, rfl⟩ | ⟨a, b, rfl⟩ | ⟨n, rfl⟩ <;>
      exact congrArg s.done (s.g.spdmReq_down side hu _)
  · obtain ⟨hcaps, hneg0, hneg1, hdig0, hdig1, hcert, hmeas⟩ := s.g.spdm_answers side hu
    obtain ⟨v, hv, hspdm, hver, hreq⟩ := s.g.getVersion_effect side hu
    refine ⟨⟨s.withG _, v, rfl, hv, hspdm, hver, hreq⟩, fun v => ⟨fun h => congrArg s.done ((hcaps v).1 h), fun h0 h => congrArg s.done ((hcaps v).2 h0 h)⟩,
      fun h => congrArg s.done (hneg0 h), fun h => congrArg s.done (hneg1 h), fun h => congrArg s.done (hdig0 h), fun h => congrArg s.done (hdig1 h),
      fun slot o n nonce => ⟨fun h => ?_, fun ha hs => ?_⟩, fun i nonce => ⟨fun h => congrArg s.done ((hmeas i nonce).1 h),
      fun ha hi => congrArg s.done ((hmeas i nonce).2 ha hi)⟩, fun n => congrArg s.done (s.g.spdmReq_up side hu _), fun vendor code => ⟨fun h => ?_, fun hven hcode => ⟨fun h => ?_, fun d hd => ⟨fun h0 hn => ?_, fun h0 hn hw => ?_, fun hle hroom => ?_⟩⟩⟩⟩
    · obtain ⟨h1, h2⟩ := (hcert slot o n nonce).1 h
      exact ⟨congrArg s.done h1, congrArg s.done h2⟩
    · obtain ⟨h1, h2⟩ := (hcert slot o n nonce).2 ha hs
      exact ⟨congrArg s.done h1, congrArg s.done h2⟩
    · exact congrArg s.done (s.g.vendorRequest_other side hu h)
    · exact congrArg s.done ((s.g.vendorRequest_lms side hu hven hcode).1 h)
    · exact congrArg s.done ((Gikan.vendorRequest_none hu hven hcode hd h0).1 hn)
    · exact congrArg s.done ((Gikan.vendorRequest_none hu hven hcode hd h0).2 hn hw)
    · exact ⟨s.withG _, rfl, s.g.vendorRequest_signs side hu hven hcode hd hle hroom⟩

end Sys2Proof.Machine
end

section
namespace Sys2Proof.Machine

/-! ## What a slot matches (R308, R310) -/

/-- The key of a match: its input and its output. -/
def matchKey (m : Nat × Nat × Nat) : Nat × Nat := (m.1, m.2.1)

/-- Whether a match crosses the bridge from a die. -/
def crossesFrom (d : Nat) (m : Nat × Nat × Nat) : Bool := portDie m.1 == d && portDie m.2.1 != d

/-- What the matches of a slot and its rooms keep: the cells matched and the room left of a port, one match for a pair that is not wide, and the
cells that have crossed the bridge. -/
structure Slot.Kept (s : Slot) : Prop where
  hin : ∀ i, s.pairs.countP (fun m => m.1 == i) + s.rin i ≤ portCells i
  hout : ∀ o, s.pairs.countP (fun m => m.2.1 == o) + s.rout o ≤ portCells o
  hpair : ∀ i o, wideXPort i = false ∨ wideXPort o = false → s.pairs.countP (fun m => m.1 == i && m.2.1 == o) ≤ 1
  hdirs : s.across.length = 2
  hacross : ∀ d, d < 2 → s.pairs.countP (crossesFrom d) ≤ s.across.getD d 0 ∧ s.across.getD d 0 ≤ 16

theorem portDie_lt (x : Nat) : portDie x < 2 := by unfold portDie; split <;> decide

theorem Slot.zero_kept : Slot.zero.Kept where
  hin i := by simp [Slot.zero, Slot.rin, Tbl.getD]
  hout o := by simp [Slot.zero, Slot.rout, Tbl.getD]
  hpair i o _ := by simp [Slot.zero]
  hdirs := rfl
  hacross d hd := by
    have : d = 0 ∨ d = 1 := by omega
    rcases this with rfl | rfl <;> decide

/-- The slot with one more match. -/
def Slot.matched (s : Slot) (i o c : Nat) : Slot :=
  { s with pairs := s.pairs ++ [(i, o, c)], roomIn := s.roomIn.put i (s.rin i - 1), roomOut := s.roomOut.put o (s.rout o - 1),
           across := if portDie o ≠ portDie i then s.across.set (portDie i) (s.across.getD (portDie i) 0 + 1) else s.across }

/-- An accepted match is made, but where the bridge is full. -/
theorem Slot.accept_cases (s : Slot) (i o c : Nat) :
    (s.accept i o c = s.matched i o c ∧ (portDie o ≠ portDie i → s.across.getD (portDie i) 0 < 16)) ∨ s.accept i o c = { s with declined := true } := by
  unfold Slot.accept Slot.matched
  dsimp only
  by_cases hd : portDie o ≠ portDie i
  · rw [if_pos hd, if_pos hd]
    by_cases h16 : 16 ≤ s.across.getD (portDie i) 0
    · exact .inr (if_pos h16)
    · exact .inl ⟨if_neg h16, fun _ => by omega⟩
  · rw [if_neg hd, if_neg hd]
    exact .inl ⟨rfl, fun h => absurd h hd⟩

section
variable {s : Slot} (i o c : Nat)

theorem Slot.rin_matched (j : Nat) : (s.matched i o c).rin j = if j = i then s.rin i - 1 else s.rin j := by
  unfold Slot.rin Slot.matched
  dsimp only
  split
  case isTrue h => rw [h, Tbl.getD_put_same]; rfl
  case isFalse h => exact Tbl.getD_put_ne _ _ _ h

theorem Slot.rout_matched (j : Nat) : (s.matched i o c).rout j = if j = o then s.rout o - 1 else s.rout j := by
  unfold Slot.rout Slot.matched
  dsimp only
  split
  case isTrue h => rw [h, Tbl.getD_put_same]; rfl
  case isFalse h => exact Tbl.getD_put_ne _ _ _ h

/-- A pair that may match once more, and is not both wide, has not matched. -/
theorem Slot.countP_of_pairFree {i o : Nat} (hf : s.pairFree i o = true) (hw : wideXPort i = false ∨ wideXPort o = false) :
    s.pairs.countP (fun m => m.1 == i && m.2.1 == o) = 0 := by
  have hnw : (wideXPort i && wideXPort o) = false := by rcases hw with h | h <;> simp [h]
  rw [Slot.pairFree, hnw, Bool.false_or, List.all_eq_true] at hf
  rw [List.countP_eq_zero]
  intro m hm
  have := hf m hm
  simpa [imp_iff_not_or] using this

/-- A match between ports that have room, of a pair that is free, keeps what a slot keeps. -/
theorem Slot.Kept.accept (h : s.Kept) (hi : 0 < s.rin i) (ho : 0 < s.rout o) (hf : s.pairFree i o = true) : (s.accept i o c).Kept := by
  rcases s.accept_cases i o c with ⟨e, hroom⟩ | e
  · obtain ⟨hin, hout, hpair, hdirs, hacross⟩ := h
    rw [e]
    refine ⟨fun j => ?_, fun j => ?_, fun j k hw => ?_, ?_, fun d hd => ?_⟩
    · have := hin j
      rw [Slot.rin_matched, Slot.matched, List.countP_append, List.countP_singleton]
      by_cases hj : j = i
      · subst hj; simp; omega
      · simp [hj, Ne.symm hj, this]
    · have := hout j
      rw [Slot.rout_matched, Slot.matched, List.countP_append, List.countP_singleton]
      by_cases hj : j = o
      · subst hj; simp; omega
      · simp [hj, Ne.symm hj, this]
    · have := hpair j k hw
      rw [Slot.matched, List.countP_append, List.countP_singleton]
      by_cases hjk : i = j ∧ o = k
      · obtain ⟨rfl, rfl⟩ := hjk
        rw [Slot.countP_of_pairFree hf hw]; simp
      · rw [if_neg (by simpa using hjk)]; exact this
    · unfold Slot.matched
      dsimp only
      split
      · rw [List.length_set, hdirs]
      · exact hdirs
    · obtain ⟨hle, h16⟩ := hacross d hd
      have hnew : (if crossesFrom d (i, o, c) then 1 else 0) + s.across.getD d 0 ≤ (s.matched i o c).across.getD d 0 ∧
          (s.matched i o c).across.getD d 0 ≤ 16 := by
        unfold Slot.matched crossesFrom
        dsimp only
        by_cases hx : portDie o = portDie i
        · rw [if_neg (not_not_intro hx), hx]
          exact ⟨by simp, h16⟩
        · rw [if_pos hx]
          by_cases hdi : portDie i = d
          · have := hroom hx
            subst hdi
            simp [List.getD_eq_getElem?_getD, hdirs, hd] at this ⊢
            simp [hx]
            omega
          · simp [hdi, List.getD_eq_getElem?_getD, List.getElem?_set_ne hdi] at h16 ⊢
            exact h16
      rw [Slot.matched, List.countP_append, List.countP_singleton]
      rw [Slot.matched] at hnew
      omega
  · rw [e]; exact ⟨h.hin, h.hout, h.hpair, h.hdirs, h.hacross⟩

end

/-! The rooms and pairs that other matches leave -/

section
variable {s : Slot} (i o c : Nat)

theorem Slot.rin_accept_ne {j : Nat} (h : j ≠ i) : (s.accept i o c).rin j = s.rin j := by
  rcases s.accept_cases i o c with ⟨e, -⟩ | e <;> rw [e]
  · rw [Slot.rin_matched, if_neg h]
  · rfl

theorem Slot.rin_accept_ge (j : Nat) : s.rin j ≤ (s.accept i o c).rin j + if i = j then 1 else 0 := by
  rcases s.accept_cases i o c with ⟨e, -⟩ | e <;> rw [e]
  · rw [Slot.rin_matched]
    by_cases h : j = i
    · subst h; rw [if_pos rfl, if_pos rfl]; omega
    · rw [if_neg h]; exact Nat.le_add_right ..
  · exact Nat.le_add_right ..

theorem Slot.rout_accept_ge (j : Nat) : s.rout j ≤ (s.accept i o c).rout j + if o = j then 1 else 0 := by
  rcases s.accept_cases i o c with ⟨e, -⟩ | e <;> rw [e]
  · rw [Slot.rout_matched]
    by_cases h : j = o
    · subst h; rw [if_pos rfl, if_pos rfl]; omega
    · rw [if_neg h]; exact Nat.le_add_right ..
  · exact Nat.le_add_right ..

theorem Slot.pairFree_accept_ne {a b : Nat} (hf : s.pairFree a b = true) (hne : (a, b) ≠ (i, o)) : (s.accept i o c).pairFree a b = true := by
  rcases s.accept_cases i o c with ⟨e, -⟩ | e <;> rw [e]
  · unfold Slot.pairFree Slot.matched at *
    rw [List.all_append, Bool.or_and_distrib_left, hf]
    have hnot : ¬(i = a ∧ o = b) := fun ⟨h1, h2⟩ => hne (by rw [h1, h2])
    simp only [List.all_cons, List.all_nil, Bool.and_true, Bool.true_and, Bool.or_eq_true, Bool.not_eq_true', Bool.and_eq_false_iff,
      beq_eq_false_iff_ne]
    exact .inr (not_and_or.mp hnot)
  · exact hf

end

/-- Matches of different pairs that are free, no more at a port than it has room for, keep what a slot keeps. -/
theorem Slot.Kept.acceptAll (l : List (Nat × Nat × Nat)) : ∀ {s : Slot}, s.Kept → (∀ i, l.countP (fun m => m.1 == i) ≤ s.rin i) →
    (∀ o, l.countP (fun m => m.2.1 == o) ≤ s.rout o) → (l.map matchKey).Nodup → (∀ m ∈ l, s.pairFree m.1 m.2.1 = true) →
    (l.foldl (fun u m => u.accept m.1 m.2.1 m.2.2) s).Kept := by
  induction l with
  | nil => exact fun h _ _ _ _ => h
  | cons m l ih =>
    intro s h hin hout hn hf
    rw [List.map_cons, List.nodup_cons] at hn
    rw [List.forall_mem_cons] at hf
    have hi := hin m.1
    have ho := hout m.2.1
    rw [List.countP_cons, if_pos (beq_self_eq_true _)] at hi ho
    refine ih (h.accept _ _ _ (by omega) (by omega) hf.1) (fun j => ?_) (fun j => ?_) hn.2 fun a ha => ?_
    · have h1 := hin j
      have h2 := Slot.rin_accept_ge (s := s) m.1 m.2.1 m.2.2 j
      simp only [List.countP_cons, beq_iff_eq] at h1
      dsimp only
      omega
    · have h1 := hout j
      have h2 := Slot.rout_accept_ge (s := s) m.1 m.2.1 m.2.2 j
      simp only [List.countP_cons, beq_iff_eq] at h1
      dsimp only
      omega
    · have hkey : matchKey a ≠ matchKey m := fun e => hn.1 (e ▸ List.mem_map_of_mem ha)
      exact Slot.pairFree_accept_ne _ _ _ (hf.2 a ha) hkey

/-! The picks of an output and of an input -/

theorem pickBest_mem (key : Nat × Nat → Nat × Nat) : ∀ (l : List (Nat × Nat)) {b}, pickBest key l = some b → b ∈ l
  | [], _, h => nomatch h
  | a :: t, b, h => by
    rw [pickBest] at h
    split at h
    · exact List.mem_cons.mpr (.inl (Option.some.inj h).symm)
    case h_2 b' hb' =>
      split at h
      · exact List.mem_cons.mpr (.inl (Option.some.inj h).symm)
      · exact List.mem_cons_of_mem _ (pickBest_mem key t (hb'.trans h))

/-- Picks are different candidates, no more than asked for. -/
theorem pickN_picks (key : Nat × Nat → Nat × Nat) (new : Nat × Nat → Bool) : ∀ (n p : Nat) (l : List (Nat × Nat)),
    (pickN key new n p l).length ≤ n ∧ (pickN key new n p l).Nodup ∧ ∀ a ∈ pickN key new n p l, a ∈ l
  | 0, _, _ => ⟨Nat.le_refl 0, List.nodup_nil, nofun⟩
  | n + 1, p, l => by
    rw [pickN]
    split
    case h_1 => exact ⟨Nat.zero_le _, List.nodup_nil, nofun⟩
    case h_2 b hb =>
      obtain ⟨hlen, hn, hmem⟩ := pickN_picks key new n (if new b then p - 1 else p) (l.filter (fun a => a != b))
      have hbl : b ∈ l := by
        have := pickBest_mem key _ hb
        split at this
        · exact List.mem_of_mem_filter this
        · exact this
      refine ⟨Nat.succ_le_succ hlen, List.nodup_cons.mpr ⟨fun h => ?_, hn⟩, fun a ha => ?_⟩
      · have := (List.mem_filter.mp (hmem b h)).2
        simp at this
      · rcases List.mem_cons.mp ha with rfl | ha
        · exact hbl
        · exact List.mem_of_mem_filter (hmem a ha)

section
variable (g : Gikan) (s : Slot)

/-- A request is of a free pair, for the class that the pair asks for. -/
theorem Gikan.slotRequests_mem {m : Nat × Nat × Nat} (h : m ∈ g.slotRequests s) :
    s.pairFree m.1 m.2.1 = true ∧ g.headClass s m.1 m.2.1 = some m.2.2 := by
  unfold Gikan.slotRequests at h
  obtain ⟨⟨i, o⟩, -, hm⟩ := List.mem_filterMap.mp h
  dsimp only at hm
  split at hm
  case isTrue hc =>
    obtain ⟨c, hhead, rfl⟩ := Option.map_eq_some_iff.mp hm
    exact ⟨hc.2.2, hhead⟩
  case isFalse => cases hm

/-- What an output grants: requests to it, no more than it has room for. -/
theorem Gikan.slotGrants_grants (reqs : List (Nat × Nat × Nat)) (o : Nat) : (g.slotGrants s reqs o).length ≤ s.rout o ∧
    ∀ m ∈ g.slotGrants s reqs o, m ∈ reqs ∧ m.2.1 = o := by
  unfold Gikan.slotGrants
  dsimp only
  obtain ⟨hlen, -, hmem⟩ := pickN_picks (fun (i, c) => (g.tierOf c, ringDist (g.xbar.grantPtr.getD (o * 8 + c) 0) i))
    (fun x => !(g.begun s o).contains x) (s.rout o) (portCells o - (g.begun s o).length) ((reqs.filter (fun r => r.2.1 == o)).map (fun r => (r.1, r.2.2)))
  refine ⟨(List.length_map _).trans_le hlen, fun m hm => ?_⟩
  obtain ⟨⟨i, c⟩, hp, rfl⟩ := List.mem_map.mp hm
  obtain ⟨r, hr, he⟩ := List.mem_map.mp (hmem _ hp)
  rw [List.mem_filter, beq_iff_eq] at hr
  obtain ⟨hr, hro⟩ := hr
  obtain ⟨h1, h2⟩ := Prod.mk.inj he
  obtain ⟨i', o', c'⟩ := r
  dsimp only at h1 h2 hro ⊢
  rw [← h1, ← h2, ← hro]
  exact ⟨hr, rfl⟩

/-- The grants of an iteration. -/
def Gikan.grants (g : Gikan) (s : Slot) : List (Nat × Nat × Nat) :=
  (((g.slotRequests s).map (fun r => r.2.1)).dedup).flatMap (fun o => g.slotGrants s (g.slotRequests s) o)

/-- What an input with room for `n` cells accepts of them. -/
def Gikan.accepts (g : Gikan) (gs : List (Nat × Nat × Nat)) (i n : Nat) : List (Nat × Nat × Nat) :=
  (pickN (fun (o, c) => (g.tierOf c, ringDist (g.xbar.acceptPtr.getD (i * 8 + c) 0) o)) (fun _ => false) n 1
    ((gs.filter (fun r => r.1 == i)).map (fun r => (r.2.1, r.2.2)))).map (fun oc => (i, oc.1, oc.2))

theorem Gikan.accepts_picks (gs : List (Nat × Nat × Nat)) (i n : Nat) : (g.accepts gs i n).length ≤ n ∧ (g.accepts gs i n).Nodup ∧
    ∀ m ∈ g.accepts gs i n, m ∈ gs ∧ m.1 = i := by
  unfold Gikan.accepts
  obtain ⟨hlen, hn, hmem⟩ := pickN_picks (fun (o, c) => (g.tierOf c, ringDist (g.xbar.acceptPtr.getD (i * 8 + c) 0) o)) (fun _ => false) n 1
    ((gs.filter (fun r => r.1 == i)).map (fun r => (r.2.1, r.2.2)))
  refine ⟨(List.length_map _).trans_le hlen, hn.map fun a b e => ?_, fun m hm => ?_⟩
  · obtain ⟨-, e⟩ := Prod.mk.inj e
    exact e
  · obtain ⟨⟨o, c⟩, hp, rfl⟩ := List.mem_map.mp hm
    obtain ⟨r, hr, he⟩ := List.mem_map.mp (hmem _ hp)
    rw [List.mem_filter, beq_iff_eq] at hr
    obtain ⟨hr, hri⟩ := hr
    obtain ⟨i', o', c'⟩ := r
    obtain ⟨h1, h2⟩ := Prod.mk.inj he
    dsimp only at h1 h2 hri ⊢
    rw [← h1, ← h2, ← hri]
    exact ⟨hr, rfl⟩

theorem Slot.rin_acceptAll_ne (l : List (Nat × Nat × Nat)) {i j : Nat} (h : j ≠ i) (hl : ∀ m ∈ l, m.1 = i) : ∀ s : Slot,
    (l.foldl (fun u m => u.accept m.1 m.2.1 m.2.2) s).rin j = s.rin j := by
  induction l with
  | nil => exact fun _ => rfl
  | cons m l ih =>
    rw [List.forall_mem_cons] at hl
    exact fun s => (ih hl.2 _).trans (Slot.rin_accept_ne _ _ _ (hl.1.symm ▸ h))

end

/-- Inputs that accept in turn accept by the rooms they had before. -/
theorem Gikan.accepts_in_turn (g : Gikan) (gs : List (Nat × Nat × Nat)) : ∀ (is : List Nat), is.Nodup → ∀ t : Slot,
    is.foldl (fun t i => (g.accepts gs i (t.rin i)).foldl (fun u m => u.accept m.1 m.2.1 m.2.2) t) t =
      (is.flatMap (fun i => g.accepts gs i (t.rin i))).foldl (fun u m => u.accept m.1 m.2.1 m.2.2) t
  | [], _, _ => rfl
  | i :: is, hn, t => by
    obtain ⟨hi, hn⟩ := List.nodup_cons.mp hn
    obtain ⟨-, -, hmem⟩ := g.accepts_picks gs i (t.rin i)
    rw [List.foldl_cons, g.accepts_in_turn gs is hn, List.flatMap_cons, List.foldl_append]
    congr 1
    refine List.flatMap_congr fun j hj => ?_
    have hne : j ≠ i := fun e => hi (e ▸ hj)
    rw [Slot.rin_acceptAll_ne _ hne fun m hm => (hmem m hm).2]

section
variable (g : Gikan) (s : Slot)

/-- The matches of an iteration. -/
def Gikan.iterMatches (g : Gikan) (s : Slot) : List (Nat × Nat × Nat) := (List.range 48).flatMap (fun i => g.accepts (g.grants s) i (s.rin i))

theorem Gikan.iteration_eq : g.iteration s = (g.iterMatches s).foldl (fun u m => u.accept m.1 m.2.1 m.2.2) s := by
  rw [Gikan.iterMatches, ← g.accepts_in_turn (g.grants s) _ List.nodup_range]
  unfold Gikan.iteration Gikan.accepts Gikan.grants
  simp only [List.foldl_map]

theorem Gikan.iterMatches_mem {m : Nat × Nat × Nat} (h : m ∈ g.iterMatches s) :
    m ∈ g.accepts (g.grants s) m.1 (s.rin m.1) ∧ m ∈ g.slotGrants s (g.slotRequests s) m.2.1 ∧ m ∈ g.slotRequests s := by
  obtain ⟨i, -, hm⟩ := List.mem_flatMap.mp h
  obtain ⟨-, -, hmem⟩ := g.accepts_picks (g.grants s) i (s.rin i)
  obtain ⟨hgrant, hi⟩ := hmem m hm
  obtain ⟨o, -, ho⟩ := List.mem_flatMap.mp hgrant
  obtain ⟨hreq, hout⟩ := (g.slotGrants_grants s (g.slotRequests s) o).2 m ho
  rw [hi, hout]
  exact ⟨hm, ho, hreq⟩

/-- Each pair matches once at most in an iteration: its class follows from the pair. -/
theorem Gikan.iterMatches_nodup : (g.iterMatches s).Nodup ∧ ((g.iterMatches s).map matchKey).Nodup := by
  have hn : (g.iterMatches s).Nodup := by
    refine List.nodup_flatMap.mpr ⟨fun i _ => (g.accepts_picks _ i _).2.1, List.nodup_range.imp fun {i j} hij m hi hj => hij ?_⟩
    exact ((g.accepts_picks _ i _).2.2 m hi).2.symm.trans ((g.accepts_picks _ j _).2.2 m hj).2
  refine ⟨hn, hn.map_on fun a ha b hb e => ?_⟩
  obtain ⟨-, -, hra⟩ := g.iterMatches_mem s ha
  obtain ⟨-, -, hrb⟩ := g.iterMatches_mem s hb
  obtain ⟨hi, ho⟩ := Prod.mk.inj e
  have hca := (g.slotRequests_mem s hra).2
  rw [hi, ho, (g.slotRequests_mem s hrb).2] at hca
  exact Prod.ext hi (Prod.ext ho (Option.some.inj hca).symm)

theorem Slot.Kept.iteration {s : Slot} (h : s.Kept) : (g.iteration s).Kept := by
  obtain ⟨hn, hkeys⟩ := g.iterMatches_nodup s
  have hcount : ∀ (p : Nat × Nat × Nat → Bool) (l : List (Nat × Nat × Nat)) (n : Nat), l.length ≤ n → (∀ m ∈ g.iterMatches s, p m = true → m ∈ l) →
      (g.iterMatches s).countP p ≤ n := fun p l n hl hp => by
    rw [List.countP_eq_length_filter]
    refine Nat.le_trans (List.subperm_of_subset (hn.filter p) fun m hm => ?_).length_le hl
    obtain ⟨hm, hpm⟩ := List.mem_filter.mp hm
    exact hp m hm hpm
  rw [g.iteration_eq]
  refine h.acceptAll _ (fun i => hcount _ _ _ (g.accepts_picks (g.grants s) i (s.rin i)).1 fun m hm hi => ?_)
    (fun o => hcount _ _ _ (g.slotGrants_grants s (g.slotRequests s) o).1 fun m hm ho => ?_) hkeys fun m hm => ?_
  · obtain ⟨hacc, -, -⟩ := g.iterMatches_mem s hm
    rwa [beq_iff_eq.mp hi] at hacc
  · obtain ⟨-, hgrant, -⟩ := g.iterMatches_mem s hm
    rwa [beq_iff_eq.mp ho] at hgrant
  · obtain ⟨-, -, hreq⟩ := g.iterMatches_mem s hm
    exact (g.slotRequests_mem s hreq).1

theorem Slot.Kept.iterations : ∀ (n : Nat) {s : Slot}, s.Kept → (g.iterations n s).Kept
  | 0, _, h => h
  | n + 1, _, h => Slot.Kept.iterations n (h.iteration g)

end

/-- Settles O48: every iteration keeps the rooms, the pairs and the cells across the bridge (`Slot.Kept`). -/
theorem slotLimits : Obligations.SlotLimits := by
  intro g n
  obtain ⟨hin, hout, hpair, -, hacross⟩ := Slot.Kept.iterations g n Slot.zero_kept
  simp only [← List.countP_eq_length_filter]
  refine ⟨fun i => ?_, fun o => ?_, hpair, fun d => ?_⟩
  · exact Nat.le_trans (Nat.le_add_right ..) (hin i)
  · exact Nat.le_trans (Nat.le_add_right ..) (hout o)
  · by_cases hd : d < 2
    · obtain ⟨hle, h16⟩ := hacross d hd
      exact Nat.le_trans hle h16
    · have hnone : (g.iterations n Slot.zero).pairs.countP (fun m => portDie m.1 == d && portDie m.2.1 != d) = 0 := by
        refine List.countP_eq_zero.mpr fun m _ h => hd ?_
        rw [Bool.and_eq_true, beq_iff_eq] at h
        exact h.1 ▸ portDie_lt m.1
      rw [hnone]
      exact Nat.zero_le _

end Sys2Proof.Machine
end

section
namespace Sys2Proof.Machine

/-! ## A port's state and its link (R290) -/

section
variable (g : Gikan) (p : Nat)

@[simp] theorem Gikan.link_setLink_same (l : PortLnk) : (g.setLink p l).link p = l := Tbl.getD_put_same ..

theorem Gikan.link_setLink_ne {q : Nat} (l : PortLnk) (h : q ≠ p) : (g.setLink p l).link q = g.link q := Tbl.getD_put_ne _ _ _ h

theorem Gikan.link_set (f : Fld) (v : Nat) (q : Nat) : (g.set f v).link q = g.link q := rfl

theorem Gikan.lnkState_set_same (v : Nat) : (g.set (F.LNK_STATUS_STATE p) v).lnkState p = v % 16 := Gikan.get_set_same ..

theorem Gikan.lnkState_lnkEnter {n : Nat} (hn : n < 16) : (g.lnkEnter p n).lnkState p = n :=
  (g.lnkState_set_same p n).trans (Nat.mod_eq_of_lt hn)

theorem Gikan.link_lnkEnter (n : Nat) : (g.lnkEnter p n).link p = { g.link p with since := g.now } := Gikan.link_setLink_same ..

theorem Gikan.lnkSignal_test (h : g.on F.SEC_STATUS_FACTORY_TEST = true) : g.lnkSignal p = g := if_pos h

theorem Gikan.lnkSignal_starts (h : g.on F.SEC_STATUS_FACTORY_TEST = false) : (g.lnkSignal p).lnkState p = 1 ∧
    (g.lnkSignal p).link p = { g.link p with since := g.now, got := none, seenIn := false, sentSeen := false, paramAt := none } := by
  have heq : g.lnkSignal p = (g.lnkEnter p 1).setLink p { (g.lnkEnter p 1).link p with got := none, seenIn := false, sentSeen := false, paramAt := none } :=
    if_neg (by rw [h]; decide)
  rw [heq, Gikan.lnkState_setLink, Gikan.link_setLink_same, Gikan.link_lnkEnter]
  exact ⟨g.lnkState_lnkEnter p (by decide), rfl⟩

/-- A failed bring-up is in BACKOFF with its cause. -/
theorem Gikan.lnkFail_fails {n : Nat} (hn : n < 16) : (g.lnkFail p n).lnkState p = 7 ∧ (g.lnkFail p n).get (F.LNK_STATUS_DOWN_CAUSE p) = n ∧
    (g.lnkFail p n).link p = { g.link p with since := g.now, fails := (g.link p).fails + 1 } := by
  have hkey : (F.LNK_STATUS_DOWN_CAUSE p).key ≠ (F.LNK_STATUS_STATE p).key := by
    simp only [F.LNK_STATUS_DOWN_CAUSE, F.LNK_STATUS_STATE]; omega
  have heq : g.lnkFail p n = ((g.set (F.LNK_STATUS_DOWN_CAUSE p) n).lnkEnter p 7).setLink p
      { ((g.set (F.LNK_STATUS_DOWN_CAUSE p) n).lnkEnter p 7).link p with fails := (((g.set (F.LNK_STATUS_DOWN_CAUSE p) n).lnkEnter p 7).link p).fails + 1 } :=
    rfl
  have hcause : ((g.set (F.LNK_STATUS_DOWN_CAUSE p) n).lnkEnter p 7).get (F.LNK_STATUS_DOWN_CAUSE p) = n :=
    (Gikan.get_set_ne (g.set (F.LNK_STATUS_DOWN_CAUSE p) n) (F.LNK_STATUS_STATE p) (F.LNK_STATUS_DOWN_CAUSE p) 7 hkey).trans
      ((Gikan.get_set_same ..).trans (Nat.mod_eq_of_lt hn))
  rw [heq, Gikan.lnkState_setLink, Gikan.link_setLink_same, Gikan.link_lnkEnter]
  exact ⟨Gikan.lnkState_lnkEnter _ p (by decide), hcause, rfl⟩

end

/-! ## The loss and return of a laser feed (R300) -/

/-- What a feed's loss does to one of its ports. -/
def Gikan.feedPortLost (g : Gikan) (t f p : Nat) : Gikan :=
  let k := (g.setLink p { g.link p with feedLost := true }).contained (grpPort p) 0xFF (offOf (F.LNK_TILE_FEED_LOSS t f))
  if k.lnkUp p then k.retrain p 7 else if k.lnkState p = 2 ∨ k.lnkState p = 3 ∨ k.lnkState p = 4 then k.lnkFail p 7 else k

/-- A feed's loss as it is recorded. -/
def Gikan.feedLogged (g : Gikan) (t f : Nat) : Gikan :=
  (g.set (F.LNK_TILE_FEED_LOSS t f) 1).contained (grpTile t) f (offOf (F.LNK_TILE_FEED_LOSS t f))

theorem Gikan.laserFeedLoss_eq (g : Gikan) (t f : Nat) : g.laserFeedLoss t f =
    ((g.feedLogged t f).feedPortLost t f (8 * t + 2 * f)).feedPortLost t f (8 * t + 2 * f + 1) := by
  have hone : ∀ (h : Gikan) p, h.feedPortLost t f p =
      (let k := (h.setLink p { h.link p with feedLost := true }).contained (grpPort p) 0xFF (offOf (F.LNK_TILE_FEED_LOSS t f))
       if k.lnkUp p then k.retrain p 7 else if k.lnkState p == 2 || k.lnkState p == 3 || k.lnkState p == 4 then k.lnkFail p 7 else k) := fun h p => by
    unfold Gikan.feedPortLost
    simp only [Bool.or_eq_true, beq_iff_eq, or_assoc]
  simp only [hone, Gikan.laserFeedLoss, feedPorts, List.foldl_cons, List.foldl_nil, Gikan.feedLogged]

theorem Gikan.feedLogged_shows (g : Gikan) (t f : Fin 4) : (g.feedLogged t f).on (F.LNK_TILE_FEED_LOSS t f) = true ∧
    (g.feedLogged t f).bitOf (F.FLT_WORDS_GROUPS 1) (grpTile t) = true := by
  have hapart : (F.LNK_TILE_FEED_LOSS t f).apart := by unfold Fld.apart; revert t f; decide
  refine ⟨?_, ((g.set _ 1).bitOf_fault .contained f _ 0 (show 32 + (t : Nat) < 64 by omega)).2.1 (by decide)⟩
  rw [Gikan.on, Gikan.feedLogged, Gikan.get_contained _ _ _ _ _ hapart, Gikan.get_set_same]
  rfl

/-- A feed's return: its ports may leave SIGNAL. -/
theorem Gikan.laserFeedReturn_link (g : Gikan) (t f q : Nat) : (g.laserFeedReturn t f).link q =
    if q = 8 * t + 2 * f ∨ q = 8 * t + 2 * f + 1 then { g.link q with feedLost := false } else g.link q := by
  have heq : g.laserFeedReturn t f = (g.setLink (8 * t + 2 * f) { g.link (8 * t + 2 * f) with feedLost := false }).setLink (8 * t + 2 * f + 1)
      { (g.setLink (8 * t + 2 * f) { g.link (8 * t + 2 * f) with feedLost := false }).link (8 * t + 2 * f + 1) with feedLost := false } := rfl
  rw [heq, Gikan.link_setLink_ne g _ _ (show 8 * t + 2 * f + 1 ≠ 8 * t + 2 * f by omega)]
  by_cases h1 : q = 8 * t + 2 * f + 1
  · subst h1; simp
  · rw [Gikan.link_setLink_ne _ _ _ h1]
    by_cases h0 : q = 8 * t + 2 * f
    · subst h0; simp
    · rw [Gikan.link_setLink_ne _ _ _ h0, if_neg (not_or.mpr ⟨h0, h1⟩)]

/-- A port that stays in SIGNAL or BACKOFF, without its feed. -/
def Gikan.feedAway (g : Gikan) (p : Nat) : Prop := (g.lnkState p = 1 ∨ g.lnkState p = 7) ∧ (g.link p).feedLost = true

section
variable {g : Gikan} {p : Nat} (h : g.feedAway p)
include h

theorem Gikan.feedAway.linkLight : g.linkLight p = g :=
  if_neg (by rw [h.2]; simp)

theorem Gikan.feedAway.lnkSignal : (g.lnkSignal p).feedAway p := by
  cases ht : g.on F.SEC_STATUS_FACTORY_TEST with
  | true => rw [g.lnkSignal_test p ht]; exact h
  | false =>
    obtain ⟨hst, hl⟩ := g.lnkSignal_starts p ht
    exact ⟨.inl hst, by rw [hl]; exact h.2⟩

theorem Gikan.feedAway.lnkFail {n : Nat} (hn : n < 16) : (g.lnkFail p n).feedAway p := by
  obtain ⟨hst, -, hl⟩ := g.lnkFail_fails p hn
  exact ⟨.inr hst, by rw [hl]; exact h.2⟩

theorem Gikan.feedAway.backoffEnd : (g.backoffEnd p).feedAway p := by
  unfold Gikan.backoffEnd
  split
  · exact h.lnkSignal
  · exact h

theorem Gikan.feedAway.linkStateTimeout : (g.linkStateTimeout p).feedAway p := by
  have hst : g.lnkState p < 16 := by rcases h.1 with e | e <;> rw [e] <;> decide
  unfold Gikan.linkStateTimeout
  dsimp only
  split
  · exact h.lnkFail hst
  · exact h

end

/-- Settles O47: each event of a feed, and of a port without its feed, by the port's state. -/
theorem laserFeeds : Obligations.LaserFeeds := by
  refine fun s => ⟨fun t f => ⟨congrArg s.done (s.g.laserFeedLoss_eq t f), s.g.feedLogged_shows t f⟩,
    fun t f => ⟨s.withG (s.g.laserFeedReturn t f), rfl, rfl, rfl, s.g.laserFeedReturn_link t f⟩, fun p hf hst => ?_⟩
  have haway : s.g.feedAway p := ⟨hst, hf⟩
  exact ⟨congrArg s.done haway.linkLight, ⟨s.withG _, rfl, haway.backoffEnd⟩, ⟨s.withG _, rfl, haway.linkStateTimeout⟩⟩

end Sys2Proof.Machine
end

section
namespace Sys2Proof.Machine

/-! ## The lane loops (R298, R299) -/

/-- The fields of a lane that its loops, and training, settle. -/
def laneFlds (p i : Nat) : List Fld :=
  [F.LNK_LANE_OPT_RX_OMA p i, F.LNK_LANE_EQ_CTLE p i, F.LNK_LANE_EQ_DFE1 p i, F.LNK_LANE_EQ_DFE2 p i, F.LNK_LANE_EQ_DFE3 p i,
   F.LNK_LANE_OPT_MOD_BIAS p i, F.LNK_LANE_EQ_FFE_PRE p i, F.LNK_LANE_EQ_FFE_MAIN p i, F.LNK_LANE_EQ_FFE_POST p i]

/-- A field that no lane's loop settles. -/
def Fld.offLanes (f : Fld) (p : Nat) : Prop := ∀ i, ∀ e ∈ laneFlds p i, f.key ≠ e.key

/-- What is left of a Gikan but for the fields of its lanes and the count of open values. -/
def Gikan.besideLanes (g h : Gikan) (p : Nat) : Prop :=
  h.lnk = g.lnk ∧ h.mem = g.mem ∧ h.now = g.now ∧ h.out = g.out ∧ ∀ f : Fld, f.offLanes p → h.get f = g.get f

theorem Gikan.besideLanes.refl (g : Gikan) (p : Nat) : g.besideLanes g p := ⟨rfl, rfl, rfl, rfl, fun _ _ => rfl⟩

theorem Gikan.besideLanes.trans {g h k : Gikan} {p : Nat} (a : g.besideLanes h p) (b : h.besideLanes k p) : g.besideLanes k p := by
  obtain ⟨a1, a2, a3, a4, a5⟩ := a
  obtain ⟨b1, b2, b3, b4, b5⟩ := b
  exact ⟨b1.trans a1, b2.trans a2, b3.trans a3, b4.trans a4, fun f hf => (b5 f hf).trans (a5 f hf)⟩

theorem Gikan.besideLanes_set (g : Gikan) {p i : Nat} {e : Fld} (he : e ∈ laneFlds p i) (v : Nat) : g.besideLanes (g.set e v) p :=
  ⟨rfl, rfl, rfl, rfl, fun _ hf => Gikan.get_set_ne _ _ _ _ (hf i e he)⟩

theorem Gikan.besideLanes_next (g : Gikan) (p : Nat) : g.besideLanes { g with draw := g.draw + 1 } p := ⟨rfl, rfl, rfl, rfl, fun _ _ => rfl⟩

theorem Gikan.besideLanes_foldl {p : Nat} {step : Gikan → Nat → Gikan} (hs : ∀ (h : Gikan) i, h.besideLanes (step h i) p) (l : List Nat) (g : Gikan) :
    g.besideLanes (l.foldl step g) p := by
  induction l generalizing g with
  | nil => exact .refl g p
  | cons i l ih => exact (hs g i).trans (ih _)

/-- One lane's loops. -/
theorem Gikan.laneLoops_beside (g : Gikan) (p : Nat) : g.besideLanes (g.laneLoops p) p := by
  refine Gikan.besideLanes_foldl (fun h i => ?_) _ g
  have hlane : ∀ e ∈ laneFlds p i, ∀ (k : Gikan) v, k.besideLanes (k.set e v) p := fun e he k v => k.besideLanes_set he v
  simp only [laneFlds, List.forall_mem_cons, List.not_mem_nil, false_imp_iff, implies_true, and_true] at hlane
  obtain ⟨homa, hctle, hdfe1, hdfe2, hdfe3, hbias, -⟩ := hlane
  obtain ⟨k, hk⟩ : ∃ k, k = ({ h with draw := h.draw + 1 } : Gikan).set (F.LNK_LANE_OPT_RX_OMA p i) (Config.openValue h.draw) := ⟨_, rfl⟩
  have hhk : h.besideLanes k p := by rw [hk]; exact (h.besideLanes_next p).trans (homa _ _)
  have heq : ∀ v, k.besideLanes (if k.eqFrozen p then k else (((k.set (F.LNK_LANE_EQ_CTLE p i) (v / 2 ^ 8)).set (F.LNK_LANE_EQ_DFE1 p i) (v / 2 ^ 12)).set
      (F.LNK_LANE_EQ_DFE2 p i) (v / 2 ^ 20)).set (F.LNK_LANE_EQ_DFE3 p i) (v / 2 ^ 28)) p := fun v => by
    split
    · exact .refl k p
    · exact (((hctle _ _).trans (hdfe1 _ _)).trans (hdfe2 _ _)).trans (hdfe3 _ _)
  refine hhk.trans ((heq (Config.openValue h.draw)).trans ?_)
  have hlast : ∀ (r : Gikan) v, r.besideLanes (if r.biasFrozen p then r else r.set (F.LNK_LANE_OPT_MOD_BIAS p i) v) p := fun r v => by
    split
    · exact .refl r p
    · exact hbias _ _
  rw [hk]
  exact hlast _ _

theorem Gikan.trainFfe_beside (g : Gikan) (p : Nat) : g.besideLanes (g.trainFfe p) p := by
  unfold Gikan.trainFfe
  split
  · exact .refl g p
  · refine Gikan.besideLanes_foldl (fun h i => ?_) _ g
    have hlane : ∀ e ∈ laneFlds p i, ∀ (k : Gikan) v, k.besideLanes (k.set e v) p := fun e he k v => k.besideLanes_set he v
    simp only [laneFlds, List.forall_mem_cons, List.not_mem_nil, false_imp_iff, implies_true, and_true] at hlane
    obtain ⟨-, -, -, -, -, -, hpre, hmain, hpost⟩ := hlane
    exact (h.besideLanes_next p).trans (((hpre _ _).trans (hmain _ _)).trans (hpost _ _))

theorem Gikan.eqFrozen_of_beside {g h : Gikan} {p : Nat} (b : g.besideLanes h p) : h.eqFrozen p = g.eqFrozen p := by
  obtain ⟨-, -, -, -, hget⟩ := b
  have hctrl : (F.LNK_CTRL_EQ_FREEZE p).offLanes p := fun i => by
    simp only [laneFlds, List.forall_mem_cons, List.not_mem_nil, false_imp_iff, implies_true, and_true, F.LNK_CTRL_EQ_FREEZE, F.LNK_LANE_OPT_RX_OMA,
      F.LNK_LANE_EQ_CTLE, F.LNK_LANE_EQ_DFE1, F.LNK_LANE_EQ_DFE2, F.LNK_LANE_EQ_DFE3, F.LNK_LANE_OPT_MOD_BIAS, F.LNK_LANE_EQ_FFE_PRE,
      F.LNK_LANE_EQ_FFE_MAIN, F.LNK_LANE_EQ_FFE_POST]
    omega
  have hflt : F.FLT_FREEZE_LOOPS.offLanes p := fun i => by
    simp only [laneFlds, List.forall_mem_cons, List.not_mem_nil, false_imp_iff, implies_true, and_true, F.FLT_FREEZE_LOOPS, F.LNK_LANE_OPT_RX_OMA,
      F.LNK_LANE_EQ_CTLE, F.LNK_LANE_EQ_DFE1, F.LNK_LANE_EQ_DFE2, F.LNK_LANE_EQ_DFE3, F.LNK_LANE_OPT_MOD_BIAS, F.LNK_LANE_EQ_FFE_PRE,
      F.LNK_LANE_EQ_FFE_MAIN, F.LNK_LANE_EQ_FFE_POST]
    omega
  rw [Gikan.eqFrozen, Gikan.eqFrozen, Gikan.on, Gikan.bitOf, hget _ hctrl, hget _ hflt]
  rfl

/-! ## Flits sent (R281, R286) -/

section
variable (g : Gikan) (p : Nat) (f : Flit)

theorem Gikan.get_sendFlit_ne {e : Fld} (he : e.key ≠ (F.LNK_COUNT1_NAKS_SENT p).key) : (g.sendFlit p f).get e = g.get e := by
  unfold Gikan.sendFlit
  dsimp only
  split
  · exact Gikan.get_inc_ne g _ _ 1 he
  · rfl

theorem Gikan.link_sendFlit : (g.sendFlit p f).link p = { g.link p with nakDue := false, crNext := ((g.link p).crNext + 2) % 8 } :=
  Gikan.link_setLink_same _ p _

end

/-! ## Reports of lanes -/

/-- A report of lanes: what was measured, and what is asked of the partner. -/
def Gikan.laneReport (g : Gikan) (p : Nat) : LaneStatusMsg :=
  ⟨(List.range 8).map (fun i => sext (g.get (F.LNK_LANE_OPT_RX_OMA p i)) 8), (List.range 8).map (fun i => if g.eqFrozen p then 0 else
    let v := Config.openValue g.draw / 64 ^ i
    v % 3 + v / 4 % 3 * 4 + v / 16 % 3 * 16)⟩

theorem Gikan.laneStatusSend_due {g : Gikan} {p : Nat} (hu : g.lnkUp p = true)
    (hd : (g.link p).laneAt = none ∨ ∃ t, (g.link p).laneAt = some t ∧ t + 1000000 ≤ g.now) :
    g.laneStatusSend p = (let h := g.laneLoops p
      (({ h with draw := h.draw + 1 } : Gikan).setLink p { h.link p with laneAt := some h.now }).sendFlit p (msgFlit 3 (laneSlots (h.laneReport p)))) := by
  unfold Gikan.laneStatusSend
  rcases hd with hd | ⟨t, hd, ht⟩
  · rw [hd, hu]; rfl
  · rw [hd, hu]
    dsimp only
    rw [decide_eq_true ht]
    rfl

theorem Gikan.laneStatusSend_idle {g : Gikan} {p : Nat} (h : g.lnkUp p = false ∨ ∃ t, (g.link p).laneAt = some t ∧ g.now < t + 1000000) :
    g.laneStatusSend p = g := by
  unfold Gikan.laneStatusSend
  rcases h with h | ⟨t, hd, ht⟩
  · rw [h]; rfl
  · rw [hd]
    dsimp only
    rw [decide_eq_false (Nat.not_le.mpr ht), Bool.and_false]
    rfl

/-- A field of a lane ends with what the step of its lane makes of it. -/
theorem Gikan.get_foldl_lane {step : Gikan → Nat → Gikan} {f : Fld} {i v : Nat} (g : Gikan) (hi : i < 8)
    (hown : ∀ h : Gikan, h.get f = g.get f → (step h i).get f = v) (hother : ∀ (h : Gikan) j, j < 8 → j ≠ i → (step h j).get f = h.get f) :
    ((List.range 8).foldl step g).get f = v := by
  have hkeep : ∀ (l : List Nat) (h : Gikan), i ∉ l → (∀ j ∈ l, j < 8) → (l.foldl step h).get f = h.get f := fun l => by
    induction l with
    | nil => exact fun _ _ _ => rfl
    | cons j l ih =>
      intro h hj h8
      rw [List.mem_cons, not_or] at hj
      rw [List.forall_mem_cons] at h8
      exact (ih _ hj.2 h8.2).trans (hother h j h8.1 (Ne.symm hj.1))
  obtain ⟨a, b, hab⟩ := List.append_of_mem (List.mem_range.mpr hi)
  have hn : (a ++ i :: b).Nodup := hab ▸ List.nodup_range
  have h8 : ∀ j ∈ a ++ i :: b, j < 8 := fun j hj => List.mem_range.mp (hab ▸ hj)
  obtain ⟨-, hb, hdis⟩ := List.nodup_append.mp hn
  rw [hab, List.foldl_append, List.foldl_cons, hkeep b _ (List.nodup_cons.mp hb).1 fun j hj => h8 j (by simp [hj])]
  exact hown _ (hkeep a g (fun ha => hdis i ha i (List.mem_cons_self ..) rfl) fun j hj => h8 j (by simp [hj]))

/-- What a report makes of one lane: recorded, and its requests stepped unless the loop is frozen. -/
def Gikan.laneStep (frozen : Bool) (p : Nat) (m : LaneStatusMsg) (g : Gikan) (i : Nat) : Gikan :=
  let h := g.set (F.LNK_LANE_OPT_PARTNER_RX_OMA p i) (toBits (m.rxOma.getD i 0) 8)
  let r := m.ffeReq.getD i 0
  if frozen then h else
  let h := h.set (F.LNK_LANE_EQ_FFE_PRE p i) (ffeStep (h.get (F.LNK_LANE_EQ_FFE_PRE p i)) (bits r 0 2))
  let h := h.set (F.LNK_LANE_EQ_FFE_MAIN p i) (ffeStep (h.get (F.LNK_LANE_EQ_FFE_MAIN p i)) (bits r 2 2))
  h.set (F.LNK_LANE_EQ_FFE_POST p i) (ffeStep (h.get (F.LNK_LANE_EQ_FFE_POST p i)) (bits r 4 2))

theorem Gikan.laneStatusIn_eq (g : Gikan) (p : Nat) (m : LaneStatusMsg) (hu : g.lnkUp p = true) :
    g.laneStatusIn p m = (List.range 8).foldl (Gikan.laneStep (g.eqFrozen p) p m) g := if_neg (by rw [hu]; decide)

section
variable (frozen : Bool) (p : Nat) (m : LaneStatusMsg) (h : Gikan) (i : Nat)

theorem Gikan.laneStep_keeps : (h.laneStep frozen p m i).lnk = h.lnk ∧ (h.laneStep frozen p m i).mem = h.mem := by
  unfold Gikan.laneStep
  cases frozen <;> exact ⟨rfl, rfl⟩

theorem Gikan.get_laneStep_ne {e : Fld} (h0 : e.key ≠ (F.LNK_LANE_OPT_PARTNER_RX_OMA p i).key) (h1 : e.key ≠ (F.LNK_LANE_EQ_FFE_PRE p i).key)
    (h2 : e.key ≠ (F.LNK_LANE_EQ_FFE_MAIN p i).key) (h3 : e.key ≠ (F.LNK_LANE_EQ_FFE_POST p i).key) :
    (h.laneStep frozen p m i).get e = h.get e := by
  unfold Gikan.laneStep
  cases frozen
  · simp only [Bool.false_eq_true, if_false]
    rw [Gikan.get_set_ne _ _ _ _ h3, Gikan.get_set_ne _ _ _ _ h2, Gikan.get_set_ne _ _ _ _ h1, Gikan.get_set_ne _ _ _ _ h0]
  · exact Gikan.get_set_ne _ _ _ _ h0

/-- What a lane's own step leaves in its fields. -/
theorem Gikan.get_laneStep : (h.laneStep frozen p m i).get (F.LNK_LANE_OPT_PARTNER_RX_OMA p i) = toBits (m.rxOma.getD i 0) 8 ∧
    ∀ f b, (f = F.LNK_LANE_EQ_FFE_PRE p i ∧ b = 0) ∨ (f = F.LNK_LANE_EQ_FFE_MAIN p i ∧ b = 2) ∨ (f = F.LNK_LANE_EQ_FFE_POST p i ∧ b = 4) →
      (h.laneStep frozen p m i).get f = if frozen then h.get f else ffeStep (h.get f) (bits (m.ffeReq.getD i 0) b 2) % 64 := by
  have hfit : toBits (m.rxOma.getD i 0) 8 % 2 ^ 8 = toBits (m.rxOma.getD i 0) 8 := Nat.mod_eq_of_lt (toBits_lt ..)
  have k01 : (F.LNK_LANE_OPT_PARTNER_RX_OMA p i).key ≠ (F.LNK_LANE_EQ_FFE_PRE p i).key := by
    simp only [F.LNK_LANE_OPT_PARTNER_RX_OMA, F.LNK_LANE_EQ_FFE_PRE]; omega
  have k02 : (F.LNK_LANE_OPT_PARTNER_RX_OMA p i).key ≠ (F.LNK_LANE_EQ_FFE_MAIN p i).key := by
    simp only [F.LNK_LANE_OPT_PARTNER_RX_OMA, F.LNK_LANE_EQ_FFE_MAIN]; omega
  have k03 : (F.LNK_LANE_OPT_PARTNER_RX_OMA p i).key ≠ (F.LNK_LANE_EQ_FFE_POST p i).key := by
    simp only [F.LNK_LANE_OPT_PARTNER_RX_OMA, F.LNK_LANE_EQ_FFE_POST]; omega
  have k12 : (F.LNK_LANE_EQ_FFE_PRE p i).key ≠ (F.LNK_LANE_EQ_FFE_MAIN p i).key := by
    simp only [F.LNK_LANE_EQ_FFE_PRE, F.LNK_LANE_EQ_FFE_MAIN]; omega
  have k13 : (F.LNK_LANE_EQ_FFE_PRE p i).key ≠ (F.LNK_LANE_EQ_FFE_POST p i).key := by
    simp only [F.LNK_LANE_EQ_FFE_PRE, F.LNK_LANE_EQ_FFE_POST]; omega
  have k23 : (F.LNK_LANE_EQ_FFE_MAIN p i).key ≠ (F.LNK_LANE_EQ_FFE_POST p i).key := by
    simp only [F.LNK_LANE_EQ_FFE_MAIN, F.LNK_LANE_EQ_FFE_POST]; omega
  unfold Gikan.laneStep
  cases frozen with
  | true =>
    refine ⟨(Gikan.get_set_same ..).trans hfit, ?_⟩
    rintro f b (⟨rfl, -⟩ | ⟨rfl, -⟩ | ⟨rfl, -⟩)
    · exact Gikan.get_set_ne _ _ _ _ k01.symm
    · exact Gikan.get_set_ne _ _ _ _ k02.symm
    · exact Gikan.get_set_ne _ _ _ _ k03.symm
  | false =>
    simp only [Bool.false_eq_true, if_false]
    refine ⟨?_, ?_⟩
    · rw [Gikan.get_set_ne _ _ _ _ k03, Gikan.get_set_ne _ _ _ _ k02, Gikan.get_set_ne _ _ _ _ k01, Gikan.get_set_same]
      exact hfit
    · rintro f b (⟨rfl, rfl⟩ | ⟨rfl, rfl⟩ | ⟨rfl, rfl⟩)
      · rw [Gikan.get_set_ne _ _ _ _ k13, Gikan.get_set_ne _ _ _ _ k12, Gikan.get_set_same, Gikan.get_set_ne _ _ _ _ k01.symm]
        rfl
      · rw [Gikan.get_set_ne _ _ _ _ k23, Gikan.get_set_same, Gikan.get_set_ne _ _ _ _ k12.symm, Gikan.get_set_ne _ _ _ _ k02.symm]
        rfl
      · rw [Gikan.get_set_same, Gikan.get_set_ne _ _ _ _ k23.symm, Gikan.get_set_ne _ _ _ _ k13.symm, Gikan.get_set_ne _ _ _ _ k03.symm]
        rfl

end

/-- A report received (R298, R299). -/
theorem Gikan.laneStatusIn_effect {g : Gikan} {p : Nat} (m : LaneStatusMsg) (hu : g.lnkUp p = true) :
    (g.laneStatusIn p m).lnk = g.lnk ∧ (g.laneStatusIn p m).mem = g.mem ∧ ∀ i, i < 8 →
      (g.laneStatusIn p m).get (F.LNK_LANE_OPT_PARTNER_RX_OMA p i) = toBits (m.rxOma.getD i 0) 8 ∧
      ∀ f b, (f = F.LNK_LANE_EQ_FFE_PRE p i ∧ b = 0) ∨ (f = F.LNK_LANE_EQ_FFE_MAIN p i ∧ b = 2) ∨ (f = F.LNK_LANE_EQ_FFE_POST p i ∧ b = 4) →
        (g.laneStatusIn p m).get f = if g.eqFrozen p then g.get f else ffeStep (g.get f) (bits (m.ffeReq.getD i 0) b 2) % 64 := by
  rw [g.laneStatusIn_eq p m hu]
  have hfold : ∀ (l : List Nat) (h : Gikan), (l.foldl (Gikan.laneStep (g.eqFrozen p) p m) h).lnk = h.lnk ∧
      (l.foldl (Gikan.laneStep (g.eqFrozen p) p m) h).mem = h.mem := fun l => by
    induction l with
    | nil => exact fun _ => ⟨rfl, rfl⟩
    | cons j l ih => exact fun h => ⟨(ih _).1.trans (h.laneStep_keeps _ p m j).1, (ih _).2.trans (h.laneStep_keeps _ p m j).2⟩
  refine ⟨(hfold _ g).1, (hfold _ g).2, fun i hi => ⟨?_, fun f b hf => ?_⟩⟩
  · refine Gikan.get_foldl_lane g hi (fun h _ => (h.get_laneStep _ p m i).1) fun h j hj hne => h.get_laneStep_ne _ p m j ?_ ?_ ?_ ?_ <;>
    · simp only [F.LNK_LANE_OPT_PARTNER_RX_OMA, F.LNK_LANE_EQ_FFE_PRE, F.LNK_LANE_EQ_FFE_MAIN, F.LNK_LANE_EQ_FFE_POST]
      omega
  · refine Gikan.get_foldl_lane g hi (fun h hh => hh ▸ (h.get_laneStep _ p m i).2 f b hf) fun h j hj hne => h.get_laneStep_ne _ p m j ?_ ?_ ?_ ?_ <;>
    · rcases hf with ⟨rfl, -⟩ | ⟨rfl, -⟩ | ⟨rfl, -⟩ <;>
      · simp only [F.LNK_LANE_OPT_PARTNER_RX_OMA, F.LNK_LANE_EQ_FFE_PRE, F.LNK_LANE_EQ_FFE_MAIN, F.LNK_LANE_EQ_FFE_POST]
        omega

/-! ## The laser loop (R301, R390) -/

/-- A feed with its loop's time and its power put. -/
def Gikan.loopRun (g : Gikan) (t f : Nat) : Gikan :=
  (({ g with draw := g.draw + 1 } : Gikan).setLink (8 * t + 2 * f) { g.link (8 * t + 2 * f) with loopAt := some g.now }).set (F.LNK_TILE_FEED_POWER t f)
    (Config.openValue g.draw)

/-- Where a report lets the setpoint go. -/
def loopTo (v : Int) (n : Nat) : Nat := if v < -26 then min 200 (n + 5) else if -6 < v then max 160 (n - 5) else n

section
variable (g : Gikan) (t f : Nat)

theorem Gikan.txNarrow_loopRun (q : Nat) : ((g.loopRun t f).link q).txNarrow = (g.link q).txNarrow := by
  have heq : (g.loopRun t f).link q = (({ g with draw := g.draw + 1 } : Gikan).setLink (8 * t + 2 * f)
    { g.link (8 * t + 2 * f) with loopAt := some g.now }).link q := rfl
  rw [heq]
  by_cases h : q = 8 * t + 2 * f
  · rw [h, Gikan.link_setLink_same]
  · rw [Gikan.link_setLink_ne _ _ _ h]; rfl

theorem Gikan.get_loopRun_ne {e : Fld} (he : e.key ≠ (F.LNK_TILE_FEED_POWER t f).key) : (g.loopRun t f).get e = g.get e :=
  Gikan.get_set_ne _ _ _ _ he

theorem Gikan.span_loopRun : (g.loopRun t f).span = g.span := by
  have hget : ∀ e : Fld, e.key < 0x2800000 → (g.loopRun t f).get e = g.get e := fun e he =>
    g.get_loopRun_ne t f (by simp only [F.LNK_TILE_FEED_POWER]; omega)
  have hnow : (g.loopRun t f).now = g.now := rfl
  unfold Gikan.span Gikan.running Gikan.tickNo
  rw [Gikan.on, Gikan.on, hget F.TICK_STATUS_RUNNING (by decide), hget F.TICK_COUNT_TICK (by decide), hnow]

theorem Gikan.txLanes_le (p : Nat) : g.txLanes p ≤ 8 := by
  unfold Gikan.txLanes
  split
  · decide
  · exact Nat.div_le_self ..

/-- The lowest report does not rest on the loop's own time and power. -/
theorem Gikan.feedOma_loopRun (hf : f < 4) : (g.loopRun t f).feedOma t f = g.feedOma t f := by
  have hget : ∀ e : Fld, e.key ≠ (F.LNK_TILE_FEED_POWER t f).key → (g.loopRun t f).get e = g.get e := fun e he => g.get_loopRun_ne t f he
  have hup : ∀ q, (g.loopRun t f).lnkUp q = g.lnkUp q := fun q => by
    rw [Gikan.lnkUp, Gikan.lnkState, hget _ (by simp only [F.LNK_STATUS_STATE, F.LNK_TILE_FEED_POWER]; omega)]; rfl
  have hbias : ∀ q, (g.loopRun t f).biasFrozen q = g.biasFrozen q := fun q => by
    rw [Gikan.biasFrozen, Gikan.on, Gikan.bitOf, hget _ (by simp only [F.LNK_CTRL_BIAS_FREEZE, F.LNK_TILE_FEED_POWER]; omega),
      hget _ (by simp only [F.FLT_FREEZE_LOOPS, F.LNK_TILE_FEED_POWER]; omega)]; rfl
  have hlanes : ∀ q, (g.loopRun t f).txLanes q = g.txLanes q := fun q => by
    rw [Gikan.txLanes, g.txNarrow_loopRun, hget _ (by simp only [F.LNK_STATUS_WIDTH, F.LNK_TILE_FEED_POWER]; omega)]; rfl
  have homa : ∀ q i, i < 8 → (g.loopRun t f).get (F.LNK_LANE_OPT_PARTNER_RX_OMA q i) = g.get (F.LNK_LANE_OPT_PARTNER_RX_OMA q i) := fun q i hi =>
    hget _ (by simp only [F.LNK_LANE_OPT_PARTNER_RX_OMA, F.LNK_TILE_FEED_POWER]; omega)
  have hall : (feedPorts t f).flatMap (fun p => if (g.loopRun t f).lnkUp p && !(g.loopRun t f).biasFrozen p then
      (List.range ((g.loopRun t f).txLanes p)).map (fun i => sext ((g.loopRun t f).get (F.LNK_LANE_OPT_PARTNER_RX_OMA p i)) 8) else []) =
      (feedPorts t f).flatMap (fun p => if g.lnkUp p && !g.biasFrozen p then
        (List.range (g.txLanes p)).map (fun i => sext (g.get (F.LNK_LANE_OPT_PARTNER_RX_OMA p i)) 8) else []) := by
    refine List.flatMap_congr fun p _ => ?_
    rw [hup, hbias, hlanes]
    refine if_congr Iff.rfl (List.map_congr_left fun i hi => ?_) rfl
    rw [homa p i (Nat.lt_of_lt_of_le (List.mem_range.mp hi) (g.txLanes_le p))]
  unfold Gikan.feedOma
  simp only [hall]

theorem Gikan.laserLoop_idle {x : Nat} (hl : (g.link (8 * t + 2 * f)).loopAt = some x) (hx : g.now < x + 10000000) : g.laserLoop t f = g := by
  unfold Gikan.laserLoop
  simp only [hl, decide_eq_false (Nat.not_le.mpr hx)]
  rfl

/-- A setpoint that a report moves. -/
def Gikan.loopMoved (k : Gikan) (t f n : Nat) : Gikan := ((k.set (F.LNK_LASER_REQ_SETPOINT t f) n).set (F.LNK_LASER_REQ_CHANGED t f) 1).ibi 2

theorem Gikan.laserLoop_due (hf : f < 4)
    (hl : (g.link (8 * t + 2 * f)).loopAt = none ∨ ∃ x, (g.link (8 * t + 2 * f)).loopAt = some x ∧ x + 10000000 ≤ g.now) :
    (g.feedOma t f = none → g.laserLoop t f = g.loopRun t f) ∧ ∀ v, g.feedOma t f = some v → g.laserLoop t f =
      (let n := loopTo v (g.get (F.LNK_LASER_REQ_SETPOINT t f))
       if n = g.get (F.LNK_LASER_REQ_SETPOINT t f) then g.loopRun t f else (g.loopRun t f).loopMoved t f n) := by
  have hset : (g.loopRun t f).get (F.LNK_LASER_REQ_SETPOINT t f) = g.get (F.LNK_LASER_REQ_SETPOINT t f) :=
    g.get_loopRun_ne t f (by simp only [F.LNK_LASER_REQ_SETPOINT, F.LNK_TILE_FEED_POWER]; omega)
  have heq : g.laserLoop t f = (match (g.loopRun t f).feedOma t f with
      | none => g.loopRun t f
      | some v =>
        let s := (g.loopRun t f).get (F.LNK_LASER_REQ_SETPOINT t f)
        if loopTo v s = s then g.loopRun t f else (g.loopRun t f).loopMoved t f (loopTo v s)) := by
    unfold Gikan.laserLoop
    rcases hl with hl | ⟨x, hl, hx⟩
    · simp only [hl]
      rfl
    · simp only [hl, decide_eq_true hx]
      rfl
  rw [g.feedOma_loopRun t f hf, hset] at heq
  exact ⟨fun hv => by rw [heq, hv], fun v hv => by rw [heq, hv]⟩

/-- A setpoint moved, with the sign and the interrupt that tell of it. -/
theorem Gikan.loopMoved_moves (k : Gikan) (t f : Fin 4) {n : Nat} (hn : n < 256) :
    (k.loopMoved t f n).get (F.LNK_LASER_REQ_SETPOINT t f) = n ∧ (k.loopMoved t f n).on (F.LNK_LASER_REQ_CHANGED t f) = true ∧
    (k.loopMoved t f n).mem = k.mem ∧ (k.loopMoved t f n).lnk = k.lnk ∧
    (k.on F.MGT_I3C_IBI_ENABLED = true → k.flt.ibi.get? 2 ≠ some k.span → (k.loopMoved t f n).out = k.out ++ [.ibi 2]) := by
  have hkeys : (F.LNK_LASER_REQ_SETPOINT t f).key ≠ (F.LNK_LASER_REQ_CHANGED t f).key ∧ (F.LNK_LASER_REQ_SETPOINT t f).key ≠ F.MGT_I3C_IBIS.key ∧
      (F.LNK_LASER_REQ_CHANGED t f).key ≠ F.MGT_I3C_IBIS.key := by clear * -; revert t f; decide
  obtain ⟨h, hh⟩ : ∃ h, h = (k.set (F.LNK_LASER_REQ_SETPOINT t f) n).set (F.LNK_LASER_REQ_CHANGED t f) 1 := ⟨_, rfl⟩
  obtain ⟨hsc, hsi, hci⟩ := hkeys
  have hget : ∀ e : Fld, e.key ≠ (F.LNK_LASER_REQ_CHANGED t f).key → e.key ≠ (F.LNK_LASER_REQ_SETPOINT t f).key → h.get e = k.get e := fun e h1 h2 => by
    rw [hh, Gikan.get_set_ne _ _ _ _ h1, Gikan.get_set_ne _ _ _ _ h2]
  have hlow : ∀ e : Fld, e.key < 0x2820000 ∨ 0x8000000 ≤ e.key → h.get e = k.get e := fun e he =>
    hget e (by simp only [F.LNK_LASER_REQ_CHANGED]; omega) (by simp only [F.LNK_LASER_REQ_SETPOINT]; omega)
  have hmoved : k.loopMoved t f n = h.ibi 2 := by rw [hh]; rfl
  have hspan : h.span = k.span := by
    have hnow : h.now = k.now := by rw [hh]; rfl
    unfold Gikan.span Gikan.running Gikan.tickNo
    rw [Gikan.on, Gikan.on, hlow F.TICK_STATUS_RUNNING (by decide), hlow F.TICK_COUNT_TICK (by decide), hnow]
  have hen : h.on F.MGT_I3C_IBI_ENABLED = k.on F.MGT_I3C_IBI_ENABLED := by rw [Gikan.on, hlow _ (by decide)]; rfl
  have hflt : h.flt = k.flt := by rw [hh]; rfl
  obtain ⟨hinner, -⟩ := h.ibi_keeps 2
  have hlnk : (h.ibi 2).lnk = h.lnk ∧ (h.ibi 2).mem = h.mem := by
    unfold Gikan.ibi
    split
    · exact ⟨rfl, rfl⟩
    · split <;> exact ⟨rfl, rfl⟩
  rw [hmoved]
  refine ⟨?_, ?_, hlnk.2.trans (by rw [hh]; rfl), hlnk.1.trans (by rw [hh]; rfl), fun he hi => ?_⟩
  · rw [Gikan.get_ibi_ne _ _ _ hsi, hh, Gikan.get_set_ne _ _ _ _ hsc, Gikan.get_set_same]
    exact Nat.mod_eq_of_lt hn
  · rw [Gikan.on, Gikan.get_ibi_ne _ _ _ hci, hh, Gikan.get_set_same]
    rfl
  · have hout : h.out = k.out := by rw [hh]; rfl
    unfold Gikan.ibi
    rw [hen, he, hflt, hspan, if_neg (by decide), if_neg hi, ← hout]
    rfl

end

/-- A setpoint within its eight bits stays within them. -/
theorem loopTo_lt (v : Int) {n : Nat} (hn : n < 256) : loopTo v n < 256 := by
  unfold loopTo
  split
  · omega
  · split <;> omega

/-- A report of lanes that is due is sent (R298). -/
theorem Gikan.laneStatusSend_sends {g : Gikan} {p : Nat} (hu : g.lnkUp p = true)
    (hd : (g.link p).laneAt = none ∨ ∃ t, (g.link p).laneAt = some t ∧ t + 1000000 ≤ g.now) :
    ∃ m o, Out.flit p o ∈ (g.laneStatusSend p).out ∧ o.kind = 3 ∧ o.slots = fit (laneSlots m) 240 ∧
      ((g.laneStatusSend p).link p).laneAt = some g.now ∧ (g.laneStatusSend p).mem = g.mem ∧
      m.rxOma = (List.range 8).map (fun i => sext ((g.laneStatusSend p).get (F.LNK_LANE_OPT_RX_OMA p i)) 8) ∧ m.ffeReq.length = 8 ∧
      (g.eqFrozen p = true → ∀ r ∈ m.ffeReq, r = 0) := by
  have hside := g.laneLoops_beside p
  obtain ⟨h, hh⟩ : ∃ h, h = g.laneLoops p := ⟨_, rfl⟩
  rw [← hh] at hside
  have hfrozen := Gikan.eqFrozen_of_beside hside
  obtain ⟨-, hmem, hnow, -, -⟩ := hside
  obtain ⟨k, hk⟩ : ∃ k, k = ({ h with draw := h.draw + 1 } : Gikan).setLink p { h.link p with laneAt := some h.now } := ⟨_, rfl⟩
  obtain ⟨-, hsmem, o, hout, hkind, -, hslots⟩ := k.sendFlit_sends p (msgFlit 3 (laneSlots (h.laneReport p)))
  have hsent : g.laneStatusSend p = k.sendFlit p (msgFlit 3 (laneSlots (h.laneReport p))) := by
    rw [Gikan.laneStatusSend_due hu hd, hk, hh]
  have hget : ∀ e : Fld, k.get e = h.get e := fun e => by rw [hk]; rfl
  rw [hsent]
  refine ⟨h.laneReport p, o, by rw [hout]; exact List.mem_append_right _ (List.mem_singleton_self _), hkind, hslots, ?_, ?_, ?_, ?_, fun hf => ?_⟩
  · rw [Gikan.link_sendFlit, hk, Gikan.link_setLink_same, hnow]
  · rw [hsmem, ← hmem, hk]; rfl
  · refine List.map_congr_left fun i hi => ?_
    rw [List.mem_range] at hi
    rw [Gikan.get_sendFlit_ne _ _ _ (by simp only [F.LNK_LANE_OPT_RX_OMA, F.LNK_COUNT1_NAKS_SENT]; omega), hget]
  · simp only [Gikan.laneReport, List.length_map, List.length_range]
  · rw [Gikan.laneReport, hfrozen, hf]
    simp only [if_pos, List.mem_map]
    rintro r ⟨-, -, rfl⟩
    rfl

/-- Settles O46: a report that is due is sent with the lanes' values, a report received goes into each lane, and the laser's loop moves its setpoint. -/
theorem laneLoops : Obligations.LaneLoops := by
  unfold Obligations.LaneLoops
  refine fun s => ⟨fun p => ⟨fun h => congrArg s.done (Gikan.laneStatusSend_idle h), fun hu hd => ?_, fun m hu => ?_, fun m hu => ?_⟩,
    fun t f => ⟨fun x hl hx => congrArg s.done (s.g.laserLoop_idle t f hl hx), fun hd hset => ?_⟩⟩
  · obtain ⟨m, o, h⟩ := Gikan.laneStatusSend_sends hu hd
    exact ⟨s.withG (s.g.laneStatusSend p), m, o, rfl, h⟩
  · exact congrArg s.done (show s.g.laneStatusIn p m = s.g by unfold Gikan.laneStatusIn; rw [hu]; rfl)
  · exact ⟨s.withG (s.g.laneStatusIn p m), rfl, Gikan.laneStatusIn_effect m hu⟩
  · obtain ⟨hnone, hsome⟩ := s.g.laserLoop_due t f f.isLt hd
    have hsp : (s.g.loopRun t f).get (F.LNK_LASER_REQ_SETPOINT t f) = s.g.get (F.LNK_LASER_REQ_SETPOINT t f) :=
      s.g.get_loopRun_ne t f (by simp only [F.LNK_LASER_REQ_SETPOINT, F.LNK_TILE_FEED_POWER]; omega)
    have hat : ((s.g.loopRun t f).link (8 * t + 2 * f)).loopAt = some s.g.now :=
      congrArg PortLnk.loopAt (Gikan.link_setLink_same ({ s.g with draw := s.g.draw + 1 } : Gikan) (8 * t + 2 * f)
        { s.g.link (8 * t + 2 * f) with loopAt := some s.g.now })
    refine ⟨s.withG (s.g.laserLoop t f), rfl, ?_⟩
    show ((s.g.laserLoop t f).link (8 * t + 2 * f)).loopAt = some s.g.now ∧ (s.g.laserLoop t f).mem = s.g.mem ∧ _
    cases hv : s.g.feedOma t f with
    | none =>
      rw [hnone hv]
      exact ⟨hat, rfl, hsp, fun h => absurd hsp h, fun _ => rfl, fun h => absurd hsp h⟩
    | some v =>
      have hrun := hsome v hv
      obtain ⟨n, hn⟩ : ∃ n, n = loopTo v (s.g.get (F.LNK_LASER_REQ_SETPOINT t f)) := ⟨_, rfl⟩
      dsimp only at hrun
      rw [← hn] at hrun
      show _ ∧ _ ∧ _ = loopTo v (s.g.get (F.LNK_LASER_REQ_SETPOINT t f)) ∧ _
      rw [← hn]
      by_cases hsame : n = s.g.get (F.LNK_LASER_REQ_SETPOINT t f)
      · rw [if_pos hsame] at hrun
        rw [hrun]
        exact ⟨hat, rfl, hsp.trans hsame.symm, fun h => absurd hsp h, fun _ => rfl, fun h => absurd hsp h⟩
      · rw [if_neg hsame] at hrun
        have hmove := (s.g.loopRun t f).loopMoved_moves t f (n := n) (hn ▸ loopTo_lt v hset)
        obtain ⟨k, hk⟩ : ∃ k, k = (s.g.loopRun t f).loopMoved t f n := ⟨_, rfl⟩
        rw [hrun, ← hk]
        rw [← hk] at hmove
        obtain ⟨hto, hch, hmem, hlnk, hibi⟩ := hmove
        refine ⟨?_, hmem, hto, fun _ => hch, fun h => absurd (hto.symm.trans h) hsame, fun _ he hi => hibi ?_ (by rw [s.g.span_loopRun]; exact hi)⟩
        · exact (congrArg PortLnk.loopAt (by unfold Gikan.link; rw [hlnk])).trans hat
        · rw [Gikan.on, s.g.get_loopRun_ne t f (by clear * -; revert t f; decide)]; exact he

end Sys2Proof.Machine
end

section
namespace Sys2Proof.Machine

/-! ## Bring-up (R290 to R293, R297) -/

section
variable (g : Gikan) (p : Nat)

/-- A port that carried flits and retrains is in BACKOFF with its cause. -/
theorem Gikan.retrainOne_up {n : Nat} (hn : n < 16) (hu : g.lnkUp p = true) :
    (g.retrainOne p n).1.lnkState p = 7 ∧ (g.retrainOne p n).1.get (F.LNK_STATUS_DOWN_CAUSE p) = n := by
  have heq : (g.retrainOne p n).1 = ((((g.lnkDrop p).1.set (F.LNK_STATUS_DOWN_CAUSE p) n).lnkEnter p 7).setLink p
      { (((g.lnkDrop p).1.set (F.LNK_STATUS_DOWN_CAUSE p) n).lnkEnter p 7).link p with fails := 1 }) := by
    unfold Gikan.retrainOne
    rw [hu]
    rfl
  have hkey : (F.LNK_STATUS_DOWN_CAUSE p).key ≠ (F.LNK_STATUS_STATE p).key := by
    simp only [F.LNK_STATUS_DOWN_CAUSE, F.LNK_STATUS_STATE]; omega
  obtain ⟨k, hk⟩ : ∃ k : Gikan, k = (g.lnkDrop p).1.set (F.LNK_STATUS_DOWN_CAUSE p) n := ⟨_, rfl⟩
  rw [heq, Gikan.lnkState_setLink, Gikan.get_setLink, ← hk]
  refine ⟨k.lnkState_lnkEnter p (by decide), (Gikan.get_set_ne k (F.LNK_STATUS_STATE p) (F.LNK_STATUS_DOWN_CAUSE p) 7 hkey).trans ?_⟩
  rw [hk, Gikan.get_set_same]
  exact Nat.mod_eq_of_lt hn

theorem Gikan.linkLight_on (h : g.lnkState p = 1) (hf : (g.link p).feedLost = false) : g.linkLight p = g.lnkEnter p 2 :=
  if_pos (by rw [h, hf]; rfl)

theorem Gikan.linkLight_off (h : g.lnkState p ≠ 1 ∨ (g.link p).feedLost = true) : g.linkLight p = g := by
  refine if_neg ?_
  simp only [Bool.and_eq_true, beq_iff_eq, Bool.not_eq_true', not_and]
  rintro h1 h2
  rcases h with h | h
  · exact h h1
  · rw [h] at h2; cases h2

theorem Gikan.codewordLock_lock (h : g.lnkState p = 2) : g.codewordLock p = g.lnkEnter p 3 := if_pos (by rw [h]; rfl)

theorem Gikan.codewordLock_idle (h : g.lnkState p ≠ 2) : g.codewordLock p = g := if_neg (by simpa using h)

/-- Training keeps what is no field of its lanes. -/
theorem Gikan.trained_beside : g.besideLanes ((g.laneLoops p).trainFfe p) p := (g.laneLoops_beside p).trans (Gikan.trainFfe_beside _ p)

theorem widthMax_offLanes : (F.LNK_CTRL_WIDTH_MAX p).offLanes p := fun i => by
  simp only [laneFlds, List.forall_mem_cons, List.not_mem_nil, false_imp_iff, implies_true, and_true]
  refine ⟨?_, ?_, ?_, ?_, ?_, ?_, ?_, ?_, ?_⟩ <;>
  · simp only [F.LNK_CTRL_WIDTH_MAX, F.LNK_LANE_OPT_RX_OMA, F.LNK_LANE_EQ_CTLE, F.LNK_LANE_EQ_DFE1, F.LNK_LANE_EQ_DFE2, F.LNK_LANE_EQ_DFE3,
      F.LNK_LANE_OPT_MOD_BIAS, F.LNK_LANE_EQ_FFE_PRE, F.LNK_LANE_EQ_FFE_MAIN, F.LNK_LANE_EQ_FFE_POST]
    omega

theorem Gikan.trainDone_idle (own partner : Nat) (h : g.lnkState p ≠ 3) : g.trainDone p own partner = g := if_pos (by simpa using h)

theorem Gikan.trainDone_trains (own partner : Nat) (h : g.lnkState p = 3) :
    (widthOf (g.get (F.LNK_CTRL_WIDTH_MAX p)) own partner = none → g.trainDone p own partner = ((g.laneLoops p).trainFfe p).lnkFail p 3) ∧
    ∀ c, widthOf (g.get (F.LNK_CTRL_WIDTH_MAX p)) own partner = some c →
      g.trainDone p own partner = (((g.laneLoops p).trainFfe p).set (F.LNK_STATUS_WIDTH p) c).lnkEnter p 4 := by
  obtain ⟨-, -, -, -, hget⟩ := g.trained_beside p
  unfold Gikan.trainDone
  dsimp only
  rw [h, hget _ (widthMax_offLanes p)]
  exact ⟨fun hw => by rw [hw]; rfl, fun c hw => by rw [hw]; rfl⟩

/-- A width allowed is one whose lanes are good on both sides. -/
theorem widthOf_good {maxCode own partner c : Nat} (h : widthOf maxCode own partner = some c) {i : Nat} (hi : i < 8 / 2 ^ c) :
    own.testBit i = true ∧ partner.testBit i = true := by
  have hgood := List.find?_some h
  simp only [Bool.and_eq_true, List.all_eq_true, List.mem_range] at hgood
  exact hgood.2 i hi

theorem Gikan.linkStateTimeout_due (h1 : 1 ≤ g.lnkState p) (h4 : g.lnkState p ≤ 4) (hd : (g.link p).since + lnkLimit (g.lnkState p) ≤ g.now) :
    g.linkStateTimeout p = g.lnkFail p (g.lnkState p) :=
  if_pos (by rw [decide_eq_true ⟨h1, h4⟩, decide_eq_true hd]; rfl)

theorem Gikan.linkStateTimeout_idle
    (h : g.lnkState p = 0 ∨ 4 < g.lnkState p ∨ g.now < (g.link p).since + lnkLimit (g.lnkState p)) : g.linkStateTimeout p = g := by
  refine if_neg ?_
  simp only [Bool.and_eq_true, decide_eq_true_eq]
  omega

theorem Gikan.backoffEnd_due (h : g.lnkState p = 7) (hd : (g.link p).since + (g.link p).backoffNs ≤ g.now) : g.backoffEnd p = g.lnkSignal p :=
  if_pos (by rw [h, decide_eq_true hd]; rfl)

theorem Gikan.backoffEnd_idle (h : g.lnkState p ≠ 7 ∨ g.now < (g.link p).since + (g.link p).backoffNs) : g.backoffEnd p = g := by
  refine if_neg ?_
  simp only [Bool.and_eq_true, beq_iff_eq, decide_eq_true_eq]
  omega

/-! PARAM (R292, R293) -/

theorem Gikan.paramSend_due (h : g.lnkState p = 4)
    (hd : (g.link p).paramAt = none ∨ ∃ t, (g.link p).paramAt = some t ∧ t + 100000 ≤ g.now) :
    g.paramSend p = ((g.setLink p { g.link p with paramAt := some g.now, sentSeen := (g.link p).sentSeen || (g.ownParam p).seen == 1 }).sendFlit p
      (msgFlit 3 (paramSlots (g.ownParam p)))).paramSettle p := by
  unfold Gikan.paramSend
  rcases hd with hd | ⟨t, hd, ht⟩
  · simp only [hd, h]; rfl
  · simp only [hd, h, decide_eq_true ht]; rfl

theorem Gikan.paramSend_idle (h : g.lnkState p ≠ 4 ∨ ∃ t, (g.link p).paramAt = some t ∧ g.now < t + 100000) : g.paramSend p = g := by
  unfold Gikan.paramSend
  rcases h with h | ⟨t, hd, ht⟩
  · simp only [beq_eq_false_iff_ne.mpr h]; rfl
  · simp only [hd, decide_eq_false (Nat.not_le.mpr ht), Bool.and_false]; rfl

/-- The partner's message as it is recorded. -/
def Gikan.partnerPut (g : Gikan) (p : Nat) (m : ParamMsg) : Gikan :=
  (List.range 6).foldl (fun h i => h.set (F.LNK_PARTNER_DIGEST_WORD p i) (m.digest / 2 ^ (64 * i)))
    (((((g.set (F.LNK_STATUS_PARTNER_ROLE p) m.role).set (F.LNK_STATUS_PARTNER_REACH p) m.reach).set (F.LNK_STATUS_PARTNER_NODE p) m.node).set
      (F.LNK_STATUS_PARTNER_AFP p) m.afpVersion).set (F.LNK_PARTNER_FW_VERSION p) m.fwVersion)

theorem Gikan.paramIn_eq (m : ParamMsg) (h : g.lnkState p = 4) : g.paramIn p m =
    ((g.partnerPut p m).setLink p { (g.partnerPut p m).link p with
      got := some m, seenIn := ((g.partnerPut p m).link p).seenIn || m.seen == 1 }).paramSettle p :=
  if_neg (by rw [h]; decide)

theorem Gikan.partnerPut_lnk (m : ParamMsg) : (g.partnerPut p m).lnk = g.lnk := by
  have hfold : ∀ (l : List Nat) (h : Gikan),
      (l.foldl (fun h i => h.set (F.LNK_PARTNER_DIGEST_WORD p i) (m.digest / 2 ^ (64 * i))) h).lnk = h.lnk := fun l => by
    induction l with
    | nil => exact fun _ => rfl
    | cons i l ih => exact fun h => ih _
  exact hfold _ _

/-- A field that the digest is not kept in. -/
theorem Gikan.get_partnerDigest_ne (m : ParamMsg) {e : Fld} (he : ∀ i, i < 6 → e.key ≠ (F.LNK_PARTNER_DIGEST_WORD p i).key) (h : Gikan) :
    ((List.range 6).foldl (fun h i => h.set (F.LNK_PARTNER_DIGEST_WORD p i) (m.digest / 2 ^ (64 * i))) h).get e = h.get e := by
  have hfold : ∀ (l : List Nat) (k : Gikan), (∀ i ∈ l, i < 6) →
      (l.foldl (fun (h : Gikan) i => h.set (F.LNK_PARTNER_DIGEST_WORD p i) (m.digest / 2 ^ (64 * i))) k).get e = k.get e := by
    intro l
    induction l with
    | nil => exact fun _ _ => rfl
    | cons i l ih =>
      exact fun k hl => (ih _ fun j hj => hl j (List.mem_cons_of_mem _ hj)).trans (Gikan.get_set_ne _ _ _ _ (he i (hl i (List.mem_cons_self ..))))
  exact hfold _ h fun i hi => List.mem_range.mp hi

theorem Gikan.get_partnerPut (m : ParamMsg) :
    (g.partnerPut p m).get (F.LNK_STATUS_PARTNER_ROLE p) = m.role % 2 ^ (F.LNK_STATUS_PARTNER_ROLE p).wid ∧
    (g.partnerPut p m).get (F.LNK_STATUS_PARTNER_NODE p) = m.node % 2 ^ (F.LNK_STATUS_PARTNER_NODE p).wid ∧
    (g.partnerPut p m).get (F.LNK_PARTNER_FW_VERSION p) = m.fwVersion % 2 ^ (F.LNK_PARTNER_FW_VERSION p).wid := by
  have hne : ∀ {a b : Fld} (h : Gikan) v, a.key ≠ b.key → (h.set b v).get a = h.get a := fun h v hk => Gikan.get_set_ne h _ _ v hk
  refine ⟨?_, ?_, ?_⟩
  · rw [Gikan.partnerPut, Gikan.get_partnerDigest_ne p m
      (fun i hi => by simp only [F.LNK_STATUS_PARTNER_ROLE, F.LNK_PARTNER_DIGEST_WORD]; omega),
      hne _ _ (by simp only [F.LNK_STATUS_PARTNER_ROLE, F.LNK_PARTNER_FW_VERSION]; omega),
      hne _ _ (by simp only [F.LNK_STATUS_PARTNER_ROLE, F.LNK_STATUS_PARTNER_AFP]; omega),
      hne _ _ (by simp only [F.LNK_STATUS_PARTNER_ROLE, F.LNK_STATUS_PARTNER_NODE]; omega),
      hne _ _ (by simp only [F.LNK_STATUS_PARTNER_ROLE, F.LNK_STATUS_PARTNER_REACH]; omega), Gikan.get_set_same]
  · rw [Gikan.partnerPut, Gikan.get_partnerDigest_ne p m
      (fun i hi => by simp only [F.LNK_STATUS_PARTNER_NODE, F.LNK_PARTNER_DIGEST_WORD]; omega),
      hne _ _ (by simp only [F.LNK_STATUS_PARTNER_NODE, F.LNK_PARTNER_FW_VERSION]; omega),
      hne _ _ (by simp only [F.LNK_STATUS_PARTNER_NODE, F.LNK_STATUS_PARTNER_AFP]; omega), Gikan.get_set_same]
  · rw [Gikan.partnerPut, Gikan.get_partnerDigest_ne p m
      (fun i hi => by simp only [F.LNK_PARTNER_FW_VERSION, F.LNK_PARTNER_DIGEST_WORD]; omega), Gikan.get_set_same]

/-- What PARAM can come to, and what ACTIVE needs (R293). -/
theorem Gikan.paramOutcome_cases {m : ParamMsg} {st down q : Nat} (h : g.paramOutcome p m = (st, down, q)) :
    (st = 5 ∨ st = 6 ∨ st = 7 ∨ st = 8) ∧
    (st = 5 → m.afpVersion / 256 = 2 ∧ m.reservedNonzero = false ∧
      m.credits.getD 0 0 ≠ 0 ∧ g.on (F.LNK_CTRL_QUARANTINE p) = false ∧ m.reach = g.get F.MAP_CTRL_REACH ∧
      g.get F.GLB_COMPAT_FW_MIN ≤ m.fwVersion ∧ m.fwVersion ≤ g.get F.GLB_COMPAT_FW_MAX ∧ m.fwMin ≤ g.get F.GLB_FW_FW_VERSION ∧
      g.get F.GLB_FW_FW_VERSION ≤ m.fwMax ∧ (m.role = 0 → m.digest = g.cfgDigest)) := by
  have hend : ∀ {a b c : Nat}, (a = 6 ∨ a = 7 ∨ a = 8) → (a, b, c) = (st, down, q) →
      (st = 5 ∨ st = 6 ∨ st = 7 ∨ st = 8) ∧ st ≠ 5 := fun {a b c} ha he => by
    cases he
    omega
  have hbad : ∀ {a b c : Nat} {P : Prop}, (a = 6 ∨ a = 7 ∨ a = 8) → (a, b, c) = (st, down, q) →
      (st = 5 ∨ st = 6 ∨ st = 7 ∨ st = 8) ∧ (st = 5 → P) := fun ha he => ⟨(hend ha he).1, fun h5 => absurd h5 (hend ha he).2⟩
  unfold Gikan.paramOutcome at h
  dsimp only at h
  split at h
  · exact hbad (.inr (.inr rfl)) h
  next hafp =>
  split at h
  · exact hbad (.inr (.inl rfl)) h
  next hres =>
  split at h
  · exact hbad (.inr (.inl rfl)) h
  next hcred =>
  split at h
  · exact hbad (.inl rfl) h
  next hq =>
  split at h
  · exact hbad (.inl rfl) h
  next hfw =>
  split at h
  · exact hbad (.inl rfl) h
  next hreach =>
  split at h
  · exact hbad (.inl rfl) h
  next hdig =>
  simp only [Bool.not_eq_true', Bool.not_eq_false, Bool.and_eq_true, decide_eq_true_eq] at hfw
  obtain ⟨⟨hfw1, hfw2⟩, hfw3, hfw4⟩ := hfw
  cases h
  exact ⟨.inl rfl, fun _ => ⟨not_not.mp hafp, Bool.not_eq_true _ ▸ hres, fun h0 => hcred (.inl h0), Bool.not_eq_true _ ▸ hq, not_not.mp hreach,
    hfw1, hfw2, hfw3, hfw4, fun hr => not_not.mp fun hd => hdig (.inl ⟨hr, hd⟩)⟩⟩

theorem Gikan.paramSettle_waits {m : ParamMsg} (hm : (g.link p).got = some m) (h : (g.link p).seenIn = false ∨ (g.link p).sentSeen = false) :
    g.paramSettle p = g := by
  unfold Gikan.paramSettle
  simp only [hm]
  refine if_pos ?_
  rcases h with h | h <;> rw [h]
  · rfl
  · rw [Bool.and_false]; rfl

theorem Gikan.paramSettle_settles {m : ParamMsg} {st down q : Nat} (hm : (g.link p).got = some m) (h1 : (g.link p).seenIn = true)
    (h2 : (g.link p).sentSeen = true) (ho : g.paramOutcome p m = (st, down, q)) :
    (st = 5 → g.paramSettle p = (g.set (F.LNK_STATUS_QCAUSE p) q).lnkOpen p 5 m) ∧
    (st = 7 → g.paramSettle p = (g.set (F.LNK_STATUS_QCAUSE p) q).lnkFail p down) := by
  unfold Gikan.paramSettle
  simp only [hm, h1, h2, ho]
  exact ⟨fun h => by rw [h]; rfl, fun h => by rw [h]; rfl⟩

theorem Gikan.laneLoss_loses (lane : Nat) (hu : g.lnkUp p = true) (hl : lane < g.rxLanes p) :
    g.laneLoss p lane = (g.inc (F.LNK_LANE_FEC_LOCK_LOSSES p lane) 1).retrain p 1 :=
  if_neg (by rw [hu, decide_eq_false (Nat.not_le.mpr hl)]; decide)

theorem Gikan.laneLoss_idle (lane : Nat) (h : g.lnkUp p = false ∨ g.rxLanes p ≤ lane) : g.laneLoss p lane = g := by
  refine if_pos ?_
  rcases h with h | h
  · rw [h]; rfl
  · rw [decide_eq_true h, Bool.or_true]

end

/-! LNK_CTRL (R290, R297) -/

section
variable (g : Gikan) (w : RegW) (p : Fin 32)

/-- LNK_CTRL with its fields written. -/
def Gikan.lnkCtrlPut (g : Gikan) (w : RegW) (p : Nat) : Gikan := g.putFields w (offOf (F.LNK_CTRL_ENABLE p)) (lnkCtrlFields p)

theorem offOf_lnkCtrl (p : Nat) : offOf (F.LNK_CTRL_ENABLE p) = offOf (F.LNK_CTRL_CLR_CNT p) ∧ offOf (F.LNK_CTRL_RETRAIN p) = offOf (F.LNK_CTRL_CLR_CNT p) := by
  simp only [offOf, F.LNK_CTRL_ENABLE, F.LNK_CTRL_CLR_CNT, F.LNK_CTRL_RETRAIN]
  omega

/-- A write of LNK_CTRL that clears no counters. -/
theorem Gikan.writeReg_lnkCtrl_put (hc : wrOne w (F.LNK_CTRL_CLR_CNT p) = false) :
    g.writeReg (offOf (F.LNK_CTRL_CLR_CNT p)) w = (g.lnkCtrlPut w p).lnkCtrlEnd w p := by
  rw [g.writeReg_lnkCtrl w p, Gikan.wrLnkCtrl_eq, hc]
  rfl

theorem Gikan.lnkCtrlPut_keeps : (g.lnkCtrlPut w p).sealed = g.sealed ∧ (g.lnkCtrlPut w p).lnkState p = g.lnkState p := by
  obtain ⟨-, hseal, hst, -⟩ := lnkCtrlFields_places p
  refine ⟨?_, Gikan.get_putFields_ne g w _ _ _ (lnk_offSeal p).2 hst⟩
  rw [Gikan.sealed, Gikan.on, Gikan.lnkCtrlPut, Gikan.get_putFields_ne g w _ _ _ ⟨by decide, by decide⟩ hseal]
  rfl

theorem Gikan.lnkCtrlPut_enable (h : wrOne w (F.LNK_CTRL_ENABLE p) = true) : (g.lnkCtrlPut w p).on (F.LNK_CTRL_ENABLE p) = true := by
  obtain ⟨hn, hs, -⟩ := lnkCtrlFields_places p
  have hput : (g.putField w (F.LNK_CTRL_ENABLE p)).get (F.LNK_CTRL_ENABLE p) = 1 :=
    (Gikan.get_set_same g (F.LNK_CTRL_ENABLE p) _).trans (g.wrValue_one rfl h)
  rw [Gikan.on, Gikan.lnkCtrlPut, Gikan.get_putFields_mem g w _ (lnkCtrlFields p) _ (List.mem_cons_self ..) hn hs (lnk_offSeal p).1, hput]
  rfl

/-- A bit that is written is covered. -/
theorem wrCovers_of_wrOne {w : RegW} {f : Fld} (h : wrOne w f = true) : wrCovers w f = true := by
  unfold wrOne at h
  unfold wrCovers
  dsimp only at h
  rw [bne_iff_ne] at h ⊢
  exact fun h0 => h (by rw [h0, Nat.and_zero])

section
variable {k : Gikan} {w : RegW} {p : Nat} (hs : k.sealed = true)
include hs

theorem Gikan.lnkCtrlEnd_retrain (he : k.on (F.LNK_CTRL_ENABLE p) = true) (hr : wrOne w (F.LNK_CTRL_RETRAIN p) = true) :
    k.lnkCtrlEnd w p = (k.lnkLeave p).lnkSignal p := by
  unfold Gikan.lnkCtrlEnd; rw [hs, he, hr]; rfl

theorem Gikan.lnkCtrlEnd_disabled (he : k.on (F.LNK_CTRL_ENABLE p) = false) :
    k.lnkCtrlEnd w p = if k.lnkState p = 0 then k else ((k.lnkLeave p).set (F.LNK_STATUS_DOWN_CAUSE p) 8).lnkEnter p 0 := by
  unfold Gikan.lnkCtrlEnd; rw [hs, he]; simp only [beq_iff_eq]; rfl

theorem Gikan.lnkCtrlEnd_starts (he : k.on (F.LNK_CTRL_ENABLE p) = true) (hr : wrOne w (F.LNK_CTRL_RETRAIN p) = false)
    (hw : wrOne w (F.LNK_CTRL_ENABLE p) = true) (hst : k.lnkState p = 0 ∨ k.lnkState p = 8) : k.lnkCtrlEnd w p = k.lnkSignal p := by
  unfold Gikan.lnkCtrlEnd
  rw [hs, he, hr, wrCovers_of_wrOne hw]
  rcases hst with hst | hst <;> rw [hst] <;> rfl

end

/-- A write of LNK_CTRL that reaches it, and clears no counters. -/
theorem exec_lnkCtrl {c : Instr} {s : State} {p : Fin 32} {off : Nat} {w v : RegW} {k : Gikan}
    (hc : exec c s = s.done (s.g.regWrite off v)) (hb : v.bus = w.bus) (ho : off = offOf (F.LNK_CTRL_CLR_CNT p))
    (hr : s.g.reaches8 w (offOf (F.LNK_CTRL_ENABLE p))) (hcnt : wrOne v (F.LNK_CTRL_CLR_CNT p) = false)
    (hk : (s.g.lnkCtrlPut v p).lnkCtrlEnd v p = k) : exec c s = .next (s.withG k) := by
  rw [(offOf_lnkCtrl p).1] at hr
  subst ho
  exact exec_reaches hc ((s.g.writeReg_lnkCtrl_put v p hcnt).trans hk) (by rw [Gikan.reaches8, hb]; exact hr)

end

/-- Settles O45: the equations of each event of bring-up, by the port's state. -/
theorem bringUp : Obligations.BringUp := by
  unfold Obligations.BringUp
  intro s p
  refine ⟨fun g n hn => ?_, fun h hf => congrArg s.done (s.g.linkLight_on p h hf), fun h => congrArg s.done (s.g.linkLight_off p h),
    fun h => congrArg s.done (s.g.codewordLock_lock p h), fun h => congrArg s.done (s.g.codewordLock_idle p h), fun own partner => ?_,
    ⟨fun h1 h4 hd => congrArg s.done (s.g.linkStateTimeout_due p h1 h4 hd), fun h => congrArg s.done (s.g.linkStateTimeout_idle p h)⟩,
    ⟨fun h hd => congrArg s.done (s.g.backoffEnd_due p h hd), fun h => congrArg s.done (s.g.backoffEnd_idle p h)⟩,
    ⟨fun h hd => congrArg s.done (s.g.paramSend_due p h hd), fun h => congrArg s.done (s.g.paramSend_idle p h)⟩, fun m => ⟨fun h => ?_, fun h => ?_⟩,
    fun g m st down q hm => ⟨fun h => g.paramSettle_waits p hm h, fun h1 h2 ho => ?_⟩, fun w hr hseal => ?_,
    fun lane => ⟨fun hu hl => congrArg s.done (s.g.laneLoss_loses p lane hu hl), fun h => congrArg s.done (s.g.laneLoss_idle p lane h)⟩⟩
  · obtain ⟨hfail, hcause, -⟩ := g.lnkFail_fails p hn
    refine ⟨g.lnkState_lnkEnter p hn, by rw [Gikan.link_lnkEnter], hfail, hcause, fun hu => g.retrainOne_up p hn hu, fun ht => ?_⟩
    obtain ⟨hst, hl⟩ := g.lnkSignal_starts p ht
    exact ⟨hst, by rw [hl]⟩
  · refine ⟨fun h => congrArg s.done (s.g.trainDone_idle p _ _ h), fun h => ?_⟩
    obtain ⟨hnone, hsome⟩ := s.g.trainDone_trains p own.toNat partner.toNat h
    exact ⟨fun hw => congrArg s.done (hnone hw), fun c hw => ⟨congrArg s.done (hsome c hw), fun i hi => widthOf_good hw hi⟩⟩
  · exact congrArg s.done (show s.g.paramIn p m = s.g from if_pos (by simpa using h))
  · obtain ⟨hrole, hnode, hfw⟩ := s.g.get_partnerPut p m
    refine ⟨_, congrArg s.done (s.g.paramIn_eq p m h), hrole, hnode, hfw, ?_⟩
    have hlink : (s.g.partnerPut p m).link p = s.g.link p := by rw [Gikan.link, s.g.partnerPut_lnk p m]; rfl
    rw [Gikan.link_setLink_same, hlink]
    exact ⟨rfl, rfl⟩
  · obtain ⟨h5, h7⟩ := g.paramSettle_settles p hm h1 h2 ho
    obtain ⟨hcases, hactive⟩ := g.paramOutcome_cases p ho
    exact ⟨hcases, fun h => ⟨h5 h, hactive h⟩, h7⟩
  · have hput : ∀ v, (s.g.lnkCtrlPut v p).sealed = true := fun v => (s.g.lnkCtrlPut_keeps v p).1.trans hseal
    have hstate : (s.g.lnkCtrlPut w p).lnkState p = s.g.lnkState p := (s.g.lnkCtrlPut_keeps w p).2
    refine ⟨fun hc he => ?_, fun hc => ⟨fun he h0 => ?_, fun he h0 => ?_, fun hw hret => ⟨fun hst => ?_, fun h0 h8 => ?_⟩⟩⟩
    · exact exec_lnkCtrl rfl rfl (offOf_lnkCtrl p).2 hr hc (Gikan.lnkCtrlEnd_retrain (hput _) he (wrOne_trig w _ rfl))
    · exact exec_lnkCtrl rfl rfl (offOf_lnkCtrl p).1 hr hc ((Gikan.lnkCtrlEnd_disabled (hput w) he).trans (if_pos (hstate.trans h0)))
    · exact exec_lnkCtrl rfl rfl (offOf_lnkCtrl p).1 hr hc ((Gikan.lnkCtrlEnd_disabled (hput w) he).trans (if_neg (hstate ▸ h0)))
    · exact exec_lnkCtrl rfl rfl (offOf_lnkCtrl p).1 hr hc
        (Gikan.lnkCtrlEnd_starts (hput w) (s.g.lnkCtrlPut_enable w p hw) hret hw (hstate ▸ hst))
    · exact exec_lnkCtrl rfl rfl (offOf_lnkCtrl p).1 hr hc
        (Gikan.lnkCtrlEnd_self _ w p (s.g.lnkCtrlPut_enable w p hw) (hstate ▸ h0) (hstate ▸ h8) hret)

end Sys2Proof.Machine
end

section
namespace Sys2Proof.Machine

/-! ## The switch core (R308, R313 to R318) -/

/-! Cells -/

section
variable (g : Gikan)

/-- What the first cell of a packet costs its shaper and its class. -/
def Gikan.cellCharge (g : Gikan) (o c : Nat) (v : VPkt) : Gikan :=
  if v.sent = 0 then
    let h := if g.on (F.XBAR_SHAPER_EN o c) then g.setTokens o c (g.tokensOf o c - (padded v.pkt * 65536 : Nat)) else g
    if 8 ≤ h.tierOf c then
      { h with xbar := { h.xbar with deficit := h.xbar.deficit.setD (shKey o c) 0 (h.xbar.deficit.getD (shKey o c) 0 - padded v.pkt) } }
    else h
  else g

/-- The charge leaves the queues as they were. -/
theorem Gikan.cellCharge_keeps (o c : Nat) (v : VPkt) : (g.cellCharge o c v).xbar.voq = g.xbar.voq ∧ (g.cellCharge o c v).xbar.tx = g.xbar.tx ∧
    (g.cellCharge o c v).xbar.inbox = g.xbar.inbox := by
  obtain ⟨h, hh⟩ : ∃ h : Gikan, h = if g.on (F.XBAR_SHAPER_EN o c) then g.setTokens o c (g.tokensOf o c - (padded v.pkt * 65536 : Nat)) else g := ⟨_, rfl⟩
  have hkeep : h.xbar.voq = g.xbar.voq ∧ h.xbar.tx = g.xbar.tx ∧ h.xbar.inbox = g.xbar.inbox := by
    rw [hh]
    split <;> exact ⟨rfl, rfl, rfl⟩
  unfold Gikan.cellCharge
  dsimp only
  rw [← hh]
  split
  · split <;> exact hkeep
  · exact ⟨rfl, rfl, rfl⟩

/-- A queue without its head packet. -/
def Gikan.voqRest (g : Gikan) (k : Nat) (rest : List VPkt) : Gikan :=
  { g with xbar := { g.xbar with voq := if rest = [] then g.xbar.voq.del k else g.xbar.voq.put k rest } }

theorem Gikan.voqRest_voq (k : Nat) (rest : List VPkt) : (g.voqRest k rest).xbar.voq.getD k [] = rest := by
  unfold Gikan.voqRest
  dsimp only
  split
  next hr => rw [hr, Tbl.getD, Tbl.get?_del_same]; rfl
  next => exact Tbl.getD_put_same ..

theorem Gikan.xbar_freeInput (i : Nat) (p : Packet) : (g.freeInput i p).xbar = g.xbar := by
  unfold Gikan.freeInput
  dsimp only
  split
  · split <;> rfl
  · rfl

theorem Gikan.moveCell_some {i o c : Nat} {v : VPkt} {rest : List VPkt} (hq : g.xbar.voq.getD (voqKey i o c) [] = v :: rest) :
    g.moveCell (i, o, c) =
      (let h := g.cellCharge o c v
       if v.sent + 1 < v.cells then { h with xbar := { h.xbar with voq := h.xbar.voq.put (voqKey i o c) ({ v with sent := v.sent + 1 } :: rest) } }
       else ((h.voqRest (voqKey i o c) rest).freeInput i v.pkt).deliver o v.pkt) := by
  unfold Gikan.moveCell
  simp only [hq]
  rfl

/-- A cell that is not its packet's last. -/
theorem Gikan.moveCell_more {i o c : Nat} {v : VPkt} {rest : List VPkt} (hq : g.xbar.voq.getD (voqKey i o c) [] = v :: rest)
    (h : v.sent + 1 < v.cells) : (g.moveCell (i, o, c)).xbar.voq.getD (voqKey i o c) [] = { v with sent := v.sent + 1 } :: rest := by
  rw [g.moveCell_some hq]
  dsimp only
  rw [if_pos h]
  exact Tbl.getD_put_same ..

/-- The last cell of a packet takes it to its output. -/
theorem Gikan.moveCell_last {i o c : Nat} {v : VPkt} {rest : List VPkt} (hq : g.xbar.voq.getD (voqKey i o c) [] = v :: rest)
    (h : v.cells ≤ v.sent + 1) : (g.moveCell (i, o, c)).xbar.voq.getD (voqKey i o c) [] = rest ∧
      (o < 32 → (g.moveCell (i, o, c)).xbar.tx.getD o [] = g.xbar.tx.getD o [] ++ [v.pkt]) ∧
      (32 ≤ o → (g.moveCell (i, o, c)).xbar.inbox.getD o [] = g.xbar.inbox.getD o [] ++ [v.pkt]) := by
  obtain ⟨-, htx, hinbox⟩ := g.cellCharge_keeps o c v
  obtain ⟨k, hk⟩ : ∃ k, k = (g.cellCharge o c v).voqRest (voqKey i o c) rest := ⟨_, rfl⟩
  have hmove : g.moveCell (i, o, c) = (k.freeInput i v.pkt).deliver o v.pkt := by
    rw [g.moveCell_some hq, hk]
    exact if_neg (Nat.not_lt.mpr h)
  have hvoq : k.xbar.voq.getD (voqKey i o c) [] = rest := by rw [hk, Gikan.voqRest_voq]
  have hktx : k.xbar.tx = g.xbar.tx := by rw [hk]; exact htx
  have hkinbox : k.xbar.inbox = g.xbar.inbox := by rw [hk]; exact hinbox
  rw [hmove]
  unfold Gikan.deliver
  rw [Gikan.xbar_freeInput, hktx, hkinbox]
  refine ⟨?_, fun ho => ?_, fun ho => ?_⟩
  · split <;> exact hvoq
  · rw [if_pos ho]; exact Tbl.getD_put_same ..
  · rw [if_neg (Nat.not_lt.mpr ho)]; exact Tbl.getD_put_same ..

end

/-! Shapers (R314) -/

section
variable (g : Gikan) (w : RegW)

theorem Gikan.writeReg_shaper (o : Fin 48) (c : Fin 8) : g.writeReg (offOf (F.XBAR_SHAPER_EN o c)) w = g.wrShaper w o c := by
  obtain ⟨off, hoff⟩ : ∃ off, off = offOf (F.XBAR_SHAPER_EN o c) := ⟨_, rfl⟩
  have hplace : off = 0x401000 + 8 * (8 * o + c) := by
    simp only [hoff, offOf, F.XBAR_SHAPER_EN]; omega
  have hblock : blockOf off = 4 := by unfold blockOf; omega
  have hlink : g.writeReg off w = g.writeLink off w := by
    unfold Gikan.writeReg
    rw [if_neg (Nat.not_le.mpr (show off < 0x2000000 by omega)), hblock]
    rfl
  rw [← hoff, hlink]
  unfold Gikan.writeLink
  split
  · omega
  · omega
  · omega
  · omega
  · rw [if_pos (by omega)]
    dsimp only
    rw [show (off - 0x401000) / 8 / 8 = o by omega, show (off - 0x401000) / 8 % 8 = c by omega]

/-- A shaper's fields as a write leaves them. -/
def Gikan.shaperPut (g : Gikan) (w : RegW) (o c : Nat) : Gikan :=
  g.putFields w (offOf (F.XBAR_SHAPER_EN o c))
    [F.XBAR_SHAPER_RATE_MBPS o c, F.XBAR_SHAPER_EN o c, F.XBAR_SHAPER_RESET_ZERO o c, F.XBAR_SHAPER_BURST o c]

theorem Gikan.wrShaper_resets (o c : Nat) :
    (g.wrShaper w o c).tokensOf o c = (if (g.shaperPut w o c).on (F.XBAR_SHAPER_RESET_ZERO o c) then 0 else (g.shaperPut w o c).shCap o c) ∧
    (∀ o' c', shKey o' c' ≠ shKey o c → (g.wrShaper w o c).tokensOf o' c' = g.tokensOf o' c') ∧ (g.wrShaper w o c).mem = g.mem := by
  have hbody : (g.shaperPut w o c).body = g.body := Gikan.body_putFields ..
  have hxbar : (g.shaperPut w o c).xbar = g.xbar := (congrArg Gikan.xbar hbody :)
  refine ⟨Tbl.getD_setD_same .., fun o' c' hne => ?_, (Gikan.mem_of_body hbody :)⟩
  have hput : (g.wrShaper w o c).tokensOf o' c' = (g.shaperPut w o c).tokensOf o' c' := Tbl.getD_setD_ne _ _ _ _ hne
  rw [hput, Gikan.tokensOf, hxbar]
  rfl

/-! Gate lists (R315, R316) -/

/-- The fields of a gate entry. -/
def gateEntryFields : List Fld :=
  [F.XBAR_GATE_ENTRY_PORT, F.XBAR_GATE_ENTRY_LIST, F.XBAR_GATE_ENTRY_INDEX, F.XBAR_GATE_ENTRY_DUR_NS, F.XBAR_GATE_ENTRY_MASK]

/-- A write of a field stays within its width. -/
theorem Gikan.wrValue_lt (f : Fld) (h : g.get f < 2 ^ f.wid) : g.wrValue w f < 2 ^ f.wid :=
  Nat.or_lt_two_pow (Nat.lt_of_le_of_lt Nat.and_le_left (bits_lt ..)) (Nat.lt_of_le_of_lt (Nat.sub_le ..) h)

theorem Gikan.wrGateEntry_effect (hgo : wrOne w F.XBAR_GATE_ENTRY_GO = true) (hp : g.wrValue w F.XBAR_GATE_ENTRY_PORT < 32) :
    let p := g.wrValue w F.XBAR_GATE_ENTRY_PORT
    let l := g.wrValue w F.XBAR_GATE_ENTRY_LIST
    let k := gateKey p l (g.wrValue w F.XBAR_GATE_ENTRY_INDEX)
    (g.get (F.XBAR_GATE_CTRL_ACTIVE p) = l → (g.wrGateEntry w).xbar = g.xbar ∧ (g.wrGateEntry w).get F.XBAR_EVENTS_GATE_WRITE_REFUSED =
      satAdd F.XBAR_EVENTS_GATE_WRITE_REFUSED.wid (g.get F.XBAR_EVENTS_GATE_WRITE_REFUSED) 1) ∧
    (g.get (F.XBAR_GATE_CTRL_ACTIVE p) ≠ l → (g.wrGateEntry w).xbar.gates.get? k =
        some (g.wrValue w F.XBAR_GATE_ENTRY_DUR_NS, g.wrValue w F.XBAR_GATE_ENTRY_MASK) ∧
      ∀ j, j ≠ k → (g.wrGateEntry w).xbar.gates.get? j = g.xbar.gates.get? j) := by
  intro p l k
  obtain ⟨h, hh⟩ : ∃ h, h = g.putFields w (offOf F.XBAR_GATE_ENTRY_GO) gateEntryFields := ⟨_, rfl⟩
  have hbody : h.body = g.body := by rw [hh]; exact Gikan.body_putFields ..
  have hxbar : h.xbar = g.xbar := (congrArg Gikan.xbar hbody :)
  have hactive : h.get (F.XBAR_GATE_CTRL_ACTIVE p) = g.get (F.XBAR_GATE_CTRL_ACTIVE p) := by
    rw [hh]
    refine Gikan.get_putFields_ne g w _ _ _ ?_ ?_
    · simp only [Fld.offSeal, F.XBAR_GATE_CTRL_ACTIVE, F.MGT_SEAL_RWS_WRITES, F.MGT_SEAL_LAST_OFFSET]
      omega
    · simp only [gateEntryFields, List.forall_mem_cons, F.XBAR_GATE_CTRL_ACTIVE, F.XBAR_GATE_ENTRY_PORT, F.XBAR_GATE_ENTRY_LIST,
        F.XBAR_GATE_ENTRY_INDEX, F.XBAR_GATE_ENTRY_DUR_NS, F.XBAR_GATE_ENTRY_MASK]
      exact ⟨by omega, by omega, by omega, by omega, by omega, nofun⟩
  have hrefused : h.get F.XBAR_EVENTS_GATE_WRITE_REFUSED = g.get F.XBAR_EVENTS_GATE_WRITE_REFUSED := by
    rw [hh]
    exact Gikan.get_putFields_ne g w _ _ _ ⟨by decide, by decide⟩ (by decide)
  have heq : g.wrGateEntry w = if h.get (F.XBAR_GATE_CTRL_ACTIVE p) = l then h.inc F.XBAR_EVENTS_GATE_WRITE_REFUSED 1
      else { h with xbar := { h.xbar with gates := h.xbar.gates.put k (g.wrValue w F.XBAR_GATE_ENTRY_DUR_NS, g.wrValue w F.XBAR_GATE_ENTRY_MASK) } } := by
    unfold Gikan.wrGateEntry
    rw [hgo, hh]
    rfl
  rw [heq, hactive]
  refine ⟨fun ha => ?_, fun ha => ?_⟩
  · rw [if_pos ha, Gikan.get_inc_same, hrefused]
    exact ⟨hxbar, rfl⟩
  · rw [if_neg ha, hxbar]
    exact ⟨Tbl.get?_put_same .., fun j hj => Tbl.get?_put_ne _ _ hj⟩

theorem Gikan.writeReg_gateSwapAt (p : Fin 32) : g.writeReg (offOf (F.XBAR_GATE_SWAP_AT_SWAP_AT p)) w = g.wrGateSwapAt w p := by
  fin_cases p <;> rfl

end

section
variable (g : Gikan) (w : RegW) (p : Fin 32)

/-- The gate fields of a port stand apart from each other. -/
theorem gate_places : (F.XBAR_GATE_SWAP_AT_SWAP_AT p).key ≠ (F.XBAR_GATE_STATUS_ARMED p).key ∧
    (F.XBAR_GATE_CTRL_ACTIVE p).key ≠ (F.XBAR_GATE_STATUS_ARMED p).key ∧ (F.XBAR_GATE_CTRL_ACTIVE p).key ≠ (F.XBAR_GATE_SWAP_AT_SWAP_AT p).key ∧
    (∀ f ∈ [F.XBAR_GATE_CTRL_ACTIVE p, F.XBAR_GATE_STATUS_ARMED p, F.XBAR_GATE_SWAP_AT_SWAP_AT p],
      f.key ≠ (F.XBAR_GATE_STATUS_ENTRY p).key ∧ f.key ≠ (F.XBAR_GATE_STATUS_SWAPS p).key) ∧
    (F.XBAR_GATE_STATUS_ENTRY p).key ≠ (F.XBAR_GATE_STATUS_SWAPS p).key := by
  revert p; decide

/-- A swap armed, or disarmed by the boundary that never comes. -/
theorem Gikan.swapAtPut (v a : Nat) (hv : v < 2 ^ 64) (ha : a < 2) :
    let h := (g.set (F.XBAR_GATE_SWAP_AT_SWAP_AT p) v).set (F.XBAR_GATE_STATUS_ARMED p) a
    h.get (F.XBAR_GATE_STATUS_ARMED p) = a ∧ h.get (F.XBAR_GATE_SWAP_AT_SWAP_AT p) = v ∧
      h.get (F.XBAR_GATE_CTRL_ACTIVE p) = g.get (F.XBAR_GATE_CTRL_ACTIVE p) := by
  obtain ⟨hsa, hca, hcs, -⟩ := gate_places p
  refine ⟨(Gikan.get_set_same ..).trans (Nat.mod_eq_of_lt ha), ?_, ?_⟩
  · rw [Gikan.get_set_ne _ _ _ _ hsa, Gikan.get_set_same]
    exact Nat.mod_eq_of_lt hv
  · rw [Gikan.get_set_ne _ _ _ _ hca, Gikan.get_set_ne _ _ _ _ hcs]

/-- A swap at its boundary. -/
def Gikan.gateSwapped (g : Gikan) (p : Nat) : Gikan :=
  ((((g.set (F.XBAR_GATE_CTRL_ACTIVE p) (1 - g.get (F.XBAR_GATE_CTRL_ACTIVE p))).set (F.XBAR_GATE_STATUS_ARMED p) 0).set
    (F.XBAR_GATE_SWAP_AT_SWAP_AT p) (2 ^ 64 - 1)).set (F.XBAR_GATE_STATUS_ENTRY p) 0).inc (F.XBAR_GATE_STATUS_SWAPS p) 1

theorem Gikan.gateSwap_due (hr : g.running = true) (ha : g.on (F.XBAR_GATE_STATUS_ARMED p) = true)
    (hs : g.get (F.XBAR_GATE_SWAP_AT_SWAP_AT p) ≤ g.tickNo) : g.gateSwap p = g.gateSwapped p :=
  if_pos (by rw [ha, hr, decide_eq_true hs]; rfl)

theorem Gikan.gateSwap_idle (h : g.on (F.XBAR_GATE_STATUS_ARMED p) = false ∨ g.tickNo < g.get (F.XBAR_GATE_SWAP_AT_SWAP_AT p)) :
    g.gateSwap p = g := by
  refine if_neg ?_
  rcases h with h | h
  · simp [h]
  · simp [Nat.not_le.mpr h]

theorem Gikan.gateSwapped_shows : (g.gateSwapped p).get (F.XBAR_GATE_CTRL_ACTIVE p) = 1 - g.get (F.XBAR_GATE_CTRL_ACTIVE p) ∧
    (g.gateSwapped p).on (F.XBAR_GATE_STATUS_ARMED p) = false ∧ (g.gateSwapped p).get (F.XBAR_GATE_SWAP_AT_SWAP_AT p) = 2 ^ 64 - 1 ∧
    (g.gateSwapped p).get (F.XBAR_GATE_STATUS_ENTRY p) = 0 ∧
    (g.gateSwapped p).get (F.XBAR_GATE_STATUS_SWAPS p) = satAdd (F.XBAR_GATE_STATUS_SWAPS p).wid (g.get (F.XBAR_GATE_STATUS_SWAPS p)) 1 := by
  obtain ⟨hsa, hca, hcs, hlast, hes⟩ := gate_places p
  simp only [List.forall_mem_cons] at hlast
  obtain ⟨⟨hce, hcn⟩, ⟨hae, han⟩, ⟨hse, hsn⟩, -⟩ := hlast
  have hne : ∀ {a b : Fld} (h : Gikan) v, a.key ≠ b.key → (h.set b v).get a = h.get a := fun h v hk => Gikan.get_set_ne h _ _ v hk
  have hinc : ∀ {a : Fld} (h : Gikan), a.key ≠ (F.XBAR_GATE_STATUS_SWAPS p).key → (h.inc (F.XBAR_GATE_STATUS_SWAPS p) 1).get a = h.get a :=
    fun h hk => Gikan.get_inc_ne h _ _ 1 hk
  refine ⟨?_, ?_, ?_, ?_, ?_⟩
  · rw [Gikan.gateSwapped, hinc _ hcn, hne _ _ hce, hne _ _ hcs, hne _ _ hca, Gikan.get_set_same]
    exact Nat.mod_eq_of_lt (show 1 - g.get _ < 2 by omega)
  · rw [Gikan.on, Gikan.gateSwapped, hinc _ han, hne _ _ hae, hne _ _ hsa.symm, Gikan.get_set_same]
    rfl
  · rw [Gikan.gateSwapped, hinc _ hsn, hne _ _ hse, Gikan.get_set_same]
    rfl
  · rw [Gikan.gateSwapped, hinc _ hes, Gikan.get_set_same]
    rfl
  · rw [Gikan.gateSwapped, Gikan.get_inc_same, hne _ _ hes.symm, hne _ _ hsn.symm, hne _ _ han.symm, hne _ _ hcn.symm]

theorem Gikan.gateLen_le (l : Nat) : g.gateLen p l ≤ 64 := Nat.min_le_left ..

theorem Gikan.gateEntryEnd_due (hr : g.running = true)
    (hl : g.get (F.XBAR_GATE_STATUS_ENTRY p) + 1 < g.gateLen p (g.get (F.XBAR_GATE_CTRL_ACTIVE p)))
    (ht : g.xbar.gateAt.getD p 0 + (g.gateEntry p (g.get (F.XBAR_GATE_CTRL_ACTIVE p)) (g.get (F.XBAR_GATE_STATUS_ENTRY p))).1 ≤ g.time) :
    (g.gateEntryEnd p).get (F.XBAR_GATE_STATUS_ENTRY p) = g.get (F.XBAR_GATE_STATUS_ENTRY p) + 1 ∧
      (g.gateEntryEnd p).xbar.gateAt.get? p =
        some (g.xbar.gateAt.getD p 0 + (g.gateEntry p (g.get (F.XBAR_GATE_CTRL_ACTIVE p)) (g.get (F.XBAR_GATE_STATUS_ENTRY p))).1) ∧
      (g.gateEntryEnd p).xbar.gates = g.xbar.gates := by
  have hlen := g.gateLen_le p (g.get (F.XBAR_GATE_CTRL_ACTIVE p))
  unfold Gikan.gateEntryEnd
  dsimp only
  rw [if_pos (by rw [hr, decide_eq_true hl, decide_eq_true ht]; rfl)]
  exact ⟨(Gikan.get_set_same ..).trans (Nat.mod_eq_of_lt (show _ < 64 by omega)), Tbl.get?_put_same .., rfl⟩

theorem Gikan.gateEntryEnd_idle
    (h : g.gateLen p (g.get (F.XBAR_GATE_CTRL_ACTIVE p)) ≤ g.get (F.XBAR_GATE_STATUS_ENTRY p) + 1 ∨
      g.time < g.xbar.gateAt.getD p 0 + (g.gateEntry p (g.get (F.XBAR_GATE_CTRL_ACTIVE p)) (g.get (F.XBAR_GATE_STATUS_ENTRY p))).1) :
    g.gateEntryEnd p = g := by
  refine if_neg ?_
  rcases h with h | h
  · simp [Nat.not_lt.mpr h]
  · simp [Nat.not_le.mpr h]

end

/-! Samples of a queue (R318) -/

section
variable (g : Gikan)

theorem Gikan.queueSampled_idle (h : g.on F.XBAR_QSAMPLE_SEL_EN = false ∨ g.sampleDue = false) : g.queueSampled = g := by
  refine if_pos ?_
  rcases h with h | h <;> rw [h] <;> simp

theorem Gikan.queueSampled_due (hh : g.hasp = false) (he : g.on F.XBAR_QSAMPLE_SEL_EN = true) (hd : g.sampleDue = true) :
    g.queueSampled = (g.queueSample.monitor 1 none none g.queueValues.1).monitor 2 none none g.queueValues.2 :=
  if_neg (by rw [hh, he, hd]; decide)

theorem Gikan.queueSample_shows : g.queueSample.get F.XBAR_QSAMPLE_DATA_DEPTH_LAST = min g.queueValues.1 65535 ∧
    g.queueSample.get F.XBAR_QSAMPLE_DELAY_DELAY_LAST_NS = min g.queueValues.2 (2 ^ 32 - 1) := by
  obtain ⟨k, hk⟩ : ∃ k : Gikan, k = ({ g with xbar := { g.xbar with sampledAt := some g.now } } : Gikan) := ⟨_, rfl⟩
  obtain ⟨h, hh⟩ : ∃ h, h = (k.set F.XBAR_QSAMPLE_DATA_DEPTH_LAST (min g.queueValues.1 65535)).set F.XBAR_QSAMPLE_DELAY_DELAY_LAST_NS
    (min g.queueValues.2 (2 ^ 32 - 1)) := ⟨_, rfl⟩
  have hget : ∀ f, g.queueSample.get f = h.get f := fun f => by
    unfold Gikan.queueSample
    dsimp only
    rw [← hk, ← hh]
    split <;> rfl
  rw [hget, hget, hh, Gikan.get_set_ne _ _ _ _ (by decide), Gikan.get_set_same, Gikan.get_set_same]
  exact ⟨Nat.mod_eq_of_lt (show _ < 2 ^ 16 by omega), Nat.mod_eq_of_lt (show _ < 2 ^ 32 by omega)⟩

end

/-- Settles O49: what moves, ends and is written, by the equations of the switch core's parts. -/
theorem switchCore : Obligations.SwitchCore := by
  unfold Obligations.SwitchCore
  refine fun s => ⟨rfl, fun g i o c v rest hq => ⟨g.moveCell_more hq, g.moveCell_last hq⟩, fun w o c hr => ?_, fun w hr hin => ?_, fun w p hr => ?_,
    fun p hh hrun => ⟨fun ha hs => ?_, fun h => ?_, fun hl ht => ?_, fun h => ?_⟩,
    fun hh => ⟨fun h => congrArg s.done (s.g.queueSampled_idle h), fun d n he hd hq => ?_⟩⟩
  · exact ⟨s.withG _, exec_reaches rfl (s.g.writeReg_shaper w o c) hr, s.g.wrShaper_resets w o c⟩
  · have hp := s.g.wrValue_lt (trig w F.XBAR_GATE_ENTRY_GO) _ (hin F.XBAR_GATE_ENTRY_PORT (List.mem_cons_self ..))
    obtain ⟨hact, hstand⟩ := s.g.wrGateEntry_effect _ (wrOne_trig w F.XBAR_GATE_ENTRY_GO rfl) hp
    have hexec : exec (.xbarGateEntryGo w) s = .next (s.withG (s.g.wrGateEntry (trig w F.XBAR_GATE_ENTRY_GO))) := exec_reaches rfl rfl hr
    exact ⟨fun ha => ⟨_, hexec, hact ha⟩, fun ha => ⟨_, hexec, hstand ha⟩⟩
  · have hexec : ∀ {k}, s.g.wrGateSwapAt w p = k → exec (.xbarGateSwapAtWrite w p) s = .next (s.withG k) := fun hk =>
      exec_reaches rfl ((s.g.writeReg_gateSwapAt w p).trans hk) hr
    refine ⟨fun hv => ?_, fun hv ht => hexec ((if_neg (Nat.ne_of_lt hv)).trans (if_pos ht)), fun hv ht => ?_⟩
    · obtain ⟨ha, hs, -⟩ := s.g.swapAtPut p (s.g.wrValue w (F.XBAR_GATE_SWAP_AT_SWAP_AT p)) 0 (by rw [hv]; decide) (by decide)
      exact ⟨_, hexec (if_pos hv), by rw [Gikan.on]; exact congrArg (· != 0) ha, hs⟩
    · obtain ⟨ha, hs, hc⟩ := s.g.swapAtPut p (s.g.wrValue w (F.XBAR_GATE_SWAP_AT_SWAP_AT p)) 1 (by omega) (by decide)
      exact ⟨_, hexec ((if_neg (Nat.ne_of_lt hv)).trans (if_neg (Nat.not_lt.mpr ht))), by rw [Gikan.on]; exact congrArg (· != 0) ha, hs, hc⟩
  · exact ⟨s.withG _, exec_live rfl hh (s.g.gateSwap_due p hrun ha hs), s.g.gateSwapped_shows p⟩
  · exact exec_live_idle rfl (s.g.gateSwap_idle p h)
  · exact ⟨s.withG _, exec_live rfl hh rfl, s.g.gateEntryEnd_due p hrun hl ht⟩
  · exact exec_live_idle rfl (s.g.gateEntryEnd_idle p h)
  · have hd' := s.g.queueSampled_due hh he hd
    have hshow := s.g.queueSample_shows
    rw [hq] at hd' hshow
    exact ⟨congrArg s.done hd', hshow⟩

end Sys2Proof.Machine
end

section
namespace Sys2Proof.Machine

/-! ## Membership (R320) -/

/-- A whole word written to SEC_MEMBER_DATA is the mask of the node shown. -/
theorem Gikan.masks_wrMemberData (g : Gikan) (b : Bus) (d : Word) (h : g.memberWord < 2 ^ 16) :
    (g.wrMemberData ⟨b, .full, d⟩).sec.masks = g.sec.masks.setD (g.get F.SEC_MEMBER_INDEX_NODE) 0 (bits d.toNat 0 16) := by
  unfold Gikan.wrMemberData
  rw [wrField_full b d F.SEC_MEMBER_DATA_MASK (by decide)]
  have hv : bits d.toNat (F.SEC_MEMBER_DATA_MASK.key % 64) F.SEC_MEMBER_DATA_MASK.wid = bits d.toNat 0 16 := rfl
  have hm : 2 ^ F.SEC_MEMBER_DATA_MASK.wid - 1 = 2 ^ 16 - 1 := rfl
  rw [hv, hm]
  dsimp only
  rw [Nat.and_two_pow_sub_one_of_lt_two_pow h, Nat.and_two_pow_sub_one_of_lt_two_pow (bits_lt ..), Nat.sub_self, Nat.or_zero]

theorem Gikan.memberOf_wrMemberData (g : Gikan) (b : Bus) (d : Word) (h : g.memberWord < 2 ^ 16) (c : Nat) :
    (g.wrMemberData ⟨b, .full, d⟩).memberOf (g.get F.SEC_MEMBER_INDEX_NODE) c = (decide (c < 16) && d.toNat.testBit c) := by
  rw [Gikan.memberOf, g.masks_wrMemberData b d h, Tbl.getD_setD_same, bits, Nat.testBit_mod_two_pow, Nat.shiftRight_zero]

theorem Gikan.memberOf_wrMemberData_ne (g : Gikan) (b : Bus) (d : Word) (h : g.memberWord < 2 ^ 16) (c : Nat) {m : Nat}
    (hm : m ≠ g.get F.SEC_MEMBER_INDEX_NODE) : (g.wrMemberData ⟨b, .full, d⟩).memberOf m c = g.memberOf m c := by
  rw [Gikan.memberOf, g.masks_wrMemberData b d h, Tbl.getD_setD_ne _ _ _ _ hm]
  rfl

/-! ## The scrub (R325 to R327) -/

section
variable (g : Gikan)

/-- The compartment that a write of SEC_SCRUB names. -/
def scrubCmpt (w : RegW) : Nat := (wrField w F.SEC_SCRUB_CMPT).1 &&& (wrField w F.SEC_SCRUB_CMPT).2

/-- A scrub begun: its compartment, and the units that hold items of it. -/
def Gikan.scrubBegun (g : Gikan) (c : Nat) : Gikan :=
  let b := ((g.setBitOf F.SEC_CMPT_STATE_SCRUBBING c).set F.SEC_SCRUB_STATUS_BUSY 1).set F.SEC_SCRUB_STATUS_CMPT c
  { b with sec := { b.sec with
    scrub := some (c, g.now, none)
    cleared := (b.eng.units.filter (fun e => e.2.run.any (fun r => r.item.cmpt == c) || e.2.queue.any (fun i => i.cmpt == c))).map (fun e => e.1) } }

theorem Gikan.wrScrub_busy (w : RegW) (hgo : wrOne w F.SEC_SCRUB_GO = true) (hb : g.on F.SEC_SCRUB_STATUS_BUSY = true) :
    g.wrScrub w = g.inc F.SEC_SCRUB_COUNTS_REFUSED 1 := by
  unfold Gikan.wrScrub
  simp only [hgo, hb]
  rfl

theorem Gikan.wrScrub_starts (w : RegW) (hgo : wrOne w F.SEC_SCRUB_GO = true) (hb : g.on F.SEC_SCRUB_STATUS_BUSY = false) :
    g.wrScrub w = (let h := (g.scrubBegun (scrubCmpt w)).stopCommands ⟨scrubCmpt w % 16, Nat.mod_lt _ (by decide)⟩
      h.cohSettle (((((h.stopUnits (scrubCmpt w)).stopJobs (scrubCmpt w)).stopPins (scrubCmpt w)).stopStreams (scrubCmpt w)).stopImages (scrubCmpt w))) := by
  unfold Gikan.wrScrub
  simp only [hgo, hb]
  rfl

/-! Pin cores -/

theorem Gikan.pin_dupClose (q : Req) (r : Resp) : (g.dupClose q r).pin = g.pin := by
  unfold Gikan.dupClose
  split <;> rfl

theorem Gikan.pin_answer (i x : Nat) (q : Req) (st : Nat) (payload : List Byte) : (g.answer i x q st payload).pin = g.pin :=
  (Gikan.pin_of_inner (Gikan.inner_answerFrom ..)).trans (g.pin_dupClose ..)

/-- An entry-point TRIGGER is answered, and no core takes part. -/
theorem Gikan.pin_pinRoute_trigger {i : PinItem} {held p k m a : Nat} {r : List Byte} (hi : i.by_ = .trigger held p k m a r) (ran : Bool)
    (status result : Nat) (bytes : List Byte) : (g.pinRoute i ran status result bytes).pin = g.pin := by
  unfold Gikan.pinRoute
  rw [hi]
  dsimp only
  cases g.heldById held with
  | none => rfl
  | some h => exact Gikan.pin_answer ..

end

/-- A core without its items of a compartment. -/
def PinCore.without (p : PinCore) (c : Nat) : PinCore :=
  { p with
    queue := p.queue.filter (fun i => i.cmpt != c)
    threads := p.threads.filter (fun t => t.2.item.cmpt != c)
    ready := p.ready.map (fun r => (r.1, r.2.filter (fun i => i.1.cmpt != c))) }

/-- What the stop of a compartment leaves of the cores and of the items outside. -/
theorem Gikan.pin_stopPins (g : Gikan) (c : Nat) : (g.stopPins c).pin.cores = g.pin.cores.map (fun p => (p.1, p.2.without c)) ∧
    (g.stopPins c).pin.outside = g.pin.outside.filter (fun o => o.2.cmpt != c) := by
  unfold Gikan.stopPins
  dsimp only
  rw [Gikan.pin_foldl fun h i => ?_]
  · exact ⟨rfl, rfl⟩
  · cases hi : i.by_ with
    | trigger held p k m a r => exact h.pin_pinRoute_trigger hi ..
    | run => rfl
    | custom => rfl

/-- Items of a list without those of a compartment. -/
theorem filter_cmpt_filter {α : Type} (f : α → PinItem) (c : Nat) (l : List α) :
    ((l.filter (fun x => (f x).cmpt != c)).map f).filter (fun i => i.cmpt == c) = [] := by
  rw [List.filter_eq_nil_iff]
  intro i hi
  obtain ⟨x, hx, rfl⟩ := List.mem_map.mp hi
  simpa using (List.mem_filter.mp hx).2

theorem Gikan.pinItemsOf_stopPins (g : Gikan) (c : Nat) : (g.stopPins c).pinItemsOf c = [] := by
  obtain ⟨hcores, hout⟩ := g.pin_stopPins c
  unfold Gikan.pinItemsOf
  dsimp only
  rw [hcores, hout, List.append_eq_nil_iff]
  refine ⟨List.flatMap_eq_nil_iff.mpr fun p hp => ?_, filter_cmpt_filter (fun o : Nat × PinItem => o.2) c _⟩
  obtain ⟨q, -, rfl⟩ := List.mem_map.mp hp
  simp only [PinCore.without, List.filter_append, List.append_eq_nil_iff]
  refine ⟨⟨filter_cmpt_filter (fun t : Nat × Thread => t.2.item) c _, List.filter_eq_nil_iff.mpr fun i hi => ?_⟩, ?_⟩
  · obtain ⟨r, hr, hi⟩ := List.mem_flatMap.mp hi
    obtain ⟨r', -, rfl⟩ := List.mem_map.mp hr
    obtain ⟨x, hx, rfl⟩ := List.mem_map.mp hi
    simpa using (List.mem_filter.mp hx).2
  · have hq := filter_cmpt_filter (fun i : PinItem => i) c q.2.queue
    rwa [List.map_id'] at hq

/-! The clear phase (R326) -/

section
variable (g : Gikan) (c : Nat)

/-- A core that belonged to a compartment is nobody's. -/
def PinCore.cleared (p : PinCore) (c : Nat) : PinCore := if p.cmpt = some c then .idle else p

/-- A stored answer of a compartment keeps no bytes. -/
def DupRec.cleared (r : DupRec) (c : Nat) : DupRec :=
  if r.cmpt = c then { r with done := r.done.map (fun d => ({ d.1 with payload := [] }, d.2)) } else r

theorem Gikan.scrubClear_parts : (g.scrubClear c).pin.cores = g.pin.cores.mapV (fun _ p => p.cleared c) ∧
    (g.scrubClear c).cmp.slots = g.cmp.slots.filter (fun s => s.2.cmpt != c) ∧ (g.scrubClear c).req.dups = g.req.dups.map (fun r => r.cleared c) ∧
    (g.scrubClear c).mem = g.mem := by
  unfold Gikan.scrubClear
  refine ⟨?_, ?_, ?_, ?_⟩
  · simp only [apply_ite Gikan.pin, Gikan.pin_set, ite_self]; rfl
  · simp only [apply_ite Gikan.cmp, Gikan.cmp_set, ite_self]
  · simp only [apply_ite Gikan.req, Gikan.req_set, ite_self]; rfl
  · simp only [apply_ite Gikan.mem, Gikan.mem_set, ite_self]

theorem Gikan.scrubClear_clears : (∀ core, ((g.scrubClear c).pinCore core).cmpt ≠ some c) ∧ (∀ e ∈ (g.scrubClear c).cmp.slots, e.2.cmpt ≠ c) ∧
    (∀ r ∈ (g.scrubClear c).req.dups, r.cmpt = c → ∀ d, r.done = some d → d.1.payload = []) ∧ (g.scrubClear c).mem = g.mem := by
  obtain ⟨hcores, hslots, hdups, hmem⟩ := g.scrubClear_parts c
  refine ⟨fun core => ?_, fun e he => ?_, fun r hr hc d hd => ?_, hmem⟩
  · have hclear : ∀ p : PinCore, (p.cleared c).cmpt ≠ some c := fun p => by
      unfold PinCore.cleared
      split
      · nofun
      next h => exact h
    rw [Gikan.pinCore, hcores, Tbl.getD, Tbl.get?_mapV]
    cases g.pin.cores.get? core with
    | none => nofun
    | some p => exact hclear p
  · rw [hslots] at he
    simpa using (List.mem_filter.mp he).2
  · rw [hdups] at hr
    obtain ⟨q, -, rfl⟩ := List.mem_map.mp hr
    unfold DupRec.cleared at hc hd
    by_cases hq : q.cmpt = c
    · rw [if_pos hq] at hd
      obtain ⟨x, -, rfl⟩ := Option.map_eq_some_iff.mp hd
      rfl
    · rw [if_neg hq] at hc
      exact absurd hc hq

/-- A scrub that has ended, `ns` after its start. -/
def Gikan.scrubEnded (g : Gikan) (c ns : Nat) : Gikan :=
  let l := ((((g.scrubClear c).putBitOf F.SEC_CMPT_STATE_SCRUBBING c false).set F.SEC_SCRUB_STATUS_BUSY 0).set F.SEC_SCRUB_STATUS_DONE 1).set
    F.SEC_SCRUB_STATUS_TOTAL_NS (min (2 ^ 32 - 1) ns)
  { l with sec := { l.sec with scrub := none, cleared := [] } }

theorem Gikan.scrubEnded_shows (ns : Nat) : (g.scrubEnded c ns).scrubbing c = false ∧ (g.scrubEnded c ns).on F.SEC_SCRUB_STATUS_BUSY = false ∧
    (g.scrubEnded c ns).on F.SEC_SCRUB_STATUS_DONE = true := by
  obtain ⟨k, hk⟩ : ∃ k, k = (g.scrubClear c).putBitOf F.SEC_CMPT_STATE_SCRUBBING c false := ⟨_, rfl⟩
  have hget : ∀ f, (g.scrubEnded c ns).get f = (((k.set F.SEC_SCRUB_STATUS_BUSY 0).set F.SEC_SCRUB_STATUS_DONE 1).set
    F.SEC_SCRUB_STATUS_TOTAL_NS (min (2 ^ 32 - 1) ns)).get f := fun f => by rw [hk]; rfl
  refine ⟨?_, ?_, ?_⟩
  · rw [Gikan.scrubbing, hget, Gikan.get_set_ne _ _ _ _ (by decide), Gikan.get_set_ne _ _ _ _ (by decide), Gikan.get_set_ne _ _ _ _ (by decide), hk]
    exact Gikan.bitOf_putBitOf_false ..
  · rw [Gikan.on, hget, Gikan.get_set_ne _ _ _ _ (by decide), Gikan.get_set_ne _ _ _ _ (by decide), Gikan.get_set_same]
    rfl
  · rw [Gikan.on, hget, Gikan.get_set_ne _ _ _ _ (by decide), Gikan.get_set_same]
    rfl

variable {g c} {t : Nat}

theorem Gikan.scrubDone_clears {b : Nat} (hh : g.hasp = false) (hs : g.sec.scrub = some (c, t, some b)) :
    (g.now - t ≤ 60000 → g.scrubDone = g.cohSettle (g.scrubEnded c (g.now - t)).tableWaited.imageWaited) ∧
    (60000 < g.now - t → g.scrubDone = g.cohSettle
      (((g.scrubEnded c (g.now - t)).set F.SEC_SCRUB_STATUS_LATE 1).contained 59 c (offOf F.SEC_SCRUB_STATUS_LATE)).tableWaited.imageWaited) := by
  have heq : g.scrubDone = g.cohSettle (if 60000 < g.now - t then
      ((g.scrubEnded c (g.now - t)).set F.SEC_SCRUB_STATUS_LATE 1).contained 59 c (offOf F.SEC_SCRUB_STATUS_LATE)
      else g.scrubEnded c (g.now - t)).tableWaited.imageWaited := by
    unfold Gikan.scrubDone
    simp only [hs, hh]
    rfl
  exact ⟨fun h => heq.trans (by rw [if_neg (Nat.not_lt.mpr h)]), fun h => heq.trans (by rw [if_pos h])⟩

theorem Gikan.stopPhaseEnd_ends (hh : g.hasp = false) (hs : g.sec.scrub = some (c, t, none)) :
    g.stopPhaseEnd.get F.SEC_SCRUB_STATUS_STOP_NS = min 65535 (g.now - t) ∧ g.stopPhaseEnd.sec.scrub = some (c, t, some g.now) := by
  unfold Gikan.stopPhaseEnd
  simp only [hs, hh]
  exact ⟨(Gikan.get_set_same ..).trans (Nat.mod_eq_of_lt (show min 65535 _ < 2 ^ 16 by omega)), rfl⟩

end

/-! ## View records (R328, R329) -/

section
variable (g : Gikan) (c : Nat)

/-- A view record taken, and its watts drawn. -/
def Gikan.viewTaken (g : Gikan) (c : Nat) : Gikan := { g with draw := g.draw + 1, sec := { g.sec with viewed := g.sec.viewed ++ [c] } }

theorem Gikan.viewRecord_idle (h : g.on F.SEC_CTRL_VIEW_EN = false ∨ g.viewBaseWord c % 2 = 0 ∨ g.running = false ∨ g.sec.viewed.contains c = true) :
    g.viewRecord c = g := by
  refine if_pos ?_
  rcases h with h | h | h | h <;> simp only [h] <;> simp

theorem Gikan.viewRecord_due (he : g.on F.SEC_CTRL_VIEW_EN = true) (hb : g.viewBaseWord c % 2 = 1) (hr : g.running = true) (hh : g.hasp = false)
    (hv : g.sec.viewed.contains c = false) :
    let a := g.viewBaseWord c / 64 * 64
    (g.siteAt a = none → g.viewRecord c = (g.viewTaken c).inc F.SEC_CTRL_VIEW_MISSES 1) ∧
    (∀ x, g.siteAt a = some x →
      let fits := decide (x.e.cmpt = c) && x.e.comp == 0 && x.e.covers (g.realAddr a) 64
      (fits = false → g.viewRecord c = (g.viewTaken c).inc F.SEC_CTRL_VIEW_MISSES 1) ∧
      (fits = true → g.viewRecord c = g.cohSettle ((g.viewTaken c).engWrite x (g.realAddr a)
        ((g.viewTaken c).viewBytes c (Config.openValue g.draw % 65536))))) := by
  intro a
  have hsite : (g.viewTaken c).siteAt a = g.siteAt a := rfl
  have hreal : (g.viewTaken c).realAddr a = g.realAddr a := rfl
  have heq : g.viewRecord c = (match (g.viewTaken c).siteAt a with
      | some s =>
        if s.e.cmpt = c && s.e.comp == 0 && s.e.covers ((g.viewTaken c).realAddr a) 64 then
          g.cohSettle ((g.viewTaken c).engWrite s ((g.viewTaken c).realAddr a) ((g.viewTaken c).viewBytes c (Config.openValue g.draw % 65536)))
        else (g.viewTaken c).inc F.SEC_CTRL_VIEW_MISSES 1
      | none => (g.viewTaken c).inc F.SEC_CTRL_VIEW_MISSES 1) := by
    unfold Gikan.viewRecord
    simp only [he, hb, hr, hh, hv]
    rfl
  rw [hsite, hreal] at heq
  refine ⟨fun hx => by rw [heq, hx], fun x hx => ?_⟩
  intro fits
  rw [hx] at heq
  exact ⟨fun hf => heq.trans (if_neg (ne_true_of_eq_false hf)), fun hf => heq.trans (if_pos hf)⟩

theorem length_leBytes (n v : Nat) : (leBytes n v).length = n := by
  induction n generalizing v with
  | zero => rfl
  | succ n ih => rw [leBytes, List.length_cons, ih]

theorem Gikan.length_viewBytes (watts : Nat) : (g.viewBytes c watts).length = 64 := by
  unfold Gikan.viewBytes
  simp only [List.length_append, length_leBytes, zeros, List.length_replicate]

end

/-- Settles O50: the equations of the member mask, the scrub and the view record. -/
theorem scrubAndViews : Obligations.ScrubAndViews := by
  unfold Obligations.ScrubAndViews
  refine fun s => ⟨fun w hr hw hm => ?_, fun w hr => ?_, fun g c => g.pinItemsOf_stopPins c, fun hh => ⟨fun c t hs => ⟨?_, ?_⟩, fun hs => ⟨?_, ?_⟩,
    fun c t b hs => ⟨?_, ?_⟩⟩, fun g c => g.scrubClear_clears c, fun c => ⟨fun h => congrArg s.done (s.g.viewRecord_idle c h),
      fun he hb hr hh hv => ?_, fun n => s.g.length_viewBytes c n⟩⟩
  · obtain ⟨b, half, d⟩ := w
    cases hw
    refine ⟨s.withG _, exec_reaches rfl rfl hr, s.g.memberOf_wrMemberData b d hm, fun m c hne => s.g.memberOf_wrMemberData_ne b d hm c hne, rfl, rfl⟩
  · have hgo := wrOne_trig w F.SEC_SCRUB_GO rfl
    exact ⟨fun hb => exec_reaches rfl (s.g.wrScrub_busy _ hgo hb) hr, fun hb => exec_reaches rfl (s.g.wrScrub_starts _ hgo hb) hr⟩
  · exact congrArg s.done (show s.g.scrubDone = s.g by unfold Gikan.scrubDone; rw [hs])
  · exact ⟨s.withG _, rfl, Gikan.stopPhaseEnd_ends hh hs⟩
  · exact congrArg s.done (show s.g.scrubDone = s.g by unfold Gikan.scrubDone; rw [hs])
  · exact congrArg s.done (show s.g.stopPhaseEnd = s.g by unfold Gikan.stopPhaseEnd; rw [hs])
  · exact congrArg s.done (show s.g.stopPhaseEnd = s.g by unfold Gikan.stopPhaseEnd; rw [hs])
  · obtain ⟨hin, hlate⟩ := Gikan.scrubDone_clears hh hs
    exact ⟨fun h => congrArg s.done (hin h), fun h => congrArg s.done (hlate h), s.g.scrubEnded_shows c _⟩
  · obtain ⟨hnone, hsome⟩ := s.g.viewRecord_due c he hb hr hh hv
    exact ⟨fun h => congrArg s.done (hnone h), fun x hx => ⟨fun h => congrArg s.done ((hsome x hx).1 h), fun h => congrArg s.done ((hsome x hx).2 h)⟩⟩

end Sys2Proof.Machine
end

section
namespace Sys2Proof.Machine

/-! ## Flits received (R280 to R285) -/

section
variable (g : Gikan) (p : Nat) (f : Flit)

theorem Gikan.dataFlit_down (hu : g.lnkUp p = false) : g.dataFlit p f = g ∧ g.idleFlit p f = g :=
  ⟨if_pos (by rw [hu]; rfl), if_pos (by rw [hu]; rfl)⟩

theorem Gikan.idleFlit_up (hu : g.lnkUp p = true) :
    g.idleFlit p f = if flitBad f then (g.fecFlit p).badFlit p else (g.fecFlit p).takeHeader p f :=
  if_neg (by rw [hu]; decide)

theorem Gikan.dataFlit_bad (hu : g.lnkUp p = true) (hb : flitBad f = true) : g.dataFlit p f = ((g.fecFlit p).badFlit p).discardFlit p := by
  unfold Gikan.dataFlit
  rw [hu, hb]
  rfl

/-- A DATA flit in sequence, counted as taken. -/
def Gikan.flitTaken (k : Gikan) (p : Nat) (f : Flit) : Gikan :=
  k.setLink p { k.link p with
    expect := ((k.link p).expect + 1) % 4096, accepted := true, nak := none, nakDue := false, rxBytes := (k.link p).rxBytes + 16 * occupied f }

theorem Gikan.dataFlit_good (hu : g.lnkUp p = true) (hb : flitBad f = false) (hk : ((g.fecFlit p).takeHeader p f).lnkUp p = true) :
    g.dataFlit p f = (let k := (g.fecFlit p).takeHeader p f
      if f.seq ≠ (k.link p).expect then k.discardFlit p
      else
        let r := (k.flitTaken p f).takeSlots p f (List.range 15)
        if r.2 then r.1 else (r.1.inc (F.LNK_COUNT2_FRAME_ERRORS p) 1).retrain p 6) := by
  unfold Gikan.dataFlit
  simp only [hu, hb, hk]
  rfl

/-- A DATA flit that comes in its turn ends as its slots do. -/
theorem Gikan.dataFlit_taken (hu : g.lnkUp p = true) (hb : flitBad f = false) (hk : ((g.fecFlit p).takeHeader p f).lnkUp p = true)
    (hs : f.seq = (((g.fecFlit p).takeHeader p f).link p).expect) {m : Gikan} {ok : Bool}
    (hm : (((g.fecFlit p).takeHeader p f).flitTaken p f).takeSlots p f (List.range 15) = (m, ok)) :
    g.dataFlit p f = if ok then m else (m.inc (F.LNK_COUNT2_FRAME_ERRORS p) 1).retrain p 6 := by
  rw [g.dataFlit_good p f hu hb hk]
  dsimp only
  rw [if_neg (not_not.mpr hs), hm]

end

/-! ## Acknowledgement, replay and NAK (R284 to R286) -/

theorem findIdx_getElem? {α : Type} {q : α → Bool} {l : List α} {i : Nat} {a : α} (h : findIdx q l = some (i, a)) : l[i]? = some a ∧ q a = true := by
  induction l generalizing i with
  | nil => cases h
  | cons b l ih =>
    rw [findIdx] at h
    split at h
    next hb =>
      cases h
      exact ⟨rfl, hb⟩
    next =>
      obtain ⟨⟨j, c⟩, hj, hr⟩ := Option.map_eq_some_iff.mp h
      cases hr
      exact ih hj

theorem PortLnk.held_ackTo (l : PortLnk) (seq now : Nat) : (l.ackTo seq now).held = l.held ∨
    ∃ i f, l.held[i]? = some f ∧ f.1.seq = seq ∧ (l.ackTo seq now).held = l.held.drop (i + 1) ∧ (l.ackTo seq now).inRow = 0 := by
  unfold PortLnk.ackTo
  split
  next => exact .inl rfl
  next i a h =>
    obtain ⟨hi, hq⟩ := findIdx_getElem? h
    exact .inr ⟨i, a, hi, by simpa using hq, rfl, rfl⟩

section
variable {g : Gikan} {p : Nat} {f : Flit × Bool} {rest : List (Flit × Bool)} (hl : (g.link p).held = f :: rest)

/-- A replay begun: from the first flit held, and counted. -/
def Gikan.replayBegun (g : Gikan) (p : Nat) (f : Flit × Bool) : Gikan :=
  (g.inc (F.LNK_COUNT0_REPLAYS p) 1).setLink p
    { g.link p with replay := some 0, replayFrom := some (f.1.seq, g.now), inRow := (g.link p).inRow + 1, waitFrom := g.now }

include hl

theorem Gikan.startReplay_held : g.startReplay p =
    if max 1 (g.get (F.LNK_RETRY_RETRY_MAX p)) ≤ (g.link p).inRow + 1 then (g.replayBegun p f).retrain p 5 else g.replayBegun p f := by
  have hmax : (g.replayBegun p f).get (F.LNK_RETRY_RETRY_MAX p) = g.get (F.LNK_RETRY_RETRY_MAX p) :=
    Gikan.get_inc_ne g (F.LNK_COUNT0_REPLAYS p) (F.LNK_RETRY_RETRY_MAX p) 1 (by simp only [F.LNK_COUNT0_REPLAYS, F.LNK_RETRY_RETRY_MAX]; omega)
  have heq : g.startReplay p = if max 1 ((g.replayBegun p f).get (F.LNK_RETRY_RETRY_MAX p)) ≤ (g.link p).inRow + 1 then
      (g.replayBegun p f).retrain p 5 else g.replayBegun p f := by
    unfold Gikan.startReplay Gikan.replayBegun
    simp only [hl]
  rw [heq, hmax]

theorem Gikan.replayTimeout_due (hu : g.lnkUp p = true) (hd : (g.link p).waitFrom + g.replayNs p ≤ g.now) : g.replayTimeout p =
    if max 1 (g.get (F.LNK_RETRY_RETRY_MAX p)) ≤ (g.link p).inRow + 1 then (g.replayBegun p f).retrain p 5 else g.replayBegun p f :=
  (if_pos (by rw [hu, hl, decide_eq_true hd]; rfl)).trans (Gikan.startReplay_held hl)

end

theorem Gikan.replayTimeout_early {g : Gikan} {p : Nat} (hd : g.now < (g.link p).waitFrom + g.replayNs p) : g.replayTimeout p = g :=
  if_neg (by simp [Nat.not_le.mpr hd])

theorem Gikan.replayBegun_shows (g : Gikan) (p : Nat) (f : Flit × Bool) : ((g.replayBegun p f).link p).replay = some 0 ∧
    ((g.replayBegun p f).link p).held = (g.link p).held ∧ ((g.replayBegun p f).link p).inRow = (g.link p).inRow + 1 ∧
    (g.replayBegun p f).lnkState p = g.lnkState p ∧
    (g.replayBegun p f).get (F.LNK_COUNT0_REPLAYS p) = satAdd (F.LNK_COUNT0_REPLAYS p).wid (g.get (F.LNK_COUNT0_REPLAYS p)) 1 := by
  have hst : (g.replayBegun p f).lnkState p = g.lnkState p :=
    Gikan.get_inc_ne g (F.LNK_COUNT0_REPLAYS p) (F.LNK_STATUS_STATE p) 1 (by simp only [F.LNK_COUNT0_REPLAYS, F.LNK_STATUS_STATE]; omega)
  rw [hst, Gikan.replayBegun, Gikan.link_setLink_same, Gikan.get_setLink, Gikan.get_inc_same]
  exact ⟨rfl, rfl, rfl, rfl, rfl⟩

section
variable {g : Gikan} {p t : Nat} (hn : (g.link p).nak = some t)
include hn

theorem Gikan.nakTimeout_early (hd : g.now < t + max 1000 (g.get (F.LNK_RETRY_NAK_NS p))) : g.nakTimeout p = g := by
  unfold Gikan.nakTimeout
  simp only [hn, decide_eq_false (Nat.not_le.mpr hd), Bool.and_false]
  rfl

theorem Gikan.nakTimeout_due (hu : g.lnkUp p = true) (hd : t + max 1000 (g.get (F.LNK_RETRY_NAK_NS p)) ≤ g.now) :
    g.nakTimeout p = g.setLink p { g.link p with nak := some g.now, nakDue := true } := by
  unfold Gikan.nakTimeout
  simp only [hn, hu, decide_eq_true hd]
  rfl

end

/-! ## Flits sent (R281, R284, R287) -/

section
variable {g : Gikan} {p : Nat}

theorem Gikan.flitSend_param (h : g.lnkState p = 4) : g.flitSend p = g.sendFlit p idle0 := if_pos (by rw [h]; rfl)

theorem Gikan.flitSend_down (h : g.lnkState p ≠ 4) (hu : g.lnkUp p = false) : g.flitSend p = g :=
  (if_neg (by simpa using h)).trans (if_pos (by rw [hu]; rfl))

theorem Gikan.state_of_lnkUp (hu : g.lnkUp p = true) : g.lnkState p ≠ 4 := fun h => by
  rw [Gikan.lnkUp, h] at hu
  exact absurd hu (by decide)

/-- A flit held, with the new number of its port. -/
def Gikan.flitHeld (h : Gikan) (p : Nat) (f : Flit) (mid : Bool) (n : Nat) : Gikan :=
  h.setLink p { h.link p with
    nextSeq := ((h.link p).nextSeq + 1) % 4096, held := (h.link p).held ++ [(f, mid)]
    waitFrom := (if (h.link p).held.isEmpty then h.now else (h.link p).waitFrom), txBytes := (h.link p).txBytes + n }

variable (hu : g.lnkUp p = true) (hs : (g.link p).txSched = none)
include hu hs

theorem Gikan.flitSend_replay {i : Nat} {f : Flit × Bool} (hr : (g.link p).replay = some i) (hf : (g.link p).held[i]? = some f) :
    g.flitSend p = (g.setLink p { g.link p with replay := if i + 1 < (g.link p).held.length then some (i + 1) else none }).sendFlit p f.1 := by
  unfold Gikan.flitSend
  simp only [beq_eq_false_iff_ne.mpr (Gikan.state_of_lnkUp hu), hu, hs, hr, hf]
  rfl

theorem Gikan.flitSend_full (hr : (g.link p).replay = none) (hl : 3072 ≤ (g.link p).held.length) : g.flitSend p = g.sendFlit p idle0 := by
  unfold Gikan.flitSend
  simp only [beq_eq_false_iff_ne.mpr (Gikan.state_of_lnkUp hu), hu, hs, hr, hl]
  rfl

theorem Gikan.flitSend_fills (hr : (g.link p).replay = none) (hl : (g.link p).held.length < 3072) {h : Gikan} {bytes : List Byte} {start : Nat}
    (hf : Gikan.fillSlots 15 0 g p [] 0 = (h, bytes, start)) :
    g.flitSend p = if bytes.isEmpty then h.sendFlit p idle0 else
      (let f : Flit := { idle0 with kind := 1, seq := (h.link p).nextSeq, start := start, slots := fit bytes 240 }
       (h.flitHeld p f (!(g.link p).rest.isEmpty) bytes.length).sendFlit p f) := by
  unfold Gikan.flitSend
  simp only [beq_eq_false_iff_ne.mpr (Gikan.state_of_lnkUp hu), hu, hs, hr, Nat.not_le.mpr hl, hf]
  rfl

end

/-- What a flit carries when it is sent. -/
theorem Gikan.sendFlit_carries (g : Gikan) (p : Nat) (f : Flit) : ∃ o, (g.sendFlit p f).out = g.out ++ [.flit p o] ∧ o.kind = f.kind ∧ o.seq = f.seq ∧
    o.start = f.start ∧ o.slots = f.slots ∧ o.ackSeq = ((g.link p).expect + 4095) % 4096 ∧ (o.nak = 1 ↔ (g.link p).nakDue = true) ∧
    o.crTcB = (o.crTcA + 1) % 8 ∧ o.crc = flitCrc o ∧ ((g.sendFlit p f).link p).nakDue = false := by
  have hdue : ((g.sendFlit p f).link p).nakDue = false := by rw [Gikan.link_sendFlit]
  rw [hdue]
  unfold Gikan.sendFlit
  dsimp only
  split
  next h => exact ⟨_, rfl, rfl, rfl, rfl, rfl, rfl, ⟨fun _ => h, fun _ => rfl⟩, rfl, rfl, rfl⟩
  next h => exact ⟨_, rfl, rfl, rfl, rfl, rfl, rfl, ⟨fun h0 => absurd h0 Nat.zero_ne_one, fun h1 => absurd h1 h⟩, rfl, rfl, rfl⟩

/-- Settles O44: the equations of a flit received, of replay and NAK, and of a flit sent. -/
theorem flits : Obligations.Flits := by
  unfold Obligations.Flits
  refine fun s p => ⟨fun f hu => ?_, fun f hu => ⟨fun hb => ⟨?_, ?_⟩, fun hb => ?_, fun hb hk => ⟨fun hs => ?_, fun hs => ⟨fun m hm => ?_, fun m hm => ?_⟩⟩⟩,
    PortLnk.held_ackTo, fun f rest hl hu => ⟨fun hd => congrArg s.done (Gikan.replayTimeout_early hd), fun hd hn => ?_, fun hd hn => ?_⟩,
    fun t hn hu => ⟨fun hd => congrArg s.done (Gikan.nakTimeout_early hn hd), fun hd => congrArg s.done (Gikan.nakTimeout_due hn hu hd)⟩,
    ⟨fun h => congrArg s.done (Gikan.flitSend_param h), fun h hu => congrArg s.done (Gikan.flitSend_down h hu), fun hu hs =>
      ⟨fun i f hr hf => congrArg s.done (Gikan.flitSend_replay hu hs hr hf), fun hr hl => congrArg s.done (Gikan.flitSend_full hu hs hr hl),
        fun h bytes start hr hl hf => ⟨fun hb => ?_, fun hb => ?_⟩⟩⟩, fun g f => g.sendFlit_carries p f⟩
  · obtain ⟨hd, hi⟩ := s.g.dataFlit_down p f hu
    exact ⟨congrArg s.done hd, congrArg s.done hi⟩
  · exact congrArg s.done ((s.g.idleFlit_up p f hu).trans (if_pos hb))
  · exact congrArg s.done (s.g.dataFlit_bad p f hu hb)
  · exact congrArg s.done ((s.g.idleFlit_up p f hu).trans (if_neg (ne_true_of_eq_false hb)))
  · exact congrArg s.done ((s.g.dataFlit_good p f hu hb hk).trans (if_pos hs))
  · exact congrArg s.done (s.g.dataFlit_taken p f hu hb hk hs hm)
  · exact congrArg s.done (s.g.dataFlit_taken p f hu hb hk hs hm)
  · exact ⟨s.withG _, congrArg s.done ((Gikan.replayTimeout_due hl hu hd).trans (if_neg (by omega))), s.g.replayBegun_shows p f⟩
  · exact congrArg s.done ((Gikan.replayTimeout_due hl hu hd).trans (if_pos hn))
  · exact congrArg s.done ((Gikan.flitSend_fills hu hs hr hl hf).trans (if_pos (List.isEmpty_iff.mpr hb)))
  · refine ⟨_, congrArg s.done ((Gikan.flitSend_fills hu hs hr hl hf).trans (if_neg (mt List.isEmpty_iff.mp hb))), ?_⟩
    rw [Gikan.flitHeld, Gikan.link_setLink_same]
    exact ⟨rfl, List.length_append .., List.dropLast_concat ..⟩

end Sys2Proof.Machine
end

section
namespace Sys2Proof.Machine

/-! ## What a store leaves of the submission state (R42, R90 to R106, R129)

The rings and commands of the submission block stand beside memory, its pages and its errors. -/

theorem Gikan.sub_of_quiet {g h : Gikan} (e : h.quiet = g.quiet) : h.sub = g.sub :=
  congrArg (fun x => x.2.2.2.2.2.2.2.2.2.2.2.2.2.2.2.2.2.2.2.1) e
theorem Gikan.sub_of_inner {g h : Gikan} (e : h.inner = g.inner) : h.sub = g.sub := (congrArg Gikan.sub e :)
theorem Gikan.sub_of_besideFrames {g h : Gikan} (e : h.besideFrames = g.besideFrames) : h.sub = g.sub := (congrArg Gikan.sub e :)

theorem Gikan.sub_foldl {α : Type} {f : Gikan → α → Gikan} (hf : ∀ h x, (f h x).sub = h.sub) (l : List α) (g : Gikan) : (l.foldl f g).sub = g.sub :=
  List.foldlRecOn (motive := fun h => h.sub = g.sub) l f rfl fun h e x _ => (hf h x).trans e

section
variable (g : Gikan) (s : Site)

theorem Gikan.sub_flipOn (h most : Nat) : (g.flipOn h most).2.sub = g.sub := by
  unfold Gikan.flipOn; split <;> rfl

theorem Gikan.sub_setBad (u n w : Nat) : (g.setBad u n w).sub = g.sub := rfl

theorem Gikan.sub_written (u : Nat) : (g.written s u).sub = g.sub := by
  unfold Gikan.written Gikan.flipWritten
  dsimp only
  split
  · split
    · split <;> exact (Gikan.sub_flipOn ..).trans rfl
    · rfl
  · split <;> exact (Gikan.sub_flipOn ..).trans rfl

theorem Gikan.sub_correctedAt (p : Nat × Nat × Nat × Nat) : (g.correctedAt p).sub = g.sub := (Gikan.sub_of_quiet (Gikan.quiet_corrected ..)).trans rfl

theorem Gikan.sub_detected (n : Nat) : (g.detected n).2.sub = g.sub := by
  unfold Gikan.detected; split <;> rfl

theorem Gikan.sub_poisonUnit (u : Nat) : (g.poisonUnit s u).sub = g.sub := Gikan.sub_written ..

theorem Gikan.sub_uncorrectable (u src : Nat) : (g.uncorrectable s u src).sub = g.sub :=
  (Gikan.sub_poisonUnit ..).trans (Gikan.sub_of_quiet (Gikan.quiet_logUe ..))

theorem Gikan.sub_garble (u : Nat) : (g.garble s u).2.sub = g.sub := rfl

theorem Gikan.sub_decode (u src : Nat) : (g.decode s u src).2.sub = g.sub := by
  unfold Gikan.decode
  dsimp only
  split
  · split <;> rfl
  · split
    · rw [Gikan.sub_written, Gikan.sub_correctedAt]
    · split
      · rw [Gikan.sub_uncorrectable, Gikan.sub_detected]
      · split
        · rw [Gikan.sub_correctedAt, Gikan.sub_garble, Gikan.sub_detected]
        · rw [Gikan.sub_garble, Gikan.sub_detected]

theorem Gikan.sub_decodeAll (src : Nat) (us : List Nat) : (g.decodeAll s src us).1.sub = g.sub := by
  induction us generalizing g with
  | nil => rfl
  | cons u us ih =>
    have h := (ih (g.decode s u src).2).trans (g.sub_decode s u src)
    unfold Gikan.decodeAll
    dsimp only
    split <;> exact h

theorem Gikan.sub_copyOut (a n : Nat) : (g.copyOut s a n).1.sub = g.sub := by
  have h := g.sub_decodeAll s 3 (s.units a n)
  unfold Gikan.copyOut Gikan.readMem
  dsimp only
  split <;> exact h

theorem Gikan.sub_writeMem (a : Nat) (data : List Byte) : (g.writeMem s a data).sub = g.sub := by
  refine Gikan.sub_foldl (fun h u => ?_) _ _
  unfold Gikan.writeUnit
  dsimp only
  split
  · exact Gikan.sub_written ..
  · refine (Gikan.sub_written ..).trans ?_
    split <;> exact (Gikan.sub_decode ..).trans rfl

/-! Pages and lines -/

theorem Gikan.sub_addErrors (us : List Nat) (which n : Nat) : (g.addErrors us which n).sub = g.sub := by
  unfold Gikan.addErrors
  split
  · split <;> rfl
  · split
    · rfl
    · exact (Gikan.sub_foldl (fun _ _ => Gikan.sub_setBad ..) _ _).trans rfl

theorem Gikan.sub_adoptErrors (entry p f n : Nat) : (g.adoptErrors entry p f n).sub = g.sub := by
  unfold Gikan.adoptErrors
  refine Gikan.sub_foldl (fun _ _ => ?_) _ _
  exact (Gikan.sub_addErrors ..).trans rfl

theorem Gikan.sub_allocPage {g h : Gikan} {entry p : Nat} {e : ExtW} (ha : g.allocPage entry p e = some h) : h.sub = g.sub := by
  unfold Gikan.allocPage at ha
  obtain ⟨r, hr, rfl⟩ := Option.map_eq_some_iff.mp ha
  exact (Gikan.sub_adoptErrors ..).trans (Gikan.sub_of_besideFrames (Gikan.besideFrames_allocFrames (f := r.1) hr))

theorem Gikan.sub_stampHeader (p : Nat) : (g.stampHeader s p).sub = g.sub := by
  unfold Gikan.stampHeader; split <;> rfl

theorem Gikan.sub_dirtyPage (p : Nat) : (g.dirtyPage s p).sub = g.sub := by
  unfold Gikan.dirtyPage
  dsimp only
  split
  · split
    next ha => exact (Gikan.sub_stampHeader ..).trans ((Gikan.sub_setPage ..).trans (Gikan.sub_allocPage ha))
    next => rfl
  · rfl
  · split <;> rfl
  · split <;> rfl
  · rfl
  · rfl

theorem Gikan.sub_issue (x : Nat) (q : Req) (c : Consumer) : (g.issue x q c).sub = g.sub := by
  unfold Gikan.issue
  split
  · rfl
  · split
    next t g1 ht =>
      unfold Gikan.sendFirst
      refine (Gikan.sub_of_inner (Gikan.inner_sendOwn ..)).trans ?_
      rw [Gikan.takeTag_state ht]
      rfl
    next => rfl

theorem Gikan.sub_copyLines (a n : Nat) : (g.copyLines s a n).sub = g.sub := by
  unfold Gikan.copyLines
  dsimp only
  split
  · rfl
  · refine Gikan.sub_foldl (fun h i => ?_) _ _
    split
    · unfold Gikan.sendHomeLine Gikan.sendControl
      dsimp only
      split
      · rfl
      · rw [Gikan.sub_issue, Gikan.sub_copyOut]
    · rfl

theorem Gikan.sub_dirCache (entry l : Nat) : (g.dirCache entry l).sub = g.sub := by
  have hinc : ∀ (f e : Fld) (b : Bool), (if b then g.inc f 1 else g.inc e 1).sub = g.sub := fun f e b => by cases b <;> rfl
  unfold Gikan.dirCache
  exact hinc ..

theorem Gikan.sub_quickTxn (entry l : Nat) : (g.quickTxn entry l).sub = g.sub := by
  unfold Gikan.quickTxn
  dsimp only
  rw [Gikan.sub_dirCache]
  split <;> rfl

theorem Gikan.sub_cohTouch (a n : Nat) (write : Bool) : (g.cohTouch s a n write).sub = g.sub := by
  unfold Gikan.cohTouch
  split
  · rfl
  · refine Gikan.sub_foldl (fun h l => ?_) _ _
    split
    · rfl
    · split
      · exact Gikan.sub_quickTxn ..
      · rfl

theorem Gikan.sub_engineTouch (a n : Nat) (write : Bool) : (g.engineTouch s a n write).sub = g.sub :=
  Gikan.sub_foldl (fun _ _ => Gikan.sub_setPage ..) _ _

theorem Gikan.sub_engWrite (a : Nat) (data : List Byte) : (g.engWrite s a data).sub = g.sub := by
  unfold Gikan.engWrite Gikan.engineWrite Gikan.store
  exact (Gikan.sub_copyLines ..).trans ((Gikan.sub_writeMem ..).trans ((Gikan.sub_foldl (fun h p => h.sub_dirtyPage s p) _ _).trans
    ((Gikan.sub_engineTouch ..).trans (Gikan.sub_cohTouch ..))))

end

end Sys2Proof.Machine
end

section
namespace Sys2Proof.Machine

/-! ## Commands by number -/

section
variable {g : Gikan} {kw idx : Nat} {c : Cmd}

theorem Gikan.kway_setKway (k : Keyway) : (g.setKway kw k).kway kw = k := Tbl.getD_setD_same ..

theorem Gikan.idx_of_cmd? (hc : g.cmd? kw idx = some c) : c.idx = idx := by simpa using List.find?_some hc

/-- A command changed in all but its number is found as changed. -/
theorem Gikan.cmd?_updCmd (hc : g.cmd? kw idx = some c) {f : Cmd → Cmd} (hf : ∀ d, (f d).idx = d.idx) :
    (g.updCmd kw idx f).cmd? kw idx = some (f c) := by
  have hkeep : ∀ d : Cmd, (if d.idx == idx then f d else d).idx = d.idx := fun d => by split <;> simp [hf]
  have hidx : (c.idx == idx) = true := beq_iff_eq.mpr (Gikan.idx_of_cmd? hc)
  have hfun : (fun d : Cmd => d.idx == idx) ∘ (fun d => if d.idx == idx then f d else d) = fun d => d.idx == idx :=
    funext fun d => congrArg (· == idx) (hkeep d)
  rw [Gikan.cmd?, Gikan.updCmd, Gikan.kway_setKway, List.find?_map, hfun]
  exact (congrArg (Option.map _) hc).trans (congrArg some (if_pos hidx))

end

/-! ## The end of translation (R271 to R274) -/

/-- A page of `n` bytes that an address is walked for. -/
theorem page_holds (va a : Nat) {n : Nat} (hn : 0 < n) : va / n * n ≤ va ∧ va < va / n * n + n ∧ va / n * n % n = 0 ∧ a / n * n % n = 0 :=
  ⟨Nat.div_mul_le_self .., Nat.lt_div_mul_add hn, Nat.mul_mod_left .., Nat.mul_mod_left ..⟩

/-- A walk that ends in a page ends in one of the two sizes, aligned, that holds the address. -/
theorem Gikan.walk_page {g h : Gikan} {asid va : Nat} {p : XPage} (hw : g.walk asid va = (h, .inr p)) :
    p.va ≤ va ∧ va < p.va + p.size ∧ (p.size = 2 ^ 25 ∨ p.size = 2 ^ 30) ∧ p.va % p.size = 0 ∧ p.addr % p.size = 0 := by
  unfold Gikan.walk at hw
  dsimp only at hw
  split at hw
  · cases hw
  split at hw
  · cases hw
  split at hw
  · cases hw
  next g1 e1 _ =>
  split at hw
  · split at hw
    · cases hw
    · cases hw
      obtain ⟨hle, hlt, hva, ha⟩ := page_holds va e1 (show 0 < 2 ^ 30 by decide)
      exact ⟨hle, hlt, .inr rfl, hva, ha⟩
  · split at hw
    · cases hw
    split at hw
    · cases hw
    next g2 e2 _ =>
    split at hw
    · cases hw
    · cases hw
      obtain ⟨hle, hlt, hva, ha⟩ := page_holds va e2 (show 0 < 2 ^ 25 by decide)
      exact ⟨hle, hlt, .inl rfl, hva, ha⟩

/-- A GATHER whose index list has its pages, and the granules of host pages that it lies in. -/
def Cmd.indexed (c : Cmd) (ips : List XPage) : Cmd :=
  { c with pages := ips, fill := ({ c with pages := ips } : Cmd).hostGranules c.indexSpan.1 c.indexSpan.2.1 }

section
variable {g : Gikan} {k : CmdRef} {c : Cmd} (hc : g.cmd? k.kw.val k.idx = some c)
include hc

theorem Gikan.translated_idle (hs : c.st ≠ .translating) : g.translated k = g := by
  unfold Gikan.translated
  simp only [hc]
  exact if_pos (.inl hs)

variable (hh : g.hasp = false) (hs : c.st = .translating)
include hh hs

/-- A command other than a GATHER: the walks of its spans, and what they end in. -/
theorem Gikan.translated_spans (ho : c.op ≠ opGATHER) :
    (∀ h ps f, g.mapSpans c.asid (c.spans 0) [] = (h, ps, some f) → g.translated k = h.xlateFault k.kw.val c.idx f) ∧
    (∀ h ps, g.mapSpans c.asid (c.spans 0) [] = (h, ps, none) → g.translated k = h.xlated k.kw.val c ps 0) := by
  have hgo : ¬(c.st ≠ .translating ∨ g.hasp = true) := by simp [hs, hh]
  unfold Gikan.translated
  simp only [hc, if_neg hgo, if_pos ho]
  exact ⟨fun h ps f hm => by rw [hm], fun h ps hm => by rw [hm]⟩

/-- A GATHER: its index list first, then, with the list's bytes there, its table. -/
theorem Gikan.translated_gather (ho : c.op = opGATHER) :
    (∀ h ps f, g.mapSpans c.asid [c.indexSpan] [] = (h, ps, some f) → g.translated k = h.xlateFault k.kw.val c.idx f) ∧
    (∀ h ips, g.mapSpans c.asid [c.indexSpan] [] = (h, ips, none) →
      (h.framesHeld (c.indexed ips) = false ∨ h.fillLeft (c.indexed ips) ≠ [] →
        g.translated k = (h.updCmd k.kw.val c.idx (fun _ => c.indexed ips)).cmdSettle k.kw.val c.idx) ∧
      (∀ j tb l ps, h.framesHeld (c.indexed ips) = true → h.fillLeft (c.indexed ips) = [] → h.tableBytes (c.indexed ips) = (j, tb) →
        j.mapSpans c.asid (c.spans tb) ips = (l, ps, none) → g.translated k = l.xlated k.kw.val (c.indexed ips) ps tb)) := by
  have hgo : ¬(c.st ≠ .translating ∨ g.hasp = true) := by simp [hs, hh]
  unfold Gikan.translated
  simp only [hc, if_neg hgo, if_neg (not_not.mpr ho)]
  refine ⟨fun h ps f hm => by rw [hm], fun h ips hm => ⟨fun hw => ?_, fun j tb l ps hf hl ht hj => ?_⟩⟩
  · rw [hm]
    refine if_pos ?_
    show (!(h.framesHeld (c.indexed ips) && (h.fillLeft (c.indexed ips)).isEmpty)) = true
    rcases hw with hw | hw
    · rw [hw]; rfl
    · rw [List.isEmpty_eq_false_iff.mpr hw, Bool.and_false]; rfl
  · rw [hm]
    refine (if_neg ?_).trans ?_
    · show ¬(!(h.framesHeld (c.indexed ips) && (h.fillLeft (c.indexed ips)).isEmpty)) = true
      rw [hf, hl]
      decide
    · show (match (h.tableBytes (c.indexed ips)).1.mapSpans c.asid (c.spans (h.tableBytes (c.indexed ips)).2) ips with
        | (h, _, some f) => h.xlateFault k.kw.val c.idx f
        | (l, ps, none) => l.xlated k.kw.val (c.indexed ips) ps (h.tableBytes (c.indexed ips)).2) = _
      simp only [ht, hj]

end

/-! ## FAULTED, READY and AFTER (R256, R275, R276) -/

section
variable {g : Gikan} {k : CmdRef} {c : Cmd} (hc : g.cmd? k.kw.val k.idx = some c)
include hc

theorem Gikan.pagesResident_idle (hs : c.st ≠ .faulted) : g.pagesResident k = g := by
  unfold Gikan.pagesResident
  simp only [hc, decide_eq_false hs]
  rfl

theorem Gikan.hostFillEnd_idle (hs : c.st ≠ .faulted) (gs : List (Nat × List Byte)) : g.hostFillEnd k gs = g := by
  unfold Gikan.hostFillEnd
  simp only [hc]
  exact if_pos (.inl hs)

theorem Gikan.pagesResident_settles (hh : g.hasp = false) (hs : c.st = .faulted) : g.pagesResident k = g.cmdSettle k.kw.val k.idx := by
  unfold Gikan.pagesResident
  simp only [hc, hs, hh]
  rfl

theorem Gikan.hostFillEnd_settles (hh : g.hasp = false) (hs : c.st = .faulted) (gs : List (Nat × List Byte)) : g.hostFillEnd k gs =
    (gs.foldl (fun h x => if c.fill.contains x.1 then h.granuleFill c x.1 x.2 else h) g).cmdSettle k.kw.val k.idx := by
  unfold Gikan.hostFillEnd
  simp only [hc]
  exact if_neg (by simp [hs, hh])

theorem Gikan.afterRelease_releases (hs : c.st = .ready) (ha : c.after = true) (he : g.earlierDone k.kw.val k.idx = true) :
    g.afterRelease k = g.updCmd k.kw.val k.idx (fun d => { d with released := true }) := by
  unfold Gikan.afterRelease
  simp only [hc, hs, ha, he]
  rfl

theorem Gikan.afterRelease_idle (h : c.st ≠ .ready ∨ c.after = false ∨ g.earlierDone k.kw.val k.idx = false) : g.afterRelease k = g := by
  unfold Gikan.afterRelease
  simp only [hc]
  refine if_neg ?_
  rcases h with h | h | h <;> simp [h]

end

section
variable {g : Gikan} {c : Cmd} (hp : ∀ p ∈ c.pages, p.host = none)
include hp

/-- Without host pages no port matters, no frame is taken and no granule is missing. -/
theorem Gikan.hostless : g.hostDown c = false ∧ g.takeFrames c = g ∧ g.framesHeld c = true ∧ g.fillLeft c = [] := by
  refine ⟨?_, ?_, ?_, ?_⟩
  · refine List.any_eq_false.mpr fun p hm => ?_
    rw [hp p hm]
    exact Bool.false_ne_true
  · refine List.foldlRecOn (motive := fun h => h = g) _ _ rfl fun h e x hx => ?_
    obtain ⟨i, hi, rfl⟩ := List.exists_mem_zipIdx'.mp ⟨x, hx, rfl⟩
    simp only [hp _ (List.getElem_mem hi)]
    exact e
  · refine List.all_eq_true.mpr fun p hm => ?_
    rw [hp p hm]
  · refine List.filter_eq_nil_iff.mpr fun n hn => ?_
    cases hg : c.pages[n / 8192]? with
    | none => exact Bool.false_ne_true
    | some p =>
      simp only [hp p (List.mem_of_getElem? hg)]
      exact Bool.false_ne_true

end

/-- A whole command whose pages are here and lie at no host is READY. -/
theorem Gikan.cmdSettle_ready {g : Gikan} {kw idx : Nat} {c : Cmd} (hc : g.cmd? kw idx = some c) (hw : c.whole = true) (hp : g.pinsHere c = true)
    (hh : ∀ p ∈ c.pages, p.host = none) : ∃ d, (g.cmdSettle kw idx).cmd? kw idx = some d ∧ d.st = .ready := by
  obtain ⟨hdown, htake, hheld, hleft⟩ := Gikan.hostless (g := g) hh
  have hpinned : c.pinned = true := (Bool.and_eq_true_iff.mp hp).1
  have hpin : g.pinCmd kw idx = g := by
    unfold Gikan.pinCmd
    simp only [hc, hpinned]
    rfl
  have heq : g.cmdSettle kw idx = g.updCmd kw idx (fun c => { c with st := .ready, fill := [] }) := by
    unfold Gikan.cmdSettle
    simp only [hc, hdown, hpin, htake, hheld, hleft, hw, hp]
    rfl
  rw [heq]
  exact ⟨_, Gikan.cmd?_updCmd hc fun _ => rfl, rfl⟩

/-! ## Completion (R255, R267 to R270) -/

section
variable {g : Gikan} {k : CmdRef} {c : Cmd} (hc : g.cmd? k.kw.val k.idx = some c)
include hc

theorem Gikan.commandComplete_idle (hs : c.st ≠ .done) : g.commandComplete k = g := by
  unfold Gikan.commandComplete
  simp only [hc]
  exact if_pos (.inl hs)

variable (hh : g.hasp = false) (hs : c.st = .done)
include hh hs

theorem Gikan.commandComplete_waits (hw : g.sub.waiting.contains (c.cq, k.kw.val, c.idx) = true) :
    g.commandComplete k = g.cohSettle (g.cqDrain c.cq) := by
  have hgo : ¬(c.st ≠ .done ∨ g.hasp = true) := by simp [hs, hh]
  unfold Gikan.commandComplete
  simp only [hc, if_neg hgo]
  exact if_pos hw

/-- A command that has ended, its host granules written back: freed, or its record put behind the queue's others. -/
theorem Gikan.commandComplete_ends {d : Cmd} (hw : g.sub.waiting.contains (c.cq, k.kw.val, c.idx) = false)
    (hd : (g.drainHost k.kw.val c).cmd? k.kw.val k.idx = some d) :
    let h := if d.status = stOK then g.drainHost k.kw.val c else (g.drainHost k.kw.val c).inc F.SUB_CMD_NOT_OK 1
    ((d.quiet = true ∧ d.status = stOK) ∨ (h.cq d.cq).valid = false → g.commandComplete k = h.cmdGone k.kw.val d.idx) ∧
    ((d.quiet = false ∨ d.status ≠ stOK) → (h.cq d.cq).valid = true → g.commandComplete k = g.cohSettle
      (({ h with sub := { h.sub with waiting := h.sub.waiting ++ [(d.cq, k.kw.val, d.idx)] } }).cqDrain d.cq)) := by
  intro h
  have hgo : ¬(c.st ≠ .done ∨ g.hasp = true) := by simp [hs, hh]
  have heq : g.commandComplete k = if (d.quiet && d.status == stOK) || !(h.cq d.cq).valid then h.cmdGone k.kw.val d.idx
      else g.cohSettle (({ h with sub := { h.sub with waiting := h.sub.waiting ++ [(d.cq, k.kw.val, d.idx)] } }).cqDrain d.cq) := by
    unfold Gikan.commandComplete
    simp only [hc, if_neg hgo]
    refine (if_neg (ne_true_of_eq_false hw)).trans ?_
    simp only [hd]
    rfl
  rw [heq]
  refine ⟨fun hq => if_pos ?_, fun hq hv => if_neg ?_⟩
  · rcases hq with ⟨hq, ho⟩ | hv
    · simp [hq, ho]
    · simp [hv]
  · rcases hq with hq | ho
    · simp [hq, hv]
    · simp [ho, hv]

end

section
variable (g : Gikan)

theorem Gikan.sub_answer (i x : Nat) (q : Req) (st : Nat) (payload : List Byte) : (g.answer i x q st payload).sub = g.sub := by
  refine (Gikan.sub_of_inner (Gikan.inner_answerFrom ..)).trans ?_
  unfold Gikan.dupClose
  split <;> rfl

theorem Gikan.sub_fenceLearn (kw idx : Nat) : (g.fenceLearn kw idx).sub = g.sub := by
  refine Gikan.sub_foldl (fun h d => ?_) _ _
  dsimp only
  split
  · split
    · rfl
    · split
      · exact (Gikan.sub_answer ..).trans rfl
      · rfl
  · rfl

theorem Gikan.releaseHostFrames_keeps : g.releaseHostFrames.sub.cqs = g.sub.cqs ∧ g.releaseHostFrames.sub.kws = g.sub.kws := by
  have hrel : ∀ l : List HostFrame, (l.foldl (fun k _ => k.windowReleased) g).sub = g.sub := fun l =>
    Gikan.sub_foldl (fun k _ => by unfold Gikan.windowReleased; split <;> rfl) l g
  unfold Gikan.releaseHostFrames
  dsimp only
  rw [hrel]
  exact ⟨rfl, rfl⟩

/-- An entry freed: its queue's rings stay, and its Keyway has it no more. -/
theorem Gikan.cmdGone_frees (kw idx : Nat) : (g.cmdGone kw idx).sub.cqs = g.sub.cqs ∧ (g.cmdGone kw idx).cmd? kw idx = none := by
  obtain ⟨h, hh⟩ : ∃ h, h = g.setKway kw { g.kway kw with cmds := (g.kway kw).cmds.filter (fun c => c.idx != idx) } := ⟨_, rfl⟩
  have hsub : (g.cmdGone kw idx).sub = h.releaseHostFrames.sub := by
    rw [hh]
    exact (Gikan.sub_fenceLearn ..).trans rfl
  obtain ⟨hcqs, hkws⟩ := h.releaseHostFrames_keeps
  rw [← hsub] at hcqs hkws
  refine ⟨hcqs.trans (by rw [hh]; rfl), ?_⟩
  have hcmds : ((g.cmdGone kw idx).kway kw).cmds = (g.kway kw).cmds.filter (fun c => c.idx != idx) := by
    have hkway : (g.cmdGone kw idx).kway kw = h.kway kw := by rw [Gikan.kway, hkws]; rfl
    rw [hkway, hh, Gikan.kway_setKway]
  rw [Gikan.cmd?, hcmds]
  refine List.find?_eq_none.mpr fun c hm => ?_
  simpa using (List.mem_filter.mp hm).2

theorem Gikan.sub_ringWrite (r : Ring) (size width : Nat) (data : List Byte) : (g.ringWrite r size width data).sub = g.sub := by
  unfold Gikan.ringWrite
  dsimp only
  split
  · rfl
  · rfl
  · split
    · split
      · exact Gikan.sub_engWrite ..
      · rfl
    · rfl

theorem Gikan.ringPut_counts (r : Ring) (notify : Bool) : (g.ringPut r notify).1.sub = g.sub ∧
    (g.ringPut r notify).2.tail = (r.tail + 1) % 2 ^ 32 ∧ (g.ringPut r notify).2.head = r.head := by
  unfold Gikan.ringPut
  dsimp only
  split
  · exact ⟨Gikan.sub_of_quiet (Gikan.quiet_msix ..), rfl, rfl⟩
  · exact ⟨rfl, rfl, rfl⟩

theorem Gikan.ringHead_counts (r : Ring) (head : Nat) : (g.ringHead r head).2.head = head % 2 ^ 32 ∧ (g.ringHead r head).2.tail = r.tail := by
  have hrest : ∀ (b : Bool) (x : Gikan) (a : Ring), (if b then (x, { a with armed := false }) else (g, a)).2.head = a.head ∧
      (if b then (x, { a with armed := false }) else (g, a)).2.tail = a.tail := fun b x a => by cases b <;> exact ⟨rfl, rfl⟩
  unfold Gikan.ringHead
  exact hrest ..

variable {g}

/-- HEAD takes the 32 bits that are written. -/
theorem Gikan.ringHead_bits {h : Gikan} {a r : Ring} {n : Nat} (hr : g.ringHead a (bits n 0 32) = (h, r)) : r.head = bits n 0 32 ∧ r.tail = a.tail := by
  obtain ⟨hhead, htail⟩ := g.ringHead_counts a (bits n 0 32)
  rw [hr] at hhead htail
  exact ⟨hhead.trans (Nat.mod_eq_of_lt (bits_lt ..)), htail⟩

variable {q kw idx : Nat} {c : Cmd} (hc : g.cmd? kw idx = some c)
include hc

theorem Gikan.writeRecordOf_found : g.writeRecordOf q kw idx = if (g.cq q).records ≤ (g.cq q).used then g else
    (let (a, r) := (g.ringWrite (g.cq q) (g.cq q).records 32 (g.record c ((g.cq q).phase (g.cq q).records))).ringPut (g.cq q) c.notify
     Gikan.cmdGone { a.setCq q r with sub := { (a.setCq q r).sub with
       waiting := (a.setCq q r).sub.waiting.filter (fun w => w != (q, kw, idx)) } } kw idx) := by
  rw [Gikan.writeRecordOf, hc]

theorem Gikan.writeRecordOf_full (h : (g.cq q).records ≤ (g.cq q).used) : g.writeRecordOf q kw idx = g :=
  (Gikan.writeRecordOf_found hc).trans (if_pos h)

/-- A record written takes one place of its queue, and its command's entry is freed. -/
theorem Gikan.writeRecordOf_room (h : (g.cq q).used < (g.cq q).records) :
    ((g.writeRecordOf q kw idx).cq q).tail = ((g.cq q).tail + 1) % 2 ^ 32 ∧ ((g.writeRecordOf q kw idx).cq q).head = (g.cq q).head ∧
      (g.writeRecordOf q kw idx).cmd? kw idx = none := by
  obtain ⟨k, hk⟩ : ∃ k, k = g.ringWrite (g.cq q) (g.cq q).records 32 (g.record c ((g.cq q).phase (g.cq q).records)) := ⟨_, rfl⟩
  obtain ⟨a, r, hput⟩ : ∃ a r, k.ringPut (g.cq q) c.notify = (a, r) := ⟨_, _, rfl⟩
  obtain ⟨b, hb⟩ : ∃ b : Gikan, b = { a.setCq q r with sub := { (a.setCq q r).sub with
    waiting := (a.setCq q r).sub.waiting.filter (fun w => w != (q, kw, idx)) } } := ⟨_, rfl⟩
  have heq : g.writeRecordOf q kw idx = b.cmdGone kw idx := by
    rw [Gikan.writeRecordOf_found hc, if_neg (Nat.not_le.mpr h), ← hk, hput, hb]
  obtain ⟨hcqs, hnone⟩ := b.cmdGone_frees kw idx
  obtain ⟨-, htail, hhead⟩ := k.ringPut_counts (g.cq q) c.notify
  rw [hput] at htail hhead
  have hcq : (b.cmdGone kw idx).cq q = r := by
    rw [Gikan.cq, hcqs, hb]
    exact Tbl.getD_setD_same ..
  rw [heq, hcq]
  exact ⟨htail, hhead, hnone⟩

end

/-! Heads of queues (R267, R269, R270) -/

/-- The heads' writes are named before the offset is looked up: the kernel is not to unfold their 32-bit arithmetic. -/
theorem Gikan.writeReg_cqHead (g : Gikan) (w : RegW) : g.writeReg (offOf (F.SUB_Q_HEAD_HEAD 0)) w = g.wrCqHead w := by
  unfold Gikan.writeReg
  rw [if_neg (by decide)]
  show g.writeEngine _ w = _
  unfold Gikan.writeEngine
  generalize g.wrCqHead w = k
  rfl

theorem Gikan.writeReg_mqHead (g : Gikan) (w : RegW) : g.writeReg (offOf (F.SUB_Q_HEAD_HEAD 1)) w = g.wrMqHead w := by
  unfold Gikan.writeReg
  rw [if_neg (by decide)]
  show g.writeEngine _ w = _
  unfold Gikan.writeEngine
  generalize g.wrMqHead w = k
  rfl

section
variable (g : Gikan) {w : RegW} (hw : w.half ≠ .high)
include hw

/-- A write that reaches the low half covers HEAD. -/
theorem headMask_ne_zero : bits (halfMask w.half) 0 32 ≠ 0 := by
  cases hh : w.half with
  | high => exact absurd hh hw
  | full => decide
  | low => decide

theorem Gikan.wrCqHead_eq {n : Nat} {h : Gikan} {r : Ring} (hn : n = g.get (F.SUB_Q_INDEX_QUEUE 0)) (hl : n < 256)
    (hr : g.ringHead (g.cq n) (bits w.data.toNat 0 32) = (h, r)) : g.wrCqHead w = g.cohSettle ((h.setCq n r).cqDrain n) := by
  have heq : g.wrCqHead w = if bits (halfMask w.half) 0 32 = 0 ∨ 256 ≤ g.get (F.SUB_Q_INDEX_QUEUE 0) then g else
      (let (k, r) := g.ringHead (g.cq (g.get (F.SUB_Q_INDEX_QUEUE 0))) (bits w.data.toNat 0 32)
       g.cohSettle ((k.setCq (g.get (F.SUB_Q_INDEX_QUEUE 0)) r).cqDrain (g.get (F.SUB_Q_INDEX_QUEUE 0)))) := by
    unfold Gikan.wrCqHead
    rfl
  rw [heq, ← hn, if_neg (not_or.mpr ⟨headMask_ne_zero hw, Nat.not_le.mpr hl⟩), hr]

theorem Gikan.wrMqHead_eq {n : Nat} {h : Gikan} {r : Ring} (hn : n = g.get (F.SUB_Q_INDEX_QUEUE 1))
    (hr : g.ringHead (g.mq n) (bits w.data.toNat 0 32) = (h, r)) : g.wrMqHead w = h.setMq n r := by
  have heq : g.wrMqHead w = if bits (halfMask w.half) 0 32 = 0 then g else
      (let (k, r) := g.ringHead (g.mq (g.get (F.SUB_Q_INDEX_QUEUE 1))) (bits w.data.toNat 0 32)
       k.setMq (g.get (F.SUB_Q_INDEX_QUEUE 1)) r) := by
    unfold Gikan.wrMqHead
    rfl
  rw [heq, ← hn, if_neg (headMask_ne_zero hw), hr]

end

/-! ## Invalidation (R277) -/

section
variable (g : Gikan)

/-- Commands whose walks are under way. -/
def Gikan.walking (g : Gikan) : List (Nat × Nat) :=
  g.sub.kws.flatMap (fun k => (k.2.cmds.filter (fun c => c.st == .translating)).map (fun c => (k.1, c.idx)))

theorem Gikan.mem_walking {kw idx : Nat} {c : Cmd} (hc : g.cmd? kw idx = some c) (hs : c.st = .translating) : (kw, idx) ∈ g.walking := by
  have hm : c ∈ (g.kway kw).cmds := List.mem_of_find?_eq_some hc
  cases hk : g.sub.kws.get? kw with
  | none =>
    have hempty : g.kway kw = Keyway.empty := by rw [Gikan.kway, Tbl.getD, hk]; rfl
    rw [hempty] at hm
    cases hm
  | some k =>
    have hkw : g.kway kw = k := by rw [Gikan.kway, Tbl.getD, hk]; rfl
    rw [hkw] at hm
    refine List.mem_flatMap.mpr ⟨(kw, k), Tbl.mem_of_get? hk, List.mem_map.mpr ⟨c, List.mem_filter.mpr ⟨hm, beq_iff_eq.mpr hs⟩, ?_⟩⟩
    rw [Gikan.idx_of_cmd? hc]

/-- An invalidation begun: BUSY, and the walks under way to be waited for. -/
def Gikan.invalBegun (g : Gikan) (asid : Nat) (all : Bool) : Gikan :=
  { g.set F.SUB_XLATE_INVAL_BUSY 1 with sub := { g.sub with
    walks := g.sub.walks.filter (fun x => !(all || x.1 == asid)), inval := some (g.sub.inval.getD [] ++ g.walking) } }

theorem Gikan.wrXlateInval_begins {w : RegW} (hgo : wrOne w F.SUB_XLATE_INVAL_GO = true) : g.wrXlateInval w =
    (g.putField w F.SUB_XLATE_INVAL_DONE).invalBegun ((wrField w F.SUB_XLATE_INVAL_ASID).1 &&& (wrField w F.SUB_XLATE_INVAL_ASID).2)
      (wrOne w F.SUB_XLATE_INVAL_ALL) :=
  if_neg (by rw [hgo]; decide)

theorem Gikan.invalBegun_shows (asid : Nat) (all : Bool) : (g.invalBegun asid all).on F.SUB_XLATE_INVAL_BUSY = true ∧
    (g.invalBegun asid all).sub.inval = some (g.sub.inval.getD [] ++ g.walking) := by
  have hget : (g.invalBegun asid all).get F.SUB_XLATE_INVAL_BUSY = 1 := Gikan.get_set_same g F.SUB_XLATE_INVAL_BUSY 1
  exact ⟨by rw [Gikan.on_of_get hget]; rfl, rfl⟩

/-- An invalidation that has ended. -/
def Gikan.invalEnded (g : Gikan) : Gikan :=
  (({ g with sub := { g.sub with inval := none } }.set F.SUB_XLATE_INVAL_BUSY 0).set F.SUB_XLATE_INVAL_DONE 1).inc F.SUB_XLATE_EVENTS_INVALS 1

theorem Gikan.invalEnded_shows : g.invalEnded.sub.inval = none ∧ g.invalEnded.on F.SUB_XLATE_INVAL_BUSY = false ∧
    g.invalEnded.on F.SUB_XLATE_INVAL_DONE = true ∧ g.invalEnded.sub.walks = g.sub.walks ∧
    g.invalEnded.get F.SUB_XLATE_EVENTS_INVALS = satAdd F.SUB_XLATE_EVENTS_INVALS.wid (g.get F.SUB_XLATE_EVENTS_INVALS) 1 := by
  obtain ⟨k, hk⟩ : ∃ k : Gikan, k = { g with sub := { g.sub with inval := none } } := ⟨_, rfl⟩
  have heq : g.invalEnded = ((k.set F.SUB_XLATE_INVAL_BUSY 0).set F.SUB_XLATE_INVAL_DONE 1).inc F.SUB_XLATE_EVENTS_INVALS 1 := by rw [hk]; rfl
  have hget : k.get F.SUB_XLATE_EVENTS_INVALS = g.get F.SUB_XLATE_EVENTS_INVALS := by rw [hk]; rfl
  refine ⟨rfl, ?_, ?_, rfl, ?_⟩
  · rw [Gikan.on, heq, Gikan.get_inc_ne _ _ _ _ (by decide), Gikan.get_set_ne _ _ _ _ (by decide), Gikan.get_set_same]
    rfl
  · rw [Gikan.on, heq, Gikan.get_inc_ne _ _ _ _ (by decide), Gikan.get_set_same]
    rfl
  · rw [heq, Gikan.get_inc_same, Gikan.get_set_ne _ _ _ _ (by decide), Gikan.get_set_ne _ _ _ _ (by decide), hget]

end

/-- An invalidation ends once no walk that it waits for is under way. -/
theorem Gikan.xlateInvalDone_waits {g : Gikan} {l : List (Nat × Nat)} (hl : g.sub.inval = some l)
    (hw : (l.any fun x => match g.cmd? x.1 x.2 with | some c => c.st == .translating | none => false) = true) : g.xlateInvalDone = g := by
  unfold Gikan.xlateInvalDone
  simp only [hl]
  exact if_pos hw

theorem Gikan.xlateInvalDone_ends {g : Gikan} {l : List (Nat × Nat)} (hl : g.sub.inval = some l)
    (hw : (l.any fun x => match g.cmd? x.1 x.2 with | some c => c.st == .translating | none => false) = false) :
    g.xlateInvalDone = g.invalEnded := by
  unfold Gikan.xlateInvalDone
  simp only [hl]
  exact if_neg (ne_true_of_eq_false hw)

/-- Settles O43: the equations of a command's translation, of its wait for pages, and of its end. -/
theorem commandLife : Obligations.CommandLife := by
  unfold Obligations.CommandLife
  refine fun s k => ⟨fun c hc hh => ⟨fun hs => ?_, fun hs ho => ?_, fun hs ho => ?_, fun hs => ?_, fun hs => ?_, fun hs ha he => ?_, fun h => ?_, fun hs => ?_,
    fun hs hw => ?_, fun d hs hw hd => ?_⟩, fun g h asid va p hw => Gikan.walk_page hw, fun g kw idx c hc hw hp hn => Gikan.cmdSettle_ready hc hw hp hn,
    fun g q kw idx c hc => ⟨Gikan.writeRecordOf_full hc, Gikan.writeRecordOf_room hc⟩, fun w hw => ⟨fun n h r hr hn hl hh => ⟨?_, ?_⟩,
      fun n h r hr hn hh => ⟨?_, ?_⟩⟩, fun w hr => ?_, fun hh => ⟨fun hl => ?_, fun l hl => ⟨fun hw => ?_, fun hw => ?_⟩⟩⟩
  · exact congrArg s.done ((congrArg s.g.cohSettle (Gikan.translated_idle hc hs)).trans (Gikan.cohSettle_self s.g))
  · obtain ⟨hfault, hpages⟩ := Gikan.translated_spans hc hh hs ho
    exact ⟨fun h ps f hm => congrArg s.done (congrArg s.g.cohSettle (hfault h ps f hm)), fun h ps hm => congrArg s.done (congrArg s.g.cohSettle (hpages h ps hm))⟩
  · obtain ⟨hfault, hlist⟩ := Gikan.translated_gather hc hh hs ho
    exact ⟨fun h ps f hm => congrArg s.done (congrArg s.g.cohSettle (hfault h ps f hm)), fun h ips hm =>
      ⟨fun hw => congrArg s.done (congrArg s.g.cohSettle ((hlist h ips hm).1 hw)), fun j tb l ps hf hl ht hj =>
        congrArg s.done (congrArg s.g.cohSettle ((hlist h ips hm).2 j tb l ps hf hl ht hj))⟩⟩
  · exact ⟨congrArg s.done (Gikan.pagesResident_idle hc hs), fun gs => congrArg s.done (Gikan.hostFillEnd_idle hc hs gs)⟩
  · exact ⟨congrArg s.done (Gikan.pagesResident_settles hc hh hs), fun gs => congrArg s.done (Gikan.hostFillEnd_settles hc hh hs gs)⟩
  · exact exec_live rfl hh (Gikan.afterRelease_releases hc hs ha he)
  · exact exec_live_idle rfl (Gikan.afterRelease_idle hc h)
  · exact congrArg s.done (Gikan.commandComplete_idle hc hs)
  · exact congrArg s.done (Gikan.commandComplete_waits hc hh hs hw)
  · obtain ⟨hgone, hput⟩ := Gikan.commandComplete_ends hc hh hs hw hd
    exact ⟨fun h => congrArg s.done (hgone h), fun hq hv => congrArg s.done (hput hq hv)⟩
  · exact exec_reaches rfl ((s.g.writeReg_cqHead w).trans (s.g.wrCqHead_eq hw hn hl hh)) hr
  · exact (Gikan.ringHead_bits hh).1
  · exact exec_reaches rfl ((s.g.writeReg_mqHead w).trans (s.g.wrMqHead_eq hw hn hh)) hr
  · exact Gikan.ringHead_bits hh
  · have hbody : (s.g.putField (trig w F.SUB_XLATE_INVAL_GO) F.SUB_XLATE_INVAL_DONE).body = s.g.body := Gikan.body_putField ..
    obtain ⟨k, hk⟩ : ∃ k, k = s.g.putField (trig w F.SUB_XLATE_INVAL_GO) F.SUB_XLATE_INVAL_DONE := ⟨_, rfl⟩
    have hbegin := s.g.wrXlateInval_begins (wrOne_trig w F.SUB_XLATE_INVAL_GO rfl)
    rw [← hk] at hbody hbegin
    have hsub : k.sub = s.g.sub := (congrArg Gikan.sub hbody :)
    refine ⟨s.withG _, exec_reaches rfl hbegin hr, (k.invalBegun_shows _ _).1, ?_, (Gikan.mem_of_body hbody :), fun kw idx c hc hs => ?_⟩
    · rw [← hsub]; rfl
    · have hcmd : k.cmd? kw idx = some c := by rw [Gikan.cmd?, Gikan.kway, hsub]; exact hc
      exact ⟨_, (k.invalBegun_shows _ _).2, List.mem_append_right _ (k.mem_walking hcmd hs)⟩
  · exact exec_live_idle rfl (show s.g.xlateInvalDone = s.g by unfold Gikan.xlateInvalDone; rw [hl])
  · exact exec_live_idle rfl (Gikan.xlateInvalDone_waits hl hw)
  · exact ⟨s.withG _, exec_live rfl hh (Gikan.xlateInvalDone_ends hl hw), s.g.invalEnded_shows⟩

end Sys2Proof.Machine
end
